-- ==== Sys2Proof/Word.lean ====
section
/-! DEFINITION. The word types of the package: bytes, 32-bit words and 64-bit words (00_scope.md R1, R2, R4). -/

namespace Sys2Proof

/-- One byte of memory, of a packet or of a frame. -/
abbrev Byte := BitVec 8

/-- One 32-bit register of the management space (R4). -/
abbrev Word := BitVec 32

/-- A field wider than one word (R1). -/
abbrev DWord := BitVec 64

end Sys2Proof
end

