-- ==== Sys2Proof/Syntax/Operands.lean ====
section
/-! DEFINITION. The operand types of the commands: what a command carries from outside the package
(register accesses, frames, flits, readings, host memory answers) and the operations of a frond. -/

namespace Sys2Proof

/-- A package's place in the torus, X then Y then Z (R243). -/
structure Coord where
  x : Nat := 0
  y : Nat := 0
  z : Nat := 0
deriving DecidableEq, Repr, Inhabited

/-- The two paths into the management space (R361), and the two other spaces of the PCIe function that software reaches: BAR2, which holds the
MSI-X table and pending bits, and the configuration space (R384, R420). -/
inductive Path where
  | i3c
  | bar0
  | bar2
  | config
deriving DecidableEq, Repr, Inhabited

/-- A register access as it reaches the package: its path, byte offset and width in bytes (R4, R361). -/
structure RegAccess where
  path : Path
  off : Nat
  width : Nat
deriving DecidableEq, Repr, Inhabited

/-- What a bus-mastering read of host memory brings back (R365, R381, R324). -/
inductive HostRead where
  | ok (bytes : List Byte)
  | pcieError
deriving DecidableEq, Repr, Inhabited

/-- A fabric or twin frame: the frame header of R229, the virtual lane and dateline class it travels in, and its payload. -/
structure Frame where
  dst : Coord := {}
  src : Coord := {}
  part : Nat := 0
  kind : Nat
  raise : Bool := false
  token : Nat := 0
  arg : Nat := 0
  vl : Nat
  dl : Nat := 0
  payload : List Byte
deriving DecidableEq, Repr, Inhabited

/-- One flit as the receiver has it after FEC decoding: header, payload bytes 8 to 239 and the CRC field (R223). -/
structure Flit where
  hdr : BitVec 64
  payload : List Byte
  crc : BitVec 32
deriving DecidableEq, Repr, Inhabited

/-- What the FEC decoder reports of a flit (R224). -/
inductive Fec where
  | clean
  | corrected
  | failed
deriving DecidableEq, Repr, Inhabited

/-- A unit of memory whose access can fail (R202, R217). -/
inductive MemUnit where
  | hbm (stack pc : Nat)
  | peat (k : Nat)
  | hub
  | host
deriving DecidableEq, Repr, Inhabited

/-- How one 2 KiB piece of a MEM_FILL ended (R214, R215). 'data' is what a host read returned (HOST_IN only);
'corrected' are the units that reported a corrected error; 'off' is the offset in the piece of the write that was refused; 'poison' is the unit that
refused the poison write, if one did, with the offset in that write. -/
inductive PieceEnd where
  | ok (data : List Byte) (corrected : List MemUnit)
  | readFailed (unit : MemUnit) (corrected : List MemUnit) (poison : Option (MemUnit × Nat))
  | writeFailed (unit : MemUnit) (off : Nat) (corrected : List MemUnit) (poison : Option (MemUnit × Nat))
deriving DecidableEq, Repr, Inhabited

/-- The nine rails (R411). Every rail has a place in the power-up sequence; the four core rails share one (R392). -/
inductive Rail where
  | vaon
  | vaux18
  | vhub
  | vcomp (die : Nat)
  | vlink
  | vpeat
deriving DecidableEq, Repr, Inhabited

/-- What a self-test phase found (R396, R399): the marks of every failing unit, and for a phase or a check without marks its reason and unit, reason 0
when it passed. 'dieFail' marks the die controllers that failed phase 4, by ring position. 'repaired' are the HBM channels on which the training of
phase 5 switched a repair lane in, one entry a lane (R206). -/
structure PhaseReport where
  reason : Nat := 0
  unitKind : Nat := 0
  unit : Nat := 0
  laneFail : BitVec 28 := 0
  groupFail : BitVec 144 := 0
  dieFail : BitVec 4 := 0
  stack : List (BitVec 32) := []
  repaired : List Nat := []
  peat : List (BitVec 32) := []
deriving DecidableEq, Repr, Inhabited

/-- The IEEE 1149.1 instructions every TAP implements (R34). -/
inductive TapInstr where
  | bypass
  | idcode
  | samplePreload
  | extest
  | clamp
  | highz
deriving DecidableEq, Repr, Inhabited

/-- An operation of the test access port (R34 to R37): TRST_N, Test-Logic-Reset, an instruction scan that loads one
instruction per chain position, or a data scan of the bits given. -/
inductive TapOp where
  | trst
  | testLogicReset
  | irScan (instrs : List TapInstr)
  | drScan (tdi : List Bool)
deriving DecidableEq, Repr, Inhabited

/-- Parameters of ALOAD (R54). -/
structure AloadArgs where
  src : Nat
  wfmt : Nat
  expand : Nat
  kValid : Nat
  nValid : Nat
deriving DecidableEq, Repr, Inhabited

/-- Parameters of ASTREAM (R54). 'afmt' is the activation format of R52; 'token' the completion token it names, if any (R132). -/
structure AstreamArgs where
  src : Nat
  stride : Nat
  afmt : Nat
  m : Nat
  acc : Nat
  accStride : Nat
  initAcc : Bool
  mode : Nat
  kValid : Nat
  nValid : Nat
  token : Option Nat := none
deriving DecidableEq, Repr, Inhabited

/-- The comparison predicates of R94. -/
inductive Cmp where
  | eq
  | ne
  | lt
  | le
  | gt
  | ge
deriving DecidableEq, Repr, Inhabited

/-- The two-operand arithmetic of a vector lane or a scalar unit (R60, R66, R95). -/
inductive FpBin where
  | add
  | mul
  | max
  | min
  | div
deriving DecidableEq, Repr, Inhabited

/-- The ranking operations of R96. -/
inductive Rank where
  | argmax
  | argmin
  | sort
  | topk (k : Nat)
deriving DecidableEq, Repr, Inhabited

/-- A vector unit operation (R60, R61): register numbers 0 to 15; 'f19' selects F19 operands and result, and in a comparison each operand's format. -/
inductive VecOp where
  | bin (op : FpBin) (f19 : Bool) (d a b : Nat)
  | fma (f19 : Bool) (d a b c : Nat)
  | cmp (p : Cmp) (f19a f19b : Bool) (d a b : Nat)
  | load (d addr : Nat)
  | store (s addr : Nat)
  | rank (op : Rank) (f19 : Bool) (d a : Nat)
  | widen (fmt d a : Nat)
  | widenMx (fmt : Nat) (f19 : Bool) (d addr block : Nat)
deriving DecidableEq, Repr, Inhabited

/-- A pinnule instruction by what it does (R66): the encodings of the instruction words are not in the spec. -/
inductive PinOp where
  | undefined
  | int (code d a b : Nat)
  | fpBin (op : FpBin) (f19 : Bool) (d a b : Nat)
  | fpFma (f19 : Bool) (d a b c : Nat)
  | fpSqrt (f19 : Bool) (d a : Nat)
  | fpCmp (p : Cmp) (f19a f19b : Bool) (d a b : Nat)
  | fpWiden (fmt d a : Nat)
  | fp16Add (d a b : Nat)
  | quadFma (d a b c : Nat)
  | quadBin (op : FpBin) (d a b : Nat)
  | loadLocal (d addr : Nat)
  | storeLocal (s addr : Nat)
  | loadFrond (d addr : Nat)
  | storeFrond (s addr : Nat)
  | moveFpInt (d a : Nat)
  | moveIntFp (d a : Nat)
  | intFp (signed : Bool) (d a : Nat)
  | issueShared (unit : Nat)
  | startSlot (slot : Nat)
  | dropMask (d q dropT : Nat)
deriving DecidableEq, Repr, Inhabited

/-- What FINCHK tests: one FP32 register or one quad register (R157). -/
inductive FinArg where
  | fp (r : Nat)
  | quad (r : Nat)
deriving DecidableEq, Repr, Inhabited

/-- Where a data frame of a collective stands in its program: the axis of its stage, the position that receives its piece,
the sender's side on a line (true: from below), the byte offset of its data in the piece's place and whether its stage is one of the
all-gather. The frame carries a chunk number only (R292); the program's numbering is not in the spec. -/
structure CollPlace where
  axis : Nat
  piece : Nat
  fromBelow : Bool
  off : Nat
  gather : Bool
deriving DecidableEq, Repr, Inhabited

/-- What makes an UP port retrain (R255). -/
inductive LinkEventCause where
  | laneLoss (lane : Nat)
  | replays
  | noAccept
deriving DecidableEq, Repr, Inhabited

/-- Which bound of the bring-up table was overrun (R30). -/
inductive BringupStep where
  | release (ring : Nat)
  | pll (ring : Nat)
  | hubLink (ring : Nat)
  | admission
  | firmware (ring : Nat)
  | half (h : Nat)
  | aligned
  | phase
deriving DecidableEq, Repr, Inhabited

/-- The lane faults of R205. -/
inductive LaneFault where
  | writeCrc
  | caParity
  | margin
deriving DecidableEq, Repr, Inhabited

/-- What a rail monitor reports (R394, R414): the rail and the voltage in µV that it has read for more than 100 µs. -/
structure RailReading where
  rail : Rail
  uv : Nat
deriving DecidableEq, Repr, Inhabited

/-- How a read of an image in HBM ends (R141, R202): the unit of an uncorrectable error, and the units of the corrected ones. -/
structure HbmRead where
  error : Option MemUnit
  corrected : List MemUnit
deriving DecidableEq, Repr, Inhabited

/-- What a register write may fetch from host memory (R365, R372): the parameter block of a command that it latches, and the records of the
submissions that it unmasks, in ring order. -/
structure HostFetch where
  block : HostRead
  records : List HostRead
deriving DecidableEq, Repr, Inhabited

/-- Where a narrowed value goes (R80, R89): the register or the address of the block group, and the block in the group. -/
structure ConvDst where
  place : Nat
  block : Nat
deriving DecidableEq, Repr, Inhabited

/-- What pattern code of the first stage names for an input record (R151): the landing ranges, each a logical frond, an address and the bytes of a
token, and the places that get TOKENS, each a logical frond and an address. -/
structure Landing where
  ranges : List (Nat × Nat × Nat)
  places : List (Nat × Nat)
deriving DecidableEq, Repr, Inhabited

end Sys2Proof
end

