-- ==== Sys2Proof/Syntax.lean ====
section
/-! DEFINITION. The commands of the package: one constructor per row of spec/opcode_table.json, in the table's order, with the operands
that come from outside the package (95_what_each_step_holds.md: each row is one whole, indivisible step). -/

namespace Sys2Proof

/-- The steps of the package. A row of *Opcodes* (R379) names the channel whose held command takes its first step. -/
inductive Instr where
  /-- VAON_RISE (R395). The always-on rail rises; the AON domain is held in reset, and the next self-test is a full one. -/
  | vaonRise
  /-- VAON_FALL (R393). The always-on rail falls; the AON bank and the fault log are lost, and the package resets as at power-up. -/
  | vaonFall
  /-- PWR_OK_FALL (R394). PWR_OK goes low, which acts as a low PKG_RESET_N. -/
  | pwrOkFall
  /-- PKG_RESET_N_ASSERT (R32). Package reset is asserted; every die returns to reset and the management space reads zero. -/
  | pkgResetNAssert
  /-- PKG_RESET_N_RELEASE (R395). Package reset is released; the straps are sampled, the boot ROM starts, and a quick or full self-test begins. -/
  | pkgResetNRelease (strap : BitVec 12) (tj : Int)
  /-- PERST_N_ASSERT (R389). PCIe fundamental reset resets only the host port and clears ENABLE and SUBMIT_ENABLE on every host channel. -/
  | perstNAssert
  /-- FUNCTION_LEVEL_RESET (R420). A PCIe function-level reset has the effect of R389 and touches nothing beyond the host port. -/
  | functionLevelReset
  /-- RAIL_FAULT (R394). A rail other than VAON has been out of its operating range for 100 µs; patterns halt and the package enters Safe Listen. -/
  | railFault (rail : RailReading)
  /-- AVSBUS_SETTLE_TIMEOUT (R413). Readback has not shown the target voltage within 1 ms of the AVSBus write, which is treated as a rail fault. -/
  | avsbusSettleTimeout (rail : Nat)
  /-- TAP_OPERATION (R34). A test access port operation or TRST_N acts on the chain; EXTEST, CLAMP and HIGHZ act as BYPASS while the package runs. -/
  | tapOperation (op : TapOp)
  /-- THERMAL_SAMPLE (R350). Every 100 µs the junction sensors are read; the package warns, throttles L_therm or trips by the thermal table. -/
  | thermalSample (readings : List Int)
  /-- THERMAL_COMPARATOR_TRIP (R419). The analogue comparator of the hub asserts THERM_TRIP_N when a hub sensor reads 115 °C or more. -/
  | thermalComparatorTrip (reading : Int)
  /-- L_THERM_RISE (R350). After each 100 ms at or below 92 °C, L_therm rises by one, up to 15. -/
  | lThermRise
  /-- SELFTEST_PHASE_END (R396). A self-test phase finishes; the next phase starts, or self-test passes or fails. -/
  | selftestPhaseEnd (report : PhaseReport)
  /-- SELFTEST_PHASE_TIMEOUT (R396). A self-test phase overruns its bound and fails with reason TIMEOUT. -/
  | selftestPhaseTimeout
  /-- DIE_RELEASE (R28). The hub releases the next compute die from reset, in ring order, 250 AON ticks after the previous one. -/
  | dieRelease
  /-- DIE_PLL_LOCK (R29). The PLLs of a compute die lock and training of its hub link begins. -/
  | diePllLock (ring : Nat)
  /-- HUB_LINK_UP (R29). A hub link finishes training and the hub sends a capability query. -/
  | hubLinkUp (ring : Nat)
  /-- CAPABILITY_REPLY (R23). A capability reply arrives; it is accepted only when its tag matches the latest query. -/
  | capabilityReply (ring tag : Nat) (block : List Byte)
  /-- CAPABILITY_QUERY_TIMEOUT (R23). No matching reply arrives within 100 µs; the hub queries again or, after three queries, fails admission with NO_RESPONSE. -/
  | capabilityQueryTimeout (ring : Nat)
  /-- DIE_FIRMWARE_LOADED (R29). A die controller's firmware load over the MGT class completes, which allows its half-partner link to train. -/
  | dieFirmwareLoaded (ring : Nat)
  /-- HALF_PARTNER_LINK_UP (R29). A half-partner link comes up; once both are up, the stitch counter copies are aligned and the phase completes. -/
  | halfPartnerLinkUp (half : Nat)
  /-- BRINGUP_TIMEOUT (R30). A bring-up step or the whole UCIe/ODP phase overruns its bound, which is a self-test failure with reason TIMEOUT. -/
  | bringupTimeout (which : BringupStep)
  /-- UCIE_FLIT_CRC_RETRY (R19). A die-link flit fails its CRC and the UCIe adapter retries it without changing data. -/
  | ucieFlitCrcRetry (link : Nat)
  /-- DIE_LINK_TRAINING_LOSS (R20). A die-link module loses training; the link stops traffic, retrains with lane repair and counts one die-link event. -/
  | dieLinkTrainingLoss (link : Nat)
  /-- DIE_LINK_RETRAIN_DONE (R20). Die-link retraining completes and traffic resumes with nothing lost or duplicated. -/
  | dieLinkRetrainDone (link : Nat)
  /-- DIE_LINK_LOST (R21). Retraining does not complete within 1 ms; every pattern halts with INTERNAL and pattern commands are refused until reset. -/
  | dieLinkLost (link : Nat)
  /-- PART_CREATE (R380). Checks and creates a partition with its frond groups, HBM and peat ranges, and starts the zero-fills. -/
  | partCreate (ch : Nat)
  /-- PART_CREATE_FILL_DONE (R209). Every zero-fill of a PART_CREATE has finished, and the command completes with its doorbell. -/
  | partCreateFillDone (part : Nat)
  /-- PART_DESTROY (R212). Destroys a partition and frees its groups, ranges and contexts without filling them. -/
  | partDestroy (ch : Nat)
  /-- PART_QUERY (R379). Returns the partition's state, size, bases and group map. -/
  | partQuery (ch : Nat)
  /-- PATTERN_LOAD (R144). Accepts an image load and queues it for admission. -/
  | patternLoad (ch : Nat)
  /-- PATTERN_ADMIT (R144). Queues the admission checks of an image without reserving or changing anything. -/
  | patternAdmit (ch : Nat)
  /-- ADMISSION_TURN (R374). A queued admission reaches its turn, reads the image and runs the checks of R141, and for PATTERN_LOAD reserves and loads. -/
  | admissionTurn (host : HostRead) (hbmError : HbmRead)
  /-- PATTERN_START (R126). Checks the TCB and START_STITCH, resets tokens and counters, and arms a LOADED pattern. -/
  | patternStart (ch : Nat)
  /-- PATTERN_HALT (R127). Requests a halt of the partition's pattern at the next stitch boundary. -/
  | patternHalt (ch : Nat)
  /-- PATTERN_STATUS (R138). Returns the pattern state, last status, step, base, slip and abort report. -/
  | patternStatus (ch : Nat)
  /-- POWER_TARGET (R347). Checks a megawatt target and originates a rate announcement in target mode. -/
  | powerTarget (ch : Nat)
  /-- RATE_SET (R347). Sets a rate level, either locally or by announcing it to the fabric. -/
  | rateSet (ch : Nat)
  /-- POWER_REPORT (R351). Returns the levels, state, power, temperature, energy and power counters. -/
  | powerReport (ch : Nat)
  /-- DOMAIN_QUERY (R352). Returns a 192-byte record of the state of every switched domain. -/
  | domainQuery (ch : Nat)
  /-- LINK_PROFILE (R221). Sets the division of the fabric lanes into ports before the first link plan. -/
  | linkProfile (ch : Nat)
  /-- LINK_PLAN (R246). Accepts the fabric plan, takes the package's own entry and starts bring-up of every planned port. -/
  | linkPlan (ch : Nat)
  /-- LINK_REPORT (R254). Returns the 432-byte record of the plan and of every port. -/
  | linkReport (ch : Nat)
  /-- SELVAGE_SET (R262). Accepts selvage ports and NO_WRAP axes for the next stitch boundary. -/
  | selvageSet (ch : Nat)
  /-- SELVAGE_APPLY (R262). At the next stitch boundary the selvage ports and NO_WRAP settings take effect. -/
  | selvageApply
  /-- ROUTE_TABLE_LOAD (R265). Loads up to 16 boxes of permitted destinations that filter routed frames at injection. -/
  | routeTableLoad (ch : Nat)
  /-- STATS_READ (R175). Returns the requested statistics block as a long record. -/
  | statsRead (ch : Nat)
  /-- CONGESTION_MAP (R268). Sends TELEMETRY requests to every package of a box and gathers their replies. -/
  | congestionMap (ch : Nat)
  /-- CONGESTION_MAP_TIMEOUT (R268). 10 ms after the last request, the map completes with the replies it has. -/
  | congestionMapTimeout
  /-- FAULT_LOG_READ (R408). Returns fault-log entries from a given sequence number. -/
  | faultLogRead (ch : Nat)
  /-- CTX_OPEN (R316). Checks quota and table and opens a context in the lowest free entry with a new handle. -/
  | ctxOpen (ch : Nat)
  /-- CTX_CLOSE (R317). Closes a context, frees it or marks it CLOSING, and rejects any pending request. -/
  | ctxClose (ch : Nat)
  /-- CTX_QUOTA (R312). Sets the partition's context quota. -/
  | ctxQuota (ch : Nat)
  /-- BATCH_POLICY (R327). Sets the deadline, MAX_ROWS and submit ring, and seals forming batches that are due under the new policy. -/
  | batchPolicy (ch : Nat)
  /-- SELFTEST_REPORT (R399). Returns the 512-byte self-test record. -/
  | selftestReport (ch : Nat)
  /-- SELFTEST_RUN (R398). Runs self-test phases 2, 4, 5, 6 and 7 in the mode named, while no partition exists. -/
  | selftestRun (ch : Nat)
  /-- TWIN_BIND (R354). Binds a LOADED partition to twin comparison, or unbinds it. -/
  | twinBind (ch : Nat)
  /-- TWIN_SHED (R355). Checks and originates a twin announcement that sheds a fabric or makes it SOLO. -/
  | twinShed (ch : Nat)
  /-- TWIN_REJOIN (R356). Checks and originates a DONOR announcement for a SOLO partition. -/
  | twinRejoin (ch : Nat)
  /-- TWIN_STATUS (R360). Returns the twin state, the copy progress and the last compared step. -/
  | twinStatus (ch : Nat)
  /-- MEM_REGULATE (R199). Accepts new HBM or peat regulator settings for the next stitch boundary. -/
  | memRegulate (ch : Nat)
  /-- MEM_REGULATE_APPLY (R199). At the next stitch boundary the regulator settings apply before that boundary's refill, and the command replies OK. -/
  | memRegulateApply
  /-- MEM_FILL (R213). Checks and starts a striped transfer of 2 KiB pieces: a value fill, a copy, or a host transfer in or out. -/
  | memFill (ch : Nat)
  /-- MEM_FILL_PIECE_DONE (R214). One piece of a MEM_FILL finishes or fails; a failed piece writes poison, and the last piece completes the transfer. -/
  | memFillPieceDone (part piece : Nat) (result : PieceEnd)
  /-- FAULT_POLICY (R403). Changes the window and threshold of one fault class. -/
  | faultPolicy (ch : Nat)
  /-- FW_INFO (R383). Returns the firmware, ROM, protocol, format and TCB versions. -/
  | fwInfo (ch : Nat)
  /-- PARKED_WAKE_DONE (R340). Every domain returns to its R338 state after a waking command, which then completes. -/
  | parkedWakeDone
  /-- PARKED_ENTRY (R340). After a twin shed, once no pattern is ARMED or RUNNING, the package parks. -/
  | parkedEntry
  /-- REGISTER_WRITE (R6). A write to a register that has no row of its own, such as a W1C cause clear or a mask, acts by its access code. -/
  | registerWrite (a : RegAccess) (value : Word) (host : HostFetch)
  /-- DB_RING_SUBMIT (R324). The submit doorbell makes the package read submit-ring records by phase and check each as a step request. -/
  | dbRingSubmit (a : RegAccess) (value : Word) (records : List HostRead)
  /-- DB_RING_RXPOST (R372). The receive-post doorbell tells the package that buffers have been posted to the receive ring. -/
  | dbRingRxpost (a : RegAccess) (value : Word)
  /-- DB_CLEAR (R372). A write clears the selected DB_STATUS bits. -/
  | dbClear (a : RegAccess) (value : Word)
  /-- RX_TAIL_WRITE (R387). Advancing RX_TAIL posts free receive buffers. -/
  | rxTailWrite (a : RegAccess) (value : Word) (buffers : List Nat)
  /-- RX_CTRL_WRITE (R389). Writes the ring control; enabling resets RX_HEAD and RSEQ, and writes to the fields are ignored while enabled. -/
  | rxCtrlWrite (a : RegAccess) (value : Word)
  /-- RXRING_DROP_READ (R6). A read returns the dropped-record count and clears it. -/
  | rxringDropRead (a : RegAccess)
  /-- STITCH_BOUNDARY (R128). The stitch counter advances by one every 4,096 frond cycles, and each enabled regulator share refills. -/
  | stitchBoundary
  /-- PATTERN_RUN_START (R126). At START_STITCH an ARMED pattern becomes RUNNING and step 0 begins. -/
  | patternRunStart (part : Nat)
  /-- PATTERN_HALT_EFFECT (R127). At the first stitch boundary after a halt falls due, the pattern halts with the status of its cause. -/
  | patternHaltEffect (part : Nat)
  /-- STEP_BEGIN (R135). At base B(N+1) the next step begins and the step finite flag is set to 1. -/
  | stepBegin (part : Nat)
  /-- ANNOUNCEMENT_APPLY (R284). At stitch EFFECTIVE every due announcement is applied, in the fixed order. -/
  | announcementApply
  /-- LOCAL_RATE_APPLY (R347). A local RATE_SET sets L_sched at its stitch, after the announcements applied there. -/
  | localRateApply
  /-- ANNOUNCEMENT_FORGET (R283). 65,536 stitches after EFFECTIVE, the package forgets the announcement's ORIGIN and SEQ. -/
  | announcementForget (origin : Coord) (seq : Nat)
  /-- RATE_STEP (R343). Once the interval of the current level has passed, L_run steps at most 4 levels toward its goal. -/
  | rateStep
  /-- RATE_WAKE_LEAD (R344). One wake lead before an upward step, the voltage is raised and the standby PLL is locked. -/
  | rateWakeLead
  /-- SYNC_ROUND (R273). At each stitch K with K mod 1,024 = 0, each participating port sends SYNC and then FOLLOW. -/
  | syncRound (departures : List (Nat × Int))
  /-- SYNC_RECEIVE (R272). A SYNC flit records its arrival time and its root and depth advertisement, and may change the parent. -/
  | syncReceive (port : Nat) (payload : List Byte) (arrival : Int)
  /-- FOLLOW_RECEIVE (R274). A FOLLOW flit gives the offset and flight time to the partner, which steer the PLL trim. -/
  | followReceive (port : Nat) (payload : List Byte)
  /-- COUNTER_RAISE (R276). An idle package raises its stitch counter to a greater partner count at its next boundary. -/
  | counterRaise
  /-- BRINGUP_ATTEMPT (R247). After acceptance or a 50 ms wait, a port begins a bring-up attempt. -/
  | bringupAttempt (port : Nat)
  /-- LANE_LOCK (R246). A lane locks its equalisation and clock recovery in TRAIN. -/
  | laneLock (port lane : Nat)
  /-- TRAIN_TIMEOUT (R246). A lane has not locked within 300 ms, and the attempt fails. -/
  | trainTimeout (port : Nat)
  /-- ALIGN_FLIT (R249). An ALIGN flit is taken for deskew and round-trip measurement, or for detection of mixed lanes. -/
  | alignFlit (port lane : Nat) (payload : List Byte) (arrival departure : Nat)
  /-- ALIGN_TIMEOUT (R246). ALIGN has not completed within 350 ms, and the attempt fails. -/
  | alignTimeout (port : Nat)
  /-- IDENT_FLIT (R250). An IDENT flit carries the partner identity; IDENT completes when every lane has two identical flits and SEEN. -/
  | identFlit (port lane : Nat) (payload : List Byte)
  /-- IDENT_TIMEOUT (R246). IDENT has not completed within 450 ms, and the attempt fails. -/
  | identTimeout (port : Nat)
  /-- LANE_SIGNAL_LOSS (R246). A lane loses a signal that it has received in the attempt, and the attempt fails. -/
  | laneSignalLoss (port lane : Nat)
  /-- PLAN_CHECK (R251). When every planned port has finished IDENT or become ABSENT, each port gets a result and LINK_PLAN completes. -/
  | planCheck
  /-- FLIT_RECEIVE (R225). A flit is decoded and checked, accepted in sequence or failed with NAK, and its ACK, NAK and symbol take effect. -/
  | flitReceive (port lane : Nat) (fec : Fec) (flit : Flit)
  /-- FLOW_HOLD_EXPIRY (R236). The hold of an OFF expires, and the channel becomes sending. -/
  | flowHoldExpiry (port sch : Nat)
  /-- FLOW_OFF_RESEND (R237). While a channel is still short of places, the receiver resends OFF after half of its last hold. -/
  | flowOffResend (port sch : Nat)
  /-- FRAME_SEND (R234). A port starts a frame in the priority order of its stitch, when its channel is sending and its allowance permits. -/
  | frameSend (port : Nat)
  /-- LINK_EVENT (R255). Loss of lane signal, 8 replays of one flit or 100 µs without acceptance makes an UP port hold its traffic and retrain. -/
  | linkEvent (port : Nat) (cause : LinkEventCause)
  /-- PORT_RETRAIN_DONE (R255). The retrain completes with the same partner, and the port replays and resumes. -/
  | portRetrainDone (port : Nat)
  /-- PORT_LOST (R256). The retrain overruns 1 ms or finds another partner; the port is LOST and patterns halt with LINK_LOST. -/
  | portLost (port : Nat)
  /-- LOST_PORT_BRINGUP (R256). 100 ms after a port is lost, bring-up runs again against the current plan. -/
  | lostPortBringup (port : Nat)
  /-- ROUTED_FORWARD (R258). A routed frame for another package is forwarded by dimension order, with its dateline class. -/
  | routedForward (port : Nat) (frame : Frame)
  /-- PDATA_FRAME (R232). A pattern-data frame lands its bytes in the named logical frond and raises its token when RAISE is set. -/
  | pdataFrame (port : Nat) (frame : Frame)
  /-- COLL_FRAME (R292). A collective frame is matched to its instance by GROUP_ID and INSTANCE and takes part in the reduction or tree pass. -/
  | collFrame (port : Nat) (frame : Frame) (place : CollPlace)
  /-- COMMAND_FRAME (R391). A forwarded command is run as a channel 1 command, or a reply is written to the channel 1 ring as REMOTE_REPLY. -/
  | commandFrame (port : Nat) (frame : Frame)
  /-- VOTE_FRAME (R164). A vote record is combined up the job-box tree, or the combined record is received and the step is decided. -/
  | voteFrame (port : Nat) (frame : Frame)
  /-- ABORT_RECORD (R296). An abort record aborts the instance and is kept and relayed when it is the best held. -/
  | abortRecord (port : Nat) (frame : Frame)
  /-- VOTE_TIMEOUT (R165). No combined record has come within COLL_TIMEOUT of sending the vote; the pattern halts with COLL_ABORT. -/
  | voteTimeout (part : Nat)
  /-- BROADCAST_FRAME (R283). A new announcement is held and relayed on every UP port except the one it came on, or is counted as late or dropped. -/
  | broadcastFrame (port : Nat) (frame : Frame)
  /-- CREDIT_FRAME (R241). Credits of the current EPOCH reduce the in-flight count of their window. -/
  | creditFrame (port : Nat) (frame : Frame)
  /-- CREDIT_SEND (R241). With 8 credits gathered for a source, or 10 µs after the first, the destination sends a CREDIT frame. -/
  | creditSend (source : Coord)
  /-- WINDOW_TIMEOUT (R242). A window without a credit for 1 ms is reset and its EPOCH advances. -/
  | windowTimeout (part window : Nat)
  /-- FALLBACK_FRAME (R387). A fallback frame is written as a record to the partition's host receive ring, or dropped. -/
  | fallbackFrame (port : Nat) (frame : Frame)
  /-- SERVE_FRAME (R321). A serve record is taken by SUBKIND: a step request is checked, and a STEP_DONE or REJECT goes to the serve inbox. -/
  | serveFrame (port : Nat) (frame : Frame)
  /-- BATCH_SEAL_DEADLINE (R326). A forming batch seals in the AON tick at which its deadline E has been reached. -/
  | batchSealDeadline (part : Nat)
  /-- TELEMETRY_REQUEST (R270). A telemetry request is answered with this package's congestion-map entry within 100 µs. -/
  | telemetryRequest (port : Nat) (frame : Frame)
  /-- TELEMETRY_REPLY (R270). A telemetry reply of the map in progress fills its entry. -/
  | telemetryReply (port : Nat) (frame : Frame)
  /-- TWIN_SIG_FRAME (R303). A twin signature record is compared with the package's own record of that step, or a twin-port command is run on channel 2. -/
  | twinSigFrame (frame : Frame)
  /-- TWIN_COPY_FRAME (R358). A rejoin copy frame lands at its partition-relative offset, and the end frame completes the copy. -/
  | twinCopyFrame (frame : Frame)
  /-- SIGNATURE_SEND (R301). When hashing after a commit is done, the signature is sent in a TWIN_SIG frame. -/
  | signatureSend (part : Nat)
  /-- PEER_RECORD_DEADLINE (R305). The peer's record has not arrived by the deadline, and the partition becomes SOLO. -/
  | peerRecordDeadline (part : Nat)
  /-- DONOR_COPY_DEADLINE (R359). The copy has not ended at B(N+1), or the twin port is lost, and the donor stops sending. -/
  | donorCopyDeadline (part : Nat)
  /-- WARDEN_ISSUE (R130). An instruction with an earliest start issues once its stitch is reached and its tokens are raised, and its lateness is recorded. -/
  | wardenIssue (frond warden es : Nat) (tokens : List (Nat × Nat))
  /-- STITCH_WAIT (R129). The warden waits until the stitch B(N) plus the register's offset. -/
  | stitchWait (frond warden reg : Nat)
  /-- ALOAD (R54). Loads a weight tile into the shadow bank, one row per cycle or per four cycles. -/
  | aload (frond warden cycle : Nat) (args : AloadArgs)
  /-- ALOAD_ROW_RESUME (R58). A stalled ALOAD row is written once the last row tagged with that bank has left it. -/
  | aloadRowResume (frond cycle : Nat)
  /-- SWAP (R57). Once its conditions hold, the bank pointer toggles for every cell. -/
  | swap (frond warden cycle : Nat)
  /-- ASTREAM (R54). Streams M activation rows through the active bank, accumulating and writing result rows. -/
  | astream (frond warden cycle : Nat) (args : AstreamArgs)
  /-- ASTREAM_ENTER (R55). A queued ASTREAM enters row 0 in the cycle after the previous pass's last row. -/
  | astreamEnter (frond cycle : Nat)
  /-- VECTOR_OPERATION (R60). The vector lanes perform an FMA, add, compare, min, max, load or store. -/
  | vectorOperation (frond warden : Nat) (op : VecOp) (token : Option Nat)
  /-- VECTOR_REDUCTION (R62). A reduction across lanes runs in eight fixed steps into lane 0. -/
  | vectorReduction (frond warden : Nat) (op : FpBin) (f19 : Bool) (reg : Nat)
  /-- VECTOR_CONVERSION (R63). The vector unit narrows FP32 values by CVT and counts every conversion. -/
  | vectorConversion (frond warden : Nat) (cvt : Byte) (src dst block : Nat)
  /-- PINNULE_INSTRUCTION (R66). A pinnule executes an integer, FP32 or F19 quad instruction in order. -/
  | pinnuleInstruction (frond pinnule slot offset : Nat) (op : PinOp)
  /-- PINNULE_CONVERSION (R80). A pinnule conversion instruction narrows a value by its CVT byte. -/
  | pinnuleConversion (frond pinnule slot offset : Nat) (cvt : Byte) (src : Nat) (dst : ConvDst)
  /-- FINCHK (R157). Clears the step finite flag when a tested value is an infinity or a NaN. -/
  | finchk (frond pinnule : Nat) (arg : FinArg)
  /-- BOB (R182). Computes the Bobbin generator output into a quad register, ready 20 cycles after issue. -/
  | bob (frond pinnule cycle key0 key1 c0 c1 c2 c3 q : Nat)
  /-- RAISE (R132). The pinnule RAISE instruction raises a data token. -/
  | raise (frond pinnule token : Nat)
  /-- STEP_COMMIT (R162). A warden issues its one STEP.COMMIT of the step. -/
  | stepCommit (frond warden es : Nat)
  /-- VOTE_SEND (R162). When every warden has committed, every instruction has completed and every write stream has retired, the package forms and sends its vote. -/
  | voteSend (part : Nat)
  /-- SV_RECV (R322). Waits for the next serve-inbox record, copies it to the frond store and raises a token. -/
  | svRecv (frond warden addr token : Nat)
  /-- SV_SEND (R323). Sends a step request as a SERVE frame under the window rules. -/
  | svSend (frond warden : Nat) (dest : Coord) (destPart addr : Nat)
  /-- BATCH_TAKE (R328). Waits for batch k to seal and writes its descriptor into the frond store. -/
  | batchTake (frond warden addr token : Nat)
  /-- BATCH_DONE (R329). Completes the oldest batch, updates each row's context and sends STEP_DONE or REJECT CLOSED. -/
  | batchDone (frond warden seq addr : Nat)
  /-- FB_SEND (R388). Sends a fallback frame from a frond-store buffer under the window rules. -/
  | fbSend (frond warden : Nat) (dest : Coord) (destPart addr length : Nat)
  /-- MM_SEND (R148). A fused array pass sends its narrowed result chunks to a peer frond. -/
  | mmSend (frond warden record cycle : Nat) (args : AstreamArgs)
  /-- RECV_MM (R148). A fused array pass consumes activation chunks received from a peer. -/
  | recvMm (frond warden record cycle : Nat) (args : AstreamArgs)
  /-- MM_RS (R148). A fused array pass reduce-scatters its narrowed partial across the group. -/
  | mmRs (frond warden record cycle : Nat) (args : AstreamArgs)
  /-- AG_MM (R148). A fused array pass consumes a tensor all-gathered in rank order. -/
  | agMm (frond warden record cycle : Nat) (args : AstreamArgs)
  /-- MM_AR (R148). A fused array pass all-reduces its narrowed partial across the group. -/
  | mmAr (frond warden record cycle : Nat) (args : AstreamArgs)
  /-- VEC_AR (R148). All-reduces FP32 vector data across the group. -/
  | vecAr (frond warden record : Nat)
  /-- FUSED_CHUNK_SEND (R148). A chunk is sent once the peer has released chunk c minus SLOTS. -/
  | fusedChunkSend (frond record chunk : Nat)
  /-- COLLECTIVE_TIMEOUT (R294). DONE is not raised by deadline D, so the member aborts and sends its own abort record. -/
  | collectiveTimeout (part group inst : Nat)
  /-- ABORT_HOLD_EXPIRY (R297). At D + 1,024 the member names the first member to time out, logs it and releases its vote. -/
  | abortHoldExpiry (part group inst : Nat)
  /-- SPOOL_STREAM_ISSUE (R71). The spool warden issues a stream descriptor, which is checked and becomes outstanding when a stream place is free. -/
  | spoolStreamIssue (frond warden addr : Nat)
  /-- SPOOL_BURST_START (R72). A read stream starts burst j when j minus released is below DEPTH, after a check of its addresses. -/
  | spoolBurstStart (frond stream : Nat)
  /-- SPOOL_BURST_LANDED (R72). The last byte of a read burst lands, converted, and its token is raised in burst order. -/
  | spoolBurstLanded (frond stream burst : Nat) (ue ce : List Nat)
  /-- SPOOL_SLOT_RELEASE (R72). A consumer releases a slot, which allows further run-ahead. -/
  | spoolSlotRelease (frond stream : Nat)
  /-- SPOOL_WRITE_BURST (R73). A write stream writes burst j once the producer has raised its slot token. -/
  | spoolWriteBurst (frond stream : Nat)
  /-- SPOOL_WRITE_ACCEPTED (R73). Far memory accepts a write burst, or fails to accept it; a completion frees the slot. -/
  | spoolWriteAccepted (frond stream : Nat) (refused : List Nat)
  /-- REGULATOR_PIECE_PASS (R198). A held 2 KiB piece passes its regulator share once enough tokens have refilled. -/
  | regulatorPiecePass (part tier die bytes : Nat)
  /-- MICRO_BATCH_INPUT_READ (R151). The first stage reads an input record's TOKENS, accepts the micro-batch and zero-fills beyond it, or raises a length fault. -/
  | microBatchInputRead (part entry : Nat) (landing : Landing)
  /-- HBM_LANE_FAULT (R205). A write CRC, command/address parity or margin failure is one lane-fault event of its channel. -/
  | hbmLaneFault (channel lane : Nat) (kind : LaneFault)
  /-- HBM_LANE_RETRAIN (R205). At the first boundary after a lasting lane fault, the channel enters self-refresh and retrains with a repair lane. -/
  | hbmLaneRetrain (channel : Nat)
  /-- HBM_LANE_RETRAIN_DONE (R205). Retraining finishes and the channel leaves self-refresh with its contents kept. -/
  | hbmLaneRetrainDone (channel : Nat)
  /-- HBM_REFRESH (R339). Per-bank refresh runs at its fixed interval in nanoseconds. -/
  | hbmRefresh (stack pc : Nat)
  /-- PWR_OK_RISE (R394). PWR_OK goes high; the rail monitors are armed, and the hub holds the compute dies in reset from then on. -/
  | pwrOkRise
  /-- PERST_N_RELEASE (R397). PCIe fundamental reset is released; the host port trains its link and serves configuration requests with Request Retry Status until it is ready, at most 120 ms later. -/
  | perstNRelease
  /-- DOMAIN_WAKE_DONE (R337). A switched domain that was WAKING reaches ON, zero-filled where it had been OFF, and the accesses that waited for it proceed. -/
  | domainWakeDone (domain : Nat)
  /-- ENTDAA (R421). The I3C port takes part in dynamic address assignment, offers its provisional ID and takes the dynamic address it is given. -/
  | entdaa (address : Nat)
deriving DecidableEq, Repr

end Sys2Proof
end

