-- ==== Sys2Proof/Decode.lean ====
section
/-! DEFINITION. The command a word spells by the table's bits. No row of spec/opcode_table.json gives bits (every row's field list is
empty), so no word spells a command. -/

namespace Sys2Proof

/-- The command that the low bits of a word spell: none, since no row of the table gives bits (log entry 2). -/
def decodeTableWord (_nbits _w : Nat) : Option Instr := none

end Sys2Proof
end

