-- ==== Sys2Proof/Config.lean ====
section
/-! DEFINITION. What one package fixes and the spec does not state: release-dependent identity values,
and the FREE VALUES, opaque constants without a body. No proof can see a value of any of them. -/

namespace Sys2Proof.Config

/-- REV.STEP, the hub silicon stepping (11 ID block: reset value 'Stepping'). Log entry 10. -/
opaque stepping : BitVec 8
/-- FW_REV, the firmware release (11 ID block: reset value 'Release'). Log entry 10. -/
opaque fwRev : BitVec 32
/-- FW_INFO ROM_REV, boot ROM revision (11 FW_INFO). Log entry 10. -/
opaque romRev : BitVec 32
/-- FW_INFO BUILD_ID (11 FW_INFO). Log entry 10. -/
opaque buildId : BitVec 32
/-- A bit of a boundary-scan cell, whose order and content are outside the spec (R34). Log entry 11. -/
opaque boundaryBit : Nat → Nat → Bool
/-- Cells of the boundary register of the TAP at a chain position (R34). Log entry 11. -/
opaque boundaryLen : Nat → Nat
/-- AON ticks from the later reset release to the host port's readiness, held to 120 ms where used (R397). Log entry 70. -/
opaque hostReady : Nat
/-- AON ticks that the regulators take to settle after AVSBus write n, held to 1 ms where used (R413, R414). Log entry 71. -/
opaque settleTicks : Nat → Nat
/-- The Caertos MIPI manufacturer code, bits 47:33 of the provisional ID (R421). Log entry 10. -/
opaque mipiCode : BitVec 15
/-- Package power measured at the rails, watts (R351): a measurement. Log entry 12. -/
opaque powerW : Nat → BitVec 32
/-- Energy since PKG_RESET_N, joules (R351): a measurement. Log entry 12. -/
opaque energyJ : Nat → BitVec 64
/-- The result of an integer pinnule instruction, which the spec names and does not define (R66). Log entry 13. -/
opaque intResult : Nat → BitVec 32 → BitVec 32 → BitVec 32
/-- The word a comparison writes for its outcome: the encoding is not stated (R60, R94). Log entry 13. -/
opaque cmpWord : Bool → BitVec 32
/-- Where block (segment, column) of a weight tile lies among the tile's MX blocks (R54, R88): not stated. Log entry 14. -/
opaque tileBlock : Nat → Nat → Nat
/-- Where element (row, column) of an F19 weight tile lies among the tile's words (R54): not stated. Log entry 14. -/
opaque tileElem : Nat → Nat → Nat
/-- Number among the blocks at SRC of the MX block that is segment s of activation row m, for row stride n (R46, R54, R89): not stated. Log entry
14. -/
opaque actBlock : Nat → Nat → Nat → Nat
/-- An instruction word in a body that holds a CVT in its bits 31:24 (R148): the encodings are not stated. Log entry 79. -/
opaque cvtWord : BitVec 32 → Bool
/-- The weight format with EXPAND, and the activation format, that an array operation spelled by bytes names (R52, R54); neither where they spell
none: the encodings are not stated. Log entry 79. -/
opaque arrayOp : List (BitVec 8) → Option (Nat × Nat) × Option Nat
/-- Cycles that an access loses to bank conflicts (R41, R78): the cycles of the accesses are not in the commands. Log entry 57. -/
opaque conflictCycles : Nat → Nat
/-- A byte whose content the spec calls indeterminate: a 64-byte word whose write was not accepted (R204, R215). Log entry 15. -/
opaque freeByte : Nat → BitVec 8
/-- OFFSET of block 0x08 when twice theta is odd: the rounding to 1/32 ns is not stated (R274, R306). Log entry 16. -/
opaque halfOffset : Int → Int
/-- An AG.MM with LAND_WIDEN widens E5M2, not E4M3: the record does not name the format (R147, R148). Log entry 38. -/
opaque landE5m2 : Nat → Bool
/-- The 6 parity symbols of a codeword of 122 data symbols: R224 gives the field, the lengths and the strength of the code, and not its generator. Log
entry 83. -/
opaque fecParity : List (BitVec 8) → List (BitVec 8)
/-- ECHO_DELAY of an ALIGN flit (R249): when the flit starts is not in the commands. Log entry 31. -/
opaque echoDelay : Nat → BitVec 32
/-- The signature that stands for the own record of a mismatch in which this package holds none (R303, R304), by the last step committed. Log entry 52. -/
opaque staleSig : Nat → BitVec 128
/-- What an image refusal reports where the spec names nothing: the offset of a missing section, the INDEX of a body that no frond has (R143, R428).
Log entry 19. -/
opaque admissionIndex : Nat → Nat

end Sys2Proof.Config
end

