-- ==== Sys2Proof/Machine/Tab.lean ====
section
/-! DEFINITION. Sparse tables and byte memories: lists of (key, value) pairs in one canonical form, keys strictly rising and
no entry equal to the default an unlisted key reads as. Memory is the table of bytes whose unlisted bytes read zero (R210, R211). -/

namespace Sys2Proof.Machine

/-- A sparse table from a number to a value; what an unlisted key reads as is given where the table is used. -/
abbrev Tab (α : Type) := List (Nat × α)

/-- Read one key. -/
def Tab.get {α : Type} (d : α) : Tab α → Nat → α
  | [], _ => d
  | c :: t, k => if c.1 = k then c.2 else Tab.get d t k

/-- Put one entry before the first greater key. -/
def Tab.ins {α : Type} (k : Nat) (v : α) : Tab α → Tab α
  | [] => [(k, v)]
  | c :: t => if k < c.1 then (k, v) :: c :: t else c :: Tab.ins k v t

/-- Remove every entry of a key. -/
def Tab.del {α : Type} (k : Nat) (t : Tab α) : Tab α := t.filter (fun c => c.1 != k)

/-- Write one key; writing the default removes the entry. -/
def Tab.set {α : Type} [DecidableEq α] (d : α) (t : Tab α) (k : Nat) (v : α) : Tab α :=
  if v = d then Tab.del k t else Tab.ins k v (Tab.del k t)

/-- Change one key by a function. -/
def Tab.upd {α : Type} [DecidableEq α] (d : α) (t : Tab α) (k : Nat) (f : α → α) : Tab α :=
  Tab.set d t k (f (Tab.get d t k))

/-- Make every key of a range read the default. -/
def Tab.clear {α : Type} (lo n : Nat) (t : Tab α) : Tab α :=
  t.filter (fun c => decide (c.1 < lo ∨ lo + n ≤ c.1))

/-- The canonical form: keys strictly rising, no entry equal to the default. -/
abbrev Tab.wf {α : Type} (d : α) (t : Tab α) : Prop :=
  t.Pairwise (fun a b => a.1 < b.1) ∧ ∀ c ∈ t, c.2 ≠ d

/-- A byte memory (R211: what nothing has written since the last zero-fill reads zero). -/
abbrev Mem := Tab Byte

/-- The canonical form of a byte memory. -/
abbrev Memory.wf (m : Mem) : Prop := Tab.wf 0 m

/-- Read one byte. -/
def Mem.read (m : Mem) (a : Nat) : Byte := Tab.get 0 m a

/-- Write one byte. -/
def Mem.write (m : Mem) (a : Nat) (b : Byte) : Mem := Tab.set 0 m a b

/-- Read n bytes from an address upward. -/
def Mem.readN (m : Mem) : Nat → Nat → List Byte
  | _, 0 => []
  | a, n + 1 => Mem.read m a :: Mem.readN m (a + 1) n

/-- Write a list of bytes from an address upward. -/
def Mem.writeN (m : Mem) (a : Nat) : List Byte → Mem
  | [] => m
  | b :: bs => Mem.writeN (Mem.write m a b) (a + 1) bs

/-- Fill a range with zeros (R209). -/
def Mem.zero (m : Mem) (lo n : Nat) : Mem := Tab.clear lo n m

end Sys2Proof.Machine
end

