-- ==== Sys2Proof/Machine/Bytes.lean ====
section
/-! DEFINITION. Bytes and fields: little-endian packing (R1), bit ranges (R2), saturating counters (R8), records laid out by
offset, and the CRC-32 of IEEE 802.3 (R113, R223). -/

namespace Sys2Proof.Machine

/-- The n little-endian bytes of a value (R1). -/
def leBytes : Nat → Nat → List Byte
  | 0, _ => []
  | n + 1, v => BitVec.ofNat 8 v :: leBytes n (v / 256)

/-- The value of little-endian bytes (R1). -/
def leNat : List Byte → Nat
  | [] => 0
  | b :: bs => b.toNat + 256 * leNat bs

/-- n bytes of a packet from an offset; bytes that follow its end read as zero (R365). -/
def slice (bs : List Byte) (off n : Nat) : List Byte :=
  let got := (bs.drop off).take n
  got ++ List.replicate (n - got.length) 0

/-- The n-byte little-endian field at an offset (R1, R365). -/
def fld (bs : List Byte) (off n : Nat) : Nat := leNat (slice bs off n)

/-- Bits hi down to lo of a number, both ends included (R2). -/
def bits (v hi lo : Nat) : Nat := (v / 2 ^ lo) % 2 ^ (hi + 1 - lo)

/-- One bit of a number (R2). -/
def bit (v i : Nat) : Bool := v.testBit i

/-- 1 for true, 0 for false. -/
def b2n (b : Bool) : Nat := if b then 1 else 0

/-- The n-byte two's complement of an integer. -/
def twos (n : Nat) (i : Int) : Nat := (i % (2 ^ (8 * n) : Int)).toNat

/-- The integer an n-byte two's complement field holds. -/
def signed (n v : Nat) : Int := if 2 ^ (8 * n - 1) ≤ v % 2 ^ (8 * n) then (v % 2 ^ (8 * n) : Int) - 2 ^ (8 * n) else (v % 2 ^ (8 * n) : Int)

/-- Count up, held at the all-ones value of w bits (R8). -/
def satAdd (w a b : Nat) : Nat := min (a + b) (2 ^ w - 1)

/-- One field of a record: byte offset, length in bytes and value. -/
structure Fld where
  off : Nat
  len : Nat
  val : Nat
deriving DecidableEq, Repr

/-- The byte of a record at a position; bytes that no field covers are reserved and zero (R3). -/
def recByte (fs : List Fld) (i : Nat) : Byte :=
  match fs with
  | [] => 0
  | f :: r => if f.off ≤ i ∧ i < f.off + f.len then BitVec.ofNat 8 (f.val / 256 ^ (i - f.off)) else recByte r i

/-- A record of a length from its fields. -/
def record (len : Nat) (fs : List Fld) : List Byte := (List.range len).map (recByte fs)

/-- Whether every byte from lo up to and not including hi is zero (R3: reserved bytes). -/
def zeros (bs : List Byte) (lo hi : Nat) : Bool := (slice bs lo (hi - lo)).all (· == 0)

/-- One bit of the reflected CRC-32 of IEEE 802.3. -/
def crcBit (c : BitVec 32) : BitVec 32 := if c.getLsbD 0 then (c >>> 1) ^^^ 0xEDB88320#32 else c >>> 1

/-- One byte of the CRC-32. -/
def crcByte (c : BitVec 32) (b : Byte) : BitVec 32 :=
  crcBit (crcBit (crcBit (crcBit (crcBit (crcBit (crcBit (crcBit (c ^^^ b.setWidth 32))))))))

/-- The CRC-32 of IEEE 802.3 over bytes (R113, R223). -/
def crc32 (bs : List Byte) : BitVec 32 := ~~~(bs.foldl crcByte 0xFFFFFFFF#32)

/-- Ceiling division. -/
def cdiv (a b : Nat) : Nat := (a + b - 1) / b

/-- Put an element before the first one with a greater key. -/
def insertOn {α : Type} (key : α → Nat) (x : α) : List α → List α
  | [] => [x]
  | y :: t => if key x ≤ key y then x :: y :: t else y :: insertOn key x t
/-- A list in ascending order of a key; elements of one key keep their order. -/
def sortOn {α : Type} (key : α → Nat) (l : List α) : List α := l.foldr (insertOn key) []

end Sys2Proof.Machine
end

