-- ==== Sys2Proof/Machine/State.lean ====
section
/-! DEFINITION. The state of one package as plain data: every register, queue, table, counter, mode and pin the spec gives it,
with its reset value. Each field's comment gives its meaning, its width, the rule that names it and its reset value; INVENTORY.md
lists the same. Fields marked MODEL are the model's own. -/

namespace Sys2Proof.Machine

/-- The status codes of R367. -/
inductive Status where
  | ok | accepted | partialDone | busy | conflict | badOpcode | badParam | notPermitted | refusedFit | refusedShape
  | tableFull | linkAbsent | miswired | linkLost | collAbort | stepSkipped | signatureMismatch | safeListen
  | faultLasting | internal
deriving DecidableEq, Repr, Inhabited

/-- Power-up phases of the package (R392 to R401): VAON down, held in reset, self-test, running, Safe Listen. -/
inductive Phase where
  | off | held | selfTest | up | safeListen
deriving DecidableEq, Repr, Inhabited

/-- The parked state and its end (R340). -/
inductive Park where
  | no | parked | waking
deriving DecidableEq, Repr, Inhabited

/-- The AON domain, its pins and what they hold (R32, R334, R392 to R401, R418, R419). -/
structure Aon where
  /-- Power-up phase. W: enum. SPEC: 12 R392-R401. RESET: held in reset (VAON risen). -/
  phase : Phase := .held
  /-- AON ticks since VAON rose. W: 64. SPEC: 10 R334, 12 R408. RESET: 0 at VAON rise. -/
  ticks : Nat := 0
  /-- Pin PWR_OK. W: 1. SPEC: 12 R392, 13 R418. RESET: low. -/
  pwrOk : Bool := false
  /-- Pin PKG_RESET_N. W: 1. SPEC: 13 R418. RESET: low. -/
  pkgResetN : Bool := false
  /-- Pin PERST_N. W: 1. SPEC: 13 control pins. RESET: DESIGN CHOICE low. -/
  perstN : Bool := false
  /-- AON tick of the later of the releases of PERST_N and PKG_RESET_N. W: 64. SPEC: 12 R397. RESET: 0. -/
  hostRelease : Nat := 0
  /-- Rails found out of range: bits 0 to 8 are VAON, VAUX18, VHUB, VCOMP0 to VCOMP3, VLINK and VPEAT. W: 9. SPEC: 12 R394, 13 R411. RESET: 0. -/
  railsOut : BitVec 9 := 0
  /-- Of those, the rails found below their range: they are not up. W: 9. SPEC: 01 R35, 12 R401, 13 R419. RESET: 0. -/
  railsLow : BitVec 9 := 0
  /-- Position of a rail whose fault takes the package into Safe Listen at the next stitch boundary, with the halts of the patterns. W: optional.
  SPEC: 12 R394. RESET: none. -/
  listenDue : Option Nat := none
  /-- The firmware trip has been taken. W: 1. SPEC: 10 R350, 13 R427. RESET: no. -/
  tripped : Bool := false
  /-- Rail monitors armed at PWR_OK. W: 1. SPEC: 12 R392. RESET: not armed. -/
  armed : Bool := false
  /-- STRAP[11:0] as sampled. W: 12. SPEC: 13 R418. RESET: sampled at the release; DESIGN CHOICE 0 before it. -/
  strap : BitVec 12 := 0
  /-- THERM_TRIP_N driven low. W: 1. SPEC: 13 R419. RESET: released. -/
  thermTrip : Bool := false
  /-- I3C dynamic address. W: 7, optional. SPEC: 13 R421. RESET: none. -/
  i3cAddr : Option Nat := none
  /-- Parked state. W: enum. SPEC: 10 R340. RESET: not parked. -/
  park : Park := .no
  /-- A twin shed has taken effect and the package is to park. W: 1. SPEC: 10 R340, R355. RESET: no. -/
  parkDue : Bool := false
  /-- The next RESET log entry has cause VAON rise. W: 1. SPEC: 12 R430. RESET: yes. -/
  coldReset : Bool := true
deriving DecidableEq, Repr, Inhabited

/-- One compute die, by ring position (R23 to R30). -/
structure Die where
  /-- AON tick of the release from reset. W: optional 64. SPEC: 01 R28. RESET: held. -/
  released : Option Nat := none
  /-- PLLs locked. W: 1. SPEC: 01 R29. RESET: no. -/
  pll : Bool := false
  /-- Hub link up. W: 1. SPEC: 01 R18, R29. RESET: no. -/
  hubUp : Bool := false
  /-- Tag of the latest capability query. W: 8. SPEC: 01 R23. RESET: DESIGN CHOICE 0. -/
  tag : Nat := 0
  /-- Queries sent. W: 2. SPEC: 01 R23. RESET: 0. -/
  queries : Nat := 0
  /-- AON tick of the latest query. W: 64. SPEC: 01 R23. RESET: 0. -/
  queryAt : Nat := 0
  /-- Capability block as received. W: 64 bytes. SPEC: 01 R25, 12 R399. RESET: none. -/
  cap : Option (List Byte) := none
  /-- Operating ODP version. W: 16. SPEC: 01 R24. RESET: 0. -/
  odp : Nat := 0
  /-- Die-controller firmware loaded. W: 1. SPEC: 01 R29. RESET: no. -/
  firmware : Bool := false
  /-- The die's copy of the stitch counter. W: 64. SPEC: 01 R17. RESET: 0. -/
  stitchCopy : Nat := 0
deriving DecidableEq, Repr, Inhabited

/-- A die-to-die link (R18, R20, R21): down until it has trained. -/
inductive DieLink where
  | down
  | up
  | retraining (since : Nat)
  | lost
deriving DecidableEq, Repr, Inhabited

/-- A control message to one compute die (R16). -/
inductive Ctl where
  | rate (level : Nat)
  | create (part : Nat)
  | section_ (part : Nat)
  | counter (stitch : Nat)
deriving DecidableEq, Repr, Inhabited

/-- The ODP message classes (01 *ODP message classes*): each has a credit pool and an order of its own (R22). -/
inductive OdpClass where
  | mem
  | tok
  | ctl
  | mgt
deriving DecidableEq, Repr, Inhabited

/-- A message from the hub to a compute die: a control message (CTL), or a capability query with its tag (MGT). -/
inductive OdpMsg where
  | ctl (m : Ctl)
  | query (tag : Nat)
deriving DecidableEq, Repr, Inhabited

/-- The compute dies and the die links (R22 of 12: unit kind 2 numbers the links 0 to 5). -/
structure Dies where
  /-- The dies in ring order C0, C1, C3, C2. W: 4 records. SPEC: 01 R16. RESET: all held. -/
  die : List Die := [{}, {}, {}, {}]
  /-- Half-partner links up, C0-C1 and C2-C3. W: 2. SPEC: 01 R29. RESET: down. -/
  half : List Bool := [false, false]
  /-- Stitch counter copies aligned. W: 1. SPEC: 01 R17, R30. RESET: no. -/
  aligned : Bool := false
  /-- Links 0 to 5 once trained: up, retraining or lost. A link that has not trained is down whatever stands here. W: 6 states. SPEC: 01 R18, R20, R21.
  RESET: up (of no account before training). -/
  link : Tab DieLink := []
  /-- Messages sent to ring position r in class c and held while the hub link carries no traffic, at key 4r + c, oldest first (classes 0 MEM, 1 TOK,
  2 CTL, 3 MGT). W: 16 queues. SPEC: 01 R20, R22. RESET: empty. -/
  odp : Tab (List OdpMsg) := []
deriving DecidableEq, Repr, Inhabited

/-- The self-test and its 512-byte record (R395 to R399). -/
structure SelfTest where
  /-- RESULT of the record. W: 8. SPEC: 12 R399. RESET: running. -/
  result : Nat := 0
  /-- MODE of the record. W: 8. SPEC: 12 R399. RESET: full. -/
  mode : Nat := 1
  /-- TRIGGER of the record. W: 8. SPEC: 12 R399. RESET: VAON rise. -/
  trigger : Nat := 1
  /-- PHASE running or failed. W: 8. SPEC: 12 R399. RESET: 0. -/
  phase : Nat := 0
  /-- REASON. W: 8. SPEC: 12 R399. RESET: 0. -/
  reason : Nat := 0
  /-- UNIT_KIND. W: 8. SPEC: 12 R399. RESET: 0. -/
  unitKind : Nat := 0
  /-- UNIT. W: 16. SPEC: 12 R399. RESET: 0. -/
  unit : Nat := 0
  /-- RUN, self-tests since VAON rose. W: 64. SPEC: 12 R399. RESET: 0. -/
  run : Nat := 0
  /-- TICKS of phases 1 to 7. W: 7 x 32. SPEC: 12 R399. RESET: 0. -/
  ticks : List Nat := List.replicate 7 0
  /-- Admission reason of each ring position, 0 admitted. W: 4 x 8. SPEC: 12 R399. RESET: 0. -/
  dieReason : List Nat := [0, 0, 0, 0]
  /-- LANE_FAIL. W: 28. SPEC: 12 R399. RESET: 0. -/
  laneFail : BitVec 28 := 0
  /-- GROUP_FAIL. W: 144. SPEC: 12 R399. RESET: 0. -/
  groupFail : BitVec 144 := 0
  /-- STACK words. W: 12 x 32. SPEC: 12 R399. RESET: 0. -/
  stack : List Word := List.replicate 12 0
  /-- PEAT words. W: 8 x 32. SPEC: 12 R399. RESET: 0. -/
  peat : List Word := List.replicate 8 0
  /-- A self-test runs. W: 1. SPEC: 12 R395. RESET: no. -/
  active : Bool := false
  /-- AON tick at which the phase began. W: 64. SPEC: 12 R396. RESET: 0. -/
  began : Nat := 0
  /-- The next self-test is full. W: 1. SPEC: 12 R395. RESET: yes (first after VAON rises). -/
  full : Bool := true
  /-- Channel of the SELFTEST_RUN in progress. W: optional. SPEC: 12 R398. RESET: none. -/
  byCommand : Option Nat := none
deriving DecidableEq, Repr, Inhabited

/-- The test access chain (R33 to R37): the selected instruction and the boundary register of each TAP, hub first then ring order. -/
structure Tap where
  /-- Selected instruction per chain position. W: 5 enums. SPEC: 01 R34. RESET: IDCODE. -/
  ir : List TapInstr := List.replicate 5 .idcode
  /-- Bits last shifted into the boundary register per chain position (SAMPLE/PRELOAD, EXTEST), which EXTEST and CLAMP drive. W: 5 x the cells of the
  die. SPEC: 01 R34, R36. RESET: DESIGN CHOICE empty. -/
  cells : List (List Bool) := List.replicate 5 []
deriving DecidableEq, Repr, Inhabited

/-- The PCIe function beside its management space (R384, R420): base addresses, power state and the one MSI-X vector. Their reset values are those of
PCIe 6.0 (log entry 70). -/
structure Pcie where
  /-- BAR0, the base of the management space. W: 64. SPEC: 13 R420. RESET: PRESUMED 0. -/
  bar0 : Nat := 0
  /-- BAR2, the base of the MSI-X table and pending bits. W: 64. SPEC: 13 R420. RESET: PRESUMED 0. -/
  bar2 : Nat := 0
  /-- The function is in D3hot. W: 1. SPEC: 13 R420. RESET: PRESUMED D0. -/
  d3hot : Bool := false
  /-- MSI-X Enable of the function. W: 1. SPEC: 11 R384, 13 R420. RESET: PRESUMED 0. -/
  msixOn : Bool := false
  /-- MSI-X Function Mask. W: 1. SPEC: 11 R384. RESET: PRESUMED 0. -/
  funcMask : Bool := false
  /-- Mask bit of vector 0. W: 1. SPEC: 11 R384. RESET: PRESUMED 1. -/
  vecMask : Bool := true
  /-- Pending bit of vector 0. W: 1. SPEC: 11 R384. RESET: PRESUMED 0. -/
  pend : Bool := false
  /-- Message address of vector 0. W: 64. SPEC: 13 R420. RESET: PRESUMED 0. -/
  msgAddr : Nat := 0
  /-- Message data of vector 0. W: 32. SPEC: 13 R420. RESET: PRESUMED 0. -/
  msgData : Word := 0
deriving DecidableEq, Repr, Inhabited

/-- The interrupt registers (R384 to R386). -/
structure Irq where
  /-- Cause group STATUS registers 0 to 10 (their W1C bits). W: 11 x 32. SPEC: 11 R386. RESET: 0. -/
  status : List Word := List.replicate 11 0
  /-- Cause group MASK registers 0 to 10. W: 11 x 32. SPEC: 11 R386. RESET: 0. -/
  mask : List Word := List.replicate 11 0
  /-- MASK of groups 16 and 17. W: 2 x 32. SPEC: 11 R386. RESET: 0. -/
  maskExt : List Word := [0, 0]
  /-- TOP_MASK. W: 11. SPEC: 11 TOP_MASK. RESET: 0. -/
  topMask : Word := 0
  /-- TOP_ROUTE. W: 32. SPEC: 11 TOP_ROUTE. RESET: MBOX_SPLIT 1, MSI_EN 0x7FF, ALERT_EN 0x7FF. -/
  topRoute : Word := 0x87FF07FF#32
  /-- The set of MSI-routed causes is not empty. W: 1. SPEC: 11 R384. RESET: empty. -/
  msiSet : Bool := false
deriving DecidableEq, Repr, Inhabited

/-- Where a held command came from and where its statuses go (R363, R390, R391). -/
inductive Via where
  | mailbox
  | frame (src : Coord)
  | twin
deriving DecidableEq, Repr, Inhabited

/-- A command held on a channel: its latched header and parameter block (R364, R370). -/
structure Held where
  opcode : Nat
  part : Nat
  flags : Nat
  tag : Nat
  length : Nat
  addr : Nat
  /-- Header bits that R364 reserves. -/
  reserved : Bool
  params : HostRead
  via : Via
  /-- The first step has run (R371, R373). -/
  stepped : Bool := false
  /-- ACCEPTED has been given and the command is in its background phase (R371). -/
  acked : Bool := false
  /-- AON tick of its acceptance. W: 64. SPEC: 11 R373. -/
  tick : Nat := 0
  /-- Stitch of its acceptance. W: 64. SPEC: 06 R199, 07 R262, 11 R373. -/
  at_ : Nat := 0
deriving DecidableEq, Repr, Inhabited

/-- One channel: mailbox, doorbells and receive ring (R370 to R372, R387 to R389). -/
structure Channel where
  /-- MB_DATA0 to 15. W: 16 x 32. SPEC: 11 mailbox registers. RESET: 0. -/
  data : List Word := List.replicate 16 0
  /-- MB_CTRL.OVERRUN. W: 1. SPEC: 11 MB_CTRL. RESET: 0. -/
  overrun : Bool := false
  /-- MB_CTRL.BUSY. W: 1. SPEC: 11 MB_CTRL. RESET: 0. -/
  busy : Bool := false
  /-- MB_ACK.ACK_VALID. W: 1. SPEC: 11 MB_ACK. RESET: 0. -/
  ackValid : Bool := false
  /-- MB_ACK.FINAL. W: 1. SPEC: 11 MB_ACK. RESET: 0. -/
  final : Bool := false
  /-- MB_ACK.CODE. W: 16. SPEC: 11 MB_ACK. RESET: 0. -/
  code : Nat := 0
  /-- MB_TAG.TAG. W: 16. SPEC: 11 MB_TAG. RESET: 0. -/
  tag : Nat := 0
  /-- MB_REPLY0 to 15. W: 16 x 32. SPEC: 11 MB_REPLY. RESET: 0. -/
  reply : List Word := List.replicate 16 0
  /-- DB_RING. W: 32. SPEC: 11 DB_RING. RESET: 0. -/
  ring : Word := 0
  /-- DB_STATUS. W: 32. SPEC: 11 DB_STATUS. RESET: 0. -/
  db : Word := 0
  /-- DB_MASK. W: 32. SPEC: 11 DB_MASK. RESET: 0. -/
  dbMask : Word := 0
  /-- DB_RING_MASK. W: 32. SPEC: 11 DB_RING_MASK. RESET: 0. -/
  ringMask : Word := 0
  /-- RX_BASE. W: 64. SPEC: 11 RX_BASE_LO, RX_BASE_HI. RESET: 0. -/
  rxBase : Nat := 0
  /-- RX_CTRL.BUF_UNITS. W: 16. SPEC: 11 RX_CTRL. RESET: 0. -/
  bufUnits : Nat := 0
  /-- RX_CTRL.SIZE_LOG2. W: 4. SPEC: 11 RX_CTRL. RESET: 0. -/
  sizeLog2 : Nat := 0
  /-- RX_CTRL.ENABLE. W: 1. SPEC: 11 RX_CTRL. RESET: 0. -/
  rxOn : Bool := false
  /-- RX_TAIL. W: 16. SPEC: 11 RX_TAIL. RESET: 0. -/
  rxTail : Nat := 0
  /-- RX_HEAD. W: 16. SPEC: 11 RX_HEAD. RESET: 0. -/
  rxHead : Nat := 0
  /-- RSEQ of the next record. W: 32. SPEC: 11 R387. RESET: 0. -/
  rseq : Nat := 0
  /-- RXRING_DROP. W: 32. SPEC: 11 RXRING_DROP. RESET: 0. -/
  rxDrop : Nat := 0
  /-- BUF_ADDR of the posted descriptors, by ring index. W: table of 64. SPEC: 11 R387. RESET: empty. -/
  bufAddr : Tab Nat := []
  /-- Consume index of the submit ring. W: 16. SPEC: 09 R324. RESET: 0. -/
  subIndex : Nat := 0
  /-- Expected phase of the submit ring. W: 1. SPEC: 09 R324. RESET: 1. -/
  subPhase : Bool := true
  /-- SUBMIT_HEAD as reported. W: 17. SPEC: 11 SUBMIT_HEAD. RESET: PHASE 1, INDEX 0. -/
  subHead : Nat := 65536
  /-- The command held. W: record. SPEC: 11 R363. RESET: none. -/
  held : Option Held := none
deriving DecidableEq, Repr, Inhabited

/-- A queued admission (R374). -/
structure Admission where
  load : Bool
  ch : Nat
  tag : Nat
  part : Nat
  source : Nat
  size : Nat
  addr : Nat
deriving DecidableEq, Repr, Inhabited

/-- A PATTERN_LOAD that has passed the checks and waits for its frond groups to be ON (R117, R144, R337). -/
structure Loading where
  adm : Admission
  /-- The image. -/
  bytes : List Byte
  /-- Logical fronds of the image. -/
  fronds : Nat
deriving DecidableEq, Repr, Inhabited

/-- A MEM_REGULATE that waits for its boundary (R199): channel, stitch of its acceptance, partition and parameters. -/
structure RegSet where
  ch : Nat
  at_ : Nat
  part : Nat
  tier : Nat
  on : Bool
  rate : Nat
  depth : Nat
deriving DecidableEq, Repr, Inhabited

/-- Who settled an outcome first: channel, TAG and OPCODE (R376, R377). -/
structure Winner where
  ch : Nat := 0
  tag : Nat := 0
  opcode : Nat := 0
deriving DecidableEq, Repr, Inhabited

/-- Whether a partition exists (R376 to R378). -/
inductive Life where
  | never | filling | exists_ | destroyed
deriving DecidableEq, Repr, Inhabited

/-- Pattern states of a partition (04 *Pattern states*). -/
inductive PatState where
  | empty | loaded | armed | running | halted
deriving DecidableEq, Repr, Inhabited

/-- A RESOURCES record (R115). -/
structure Resource where
  res : Nat
  index : Nat
  amount : Nat
deriving DecidableEq, Repr, Inhabited

/-- A frond record (R117). -/
structure FrondRec where
  lfrond : Nat
  wardens : Nat
  pages : Nat
  slots : Nat
  entry : List Byte
  constOffset : Nat
  constLength : Nat
  constDest : Nat
  relocFirst : Nat
  relocCount : Nat
  slotBody : List Nat
deriving DecidableEq, Repr, Inhabited

/-- A GROUPS record (R120): bounds in the order X_LO, X_HI, Y_LO, Y_HI, Z_LO, Z_HI. -/
structure Group where
  id : Nat := 0
  axes : Nat := 0
  box : List Nat := [0, 0, 0, 0, 0, 0]
  members : Nat := 0
deriving DecidableEq, Repr, Inhabited

/-- One RATE entry (R121). -/
structure RateEntry where
  watts : Nat := 0
  enabled : Bool := false
  lead : Nat := 0
deriving DecidableEq, Repr, Inhabited

/-- A signature region (R122). -/
structure Region where
  space : Nat
  offset : Nat
  length : Nat
deriving DecidableEq, Repr, Inhabited

/-- A SLOTS entry (R123). -/
structure SlotEntry where
  first : Nat
  width : Nat
  maxTokens : Nat
  input : Nat
deriving DecidableEq, Repr, Inhabited

/-- What the package keeps of a loaded image (R112, R144). -/
structure Image where
  patternId : Nat := 0
  flags : Nat := 0
  size : List Nat := [1, 1, 1]
  profile : Nat := 0
  fronds : Nat := 0
  stepStitches : Nat := 0
  slipBudget : Nat := 0
  realignLead : Nat := 0
  collTimeout : Nat := 0
  steps : Nat := 0
  box : List Nat := [0, 0, 0, 0, 0, 0]
  job : List Nat := [0, 0, 0, 0, 0, 0]
  resources : List Resource := []
  records : List FrondRec := []
  groups : List Group := []
  fabricPackages : Nat := 0
  rate : List RateEntry := []
  sigFlags : Nat := 0
  lossOffset : Nat := 0
  regions : List Region := []
  slotCount : Nat := 0
  slotFlags : Nat := 0
  slots : List SlotEntry := []
deriving DecidableEq, Repr, Inhabited

/-- The live training control block (R159): configuration fields, then state fields. FP32 fields are their encodings. -/
structure Tcb where
  cfgVer : Nat := 0
  scaleInit : Int := 15
  scaleMin : Int := 0
  scaleMax : Int := 24
  skipHalt : Nat := 64
  earlyShareExp : Nat := 7
  growth : Nat := 2000
  earlyRun : Nat := 500
  beta1 : Word := 0x3F666666#32
  beta2 : Word := 0x3F7FBE77#32
  eps : Word := 0x322BCC77#32
  weightDecay : Word := 0
  emaBeta : Word := 0x3F7FF972#32
  lrPeak : Word := 0x38D1B717#32
  lrFloor : Word := 0
  warmup : Nat := 2000
  decayEnd : Nat := 0
  gradMul : Word := 0x3F800000#32
  seed : Nat := 0
  stepBase : Nat := 0
  ringOffset : Nat := 0
  slotBytes : Nat := 0
  scaleExp : Int := 0
  skipRun : Nat := 0
  cleanRun : Nat := 0
  updates : Nat := 0
  committedStep : Nat := 0
  b1Pow : Word := 0
  b2Pow : Word := 0
  commits : Nat := 0
  skipsNonfinite : Nat := 0
  skipsVoid : Nat := 0
  lastOutcome : Nat := 0
deriving DecidableEq, Repr, Inhabited

/-- A vote record (R164). -/
structure Vote where
  step : Nat := 0
  issue : Nat := 0
  slip : Nat := 0
  finite : Bool := true
  void : Bool := false
  abort : Bool := false
  mem : Bool := false
  sig : Bool := false
  gradConv : Nat := 0
  gradUnf : Nat := 0
deriving DecidableEq, Repr, Inhabited

/-- The running pattern of a partition (R126 to R138, R157, R162 to R168). -/
structure Run where
  /-- START_STITCH. W: 64. SPEC: 04 R126. RESET: 0. -/
  start : Nat := 0
  /-- Step N. W: 64. SPEC: 04 R138. RESET: 0. -/
  step : Nat := 0
  /-- B(N). W: 64. SPEC: 04 R129, R138. RESET: 0. -/
  base : Nat := 0
  /-- B(N+1) once the step is decided. W: 64, optional. SPEC: 04 R135. RESET: none. -/
  next : Option Nat := none
  /-- The decision of step N moved the base beyond the budget. W: 1. SPEC: 04 R135. RESET: no. -/
  realigned : Bool := false
  /-- S_p(N) so far. W: 32. SPEC: 04 R134, R138. RESET: 0. -/
  slip : Nat := 0
  /-- Largest S(N) of the run. W: 32. SPEC: 04 R138. RESET: 0. -/
  maxSlip : Nat := 0
  /-- Re-alignment count. W: 32. SPEC: 04 R138. RESET: 0. -/
  realigns : Nat := 0
  /-- Issues with non-zero lateness. W: 64. SPEC: 04 R138. RESET: 0. -/
  lateIssues : Nat := 0
  /-- Status of the last outcome or halt. W: 16, optional. SPEC: 05 R168. RESET: none. -/
  last : Option Status := none
  /-- Step finite flag. W: 1. SPEC: 05 R157. RESET: 1. -/
  finite : Bool := true
  /-- Void mark of the step. W: 1. SPEC: 04 R152. RESET: 0. -/
  void : Bool := false
  /-- ABORT mark of the step. W: 1. SPEC: 05 R163. RESET: 0. -/
  abort : Bool := false
  /-- The wardens discard the rest of the step, an instance having been aborted here. W: 1. SPEC: 05 R163. RESET: 0. -/
  discard : Bool := false
  /-- MEM mark of the step. W: 1. SPEC: 05 R164. RESET: 0. -/
  mem : Bool := false
  /-- SIG mark for the next vote. W: 1. SPEC: 08 R304. RESET: 0. -/
  sig : Bool := false
  /-- FP16 gradient conversions of the step. W: 64. SPEC: 05 R164. RESET: 0. -/
  gradConv : Nat := 0
  /-- FP16 gradient underflows of the step. W: 64. SPEC: 05 R164. RESET: 0. -/
  gradUnf : Nat := 0
  /-- Wardens that have issued STEP.COMMIT, as 16 x frond + warden. W: list. SPEC: 05 R162. RESET: empty. -/
  committed : List Nat := []
  /-- Issue stitch: the stitch at which the last of the vote's conditions held. W: 64, optional. SPEC: 05 R162. RESET: none. -/
  issue : Option Nat := none
  /-- The vote sent for the step and its stitch. W: optional. SPEC: 05 R165. RESET: none. -/
  sent : Option (Vote × Nat) := none
  /-- Votes received from children of the job-box tree, by source. W: list. SPEC: 05 R164, R165. RESET: empty. -/
  children : List (Coord × Vote) := []
  /-- The combined vote of this member's subtree has gone to its parent. W: 1. SPEC: 05 R164, R165. RESET: no. -/
  passed : Bool := false
  /-- Step N has been decided. W: 1. SPEC: 05 R167. RESET: no. -/
  decided : Bool := false
  /-- Combined F(N) of the decision. W: 64. SPEC: 04 R134. RESET: 0. -/
  fN : Nat := 0
  /-- A halt that has fallen due, and its status. W: optional. SPEC: 04 R127. RESET: none. -/
  halt : Option Status := none
  /-- Stitch at which that halt fell due. W: 64. SPEC: 04 R127. RESET: 0. -/
  haltAt : Nat := 0
  /-- ABORT_AT and ABORT_RANK with the step they stand for. W: optional. SPEC: 08 R297, 11 PATTERN_STATUS. RESET: none. -/
  abortAt : Option (Coord × Nat × Nat) := none
deriving DecidableEq, Repr, Inhabited

/-- One set of arithmetic statistics (R174, R175). -/
structure Arith where
  /-- SCALE_RANGE. W: 64. SPEC: 05 R175. RESET: 0. -/
  scaleRange : Nat := 0
  /-- FINCHK_CLEARS. W: 64. SPEC: 05 R175. RESET: 0. -/
  finchk : Nat := 0
  /-- NONFINITE_RED. W: 64. SPEC: 05 R175. RESET: 0. -/
  nonfinite : Nat := 0
  /-- CONV, OVF and UNF at key 3 x (4i + c) + 0, 1 or 2. W: 96 x 64. SPEC: 05 R174, R175. RESET: 0. -/
  counts : Tab Nat := []
deriving DecidableEq, Repr, Inhabited

/-- An abort record (R296). -/
structure Abort where
  step : Nat
  group : Nat
  inst : Nat
  progress : Nat
  rank : Nat
  member : Coord
deriving DecidableEq, Repr, Inhabited

/-- The fields of a fused instruction record (R147). -/
structure Fused where
  op : Nat
  finite : Bool
  landWiden : Bool
  narrow : Bool
  group : Nat
  es : Nat
  planDone : Nat
  cvt : Nat
  redFmt : Nat
  aop : Nat
  src : Nat
  dst : Nat
  chunk : Nat
  length : Nat
  tokenIn : Nat
  tokenOut : Nat
  done : Nat
  peer : Nat
  slots : Nat
deriving DecidableEq, Repr, Inhabited

/-- A fused instruction of the step: an instance of its group's collective, or a transfer with a peer (R147 to R150, R291 to R298). -/
structure Coll where
  /-- GROUP_ID; 65,536 + port for MM.SEND and RECV.MM, which have no group. -/
  group : Nat
  /-- Its number among the instructions of the group since PATTERN_START; INSTANCE is this number mod 256 (R292). -/
  inst : Nat
  frond : Nat
  /-- Frond-store address of its record. -/
  record : Nat
  /-- The record. -/
  what : Fused
  step : Nat
  /-- Deadline D of R294. -/
  deadline : Nat
  /-- LAST_PROGRESS of R295. -/
  progress : Nat
  /-- The working values: elements of the reduction in RED_FMT, or the bytes gathered, received or to be sent. -/
  vals : List Nat := []
  /-- The local contribution is there: its array part has run, or it has none. -/
  ready : Bool := false
  /-- Partial sums from below and from above of a line, by element, plus one (R288). -/
  left : Tab Nat := []
  right : Tab Nat := []
  /-- The stage of its program and the bytes that have come to their place in it (R288, R289). -/
  stage : Nat := 0
  got : Nat := 0
  /-- Chunks sent (MM.SEND) or taken (RECV.MM). -/
  chunks : Nat := 0
  /-- The data phase is complete. -/
  dataDone : Bool := false
  /-- AND of the finiteness seen here (R291). -/
  flag : Bool := true
  /-- Children whose up-pass frame has arrived, with their flags (R291). -/
  up : List (Coord × Bool) := []
  /-- The up-pass frame has gone to the parent. -/
  upSent : Bool := false
  /-- DONE has been raised. -/
  done : Bool := false
  aborted : Bool := false
  /-- The member has timed out and formed its own record (R296). -/
  timedOut : Bool := false
  /-- The best record held (R296). -/
  best : Option Abort := none
  /-- D + 1,024 has passed and the instance is settled (R297). -/
  settled : Bool := false
deriving DecidableEq, Repr, Inhabited

/-- A MEM_FILL in progress (R213 to R218). -/
structure Fill where
  ch : Nat
  mode : Nat
  dstSpace : Nat
  srcSpace : Nat
  poison : Nat
  value : Nat
  dst : Nat
  src : Nat
  length : Nat
  /-- Pieces that have finished or failed. -/
  ended : List Nat := []
  failed : List Nat := []
  units : Nat := 0
  /-- The host port has been reset since the transfer began: its pieces with host memory fail (R389). -/
  hostLost : Bool := false
deriving DecidableEq, Repr, Inhabited

/-- A bandwidth regulator with its four die shares (R197, R198). -/
structure Regulator where
  /-- Enable bit. W: 1. SPEC: 06 R197. RESET: disabled (R198). -/
  on : Bool := false
  /-- RATE. W: 32. SPEC: 06 R197. RESET: DESIGN CHOICE 0. -/
  rate : Nat := 0
  /-- DEPTH. W: 32. SPEC: 06 R197. RESET: DESIGN CHOICE 0. -/
  depth : Nat := 0
  /-- Tokens of the shares of dies C0 to C3. W: 4 x 32. SPEC: 06 R198. RESET: 0. -/
  tokens : List Nat := [0, 0, 0, 0]
deriving DecidableEq, Repr, Inhabited

/-- A piece of a spool burst that a regulator share holds (R198). -/
structure HeldPiece where
  tier : Nat
  die : Nat
  frond : Nat
  stream : Nat
  burst : Nat
  units : Nat
deriving DecidableEq, Repr, Inhabited

/-- A twin signature record (R302). -/
structure SigRec where
  patternId : Nat
  step : Nat
  updates : Nat
  sig : Nat
deriving DecidableEq, Repr, Inhabited

/-- TWIN_STATE of R306. -/
inductive TwinState where
  | unbound | bound | solo
deriving DecidableEq, Repr, Inhabited

/-- COPY of R360. -/
inductive CopyState where
  | none | sending | receiving | complete | failed
deriving DecidableEq, Repr, Inhabited

/-- Twin state of a partition (R299 to R305, R353 to R360). -/
structure Twin where
  /-- TWIN_STATE. W: 8. SPEC: 08 R306. RESET: unbound. -/
  state : TwinState := .unbound
  /-- Own records of the last two commits, newest first. W: 2 records. SPEC: 08 R303. RESET: none. -/
  own : List SigRec := []
  /-- Peer records held for a step not yet committed. W: list. SPEC: 08 R303. RESET: none. -/
  peer : List SigRec := []
  /-- A commit whose signature is still to be sent, with its stitch. W: optional. SPEC: 08 R301. RESET: none. -/
  due : Option Nat := none
  /-- Stitch at which the own record was sent, comparison outstanding. W: optional. SPEC: 08 R305. RESET: none. -/
  sentAt : Option Nat := none
  /-- The vote waits for a comparison. W: 1. SPEC: 05 R166. RESET: no. -/
  waiting : Bool := false
  /-- SIG_MATCHES. W: 64. SPEC: 08 R306. RESET: 0. -/
  matches_ : Nat := 0
  /-- SIG_MISMATCHES. W: 64. SPEC: 08 R306. RESET: 0. -/
  mismatches : Nat := 0
  /-- SIG_TIMEOUTS. W: 64. SPEC: 08 R306. RESET: 0. -/
  timeouts : Nat := 0
  /-- COLL_ABORTS. W: 64. SPEC: 08 R306. RESET: 0. -/
  collAborts : Nat := 0
  /-- LAST_COMPARED. W: 64. SPEC: 10 R360. RESET: DESIGN CHOICE 0. -/
  lastCompared : Nat := 0
  /-- COPY. W: 8. SPEC: 10 R360. RESET: none. -/
  copy : CopyState := .none
  /-- FRAMES_DISCARDED. W: 32. SPEC: 10 R358, R360. RESET: 0. -/
  discarded : Nat := 0
  /-- COPY_BYTES. W: 64. SPEC: 10 R360. RESET: 0. -/
  copyBytes : Nat := 0
  /-- COPY_DONE. W: 64. SPEC: 10 R360. RESET: 0. -/
  copyDone : Nat := 0
  /-- Failed copies counted by the donor. W: 32. SPEC: 10 R359. RESET: 0. -/
  copyFails : Nat := 0
  /-- Twin announcements that have taken effect and wait for their step: OP, EFFECTIVE and HOLD. W: list. SPEC: 10 R355, R356. RESET: none. -/
  acts : List (Nat × Nat × Nat) := []
  /-- Step from which a donor's partition is bound again. W: optional. SPEC: 10 R356. RESET: none. -/
  rebind : Option Nat := none
  /-- AON tick in which the last matching comparison completed. W: 64, optional. SPEC: 08 R305. RESET: none. -/
  comparedAt : Option Nat := none
  /-- The twin port was lost in the tick in which a comparison completed: SOLO from the next step. W: 1. SPEC: 08 R305. RESET: no. -/
  soloNext : Bool := false
deriving DecidableEq, Repr, Inhabited

/-- A batch of contexts (R325 to R330). A row: entry, handle, TOKEN_IN, LENGTH, TIER, KV_ADDR, KV_BYTES. -/
structure BatchRow where
  entry : Nat
  handle : Nat
  tokenIn : Nat
  length : Nat
  tier : Bool
  kvAddr : Nat
  kvBytes : Nat
deriving DecidableEq, Repr, Inhabited

/-- A sealed batch. -/
structure Batch where
  seq : Nat
  wset : Nat
  rows : List BatchRow
  /-- AON tick of the seal. -/
  at_ : Nat := 0
deriving DecidableEq, Repr, Inhabited

/-- Serving state of a partition (R310 to R333). -/
structure Serve where
  /-- Q_p. W: 32. SPEC: 09 R312. RESET: 0 at PART_CREATE. -/
  quota : Nat := 0
  /-- DEADLINE_US. W: 32. SPEC: 09 R327. RESET: 200 at PART_CREATE. -/
  deadlineUs : Nat := 200
  /-- MAX_ROWS. W: 8. SPEC: 09 R327. RESET: 128 at PART_CREATE. -/
  maxRows : Nat := 128
  /-- SUBMIT_ENABLE. W: 1. SPEC: 09 R327. RESET: 0 at PART_CREATE. -/
  submitOn : Bool := false
  /-- SUBMIT_ADDR. W: 64. SPEC: 09 R327. RESET: DESIGN CHOICE 0. -/
  submitAddr : Nat := 0
  /-- SUBMIT_ENTRIES. W: 32. SPEC: 09 R327. RESET: DESIGN CHOICE 64. -/
  submitEntries : Nat := 64
  /-- Forming batches by WSET: entry indexes in acceptance order. W: table. SPEC: 09 R325. RESET: empty. -/
  forming : Tab (List Nat) := []
  /-- Sealed batches not completed, oldest first. W: list. SPEC: 09 R326, R328. RESET: empty. -/
  sealed_ : List Batch := []
  /-- Next batch SEQ. W: 32. SPEC: 09 R326. RESET: 0 at PATTERN_START. -/
  seq : Nat := 0
  /-- Completed batches. W: 32. SPEC: 09 R328. RESET: 0 at PATTERN_START. -/
  completed : Nat := 0
  /-- Serve inbox records not yet taken. W: 1,024 x 32 bytes. SPEC: 09 R322. RESET: empty. -/
  inbox : List (List Byte) := []
  /-- SV.RECVs taken. W: 64. SPEC: 09 R322. RESET: 0. -/
  received : Nat := 0
  /-- BATCH.TAKEs issued by each frond. W: table. SPEC: 09 R328. RESET: 0. -/
  takes : Tab Nat := []
  /-- Frames that wait for a window, oldest first. W: list. SPEC: 07 R240. RESET: empty. -/
  waiting : List Frame := []
  /-- OPENS, FULL_QUOTA, FULL_TABLE, REQUESTS, REJECTS, BATCHES, ROWS, SEAL_FULL, SEAL_DEADLINE, ABANDONED, DISCARDS,
  SUBMIT_ERRORS, TIER_FAULTS, INBOX_DROPS at keys 0 to 13. W: 14 x 64. SPEC: 09 R333. RESET: 0. -/
  counts : Tab Nat := []
deriving DecidableEq, Repr, Inhabited

/-- One of the 64 partitions. -/
structure Partition where
  /-- Existence. W: enum. SPEC: 11 R376-R378. RESET: never created. -/
  life : Life := .never
  /-- PART_CREATE that created it. W: record. SPEC: 11 R376. RESET: cleared. -/
  createdBy : Winner := {}
  /-- PART_DESTROY that destroyed it. W: record. SPEC: 11 R376. RESET: cleared. -/
  destroyedBy : Winner := {}
  /-- PATTERN_LOAD of the present pattern. W: record. SPEC: 11 R376. RESET: cleared. -/
  loadedBy : Winner := {}
  /-- PATTERN_START that armed it. W: record. SPEC: 11 R376. RESET: cleared. -/
  startedBy : Winner := {}
  /-- GROUP_MAP. W: 144. SPEC: 11 PART_CREATE. RESET: 0. -/
  groups : BitVec 144 := 0
  /-- HBM base. W: 64. SPEC: 06 R192. RESET: 0. -/
  hbmBase : Nat := 0
  /-- HBM GiB. W: 16. SPEC: 06 R190. RESET: 0. -/
  hbmGib : Nat := 0
  /-- Peat base. W: 64. SPEC: 06 R192. RESET: 0. -/
  peatBase : Nat := 0
  /-- Peat GiB. W: 16. SPEC: 06 R190. RESET: 0. -/
  peatGib : Nat := 0
  /-- Pattern state. W: 8. SPEC: 04 pattern states. RESET: EMPTY. -/
  pat : PatState := .empty
  /-- The loaded image. W: record. SPEC: 04 R112, R144. RESET: none. -/
  image : Image := {}
  /-- Live TCB. W: 256 bytes. SPEC: 05 R159. RESET: defaults. -/
  tcb : Tcb := {}
  /-- The run. W: record. SPEC: 04, 05. RESET: as its fields. -/
  run : Run := {}
  /-- ARITH_RUN. W: record. SPEC: 05 R175. RESET: 0. -/
  arith : Arith := {}
  /-- Counts of the step in progress. W: record. SPEC: 05 R174. RESET: 0. -/
  arithNow : Arith := {}
  /-- ARITH_STEP and its step. W: record. SPEC: 05 R175. RESET: 0. -/
  arithStep : Nat × Arith := (0, {})
  /-- Fused instructions of the step. W: list. SPEC: 08 R292. RESET: none. -/
  colls : List Coll := []
  /-- Next INSTANCE of each group, not reduced. W: table. SPEC: 08 R292. RESET: 0 at PATTERN_START. -/
  collNext : Tab Nat := []
  /-- Abort records received before the instruction was issued. W: list. SPEC: 08 R296. RESET: none. -/
  earlyAborts : List Abort := []
  /-- MEM_FILL in progress. W: optional. SPEC: 06 R214. RESET: none. -/
  fill : Option Fill := none
  /-- HBM regulator. W: record. SPEC: 06 R197. RESET: disabled. -/
  regHbm : Regulator := {}
  /-- Peat regulator. W: record. SPEC: 06 R197. RESET: disabled. -/
  regPeat : Regulator := {}
  /-- Pieces that the regulators hold, in burst order. W: list. SPEC: 06 R198. RESET: none. -/
  heldPieces : List HeldPiece := []
  /-- Twin state. W: record. SPEC: 08, 10. RESET: unbound. -/
  twin : Twin := {}
  /-- Serving state. W: record. SPEC: 09. RESET: as its fields. -/
  serve : Serve := {}
  /-- TOKENS taken for each SLOTS entry in the step, plus one; 0 before its input record is read. W: table. SPEC: 04 R151. RESET: 0. -/
  tokens : Tab Nat := []
deriving DecidableEq, Repr, Inhabited

/-- Context states (R310). -/
inductive CtxState where
  | free | open_ | ready | batched | closing
deriving DecidableEq, Repr, Inhabited

/-- A context table entry (R309); a zero-filled entry is FREE with GEN 0. -/
structure Ctx where
  state : CtxState := .free
  part : Nat := 0
  gen : Nat := 0
  wset : Nat := 0
  tier : Bool := false
  hostReq : Bool := false
  length : Nat := 0
  maxLength : Nat := 0
  kvHbm : Nat := 0
  kvPeat : Nat := 0
  kvBytes : Nat := 0
  budgetUs : Nat := 0
  reqTick : Nat := 0
  cookie : Nat := 0
  req : Coord := {}
  reqPart : Nat := 0
  tokenIn : Nat := 0
deriving DecidableEq, Repr, Inhabited

/-- A pass of the array: its parameters, the bank its rows are tagged with and the cycle its row 0 enters (R55, R56). -/
structure Pass where
  args : AstreamArgs
  warden : Nat
  /-- GROUP_ID (or 65,536 + port) and INSTANCE of the fused instruction it is part of. -/
  fused : Option (Nat × Nat) := none
  /-- Cycle of its issue. -/
  cycle : Nat := 0
deriving DecidableEq, Repr, Inhabited

/-- An instruction that a warden has issued and stalls on: until it goes, the warden issues nothing behind it (R55, R57, R74, R130, R322, R328). -/
inductive Wait where
  /-- An instruction that waits for its earliest start and its tokens. -/
  | issue (es : Nat) (tokens : List (Nat × Nat))
  /-- A STEP.COMMIT before its earliest start. -/
  | commit (es : Nat)
  /-- A fused instruction before its earliest start: OP and record, with its cycle and array parameters. -/
  | fused (op record cycle : Nat) (args : AstreamArgs)
  /-- An ALOAD behind one that stalls. -/
  | load (cycle : Nat) (args : AloadArgs)
  /-- A SWAP whose conditions do not hold yet. -/
  | swap (cycle : Nat)
  /-- A stream descriptor while 64 streams are outstanding. -/
  | stream (addr : Nat)
  /-- An SV.RECV on an empty inbox, and a BATCH.TAKE of a batch that is not sealed: address and token. -/
  | recv (addr token : Nat)
  | take (addr token : Nat)
deriving DecidableEq, Repr, Inhabited

/-- The matrix array of a frond (R45 to R59). -/
structure Arr where
  /-- Weight registers: key 16,384 x bank + 128 x row + column. W: 32,768 x 19. SPEC: 02 R45. RESET: DESIGN CHOICE 0. -/
  weight : Tab (BitVec 19) := []
  /-- Block scales: key 512 x bank + 128 x segment + column. W: 1,024 x 8. SPEC: 02 R46. RESET: DESIGN CHOICE 0. -/
  scale : Tab Byte := []
  /-- Element format held by each bank after its load. W: 2 codes. SPEC: 02 R52. RESET: DESIGN CHOICE F19. -/
  fmt : List Nat := [0, 0]
  /-- Bank pointer, false bank A. W: 1. SPEC: 02 R45. RESET: DESIGN CHOICE A. -/
  bank : Bool := false
  /-- Cycle after the one in which the last row of the preceding pass entered row 0. W: cycle count. SPEC: 02 R55, R57. RESET: 0. -/
  lastEnter : Nat := 0
  /-- For each bank, the cycle in which its last tagged row left array row 0, plus one. W: 2 cycle counts. SPEC: 02 R58. RESET: 0. -/
  bankFree : List Nat := [0, 0]
  /-- Cycle from which array row 127 holds no activation tagged with each bank. W: 2 x count. SPEC: 02 R58. RESET: 0. -/
  bankDrain : List Nat := [0, 0]
  /-- Cycle after the last ALOAD wrote its last row. W: cycle count. SPEC: 02 R55, R57. RESET: 0. -/
  loadEnd : Nat := 0
  /-- An ALOAD stalled on its rows. W: optional. SPEC: 02 R58. RESET: none. -/
  stalled : Option AloadArgs := none
  /-- Passes queued behind the one that enters. W: list. SPEC: 02 R55. RESET: empty. -/
  queue : List Pass := []
  /-- Result rows that cannot be read yet: the cycle from which each can be, its address and the bytes that it replaced. W: list. SPEC: 02 R49.
  RESET: none. -/
  inflight : List (Nat × Nat × List Byte) := []
  /-- Cycle up to which its warden stalls on an array operation. W: cycle count. SPEC: 02 R55, R57. RESET: 0. -/
  stallTo : Nat := 0
deriving DecidableEq, Repr, Inhabited

/-- An outstanding spool stream (R69 to R74). -/
structure Stream where
  id : Nat
  far : Nat
  stride : Nat
  count : Nat
  burst : Nat
  convert : Nat
  ring : Nat
  slots : Nat
  depth : Nat
  token : Nat
  write : Bool
  /-- Bursts started. -/
  next : Nat := 0
  /-- Bursts that have landed beyond the tokens raised. -/
  landed : List Nat := []
  /-- Tokens raised, in burst order. -/
  raised : Nat := 0
  /-- Slots released (read) or bursts accepted (write). -/
  released : Nat := 0
  /-- Instruction offset of its issue, for the log (R77). -/
  pc : Nat := 0
deriving DecidableEq, Repr, Inhabited

/-- One frond (R40 to R78). -/
structure Frond where
  /-- Matrix array. W: record. SPEC: 02 R45. RESET: as its fields. -/
  arr : Arr := {}
  /-- Vector registers: key 256 x register + lane. W: 4,096 x 32. SPEC: 02 R60. RESET: DESIGN CHOICE 0. -/
  vreg : Tab Word := []
  /-- Integer registers: key 32 x pinnule + r. W: 528 x 32 x 32. SPEC: 02 pinnule resources. RESET: DESIGN CHOICE 0. -/
  ireg : Tab Word := []
  /-- Scalar FP registers: key 32 x pinnule + r. W: 528 x 32 x 32. SPEC: 02 pinnule resources. RESET: DESIGN CHOICE 0. -/
  freg : Tab Word := []
  /-- Quad registers: key 32 x pinnule + 4 x q + word. W: 528 x 8 x 128. SPEC: 02 pinnule resources. RESET: DESIGN CHOICE 0. -/
  qreg : Tab Word := []
  /-- Raise count of each data token. W: 4,096 x 32. SPEC: 04 R131. RESET: 0. -/
  token : Tab Nat := []
  /-- Program slot each gang runs, plus one (0 idle). W: 16 x 8. SPEC: 02 R67, 04 R117. RESET: idle. -/
  gang : Tab Nat := []
  /-- Outstanding streams. W: at most 64 records. SPEC: 02 R74. RESET: none. -/
  streams : List Stream := []
  /-- Identity of the next stream. W: count. SPEC: MODEL name of a stream. RESET: 0. -/
  nextStream : Nat := 0
  /-- Counters of R78 in the order of block 0x04. W: 13 x 64. SPEC: 02 R78, 11 R382. RESET: 0. -/
  counts : Tab Nat := []
  /-- Cycle of each pinnule's last BOB, plus one. W: table. SPEC: 05 R182. RESET: none. -/
  bob : Tab Nat := []
  /-- Units stopped by a frond fault: 0 array, 1 vector, 2 spool, 3 + p pinnule p. W: list. SPEC: 02 R77. RESET: none. -/
  stopped : List Nat := []
  /-- Instruction offset in its slot at which each pinnule stands. W: 528 x 16. SPEC: 02 R67, R77. RESET: 0. -/
  pc : Tab Nat := []
  /-- The instruction that each warden stalls on. W: 16, optional. SPEC: 02 R57, R74, 04 R130. RESET: none. -/
  wait : Tab (Option Wait) := []
deriving DecidableEq, Repr, Inhabited

/-- A port definition: first lane, lanes and direction (R221, R222). -/
structure PortDef where
  first : Nat
  lanes : Nat
  dir : Nat
deriving DecidableEq, Repr, Inhabited

/-- STATE of a port record (R254), before the selvage setting is applied. -/
inductive PortState where
  | unused | bringup | up | held | absent | lost | retired
deriving DecidableEq, Repr, Inhabited

/-- RESULT of a port record (R254). -/
inductive PortResult where
  | none | ok | miswired | swapped | absent
deriving DecidableEq, Repr, Inhabited

/-- The stage of a bring-up attempt (R246). -/
inductive Stage where
  | idle | train | align | ident | finished | waiting
deriving DecidableEq, Repr, Inhabited

/-- An identity observed in IDENT (R250). -/
structure Ident where
  lane : Nat
  lanes : Nat
  port : Nat
  dir : Nat
  twin : Nat
  fabric : Nat
  at_ : Coord
  chassis : Nat
  slot : Nat
deriving DecidableEq, Repr, Inhabited

/-- What one lane has learnt in an attempt (R249, R250). -/
structure Lane where
  locked : Bool := false
  /-- PORT, LANES and last MARK reported, ALIGN flits taken and arrival of the last. -/
  port : Nat := 0
  lanes : Nat := 0
  mark : Nat := 0
  aligns : Nat := 0
  arrival : Nat := 0
  /-- Consecutive ALIGN flits with ALIGNED. -/
  aligned : Nat := 0
  ident : Option Ident := none
  same : Nat := 0
  seen : Bool := false
deriving DecidableEq, Repr, Inhabited

/-- One flow-control channel of a port, transmitter and receiver sides (R235 to R238). -/
structure Flow where
  /-- Held until this AON tick; none while sending. W: optional. SPEC: 07 R236. RESET: sending. -/
  heldUntil : Option Nat := none
  /-- End of the frame in flight of the channel. W: 64. SPEC: 07 R238. RESET: 0. -/
  frameEnd : Nat := 0
  /-- Places taken in the receiver. W: 12. SPEC: 07 R235. RESET: 0. -/
  taken : Nat := 0
  /-- AON tick of the last OFF sent; none when the last symbol was ON. W: optional. SPEC: 07 R237. RESET: none. -/
  offAt : Option Nat := none
deriving DecidableEq, Repr, Inhabited

/-- The counters of one port (R266). -/
structure PortCount where
  /-- FLITS_SENT, OFF_STITCHES and OCC_SUM at key 3v + 0, 1, 2. W: 12 x 64. SPEC: 07 R266. RESET: 0. -/
  vl : Tab Nat := []
  /-- FEC_CORRECTED, FLIT_FAILED, REPLAYS, RETRAINS, LOSTS, DISC_MISROUTE, DISC_NO_PART, DISC_KIND, DISC_SELVAGE,
  DISC_ROUTE_TABLE, DISC_LOST at keys 0 to 10. W: 11 x 64. SPEC: 07 R266. RESET: 0. -/
  ev : Tab Nat := []
deriving DecidableEq, Repr, Inhabited

/-- One of the ports 0 to 12 (07). -/
structure Port where
  /-- STATE. W: 8. SPEC: 07 R254. RESET: UNUSED. -/
  state : PortState := .unused
  /-- RESULT. W: 8. SPEC: 07 R254. RESET: none. -/
  result : PortResult := .none
  /-- ATTEMPTS. W: 8. SPEC: 07 R254. RESET: 0. -/
  attempts : Nat := 0
  /-- PAIR. W: 8. SPEC: 07 R254. RESET: 0xFF. -/
  pair : Nat := 255
  /-- MIXED. W: 1. SPEC: 07 R251. RESET: 0. -/
  mixed : Bool := false
  /-- Observed partner. W: record. SPEC: 07 R251. RESET: none. -/
  obs : Option Ident := none
  /-- RTT_NS. W: 32. SPEC: 07 R249, R254. RESET: 0. -/
  rtt : Nat := 0
  /-- Marked for retirement. W: 1. SPEC: 07 R257. RESET: 0. -/
  marked : Bool := false
  /-- Stage of the bring-up or retrain. W: enum. SPEC: 07 R246. RESET: idle. -/
  stage : Stage := .idle
  /-- AON tick of the attempt's start, or of the end of a failed one. W: 64. SPEC: 07 R246, R247. RESET: 0. -/
  since : Nat := 0
  /-- Lanes of the attempt by index. W: table. SPEC: 07 R249. RESET: empty. -/
  lane : Tab Lane := []
  /-- Round-trip samples, 1/32 ns, newest first. W: 16. SPEC: 07 R249. RESET: empty. -/
  samples : List Nat := []
  /-- The lanes are deskewed in this attempt. W: 1. SPEC: 07 R249. RESET: no. -/
  deskewed : Bool := false
  /-- AON tick at which the retrain began. W: optional. SPEC: 07 R255. RESET: none. -/
  retrain : Option Nat := none
  /-- AON tick at which the port was lost. W: optional. SPEC: 07 R256. RESET: none. -/
  lostAt : Option Nat := none
  /-- Next SEQ to send. W: 12. SPEC: 07 R225, R248. RESET: 0. -/
  txSeq : Nat := 0
  /-- SEQ of the oldest flit not acknowledged. W: 12. SPEC: 07 R225. RESET: 0. -/
  txAcked : Nat := 0
  /-- Replay buffer: flits not acknowledged, oldest first. W: at most 1,024. SPEC: 07 R226. RESET: empty. -/
  replay : List Flit := []
  /-- Replays in a row of each flit of the replay buffer. W: 1,024 x 4. SPEC: 07 R255. RESET: empty. -/
  tries : List Nat := []
  /-- Flits sent in the flit stream, replays included: the next one goes on lane txIndex mod L. W: count. SPEC: 07 R223. RESET: 0. -/
  txIndex : Nat := 0
  /-- Flits of the received stream that have been reassembled. W: count. SPEC: 07 R223. RESET: 0. -/
  rxIndex : Nat := 0
  /-- Own lane that carries each LANE_INDEX of the partner, as its bring-up reported it, plus one; 0 where the two agree. W: 8 x 3. SPEC: 07 R223,
  R249. RESET: empty. -/
  order : Tab Nat := []
  /-- Flits received on each lane that the stream has not come to. W: table of lists. SPEC: 07 R223. RESET: empty. -/
  laneRx : Tab (List (Fec × Flit)) := []
  /-- MARK of the next ALIGN flit time. W: 32. SPEC: 07 R249. RESET: DESIGN CHOICE 0. -/
  marks : Nat := 0
  /-- LINKMGT payloads that wait for a flit slot, oldest first. W: list. SPEC: 07 R234, 08 R273. RESET: empty. -/
  mgmt : List (List Byte) := []
  /-- The last frame beyond the allowances was one of VL2. W: 1. SPEC: 07 R234. RESET: no. -/
  lastRest : Bool := false
  /-- Collective chunks sent and not acknowledged: partition, GROUP_ID and INSTANCE as in ARG, chunk, and SEQ of the last flit sent of it. W: list.
  SPEC: 08 R293. RESET: none. -/
  chunks : List (Nat × Nat × Nat × Nat) := []
  /-- AON tick at which a flit was last accepted, or the port became UP. W: 64. SPEC: 07 R255. RESET: 0. -/
  lastAccept : Nat := 0
  /-- SEQ of the next flit to accept. W: 12. SPEC: 07 R225. RESET: 0. -/
  rxSeq : Nat := 0
  /-- NAK to set in the next outgoing flit. W: 1. SPEC: 07 R225. RESET: 0. -/
  nak : Bool := false
  /-- Symbols to send, as (SKIND, SCH, HOLD), oldest first. W: list. SPEC: 07 R235. RESET: empty. -/
  symbols : List (Nat × Nat × Nat) := []
  /-- Payload of the frame being received on each virtual lane. W: table of bytes. SPEC: 07 R228. RESET: empty. -/
  partialRx : Tab (List Byte) := []
  /-- Dateline class of the frame being received on each virtual lane, plus one. W: table. SPEC: 07 R223. RESET: empty. -/
  partialDl : Tab Nat := []
  /-- Frames received and not yet taken by their unit, oldest first. W: list. SPEC: 07 R228. RESET: empty. -/
  rx : List Frame := []
  /-- Frames queued to send, oldest first. W: list. SPEC: 07 R234. RESET: empty. -/
  tx : List Frame := []
  /-- Flow-control channels 0 to 5. W: table. SPEC: 07 R235. RESET: sending, empty. -/
  flow : Tab Flow := []
  /-- Flits of the stitch charged to each partition (keys 0 to 63) and to the control allowance (key 64); at key 65 + v, 1 when a
  channel of VL v has been held in the stitch. W: table. SPEC: 07 R234, R266. RESET: 0. -/
  used : Tab Nat := []
  /-- Counters. W: record. SPEC: 07 R266. RESET: 0. -/
  count : PortCount := {}
deriving DecidableEq, Repr, Inhabited

/-- The accepted link plan as this package keeps it (R243, R244). -/
structure Plan where
  fabric : Nat
  size : Coord
  twin : Nat
  peer : Nat
  chassis : Nat
  here : Coord
  ports : Nat
deriving DecidableEq, Repr, Inhabited

/-- An end-to-end window (R239 to R242). -/
structure Window where
  /-- Owning partition plus one; 0 unbound. -/
  owner : Nat := 0
  partner : Coord := {}
  inflight : Nat := 0
  epoch : Nat := 0
  /-- AON tick of the last credit, or of the frame that made it busy. -/
  credit : Nat := 0
  /-- AON tick since which it has been idle. -/
  idle : Nat := 0
deriving DecidableEq, Repr, Inhabited

/-- Credits gathered for one source (R241). -/
structure Credits where
  source : Coord
  first : Nat
  entries : List (Nat × Nat)
deriving DecidableEq, Repr, Inhabited

/-- Links, plan, isolation and windows (07). -/
structure Links where
  /-- PROFILE. W: 8. SPEC: 07 R221. RESET: torus. -/
  profile : Nat := 0
  /-- Port definitions of a custom profile. W: 12 records. SPEC: 07 R221. RESET: none. -/
  custom : List PortDef := []
  /-- A LINK_PLAN has been accepted since PKG_RESET_N. W: 1. SPEC: 07 R221. RESET: no. -/
  planned : Bool := false
  /-- The link plan. W: record. SPEC: 07 R243. RESET: none. -/
  plan : Option Plan := none
  /-- Channel of the LINK_PLAN in its background phase. W: optional. SPEC: 07 R252. RESET: none. -/
  planCh : Option Nat := none
  /-- The plan check is still to come. W: 1. SPEC: 07 R251. RESET: no. -/
  checking : Bool := false
  /-- Ports 0 to 12. W: table. SPEC: 07 R219. RESET: unused. -/
  port : Tab Port := []
  /-- Selvage ports. W: 12. SPEC: 07 R262. RESET: 0. -/
  selvage : Nat := 0
  /-- NO_WRAP axes. W: 3. SPEC: 07 R262. RESET: 0. -/
  noWrap : Nat := 0
  /-- SELVAGE_SET accepted for the next boundary: PORT_MASK, NO_WRAP and that boundary's stitch. W: optional. SPEC: 07 R262. RESET: none. -/
  selvNext : Option (Nat × Nat × Nat) := none
  /-- Boxes of ROUTE_TABLE_LOAD. W: at most 16 x 6 bytes. SPEC: 07 R265. RESET: empty. -/
  boxes : List (List Nat) := []
  /-- Windows 0 to 4,095. W: table. SPEC: 07 R239, 04 R115. RESET: unbound. -/
  win : Tab Window := []
  /-- Credits gathered. W: list. SPEC: 07 R241. RESET: none. -/
  credits : List Credits := []
  /-- WINDOW_BINDS. W: 64. SPEC: 07 R266. RESET: 0. -/
  binds : Nat := 0
  /-- WINDOW_TIMEOUTS. W: 64. SPEC: 07 R266. RESET: 0. -/
  timeouts : Nat := 0
  /-- Stitch of the last congestion-map reply. W: 64. SPEC: 07 R268, R269. RESET: 0. -/
  mapSince : Nat := 0
  /-- Counter values at the start of the congestion interval, FLITS_SENT and OFF_STITCHES, key 8p + 2v + 0, 1. W: table. SPEC: 07 R268. RESET: 0. -/
  mapBase : Tab Nat := []
  /-- Highest sampled occupancy of each port in the interval. W: table. SPEC: 07 R268. RESET: 0. -/
  mapPeak : Tab Nat := []
  /-- Stitches of the interval at each run level. W: 16 counts. SPEC: 07 R268, 10 R341. RESET: 0. -/
  mapLevels : Tab Nat := []
deriving DecidableEq, Repr, Inhabited

/-- A congestion map in progress (R268 to R270). -/
structure CMap where
  ch : Nat
  reqId : Nat
  box : List Nat
  lastSent : Nat
  /-- Packages still to be asked. -/
  toAsk : List Coord
  entries : List (Coord × List Byte)
deriving DecidableEq, Repr, Inhabited

/-- What a port knows of its neighbour's synchronisation (R272, R273). -/
structure Neighbour where
  /-- Advertised ROOT_RANK, DEPTH and COUNTER of the last SYNC. -/
  root : Nat := 0
  depth : Nat := 255
  counter : Nat := 0
  active : Bool := false
  heard : Bool := false
  /-- Rounds missed in a row. -/
  missed : Nat := 0
  /-- Departure of the own SYNC and arrival of the partner's, 1/32 ns from the own boundary. -/
  dep : Int := 0
  arr : Int := 0
  /-- Rounds of those two times, plus one; 0 for none. -/
  depK : Nat := 0
  arrK : Nat := 0
  /-- The partner's count differs from the own (R276). -/
  differs : Bool := false
deriving DecidableEq, Repr, Inhabited

/-- The stitch counter and its synchronisation (08). -/
structure Sync where
  /-- Stitch counter. W: 64. SPEC: 04 R128. RESET: 0. -/
  stitch : Nat := 0
  /-- Ports' knowledge of their neighbours. W: table. SPEC: 08 R272. RESET: none. -/
  nb : Tab Neighbour := []
  /-- PARENT_PORT, none for a root. W: 8. SPEC: 08 R272, R306. RESET: none. -/
  parent : Option Nat := none
  /-- ROOT_RANK followed. W: 32. SPEC: 08 R306. RESET: 0. -/
  root : Nat := 0
  /-- DEPTH. W: 8. SPEC: 08 R306. RESET: 0. -/
  depth : Nat := 0
  /-- LOCKED of a package with a parent. W: 1. SPEC: 08 R277. RESET: not locked. -/
  locked : Bool := false
  /-- Consecutive rounds with theta zero. W: 3. SPEC: 08 R277. RESET: 0. -/
  zeros : Nat := 0
  /-- Twice the last theta to the parent, 1/32 ns. W: signed. SPEC: 08 R274. RESET: 0. -/
  theta2 : Int := 0
  /-- Largest magnitude of twice theta since last LOCKED. W: 33. SPEC: 08 R306. RESET: 0. -/
  maxTheta2 : Nat := 0
  /-- Trim of the frond PLL: twice the offset to remove over the next 1,024 stitches. W: signed. SPEC: 08 R275. RESET: 0. -/
  trim2 : Int := 0
  /-- Stitch of the last round measured with the parent. W: 64, optional. SPEC: 08 R277. RESET: none. -/
  lastRound : Option Nat := none
  /-- Twice the sum of the steps that the boundary has taken at once, 1/32 ns. W: signed. SPEC: 08 R275. RESET: 0. -/
  moved2 : Int := 0
  /-- ROUNDS. W: 64. SPEC: 08 R306. RESET: 0. -/
  rounds : Nat := 0
  /-- EXCURSIONS. W: 64. SPEC: 08 R306. RESET: 0. -/
  excursions : Nat := 0
  /-- COUNTER_RAISES. W: 64. SPEC: 08 R306. RESET: 0. -/
  raises : Nat := 0
  /-- Count to take at the next boundary, and the stitch in which it came. W: optional. SPEC: 08 R276. RESET: none. -/
  raiseTo : Option (Nat × Nat) := none
  /-- COUNT_MISMATCH per port. W: 12 x 64. SPEC: 08 R306. RESET: 0. -/
  mismatch : Tab Nat := []
deriving DecidableEq, Repr, Inhabited

/-- An announcement (R281): envelope and body. -/
structure Ann where
  effective : Nat
  seq : Nat
  origin : Coord
  atype : Nat
  body : List Byte
  /-- Stitch of the boundary that applies it: EFFECTIVE, or the next boundary after a late arrival (R284, R285). -/
  due : Nat
deriving DecidableEq, Repr, Inhabited

/-- Announcements (R281 to R285). -/
structure Anns where
  /-- Held and not yet applied. W: at most 64. SPEC: 08 R285. RESET: none. -/
  held : List Ann := []
  /-- Pairs of ORIGIN and SEQ remembered, with EFFECTIVE. W: list. SPEC: 08 R283. RESET: none. -/
  known : List (Coord × Nat × Nat) := []
  /-- Own announcement number, next SEQ. W: 32. SPEC: 08 R281. RESET: DESIGN CHOICE 0. -/
  seq : Nat := 0
  /-- LATE_ANNOUNCE. W: 64. SPEC: 08 R306. RESET: 0. -/
  late : Nat := 0
  /-- DROPPED_ANNOUNCE. W: 64. SPEC: 08 R306. RESET: 0. -/
  dropped : Nat := 0
  /-- Twin announcements ignored for their TWIN_INDEX. W: 64. SPEC: 10 R355. RESET: 0. -/
  foreign : Nat := 0
deriving DecidableEq, Repr, Inhabited

/-- The two frond-clock PLLs of the hub or of one compute die (R335). -/
structure Pll where
  /-- Level whose clock the active PLL gives. W: 4. SPEC: 10 R335. RESET: 0. -/
  active : Nat := 0
  /-- Level at which the standby PLL is locked. W: 4, optional. SPEC: 10 R335. RESET: not locked. -/
  standby : Option Nat := none
deriving DecidableEq, Repr, Inhabited

/-- Rate levels, voltage and heat (10). -/
structure Rate where
  /-- L_sched. W: 4. SPEC: 10 R429. RESET: 0. -/
  sched : Nat := 0
  /-- L_therm. W: 4. SPEC: 10 R429. RESET: 15. -/
  therm : Nat := 15
  /-- L_run. W: 4. SPEC: 10 R429. RESET: 0. -/
  run : Nat := 0
  /-- last_step; none far in the past. W: 64. SPEC: 10 R343. RESET: none. -/
  lastStep : Option Nat := none
  /-- Core voltage in mV that the regulators were last told. W: 10. SPEC: 13 R413. RESET: 550. -/
  mv : Nat := 550
  /-- The set point before that. W: 10. SPEC: 13 R414. RESET: 550. -/
  mvOld : Nat := 550
  /-- AON tick of the last AVSBus write. W: 64, optional. SPEC: 13 R413, R414. RESET: none. -/
  mvAt : Option Nat := none
  /-- AVSBus writes made, which number the settling times. W: count. SPEC: MODEL. RESET: 0. -/
  writes : Nat := 0
  /-- PLLs of the hub and of the dies in ring order. W: 5 pairs. SPEC: 10 R335. RESET: active at level 0. -/
  pll : List Pll := List.replicate 5 {}
  /-- Level whose voltage and standby PLL are being readied, and the stitch at which that began. W: optional. SPEC: 10 R344. RESET: none. -/
  ready : Option (Nat × Nat) := none
  /-- Delayed steps since the goal rose. W: 1. SPEC: 10 R344. RESET: 0. -/
  delayed : Bool := false
  /-- Local RATE_SETs accepted: stitch and level, in acceptance order. W: list. SPEC: 10 R347. RESET: none. -/
  locals : List (Nat × Nat) := []
  /-- TARGET_KW. W: 32. SPEC: 10 R351. RESET: 0. -/
  targetKw : Nat := 0
  /-- IGNORED. W: 32. SPEC: 10 R351. RESET: 0. -/
  ignored : Nat := 0
  /-- THROTTLES. W: 32. SPEC: 10 R351. RESET: 0. -/
  throttles : Nat := 0
  /-- LATE_STEPS. W: 32. SPEC: 10 R351. RESET: 0. -/
  lateSteps : Nat := 0
  /-- Tj in 1/16 degrees C. W: 32 signed. SPEC: 10 R350, R351. RESET: DESIGN CHOICE 0. -/
  tj : Int := 0
  /-- AON tick since which Tj has been at or below 92 degrees C. W: optional. SPEC: 10 R350. RESET: none. -/
  coolSince : Option Nat := none
deriving DecidableEq, Repr, Inhabited

/-- One unit of a fault class (R402). -/
structure FaultUnit where
  start : Nat := 0
  count : Nat := 0
  held : Bool := false
deriving DecidableEq, Repr, Inhabited

/-- A fault log entry (R408). -/
structure LogEntry where
  seq : Nat
  time : Nat
  stitch : Nat
  code : Status
  cls : Nat
  kind : Nat
  part : Nat
  unitKind : Nat
  unit : Nat
  detail : List Byte
  /-- A FAULT_LOG_READ has returned it. -/
  read : Bool := false
deriving DecidableEq, Repr, Inhabited

/-- A FAULT_POLICY that has been accepted and whose first step is still to come (R403): its acceptance, class, WINDOW_S and THRESHOLD. -/
structure PolicyPend where
  tick : Nat
  ch : Nat
  cls : Nat
  window : Nat
  threshold : Nat
deriving DecidableEq, Repr, Inhabited

/-- Fault classes, retirement and the fault log (R402 to R408). -/
structure Faults where
  /-- WINDOW_S and THRESHOLD set by FAULT_POLICY, by CLASS. W: 13 x 2 x 32. SPEC: 12 R403. RESET: defaults of R404. -/
  policy : Tab (Nat × Nat) := []
  /-- FAULT_POLICYs accepted and not yet run, in acceptance order; they are in force already. W: list. SPEC: 12 R403. RESET: none. -/
  policyPend : List PolicyPend := []
  /-- Units by 4,096 x CLASS + unit. W: table. SPEC: 12 R402. RESET: 0. -/
  unit : Tab FaultUnit := []
  /-- Frond groups marked for retirement. W: 144. SPEC: 12 R405. RESET: 0. -/
  marked : BitVec 144 := 0
  /-- Frond groups RETIRED. W: 144. SPEC: 12 R405. RESET: 0. -/
  retired : BitVec 144 := 0
  /-- The last 4,096 entries, oldest first. W: 4,096 x 64 bytes. SPEC: 12 R408. RESET: empty at VAON rise. -/
  log : List LogEntry := []
  /-- Next sequence number. W: 64. SPEC: 12 R408. RESET: 0 at VAON rise. -/
  next : Nat := 0
deriving DecidableEq, Repr, Inhabited

/-- Memory interface counters and lane sparing (R202, R205). -/
structure MemCtl where
  /-- Corrected errors per pseudo-channel 64s + q. W: 768 x 32. SPEC: 06 R202. RESET: 0. -/
  hbmCe : Tab Nat := []
  /-- Uncorrected errors per pseudo-channel. W: 768 x 32. SPEC: 06 R202. RESET: 0. -/
  hbmUe : Tab Nat := []
  /-- Corrected errors per peat controller. W: 8 x 32. SPEC: 06 R202. RESET: 0. -/
  peatCe : Tab Nat := []
  /-- Uncorrected errors per peat controller. W: 8 x 32. SPEC: 06 R202. RESET: 0. -/
  peatUe : Tab Nat := []
  /-- Corrected hub SRAM errors. W: 32. SPEC: 06 R202. RESET: 0. -/
  hubCe : Nat := 0
  /-- Uncorrected hub SRAM errors. W: 32. SPEC: 06 R202. RESET: 0. -/
  hubUe : Nat := 0
  /-- SPARES_USED per stack. W: 12 x 8. SPEC: 06 R202. RESET: 0. -/
  spares : Tab Nat := []
  /-- Repair lanes in use per channel 32s + c. W: 384 x 2. SPEC: 06 R205. RESET: 0. -/
  repairs : Tab Nat := []
  /-- Channels with a lasting fault to be retrained, with the lane and the stitch of the fault. W: list. SPEC: 06 R205. RESET: none. -/
  due : List (Nat × Nat × Nat) := []
  /-- Channels retraining in self-refresh. W: list. SPEC: 06 R205. RESET: none. -/
  retraining : List Nat := []
  /-- Channels that had a lasting lane fault with no repair lane left, for the next self-test. W: 384. SPEC: 06 R205, 12 R396. RESET: none. -/
  noSpare : List Nat := []
  /-- Refreshes run per pseudo-channel. W: count. SPEC: 10 R339 (MODEL count). RESET: 0. -/
  refreshes : Tab Nat := []
deriving DecidableEq, Repr, Inhabited

/-- State of a switched domain (R337, R352). -/
inductive Dom where
  | off | wakingOff | wakingRetain | on | retain
deriving DecidableEq, Repr, Inhabited

/-- A flit as it leaves: the lane of its port, header and payload and CRC, and its 12 bytes of FEC parity (R223, R224). -/
structure Sent where
  lane : Nat
  flit : Flit
  parity : List Byte
deriving DecidableEq, Repr, Inhabited

/-- What the package gives to the outside, in order. -/
inductive Output where
  | hostWrite (addr : Nat) (bytes : List Byte)
  | msix (addr : Nat) (data : Word)
  | flits (port : Nat) (fs : List Sent)
  | capQuery (ring tag : Nat)
  | ctl (ring : Nat) (m : Ctl)
  | avs (rail mv : Nat)
  | regData (value : Word)
  | tdo (bits : List Bool)
  | i3cId (id : Nat)
  | frameLost (port : Nat) (f : Frame)
deriving DecidableEq, Repr, Inhabited

/-- The whole package. -/
structure State where
  /-- Commands waiting, first in first out. MODEL. RESET: empty. -/
  pending : List Instr := []
  /-- What the package has given to the outside. MODEL. RESET: empty. -/
  out : List Output := []
  /-- Number of the next free value. MODEL. RESET: DESIGN CHOICE 0. -/
  free : Nat := 0
  aon : Aon := {}
  dies : Dies := {}
  test : SelfTest := {}
  tap : Tap := {}
  irq : Irq := {}
  pcie : Pcie := {}
  /-- Channels 0 to 71. W: table. SPEC: 11 R362. RESET: as their fields. -/
  chan : Tab Channel := []
  /-- Bulk buffers, channel c from byte 65,536 x c. W: 72 x 64 KiB. SPEC: 11 R361. RESET: zero. -/
  bulk : Mem := []
  /-- Admission queue, the running one first. W: at most 8. SPEC: 11 R374. RESET: empty. -/
  admissions : List Admission := []
  /-- PATTERN_LOAD that waits for its frond groups. W: optional record. SPEC: 04 R144, 10 R337. RESET: none. -/
  loading : Option Loading := none
  /-- MEM_REGULATEs accepted for the next boundary, in acceptance order. W: list of records. SPEC: 06 R199. RESET: none. -/
  regulate : List RegSet := []
  /-- Waking commands that wait with their final status: channel and status. W: list. SPEC: 10 R340. RESET: none. -/
  waking : List (Nat × Status) := []
  /-- Channels whose CTX_OPEN or CTX_CLOSE waits for the context array, in order. W: list. SPEC: 10 R337. RESET: none. -/
  ctxWaits : List Nat := []
  /-- Partitions 0 to 63. W: table. SPEC: 11 R362. RESET: never created. -/
  part : Tab Partition := []
  /-- Far memory by package address: HBM, peat tier, hub SRAM. W: bytes. SPEC: 06 R185. RESET: zero (R210). -/
  far : Mem := []
  /-- Context table by entry. W: 1,048,576 entries. SPEC: 09 R307. RESET: FREE. -/
  ctx : Tab Ctx := []
  /-- Fronds 0 to 575. W: table. SPEC: 02 R38. RESET: as their fields. -/
  frond : Tab Frond := []
  /-- Frond stores, frond f from byte 4,194,304 x f. W: 576 x 3,670,016 bytes. SPEC: 02 R40. RESET: zero (R210). -/
  store : Mem := []
  /-- Pinnule local stores, pinnule p of frond f from byte 2,048 x (528 f + p). W: 304,128 x 2 KiB. SPEC: 02 pinnule resources. RESET: zero (R210). -/
  localStore : Mem := []
  links : Links := {}
  /-- Congestion map in progress. W: optional. SPEC: 07 R268. RESET: none. -/
  cmap : Option CMap := none
  /-- Next REQ_ID. W: 16. SPEC: 07 R270. RESET: DESIGN CHOICE 0. -/
  reqId : Nat := 0
  sync : Sync := {}
  anns : Anns := {}
  rate : Rate := {}
  faults : Faults := {}
  mem : MemCtl := {}
  /-- Switched domains 0 to 183. W: 184 states. SPEC: 10 R336, R337. RESET: OFF. -/
  dom : Tab Dom := []
deriving DecidableEq, Repr, Inhabited

/-- Reasons to stop with a fault: the spec gives every step of the table an effect, so no step of this model faults. -/
inductive Fault where
deriving DecidableEq, Repr

/-- Reasons to refuse a command. -/
inductive Refusal where
  /-- Raised by exec for a command that has no meaning in the model yet. Safe: the run stops where hardware goes on. -/
  | notModelled (mnemonic : String)
deriving DecidableEq, Repr

/-- The package right after VAON has risen with PKG_RESET_N held low (R392 order 1): every field at its reset value. -/
def State.reset : State := {}

end Sys2Proof.Machine
end

