-- ==== Sys2Proof/Machine/Ops.lean ====
section
/-! DEFINITION. The named operations on the state that every step shares: access to partitions, channels, ports, fronds and windows,
outputs, free values and the fault log. No step reads or writes those tables in another way. -/

namespace Sys2Proof.Machine

/-! ### Tables -/

/-- Partition p. -/
def State.getPart (s : State) (p : Nat) : Partition := Tab.get {} s.part p
/-- Change partition p. -/
def State.updPart (p : Nat) (f : Partition → Partition) (s : State) : State := { s with part := Tab.upd {} s.part p f }
/-- Channel c. -/
def State.getChan (s : State) (c : Nat) : Channel := Tab.get {} s.chan c
/-- Change channel c. -/
def State.updChan (c : Nat) (f : Channel → Channel) (s : State) : State := { s with chan := Tab.upd {} s.chan c f }
/-- Port p. -/
def State.getPort (s : State) (p : Nat) : Port := Tab.get {} s.links.port p
/-- Change port p. -/
def State.updPort (p : Nat) (f : Port → Port) (s : State) : State :=
  { s with links := { s.links with port := Tab.upd {} s.links.port p f } }
/-- Frond f (package frond index, R11). -/
def State.getFrond (s : State) (f : Nat) : Frond := Tab.get {} s.frond f
/-- Change frond f. -/
def State.updFrond (f : Nat) (g : Frond → Frond) (s : State) : State := { s with frond := Tab.upd {} s.frond f g }
/-- Context entry i. -/
def State.getCtx (s : State) (i : Nat) : Ctx := Tab.get {} s.ctx i
/-- Change context entry i. -/
def State.updCtx (i : Nat) (f : Ctx → Ctx) (s : State) : State := { s with ctx := Tab.upd {} s.ctx i f }
/-- Window w. -/
def State.getWin (s : State) (w : Nat) : Window := Tab.get {} s.links.win w
/-- Change window w. -/
def State.updWin (w : Nat) (f : Window → Window) (s : State) : State :=
  { s with links := { s.links with win := Tab.upd {} s.links.win w f } }
/-- State of domain d (R337). -/
def State.getDom (s : State) (d : Nat) : Dom := Tab.get .off s.dom d
/-- Put domain d into a state. -/
def State.setDom (d : Nat) (v : Dom) (s : State) : State := { s with dom := Tab.set .off s.dom d v }

/-! ### Element i of a list, with a default -/

/-- Element i of a list, or a default. -/
def nth {α : Type} (d : α) (l : List α) (i : Nat) : α := l.getD i d

/-- Apply a step to every element of a list in order. -/
def forAll {α : Type} (l : List α) (f : α → State → State) (s : State) : State := l.foldl (fun s x => f x s) s

/-! ### Outputs and free values -/

/-- Give something to the outside. -/
def State.emit (o : Output) (s : State) : State := { s with out := s.out ++ [o] }

/-- Pass over the free value just used. -/
def State.nextFree (s : State) : State := { s with free := s.free + 1 }

/-! ### Time and place -/

/-- The present AON tick (R334). -/
def State.now (s : State) : Nat := s.aon.ticks
/-- The stitch counter (R128). -/
def State.stitch (s : State) : Nat := s.sync.stitch
/-- The package's own coordinate, zero without a plan (R254). -/
def State.here (s : State) : Coord := match s.links.plan with | some p => p.here | none => {}
/-- AON ticks in a number of microseconds (R334: 25 ticks to one). -/
def us (n : Nat) : Nat := 25 * n
/-- AON ticks in a number of milliseconds. -/
def ms (n : Nat) : Nat := 25000 * n

/-- One AON tick passes; while VAON is down nothing counts (R334). Log entry 1. -/
def State.tick (s : State) : State :=
  if s.aon.phase = .off then s else { s with aon := { s.aon with ticks := s.aon.ticks + 1 } }

/-- Fabric rank of a coordinate (R272). -/
def rankOf (size c : Coord) : Nat := c.x + size.x * (c.y + size.y * c.z)

/-! ### Fronds, groups and partitions -/

/-- Die of a frond (R11). -/
def frondDie (f : Nat) : Nat := f / 144
/-- Frond group of a frond (R12). -/
def frondGroup (f : Nat) : Nat := 36 * (f / 144) + 6 * ((f % 144) / 12 / 2) + (f % 12) / 2
/-- Ring position of die Cd (R16): C0, C1, C3, C2. -/
def ringOf (d : Nat) : Nat := nth 0 [0, 1, 3, 2] d
/-- Die at a ring position. -/
def dieAt (r : Nat) : Nat := nth 0 [0, 1, 3, 2] r
/-- The partition numbers. -/
def allParts : List Nat := List.range 64
/-- Whether a partition exists, its fills running included (R209, R378). -/
def Partition.alive (p : Partition) : Bool := p.life == .filling || p.life == .exists_
/-- ARMED or RUNNING. -/
def Partition.live (p : Partition) : Bool := p.pat == .armed || p.pat == .running
/-- The partition holds a pattern: LOADED, ARMED, RUNNING or HALTED. -/
def Partition.holds (p : Partition) : Bool := p.pat != .empty
/-- The fronds of a partition in ascending package index, retired groups left out (R117, R405). -/
def State.fronds (s : State) (p : Nat) : List Nat :=
  (List.range 576).filter fun f =>
    (s.getPart p).groups.getLsbD (frondGroup f) && !(s.faults.retired.getLsbD (frondGroup f))
/-- The partition that owns a frond, if one does. -/
def State.owner (s : State) (f : Nat) : Option Nat :=
  allParts.find? fun p => (s.getPart p).alive && (s.getPart p).groups.getLsbD (frondGroup f)
/-- Package frond index of a logical frond (R117). -/
def State.physical (s : State) (p l : Nat) : Option Nat := (s.fronds p)[l]?
/-- Logical frond of a package frond. -/
def State.logical (s : State) (p f : Nat) : Nat := (s.fronds p).idxOf f
/-- The frond record of a logical frond, if the image names it. -/
def Image.record (i : Image) (l : Nat) : Option FrondRec := i.records[l]?
/-- Declared amount of a resource (R115): a missing record declares zero. -/
def Image.amount (i : Image) (res idx : Nat) : Nat :=
  match i.resources.find? (fun r => r.res == res && r.index == idx) with
  | some r => r.amount
  | none => 0

/-! ### Fault log (R408, R430) -/

/-- Code of a status (R367). -/
def Status.code : Status → Nat
  | .ok => 0x0000 | .accepted => 0x0001 | .partialDone => 0x0002 | .busy => 0x0010 | .conflict => 0x0011
  | .badOpcode => 0x0020 | .badParam => 0x0021 | .notPermitted => 0x0022 | .refusedFit => 0x0030
  | .refusedShape => 0x0031 | .tableFull => 0x0040 | .linkAbsent => 0x0050 | .miswired => 0x0051
  | .linkLost => 0x0052 | .collAbort => 0x0060 | .stepSkipped => 0x0061 | .signatureMismatch => 0x0062
  | .safeListen => 0x0070 | .faultLasting => 0x0080 | .internal => 0x00FF

/-- Bytes of a log entry (R408). -/
def LogEntry.bytes (e : LogEntry) : List Byte :=
  record 32 [⟨0, 8, e.seq⟩, ⟨8, 8, e.time⟩, ⟨0x10, 8, e.stitch⟩, ⟨0x18, 2, e.code.code⟩, ⟨0x1A, 1, e.cls⟩, ⟨0x1B, 1, e.kind⟩,
    ⟨0x1C, 1, e.part⟩, ⟨0x1D, 1, e.unitKind⟩, ⟨0x1E, 2, e.unit⟩] ++ slice e.detail 0 32

/-- What a source gives for its entry; SEQ, AON_TIME and STITCH are the log's. -/
structure LogArgs where
  kind : Nat
  code : Status
  cls : Nat := 0
  part : Nat := 0xFF
  unitKind : Nat := 0
  unit : Nat := 0
  detail : List Fld := []

/-- The entry that the log takes next. -/
def State.entry (a : LogArgs) (s : State) : LogEntry :=
  { seq := s.faults.next, time := s.aon.ticks, stitch := s.sync.stitch, code := a.code, cls := a.cls, kind := a.kind,
    part := a.part, unitKind := a.unitKind, unit := a.unit, detail := record 32 a.detail }

/-- Whether one more entry discards an entry that no FAULT_LOG_READ has returned (R408). -/
def Faults.loses (f : Faults) : Bool :=
  decide (4096 ≤ f.log.length) && (match f.log with | e :: _ => !e.read | [] => false)

/-- The log with one more entry, held to its last 4,096 (R408). -/
def Faults.push (f : Faults) (e : LogEntry) : Faults :=
  { f with log := (f.log ++ [e]).drop (f.log.length + 1 - 4096), next := f.next + 1 }

end Sys2Proof.Machine
end

