-- ==== Sys2Proof/Machine/Flags.lean ====
section
/-! DEFINITION. Status and interrupt flags: the cause tree, RAW bits, ALERT_N and MSI-X (R384 to R386), doorbells (R372), and the
fault log with its LOG_LOST cause (R408). -/

namespace Sys2Proof.Machine

/-- The W1C cause bits of R386. -/
inductive Cause where
  | selftestFail | selftestDone | dieLink | lasting
  | level | annLate | annDropped | annIgnored | rail
  | warn | throttle | trip
  | hbmUe | peatUe | hubUe | laneLasting | noSpare | memPartial
  | linkPlan | linkLost | linkSync | linkRetire | window
  | stepFail | void | frond | halt
  | skip | scaleRange | skipHalt
  | submit | tier | ctxFull
  | mismatch | solo | copyFail | copyDone
  | rxDrop
  | fwError | logLost
deriving DecidableEq, Repr

/-- Cause group of a bit (R386). -/
def Cause.group : Cause → Nat
  | .selftestFail | .selftestDone | .dieLink | .lasting => 0
  | .level | .annLate | .annDropped | .annIgnored | .rail => 1
  | .warn | .throttle | .trip => 2
  | .hbmUe | .peatUe | .hubUe | .laneLasting | .noSpare | .memPartial => 3
  | .linkPlan | .linkLost | .linkSync | .linkRetire | .window => 4
  | .stepFail | .void | .frond | .halt => 5
  | .skip | .scaleRange | .skipHalt => 6
  | .submit | .tier | .ctxFull => 7
  | .mismatch | .solo | .copyFail | .copyDone => 8
  | .rxDrop => 9
  | .fwError | .logLost => 10

/-- Position of a cause bit in its STATUS register (R386). -/
def Cause.bit : Cause → Nat
  | .selftestFail => 0 | .selftestDone => 1 | .dieLink => 2 | .lasting => 3
  | .level => 0 | .annLate => 1 | .annDropped => 2 | .annIgnored => 3 | .rail => 4
  | .warn => 0 | .throttle => 1 | .trip => 2
  | .hbmUe => 0 | .peatUe => 1 | .hubUe => 2 | .laneLasting => 3 | .noSpare => 4 | .memPartial => 5
  | .linkPlan => 0 | .linkLost => 1 | .linkSync => 2 | .linkRetire => 3 | .window => 4
  | .stepFail => 0 | .void => 1 | .frond => 2 | .halt => 3
  | .skip => 0 | .scaleRange => 1 | .skipHalt => 2
  | .submit => 0 | .tier => 1 | .ctxFull => 2
  | .mismatch => 0 | .solo => 1 | .copyFail => 2 | .copyDone => 3
  | .rxDrop => 3
  | .fwError => 0 | .logLost => 1

/-- The W1C bits that group n has (R386); other bits are reserved or follow doorbells. -/
def w1cBits (n : Nat) : Word := nth 0 [0xF, 0x1F, 0x7, 0x3F, 0x1F, 0xF, 0x7, 0x7, 0xF, 0x8, 0x3] n

/-- The bits MASK and STATUS of group n have (R386). -/
def groupBits (n : Nat) : Word := if n = 9 then 0x30B else w1cBits n

/-- A channel has a doorbell bit set and unmasked (R372). -/
def Channel.rings (c : Channel) : Bool := (c.db &&& ~~~c.dbMask) != 0

/-- A word from 32 bits. -/
def wordOf (f : Nat → Bool) : Word := BitVec.ofNat 32 ((List.range 32).foldl (fun a i => a + if f i then 2 ^ i else 0) 0)

/-- STATUS of group 16 or 17: doorbells of channels 4 to 35 or 36 to 67 (R386). -/
def State.partStatus (s : State) (hi : Nat) : Word := wordOf fun i => (s.getChan (4 + 32 * hi + i)).rings

/-- STATUS of cause group n as it reads (R386): group 9 joins its W1C bit with the bits that follow the doorbells. -/
def State.groupStatus (s : State) (n : Nat) : Word :=
  if n = 9 then
    nth 0 s.irq.status 9 ||| wordOf fun i =>
      (i == 0 && (s.getChan 0).rings) || (i == 1 && (s.getChan 1).rings)
        || (i == 8 && (s.partStatus 0 &&& ~~~(nth 0 s.irq.maskExt 0)) != 0)
        || (i == 9 && (s.partStatus 1 &&& ~~~(nth 0 s.irq.maskExt 1)) != 0)
  else nth 0 s.irq.status n

/-- The unmasked status bits of group n. -/
def State.groupOpen (s : State) (n : Nat) : Word := s.groupStatus n &&& ~~~(nth 0 s.irq.mask n)

/-- TOP_SUMMARY (R386): bit n while group n has a bit set and unmasked. -/
def State.topSummary (s : State) : Word := wordOf fun n => n < 11 && s.groupOpen n != 0

/-- CAUSE bit n counts for a path: for bit 9 with MBOX_SPLIT only the path's own doorbells do (R385). -/
def State.counts (s : State) (n : Nat) (only : Word) : Bool :=
  if n = 9 ∧ s.irq.topRoute.getLsbD 31 then (s.groupOpen 9 &&& only) != 0 else s.groupOpen n != 0

/-- Whether group n drives ALERT_N (R384, R385). -/
def State.alerts (s : State) (n : Nat) : Bool :=
  s.counts n 0x1 && !(s.irq.topMask.getLsbD n) && s.irq.topRoute.getLsbD n

/-- Whether group n is in the set that drives MSI-X (R384, R385). -/
def State.msis (s : State) (n : Nat) : Bool :=
  s.counts n 0x30A && !(s.irq.topMask.getLsbD n) && s.irq.topRoute.getLsbD (16 + n)

/-- ALERT_N is driven low (R384). -/
def State.alertLow (s : State) : Bool := (List.range 11).any s.alerts

/-- The set of causes routed to MSI-X is not empty (R384). -/
def State.msiOn (s : State) : Bool := (List.range 11).any s.msis

/-- VHUB and VLINK are up, so that the host port has power (R401, R419). -/
def State.hostPower (s : State) : Bool :=
  s.aon.phase != .off && !(s.aon.railsLow.getLsbD 2) && !(s.aon.railsLow.getLsbD 7)

/-- The function may send messages: the host port is powered and out of reset, and MSI-X is enabled (R384, R389, R420). -/
def State.msixLive (s : State) : Bool := s.hostPower && s.aon.perstN && s.pcie.msixOn

/-- The function, its vector or its power state holds messages back (R384, R420; log entry 70). -/
def Pcie.masked (c : Pcie) : Bool := c.funcMask || c.vecMask || c.d3hot

/-- The message of vector 0: sent, or pending while it is masked (R384). -/
def State.sendMsix (s : State) : State :=
  if s.msixLive = false then s
  else if s.pcie.masked = true then { s with pcie := { s.pcie with pend := true } }
  else s.emit (.msix s.pcie.msgAddr s.pcie.msgData)

/-- After a change of the masks of MSI-X: a pending message that nothing holds back goes (R384). -/
def State.unmaskMsix (s : State) : State :=
  if s.msixLive && !s.pcie.masked && s.pcie.pend then
    { s with pcie := { s.pcie with pend := false }, out := s.out ++ [.msix s.pcie.msgAddr s.pcie.msgData] }
  else s

/-- After any change of causes, doorbells or masks: one MSI-X message each time the routed set goes from empty to non-empty; once the set is empty
nothing is pending (R384). -/
def State.settle (s : State) : State :=
  let on := s.msiOn
  let s1 := { s with irq := { s.irq with msiSet := on } }
  if on && !s.irq.msiSet then s1.sendMsix
  else if on then s1
  else { s1 with pcie := { s.pcie with pend := false } }

/-- Set one cause bit; it is held until cleared (R386). -/
def State.raise (c : Cause) (s : State) : State :=
  State.settle { s with irq := { s.irq with status := s.irq.status.modify c.group (· ||| BitVec.twoPow 32 c.bit) } }

/-- Set one DB_STATUS bit of a channel (R372). -/
def State.ringHost (ch bit : Nat) (s : State) : State :=
  State.settle (s.updChan ch fun c => { c with db := c.db ||| BitVec.twoPow 32 bit })

/-- Append an entry to the fault log; discarding one that was never read sets LOG_LOST (R408). -/
def State.log (a : LogArgs) (s : State) : State :=
  let s1 := { s with faults := s.faults.push (s.entry a) }
  if s.faults.loses then s1.raise .logLost else s1

/-! ### RAW (R386) -/

/-- Ring position r's die. -/
def State.getDie (s : State) (r : Nat) : Die := nth {} s.dies.die r

/-- Every module of die link l has trained (R18): links 0 to 3 are the hub links in ring order, 4 and 5 the half-partner links. -/
def State.linkTrained (s : State) (l : Nat) : Bool := if l < 4 then (s.getDie l).hubUp else nth false s.dies.half (l - 4)

/-- State of die link l (R18, R20, R21). -/
def State.dieLink (s : State) (l : Nat) : DieLink := if s.linkTrained l then Tab.get .up s.dies.link l else .down

/-- The key of a message queue: ring position and class (R22). -/
def odpKey (r : Nat) (c : OdpClass) : Nat := 4 * r + (match c with | .mem => 0 | .tok => 1 | .ctl => 2 | .mgt => 3)

/-- The class of a message (01 *ODP message classes*). -/
def OdpMsg.cls : OdpMsg → OdpClass
  | .ctl _ => .ctl
  | .query _ => .mgt

/-- A message leaves the hub for ring position r. -/
def OdpMsg.output (r : Nat) : OdpMsg → Output
  | .ctl m => .ctl r m
  | .query t => .capQuery r t

/-- Send a message to ring position r (R20, R22): it goes at once while the hub link carries traffic and no earlier message of its class waits, and
otherwise joins the queue of its class. No class waits for another; the number of credits is the spec's to give and never runs out here (log entry 73). -/
def State.odpSend (r : Nat) (m : OdpMsg) (s : State) : State :=
  if s.dieLink r = .up ∧ Tab.get [] s.dies.odp (odpKey r m.cls) = [] then s.emit (m.output r)
  else { s with dies := { s.dies with odp := Tab.upd [] s.dies.odp (odpKey r m.cls) (· ++ [m]) } }

/-- The hub link of ring position r carries traffic again: what waits goes, each class in the order sent (R20, R22). -/
def State.odpResume (r : Nat) (s : State) : State :=
  [OdpClass.mem, .tok, .ctl, .mgt].foldl (fun s c =>
    { s with out := s.out ++ (Tab.get [] s.dies.odp (odpKey r c)).map (OdpMsg.output r)
             dies := { s.dies with odp := Tab.set [] s.dies.odp (odpKey r c) [] } }) s

/-- A retirement of a frond group or a port is pending. -/
def State.portMarked (s : State) : Bool := (List.range 13).any fun p => (s.getPort p).marked && (s.getPort p).state != .retired
/-- A frond group is marked and not yet retired (R405). -/
def State.groupMarked (s : State) : Bool := (s.faults.marked &&& ~~~s.faults.retired) != 0

/-- A package without a parent is a root and always LOCKED (R277). -/
def State.isLocked (s : State) : Bool := s.sync.parent.isNone || s.sync.locked

/-- Ports that the plan names, the twin port when its fabric is twinned (R243, R245). -/
def State.plannedPorts (s : State) : List Nat :=
  match s.links.plan with
  | none => []
  | some p => (List.range 12).filter (fun i => bit p.ports i) ++ if p.peer = 0 then [] else [12]

/-- RAW of cause group n. -/
def State.groupRaw (s : State) (n : Nat) : Word :=
  wordOf fun i =>
    match n, i with
    | 0, 0 => s.aon.phase == .safeListen
    | 0, 2 => (List.range 6).any fun l => s.dieLink l != .up
    | 0, 3 => s.portMarked || s.groupMarked
    | 1, 4 => s.aon.railsOut != 0
    | 2, 0 => decide (95 * 16 ≤ s.rate.tj)
    | 2, 1 => decide (s.rate.therm < 15)
    | 2, 2 => s.aon.thermTrip
    | 4, 0 => s.plannedPorts.any fun p => (s.getPort p).result != .ok
    | 4, 2 => !s.isLocked
    | 4, 3 => s.portMarked
    | 8, 1 => allParts.any fun p => (s.getPart p).twin.state == .solo
    | _, _ => false

/-! ### Fault classes (R402 to R404) -/

/-- Default window in seconds and threshold of a class (R404). -/
def classDefault (c : Nat) : Nat × Nat :=
  nth (0, 0) [(0, 0), (3600, 3), (3600, 2), (60, 1000), (3600, 2), (600, 8), (60, 1000), (3600, 2), (60, 100), (3600, 1),
    (60, 10000), (3600, 6), (3600, 2), (600, 4)] c

/-- A window and threshold with their zeros taken as the class defaults (R383, R404). -/
def withDefaults (c : Nat) (p : Nat × Nat) : Nat × Nat :=
  (if p.1 = 0 then (classDefault c).1 else p.1, if p.2 = 0 then (classDefault c).2 else p.2)

/-- The window and threshold of a class as the commands run so far have set them (R403). -/
def State.policySet (s : State) (c : Nat) : Nat × Nat := withDefaults c (Tab.get (0, 0) s.faults.policy c)

/-- The window and threshold in force (R403): those of the last FAULT_POLICY accepted, whether or not its first step has run. -/
def State.policy (s : State) (c : Nat) : Nat × Nat :=
  match (s.faults.policyPend.filter fun e => e.cls == c).getLast? with
  | some e => withDefaults c (e.window, e.threshold)
  | none => s.policySet c

/-- Unit kind of a class (R404, R408). -/
def classUnitKind (c : Nat) : Nat := nth 0 [0, 2, 3, 5, 5, 6, 8, 8, 9, 9, 0xA, 0xA, 0xA, 0] c

/-- Key of a unit of a class. -/
def unitKey (c u : Nat) : Nat := 4096 * c + u

/-- A unit that makes no further lasting fault: marked or retired, or an HBM channel with no repair lane left (R402). -/
def State.unitHeld (s : State) (c u : Nat) : Bool :=
  (Tab.get {} s.faults.unit (unitKey c u)).held
    || (c == 2 && (s.faults.marked.getLsbD u || s.faults.retired.getLsbD u))
    || ((c == 10 || c == 11 || c == 12) && ((s.getPort u).marked || (s.getPort u).state == .retired))

/-- Change one unit's count. -/
def State.updUnit (c u : Nat) (f : FaultUnit → FaultUnit) (s : State) : State :=
  { s with faults := { s.faults with unit := Tab.upd {} s.faults.unit (unitKey c u) f } }

/-- What a class does with a unit that has become lasting (R404, R205, R257, R405). -/
def State.lastingOutcome (c u lane : Nat) (s : State) : State :=
  if c = 2 then { s with faults := { s.faults with marked := s.faults.marked ||| BitVec.twoPow 144 u } }
  else if c = 10 ∨ c = 11 ∨ c = 12 then (s.updPort u fun p => { p with marked := true }).raise .linkRetire
  else if c = 5 then
    if Tab.get 0 s.mem.repairs u < 2 then
      let due := if s.mem.due.any (·.1 == u) then s.mem.due else s.mem.due ++ [(u, lane, s.sync.stitch)]
      ({ s with mem := { s.mem with due := due } }).raise .laneLasting
    else
      (({ s with mem := { s.mem with noSpare := s.mem.noSpare.filter (· != u) ++ [u] } }).updUnit c u fun x => { x with held := true }).raise .laneLasting
        |>.raise .noSpare
  else s.updUnit c u fun x => { x with count := 0 }

/-- A self-test runs whose HBM training phase, phase 5, is in progress or to come (R206, R396, R398). -/
def State.trains (s : State) : Bool := s.test.active && decide (s.test.phase ≤ 5)

/-- The training of phase 5 switches a repair lane in on channel u: counted in STACK and SPARES_USED, and the events of the channel are cleared
(R205, R206, R399, R409). -/
def State.trainRepair (u : Nat) (s : State) : State :=
  if u < 384 ∧ Tab.get 0 s.mem.repairs u < 2 then
    State.updUnit 5 u (fun x => { x with count := 0 })
      { s with mem := { s.mem with repairs := Tab.upd 0 s.mem.repairs u (· + 1), spares := Tab.upd 0 s.mem.spares (u / 32) (satAdd 8 · 1) }
               test := { s.test with stack := s.test.stack.modify (u / 32) (· + 1) } }
  else s

/-- One event of a fault class (R402). 'lane' and 'addr' go into the entry's DETAIL (R430). A lane fault that becomes lasting during a
self-test is repaired in its HBM training phase and not logged as lasting (R206, R409). -/
def State.faultEvent (c u lane addr : Nat) (s : State) : State :=
  let x := Tab.get {} s.faults.unit (unitKey c u)
  if s.unitHeld c u then s.updUnit c u fun x => { x with count := satAdd 32 x.count 1 }
  else
    let w := (s.policy c).1
    let h := (s.policy c).2
    let opened := x.count == 0 || decide (x.start + w * 25000000 ≤ s.now)
    let y : FaultUnit := if opened then { x with start := s.now, count := 1 } else { x with count := x.count + 1 }
    let s1 := s.updUnit c u fun _ => y
    let detail : List Fld := [⟨0, 4, y.count⟩, ⟨4, 4, w⟩, ⟨8, 4, h⟩, ⟨12, 1, lane⟩, ⟨16, 8, addr⟩]
    if h ≤ y.count ∧ c = 5 ∧ s.trains = true ∧ Tab.get 0 s.mem.repairs u < 2 then s1.trainRepair u
    else if h ≤ y.count then
      ((s1.log { kind := 2, code := .faultLasting, cls := c, unitKind := classUnitKind c, unit := u, detail := detail }).raise
        .lasting).lastingOutcome c u lane
    else if opened then s1.log { kind := 1, code := .ok, cls := c, unitKind := classUnitKind c, unit := u, detail := detail }
    else s1

end Sys2Proof.Machine
end

