-- ==== Sys2Proof/Machine/Ports.lean ====
section
/-! DEFINITION. Ports, flits and frames: port definitions, expected partners, frame headers, flow-control places, the flit stream of
a port and its counters (R219 to R238, R245, R266). -/

namespace Sys2Proof.Machine

/-! ### Profiles (R221, R222) -/

/-- Ports of the torus profile. -/
def torusPorts : List PortDef := [⟨0, 4, 0⟩, ⟨4, 4, 1⟩, ⟨8, 4, 2⟩, ⟨12, 4, 3⟩, ⟨16, 4, 4⟩, ⟨20, 4, 5⟩]
/-- Ports of the pipeline profile. -/
def pipelinePorts : List PortDef := [⟨0, 6, 0⟩, ⟨6, 6, 1⟩, ⟨12, 3, 2⟩, ⟨15, 3, 3⟩, ⟨18, 3, 4⟩, ⟨21, 3, 5⟩]

/-- The fabric ports of the profile in force, by port number (R221). -/
def State.profilePorts (s : State) : List PortDef :=
  if s.links.profile = 0 then torusPorts else if s.links.profile = 1 then pipelinePorts else s.links.custom

/-- Definition of a port; port 12 is the twin port with lanes 24 to 27 (R219). -/
def State.portDef (s : State) (p : Nat) : Option PortDef :=
  if p = 12 then some ⟨24, 4, 6⟩ else s.profilePorts[p]?

/-- Lanes of a port, 0 when the profile has no such port. -/
def State.lanesOf (s : State) (p : Nat) : Nat := match s.portDef p with | some d => d.lanes | none => 0
/-- Direction code of a port, 0xFF for none (R254). -/
def State.dirOf (s : State) (p : Nat) : Nat := match s.portDef p with | some d => d.dir | none => 255
/-- Port numbers whose direction is D, ascending. -/
def State.portsOf (s : State) (dir : Nat) : List Nat := (List.range 12).filter fun p => s.dirOf p == dir
/-- The opposite direction code. -/
def oppositeDir (d : Nat) : Nat := if d % 2 = 0 then d + 1 else d - 1

/-- Coordinate and size of a fabric on an axis. -/
def coordOn (c : Coord) (axis : Nat) : Nat := if axis = 0 then c.x else if axis = 1 then c.y else c.z
/-- Change a coordinate on one axis. -/
def coordPut (c : Coord) (axis v : Nat) : Coord :=
  if axis = 0 then { c with x := v } else if axis = 1 then { c with y := v } else { c with z := v }
/-- The neighbour of a coordinate in a direction, modulo the size (R245). -/
def neighbour (size c : Coord) (dir : Nat) : Coord :=
  let a := dir / 2
  let n := max (coordOn size a) 1
  coordPut c a ((if dir % 2 = 0 then coordOn c a + 1 else coordOn c a + n - 1) % n)
/-- Size of the fabric, 1 x 1 x 1 without a plan. -/
def State.size (s : State) : Coord := match s.links.plan with | some p => p.size | none => ⟨1, 1, 1⟩

/-- The identity that port p expects to observe: coordinate, port, fabric and TWIN_INDEX (R245). -/
def State.expected (s : State) (p : Nat) : Option (Coord × Nat × Nat × Nat) :=
  match s.links.plan with
  | none => none
  | some pl =>
    if p = 12 then some (pl.here, 12, pl.peer, 1 - pl.twin)
    else
      let d := s.dirOf p
      match (s.portsOf (oppositeDir d))[(s.portsOf d).idxOf p]? with
      | some q => some (neighbour pl.size pl.here d, q, pl.fabric, pl.twin)
      | none => none

/-- What an observed identity says of the same four things. -/
def Ident.who (i : Ident) : Coord × Nat × Nat × Nat := (i.at_, i.port, i.fabric, i.twin)

/-- A selvage port (R262); the twin port is never one. -/
def State.isSelvage (s : State) (p : Nat) : Bool := decide (p < 12) && bit s.links.selvage p

/-- The port carries flits now: UP and not retraining (R252, R255). -/
def State.carries (s : State) (p : Nat) : Bool := (s.getPort p).state == .up && (s.getPort p).retrain.isNone

/-! ### Counters (R266) -/

/-- Add to an event counter of a port (R266, R8): FEC_CORRECTED 0, FLIT_FAILED 1, REPLAYS 2, RETRAINS 3, LOSTS 4, DISC_MISROUTE 5,
DISC_NO_PART 6, DISC_KIND 7, DISC_SELVAGE 8, DISC_ROUTE_TABLE 9, DISC_LOST 10. -/
def State.portEv (p k n : Nat) (s : State) : State :=
  s.updPort p fun x => { x with count := { x.count with ev := Tab.upd 0 x.count.ev k (satAdd 64 · n) } }

/-- Add to a counter of a port's virtual lane: FLITS_SENT 0, OFF_STITCHES 1, OCC_SUM 2. -/
def Port.vlCount (vl k n : Nat) (x : Port) : Port :=
  { x with count := { x.count with vl := Tab.upd 0 x.count.vl (3 * vl + k) (satAdd 64 · n) } }

/-! ### Frames and flits -/

/-- Virtual lane of a frame kind; none for a reserved kind (R229, R230). -/
def kindVl (k : Nat) : Option Nat :=
  nth none [none, some 0, some 1, some 2, some 2, some 2, some 2, some 3, some 3, some 3, some 2, some 3] k
/-- The kind travels on the twin port only. -/
def kindTwin (k : Nat) : Bool := k == 0xA || k == 0xB
/-- Whether a frame may arrive on a port (R230). -/
def kindOk (p : Nat) (f : Frame) : Bool := kindVl f.kind == some f.vl && (kindTwin f.kind == (p == 12) || (p == 13 && !kindTwin f.kind))
/-- The 16-byte frame header (R229). -/
def frameHeader (f : Frame) : List Byte :=
  record 16 [⟨0, 1, f.dst.x⟩, ⟨1, 1, f.dst.y⟩, ⟨2, 1, f.dst.z⟩, ⟨3, 1, f.src.x⟩, ⟨4, 1, f.src.y⟩, ⟨5, 1, f.src.z⟩, ⟨6, 1, f.part % 64⟩,
    ⟨7, 1, f.kind % 16 + 16 * b2n f.raise⟩, ⟨8, 2, f.payload.length⟩, ⟨0xA, 2, f.token⟩, ⟨0xC, 4, f.arg⟩]
/-- The frame a header and what follows it spell (R229). -/
def frameParse (vl dl : Nat) (b : List Byte) : Frame :=
  { dst := ⟨fld b 0 1, fld b 1 1, fld b 2 1⟩, src := ⟨fld b 3 1, fld b 4 1, fld b 5 1⟩, part := bits (fld b 6 1) 5 0,
    kind := bits (fld b 7 1) 3 0, raise := bit (fld b 7 1) 4, token := fld b 0xA 2, arg := fld b 0xC 4, vl := vl, dl := dl,
    payload := slice b 16 (fld b 8 2) }
/-- Flits of a frame (R228). -/
def frameFlits (f : Frame) : Nat := cdiv (16 + f.payload.length) 232
/-- Flow-control channel of a virtual lane and dateline class (R235). -/
def schOf (vl dl : Nat) : Nat := if vl < 2 then vl else 2 * vl - 2 + dl

/-- Header of a flit (R223). 'first' and 'last' are the frame's ends; 'sym' is (SKIND, SCH, HOLD). -/
def flitHeader (ftype vl dl : Nat) (first last nak : Bool) (seq ack : Nat) (sym : Nat × Nat × Nat) : BitVec 64 :=
  BitVec.ofNat 64 (ftype + 2 ^ 4 * b2n first + 2 ^ 5 * b2n last + 2 ^ 6 * vl + 2 ^ 8 * dl + 2 ^ 9 * b2n nak + 2 ^ 12 * (seq % 4096)
    + 2 ^ 24 * (ack % 4096) + 2 ^ 40 * sym.1 + 2 ^ 42 * sym.2.1 + 2 ^ 48 * sym.2.2)

/-- A flit with its CRC over bytes 0 to 239 (R223). -/
def mkFlit (hdr : BitVec 64) (payload : List Byte) : Flit :=
  let p := slice payload 0 232
  { hdr := hdr, payload := p, crc := crc32 (leBytes 8 hdr.toNat ++ p) }

/-- Bytes 0 to 243 of a flit (R223). -/
def flitBytes (fl : Flit) : List Byte := leBytes 8 fl.hdr.toNat ++ slice fl.payload 0 232 ++ leBytes 4 fl.crc.toNat
/-- The parity symbols of one of the two codewords of a flit: of its even bytes (0) or its odd ones (1) (R224). -/
def codeParity (fl : Flit) (k : Nat) : List Byte :=
  slice (Config.fecParity ((List.range 122).map fun i => nth 0 (flitBytes fl) (2 * i + k))) 0 6
/-- Bytes 244 to 255 of a flit: the parity of the two codewords, interleaved (R223, R224). -/
def flitParity (fl : Flit) : List Byte := (List.range 6).flatMap fun i => [nth 0 (codeParity fl 0) i, nth 0 (codeParity fl 1) i]

/-- Flits leave by one lane of a port, as until the port is UP (R248). -/
def State.sendLane (p lane : Nat) (fs : List Flit) (s : State) : State := s.emit (.flits p (fs.map fun fl => ⟨lane, fl, flitParity fl⟩))
/-- Flits of the flit stream of a port leave: flit i on lane i mod L (R223). -/
def State.sendStream (p : Nat) (fs : List Flit) (s : State) : State :=
  let i := (s.getPort p).txIndex
  (s.updPort p fun x => { x with txIndex := x.txIndex + fs.length }).emit
    (.flits p ((List.range fs.length).map fun k => ⟨(i + k) % max (s.lanesOf p) 1, nth default fs k, flitParity (nth default fs k)⟩))

/-- Skid allowance of a port in flits (R235: one flit takes 19.28 ns on one lane, R223). -/
def State.skid (s : State) (p : Nat) : Nat := 64 + cdiv (s.lanesOf p * (s.getPort p).rtt * 100) 1928
/-- Free places above which the receiver sends ON (R235). -/
def State.onAbove (s : State) (p : Nat) : Nat := s.skid p + 256
/-- HOLD of an OFF (R237). -/
def State.offHold (s : State) (p : Nat) : Nat := min 65535 (max 100 (cdiv (4 * (s.getPort p).rtt) 40))

/-- Flow-control channel k of a port. -/
def Port.chan (x : Port) (k : Nat) : Flow := Tab.get {} x.flow k
/-- Change a flow-control channel. -/
def Port.updChan (k : Nat) (f : Flow → Flow) (x : Port) : Port := { x with flow := Tab.upd {} x.flow k f }
/-- Whether a channel is held at an AON tick (R236). -/
def Flow.heldAt (f : Flow) (now : Nat) : Bool := match f.heldUntil with | some t => decide (now < t) | none => false
/-- Virtual lane of a flow-control channel. -/
def vlOfSch (k : Nat) : Nat := if k < 2 then k else k / 2 + 1

/-- The receiver's symbols after a change of a channel's free places (R235, R237): OFF below the skid allowance, ON above the threshold. -/
def State.flowCheck (p k : Nat) (s : State) : State :=
  let x := s.getPort p
  let free := 2048 - (x.chan k).taken
  if free < s.skid p ∧ (x.chan k).offAt = none then
    s.updPort p fun x => { x.updChan k (fun f => { f with offAt := some s.now }) with symbols := x.symbols ++ [(2, k, s.offHold p)] }
  else if s.onAbove p < free ∧ (x.chan k).offAt ≠ none then
    s.updPort p fun x => { x.updChan k (fun f => { f with offAt := none }) with symbols := x.symbols ++ [(1, k, 0)] }
  else s

/-- A frame leaves a port's input: it is taken from the list of received frames, if it stands there, and its places are free. -/
def State.takeRx (p : Nat) (f : Frame) (s : State) : State :=
  if (s.getPort p).rx.contains f then
    (s.updPort p fun x =>
      { x.updChan (schOf f.vl f.dl) (fun c => { c with taken := c.taken - frameFlits f }) with rx := x.rx.erase f }).flowCheck p (schOf f.vl f.dl)
  else s

/-! ### Collective frames (R292, R293, R295) -/

/-- Key of an instruction among those of a step. -/
def Coll.key (c : Coll) : Nat × Nat := (c.group, c.inst)
/-- GROUP_ID and INSTANCE as ARG of a COLL frame holds them. -/
def collTag (f : Frame) : Nat := f.arg % 2 ^ 24
/-- A COLL frame of the tree pass. -/
def collTree (f : Frame) : Bool := bit f.arg 25
/-- The instruction that a COLL frame of a partition belongs to, by its GROUP_ID and INSTANCE (R292): of several, the oldest that is not over, else
the newest. -/
def Partition.collOf (q : Partition) (group inst : Nat) : Option Coll :=
  let cs := q.colls.filter fun c => c.group == group && c.inst % 256 == inst
  match cs.find? fun c => !c.done && !c.aborted with
  | some c => some c
  | none => cs.getLast?
/-- A COLL frame of an instruction has been sent or received: its member's progress is now (R295). -/
def State.collProgress (f : Frame) (s : State) : State :=
  if f.kind ≠ 2 then s
  else match (s.getPart f.part).collOf (f.arg % 65536) (bits f.arg 23 16) with
    | some c => s.updPart f.part fun q => { q with colls := q.colls.map fun (d : Coll) => if d.key = c.key then { d with progress := s.stitch } else d }
    | none => s
/-- Chunks that an instruction may have in flight in each direction of a port (R147, R293). -/
def State.chunkBound (s : State) (f : Frame) : Nat :=
  match (s.getPart f.part).collOf (f.arg % 65536) (bits f.arg 23 16) with | some c => min 16 c.what.slots | none => 16
/-- The chunks of a COLL frame's instruction that a port has sent and its neighbour has not acknowledged. -/
def Port.chunksOf (x : Port) (f : Frame) : List Nat :=
  ((x.chunks.filter fun c => c.1 == f.part && c.2.1 == collTag f).map fun c => c.2.2.1).eraseDups
/-- A data frame of a collective may start: its chunk is in flight already, or fewer chunks than its bound are (R293; what ends a chunk's flight: log
entry 58). -/
def State.chunkMay (s : State) (p : Nat) (f : Frame) : Bool :=
  f.kind != 2 || collTree f || ((s.getPort p).chunksOf f).contains f.token || decide (((s.getPort p).chunksOf f).length < s.chunkBound f)
/-- A data frame of a collective has been sent: its chunk is in flight until the flit with the last SEQ is acknowledged. -/
def Port.chunkSent (f : Frame) (x : Port) : Port :=
  if f.kind ≠ 2 ∨ collTree f then x
  else { x with chunks := (x.chunks.filter fun c => !(c.1 == f.part && c.2.1 == collTag f && c.2.2.1 == f.token))
                  ++ [(f.part, collTag f, f.token, (x.txSeq + 4095) % 4096)] }

/-! ### Sending frames -/

/-- Put one sequenced flit on a port (R225): it takes the next SEQ, the pending symbol, ACK and NAK, and stays in the replay buffer. -/
def State.sendFlit (p ftype vl dl : Nat) (first last : Bool) (payload : List Byte) (s : State) : State :=
  let x := s.getPort p
  let sym := x.symbols.headD (0, 0, 0)
  let fl := mkFlit (flitHeader ftype vl dl first last x.nak x.txSeq (x.rxSeq + 4095) sym) payload
  (s.updPort p fun x =>
    { x with txSeq := (x.txSeq + 1) % 4096, nak := false, symbols := x.symbols.drop 1, replay := x.replay ++ [fl],
             tries := x.tries ++ [0] }).sendStream p [fl]

/-- The replay buffer has room for n more flits (R226). -/
def State.roomFor (s : State) (p n : Nat) : Bool := decide ((s.getPort p).replay.length + n ≤ 1024)

/-- Send the DATA flits of a frame from flit i on. -/
def State.sendDataFlits (p : Nat) (f : Frame) (bytes : List Byte) (n : Nat) : Nat → State → State
  | 0, s => s
  | k + 1, s =>
    let i := n - (k + 1)
    State.sendDataFlits p f bytes n k (s.sendFlit p 1 f.vl f.dl (i == 0) (k == 0) (slice bytes (232 * i) 232))

/-- AON ticks that n flits take on L lanes (R223, R238). -/
def flitTicks (n lanes : Nat) : Nat := n * 1928 / (4000 * max lanes 1)

/-- Send one whole frame on a port: its flits, FLITS_SENT, and the end of the frame in flight of its channel (R228, R238). -/
def State.sendFrame (p : Nat) (f : Frame) (s : State) : State :=
  let n := frameFlits f
  (State.sendDataFlits p f (frameHeader f ++ f.payload) n n s).updPort p fun x =>
    (x.vlCount f.vl 0 n).updChan (schOf f.vl f.dl) fun c => { c with frameEnd := s.now + flitTicks n (s.lanesOf p) }

end Sys2Proof.Machine
end

