-- ==== Sys2Proof/Machine/Route.lean ====
section
/-! DEFINITION. Routing in the torus, injection, isolation and the end-to-end windows (R231, R239 to R242, R258 to R265). -/

namespace Sys2Proof.Machine

/-! ### Next hop -/

/-- The first axis on which two coordinates differ, in the order X, Y, Z (R258). -/
def nextAxis (a b : Coord) : Option Nat := (List.range 3).find? fun i => coordOn a i != coordOn b i

/-- Whether a frame moves in the + direction on an axis (R258, R264). -/
def movesUp (noWrap : Nat) (size s d : Coord) (axis : Nat) : Bool :=
  if bit noWrap axis then decide (coordOn s axis < coordOn d axis)
  else
    let n := max (coordOn size axis) 1
    let delta := (coordOn d axis + n - coordOn s axis % n) % n
    decide (delta ≤ n - delta)

/-- Direction code of the next hop from a coordinate to another one (R258). -/
def nextDir (noWrap : Nat) (size s d : Coord) : Option Nat :=
  (nextAxis s d).map fun a => if movesUp noWrap size s d a then 2 * a else 2 * a + 1

/-- The index that chooses among several ports of a direction: the destination's coordinate on the next axis that differs (R259). -/
def portIndex (s d : Coord) (axis : Nat) : Nat :=
  match (List.range 3).find? fun i => decide (axis < i) && coordOn s i != coordOn d i with
  | some i => coordOn d i
  | none => 0

/-- Port by which a routed frame leaves toward d (R258, R259). -/
def State.outPort (d : Coord) (s : State) : Option Nat :=
  match nextDir s.links.noWrap s.size s.here d with
  | none => none
  | some dir =>
    let ps := s.portsOf dir
    ps[portIndex s.here d (dir / 2) % max ps.length 1]?

/-- The hop in a direction from a coordinate crosses the wrap link of its axis (R260). -/
def crossesWrap (size c : Coord) (dir : Nat) : Bool :=
  let v := coordOn c (dir / 2)
  if dir % 2 = 0 then v + 1 == max (coordOn size (dir / 2)) 1 else v == 0

/-- Dateline class on the next hop: kept on the same axis, 0 on a new one, 1 once the wrap link is crossed (R260). -/
def hopClass (size c : Coord) (inDir : Option Nat) (dl dir : Nat) : Nat :=
  if crossesWrap size c dir then 1
  else match inDir with
    | some i => if i / 2 = dir / 2 then dl else 0
    | none => 0

/-! ### Queues of frames to send -/

/-- Queue a frame at a port: a selvage port discards and counts it (R263), so does a LOST one (R256); a port in another state that
carries no frames loses it (R252). -/
def State.enqueue (p : Nat) (f : Frame) (s : State) : State :=
  if s.isSelvage p then s.portEv p 8 1
  else match (s.getPort p).state with
    | .up => s.updPort p fun x => { x with tx := x.tx ++ [f] }
    | .lost => s.portEv p 10 1
    | _ => s.emit (.frameLost p f)

/-- Whether a destination lies in a box of ROUTE_TABLE_LOAD: X_LO, X_HI, Y_LO, Y_HI, Z_LO, Z_HI. -/
def inBox (b : List Nat) (c : Coord) : Bool :=
  (List.range 3).all fun i => decide (nth 0 b (2 * i) ≤ coordOn c i) && decide (coordOn c i ≤ nth 0 b (2 * i + 1))

/-- The routing table lets a frame to d be injected (R265). -/
def State.permitted (s : State) (d : Coord) : Bool := s.links.boxes.isEmpty || s.links.boxes.any (inBox · d)

/-- Inject a routed frame (R258 to R265). A frame to the package itself goes to its own input, port 13 (log entry 20). -/
def State.inject (f : Frame) (s : State) : State :=
  if f.dst = s.here then s.updPort 13 fun x => { x with rx := x.rx ++ [f] }
  else match nextDir s.links.noWrap s.size s.here f.dst, s.outPort f.dst with
    | some dir, some p =>
      if s.permitted f.dst then s.enqueue p { f with dl := hopClass s.size s.here none 0 dir } else s.portEv p 9 1
    | _, _ => s.emit (.frameLost 13 f)

/-- Forward a routed frame that came in by a port (R258 to R261). -/
def State.forward (inPort : Nat) (f : Frame) (s : State) : State :=
  match nextDir s.links.noWrap s.size s.here f.dst, s.outPort f.dst with
  | some dir, some p =>
    s.enqueue p { f with dl := hopClass s.size s.here (some (oppositeDir (s.dirOf inPort))) f.dl dir }
  | _, _ => s.emit (.frameLost 13 f)

/-- Queue a frame on the twin port. -/
def State.sendTwin (f : Frame) (s : State) : State := s.enqueue 12 f

/-- Queue a frame to the neighbour of a port (one hop). -/
def State.sendHop (p : Nat) (f : Frame) (s : State) : State := s.enqueue p f

/-! ### End-to-end windows -/

/-- Windows a partition has reserved (R115, R239). -/
def Partition.windows (p : Partition) : Nat := if p.holds then p.image.amount 0x07 0 else 0

/-- Indexes of the windows that a partition has bound. -/
def State.boundWins (s : State) (p : Nat) : List Nat := (s.links.win.filter fun e => e.2.owner == p + 1).map (·.1)

/-- The lowest window index that no partition has bound. -/
def State.freeWin (s : State) : Nat := ((List.range 4097).find? fun i => (s.getWin i).owner == 0).getD 0

/-- Of a partition's idle windows, the one idle longest (R240). -/
def State.idleWin (s : State) (p : Nat) : Option Nat :=
  (s.boundWins p).foldl (fun b i =>
    if (s.getWin i).inflight = 0 then
      match b with
      | some j => if (s.getWin i).idle < (s.getWin j).idle then some i else b
      | none => some i
    else b) none

/-- The window for a frame of partition p to a partner: bound already, newly bound or rebound; none when the frame must wait (R240). -/
def State.bindWin (p : Nat) (d : Coord) (s : State) : Option Nat × State :=
  match (s.boundWins p).find? fun i => (s.getWin i).partner == d with
  | some i => (if (s.getWin i).inflight < 16 then some i else none, s)
  | none =>
    let pick := if (s.boundWins p).length < (s.getPart p).windows then some s.freeWin else s.idleWin p
    match pick with
    | some i =>
      let s1 := s.updWin i fun w => { w with owner := p + 1, partner := d, inflight := 0, idle := s.now }
      (some i, { s1 with links := { s1.links with binds := satAdd 64 s1.links.binds 1 } })
    | none => (none, s)

/-- Send a FALLBACK or SERVE frame in a window: ARG holds the window's index and EPOCH below what the sender put there (R229), and the frame is in flight
(R239). -/
def State.sendInWin (i : Nat) (f : Frame) (s : State) : State :=
  let w := s.getWin i
  let s1 := s.updWin i fun w => { w with inflight := w.inflight + 1, credit := if w.inflight = 0 then s.now else w.credit }
  s1.inject { f with arg := i + 2 ^ 12 * (w.epoch % 256) + 2 ^ 20 * (f.arg / 2 ^ 20) }

/-- Change a partition's serving state. -/
def State.updServe (p : Nat) (f : Serve → Serve) (s : State) : State := s.updPart p fun x => { x with serve := f x.serve }

/-- Send a windowed frame, or let it wait behind those that wait (R233, R240). -/
def State.sendWindowed (p : Nat) (f : Frame) (s : State) : State :=
  if (s.getPart p).serve.waiting.any fun g => g.dst == f.dst then
    s.updServe p fun v => { v with waiting := v.waiting ++ [f] }
  else match s.bindWin p f.dst with
    | (some i, s1) => s1.sendInWin i f
    | (none, s1) => s1.updServe p fun v => { v with waiting := v.waiting ++ [f] }

/-- Send again, in order, the frames of a partition that wait for a window (R240). -/
def State.retryWaiting (p : Nat) (s : State) : State :=
  let ws := (s.getPart p).serve.waiting
  forAll ws (fun f s => s.sendWindowed p f) (s.updServe p fun v => { v with waiting := [] })

/-- Release every window of a partition; the EPOCH stays (log entry 21). -/
def State.releaseWins (p : Nat) (s : State) : State :=
  forAll (s.boundWins p) (fun i s => s.updWin i fun w => { w with owner := 0, inflight := 0 }) s

/-- Gather one credit for the source of a windowed frame that has left the VL3 input (R241). -/
def State.gatherCredit (f : Frame) (s : State) : State :=
  let key := f.arg % 2 ^ 20
  let add : List (Nat × Nat) → List (Nat × Nat) := fun es =>
    if es.any (fun e => e.1 == key && decide (e.2 < 255)) then es.map (fun e => if e.1 == key && decide (e.2 < 255) then (e.1, e.2 + 1) else e)
    else es ++ [(key, 1)]
  let cs := s.links.credits
  let cs1 := if cs.any (fun c => c.source == f.src) then cs.map (fun c => if c.source == f.src then { c with entries := add c.entries } else c)
    else cs ++ [{ source := f.src, first := s.now, entries := [(key, 1)] }]
  { s with links := { s.links with credits := cs1 } }

/-- A frame is discarded on arrival with a count. A FALLBACK or SERVE frame discarded at its destination still gives back its credit (R241). -/
def State.discardArrived (p k : Nat) (f : Frame) (s : State) : State :=
  let s1 := s.portEv p k 1
  if (f.kind = 7 ∨ f.kind = 8) ∧ f.dst = s.here ∧ k ≠ 7 then s1.gatherCredit f else s1

/-- Take a frame of a kind that a partition's unit takes: whether it may be delivered by R230, R231, R256 and R263, with the discard
counted where it may not. -/
def State.arrives (p : Nat) (f : Frame) (s : State) : Bool × State :=
  let s1 := s.takeRx p f
  if !kindOk p f then (false, s1.discardArrived p 7 f)
  else if s.isSelvage p then (false, s1.discardArrived p 8 f)
  else if (s.getPort p).state == .lost then (false, s1.discardArrived p 10 f)
  else (true, s1)

end Sys2Proof.Machine
end

