-- ==== Sys2Proof/Machine/FrondOps.lean ====
section
/-! DEFINITION. What every unit of a frond shares: the frond store and its pages (R40, R43), data tokens (R131, R132), the units and their
wardens (R64, R65), issues and lateness (R130, R133, R134), halts that fall due (R127) and frond faults (R77). -/

namespace Sys2Proof.Machine

/-! ### Stores -/

/-- Key of a frond-store address. -/
def storeKey (f a : Nat) : Nat := 4194304 * f + a
/-- Bytes of a frond store. -/
def State.fsRead (s : State) (f a n : Nat) : List Byte := s.store.readN (storeKey f a) n
/-- Write bytes to a frond store. -/
def State.fsWrite (f a : Nat) (bs : List Byte) (s : State) : State := { s with store := s.store.writeN (storeKey f a) bs }
/-- A word of a frond store (R1). -/
def State.fsWord (s : State) (f a : Nat) : Word := BitVec.ofNat 32 (leNat (s.fsRead f a 4))
/-- Write a word to a frond store. -/
def State.fsPut (f a : Nat) (w : Word) (s : State) : State := s.fsWrite f a (leBytes 4 w.toNat)
/-- Key of a pinnule's local store address. -/
def localKey (f p a : Nat) : Nat := 2048 * (528 * f + p) + a

/-- Clear the store, the local stores and the registers of the four fronds of a group (R44; the registers: log entry 22). -/
def State.clearGroup (g : Nat) (s : State) : State :=
  let fs := (List.range 576).filter fun f => frondGroup f == g
  forAll fs (fun f s =>
    { (s.updFrond f fun _ => {}) with
      store := s.store.zero (storeKey f 0) 4194304, localStore := s.localStore.zero (localKey f 0 0) (2048 * 528) }) s

/-! ### Array operands (R52) -/

/-- Weights of R52: EXPAND 1 exactly with E2M1. -/
def weightsOk (wfmt expand : Nat) : Bool :=
  if wfmt = 8 then expand == 1 else expand == 0 && (wfmt == 0 || (decide (4 ≤ wfmt) && decide (wfmt ≤ 7)))

/-- Activations of R52 beside weights of a format: F19 with F19, an MX format with an MX format. -/
def actsOk (wfmt afmt : Nat) : Bool := if wfmt = 0 then afmt == 0 else decide (4 ≤ afmt) && decide (afmt ≤ 7)

/-! ### Tokens -/

/-- The raise count of a token of a frond goes up by one modulo 2^32 (R131). -/
def State.countToken (f t : Nat) (s : State) : State :=
  s.updFrond f fun x => { x with token := Tab.upd 0 x.token t fun c => (c + 1) % 2 ^ 32 }
/-- A wait for generation g of a token is satisfied (R131). -/
def State.tokenAt (s : State) (f t g : Nat) : Bool :=
  decide ((Tab.get 0 (s.getFrond f).token t + 2 * 2 ^ 32 - g % 2 ^ 32 - 1) % 2 ^ 32 < 2 ^ 31)

/-! ### Units -/

/-- The unit numbers of Frond.stopped. -/
def unitArray : Nat := 0
/-- Vector unit. -/
def unitVector : Nat := 1
/-- Spool engine. -/
def unitSpool : Nat := 2
/-- Pinnule p: workers are 0 to 511, warden g is pinnule 512 + g (R64). -/
def unitPinnule (p : Nat) : Nat := 3 + p
/-- Pinnule index of a warden. -/
def wardenPinnule (w : Nat) : Nat := 512 + w
/-- Gang of a pinnule (R64). -/
def gangOf (p : Nat) : Nat := if p < 512 then p / 32 else p - 512

/-- The warden that drives the array, the vector unit or the spool engine (R65, R117). -/
def FrondRec.warden (r : FrondRec) (unit : Nat) : Nat := bits r.wardens (4 * unit + 3) (4 * unit)

/-- The partition and frond record under which a unit of a frond runs: the frond belongs to a RUNNING pattern that names it, its group's
domain is ON (R337) and no frond fault has stopped the unit (R77). -/
def State.unitRuns (s : State) (f unit : Nat) : Option (Nat × FrondRec) :=
  match s.owner f with
  | none => none
  | some p =>
    let q := s.getPart p
    if q.pat == .running && s.getDom (frondGroup f) == .on && !((s.getFrond f).stopped.contains unit) then
      match q.image.record (s.logical p f) with
      | some r => some (p, r)
      | none => none
    else none

/-- A unit or pinnule under which pattern code runs: no aborted collective makes it discard the rest of the step (R163). -/
def State.codeRuns (s : State) (f unit : Nat) : Option (Nat × FrondRec) :=
  match s.unitRuns f unit with
  | some (p, r) => if (s.getPart p).run.discard then none else some (p, r)
  | none => none

/-- The instruction that a warden stalls on. -/
def State.waitOf (s : State) (f w : Nat) : Option Wait := Tab.get none (s.getFrond f).wait w
/-- A warden stalls on an instruction, or no longer. -/
def State.setWait (f w : Nat) (x : Option Wait) (s : State) : State := s.updFrond f fun y => { y with wait := Tab.set none y.wait w x }

/-- The partition and frond record under which a warden issues: its code runs, and it stalls on no instruction before, since it issues in program
order (R130). -/
def State.issuer (s : State) (f w : Nat) : Option (Nat × FrondRec) :=
  if (s.waitOf f w).isSome then none else s.codeRuns f (unitPinnule (wardenPinnule w))

/-- A shared unit as a warden issues to it: partition, frond record, and whether the warden drives the unit (R65). -/
def State.driven (s : State) (f unit w : Nat) : Option (Nat × FrondRec × Bool) :=
  match s.issuer f w, s.unitRuns f unit with
  | some _, some x => some (x.1, x.2, x.2.warden unit == w)
  | _, _ => none

/-- An access to n bytes lies in pages allocated to the pattern (R43, R118). -/
def FrondRec.pageOk (r : FrondRec) (a n : Nat) : Bool := decide (a + n ≤ 4096 * r.pages)

/-- Program slot that a gang runs (R67). -/
def State.slotOf (s : State) (f g : Nat) : Nat := Tab.get 0 (s.getFrond f).gang g - 1

/-! ### Halts -/

/-- Change a partition's run. -/
def State.updRun (p : Nat) (g : Run → Run) (s : State) : State := s.updPart p fun x => { x with run := g x.run }

/-- A halt of a live pattern falls due with a status; the first one to fall due gives the status (R127, R168; log entry 23). -/
def State.haltDue (p : Nat) (st : Status) (s : State) : State :=
  if (s.getPart p).live ∧ (s.getPart p).run.halt = none then s.updRun p fun r => { r with halt := some st, haltAt := s.stitch } else s

/-- A halt falls due for every live pattern; each gets a HALT entry in the fault log (R430). -/
def State.haltAllDue (st : Status) (unitKind unit : Nat) (s : State) : State :=
  forAll (allParts.filter fun p => (s.getPart p).live)
    (fun p s => (s.log { kind := 4, code := st, part := p, unitKind := unitKind, unit := unit }).haltDue p st) s

/-! ### Frond faults -/

/-- A frond fault (R77, R430): the unit stops, the pattern halts with INTERNAL at the next boundary, PATTERN FROND is set, the HALT entry
names frond, source, slot, pinnule and offset, and the group's class FROND counts one event. -/
def State.frondFault (f unit source slot pinnule offset : Nat) (s : State) : State :=
  let s1 := s.updFrond f fun x => { x with stopped := if x.stopped.contains unit then x.stopped else x.stopped ++ [unit] }
  let p := (s.owner f).getD 255
  let s2 := (s1.log
    { kind := 4, code := .internal, part := p, unitKind := 4, unit := f,
      detail := [⟨0, 2, f⟩, ⟨2, 1, source⟩, ⟨3, 1, slot⟩, ⟨4, 2, pinnule⟩, ⟨6, 2, offset⟩] }).raise .frond
  (s2.haltDue p .internal).faultEvent 2 (frondGroup f) 0 0

/-- Instruction offset at which a pinnule stands: that of the instruction it has issued (R67, R77). -/
def State.pcOf (s : State) (f p : Nat) : Nat := Tab.get 0 (s.getFrond f).pc p
/-- A pinnule takes the instruction at an offset. -/
def State.setPc (f p offset : Nat) (s : State) : State := s.updFrond f fun x => { x with pc := Tab.set 0 x.pc p offset }

/-- A frond fault of a shared unit: 0 array, 1 vector, 2 spool. The pinnule is its warden, the offset that of the instruction which issued the
operation. -/
def State.unitFault (f unit w : Nat) (s : State) : State :=
  s.frondFault f unit unit (s.slotOf f w) (wardenPinnule w) (s.pcOf f (wardenPinnule w))

/-- A frond fault of a warden, for what it issues itself. -/
def State.wardenFault (f w : Nat) (s : State) : State :=
  s.frondFault f (unitPinnule (wardenPinnule w)) 4 (s.slotOf f w) (wardenPinnule w) (s.pcOf f (wardenPinnule w))

/-! ### Issues -/

/-- An instruction that carries an ES may issue: its stitch is reached (R130). -/
def State.esReached (s : State) (p es : Nat) : Bool := decide ((s.getPart p).run.base + es ≤ s.stitch)

/-- Record the lateness of an issue (R133, R134, R138). -/
def State.recordIssue (p es : Nat) (s : State) : State :=
  s.updRun p fun r =>
    let l := s.stitch - (r.base + es)
    { r with slip := min (max r.slip l) (2 ^ 32 - 1), lateIssues := if l = 0 then r.lateIssues else satAdd 64 r.lateIssues 1 }

/-! ### The conditions of the vote (R162, R163) -/

/-- Gangs that a frond record starts (R117). -/
def FrondRec.gangs (r : FrondRec) : List Nat := (List.range 16).filter fun g => nth 0xFF r.entry g != 0xFF

/-- Every warden of a frond has committed. -/
def frondCommitted (r : Run) (f : Nat) (fr : FrondRec) : Bool := fr.gangs.all fun g => r.committed.contains (16 * f + g)

/-- A stream has completed (R72 to R74): a write stream has retired, and every burst of a read stream has landed; after an abort, whose wardens discard
what would feed it, what it has started (log entry 84). -/
def Stream.settled (discard : Bool) (y : Stream) : Bool :=
  if y.write then discard && decide (y.next ≤ y.released) else decide ((if discard then y.next else y.count) ≤ y.raised)

/-- The units of a frond have completed what they were issued. -/
def Frond.settledUnits (discard : Bool) (x : Frond) : Bool := x.arr.queue.isEmpty && x.arr.stalled.isNone && x.streams.all (Stream.settled discard)

/-- A fused instruction has completed; after an abort on this package a transfer with a peer is discarded (R163). -/
def Coll.over (c : Coll) (discard : Bool) : Bool := c.done || c.aborted || (discard && decide (c.what.op ≤ 2))

/-- The conditions of R162 for forming the vote. -/
def State.voteForms (s : State) (p : Nat) : Bool :=
  let q := s.getPart p
  let fs := (s.fronds p).zip (q.image.records.take q.image.fronds)
  fs.all (fun x => frondCommitted q.run x.1 x.2) && fs.all (fun x => (s.getFrond x.1).settledUnits q.run.discard)
    && q.colls.all (Coll.over · q.run.discard)

/-- The first stitch at which all of those conditions hold is the vote's ISSUE (R162, R164). -/
def State.noteVote (p : Nat) (s : State) : State :=
  if (s.getPart p).pat = .running ∧ (s.getPart p).run.issue = none ∧ s.voteForms p then s.updRun p fun r => { r with issue := some s.stitch } else s

/-- Record a STEP.COMMIT of a warden, which counts towards slip (R162). -/
def State.commitBy (p f w es : Nat) (s : State) : State :=
  ((s.recordIssue p es).updRun p fun r => { r with committed := r.committed ++ [16 * f + w] }).noteVote p

/-- An instruction that a warden stalls on issues once its stitch is reached and its tokens are raised (R130). -/
def State.wakeWarden (f w : Nat) (s : State) : State :=
  match s.unitRuns f (unitPinnule (wardenPinnule w)), s.waitOf f w with
  | some (p, _), some (.issue es ts) =>
    if s.esReached p es ∧ ts.all (fun t => s.tokenAt f t.1 t.2) then (s.setWait f w none).recordIssue p es else s
  | some (p, _), some (.commit es) => if s.esReached p es then (s.setWait f w none).commitBy p f w es else s
  | _, _ => s

/-- The wardens of a frond that stall. -/
def State.stalledWardens (s : State) (f : Nat) : List Nat := (s.getFrond f).wait.map (·.1)

/-- Every warden of a frond that stalls on a stitch or a token looks again. -/
def State.wakeFrond (f : Nat) (s : State) : State := forAll (s.stalledWardens f) (State.wakeWarden f) s

/-- Raise a token of a frond once (R131); a warden that waited for it goes on (R130). -/
def State.raiseToken (f t : Nat) (s : State) : State := (s.countToken f t).wakeFrond f

/-- Add to a frond counter (R78): 0 array busy, 1 array stall, 2 SWAP stalls, 3 ALOAD row stalls, 4 to 7 bank conflicts of the array, the spool
engine, the vector unit and the gang ports, 8 and 9 spool reads, 10 and 11 spool writes, 12 regulator hold cycles. -/
def State.frondCount (f k n : Nat) (s : State) : State :=
  s.updFrond f fun x => { x with counts := Tab.upd 0 x.counts k (satAdd 64 · n) }

/-- An access of a unit to the frond store: the cycles it loses to bank conflicts count (R41, R78); how many is a FREE VALUE, log entry 57. The array
comes first at every bank and loses none. -/
def State.contend (f k : Nat) (s : State) : State := (s.frondCount f k (Config.conflictCycles s.free)).nextFree

end Sys2Proof.Machine
end

