-- ==== Sys2Proof/Machine/Mailbox.lean ====
section
/-! DEFINITION. The command protocol: host receive rings (R387, R388), replies and long records (R367, R368, R371, R391), the opcode
table (R379), the order of the checks (R369), and running the command that a channel holds. -/

namespace Sys2Proof.Machine

/-! ### Host receive rings -/

/-- Write a record into the buffers from index i on; the last buffer gets LAST, the first FIRST (R387). Buffers first, then status bytes. -/
def ringWrites (c : Channel) (size : Nat) (bytes : List Byte) : List Output :=
  let b := 64 * c.bufUnits
  let n := cdiv bytes.length b
  (List.range n).map (fun k => Output.hostWrite (Tab.get 0 c.bufAddr ((c.rxHead + k) % size)) ((bytes.drop (b * k)).take b))
    ++ (List.range n).map (fun k => Output.hostWrite (c.rxBase + 16 * ((c.rxHead + k) % size) + 8)
        (record 8 [⟨0, 2, ((bytes.drop (b * k)).take b).length⟩, ⟨2, 1, 1 + 2 * b2n (k == 0) + 4 * b2n (k + 1 == n)⟩, ⟨4, 4, c.rseq⟩]))

/-- Free buffers of a ring: from RX_HEAD up to RX_TAIL, modulo the ring size (R387). -/
def Channel.freeBufs (c : Channel) : Nat := (c.rxTail % 2 ^ c.sizeLog2 + 2 ^ c.sizeLog2 - c.rxHead) % 2 ^ c.sizeLog2

/-- Give a list of outputs in order. -/
def State.emits (os : List Output) (s : State) : State := { s with out := s.out ++ os }

/-- Write a record to the ring of a channel, or drop it whole (R387, R388). Of a record that runs out of buffers the filled ones stay
unreported. -/
def State.ringRecord (ch rtype : Nat) (src : Coord) (srcPart : Nat) (payload : List Byte) (s : State) : State :=
  let c := s.getChan ch
  let bytes := record 16 [⟨0, 1, rtype⟩, ⟨4, 4, payload.length⟩, ⟨8, 1, src.x⟩, ⟨9, 1, src.y⟩, ⟨10, 1, src.z⟩, ⟨11, 1, srcPart⟩] ++ payload
  let size := 2 ^ c.sizeLog2
  let n := cdiv bytes.length (64 * c.bufUnits)
  if c.rxOn ∧ n ≤ c.freeBufs then
    ((s.emits (ringWrites c size bytes)).updChan ch fun c =>
      { c with rxHead := (c.rxHead + n) % size, rseq := (c.rseq + 1) % 2 ^ 32 }).ringHost ch 2
  else
    let s1 := if c.rxOn then s.emits ((ringWrites c size bytes).take c.freeBufs) else s
    ((s1.updChan ch fun c => { c with rxDrop := satAdd 32 c.rxDrop 1 }).ringHost ch 3).raise .rxDrop

/-! ### Opcodes (R379) -/

/-- A row of the opcode table: partition scope, the channels permitted (0, 1, 2 and 4 + p), served in Safe Listen, largest parameter
layout in bytes. -/
structure OpInfo where
  op : Nat
  part : Bool
  bmc : Bool
  fm : Bool
  twin : Bool
  host : Bool
  sl : Bool
  maxLen : Nat
deriving DecidableEq, Repr

/-- The opcode table (R379). -/
def opTable : List OpInfo := [
  ⟨0x0101, true, true, true, false, false, false, 24⟩, ⟨0x0102, true, true, true, false, false, false, 0⟩,
  ⟨0x0103, true, true, true, false, true, true, 0⟩, ⟨0x0201, true, false, true, false, true, false, 16⟩,
  ⟨0x0202, true, true, true, false, true, false, 16⟩, ⟨0x0203, true, false, true, false, true, false, 8⟩,
  ⟨0x0204, true, true, true, false, true, false, 0⟩, ⟨0x0205, true, true, true, true, true, true, 0⟩,
  ⟨0x0301, true, true, true, false, false, false, 16⟩, ⟨0x0302, true, true, true, false, false, false, 16⟩,
  ⟨0x0303, false, true, true, true, true, true, 0⟩, ⟨0x0304, false, true, true, true, true, true, 0⟩,
  ⟨0x0401, false, true, true, false, false, false, 52⟩, ⟨0x0402, false, true, true, false, false, false, 32800⟩,
  ⟨0x0403, false, true, true, true, true, true, 0⟩, ⟨0x0404, false, true, true, false, false, false, 8⟩,
  ⟨0x0405, false, true, true, false, false, false, 136⟩, ⟨0x0501, true, true, true, true, true, true, 8⟩,
  ⟨0x0502, false, true, true, false, false, false, 8⟩, ⟨0x0503, false, true, true, false, false, true, 16⟩,
  ⟨0x0601, true, false, true, false, true, false, 40⟩, ⟨0x0602, true, false, true, false, true, false, 8⟩,
  ⟨0x0603, true, true, true, false, false, false, 8⟩, ⟨0x0604, true, false, true, false, true, false, 24⟩,
  ⟨0x0701, false, true, true, false, true, true, 0⟩, ⟨0x0702, false, true, true, false, false, false, 4⟩,
  ⟨0x0801, true, true, true, false, false, false, 4⟩, ⟨0x0802, true, true, true, false, false, false, 16⟩,
  ⟨0x0803, true, true, true, false, false, false, 16⟩, ⟨0x0804, true, true, true, true, true, true, 0⟩,
  ⟨0x0901, true, true, true, false, false, false, 16⟩, ⟨0x0902, true, false, true, false, true, false, 32⟩,
  ⟨0x0903, false, true, true, false, false, false, 16⟩, ⟨0x0A01, false, true, true, true, true, true, 0⟩]

/-- The row of an opcode. -/
def opInfo (op : Nat) : Option OpInfo := opTable.find? (·.op == op)

/-- FLAGS.LONG (R364). -/
def Held.long (h : Held) : Bool := bit h.flags 0
/-- FLAGS.HOST. -/
def Held.host (h : Held) : Bool := bit h.flags 1
/-- FLAGS.FWD. -/
def Held.fwd (h : Held) : Bool := bit h.flags 2
/-- FLAGS.TWIN. -/
def Held.twinFwd (h : Held) : Bool := bit h.flags 3

/-- The header and parameters of a held command from the latched packet: 16 header bytes and what R365 gives as parameters. -/
def parseHeader (hdr : List Byte) (params : HostRead) (via : Via) : Held :=
  let f := fld hdr 3 1
  { opcode := fld hdr 0 2, part := bits (fld hdr 2 1) 5 0, flags := bits f 3 0, tag := fld hdr 4 2, length := fld hdr 6 2, addr := fld hdr 8 8,
    reserved := bits (fld hdr 2 1) 7 6 != 0 || bits f 7 4 != 0, params := params, via := via }

/-- The channel, its flags and PART are permitted (R362, R365, R366): check 3. -/
def channelOk (i : OpInfo) (ch : Nat) (h : Held) : Bool :=
  let mayHost := (ch == 1 && h.via == .mailbox) || decide (4 ≤ ch)
  (if ch = 0 then i.bmc else if ch = 1 then i.fm else if ch = 2 then i.twin else i.host)
    && (if 4 ≤ ch then h.part + 4 == ch else i.part || h.part == 0)
    && (!(h.fwd || h.twinFwd) || ch == 1) && (!h.host || mayHost)

/-- ADDR as R364 allows it: 64-byte aligned with HOST, [63:24] zero with FWD, otherwise zero. -/
def addrOk (h : Held) : Bool :=
  if h.host then h.addr % 64 == 0 else if h.fwd then decide (h.addr < 2 ^ 24) else h.addr == 0

/-- Reserved bits and LENGTH (R365, R366): check 4. -/
def headerOk (i : OpInfo) (h : Held) : Bool :=
  !h.reserved && addrOk h && decide (h.length ≤ i.maxLen) && (h.long || decide (h.length ≤ 48))

/-! ### Replies -/

/-- A reply frame's payload: reply header, reply words, and at most 14,752 bytes of long record (R391). -/
def replyPayload (h : Held) (st : Status) (final : Bool) (words : List Nat) (rcd : List Byte) : List Byte :=
  record 16 [⟨0, 2, h.opcode⟩, ⟨2, 2, st.code⟩, ⟨4, 2, h.tag⟩, ⟨6, 1, b2n final⟩, ⟨8, 4, rcd.length⟩, ⟨12, 4, min rcd.length 14752⟩]
    ++ (List.range 16).flatMap (fun i => leBytes 4 (nth 0 words i)) ++ rcd.take 14752

/-- Send a status of a command that came in a frame back in a frame of the same kind (R391). -/
def State.replyFrame (h : Held) (st : Status) (final : Bool) (words : List Nat) (rcd : List Byte) (s : State) : State :=
  let p := replyPayload h st final words rcd
  match h.via with
  | .mailbox => s
  | .frame src => s.inject { dst := src, src := s.here, kind := 3, arg := 1, vl := 2, payload := p }
  | .twin => s.sendTwin { dst := s.here, src := s.here, kind := 0xA, arg := 2, vl := 2, payload := p }

/-- The reply words with those of a long record: MB_REPLY14 its length, MB_REPLY15 the bytes written (R368). -/
def replyWords (words : List Nat) (rcd : List Byte) : List Nat :=
  if rcd.isEmpty then (List.range 16).map (nth 0 words)
  else (List.range 14).map (nth 0 words) ++ [rcd.length, rcd.length]

/-- Put a status into a channel's mailbox registers (R367). -/
def Channel.setAck (tag : Nat) (st : Status) (final : Bool) (words : List Nat) (c : Channel) : Channel :=
  { c with ackValid := true, final := final, code := st.code, tag := tag, reply := (List.range 16).map fun i => BitVec.ofNat 32 (nth 0 words i) }

/-- Write a long record where it goes (R368): host memory at ADDR with HOST, otherwise the channel's bulk buffer. -/
def State.writeRecord (ch : Nat) (h : Held) (rcd : List Byte) (s : State) : State :=
  if rcd.isEmpty then s
  else if h.host then s.emit (.hostWrite h.addr rcd)
  else { s with bulk := s.bulk.writeN (65536 * ch) rcd }

/-- Give a held command its final status, reply words and long record, and free the channel (R371). INTERNAL raises FIRMWARE ERROR. -/
def State.finish (ch : Nat) (st : Status) (words : List Nat) (rcd : List Byte) (s : State) : State :=
  match (s.getChan ch).held with
  | none => s
  | some h =>
    let s1 := if st = .internal then s.raise .fwError else s
    let ws := replyWords words rcd
    match h.via with
    | .mailbox =>
      ((s1.writeRecord ch h rcd).updChan ch fun c =>
        { c.setAck h.tag st true ws with busy := false, held := none }).ringHost ch (if h.acked then 1 else 0)
    | _ => (s1.replyFrame h st true ws rcd).updChan ch fun c => { c with busy := false, held := none }

/-- Acknowledge a held command ACCEPTED: it stays in its background phase (R371). -/
def State.accept (ch : Nat) (s : State) : State :=
  match (s.getChan ch).held with
  | none => s
  | some h =>
    let s1 := s.updChan ch fun c => { c with held := some { h with stepped := true, acked := true } }
    match h.via with
    | .mailbox => (s1.updChan ch (Channel.setAck h.tag .accepted false [])).ringHost ch 0
    | _ => s1.replyFrame h .accepted false [] []

/-- Final status with reply words only. -/
def State.answer (ch : Nat) (st : Status) (words : List Nat) (s : State) : State := s.finish ch st words []

/-- The first step has run, and the acknowledgement is still to come (R199, R371). -/
def State.markStepped (ch : Nat) (s : State) : State :=
  s.updChan ch fun c => { c with held := c.held.map fun h => { h with stepped := true } }

/-- CONFLICT with the winner's TAG and channel in MB_REPLY0 and its OPCODE in MB_REPLY1 (R377). -/
def State.conflict (ch : Nat) (w : Winner) (s : State) : State := s.answer ch .conflict [w.tag + 2 ^ 16 * w.ch, w.opcode]

/-! ### Running the command a channel holds -/

/-- The channel of a PATTERN_LOAD of p that is queued or running (R375). -/
def State.loadQueued (s : State) (p : Nat) : Bool :=
  (s.admissions.any fun a => a.load && a.part == p) || (match s.loading with | some l => l.adm.part == p | none => false)

/-- A self-test blocks every command but SELFTEST_REPORT, POWER_REPORT and FW_INFO (R375, R397). -/
def State.testBlocks (s : State) (op : Nat) : Bool := s.test.active && !(op == 0x0701 || op == 0x0303 || op == 0x0A01)

/-- The background phases that block a command (R375, R397): check 6. -/
def State.blocked (s : State) (op p : Nat) : Bool :=
  let i := (s.getPart p).life == .filling
  let partNamed := match opInfo op with | some i => i.part | none => false
  (partNamed && i && op != 0x0501 && op != 0x0101)
    || ((op == 0x0203 || op == 0x0204 || op == 0x0102 || op == 0x0801 || op == 0x0902) && s.loadQueued p)
    || ((op == 0x0902 || op == 0x0102) && (s.getPart p).fill.isSome)
    || ((op == 0x0401 || op == 0x0402 || op == 0x0404 || op == 0x0405) && s.links.planCh.isSome)
    || (op == 0x0502 && s.cmap.isSome)
    || s.testBlocks op

/-- What the checks 2 to 6 of R369 say of a held command; none when it may go on to its own checks. PART_CREATE (check 5 reversed) makes
its own existence check, and STATS_READ, whose BLOCK decides, makes check 5 itself. -/
inductive Verdict where
  | pass
  | stop (st : Status)
  | gone (w : Winner)
deriving DecidableEq, Repr

/-- Check 5 of R369: existence of the partition named (R377, R378). -/
def State.existsCheck (s : State) (p : Nat) : Verdict :=
  match (s.getPart p).life with
  | .never => .stop .notPermitted
  | .destroyed => .gone (s.getPart p).destroyedBy
  | _ => .pass

/-- Acceptance order (R373): by AON tick, and by ascending channel within one tick. -/
def before (t c t' c' : Nat) : Bool := decide (t < t') || (t == t' && decide (c < c'))

/-- The parameter block of a held command; none when its host read completed with an error. -/
def Held.block (h : Held) : Option (List Byte) := match h.params with | .ok b => some (b.take h.length) | .pcieError => none

/-- A channel 1 command that is not run here but sent on (R390). -/
def Held.forwards (h : Held) (ch : Nat) : Bool := (h.fwd || h.twinFwd) && ch == 1

/-- The BLOCK of a STATS_READ names the partition in PART (R382 *STATS_READ record lengths*). -/
def statsNamesPart (block : Nat) : Bool := (decide (1 ≤ block) && decide (block ≤ 4)) || block == 8 || block == 9

/-- Check 5 is made on a command's PART: a partition-scope command but PART_CREATE, and STATS_READ by its BLOCK outside Safe Listen. -/
def State.namesPart (s : State) (i : OpInfo) (h : Held) : Bool :=
  if i.op = 0x0501 then s.aon.phase != .safeListen && statsNamesPart (fld ((h.block).getD []) 0 1) else i.part && i.op != 0x0101

/-- The checks 2 to 6 of R369, in order. Of the background phases, only a self-test blocks a command that is sent on (log entry 72). -/
def State.checks (s : State) (i : OpInfo) (ch : Nat) (h : Held) : Verdict :=
  if s.aon.phase = .safeListen ∧ !(i.sl && (ch == 0 || decide (4 ≤ ch) || ch == 1)) then .stop .safeListen
  else if !channelOk i ch h then .stop .notPermitted
  else if !headerOk i h then .stop .badParam
  else if h.forwards ch then (if s.testBlocks i.op then .stop .busy else .pass)
  else
    let e := if s.namesPart i h then s.existsCheck h.part else .pass
    if e ≠ .pass then e
    else if s.blocked i.op h.part then .stop .busy
    else .pass

/-- The fields of a FAULT_POLICY are in their ranges (R383). -/
def policyOk (b : List Byte) : Bool :=
  decide (1 ≤ fld b 0 1) && decide (fld b 0 1 ≤ 13) && zeros b 1 4 && decide (fld b 4 4 ≤ 3600) && decide (fld b 8 4 ≤ 65535) && zeros b 0xC 0x10

/-- The FAULT_POLICY accepted on a channel is no longer ahead of its row. -/
def State.dropPolicy (ch : Nat) (s : State) : State :=
  { s with faults := { s.faults with policyPend := s.faults.policyPend.filter fun e => e.ch != ch } }

/-- A FAULT_POLICY that passes its checks is in force from the AON tick of its acceptance (R403), in acceptance order (R373). -/
def State.notePolicy (ch : Nat) (h : Held) (s : State) : State :=
  match opInfo 0x0903, h.block with
  | some i, some b =>
    if h.opcode = 0x0903 ∧ h.forwards ch = false ∧ s.checks i ch h = .pass ∧ policyOk b = true then
      let x : PolicyPend := ⟨h.tick, ch, fld b 0 1, fld b 4 4, fld b 8 4⟩
      let l := s.faults.policyPend
      let l1 := l.filter (fun e => !(before x.tick x.ch e.tick e.ch)) ++ x :: l.filter (fun e => before x.tick x.ch e.tick e.ch)
      { s with faults := { s.faults with policyPend := l1 } }
    else s
  | _, _ => s

/-- Forward a command of channel 1 to another package or to the twin peer (R390). -/
def State.forwardCommand (ch : Nat) (h : Held) (b : List Byte) (s : State) : State :=
  if (h.long && h.host) || decide (14816 < b.length) then s.answer ch .badParam []
  else if s.links.plan.isNone then s.answer ch .linkAbsent []
  else
    let hdr := record 16 [⟨0, 2, h.opcode⟩, ⟨2, 1, h.part⟩, ⟨3, 1, b2n h.long + 2 * b2n h.host⟩, ⟨4, 2, h.tag⟩, ⟨6, 2, h.length⟩]
    if h.twinFwd then
      (s.sendTwin { dst := s.here, src := s.here, kind := 0xA, arg := 1, vl := 2, payload := hdr ++ b }).answer ch .ok []
    else
      (s.inject { dst := ⟨bits h.addr 7 0, bits h.addr 15 8, bits h.addr 23 16⟩, src := s.here, kind := 3, vl := 2, payload := hdr ++ b }).answer
        ch .ok []

/-- It is the turn of channel ch, which holds a command accepted in tick t: no command accepted before it waits for its first step (R373). -/
def State.turnOf (s : State) (ch t : Nat) : Bool :=
  (List.range 72).all fun c =>
    match (s.getChan c).held with
    | some g => g.stepped || !(before g.tick c t ch)
    | none => true

/-- The command that channel ch holds is this opcode, has not taken its first step, and its turn has come (R373). -/
def State.waiting (s : State) (op ch : Nat) : Option Held :=
  match (s.getChan ch).held with
  | some h => if h.opcode = op ∧ h.stepped = false ∧ s.turnOf ch h.tick then some h else none
  | none => none

/-- The first step of the held command of a channel (R373): forwarding (R390), the checks of R369, then the command's own part, which
gets the header and the parameter block. A command that is not held there does nothing (log entry 3). -/
def State.runCommand (op ch : Nat) (own : Held → List Byte → State → State) (s : State) : State :=
  match s.waiting op ch, opInfo op with
  | some h, some i =>
    match s.checks i ch h with
    | .stop st => s.answer ch st []
    | .gone w => s.conflict ch w
    | .pass =>
      if h.forwards ch then s.forwardCommand ch h ((h.block).getD [])
      else match h.block with
        | some b => own h b s
        | none => s.answer ch .internal []
  | _, _ => s

end Sys2Proof.Machine
end

