-- ==== Sys2Proof/Machine/Domains.lean ====
section
/-! DEFINITION. The 184 switched domains: the state R338 and the domain-state table give each, what a domain loses when it is switched off,
and waking (R27, R44, R336 to R340, R352). -/

namespace Sys2Proof.Machine

/-! ### The context table's count (R311) -/

/-- O_p: entries of a partition that are not FREE. -/
def State.ctxOpenCount (s : State) (p : Nat) : Nat := (s.ctx.filter fun e => e.2.state != .free && e.2.part == p).length
/-- R_p: the CTX_ENTRIES reservation of the loaded pattern. -/
def State.ctxReserved (s : State) (p : Nat) : Nat := if (s.getPart p).holds then (s.getPart p).image.amount 0x08 0 else 0
/-- H_p: entries a partition holds. -/
def State.ctxHeld (s : State) (p : Nat) : Nat := max (s.ctxReserved p) (s.ctxOpenCount p)
/-- F: the free count of the table. -/
def State.ctxFree (s : State) : Nat := 1048576 - (allParts.map s.ctxHeld).sum

/-! ### Goals -/

/-- Frond grid of a die, 12 x 12 until a capability block says otherwise (R27). -/
def State.grid (s : State) (d : Nat) : Nat × Nat :=
  match (nth {} s.dies.die (ringOf d)).cap with
  | some c => (fld c 8 1, fld c 9 1)
  | none => (12, 12)

/-- A frond group that the fitted dies do not have (R27). -/
def State.groupAbsent (s : State) (g : Nat) : Bool :=
  decide ((s.grid (g / 36)).1 ≤ 2 * (g % 36 / 6)) || decide ((s.grid (g / 36)).2 ≤ 2 * (g % 6))

/-- A fabric port of the profile has a lane of link group g (R222, R338). -/
def State.linkGroupUsed (s : State) (g : Nat) : Bool :=
  if g = 6 then (match s.links.plan with | some p => p.peer != 0 | none => false)
  else s.profilePorts.any fun d => decide (d.first < 4 * g + 4) && decide (4 * g < d.first + d.lanes)

/-- Frond groups that the image of a load in progress takes (R117, R144). -/
def State.loadGroups (s : State) : List Nat :=
  match s.loading with
  | some l => ((s.fronds l.adm.part).take l.fronds).map frondGroup
  | none => []

/-- Frond groups that carry a logical frond of a loaded pattern, or of one that is being loaded (R117, R338). -/
def State.usedGroups (s : State) : List Nat :=
  s.loadGroups ++ allParts.flatMap fun p =>
    if (s.getPart p).holds then ((s.fronds p).take (s.getPart p).image.fronds).map frondGroup else []

/-- Package states of the domain-state table. -/
inductive PowerState where
  | running | parked | safeListen
deriving DecidableEq, Repr

/-- The state a domain is to be in, given the groups used and the state it is in now (R338 and the domain-state table). -/
def State.domGoal (s : State) (ps : PowerState) (used : List Nat) (d : Nat) : Dom :=
  let onNow := s.getDom d == .on || s.getDom d == .wakingRetain || s.getDom d == .retain
  let byR338 : Bool :=
    if d < 144 then used.contains d && !(s.faults.retired.getLsbD d)
    else if d < 164 then true
    else if d < 171 then s.linkGroupUsed (d - 164)
    else if d = 173 then !s.ctxWaits.isEmpty || s.ctx.any (fun e => e.2.state != .free) || allParts.any fun p => s.ctxReserved p != 0
    else true
  match ps with
  | .running => if byR338 then .on else .off
  | .safeListen => if d = 172 then .on else .off
  | .parked =>
    if d < 144 then (if onNow then .retain else .off)
    else if d < 164 then .retain
    else if d < 171 then (if byR338 then .on else .off)
    else if d = 171 ∨ d = 179 ∨ d = 180 then .off
    else if d = 173 ∨ d = 174 ∨ d = 175 ∨ d = 176 then .retain
    else .on

/-- What a domain loses when it is switched off: the stores of its frond group, or the context table (R10, R44). -/
def State.domLoses (d : Nat) (s : State) : State :=
  if d < 144 then s.clearGroup d else if d = 173 then { s with ctx := [] } else s

/-- The context array holds entries and does not answer (R337); while it is OFF or wakes from OFF, every entry is FREE (R331). -/
def State.tableWaits (s : State) : Bool := s.getDom 173 == .retain || s.getDom 173 == .wakingRetain

/-- Switch one domain towards a goal (R337): OFF and RETAIN pass through WAKING to ON. -/
def State.switchDom (d : Nat) (goal : Dom) (s : State) : State :=
  match goal, s.getDom d with
  | .on, .off => s.setDom d .wakingOff
  | .on, .retain => s.setDom d .wakingRetain
  | .on, _ => s
  | .retain, _ => s.setDom d .retain
  | _, .off => s
  | _, _ => (s.domLoses d).setDom d .off

/-- The package's power state. -/
def State.powerState (s : State) : PowerState :=
  if s.aon.phase = .safeListen then .safeListen else if s.aon.park = .parked then .parked else .running

/-- Switch every domain to the state its table gives. -/
def State.switchDomains (s : State) : State :=
  let used := s.usedGroups
  let ps := s.powerState
  forAll (List.range 184) (fun d s => s.switchDom d (s.domGoal ps used d)) s

/-- All domains that R338 wants ON are ON at once, as self-test leaves them (R396). -/
def State.domsAfterTest (s : State) : State :=
  let used := s.usedGroups
  forAll (List.range 184) (fun d s => s.setDom d (if s.domGoal .running used d = .on then .on else .off)) s

/-- A waking domain is ON (R337). What it had lost reads as zeros already. -/
def State.wakeDone (d : Nat) (s : State) : State :=
  match s.getDom d with
  | .wakingOff | .wakingRetain => s.setDom d .on
  | _ => s

/-- Byte d of DOMAIN_QUERY (R352). -/
def State.domCode (s : State) (d : Nat) : Nat :=
  if d < 144 ∧ s.groupAbsent d then 5
  else if d < 144 ∧ s.faults.retired.getLsbD d then 4
  else match s.getDom d with
    | .off => 0 | .wakingOff | .wakingRetain => 1 | .on => 2 | .retain => 3

/-! ### The parked state (R340) -/

/-- A command that leaves the parked state is accepted: every domain goes towards its R338 state. -/
def State.startWake (s : State) : State :=
  if s.aon.park = .parked then State.switchDomains { s with aon := { s.aon with park := .waking } } else s

/-- Give a command that leaves the parked state its final status: at once, or ACCEPTED now and final when every domain is back. -/
def State.answerAfterWake (ch : Nat) (st : Status) (s : State) : State :=
  if s.aon.park = .no then s.answer ch st []
  else { (s.startWake.accept ch) with waking := s.waking ++ [(ch, st)] }

/-- Every waking domain reaches ON and the package is no longer parked. -/
def State.domsBack (s : State) : State :=
  forAll (List.range 184) State.wakeDone { s with aon := { s.aon with park := .no } }

/-- PARKED_WAKE_DONE (R340): every domain is in its R338 state; the waking commands complete. -/
def State.parkedWakeDone (s : State) : State :=
  if s.aon.park = .waking then
    let s1 := s.domsBack
    forAll s.waking (fun w s => s.answer w.1 w.2 []) { s1 with waking := [] }
  else s

/-- PARKED_ENTRY (R340): a shed has taken effect and no pattern is ARMED or RUNNING. -/
def State.parkedEntry (s : State) : State :=
  if s.aon.phase = .up ∧ s.aon.parkDue ∧ s.aon.park = .no ∧ !(allParts.any fun p => (s.getPart p).live) then
    State.switchDomains { s with aon := { s.aon with park := .parked, parkDue := false } }
  else s

/-- PARKED_ENTRY. -/
def execParkedEntry (s : State) : Host.Outcome State Fault Refusal := .next s.parkedEntry

end Sys2Proof.Machine
end

