-- ==== Sys2Proof/Machine/Registers.lean ====
section
/-! DEFINITION. The management space (R4 to R7, R361): reading any register, and the register writes and reads that are commands
(R370 to R372, R384 to R389). -/

namespace Sys2Proof.Machine

/-- Channel of a mailbox block or bulk buffer that a path reaches (R361). -/
def pathChannel (p : Path) (c : Nat) : Bool :=
  match p with
  | .i3c => c == 0
  | .bar0 => c == 1 || (decide (4 ≤ c) && decide (c ≤ 67))
  | .bar2 | .config => false

/-- The channel has a receive ring (R387). -/
def ringChannel (c : Nat) : Bool := c == 1 || (decide (4 ≤ c) && decide (c ≤ 67))

/-- The management space is visible: boot is done and the package runs, is in self-test, or listens (R32, R397). -/
def State.visible (s : State) : Bool := s.aon.phase == .up || s.aon.phase == .safeListen || (s.aon.phase == .selfTest && s.test.phase != 1)

/-- The host port has its power and is out of reset (R389, R401). -/
def State.hostUp (s : State) : Bool := s.hostPower && s.aon.perstN

/-- AON tick from which the configuration space is ready: at most 120 ms after the later of the two releases (R397; log entry 70). -/
def State.readyAt (s : State) : Nat := s.aon.hostRelease + min Config.hostReady (ms 120)

/-- Neither package reset nor a low PWR_OK holds the package (R394). -/
def State.outOfReset (s : State) : Bool := s.aon.pkgResetN && s.aon.pwrOk

/-- The configuration space answers (R397, R420). -/
def State.configReady (s : State) : Bool := s.hostUp && s.outOfReset && decide (s.readyAt ≤ s.now)

/-- What a configuration request comes back with (R397): nothing that the spec states before 100 ms, then Request Retry Status until the space is
ready. -/
inductive ConfigStatus where
  | unstated
  | retry
  | done
deriving DecidableEq, Repr

/-- How a configuration request that arrives now completes (R397). -/
def State.configStatus (s : State) : ConfigStatus :=
  if s.configReady then .done
  else if s.hostUp && s.outOfReset && decide (s.aon.hostRelease + ms 100 ≤ s.now) then .retry
  else .unstated

/-- A path can reach the package: memory accesses need a host port in D0, configuration requests a ready one (R389, R397, R401, R420). -/
def State.pathUp (s : State) (p : Path) : Bool :=
  match p with
  | .i3c => true
  | .bar0 => s.hostUp && !s.pcie.d3hot
  | .bar2 => s.configReady && !s.pcie.d3hot
  | .config => s.configReady

/-- An access that R4 allows. -/
def accAligned (a : RegAccess) : Bool := a.width == 4 && a.off % 4 == 0 && decide (a.off < 2 ^ 24)

/-- The mailbox block a register lies in, with the offset in it, when the path reaches it (R361). -/
def accBlock (a : RegAccess) : Option (Nat × Nat) :=
  if 0x100000 ≤ a.off ∧ a.off < 0x100000 + 0x200 * 72 then
    let c := (a.off - 0x100000) / 0x200
    if pathChannel a.path c then some (c, (a.off - 0x100000) % 0x200) else none
  else none

/-- The bulk-buffer byte a register lies at, when the path reaches it. -/
def accBulk (a : RegAccess) : Option (Nat × Nat) :=
  if 0x800000 ≤ a.off ∧ a.off < 0x800000 + 0x10000 * 72 then
    let c := (a.off - 0x800000) / 0x10000
    if pathChannel a.path c then some (c, a.off - 0x800000) else none
  else none

/-- The cause-group register: group, and 0 STATUS, 1 MASK, 2 RAW (R386). -/
def accGroup (a : RegAccess) : Option (Nat × Nat) :=
  if 0x100 ≤ a.off ∧ a.off < 0x220 then
    let n := (a.off - 0x100) / 16
    if (n < 11 ∨ n = 16 ∨ n = 17) ∧ (a.off % 16) / 4 < 3 then some (n, (a.off % 16) / 4) else none
  else none

/-- A mailbox-block register as it reads. -/
def Channel.reg (ch : Nat) (c : Channel) (o : Nat) : Word :=
  let i := o / 4
  let n : Nat → Word := BitVec.ofNat 32
  if o < 0x40 then nth 0 c.data i
  else if o = 0x40 then n (4 * b2n c.overrun + 2 * b2n c.busy)
  else if o = 0x44 then n (2 ^ 31 * b2n c.ackValid + 2 ^ 16 * b2n c.final + c.code)
  else if o = 0x48 then n c.tag
  else if o = 0x80 then c.ring
  else if o = 0x84 then c.db
  else if o = 0x88 then c.dbMask
  else if o = 0x90 then c.ringMask
  else if 0x100 ≤ o ∧ o < 0x140 then nth 0 c.reply (i - 64)
  else if !ringChannel ch then 0
  else if o = 0x140 then n (c.rxBase % 2 ^ 32)
  else if o = 0x144 then n (c.rxBase / 2 ^ 32)
  else if o = 0x148 then n (2 ^ 16 * c.bufUnits + 2 ^ 8 * c.sizeLog2 + b2n c.rxOn)
  else if o = 0x14C then n c.rxTail
  else if o = 0x150 then n c.rxHead
  else if o = 0x154 then n c.rxDrop
  else if o = 0x158 then (if 4 ≤ ch then n c.subHead else 0)
  else 0

/-- A register of BAR2: vector 0's entry of the MSI-X table, and its pending bit in the second half (R384, R420; log entry 70). -/
def Pcie.bar2Reg (c : Pcie) (o : Nat) : Word :=
  if o = 0 then BitVec.ofNat 32 (c.msgAddr % 2 ^ 32)
  else if o = 4 then BitVec.ofNat 32 (c.msgAddr / 2 ^ 32)
  else if o = 8 then c.msgData
  else if o = 12 then BitVec.ofNat 32 (b2n c.vecMask)
  else if o = 0x8000 then BitVec.ofNat 32 (b2n c.pend)
  else 0

/-- A register of the configuration space: the identity and class of the function, its base addresses, its power state and its MSI-X capability
(R420; log entry 70). -/
def Pcie.configReg (c : Pcie) (o : Nat) : Word :=
  if o = 0 then 0x12480C7A#32
  else if o = 8 then 0x12000000#32 ||| Config.stepping.setWidth 32
  else if o = 0x10 then BitVec.ofNat 32 (c.bar0 % 2 ^ 32 + 4)
  else if o = 0x14 then BitVec.ofNat 32 (c.bar0 / 2 ^ 32)
  else if o = 0x18 then BitVec.ofNat 32 (c.bar2 % 2 ^ 32 + 4)
  else if o = 0x1C then BitVec.ofNat 32 (c.bar2 / 2 ^ 32)
  else if o = 0x44 then BitVec.ofNat 32 (3 * b2n c.d3hot)
  else if o = 0x50 then BitVec.ofNat 32 (2 ^ 31 * b2n c.msixOn + 2 ^ 30 * b2n c.funcMask + 0x11)
  else if o = 0x54 then 2#32
  else if o = 0x58 then 0x8002#32
  else 0

/-- A write to BAR2 (R384). -/
def Pcie.bar2Write (c : Pcie) (o : Nat) (v : Word) : Pcie :=
  if o = 0 then { c with msgAddr := c.msgAddr / 2 ^ 32 * 2 ^ 32 + v.toNat / 4 * 4 }
  else if o = 4 then { c with msgAddr := c.msgAddr % 2 ^ 32 + 2 ^ 32 * v.toNat }
  else if o = 8 then { c with msgData := v }
  else if o = 12 then { c with vecMask := v.getLsbD 0 }
  else c

/-- A write to the configuration space (R420): BAR0 is 16 MiB, BAR2 64 KiB; D1 and D2 are not implemented. -/
def Pcie.configWrite (c : Pcie) (o : Nat) (v : Word) : Pcie :=
  if o = 0x10 then { c with bar0 := c.bar0 / 2 ^ 32 * 2 ^ 32 + v.toNat / 2 ^ 24 * 2 ^ 24 }
  else if o = 0x14 then { c with bar0 := c.bar0 % 2 ^ 32 + 2 ^ 32 * v.toNat }
  else if o = 0x18 then { c with bar2 := c.bar2 / 2 ^ 32 * 2 ^ 32 + v.toNat / 2 ^ 16 * 2 ^ 16 }
  else if o = 0x1C then { c with bar2 := c.bar2 % 2 ^ 32 + 2 ^ 32 * v.toNat }
  else if o = 0x44 then { c with d3hot := if bits v.toNat 1 0 = 3 then true else if bits v.toNat 1 0 = 0 then false else c.d3hot }
  else if o = 0x50 then { c with msixOn := v.getLsbD 31, funcMask := v.getLsbD 30 }
  else c

/-- Whether a path ends at the PCIe function beside the management space. -/
def pathBeside (p : Path) : Bool := p == .bar2 || p == .config

/-- An aligned access to the PCIe function beside the management space that reaches it. -/
def State.reachesFunction (s : State) (a : RegAccess) : Bool :=
  pathBeside a.path && a.width == 4 && a.off % 4 == 0 && s.pathUp a.path

/-- What a register reads as (R4 to R6, R32, R361). Reading RXRING_DROP also clears it: that is the command RXRING_DROP_READ. -/
def State.readReg (s : State) (a : RegAccess) : Word :=
  if pathBeside a.path then
    if !s.reachesFunction a then 0 else if a.path = Path.bar2 then s.pcie.bar2Reg a.off else s.pcie.configReg a.off
  else if !accAligned a || !s.visible || !s.pathUp a.path then 0
  else match accBlock a with
    | some (c, o) => Channel.reg c (s.getChan c) o
    | none =>
      match accBulk a with
      | some (_, b) => BitVec.ofNat 32 (leNat (s.bulk.readN b 4))
      | none =>
        match accGroup a with
        | some (n, k) =>
          if n < 11 then
            if k = 0 then s.groupStatus n else if k = 1 then nth 0 s.irq.mask n else s.groupRaw n
          else
            if k = 0 then s.partStatus (n - 16) else if k = 1 then nth 0 s.irq.maskExt (n - 16) else 0
        | none =>
          if a.off = 0 then 0x0C7A1248#32
          else if a.off = 4 then Config.stepping.setWidth 32
          else if a.off = 8 then Config.fwRev
          else if a.off = 0x40 then s.topSummary
          else if a.off = 0x44 then s.irq.topMask
          else if a.off = 0x48 then s.irq.topRoute
          else 0

/-- A register access that reaches the package, as a 32-bit aligned one on a path that is up (R4). -/
def State.reaches (s : State) (a : RegAccess) : Bool := !pathBeside a.path && accAligned a && s.visible && s.pathUp a.path

/-- Latch the command of a mailbox (R370): header, parameters from MB_DATA, the bulk buffer or the host read; an opcode that is not in the
table is answered at once (R369 check 1). -/
def State.latch (ch : Nat) (host : HostRead) (s : State) : State :=
  let c := s.getChan ch
  let words := c.data.flatMap fun w => leBytes 4 w.toNat
  let hdr := words.take 16
  let long := bit (fld hdr 3 1) 0
  let params := if !long then HostRead.ok (words.drop 16)
    else if bit (fld hdr 3 1) 1 then host else .ok (s.bulk.readN (65536 * ch) (fld hdr 6 2))
  let h := { parseHeader hdr params .mailbox with tick := s.now, at_ := s.stitch }
  let s1 := s.updChan ch fun c =>
    { c with ackValid := false, final := false, code := 0, tag := 0, reply := List.replicate 16 0, busy := true, held := some h }
  if (opInfo h.opcode).isNone then s1.answer ch .badOpcode [] else (s1.dropPolicy ch).notePolicy ch h

/-- A command that came in a COMMAND frame in this AON tick and has not begun gives its place to a GO (R363): it is answered BUSY. -/
def State.displaces (s : State) (ch : Nat) : Option Held :=
  match (s.getChan ch).held with
  | some h => if h.via ≠ .mailbox ∧ h.stepped = false ∧ h.tick = s.now then some h else none
  | none => none

/-- A GO (R363, R370): the command is latched, or OVERRUN is set while the channel holds one. -/
def State.go (ch : Nat) (host : HostRead) (s : State) : State :=
  if (s.getChan ch).busy then
    match s.displaces ch with
    | some h => (s.replyFrame h .busy true [] []).latch ch host
    | none => s.updChan ch fun c => { c with overrun := true }
  else s.latch ch host

/-- A write to a mailbox-block register that has no row of its own. -/
def State.writeBlock (ch o : Nat) (v : Word) (host : HostRead) (s : State) : State :=
  let c := s.getChan ch
  if o < 0x40 then s.updChan ch fun c => { c with data := c.data.set (o / 4) v }
  else if o = 0x40 then
    let s1 := if v.getLsbD 2 then s.updChan ch fun c => { c with overrun := false } else s
    if v.getLsbD 0 then s1.go ch host else s1
  else if o = 0x88 then State.settle (s.updChan ch fun c => { c with dbMask := v })
  else if o = 0x90 then
    s.updChan ch fun c => { c with ringMask := v, ring := if v.getLsbD 0 then c.ring else c.ring &&& ~~~(1#32) }
  else if o = 0x140 ∧ ringChannel ch ∧ !c.rxOn then
    s.updChan ch fun c => { c with rxBase := c.rxBase / 2 ^ 32 * 2 ^ 32 + v.toNat / 64 * 64 }
  else if o = 0x144 ∧ ringChannel ch ∧ !c.rxOn then
    s.updChan ch fun c => { c with rxBase := c.rxBase % 2 ^ 32 + 2 ^ 32 * v.toNat }
  else s

/-- REGISTER_WRITE (R6): the register acts by its access code; a register with a row of its own is not written here. -/
def State.regWrite (a : RegAccess) (v : Word) (host : HostRead) (s : State) : State :=
  if s.reachesFunction a then
    State.unmaskMsix { s with pcie := if a.path = Path.bar2 then s.pcie.bar2Write a.off v else s.pcie.configWrite a.off v }
  else if !s.reaches a then s
  else match accBlock a with
    | some (c, o) => s.writeBlock c o v host
    | none =>
      match accBulk a with
      | some (c, b) => if (s.getChan c).busy then s else { s with bulk := s.bulk.writeN b (leBytes 4 v.toNat) }
      | none =>
        match accGroup a with
        | some (n, k) =>
          if k = 0 ∧ n < 11 then
            State.settle { s with irq := { s.irq with status := s.irq.status.modify n (· &&& ~~~(v &&& w1cBits n)) } }
          else if k = 1 ∧ n < 11 then State.settle { s with irq := { s.irq with mask := s.irq.mask.set n (v &&& groupBits n) } }
          else if k = 1 then State.settle { s with irq := { s.irq with maskExt := s.irq.maskExt.set (n - 16) v } }
          else s
        | none =>
          if a.off = 0x44 then State.settle { s with irq := { s.irq with topMask := v &&& 0x7FF#32 } }
          else if a.off = 0x48 then State.settle { s with irq := { s.irq with topRoute := v &&& 0x87FF07FF#32 } }
          else s

/-- Whether an access is to register o of a mailbox block, and of which channel. -/
def State.atReg (s : State) (a : RegAccess) (o : Nat) : Option Nat :=
  if s.reaches a then match accBlock a with
    | some (c, x) => if x = o then some c else none
    | none => none
  else none

/-- DB_RING_RXPOST (R372): RXPOST is set; unmasked, the package takes it and clears it at once, since the posted buffers are those that
RX_TAIL names (R387). -/
def State.ringRxpost (a : RegAccess) (v : Word) (s : State) : State :=
  match s.atReg a 0x80 with
  | some c =>
    if v.getLsbD 0 then
      s.updChan c fun x => if x.ringMask.getLsbD 0 then { x with ring := x.ring ||| 1#32 } else { x with ring := x.ring &&& ~~~(1#32) }
    else s
  | none => s

/-- DB_RING_RXPOST. -/
def execDbRingRxpost (a : RegAccess) (value : Word) (s : State) : Host.Outcome State Fault Refusal := .next (s.ringRxpost a value)

/-- DB_CLEAR (R372): each 1 clears its DB_STATUS bit. -/
def State.dbClear (a : RegAccess) (v : Word) (s : State) : State :=
  match s.atReg a 0x8C with
  | some c => State.settle (s.updChan c fun x => { x with db := x.db &&& ~~~v })
  | none => s

/-- DB_CLEAR. -/
def execDbClear (a : RegAccess) (value : Word) (s : State) : Host.Outcome State Fault Refusal := .next (s.dbClear a value)

/-- RX_TAIL_WRITE (R387): the tail moves, and the descriptors from the old tail on hold the buffer addresses posted (log entry 4). -/
def State.rxTailWrite (a : RegAccess) (v : Word) (buffers : List Nat) (s : State) : State :=
  match s.atReg a 0x14C with
  | some c =>
    if ringChannel c then
      s.updChan c fun x =>
        { x with
          rxTail := v.toNat % 2 ^ 16
          bufAddr := (List.range buffers.length).foldl
            (fun t k => Tab.set 0 t ((x.rxTail + k) % 2 ^ x.sizeLog2) (nth 0 buffers k / 64 * 64)) x.bufAddr }
    else s
  | none => s

/-- RX_TAIL_WRITE. -/
def execRxTailWrite (a : RegAccess) (value : Word) (buffers : List Nat) (s : State) : Host.Outcome State Fault Refusal :=
  .next (s.rxTailWrite a value buffers)

/-- BUF_UNITS and SIZE_LOG2 lie in their ranges. -/
def rxFieldsOk (units log2 : Nat) : Bool := decide (4 ≤ units) && decide (units ≤ 1024) && decide (6 ≤ log2) && decide (log2 ≤ 15)

/-- RX_CTRL_WRITE (R389): while enabled the fields keep their values; ENABLE 0 to 1 with fields in range sets RX_HEAD and RSEQ to 0. -/
def State.rxCtrlWrite (a : RegAccess) (v : Word) (s : State) : State :=
  match s.atReg a 0x148 with
  | some c =>
    if ringChannel c then
      s.updChan c fun x =>
        let units := if x.rxOn then x.bufUnits else bits v.toNat 31 16
        let log2 := if x.rxOn then x.sizeLog2 else bits v.toNat 11 8
        let y := { x with bufUnits := units, sizeLog2 := log2 }
        if v.getLsbD 0 then
          if x.rxOn then y else if rxFieldsOk units log2 then { y with rxOn := true, rxHead := 0, rseq := 0 } else y
        else { y with rxOn := false }
    else s
  | none => s

/-- RX_CTRL_WRITE. -/
def execRxCtrlWrite (a : RegAccess) (value : Word) (s : State) : Host.Outcome State Fault Refusal := .next (s.rxCtrlWrite a value)

/-- RXRING_DROP_READ (R6): the read returns the count and clears it; any other access of this row returns what the register reads as. -/
def State.rxDropRead (a : RegAccess) (s : State) : State :=
  match s.atReg a 0x154 with
  | some c =>
    let s1 := s.emit (.regData (s.readReg a))
    if ringChannel c then s1.updChan c fun x => { x with rxDrop := 0 } else s1
  | none => s

/-- RXRING_DROP_READ. -/
def execRxringDropRead (a : RegAccess) (s : State) : Host.Outcome State Fault Refusal := .next (s.rxDropRead a)

end Sys2Proof.Machine
end

