-- ==== Sys2Proof/Machine/Serving.lean ====
section
/-! DEFINITION. Serving contexts and decode batching: the context table, step requests and their answers, the batch gatherer, the serve
inbox and the submit ring (R307 to R333). -/

namespace Sys2Proof.Machine

/-! ### Counters (R333) -/

/-- Add to a serving counter: OPENS 0, FULL_QUOTA 1, FULL_TABLE 2, REQUESTS 3, REJECTS 4, BATCHES 5, ROWS 6, SEAL_FULL 7,
SEAL_DEADLINE 8, ABANDONED 9, DISCARDS 10, SUBMIT_ERRORS 11, TIER_FAULTS 12, INBOX_DROPS 13. -/
def State.serveCount (p k n : Nat) (s : State) : State :=
  s.updServe p fun v => { v with counts := Tab.upd 0 v.counts k (satAdd 64 · n) }

/-! ### Handles (R308, R316) -/

/-- Handle of an entry. -/
def handleOf (i : Nat) (c : Ctx) : Nat := 2 ^ 20 * (c.gen % 4096) + i
/-- The next GEN: never 0 (R316). -/
def nextGen (g : Nat) : Nat := if (g + 1) % 4096 = 0 then 1 else (g + 1) % 4096
/-- The lowest FREE entry at or above i, by walking the table's entries. -/
def firstFree (i : Nat) : Tab Ctx → Nat
  | [] => i
  | e :: t => if i < e.1 then i else if e.1 = i ∧ e.2.state = .free then i else firstFree (max i (e.1 + 1)) t
/-- The entry a handle names, when its GEN matches, it is not FREE and the partition owns it (R317, R320). -/
def State.ctxOf (s : State) (p h : Nat) : Option Nat :=
  let i := h % 2 ^ 20
  let c := s.getCtx i
  if c.gen = h / 2 ^ 20 ∧ c.gen ≠ 0 ∧ c.state ≠ .free ∧ c.part = p then some i else none

/-! ### Records (R319) -/

/-- A 32-byte serve record. -/
def serveRecord (subkind reason flags handle token length cookie : Nat) : List Byte :=
  record 32 [⟨0, 1, subkind⟩, ⟨1, 1, reason⟩, ⟨2, 1, flags⟩, ⟨4, 4, handle⟩, ⟨8, 4, token⟩, ⟨0xC, 4, length⟩, ⟨0x10, 8, cookie⟩]

/-- Reasons of a REJECT. -/
inductive Reject where
  | stale | busy | length | notRunning | halted | closed
deriving DecidableEq, Repr

/-- Code of a REJECT reason (R319). -/
def Reject.code : Reject → Nat
  | .stale => 1 | .busy => 2 | .length => 3 | .notRunning => 4 | .halted => 5 | .closed => 6

/-- Send a serve record of partition p to a requester: its host ring for a request of the submit ring, a SERVE frame otherwise (R321).
A partition without a window to send in loses the record (log entry 24). -/
def State.serveTo (p : Nat) (host : Bool) (dst : Coord) (dstPart : Nat) (rcd : List Byte) (s : State) : State :=
  if host then s.ringRecord (4 + p) 1 s.here p rcd
  else
    let f : Frame := { dst := dst, src := s.here, part := dstPart, kind := 8, vl := 3, payload := rcd }
    if (s.getPart p).windows = 0 then s.emit (.frameLost 13 f) else s.sendWindowed p f

/-- Send a REJECT for a pending request of an entry (R319). -/
def State.rejectEntry (p i : Nat) (r : Reject) (s : State) : State :=
  let c := s.getCtx i
  (s.serveTo p c.hostReq c.req c.reqPart (serveRecord 3 r.code 0 (handleOf i c) c.tokenIn 0 c.cookie)).serveCount p 4 1

/-- Free an entry: it keeps its GEN (R316). -/
def State.freeCtx (i : Nat) (s : State) : State := s.updCtx i fun c => { gen := c.gen }

/-- Put an entry back to OPEN with no request pending. -/
def State.reopen (i : Nat) (s : State) : State := s.updCtx i fun c => { c with state := .open_, hostReq := false }

/-! ### What the hub hands to pattern code (R322, R328) -/

/-- A batch descriptor (R328). -/
def Batch.bytes (b : Batch) : List Byte :=
  record 64 [⟨0, 4, b.seq⟩, ⟨4, 1, b.rows.length⟩, ⟨5, 1, b.wset⟩]
    ++ slice (b.rows.flatMap fun r =>
        record 32 [⟨0, 4, r.handle⟩, ⟨4, 4, r.tokenIn⟩, ⟨8, 4, r.length⟩, ⟨0xC, 1, b2n r.tier⟩, ⟨0x10, 8, r.kvAddr⟩, ⟨0x18, 8, r.kvBytes⟩]) 0 4096

/-- The oldest record of the serve inbox goes to a frond-store address, and the token is raised (R322). -/
def State.takeRecord (p f addr token : Nat) (s : State) : State :=
  match (s.getPart p).serve.inbox with
  | [] => s
  | rcd :: rest =>
    ((s.updServe p fun v => { v with inbox := rest, received := v.received + 1 }).fsWrite f addr (slice rcd 0 32)).raiseToken f token

/-- The batch that a frond's next BATCH.TAKE gets: the k-th, once it has sealed and k is below the completed batches plus 4 (R328). -/
def State.batchReady (s : State) (p f : Nat) : Option Batch :=
  let v := (s.getPart p).serve
  let k := Tab.get 0 v.takes f
  if k < v.completed + 4 then v.sealed_.find? fun b => b.seq == k else none

/-- A frond takes the descriptor of its next batch, and the token is raised (R328). -/
def State.takeBatch (p f addr token : Nat) (s : State) : State :=
  match s.batchReady p f with
  | some b => ((s.updServe p fun v => { v with takes := Tab.upd 0 v.takes f (· + 1) }).fsWrite f addr b.bytes).raiseToken f token
  | none => s

/-- A warden that stalls on an SV.RECV or a BATCH.TAKE goes on once its record has arrived or its batch is there (R322, R328). -/
def State.wakeReader (f w : Nat) (s : State) : State :=
  match s.codeRuns f (unitPinnule (wardenPinnule w)), s.waitOf f w with
  | some (p, _), some (.recv a t) => if (s.getPart p).serve.inbox.isEmpty then s else (s.setWait f w none).takeRecord p f a t
  | some (p, _), some (.take a t) => if (s.batchReady p f).isSome then (s.setWait f w none).takeBatch p f a t else s
  | _, _ => s

/-- Every warden of a partition that waits for a record or a batch looks again. -/
def State.wakeReaders (p : Nat) (s : State) : State :=
  forAll (s.fronds p) (fun f s => forAll (s.stalledWardens f) (State.wakeReader f) s) s

/-! ### The gatherer (R325 to R327) -/

/-- Rows of the forming batch of a weight set. -/
def State.formingOf (s : State) (p w : Nat) : List Nat := Tab.get [] (s.getPart p).serve.forming w
/-- Set the forming batch of a weight set. -/
def State.setForming (p w : Nat) (rows : List Nat) (s : State) : State :=
  s.updServe p fun v => { v with forming := Tab.set [] v.forming w rows }

/-- Row of a batch descriptor (R328). -/
def State.batchRow (s : State) (p i : Nat) : BatchRow :=
  let c := s.getCtx i
  { entry := i, handle := handleOf i c, tokenIn := c.tokenIn, length := c.length, tier := c.tier,
    kvAddr := if c.tier then (s.getPart p).peatBase + c.kvPeat else (s.getPart p).hbmBase + c.kvHbm, kvBytes := c.kvBytes }

/-- A sealed batch takes its SEQ behind a new one of WSET w: it sealed in this tick too, its WSET is the higher, and no frond has taken it (R326; log
entry 87). -/
def Batch.yields (now w taken : Nat) (b : Batch) : Bool := b.at_ == now && decide (w < b.wset) && decide (taken ≤ b.seq)

/-- Put a batch that seals now among the sealed ones: batches of one tick take SEQ in ascending WSET (R326). -/
def Serve.place (now w : Nat) (rows : List BatchRow) (v : Serve) : Serve :=
  let taken := (v.takes.map (·.2)).foldl max 0
  let later := v.sealed_.filter (Batch.yields now w taken)
  { v with
    sealed_ := v.sealed_.filter (fun b => !b.yields now w taken) ++ { seq := v.seq - later.length, wset := w, rows := rows, at_ := now }
      :: later.map fun b => { b with seq := b.seq + 1 }
    seq := v.seq + 1 }

/-- Seal rows as a batch of a weight set: they become BATCHED and the batch takes the next SEQ (R326). 'full' says why. -/
def State.seal (p w : Nat) (rows : List Nat) (full : Bool) (s : State) : State :=
  let bs := rows.map (s.batchRow p)
  let s1 := forAll rows (fun i s => s.updCtx i fun c => { c with state := .batched }) s
  ((((s1.updServe p (Serve.place s.now w bs)).serveCount p 5 1).serveCount p 6 rows.length).serveCount p (if full then 7 else 8) 1).wakeReaders p

/-- AON ticks after its first row's REQ_TICK at which a forming batch reaches its deadline E (R326). -/
def State.deadlineOf (s : State) (deadlineUs : Nat) (rows : List Nat) : Nat :=
  let r0 := (s.getCtx (rows.headD 0)).reqTick
  rows.foldl (fun e i =>
    let c := s.getCtx i
    if c.budgetUs = 0 then e else min e ((c.reqTick + 2 ^ 32 - r0) % 2 ^ 32 + us c.budgetUs)) (us deadlineUs)

/-- A forming batch has reached its deadline (R326: ticks compared modulo 2^32). -/
def State.pastDeadline (s : State) (deadlineUs : Nat) (rows : List Nat) : Bool :=
  !rows.isEmpty
    && decide (s.deadlineOf deadlineUs rows ≤ (s.now % 2 ^ 32 + 2 ^ 32 - (s.getCtx (rows.headD 0)).reqTick) % 2 ^ 32)

/-- Seal the first MAX_ROWS rows of a forming batch while it holds as many (R326, R327). -/
def State.sealFull (p w : Nat) : Nat → State → State
  | 0, s => s
  | n + 1, s =>
    let m := (s.getPart p).serve.maxRows
    let rows := s.formingOf p w
    if m ≤ rows.length ∧ 0 < m then
      State.sealFull p w n ((s.seal p w (rows.take m) true).setForming p w (rows.drop m))
    else s

/-- Seal a forming batch whose deadline has come. -/
def State.sealDue (p w deadlineUs : Nat) (s : State) : State :=
  let rows := s.formingOf p w
  if s.pastDeadline deadlineUs rows then (s.seal p w rows false).setForming p w [] else s

/-- Weight sets with a forming batch, ascending. -/
def State.formingSets (s : State) (p : Nat) : List Nat := (s.getPart p).serve.forming.map (·.1)

/-- Every forming batch of a partition whose deadline has come seals, in ascending WSET (R326). -/
def State.sealDues (p : Nat) (s : State) : State :=
  forAll (s.formingSets p) (fun w s => s.sealDue p w (s.getPart p).serve.deadlineUs) s

/-! ### Commands -/

/-- The ranges and conditions of CTX_OPEN's parameters (R313, R314). -/
def ctxOpenOk (q : Partition) (b : List Byte) : Bool :=
  let kvHbm := fld b 8 8
  let kvPeat := fld b 0x10 8
  let kvBytes := fld b 0x18 8
  let noPeat := kvPeat == 2 ^ 64 - 1
  zeros b 2 4 && zeros b 0x24 0x28 && decide (fld b 1 1 < 2) && fld b 4 4 != 0 && kvHbm % 4096 == 0 && (noPeat || kvPeat % 4096 == 0)
    && kvBytes != 0 && kvBytes % 4096 == 0 && decide (fld b 0x20 4 ≤ 100000)
    && decide (kvHbm + kvBytes ≤ q.hbmGib * 2 ^ 30) && (noPeat || decide (kvPeat + kvBytes ≤ q.peatGib * 2 ^ 30))
    && !(fld b 1 1 == 1 && noPeat)

/-- A command that needs the context array while it is not ON waits for it (R337): acknowledged ACCEPTED (R371), it goes on when the array is ON. The
package switches the array on for it, unless it is parked. -/
def State.waitTable (ch : Nat) (s : State) : State :=
  let s1 := State.accept ch { s with ctxWaits := s.ctxWaits ++ [ch] }
  if s1.aon.park = .no then s1.switchDom 173 .on else s1

/-- CTX_OPEN takes the lowest FREE entry (R316). -/
def State.openCtx (ch p : Nat) (b : List Byte) (s : State) : State :=
  let i := firstFree 0 s.ctx
  let s1 := s.updCtx i fun c =>
    { state := .open_, part := p, gen := nextGen c.gen, wset := fld b 0 1, tier := fld b 1 1 == 1, maxLength := fld b 4 4,
      kvHbm := fld b 8 8, kvPeat := fld b 0x10 8, kvBytes := fld b 0x18 8, budgetUs := fld b 0x20 4 }
  let s2 := s1.serveCount p 0 1
  s2.answer ch .ok [handleOf i (s2.getCtx i), s2.ctxOpenCount p, s2.ctxFree]

/-- CTX_OPEN's own part (R313 to R316). -/
def State.ctxOpenOwn (ch : Nat) (h : Held) (b : List Byte) (s : State) : State :=
  let p := h.part
  let q := s.getPart p
  let o := s.ctxOpenCount p
  if q.pat = .empty ∨ q.pat = .halted then s.answer ch .notPermitted []
  else if !ctxOpenOk q b then s.answer ch .badParam []
  else if o = q.serve.quota then
    ((s.serveCount p 1 1).raise .ctxFull).answer ch .tableFull [0, 1, o, q.serve.quota]
  else if s.ctxReserved p ≤ o ∧ s.ctxFree = 0 then
    ((s.serveCount p 2 1).raise .ctxFull).answer ch .tableFull [0, 2, o, 0]
  else if s.getDom 173 = .on then s.openCtx ch p b
  else s.waitTable ch

/-- CTX_OPEN. -/
def execCtxOpen (ch : Nat) (s : State) : Host.Outcome State Fault Refusal := .next (s.runCommand 0x0601 ch (State.ctxOpenOwn ch))

/-- What a close tells the requester of a READY entry: STALE where the request came in this very tick, since the close acts first (R317, R332). -/
def State.closeReason (s : State) (i : Nat) : Reject := if (s.getCtx i).reqTick = s.now % 2 ^ 32 then .stale else .closed
/-- A request that a close of the same tick comes before is not one accepted (R332). -/
def State.uncount (p i : Nat) (s : State) : State :=
  if (s.getCtx i).reqTick = s.now % 2 ^ 32 then s.updServe p fun v => { v with counts := Tab.upd 0 v.counts 3 (· - 1) } else s

/-- CTX_CLOSE's own part (R317). -/
def State.ctxCloseOwn (ch : Nat) (h : Held) (b : List Byte) (s : State) : State :=
  let p := h.part
  if !zeros b 4 8 then s.answer ch .badParam []
  else if s.tableWaits then s.waitTable ch
  else match s.ctxOf p (fld b 0 4) with
    | none => s.answer ch .badParam []
    | some i =>
      let c := s.getCtx i
      match c.state with
      | .open_ => ((s.freeCtx i).switchDomains).answer ch .ok []
      | .ready =>
        let s1 := s.setForming p c.wset ((s.formingOf p c.wset).erase i)
        ((((s1.rejectEntry p i (s.closeReason i)).uncount p i).freeCtx i).switchDomains).answer ch .ok []
      | .batched => (s.updCtx i fun c => { c with state := .closing }).answer ch .ok []
      | _ => s.answer ch .badParam []

/-- CTX_CLOSE. -/
def execCtxClose (ch : Nat) (s : State) : Host.Outcome State Fault Refusal := .next (s.runCommand 0x0602 ch (State.ctxCloseOwn ch))

/-- The commands that waited for the context array go on, in their order, once it is ON (R337). -/
def State.tableAwake (s : State) : State :=
  if s.getDom 173 = .on ∧ s.ctxWaits ≠ [] then
    State.switchDomains (forAll s.ctxWaits (fun ch s =>
      match (s.getChan ch).held with
      | some h => if h.opcode = 0x0601 then s.ctxOpenOwn ch h ((h.block).getD []) else s.ctxCloseOwn ch h ((h.block).getD [])
      | none => s) { s with ctxWaits := [] })
  else s

/-- CTX_QUOTA's own part (R312). -/
def State.ctxQuotaOwn (ch : Nat) (h : Held) (b : List Byte) (s : State) : State :=
  let p := h.part
  let q := fld b 0 4
  let hp := s.ctxHeld p
  if !zeros b 4 8 ∨ 1048576 < q ∨ q < hp then s.answer ch .badParam []
  else (s.updServe p fun v => { v with quota := q }).answer ch .ok [(s.getPart p).serve.quota, hp]

/-- CTX_QUOTA. -/
def execCtxQuota (ch : Nat) (s : State) : Host.Outcome State Fault Refusal := .next (s.runCommand 0x0603 ch (State.ctxQuotaOwn ch))

/-- A power of two from 64 to 65,536. -/
def submitEntriesOk (n : Nat) : Bool := (List.range 17).any fun k => decide (6 ≤ k) && n == 2 ^ k

/-- The ranges of BATCH_POLICY's parameters (R327). -/
def batchPolicyOk (b : List Byte) : Bool :=
  let d := fld b 0 4
  let m := fld b 4 1
  decide (1 ≤ d) && decide (d ≤ 100000) && decide (1 ≤ m) && decide (m ≤ 128) && decide (fld b 5 1 < 2) && zeros b 6 8
    && fld b 8 8 % 64 == 0 && submitEntriesOk (fld b 0x10 4) && zeros b 0x14 0x18

/-- Seal, in one weight set, what is due under the new policy, or under the old one in this tick (R327, R332). -/
def State.policySeal (p w oldUs : Nat) (s : State) : State :=
  let due := s.pastDeadline oldUs (s.formingOf p w)
  let s1 := s.sealFull p w (s.formingOf p w).length
  let rows := s1.formingOf p w
  let s2 := s1.sealDue p w (s1.getPart p).serve.deadlineUs
  if due ∧ rows ≠ [] ∧ s2.formingOf p w ≠ [] ∧ rows = s.formingOf p w then (s2.seal p w rows false).setForming p w [] else s2

/-- BATCH_POLICY's own part (R324, R327). -/
def State.batchPolicyOwn (ch : Nat) (h : Held) (b : List Byte) (s : State) : State :=
  let p := h.part
  if !batchPolicyOk b then s.answer ch .badParam []
  else
    let old := (s.getPart p).serve.deadlineUs
    let s1 := s.updServe p fun v =>
      { v with deadlineUs := fld b 0 4, maxRows := fld b 4 1, submitOn := fld b 5 1 == 1, submitAddr := fld b 8 8,
               submitEntries := fld b 0x10 4 }
    let s2 := s1.updChan (4 + p) fun c => { c with subIndex := 0, subPhase := true, subHead := 65536 }
    (forAll (s2.formingSets p) (fun w s => s.policySeal p w old) s2).answer ch .ok []

/-- BATCH_POLICY. -/
def execBatchPolicy (ch : Nat) (s : State) : Host.Outcome State Fault Refusal := .next (s.runCommand 0x0604 ch (State.batchPolicyOwn ch))

/-- Commands come before the frames and gatherer events of one AON tick (R332): a CTX_CLOSE or BATCH_POLICY of the partition that is accepted and whose
turn it is takes its first step. -/
def State.commandsFirst (p : Nat) (s : State) : State :=
  forAll [1, 4 + p, 1] (fun ch s =>
    match (s.getChan ch).held with
    | some h =>
      if h.part = p ∧ h.opcode = 0x0602 then s.runCommand 0x0602 ch (State.ctxCloseOwn ch)
      else if h.part = p ∧ h.opcode = 0x0604 then s.runCommand 0x0604 ch (State.batchPolicyOwn ch)
      else s
    | none => s) s

/-- BATCH_SEAL_DEADLINE (R326). -/
def State.batchSealDeadline (p : Nat) (s : State) : State := (s.commandsFirst p).sealDues p

/-- BATCH_SEAL_DEADLINE. -/
def execBatchSealDeadline (part : Nat) (s : State) : Host.Outcome State Fault Refusal := .next (s.batchSealDeadline part)

/-! ### Requests (R320) -/

/-- A context joins the rows of a forming batch as the last, but before the rows of the same AON tick with a higher entry index (R325). -/
def State.joinRows (s : State) (rows : List Nat) (i : Nat) : List Nat :=
  let after : Nat → Bool := fun j => (s.getCtx j).reqTick == s.now % 2 ^ 32 && decide (i < j)
  (rows.takeWhile fun j => !after j) ++ i :: rows.dropWhile fun j => !after j

/-- One more row fills a forming batch in the very tick of its deadline: it seals once, with that row (R332). -/
def State.fillsAtDeadline (s : State) (p w : Nat) : Bool :=
  let v := (s.getPart p).serve
  let rows := s.formingOf p w
  rows.length + 1 == v.maxRows
    && s.deadlineOf v.deadlineUs rows == (s.now % 2 ^ 32 + 2 ^ 32 - (s.getCtx (rows.headD 0)).reqTick) % 2 ^ 32

/-- Before a request joins, the batches that are due seal, since a request of the sealing tick joins the next one (R326). -/
def State.sealBefore (p w : Nat) (s : State) : State := if s.fillsAtDeadline p w then s else s.sealDues p

/-- Check a STEP_REQ of partition p and take it, or answer it with a REJECT. -/
def State.stepReq (p : Nat) (host : Bool) (src : Coord) (srcPart : Nat) (rcd : List Byte) (s : State) : State :=
  let h := fld rcd 4 4
  let i := h % 2 ^ 20
  let c := s.getCtx i
  let reject (r : Reject) : State :=
    (s.serveTo p host src srcPart (serveRecord 3 r.code 0 h (fld rcd 8 4) 0 (fld rcd 0x10 8))).serveCount p 4 1
  if (s.ctxOf p h).isNone then reject .stale
  else if (s.getPart p).pat != .running then reject .notRunning
  else if c.state != .open_ then reject .busy
  else if c.length = c.maxLength then reject .length
  else
    let s0 := s.sealBefore p c.wset
    let s1 := s0.updCtx i fun c =>
      { c with state := .ready, hostReq := host, tokenIn := fld rcd 8 4, cookie := fld rcd 0x10 8, reqTick := s.now % 2 ^ 32,
               req := src, reqPart := srcPart }
    let s2 := (s1.serveCount p 3 1).setForming p c.wset (s0.joinRows (s0.formingOf p c.wset) i)
    s2.sealFull p c.wset 1

/-- A STEP_DONE or REJECT reaches the serve inbox, or is dropped (R322). -/
def State.inboxPut (p : Nat) (rcd : List Byte) (s : State) : State :=
  if (s.getPart p).live ∧ (s.getPart p).serve.inbox.length < 1024 then
    (s.updServe p fun v => { v with inbox := v.inbox ++ [rcd] }).wakeReaders p
  else s.serveCount p 13 1

/-- SERVE_FRAME (R321): taken by SUBKIND; its credit returns in every case (R241). The requester of a STEP_REQ is the frame's source with the sending
partition, which stands in ARG above the window (R323; log entry 25). A STEP_REQ waits while the context array does not answer (R337). -/
def State.serveFrame (port : Nat) (f : Frame) (s : State) : State :=
  if f.kind ≠ 8 ∨ f.dst ≠ s.here then s
  else if fld f.payload 0 1 = 1 ∧ s.tableWaits then s
  else match s.arrives port f with
    | (false, s1) => s1
    | (true, s1) =>
      let s2 := s1.gatherCredit f
      match fld f.payload 0 1 with
      | 1 => (s2.commandsFirst f.part).stepReq f.part false f.src (bits f.arg 25 20) f.payload
      | 2 | 3 => s2.inboxPut f.part (slice f.payload 0 32)
      | _ => s2.serveCount f.part 10 1

/-- SERVE_FRAME. -/
def execServeFrame (port : Nat) (frame : Frame) (s : State) : Host.Outcome State Fault Refusal := .next (s.serveFrame port frame)

/-! ### The submit ring (R324) -/

/-- Take the submit ring's records from the consume index on, while their PHASE is the expected one. -/
def State.submitPass (ch : Nat) : List HostRead → State → State
  | [], s => s
  | r :: rs, s =>
    let p := ch - 4
    let entries := (s.getPart p).serve.submitEntries
    let advance (s : State) : State := s.updChan ch fun c =>
      if c.subIndex + 1 = entries then { c with subIndex := 0, subPhase := !c.subPhase } else { c with subIndex := c.subIndex + 1 }
    match r with
    | .pcieError => State.submitPass ch rs ((advance (s.serveCount p 11 1)).raise .submit)
    | .ok b =>
      if bit (fld b 2 1) 0 = (s.getChan ch).subPhase then
        let s1 := if fld b 0 1 = 1 then s.stepReq p true s.here p b else s.serveCount p 10 1
        State.submitPass ch rs (advance s1)
      else s

/-- The package takes the SUBMIT bit of a channel when it is set and not masked: it reads records and reports its consume index (R324, R372). While
the context array does not answer it waits (R337). -/
def State.takeSubmit (c : Nat) (records : List HostRead) (s : State) : State :=
  let x := s.getChan c
  if x.ring.getLsbD 31 ∧ !x.ringMask.getLsbD 31 ∧ 4 ≤ c ∧ !s.tableWaits then
    let s2 := s.updChan c fun x => { x with ring := x.ring &&& 0x7FFFFFFF#32 }
    if (s2.getPart (c - 4)).serve.submitOn then
      let s3 := (s2.commandsFirst (c - 4)).submitPass c records
      (s3.updChan c fun x => { x with subHead := 65536 * b2n x.subPhase + x.subIndex }).ringHost c 6
    else s2
  else s

/-- DB_RING_SUBMIT (R324, R372): the bits written are set, and taken unless they are masked. -/
def State.ringSubmit (a : RegAccess) (v : Word) (records : List HostRead) (s : State) : State :=
  match s.atReg a 0x80 with
  | none => s
  | some c =>
    let s0 := s.ringRxpost a v
    let s1 := if v.getLsbD 31 ∧ 4 ≤ c then s0.updChan c fun x => { x with ring := x.ring ||| 0x80000000#32 } else s0
    s1.takeSubmit c records

/-- DB_RING_SUBMIT. -/
def execDbRingSubmit (a : RegAccess) (value : Word) (records : List HostRead) (s : State) : Host.Outcome State Fault Refusal :=
  .next (s.ringSubmit a value records)

/-- A SUBMIT bit that DB_RING_MASK held is taken when a write of the mask frees it (R372). -/
def State.unmaskSubmit (a : RegAccess) (records : List HostRead) (s : State) : State :=
  match s.atReg a 0x90 with
  | some c => s.takeSubmit c records
  | none => s

/-- REGISTER_WRITE. -/
def execRegisterWrite (a : RegAccess) (value : Word) (host : HostFetch) (s : State) : Host.Outcome State Fault Refusal :=
  .next ((s.regWrite a value host.block).unmaskSubmit a host.records)

/-! ### Warden instructions -/

/-- SV_RECV (R322): logical frond 0's array warden takes the next inbox record, or stalls until it has arrived; another warden's issue is a frond
fault, and so is a buffer outside the allocated pages. -/
def State.svRecv (f w addr token : Nat) (s : State) : State :=
  match s.issuer f w with
  | none => s
  | some (p, r) =>
    if s.logical p f ≠ 0 ∨ r.warden unitArray ≠ w ∨ !r.pageOk addr 32 then s.wardenFault f w
    else if (s.getPart p).serve.inbox.isEmpty then s.setWait f w (some (.recv addr token))
    else s.takeRecord p f addr token

/-- SV_RECV. -/
def execSvRecv (frond warden addr token : Nat) (s : State) : Host.Outcome State Fault Refusal := .next (s.svRecv frond warden addr token)

/-- A record that SV.SEND may send (R323): SUBKIND STEP_REQ, FLAGS and reserved fields zero. -/
def svSendOk (b : List Byte) : Bool := fld b 0 1 == 1 && zeros b 2 4 && zeros b 0x18 0x20

/-- SV_SEND (R323, R239): one SERVE frame under the window rules, with the sending partition in ARG (log entry 25); a partition without reserved windows
makes a frond fault. -/
def State.svSend (f w : Nat) (dst : Coord) (dstPart addr : Nat) (s : State) : State :=
  match s.issuer f w with
  | none => s
  | some (p, r) =>
    let b := s.fsRead f addr 32
    if !r.pageOk addr 32 ∨ !svSendOk b ∨ (s.getPart p).windows = 0 then s.wardenFault f w
    else s.sendWindowed p { dst := dst, src := s.here, part := dstPart, kind := 8, vl := 3, arg := 2 ^ 20 * p, payload := b }

/-- SV_SEND. -/
def execSvSend (frond warden : Nat) (dest : Coord) (destPart addr : Nat) (s : State) : Host.Outcome State Fault Refusal :=
  .next (s.svSend frond warden dest destPart addr)

/-- FB_SEND (R388, R239): one FALLBACK frame of 1 to 14,832 bytes under the window rules. -/
def State.fbSend (f w : Nat) (dst : Coord) (dstPart addr length : Nat) (s : State) : State :=
  match s.issuer f w with
  | none => s
  | some (p, r) =>
    if !r.pageOk addr length ∨ length = 0 ∨ 14832 < length ∨ (s.getPart p).windows = 0 then s.wardenFault f w
    else s.sendWindowed p { dst := dst, src := s.here, part := dstPart, kind := 7, vl := 3, payload := s.fsRead f addr length }

/-- FB_SEND. -/
def execFbSend (frond warden : Nat) (dest : Coord) (destPart addr length : Nat) (s : State) : Host.Outcome State Fault Refusal :=
  .next (s.fbSend frond warden dest destPart addr length)

/-- BATCH_TAKE (R328): the k-th take of the frond's array warden gets the descriptor of batch k, or stalls until it has sealed and k is below the
completed batches plus 4. -/
def State.batchTake (f w addr token : Nat) (s : State) : State :=
  match s.issuer f w with
  | none => s
  | some (p, r) =>
    if r.warden unitArray ≠ w ∨ !r.pageOk addr 4160 then s.wardenFault f w
    else if (s.batchReady p f).isSome then s.takeBatch p f addr token
    else s.setWait f w (some (.take addr token))

/-- BATCH_TAKE. -/
def execBatchTake (frond warden addr token : Nat) (s : State) : Host.Outcome State Fault Refusal :=
  .next (s.batchTake frond warden addr token)

/-- One row of a completed batch, with its result word (R329, KV spill: TIER 1 for a context without peat space is refused). -/
def State.batchRowDone (p : Nat) (row : BatchRow) (res : Nat) (s : State) : State :=
  let i := row.entry
  let c := s.getCtx i
  let toPeat := bit res 33
  let bad := toPeat && c.kvPeat == 2 ^ 64 - 1
  let s1 := if bad then (s.serveCount p 12 1).raise .tier else s
  let s2 := s1.updCtx i fun c => { c with tier := toPeat && !bad }
  match c.state with
  | .batched =>
    let s3 := s2.updCtx i fun c => { c with length := c.length + 1 }
    let d := s3.getCtx i
    (s3.serveTo p d.hostReq d.req d.reqPart
      (serveRecord 2 0 (2 * b2n (bit res 32)) row.handle (res % 2 ^ 32) d.length d.cookie)).reopen i
  | .closing => (s2.rejectEntry p i .closed).freeCtx i
  | _ => s2

/-- The answer to a row goes out in a frame (R321). -/
def State.rowTravels (s : State) (row : BatchRow) : Bool :=
  let c := s.getCtx row.entry
  !c.hostReq && (c.state == .batched || c.state == .closing)

/-- The oldest outstanding batch completes, row by row (R329). -/
def State.completeBatch (p f addr : Nat) (b : Batch) (s : State) : State :=
  let s1 := forAll ((List.range b.rows.length).zip b.rows) (fun x s => s.batchRowDone p x.2 (leNat (s.fsRead f (addr + 8 * x.1) 8))) s
  ((s1.updServe p fun v => { v with completed := v.completed + 1 }).switchDomains).wakeReaders p

/-- BATCH_DONE (R329): logical frond 0's array warden completes the oldest outstanding batch. In a partition without reserved windows, an answer that
would go out in a frame is a frond fault (R239). -/
def State.batchDone (f w seq addr : Nat) (s : State) : State :=
  match s.issuer f w with
  | none => s
  | some (p, r) =>
    let s1 := s.commandsFirst p
    let v := (s1.getPart p).serve
    match v.sealed_.find? fun b => b.seq == v.completed with
    | some b =>
      if s1.logical p f ≠ 0 ∨ r.warden unitArray ≠ w ∨ seq ≠ v.completed ∨ !r.pageOk addr 1024
          ∨ ((s1.getPart p).windows = 0 ∧ b.rows.any s1.rowTravels) then s1.wardenFault f w
      else s1.completeBatch p f addr b
    | none => s1.wardenFault f w

/-- BATCH_DONE. -/
def execBatchDone (frond warden seq addr : Nat) (s : State) : Host.Outcome State Fault Refusal := .next (s.batchDone frond warden seq addr)

/-! ### Halt and destruction (R318, R330) -/

/-- A halt abandons the sealed batches that have not completed and dissolves the forming ones (R330). -/
def State.abandonBatches (p : Nat) (s : State) : State :=
  let v := (s.getPart p).serve
  let open_ := v.sealed_.filter fun b => decide (v.completed ≤ b.seq)
  let s1 := forAll open_ (fun b s =>
    (forAll b.rows (fun r s =>
      match (s.getCtx r.entry).state with
      | .batched => (s.rejectEntry p r.entry .halted).reopen r.entry
      | .closing => s.freeCtx r.entry
      | _ => s) s).serveCount p 9 1) s
  let s2 := forAll (v.forming.flatMap (·.2)) (fun i s => (s.rejectEntry p i .notRunning).reopen i) s1
  s2.updServe p fun v => { v with sealed_ := [], forming := [] }

/-- PART_DESTROY frees every entry of a partition; a pending request gets REJECT CLOSED (R318). -/
def State.closeAllCtx (p : Nat) (s : State) : State :=
  forAll ((s.ctx.filter fun e => e.2.part == p && e.2.state != .free).map (·.1)) (fun i s =>
    (if (s.getCtx i).state = .open_ then s else s.rejectEntry p i .closed).freeCtx i) s

/-! ### Credits, windows and fallback frames (R241, R242, R387) -/

/-- Credits returned: entries of a CREDIT frame reduce the in-flight count of their window, those of an older EPOCH do not (R241, R242). -/
def State.creditFrame (port : Nat) (f : Frame) (s : State) : State :=
  if f.kind ≠ 6 ∨ f.dst ≠ s.here then s
  else match s.arrives port f with
    | (false, s1) => s1
    | (true, s1) =>
      let es := (List.range (f.payload.length / 4)).map fun i => fld f.payload (4 * i) 4
      let s2 := forAll es (fun e s =>
        let i := bits e 11 0
        let w := s.getWin i
        if w.owner ≠ 0 ∧ w.epoch % 256 = bits e 19 12 then
          s.updWin i fun w => { w with inflight := w.inflight - bits e 27 20, credit := s.now, idle := if w.inflight ≤ bits e 27 20 then s.now else w.idle }
        else s) s1
      forAll allParts State.retryWaiting s2

/-- CREDIT_FRAME. -/
def execCreditFrame (port : Nat) (frame : Frame) (s : State) : Host.Outcome State Fault Refusal := .next (s.creditFrame port frame)

/-- CREDIT_SEND (R241): due with 8 credits gathered for the source, or 10 µs after the first of them. -/
def State.creditSend (src : Coord) (s : State) : State :=
  match s.links.credits.find? fun c => c.source == src with
  | none => s
  | some c =>
    if 8 ≤ (c.entries.map (·.2)).sum ∨ c.first + us 10 ≤ s.now then
      let s1 := { s with links := { s.links with credits := s.links.credits.filter fun c => c.source != src } }
      s1.inject { dst := src, src := s.here, kind := 6, vl := 2,
                  payload := c.entries.flatMap fun e => leBytes 4 (e.1 + 2 ^ 20 * e.2) }
    else s

/-- CREDIT_SEND. -/
def execCreditSend (source : Coord) (s : State) : Host.Outcome State Fault Refusal := .next (s.creditSend source)

/-- WINDOW_TIMEOUT (R242): a window of the partition with a frame in flight and no credit for 1 ms. -/
def State.windowTimeout (p i : Nat) (s : State) : State :=
  let w := s.getWin i
  if w.owner = p + 1 ∧ 0 < w.inflight ∧ w.credit + ms 1 ≤ s.now then
    let s1 := s.updWin i fun w => { w with inflight := 0, epoch := (w.epoch + 1) % 256, idle := s.now }
    (State.raise .window { s1 with links := { s1.links with timeouts := satAdd 64 s1.links.timeouts 1 } }).retryWaiting p
  else s

/-- WINDOW_TIMEOUT. -/
def execWindowTimeout (part window : Nat) (s : State) : Host.Outcome State Fault Refusal := .next (s.windowTimeout part window)

/-- FALLBACK_FRAME (R387, R388): header and payload become a record of the partition's ring; the credit returns in every case. -/
def State.fallbackFrame (port : Nat) (f : Frame) (s : State) : State :=
  if f.kind ≠ 7 ∨ f.dst ≠ s.here then s
  else match s.arrives port f with
    | (false, s1) => s1
    | (true, s1) => (s1.gatherCredit f).ringRecord (4 + f.part % 64) 2 f.src f.part (frameHeader f ++ f.payload)

/-- FALLBACK_FRAME. -/
def execFallbackFrame (port : Nat) (frame : Frame) (s : State) : Host.Outcome State Fault Refusal := .next (s.fallbackFrame port frame)

end Sys2Proof.Machine
end

