-- ==== Sys2Proof/Machine/Halt.lean ====
section
/-! DEFINITION. A pattern's halt (R127, R168, R330) and the entry into Safe Listen (R400). -/

namespace Sys2Proof.Machine

/-- The pattern of a partition is HALTED with a status (R127): the cause and the doorbell are set, sealed batches are abandoned, and the
step in progress is not committed. -/
def State.haltNow (p : Nat) (st : Status) (s : State) : State :=
  let s1 := (s.abandonBatches p).updPart p fun q =>
    { q with pat := .halted, colls := [], earlyAborts := [],
             run := { q.run with last := some st, halt := none, sent := none, children := [], sig := false }
             twin := { q.twin with state := if q.twin.soloNext then .solo else q.twin.state, soloNext := false, due := none, sentAt := none, waiting := false, acts := [] } }
  (s1.raise .halt).ringHost (4 + p) 5

/-- A step commit is in progress: the vote is sent and the step is not decided (R127, R165). -/
def Run.committing (r : Run) : Bool := r.sent.isSome && !r.decided

/-- PATTERN_HALT_EFFECT (R127): at a stitch boundary after the halt fell due, and with no step commit in progress. -/
def State.patternHaltEffect (p : Nat) (s : State) : State :=
  let q := s.getPart p
  match q.run.halt with
  | some st => if q.live ∧ q.run.haltAt < s.stitch ∧ !q.run.committing then s.haltNow p st else s
  | none => s

/-- PATTERN_HALT_EFFECT. -/
def execPatternHaltEffect (part : Nat) (s : State) : Host.Outcome State Fault Refusal := .next (s.patternHaltEffect part)

/-- Ports after the link groups lose power: every port in use is LOST to its partner (R400; log entry 26). -/
def Port.dead (x : Port) : Port :=
  if x.state = .unused ∨ x.state = .retired then x
  else { x with state := .lost, stage := .idle, retrain := none, lostAt := none, tx := [], rx := [], replay := [], tries := [], mgmt := [], chunks := [] }

/-- Entry into Safe Listen (R400): every pattern halts with INTERNAL and a HALT entry of its own (R430), the domains are switched, every partition ceases to exist, memory
outside the AON bank is lost, commands in their background phase complete with SAFE_LISTEN and SELFTEST FAIL is set. -/
def State.enterSafeListen (s : State) : State :=
  let s1 := forAll (allParts.filter fun p => (s.getPart p).live) (fun p s => (s.haltNow p .internal).log { kind := 4, code := .internal, part := p }) s
  let s2 := forAll (List.range 72) (fun c s =>
    match (s.getChan c).held with
    | some h => if h.stepped then s.answer c .safeListen [] else s
    | none => s) s1
  let s3 := { s2 with
    aon := { s2.aon with phase := .safeListen, park := .no, parkDue := false, listenDue := none }
    test := { s2.test with active := false, full := true, byCommand := none }
    admissions := [], loading := none, ctxWaits := [], regulate := [], waking := [], part := [], far := [], ctx := [], frond := [], store := [], localStore := []
    cmap := none
    links := { s2.links with planCh := none, checking := false, win := [], credits := [], selvNext := none
                             port := s2.links.port.map fun (e : Nat × Port) => (e.1, e.2.dead) }
    anns := { s2.anns with held := [] }
    rate := { s2.rate with locals := [], ready := none } }
  (s3.switchDomains).raise .selftestFail

/-- Log an entry into Safe Listen outside self-test, or the second of two causes (R427, R430). -/
def State.logSafeListen (reason unitKind unit : Nat) (s : State) : State :=
  s.log { kind := 6, code := .safeListen, unitKind := unitKind, unit := unit, detail := [⟨0, 1, 0⟩, ⟨1, 1, reason⟩] }

/-- A failing self-test phase (R396, R399, R430): the record, the SELFTEST entry, and Safe Listen. -/
def State.testFail (reason unitKind unit : Nat) (s : State) : State :=
  let t := s.test
  let i := t.phase - 1
  let s1 := { s with test := { t with
    result := 2, reason := reason, unitKind := unitKind, unit := unit, active := false
    ticks := t.ticks.set i (s.now - t.began) } }
  (s1.log { kind := 5, code := .safeListen, unitKind := unitKind, unit := unit,
            detail := [⟨0, 1, t.phase⟩, ⟨1, 1, reason⟩] }).enterSafeListen

/-- A thermal trip or rail fault (R350, R394, R409, R427): it fails a running self-test, enters Safe Listen from a running package, and is
logged in Safe Listen. A rail fault of a package held in reset is logged, and the self-test that follows is full (R394, R395; log entry 77). -/
def State.tripOrRail (reason unitKind unit : Nat) (s : State) : State :=
  match s.aon.phase with
  | .up => if s.test.active then s.testFail reason unitKind unit else (s.logSafeListen reason unitKind unit).enterSafeListen
  | .selfTest => s.testFail reason unitKind unit
  | .safeListen => s.logSafeListen reason unitKind unit
  | .held => let s1 := s.logSafeListen reason unitKind unit; { s1 with test := { s1.test with full := true } }
  | .off => s

end Sys2Proof.Machine
end

