-- ==== Sys2Proof/Machine/Partitions.lean ====
section
/-! DEFINITION. Partitions: the address map, PART_CREATE with its fills, PART_DESTROY and PART_QUERY (R185, R189 to R192, R209, R212, R376
to R380). -/

namespace Sys2Proof.Machine

/-! ### The address map (R185, R189) -/

/-- Bytes in a GiB. -/
def gib : Nat := 1073741824
/-- First package address of the peat tier. -/
def peatStart : Nat := 0x010000000000
/-- First package address of hub SRAM. -/
def hubStart : Nat := 0x020000000000
/-- First address of the own hub window alias. -/
def aliasStart : Nat := 0x030000000000
/-- Bytes of a hub window. -/
def windowSize : Nat := 0x80000
/-- Package address of the hub window of partition p (R189). -/
def hubWindow (p : Nat) : Nat := hubStart + 0x0E000000 + p * windowSize

/-- HBM location of a package address: die, stack, pseudo-channel, offset (R187). -/
def hbmLocate (a : Nat) : Nat × Nat × Nat × Nat :=
  let n := a / 2 ^ 24
  let die := nth 0 [0, 2, 1, 3] (n % 4)
  let d := n / 4 * 2 ^ 24 + a % 2 ^ 24
  let c := d / 2048
  (die, 3 * die + c % 3, c / 3 % 64, c / 192 * 2048 + d % 2048)

/-- Peat location of a package address: controller, offset (R188). -/
def peatLocate (a : Nat) : Nat × Nat :=
  let p := a - peatStart
  (p / 2048 % 8, p / 2048 / 8 * 2048 + p % 2048)

/-! ### Ranges (R190, R191) -/

/-- The ranges taken in a tier, as (first GiB, GiB): HBM or peat. -/
def State.taken (s : State) (peat : Bool) : List (Nat × Nat) :=
  (allParts.filter fun p => (s.getPart p).alive).map fun p =>
    let q := s.getPart p
    if peat then ((q.peatBase - peatStart) / gib, q.peatGib) else (q.hbmBase / gib, q.hbmGib)

/-- No taken range meets the n GiB from g on. -/
def rangeFree (taken : List (Nat × Nat)) (g n : Nat) : Bool := taken.all fun t => decide (g + n ≤ t.1) || decide (t.1 + t.2 ≤ g)

/-- First GiB of the lowest free range of n GiB in a tier of a size (R190). -/
def lowestFree (taken : List (Nat × Nat)) (total n : Nat) : Option Nat :=
  (List.range (total + 1)).find? fun g => decide (g + n ≤ total) && rangeFree taken g n

/-- GiB of the largest free contiguous range of a tier (R191). -/
def largestFree (taken : List (Nat × Nat)) (total : Nat) : Nat :=
  ((List.range total).foldl (fun a g =>
    let run := if rangeFree taken g 1 then a.1 + 1 else 0
    (run, max a.2 run)) (0, 0)).2

/-- Reply words of an admission or allocation refusal (R143): REASON, INDEX, NEEDED, AVAILABLE. -/
def reasonWords (reason index needed available : Nat) : List Nat :=
  [reason % 2 ^ 16 + 2 ^ 16 * (index % 2 ^ 16), 0, needed % 2 ^ 32, needed / 2 ^ 32 % 2 ^ 32, available % 2 ^ 32, available / 2 ^ 32 % 2 ^ 32]

/-- Send one control message to the compute dies in ring order (R16). -/
def State.toDies (m : Ctl) (s : State) : State := forAll (List.range 4) (fun r s => s.odpSend r (.ctl m)) s

/-! ### PART_CREATE -/

/-- Groups of a map, ascending. -/
def groupsOf (m : BitVec 144) : List Nat := (List.range 144).filter fun g => m.getLsbD g

/-- What a partition number keeps of its twin counters when it is created or destroyed: only PKG_RESET_N clears them (R306). -/
def Twin.counters (t : Twin) : Twin := { matches_ := t.matches_, mismatches := t.mismatches, timeouts := t.timeouts, collAborts := t.collAborts }

/-- The new partition (R198, R312, R327): its pattern is EMPTY and every setting has its creation value. -/
def newPart (w gone : Winner) (t : Twin) (m : BitVec 144) (hbm hbmGib peat peatGib : Nat) : Partition :=
  { life := .filling, createdBy := w, destroyedBy := gone, twin := t.counters, groups := m, hbmBase := hbm * gib, hbmGib := hbmGib,
    peatBase := peatStart + peat * gib, peatGib := peatGib }

/-- The checks of R380 after existence, and the creation. -/
def State.partCreateOwn (ch : Nat) (h : Held) (b : List Byte) (s : State) : State :=
  let p := h.part
  let m : BitVec 144 := BitVec.ofNat 144 (fld b 0 18)
  let hbm := fld b 0x12 2
  let peat := fld b 0x14 2
  if (s.getPart p).alive then s.conflict ch (s.getPart p).createdBy
  else if m = 0 ∨ 576 < hbm ∨ 512 < peat ∨ !zeros b 0x16 0x18 then s.answer ch .badParam []
  else match (groupsOf m).find? fun g => s.faults.retired.getLsbD g || s.groupAbsent g with
  | some g => s.answer ch .badParam [g]
  | none =>
    match allParts.find? fun q => (s.getPart q).alive && ((s.getPart q).groups &&& m) != 0 with
    | some q => s.conflict ch (s.getPart q).createdBy
    | none =>
      match lowestFree (s.taken false) 576 hbm, lowestFree (s.taken true) 512 peat with
      | none, _ => s.answer ch .refusedFit (reasonWords 3 0 (hbm * gib) (largestFree (s.taken false) 576 * gib))
      | _, none => s.answer ch .refusedFit (reasonWords 4 0 (peat * gib) (largestFree (s.taken true) 512 * gib))
      | some x, some y =>
        let w : Winner := { ch := ch, tag := h.tag, opcode := 0x0101 }
        ((s.updPart p fun q => newPart w q.destroyedBy q.twin m x hbm y peat).startWake.toDies (.create p)).accept ch

/-- PART_CREATE (R380). -/
def execPartCreate (ch : Nat) (s : State) : Host.Outcome State Fault Refusal := .next (s.runCommand 0x0101 ch (State.partCreateOwn ch))

/-- Zero-fill a partition's ranges, hub window, frond stores and local stores (R209). -/
def State.fillPart (p : Nat) (s : State) : State :=
  let q := s.getPart p
  forAll (groupsOf q.groups) State.clearGroup
    { s with far := ((s.far.zero q.hbmBase (q.hbmGib * gib)).zero q.peatBase (q.peatGib * gib)).zero (hubWindow p) windowSize }

/-- A channel holds an accepted command of this opcode for a partition. -/
def State.holds (s : State) (ch op p : Nat) : Bool :=
  match (s.getChan ch).held with
  | some h => h.opcode == op && h.part == p && h.acked
  | none => false

/-- The fills can finish: no HBM channel retrains, and the hub links of the dies carry traffic (R20, R205). -/
def State.fillsRun (s : State) : Bool := s.mem.retraining.isEmpty && (List.range 4).all fun l => Tab.get .up s.dies.link l == .up

/-- PART_CREATE_FILL_DONE (R209, R340): not before every domain is back. -/
def State.partCreateFillDone (p : Nat) (s : State) : State :=
  let q := s.getPart p
  if q.life = .filling ∧ s.aon.park = .no ∧ s.fillsRun then
    let s1 := (s.fillPart p).updPart p fun q => { q with life := .exists_ }
    if s1.holds q.createdBy.ch 0x0101 p then s1.answer q.createdBy.ch .ok [] else s1
  else s

/-- PART_CREATE_FILL_DONE. -/
def execPartCreateFillDone (part : Nat) (s : State) : Host.Outcome State Fault Refusal := .next (s.partCreateFillDone part)

/-! ### PART_DESTROY and PART_QUERY -/

/-- PART_DESTROY (R212, R318, R377): groups, ranges, windows and contexts are freed without a fill. -/
def State.partDestroyOwn (ch : Nat) (h : Held) (s : State) : State :=
  let p := h.part
  if (s.getPart p).live then s.conflict ch (s.getPart p).startedBy
  else
    let s1 := ((s.closeAllCtx p).releaseWins p).updPart p fun q =>
      { life := .destroyed, createdBy := q.createdBy, twin := q.twin.counters, destroyedBy := { ch := ch, tag := h.tag, opcode := 0x0102 } }
    (if s1.aon.park = .parked then s1 else s1.switchDomains).answerAfterWake ch .ok

/-- PART_DESTROY. -/
def execPartDestroy (ch : Nat) (s : State) : Host.Outcome State Fault Refusal :=
  .next (s.runCommand 0x0102 ch fun h _ s => s.partDestroyOwn ch h)

/-- Code of a pattern state (11 *PART_QUERY reply*). -/
def PatState.code : PatState → Nat
  | .empty => 0 | .loaded => 1 | .armed => 2 | .running => 3 | .halted => 4

/-- Low and high word of a 64-bit value. -/
def words64 (v : Nat) : List Nat := [v % 2 ^ 32, v / 2 ^ 32 % 2 ^ 32]

/-- Reply words of PART_QUERY. -/
def State.partWords (s : State) (p : Nat) : List Nat :=
  let q := s.getPart p
  let live := (groupsOf q.groups).filter fun g => !(s.faults.retired.getLsbD g)
  [1 + 2 ^ 8 * q.pat.code + 2 ^ 16 * q.createdBy.tag, (s.fronds p).length + 2 ^ 16 * live.length] ++ words64 q.hbmBase ++ words64 q.peatBase
    ++ [q.hbmGib + 2 ^ 16 * q.peatGib] ++ (List.range 5).map fun i => q.groups.toNat / 2 ^ (32 * i) % 2 ^ 32

/-- PART_QUERY. -/
def execPartQuery (ch : Nat) (s : State) : Host.Outcome State Fault Refusal :=
  .next (s.runCommand 0x0103 ch fun h _ s => s.answer ch .ok (s.partWords h.part))

end Sys2Proof.Machine
end

