-- ==== Sys2Proof/Machine/MemErr.lean ====
section
/-! DEFINITION. Memory errors: the counters, fault classes and causes of corrected and uncorrected errors, by unit (R187, R188, R201 to
R204). -/

namespace Sys2Proof.Machine

/-- Count up at a key of a 32-bit table (R8, R202). -/
def countAt (t : Tab Nat) (k : Nat) : Tab Nat := Tab.upd 0 t k (satAdd 32 · 1)

/-- One corrected error of a unit (R201, R202). -/
def State.memCe (u : MemUnit) (s : State) : State :=
  match u with
  | .hbm st q => State.faultEvent 3 (64 * st + q) 0 0 { s with mem := { s.mem with hbmCe := countAt s.mem.hbmCe (64 * st + q) } }
  | .peat k => State.faultEvent 6 k 0 0 { s with mem := { s.mem with peatCe := countAt s.mem.peatCe k } }
  | .hub => State.faultEvent 8 0 0 0 { s with mem := { s.mem with hubCe := satAdd 32 s.mem.hubCe 1 } }
  | .host => s

/-- One uncorrected error of a unit, a read that failed or a write that was not accepted; the address of a write goes into the log entry, 0 stands there
for a read (R202, R204, R430). -/
def State.memUe (u : MemUnit) (addr : Nat) (s : State) : State :=
  match u with
  | .hbm st q =>
    (State.faultEvent 4 (64 * st + q) 0 addr { s with mem := { s.mem with hbmUe := countAt s.mem.hbmUe (64 * st + q) } }).raise .hbmUe
  | .peat k => (State.faultEvent 7 k 0 addr { s with mem := { s.mem with peatUe := countAt s.mem.peatUe k } }).raise .peatUe
  | .hub => (State.faultEvent 9 0 0 addr { s with mem := { s.mem with hubUe := satAdd 32 s.mem.hubUe 1 } }).raise .hubUe
  | .host => s

/-- The unit that holds a package address (R185, R187, R188). -/
def unitAt (a : Nat) : MemUnit :=
  if a < peatStart then .hbm (hbmLocate a).2.1 (hbmLocate a).2.2.1
  else if a < hubStart then .peat (peatLocate a).1
  else .hub

/-- An error of an access: its unit, and for an uncorrected one the address for the log. -/
structure MemEvent where
  unit : MemUnit
  ue : Option Nat

/-- CLASS and unit of an error, in the order in which errors of one tick count (R409). -/
def MemEvent.order (e : MemEvent) : Nat :=
  match e.unit with
  | .hbm st q => 4096 * (if e.ue.isSome then 4 else 3) + 64 * st + q
  | .peat k => 4096 * (if e.ue.isSome then 7 else 6) + k
  | .hub => 4096 * (if e.ue.isSome then 9 else 8)
  | .host => 4096 * 16

/-- One error counts. -/
def State.memEvent (e : MemEvent) (s : State) : State := match e.ue with | some a => s.memUe e.unit a | none => s.memCe e.unit
/-- The errors of one access count in ascending CLASS, then unit (R409). -/
def State.memEvents (es : List MemEvent) (s : State) : State := forAll (sortOn MemEvent.order es) State.memEvent s
/-- Corrected errors. -/
def corrected (us : List MemUnit) : List MemEvent := us.map fun u => ⟨u, none⟩

/-! ### The ways to memory (R14, R20, R205) -/

/-- A die link carries traffic: it does not retrain and is not lost (R20). -/
def State.linkOpen (s : State) (l : Nat) : Bool := Tab.get .up s.dies.link l == .up
/-- Die links between two dies: none within a die, the half-partner link, or the two hub links. -/
def diePath (d e : Nat) : List Nat := if d = e then [] else if d / 2 = e / 2 then [4 + d / 2] else [ringOf d, ringOf e]
/-- Die links between a die, or the hub, and a memory unit. -/
def unitPath (from_ : Option Nat) : MemUnit → List Nat
  | .hbm st _ => match from_ with | some d => diePath d (st / 3) | none => [ringOf (st / 3)]
  | _ => match from_ with | some d => [ringOf d] | none => []
/-- An access to a unit goes on now: its links carry traffic, and its channel does not retrain (R20, R205). -/
def State.unitOpen (s : State) (from_ : Option Nat) (u : MemUnit) : Bool :=
  (unitPath from_ u).all s.linkOpen && (match u with | .hbm st q => !s.mem.retraining.contains (32 * st + q / 2) | _ => true)
/-- Every unit under n bytes at a package address goes on now (R187, R188: 2 KiB pieces of one unit each). -/
def State.rangeOpen (s : State) (from_ : Option Nat) (a n : Nat) : Bool :=
  (List.range (cdiv (a % 2048 + n) 2048)).all fun i => s.unitOpen from_ (unitAt (a / 2048 * 2048 + 2048 * i))

/-- The package address that a pattern's own-window alias or a package address names for partition p (R185, R189). -/
def farAddr (p a : Nat) : Nat := if aliasStart ≤ a then hubWindow p + (a - aliasStart) else a

/-- The n bytes at a package address lie within the partition's HBM or peat allocation or its own hub window (R186). -/
def State.farOk (s : State) (p a n : Nat) : Bool :=
  let q := s.getPart p
  (decide (q.hbmBase ≤ a) && decide (a + n ≤ q.hbmBase + q.hbmGib * gib))
    || (decide (q.peatBase ≤ a) && decide (a + n ≤ q.peatBase + q.peatGib * gib))
    || (decide (aliasStart ≤ a) && decide (a + n ≤ aliasStart + windowSize))

/-- Set MEM in the vote of the step in progress of a RUNNING pattern (R164, R203, R218). -/
def State.setMem (p : Nat) (s : State) : State :=
  if (s.getPart p).pat = .running then s.updRun p fun r => { r with mem := true } else s

end Sys2Proof.Machine
end

