-- ==== Sys2Proof/Machine/Descriptors.lean ====
section
/-! DEFINITION. Spool stream descriptors and fused instruction records: their fields and the ranges that admission and issue check (R69 to
R71, R89, R131, R147, R149, R287). -/

namespace Sys2Proof.Machine

/-! ### Spool descriptors (R69) -/

/-- Elements of a 64-block group of a format code in bytes (R89). -/
def blockGroup (fmt : Nat) : Nat := if fmt = 4 ∨ fmt = 5 then 2112 else if fmt = 6 ∨ fmt = 7 then 1600 else 1088

/-- Slot size of a burst under a CONVERT code (R69, R89). -/
def slotSize (convert burst : Nat) : Nat :=
  if convert = 1 ∨ convert = 2 then burst / 2112 * 8192 else if convert = 3 ∨ convert = 4 then 2 * burst else burst

/-- The stream a descriptor describes. -/
def streamParse (b : List Byte) : Stream :=
  { id := 0, far := fld b 0 8, stride := fld b 8 4, count := fld b 0xC 4, burst := fld b 0x10 3, convert := fld b 0x13 1,
    ring := 64 * fld b 0x14 2, slots := fld b 0x16 1, depth := fld b 0x17 1, token := fld b 0x18 2, write := fld b 0x1A 1 == 1 }

/-- The first offset at which a list of checks fails. -/
def firstBad (cs : List (Bool × Nat)) : Option Nat := (cs.find? fun c => !c.1).map (·.2)

/-- What R71 refuses in a descriptor: the offset of the first field that breaks it, in ascending order; a condition that joins fields stands at the last
of them, one that joins the frond record too at the last of the descriptor (R428). -/
def spoolBad (b : List Byte) (pages : Nat) : Option Nat :=
  let d := streamParse b
  firstBad [(d.far % 64 == 0, 0), (d.stride % 64 == 0, 8), (d.count != 0, 0xC),
    (d.burst % 64 == 0 && decide (64 ≤ d.burst) && decide (d.burst ≤ 2 ^ 20), 0x10), (decide (d.convert ≤ 4), 0x13),
    (!(d.convert == 1 || d.convert == 2) || d.burst % 2112 == 0, 0x13), (decide (2 ≤ d.slots) && decide (d.slots ≤ 16), 0x16),
    (decide (d.ring + d.slots * slotSize d.convert d.burst ≤ 4096 * pages), 0x16),
    (decide (1 ≤ d.depth) && decide (d.depth ≤ d.slots), 0x17), (decide (d.token + d.slots ≤ 4096), 0x18), (decide (fld b 0x1A 1 ≤ 1), 0x1A),
    (!(d.write && d.convert != 0), 0x1A), (zeros b 0x1B 0x1C, 0x1B), (zeros b 0x1C 0x20, 0x1C)]

/-! ### Fused instruction records (R147) -/

/-- The record that 64 bytes spell. -/
def fusedParse (b : List Byte) : Fused :=
  { op := fld b 0 1, finite := bit (fld b 1 1) 0, landWiden := bit (fld b 1 1) 1, narrow := bit (fld b 1 1) 2, group := fld b 2 2,
    es := fld b 4 4, planDone := fld b 8 4, cvt := fld b 0xC 1, redFmt := fld b 0xD 1, aop := fld b 0x10 4, src := fld b 0x14 4,
    dst := fld b 0x18 4, chunk := fld b 0x1C 4, length := fld b 0x20 8, tokenIn := fld b 0x28 2, tokenOut := fld b 0x2A 2,
    done := fld b 0x2C 2, peer := fld b 0x2E 2, slots := fld b 0x30 1 }

/-- A CVT that a narrowing operation may carry (R80, R81): bit 7 zero, a format of R79, not FP32. -/
def cvtNarrows (c : Nat) : Bool := decide (c < 128) && decide (c % 16 < 9) && c % 16 != 1

/-- What a record breaks of the ranges of R131, R147, R149 and R287: the offset of the first field in ascending order, a condition that joins
fields at the last of them (R428). 'members' gives the size of a group of the image. -/
def fusedBad (b : List Byte) (members : Nat → Option Nat) : Option Nat :=
  let r := fusedParse b
  let hop := r.op == 1 || r.op == 2
  let m := if hop then some 1 else members r.group
  let n := m.getD 1
  firstBad [(decide (1 ≤ r.op) && decide (r.op ≤ 6), 0), (decide (fld b 1 1 < 8), 1), (!r.landWiden || r.op == 4, 1),
    (!r.narrow || r.op == 1 || r.op == 3 || r.op == 5, 1), (if hop then decide (r.group < 12) else m.isSome, 2),
    (if r.narrow then cvtNarrows r.cvt else r.cvt == 0, 0xC),
    (if hop || r.op == 4 then r.redFmt == 0 else r.redFmt == 1 || (r.redFmt == 2 && r.narrow && r.cvt % 16 == 2), 0xD),
    (zeros b 0xE 0x10, 0xE), (r.chunk % 256 == 0 && decide (256 ≤ r.chunk) && decide (r.chunk ≤ 2 ^ 20), 0x1C),
    (!(r.op == 3) || r.length % (n * r.chunk) == 0, 0x20), (!(r.op == 5 || r.op == 6) || r.length % (n * 256) == 0, 0x20),
    (decide (r.tokenIn < 4096), 0x28), (decide (r.tokenOut < 4096), 0x2A), (decide (r.done < 4096), 0x2C),
    (decide (2 ≤ r.slots) && decide (r.slots ≤ 16), 0x30), (decide (r.tokenIn + r.slots ≤ 4096) && decide (r.tokenOut + r.slots ≤ 4096), 0x30),
    (zeros b 0x31 0x40, 0x31)]

end Sys2Proof.Machine
end

