-- ==== Sys2Proof/Machine/Groups.lean ====
section
/-! DEFINITION. Collective groups: spans, positions, rings, ranks, trees and the pieces of a tensor (R120, R164, R286 to R290). -/

namespace Sys2Proof.Machine

/-- The axes of a group in the order X, Y, Z (R286). -/
def Group.axisList (g : Group) : List Nat := (List.range 3).filter fun a => bit g.axes a
/-- Lower bound on an axis. -/
def Group.lo (g : Group) (a : Nat) : Nat := nth 0 g.box (2 * a)
/-- Upper bound on an axis. -/
def Group.hi (g : Group) (a : Nat) : Nat := nth 0 g.box (2 * a + 1)
/-- Span of an axis. -/
def Group.span (g : Group) (a : Nat) : Nat := g.hi a + 1 - g.lo a
/-- Position of a member on an axis. -/
def Group.pos (g : Group) (c : Coord) (a : Nat) : Nat := coordOn c a - g.lo a
/-- An axis of the group is a ring: it spans the fabric's whole axis and is at least 3 long (R286). -/
def Group.ring (g : Group) (size : Coord) (a : Nat) : Bool := g.span a == coordOn size a && decide (3 ≤ g.span a)
/-- Rank of a member (R286). -/
def Group.rank (g : Group) (c : Coord) : Nat := g.axisList.foldl (fun r a => r * g.span a + g.pos c a) 0
/-- Members of a group. -/
def Group.size (g : Group) : Nat := g.axisList.foldl (fun r a => r * g.span a) 1

/-- Root position of an axis (R290). -/
def Group.root (g : Group) (a : Nat) : Nat := (g.span a - 1) / 2
/-- A coordinate one step away on an axis. -/
def stepOn (c : Coord) (a : Nat) (up : Bool) : Coord := coordPut c a (if up then coordOn c a + 1 else coordOn c a - 1)
/-- The parent of a member, none for the tree root (R290). -/
def Group.parent (g : Group) (c : Coord) : Option Coord :=
  (g.axisList.reverse.find? fun a => g.pos c a != g.root a).map fun a => stepOn c a (decide (g.pos c a < g.root a))
/-- The neighbours of a member within the bounds. -/
def Group.near (g : Group) (c : Coord) : List Coord :=
  g.axisList.flatMap fun a =>
    (if g.lo a < coordOn c a then [stepOn c a false] else []) ++ (if coordOn c a < g.hi a then [stepOn c a true] else [])
/-- Put a coordinate into a list in ascending rank. -/
def Group.insert (g : Group) (c : Coord) : List Coord → List Coord
  | [] => [c]
  | d :: t => if g.rank c ≤ g.rank d then c :: d :: t else d :: g.insert c t
/-- The children of a member in ascending rank (R290). -/
def Group.children (g : Group) (c : Coord) : List Coord := ((g.near c).filter fun d => g.parent d == some c).foldr g.insert []
/-- The tree neighbours of a member in tree order (R290). -/
def Group.tree (g : Group) (c : Coord) : List Coord := g.children c ++ (g.parent c).toList

/-- The group of an image with a GROUP_ID (R120). -/
def Image.group (i : Image) (id : Nat) : Option Group := i.groups.find? fun g => g.id == id
/-- The group of all three axes whose bounds are the job box (R164). -/
def Image.jobGroup (i : Image) : Group := { id := 0xFFFF, axes := 7, box := i.job }

/-! ### Pieces (R287) -/

/-- Where the pieces of a stage on an axis lie: offset and length of the range that the earlier axes leave to a member. -/
def Group.range (g : Group) (c : Coord) (total a : Nat) : Nat × Nat :=
  (g.axisList.filter fun b => decide (b < a)).foldl (fun r b => (r.1 + g.pos c b * (r.2 / max (g.span b) 1), r.2 / max (g.span b) 1)) (0, total)
/-- Bytes of one piece of a stage. -/
def Group.pieceLen (g : Group) (c : Coord) (total a : Nat) : Nat := (g.range c total a).2 / max (g.span a) 1
/-- Offset of piece j of a stage. -/
def Group.pieceOff (g : Group) (c : Coord) (total a j : Nat) : Nat := (g.range c total a).1 + j * g.pieceLen c total a

/-! ### Neighbours' ports -/

/-- Direction code from a package to a neighbour one step away, without the wrap link. -/
def dirTo (c d : Coord) : Option Nat := (nextAxis c d).map fun a => if coordOn c a < coordOn d a then 2 * a else 2 * a + 1
/-- The port of a direction on which a partition's pattern has LINK_SLOTS (R146, R293); of several, the lowest. -/
def State.slotPort (s : State) (p dir : Nat) : Option Nat := (s.portsOf dir).find? fun i => decide (0 < (s.getPart p).image.amount 5 i)

end Sys2Proof.Machine
end

