-- ==== Sys2Proof/Machine/Fp.lean ====
section
/-! DEFINITION. Floating-point values and operations: exact values, one rounding per operation, canonical NaNs, signed zeros, maximum,
minimum, comparison and totalOrder (R61, R66, R82 to R86, R92 to R96, R109, R149). -/

namespace Sys2Proof.Machine

/-- A floating-point value: NaN, an infinity, or (-1)^neg x m x 2^e exactly. -/
inductive Fp where
  | nan
  | inf (neg : Bool)
  | num (neg : Bool) (m : Nat) (e : Int)
deriving DecidableEq, Repr, Inhabited

/-- A format by its magnitude codes: significand bits, exponent of the last place of a subnormal, largest finite code, infinity and
canonical NaN codes (R83 to R86, R92), and the bits of an encoding, sign included. -/
structure FpFmt where
  p : Nat
  emin : Int
  maxCode : Nat
  inf : Nat
  nan : Nat
  width : Nat
deriving DecidableEq, Repr

/-- FP32. -/
def fp32 : FpFmt := ⟨24, -149, 0x7F7FFFFF, 0x7F800000, 0x7FC00000, 32⟩
/-- F19 without its container's low 13 bits (R84). -/
def f19 : FpFmt := ⟨11, -136, 0x3FBFF, 0x3FC00, 0x3FE00, 19⟩
/-- FP16. -/
def fp16 : FpFmt := ⟨11, -24, 0x7BFF, 0x7C00, 0x7E00, 16⟩
/-- BF16. -/
def bf16 : FpFmt := ⟨8, -133, 0x7F7F, 0x7F80, 0x7FC0, 16⟩

/-- Rounding: to nearest-even; toward zero to the largest finite value; toward zero with overflow to infinity (R61, R82, R109). -/
inductive Rnd where
  | rne | toZero | alignTrunc
deriving DecidableEq, Repr

/-- The value of a magnitude code. -/
def FpFmt.valueOf (f : FpFmt) (neg : Bool) (c : Nat) : Fp :=
  if f.inf < c then .nan
  else if c = f.inf then .inf neg
  else
    let ex := c / 2 ^ (f.p - 1)
    let fr := c % 2 ^ (f.p - 1)
    if ex = 0 then .num neg fr f.emin else .num neg (2 ^ (f.p - 1) + fr) (f.emin + (ex : Int) - 1)

/-- The value of an encoding. -/
def FpFmt.decode (f : FpFmt) (w : Nat) : Fp := f.valueOf (bit w (f.width - 1)) (w % 2 ^ (f.width - 1))

/-- m / 2^k with the rounding asked for. -/
def shiftRound (rne : Bool) (m k : Nat) : Nat :=
  let q := m / 2 ^ k
  let r := m % 2 ^ k
  if rne ∧ (2 ^ k < 2 * r ∨ (2 * r = 2 ^ k ∧ q % 2 = 1)) then q + 1 else q

/-- Magnitude code of m x 2^e with p significand bits and least exponent emin, without regard to overflow. -/
def roundCode (p : Nat) (emin : Int) (rne : Bool) (m : Nat) (e : Int) : Nat :=
  if m = 0 then 0
  else
    let q := max (e + (m.log2 : Int) + 1 - p) emin
    let n := if q ≤ e then m * 2 ^ (e - q).toNat else shiftRound rne m (q - e).toNat
    (q - emin).toNat * 2 ^ (p - 1) + n

/-- Put the sign on a magnitude code. -/
def FpFmt.signed (f : FpFmt) (neg : Bool) (c : Nat) : Nat := c + if neg then 2 ^ (f.width - 1) else 0

/-- Encode a value with one rounding; NaN gives the canonical NaN (R92). -/
def FpFmt.encode (f : FpFmt) (md : Rnd) : Fp → Nat
  | .nan => f.nan
  | .inf neg => f.signed neg f.inf
  | .num neg m e =>
    let c := roundCode f.p f.emin (md == .rne) m e
    f.signed neg (if f.maxCode < c then (if md = .toZero then f.maxCode else f.inf) else c)

/-! ### Exact operations -/

/-- Negation flag of a value. -/
def Fp.neg : Fp → Bool
  | .nan => false
  | .inf n => n
  | .num n _ _ => n

/-- Exact sum of two finite values as a signed integer at the lesser exponent. -/
def Fp.addNum (n1 : Bool) (m1 : Nat) (e1 : Int) (n2 : Bool) (m2 : Nat) (e2 : Int) : Fp :=
  let e := min e1 e2
  let a : Int := (m1 : Int) * 2 ^ (e1 - e).toNat
  let b : Int := (m2 : Int) * 2 ^ (e2 - e).toNat
  let s := (if n1 then -a else a) + (if n2 then -b else b)
  if s = 0 then .num (n1 && n2) 0 e else .num (decide (s < 0)) s.natAbs e

/-- Sum (R92, R93). -/
def Fp.add : Fp → Fp → Fp
  | .nan, _ => .nan
  | _, .nan => .nan
  | .inf a, .inf b => if a = b then .inf a else .nan
  | .inf a, _ => .inf a
  | _, .inf b => .inf b
  | .num n1 m1 e1, .num n2 m2 e2 => Fp.addNum n1 m1 e1 n2 m2 e2

/-- Product (R92, R93). -/
def Fp.mul : Fp → Fp → Fp
  | .nan, _ => .nan
  | _, .nan => .nan
  | .inf a, .inf b => .inf (a != b)
  | .inf a, .num b m _ => if m = 0 then .nan else .inf (a != b)
  | .num a m _, .inf b => if m = 0 then .nan else .inf (a != b)
  | .num n1 m1 e1, .num n2 m2 e2 => .num (n1 != n2) (m1 * m2) (e1 + e2)

/-- Quotient (R66, R93): at least 64 exact bits and a sticky bit, which rounds as the exact quotient does. -/
def Fp.div : Fp → Fp → Fp
  | .nan, _ => .nan
  | _, .nan => .nan
  | .inf _, .inf _ => .nan
  | .inf a, .num b _ _ => .inf (a != b)
  | .num a _ _, .inf b => .num (a != b) 0 0
  | .num n1 m1 e1, .num n2 m2 e2 =>
    if m2 = 0 then (if m1 = 0 then .nan else .inf (n1 != n2))
    else
      let k := 64 + m2.log2
      let q := m1 * 2 ^ k / m2
      let r := m1 * 2 ^ k % m2
      .num (n1 != n2) (2 * q + if r = 0 then 0 else 1) (e1 - e2 - k - 1)

/-- Integer square root, bit by bit from bit n - 1 down. -/
def isqrt (v : Nat) : Nat → Nat → Nat
  | 0, r => r
  | n + 1, r => isqrt v n (if (r + 2 ^ n) * (r + 2 ^ n) ≤ v then r + 2 ^ n else r)

/-- Square root (R66), with a sticky bit. -/
def Fp.sqrt : Fp → Fp
  | .nan => .nan
  | .inf n => if n then .nan else .inf false
  | .num n m e =>
    if m = 0 then .num n 0 e
    else if n then .nan
    else
      let k : Nat := if e % 2 = 0 then 80 else 81
      let v := m * 2 ^ k
      let r := isqrt v (v.log2 / 2 + 1) 0
      .num false (2 * r + if r * r = v then 0 else 1) ((e - k) / 2 - 1)

/-! ### Words -/

/-- An FP32 word's value. -/
def fpOf (w : Word) : Fp := fp32.decode w.toNat
/-- An F19 container's value: its low 13 bits are ignored (R84). -/
def f19Of (w : Word) : Fp := f19.decode (w.toNat / 2 ^ 13)
/-- Read an operand as FP32 or as F19. -/
def fpRead (isF19 : Bool) (w : Word) : Fp := if isF19 then f19Of w else fpOf w

/-- F19 results are truncated, or rounded with F19_RNE (R61, R82). -/
def f19Rnd (rne : Bool) : Rnd := if rne then .rne else .toZero
/-- Write an FP32 or F19 result (R61, R66, R84). -/
def fpWrite (isF19 rne : Bool) (v : Fp) : Word :=
  if isF19 then BitVec.ofNat 32 (2 ^ 13 * f19.encode (f19Rnd rne) v) else BitVec.ofNat 32 (fp32.encode .rne v)

/-- A NaN word. -/
def isNan (w : Word) : Bool := decide (0x7F800000 < w.toNat % 2 ^ 31)
/-- Neither an infinity nor a NaN. -/
def isFinite (w : Word) : Bool := decide (w.toNat % 2 ^ 31 < 0x7F800000)

/-- Place of an FP32 encoding under totalOrder (R96). Among NaNs of one sign totalOrder ranks by payload, so that an argmax returns the first of the
positive NaNs with the greatest payload; R96's closing sentence, which names the first positive NaN, is read as that of NaNs that are equal: DESIGN
CHOICE, log entry 34. -/
def orderKey (w : Word) : Int := if w.getLsbD 31 then -1 - (w.toNat % 2 ^ 31 : Nat) else (w.toNat : Int)

/-- Maximum and minimum (R95): with no NaN, totalOrder is the order of values with -0 below +0. -/
def fpMaxMin (wantMax : Bool) (a b : Word) : Word :=
  if isNan a || isNan b then 0x7FC00000#32
  else if wantMax then (if orderKey b ≤ orderKey a then a else b) else (if orderKey a ≤ orderKey b then a else b)

/-- The comparison of R94; -0 equals +0 and a NaN is unordered. -/
def fpCompare (p : Cmp) (a b : Word) : Bool :=
  let un := isNan a || isNan b
  let key (w : Word) : Int := if w.toNat % 2 ^ 31 = 0 then 0 else orderKey w + (if w.getLsbD 31 then 1 else 0)
  match p with
  | .eq => !un && key a == key b
  | .ne => un || key a != key b
  | .lt => !un && decide (key a < key b)
  | .le => !un && decide (key a ≤ key b)
  | .gt => !un && decide (key b < key a)
  | .ge => !un && decide (key b ≤ key a)

/-- A container as an operation of a format reads it: an F19 operand loses its low 13 bits. -/
def operand (isF19 : Bool) (w : Word) : Word := if isF19 then w &&& 0xFFFFE000#32 else w

/-- Two-operand arithmetic with one rounding (R61, R66, R95). -/
def fpBin (op : FpBin) (isF19 rne : Bool) (a b : Word) : Word :=
  match op with
  | .add => fpWrite isF19 rne ((fpRead isF19 a).add (fpRead isF19 b))
  | .mul => fpWrite isF19 rne ((fpRead isF19 a).mul (fpRead isF19 b))
  | .div => fpWrite isF19 rne ((fpRead isF19 a).div (fpRead isF19 b))
  | .max => fpMaxMin true (operand isF19 a) (operand isF19 b)
  | .min => fpMaxMin false (operand isF19 a) (operand isF19 b)

/-- a x b + c with one rounding. -/
def fpFma (isF19 rne : Bool) (a b c : Word) : Word := fpWrite isF19 rne (((fpRead isF19 a).mul (fpRead isF19 b)).add (fpRead isF19 c))

/-- FP16 addition of a reduction (R149). -/
def fp16Add (a b : Nat) : Nat := fp16.encode .rne ((fp16.decode a).add (fp16.decode b))

/-- FP32 addition that truncates at alignment (R48, R50, R109). -/
def addTrunc (a b : Word) : Word := BitVec.ofNat 32 (fp32.encode .alignTrunc ((fpOf a).add (fpOf b)))

end Sys2Proof.Machine
end

