-- ==== Sys2Proof/Machine/Convert.lean ====
section
/-! DEFINITION. Narrowing and widening conversions: thresholds, flush, counts, MX scale choice and elements (R80, R81, R86 to R91, R97 to
R107). -/

namespace Sys2Proof.Machine

/-! ### Conversion control (R80, R81) -/

/-- DST of a CVT. -/
def cvtDst (c : Byte) : Nat := c.toNat % 16
/-- NAN_ON_OVERFLOW of a CVT. -/
def cvtNan (c : Byte) : Bool := c.getLsbD 4
/-- CLASS of a CVT. -/
def cvtClass (c : Byte) : Nat := bits c.toNat 6 5
/-- A CVT that a narrowing operation may use: otherwise the operation is an undefined instruction (R81). -/
def cvtOk (c : Byte) : Bool := decide (c.toNat < 128) && decide (cvtDst c < 9) && cvtDst c != 1
/-- DST is an MX format. -/
def isMx (fmt : Nat) : Bool := decide (4 ≤ fmt) && decide (fmt ≤ 8)

/-! ### Narrowing (R97 to R101, R104) -/

/-- An element format: significand bits, least exponent, largest finite code, overflow threshold H = h x 2^he, infinity and NaN codes where
it has them, and width. -/
structure NFmt where
  p : Nat
  emin : Int
  maxCode : Nat
  h : Nat
  he : Int
  inf : Option Nat
  nan : Option Nat
  width : Nat
deriving DecidableEq, Repr

/-- The destination formats by format code. -/
def nfmt (fmt : Nat) : NFmt :=
  match fmt with
  | 0 => ⟨11, -136, 0x3FBFF, 4095, 116, some 0x3FC00, some 0x3FE00, 19⟩
  | 2 => ⟨11, -24, 0x7BFF, 4095, 4, some 0x7C00, some 0x7E00, 16⟩
  | 3 => ⟨8, -133, 0x7F7F, 511, 119, some 0x7F80, some 0x7FC0, 16⟩
  | 4 => ⟨4, -9, 0x7E, 29, 4, none, some 0x7F, 8⟩
  | 5 => ⟨3, -16, 0x7B, 15, 12, some 0x7C, some 0x7E, 8⟩
  | 6 => ⟨3, -4, 0x1F, 15, 1, none, none, 6⟩
  | 7 => ⟨4, -3, 0x1F, 31, -2, none, none, 6⟩
  | _ => ⟨2, -1, 0x7, 7, 0, none, none, 4⟩

/-- One narrowed element: its magnitude code, and whether it is an overflow or an underflow. -/
structure Narrowed where
  code : Nat
  ovf : Bool := false
  unf : Bool := false
deriving DecidableEq, Repr, Inhabited

/-- m x 2^e is at least h x 2^g. -/
def atLeast (m : Nat) (e : Int) (h : Nat) (g : Int) : Bool :=
  let b := min e g
  decide (h * 2 ^ (g - b).toNat ≤ m * 2 ^ (e - b).toNat)

/-- Overflow outcome of a format (R97): infinity, NaN where asked for, else the largest finite code. -/
def NFmt.overflow (f : NFmt) (mx nanOn : Bool) : Nat :=
  if mx then (if nanOn then f.nan.getD f.maxCode else f.maxCode) else f.inf.getD f.maxCode

/-- The steps of R97 for a finite or infinite value. 'trunc' is F19 with F19_RNE = 0, which never overflows (R100). -/
def narrowNum (f : NFmt) (mx nanOn trunc : Bool) (v : Fp) : Narrowed :=
  match v with
  | .nan => { code := f.nan.getD 0 }
  | .inf _ => match f.inf, f.nan with
    | some c, _ => { code := c }
    | none, some c => { code := c }
    | none, none => { code := f.maxCode, ovf := true }
  | .num _ m e =>
    if m = 0 then { code := 0 }
    else if !trunc && atLeast m e f.h f.he then { code := f.overflow mx nanOn, ovf := true }
    else if !atLeast m e 1 f.emin then { code := 0, unf := true }
    else { code := min (roundCode f.p f.emin (!trunc) m e) f.maxCode }

/-- A NaN into F19, FP16 or BF16: sign and most significant payload bits kept, quiet bit set (R100, R101). -/
def narrowNan (fmt : Nat) (w : Word) : Nat :=
  let fr := w.toNat % 2 ^ 23
  if fmt = 0 then 0x3FC00 + (fr / 2 ^ 13 ||| 0x200)
  else if fmt = 2 then 0x7C00 + (fr / 2 ^ 13 ||| 0x200)
  else 0x7F80 + (fr / 2 ^ 16 ||| 0x40)

/-- Narrow an FP32 word into F19, FP16 or BF16: encoding (an F19 container, or 16 bits), overflow and underflow. -/
def narrowIeee (fmt : Nat) (rne : Bool) (w : Word) : Narrowed :=
  let f := nfmt fmt
  let n : Narrowed := if isNan w then { code := narrowNan fmt w } else narrowNum f false false (fmt == 0 && !rne) (fpOf w)
  let c := n.code + if w.getLsbD 31 then 2 ^ (f.width - 1) else 0
  { n with code := if fmt = 0 then 2 ^ 13 * c else c }

/-! ### MX blocks (R86 to R90, R102 to R104) -/

/-- emax of R102. -/
def mxEmax (fmt : Nat) : Int := nth' [8, 15, 4, 2, 2] (fmt - 4)
where
  nth' (l : List Int) (i : Nat) : Int := l.getD i 0

/-- Exponent of the largest finite magnitude of a block, none when it has no finite non-zero element. -/
def blockExp (vs : List Word) : Option Int :=
  vs.foldl (fun a w => match fpOf w with
    | .num _ m e => if m = 0 then a else
        let x := (m.log2 : Int) + e
        match a with | some y => some (max x y) | none => some x
    | _ => a) none

/-- Scale of a block (R102, R103). -/
def mxScale (fmt : Nat) (vs : List Word) : Nat :=
  if (nfmt fmt).nan = none ∧ vs.any isNan then 255
  else match blockExp vs with
    | none => 127
    | some x => (max (x - mxEmax fmt + 127) (if fmt = 5 then 7 else 0)).toNat

/-- An element divided by the block scale (exact). -/
def scaled (scale : Nat) (v : Fp) : Fp :=
  match v with
  | .num n m e => .num n m (e - ((scale : Int) - 127))
  | x => x

/-- One element of a block under its scale (R104). -/
def mxElem (fmt scale : Nat) (nanOn : Bool) (w : Word) : Narrowed :=
  let f := nfmt fmt
  let n := narrowNum f true nanOn false (scaled scale (if isNan w then .nan else fpOf w))
  { n with code := n.code + if w.getLsbD 31 then 2 ^ (f.width - 1) else 0 }

/-- A narrowed block: scale, element codes, overflows and underflows. -/
structure MxBlock where
  scale : Nat
  elems : List Nat
  ovf : Nat
  unf : Nat
deriving DecidableEq, Repr, Inhabited

/-- Narrow 32 FP32 words into one MX block. -/
def mxBlock (fmt : Nat) (nanOn : Bool) (vs : List Word) : MxBlock :=
  let sc := mxScale fmt vs
  if sc = 255 then { scale := 255, elems := vs.map fun _ => 0, ovf := 0, unf := 0 }
  else
    let ns := vs.map (mxElem fmt sc nanOn)
    { scale := sc, elems := ns.map (·.code), ovf := (ns.filter (·.ovf)).length, unf := (ns.filter (·.unf)).length }

/-- Bytes of a block's elements: element i in bits w i to w i + w - 1 (R90). -/
def packElems (w : Nat) (es : List Nat) : List Byte := leBytes (4 * w) (es.foldr (fun c a => c + 2 ^ w * a) 0)

/-- Element codes of a block's bytes. -/
def unpackElems (w : Nat) (b : List Byte) : List Nat :=
  let v := leNat b
  (List.range 32).map fun i => v / 2 ^ (w * i) % 2 ^ w

/-- Element width of an MX format. -/
def mxWidth (fmt : Nat) : Nat := (nfmt fmt).width

/-! ### Widening (R105 to R107) -/

/-- Value of an MX element without its scale (R86). -/
def elemValue (fmt c : Nat) : Fp :=
  let f := nfmt fmt
  let mag := c % 2 ^ (f.width - 1)
  let neg := bit c (f.width - 1)
  if f.maxCode < mag then (if f.inf = some mag then .inf neg else .nan)
  else
    let ex := mag / 2 ^ (f.p - 1)
    let fr := mag % 2 ^ (f.p - 1)
    if ex = 0 then .num neg fr f.emin else .num neg (2 ^ (f.p - 1) + fr) (f.emin + (ex : Int) - 1)

/-- Scale codes that widen (R106): lowest and highest. -/
def widenRange (fmt : Nat) (toF19 : Bool) : Nat × Nat :=
  (if fmt = 5 ∧ toF19 then 7 else 0, if fmt = 4 then 246 else if fmt = 5 then 239 else if fmt = 6 then 250 else 252)

/-- Widen a block: 32 containers, and whether it is a scale-range fault (R106, R107). -/
def widenBlock (fmt : Nat) (toF19 : Bool) (scale : Nat) (es : List Nat) : List Word × Bool :=
  let r := widenRange fmt toF19
  let nan : Word := 0x7FC00000#32
  let zero (c : Nat) : Bool := c % 2 ^ (mxWidth fmt - 1) == 0
  if scale = 255 then (es.map fun _ => nan, false)
  else if r.1 ≤ scale ∧ scale ≤ r.2 then
    (es.map fun c => match elemValue fmt c with
      | .nan => nan
      | .inf n => if n then 0xFF800000#32 else 0x7F800000#32
      | .num n m e => BitVec.ofNat 32 (fp32.encode .rne (.num n m (e + (scale : Int) - 127))), false)
  else if es.all zero then (es.map fun c => if c = 0 then 0 else 0x80000000#32, false)
  else (es.map fun _ => nan, true)

/-- Widen FP16 or BF16 to an F19 (and FP32) container; a NaN keeps sign and payload and gets its quiet bit (R105). -/
def widenHalf (fmt : Nat) (v : Nat) : Word :=
  let f := if fmt = 2 then fp16 else bf16
  let mag := v % 2 ^ 15
  let sign := if bit v 15 then 2 ^ 31 else 0
  if f.inf < mag then
    BitVec.ofNat 32 (sign + 0x7F800000 + ((mag % 2 ^ (f.p - 1)) * 2 ^ (24 - f.p) ||| 0x400000))
  else BitVec.ofNat 32 (fp32.encode .rne (f.decode v))

/-- Widen one element of FP16, BF16 or F19; an F19 NaN gets its quiet bit. -/
def widenWord (fmt : Nat) (w : Word) : Word :=
  if fmt = 2 ∨ fmt = 3 then widenHalf fmt (w.toNat % 2 ^ 16)
  else if isNan (w &&& 0xFFFFE000#32) then (w &&& 0xFFFFE000#32) ||| 0x400000#32 else w &&& 0xFFFFE000#32

end Sys2Proof.Machine
end

