-- ==== Sys2Proof/Machine/Array.lean ====
section
/-! DEFINITION. The matrix array: ALOAD with the weight expander, SWAP and ASTREAM, with the arithmetic of a pass (R45 to R59, R108, R109,
R154). A pass is one step; its timing is kept as the cycles in which row 0 is free and a bank is free. -/

namespace Sys2Proof.Machine

/-! ### Combinations (R52) -/

/-- K_VALID and N_VALID lie in their ranges (R54). -/
def validOk (k n : Nat) : Bool := decide (1 ≤ k) && decide (k ≤ 128) && decide (1 ≤ n) && decide (n ≤ 128)

/-- An ALOAD names a combination of R52, with parameters in the ranges of R54. A parameter out of its range is taken as a combination outside the
table, which R52 and R77 make a frond fault: DESIGN CHOICE, log entry 80. -/
def aloadOk (a : AloadArgs) : Bool := weightsOk a.wfmt a.expand && validOk a.kValid a.nValid

/-- An ASTREAM names a combination with the format that its bank holds, with parameters in the ranges of R54; otherwise as aloadOk: DESIGN CHOICE,
log entry 80. -/
def astreamOk (a : AstreamArgs) (bankFmt : Nat) : Bool :=
  actsOk bankFmt a.afmt && decide (1 ≤ a.m) && decide (a.m ≤ 4096) && decide (a.mode ≤ 2) && validOk a.kValid a.nValid

/-- Cycles that one row takes: 4 in F19 mode (R50). -/
def rowCycles (fmt : Nat) : Nat := if fmt = 0 then 4 else 1

/-! ### Weight tiles (R53, R54) -/

/-- The weight expander: E2M1 to the E4M3 element of equal value (R53). -/
def expandE2m1 (c : Nat) : Nat := nth 0 [0x00, 0x30, 0x38, 0x3C, 0x40, 0x44, 0x48, 0x4C] (c % 8) + if bit c 3 then 0x80 else 0

/-- Bytes of a block group of a format: 64 scales and 64 blocks of 32 elements (R89). -/
def groupBytes (fmt : Nat) : Nat := 64 + 64 * 4 * mxWidth fmt

/-- Frond-store address of the scale of block b of the block groups at an address, and of its element bytes (R89). -/
def blockScaleAt (fmt addr b : Nat) : Nat := addr + b / 64 * groupBytes fmt + b % 64
/-- Address of the element bytes of block b of the block groups at an address. -/
def blockElemsAt (fmt addr b : Nat) : Nat := addr + b / 64 * groupBytes fmt + 64 + b % 64 * (4 * mxWidth fmt)

/-- The block of a tile that is segment s of column n (R88): which of the blocks at SRC is not stated, log entry 14. -/
def tileBlock (seg col : Nat) : Nat := Config.tileBlock seg col % 512
/-- Address of an element of an F19 tile. -/
def tileWordAt (a : AloadArgs) (row col : Nat) : Nat := a.src + 4 * (Config.tileElem row col % 16384)

/-- Segments of the valid rows. -/
def validSegs (a : AloadArgs) : List Nat := List.range (cdiv a.kValid 32)

/-- Every byte of the tile that the load reads lies in allocated pages (R43). -/
def aloadPages (r : FrondRec) (a : AloadArgs) : Bool :=
  if a.wfmt = 0 then
    (List.range a.kValid).all fun k => (List.range a.nValid).all fun n => r.pageOk (tileWordAt a k n) 4
  else
    (validSegs a).all fun sg => (List.range a.nValid).all fun n =>
      r.pageOk (blockScaleAt a.wfmt a.src (tileBlock sg n)) 1 && r.pageOk (blockElemsAt a.wfmt a.src (tileBlock sg n)) (4 * mxWidth a.wfmt)

/-- Put one weight register. -/
def Arr.putWeight (bank row col code : Nat) (x : Arr) : Arr :=
  { x with weight := Tab.set 0 x.weight (16384 * bank + 128 * row + col) (BitVec.ofNat 19 code) }
/-- Put one block scale. -/
def Arr.putScale (bank seg col code : Nat) (x : Arr) : Arr :=
  { x with scale := Tab.set 0 x.scale (512 * bank + 128 * seg + col) (BitVec.ofNat 8 code) }

/-- The elements of one block, expanded, with the invalid rows zero (R53, R54). -/
def State.blockCodes (s : State) (f : Nat) (a : AloadArgs) (seg col : Nat) : List Nat :=
  let es := unpackElems (mxWidth a.wfmt) (s.fsRead f (blockElemsAt a.wfmt a.src (tileBlock seg col)) (4 * mxWidth a.wfmt))
  (List.range 32).map fun i =>
    if a.kValid ≤ 32 * seg + i then 0 else if a.wfmt = 8 then expandE2m1 (nth 0 es i) else nth 0 es i

/-- Load one MX block into a bank. The scale of a block with no valid element is written as 0, like its elements, and is not read from the tile: DESIGN
CHOICE, log entry 80. -/
def State.loadBlock (s : State) (f bank : Nat) (a : AloadArgs) (seg col : Nat) (x : Arr) : Arr :=
  let valid := decide (32 * seg < a.kValid) && decide (col < a.nValid)
  let codes := if valid then s.blockCodes f a seg col else List.replicate 32 0
  let sc := if valid then leNat (s.fsRead f (blockScaleAt a.wfmt a.src (tileBlock seg col)) 1) else 0
  (List.range 32).foldl (fun x i => x.putWeight bank (32 * seg + i) col (nth 0 codes i)) (x.putScale bank seg col sc)

/-- One F19 weight of the tile, or zero where it is not valid. -/
def State.tileWord (s : State) (f : Nat) (a : AloadArgs) (row col : Nat) : Nat :=
  if row < a.kValid ∧ col < a.nValid then (s.fsWord f (tileWordAt a row col)).toNat / 2 ^ 13 else 0

/-- The bank after a load: MX blocks segment by segment, or F19 words row by row. -/
def State.loadBank (s : State) (f bank : Nat) (a : AloadArgs) (x : Arr) : Arr :=
  if a.wfmt = 0 then
    (List.range 128).foldl (fun x k => (List.range 128).foldl (fun x n => x.putWeight bank k n (s.tileWord f a k n)) x) x
  else (List.range 4).foldl (fun x sg => (List.range 128).foldl (fun x n => s.loadBlock f bank a sg n x) x) x

/-- Number of the shadow bank (R45). -/
def Arr.shadow (x : Arr) : Nat := if x.bank then 0 else 1
/-- Number of the active bank. -/
def Arr.active (x : Arr) : Nat := if x.bank then 1 else 0

/-- Cycles that a row of the pass which used the shadow bank last takes to leave each array row: 1, or 4 in F19 mode. -/
def Arr.drainPace (x : Arr) : Nat := (nth 0 x.bankDrain x.shadow - nth 0 x.bankFree x.shadow) / 127

/-- Rows of a load which starts in a cycle that wait for the last row tagged with the bank to leave them (R58): row k, due k rows after the start, is
free k paces after row 0. -/
def Arr.rowStalls (x : Arr) (cycle fmt : Nat) : Nat :=
  ((List.range 128).filter fun k =>
    decide (cycle + k * rowCycles fmt < nth 0 x.bankFree x.shadow + k * x.drainPace)
      && (k == 0 || decide (rowCycles fmt < x.drainPace))).length

/-- The cycle after a load that starts in a cycle has written its last row: 128 or 512 cycles on (R52, R54), later where the last rows
tagged with the bank leave array row 127 later (R58). -/
def Arr.loadDone (x : Arr) (cycle fmt : Nat) : Nat :=
  max (cycle + 127 * rowCycles fmt) (nth 0 x.bankDrain x.shadow) + rowCycles fmt

/-- The frond store as the array reads it in a cycle: result rows that cannot be read yet still show what they replaced (R49). -/
def State.seenAt (s : State) (f cycle : Nat) : State :=
  forAll ((((s.getFrond f).arr.inflight.filter fun x => decide (cycle < x.1)).map (·.2)).reverse) (fun x s => s.fsWrite f x.1 x.2) s

/-- A load starts in a cycle: the bank takes the tile, row by row; rows that stall count (R52, R54, R58, R78). -/
def State.startLoad (f cycle : Nat) (a : AloadArgs) (s : State) : State :=
  let n := (s.getFrond f).arr.rowStalls cycle a.wfmt
  State.frondCount f 3 n (s.updFrond f fun x =>
    let b := x.arr.shadow
    let y := (s.seenAt f cycle).loadBank f b a x.arr
    { x with arr := { y with fmt := y.fmt.set b (if a.wfmt = 8 then 4 else a.wfmt), loadEnd := x.arr.loadDone cycle a.wfmt, stalled := none
                             stallTo := max x.arr.stallTo cycle } })

/-- An ALOAD goes in a cycle (R55, R58): behind one that stalls the warden waits; behind one in progress it starts when that has written its last row;
and into rows still in use it stalls. -/
def State.goLoad (f w cycle : Nat) (a : AloadArgs) (s : State) : State :=
  let x := (s.getFrond f).arr
  let c := max cycle x.loadEnd
  if x.stalled.isSome then s.setWait f w (some (.load cycle a))
  else if c < nth 0 x.bankFree x.shadow then
    State.frondCount f 3 1 (s.updFrond f fun y => { y with arr := { y.arr with stalled := some a, stallTo := max y.arr.stallTo c } })
  else s.startLoad f c a

/-- ALOAD (R54, R55, R58): a bad combination or an access outside the pages is a frond fault. -/
def State.aload (f w cycle : Nat) (a : AloadArgs) (s : State) : State :=
  match s.driven f unitArray w with
  | none => s
  | some (_, r, drives) =>
    if !drives then s.wardenFault f w
    else if !aloadOk a || !aloadPages r a then s.unitFault f unitArray w
    else s.goLoad f w (max cycle (s.getFrond f).arr.stallTo) a

/-- ALOAD. -/
def execAload (frond warden cycle : Nat) (args : AloadArgs) (s : State) : Host.Outcome State Fault Refusal := .next (s.aload frond warden cycle args)

/-- Both conditions of R57 can be told: no pass waits to enter, and no ALOAD stalls. -/
def Arr.swaps (x : Arr) : Bool := x.queue.isEmpty && x.stalled.isNone

/-- Cycle in which a SWAP of a cycle takes effect: after the last row of the preceding ASTREAM has entered, and after the ALOAD in progress has written
its last row (R57). -/
def Arr.swapAt (x : Arr) (cycle : Nat) : Nat := max cycle (max x.lastEnter x.loadEnd)

/-- The bank pointer toggles; its warden stalls until then (R45, R57, R59). -/
def State.toggle (f cycle : Nat) (s : State) : State :=
  s.updFrond f fun x => { x with arr := { x.arr with bank := !x.arr.bank, stallTo := max x.arr.stallTo (x.arr.swapAt cycle) } }

/-- SWAP (R45, R57, R59): until its conditions hold the warden stalls on it. R78's SWAP stalls count the SWAPs that stall: DESIGN CHOICE, log entry
57. -/
def State.swap (f w cycle : Nat) (s : State) : State :=
  match s.driven f unitArray w with
  | none => s
  | some (_, _, drives) =>
    let x := (s.getFrond f).arr
    let c := max cycle x.stallTo
    if !drives then s.wardenFault f w
    else
      let s1 := if x.swaps ∧ x.swapAt c = c then s else s.frondCount f 2 1
      if x.swaps then s1.toggle f c else s1.setWait f w (some (.swap c))

/-- SWAP. -/
def execSwap (frond warden cycle : Nat) (s : State) : Host.Outcome State Fault Refusal := .next (s.swap frond warden cycle)

/-- The array warden's stalled SWAP or ALOAD looks again, after a pass has entered or a load has gone on (R55, R57). -/
def State.wakeArray (f w cycle : Nat) (s : State) : State :=
  let x := (s.getFrond f).arr
  match s.waitOf f w with
  | some (.swap c) => if x.swaps then (s.setWait f w none).toggle f (max c x.stallTo) else s
  | some (.load c a) => if x.stalled.isNone then (s.setWait f w none).goLoad f w (max (max c cycle) x.stallTo) a else s
  | _ => s

/-- ALOAD_ROW_RESUME (R58): the rows tagged with the bank have left. -/
def State.aloadRowResume (f cycle : Nat) (s : State) : State :=
  let x := (s.getFrond f).arr
  match x.stalled, s.unitRuns f unitArray with
  | some a, some (p, r) =>
    if nth 0 x.bankFree x.shadow ≤ cycle then ((s.startLoad f cycle a).wakeArray f (r.warden unitArray) cycle).noteVote p else s
  | _, _ => s

/-- ALOAD_ROW_RESUME. -/
def execAloadRowResume (frond cycle : Nat) (s : State) : Host.Outcome State Fault Refusal := .next (s.aloadRowResume frond cycle)

/-! ### The arithmetic of a pass (R47 to R51, R108, R109) -/

/-- A value scaled by two block scale codes (R108). -/
def scaledBy (cw ca : Nat) (v : Fp) : Fp :=
  match v with
  | .num n m e => if m = 0 then .num false 0 0 else .num n m (e + (cw : Int) + (ca : Int) - 254)
  | x => x

/-- FP32 by truncation at alignment (R109). -/
def truncWord (v : Fp) : Word := BitVec.ofNat 32 (fp32.encode .alignTrunc v)

/-- Exact products of a block, element by element (R108). -/
def blockProducts (wf af : Nat) (ws as_ : List Nat) : List Fp :=
  (List.range 32).map fun i => (elemValue wf (nth 0 ws i)).mul (elemValue af (nth 0 as_ i))

/-- Block sum of one segment of a column (R48, R108). -/
def blockSum (wf af cw ca : Nat) (ws as_ : List Nat) : Word :=
  if cw = 255 ∨ ca = 255 then 0x7FC00000#32
  else truncWord (scaledBy cw ca ((blockProducts wf af ws as_).foldl Fp.add (.num false 0 0)))

/-- The converted products of one segment of a column, for MAX and MIN (R51, R108). -/
def blockTerms (wf af cw ca : Nat) (ws as_ : List Nat) : List Word :=
  if cw = 255 ∨ ca = 255 then List.replicate 32 0x7FC00000#32
  else (blockProducts wf af ws as_).map fun p => truncWord (scaledBy cw ca p)

/-- A product of F19 mode (R50): weight register code and activation container. -/
def f19Product (code : Nat) (a : Word) : Word := truncWord ((f19.decode code).mul (f19Of a))

/-- One row of activations as it enters: formats, scales and elements of the segments, or 128 F19 containers. -/
structure ActRow where
  scales : List Nat := []
  elems : List (List Nat) := []
  words : List Word := []

/-- Weight codes of a column from row lo on. -/
def Arr.column (x : Arr) (bank lo n col : Nat) : List Nat :=
  (List.range n).map fun i => (Tab.get 0 x.weight (16384 * bank + 128 * (lo + i) + col)).toNat

/-- The result of one column: R48 or R50 for MAC, R51 for MAX (1) and MIN (2). -/
def Arr.columnResult (x : Arr) (bank : Nat) (a : AstreamArgs) (row : ActRow) (init : Word) (col : Nat) : Word :=
  let wf := nth 0 x.fmt bank
  if wf = 0 then
    let ps := (List.range 128).map fun k => f19Product (nth 0 (x.column bank k 1 col) 0) (nth 0 row.words k)
    if a.mode = 0 then ps.foldl addTrunc init else (ps.take a.kValid).foldl (fpMaxMin (a.mode == 1)) init
  else
    let cw (sg : Nat) : Nat := (Tab.get 0 x.scale (512 * bank + 128 * sg + col)).toNat
    if a.mode = 0 then
      (List.range 4).foldl (fun acc sg => addTrunc acc (blockSum wf a.afmt (cw sg) (nth 0 row.scales sg) (x.column bank (32 * sg) 32 col) (nth [] row.elems sg))) init
    else
      let ts := (List.range 4).flatMap fun sg =>
        blockTerms wf a.afmt (cw sg) (nth 0 row.scales sg) (x.column bank (32 * sg) 32 col) (nth [] row.elems sg)
      (ts.take a.kValid).foldl (fpMaxMin (a.mode == 1)) init

/-- Address of activation row m. -/
def actAt (a : AstreamArgs) (m : Nat) : Nat := a.src + m * a.stride
/-- Address of accumulator and result row m. -/
def accAt (a : AstreamArgs) (m : Nat) : Nat := a.acc + m * a.accStride

/-- The block that is segment s of activation row m (R46, R88): which of the blocks at SRC is not stated, log entry 14. -/
def actBlock (a : AstreamArgs) (m sg : Nat) : Nat := Config.actBlock m sg a.stride % 16384

/-- Read activation row m (R46, R89). -/
def State.actRow (s : State) (f : Nat) (a : AstreamArgs) (m : Nat) : ActRow :=
  if a.afmt = 0 then { words := (List.range 128).map fun k => s.fsWord f (actAt a m + 4 * k) }
  else
    { scales := (List.range 4).map fun sg => leNat (s.fsRead f (blockScaleAt a.afmt a.src (actBlock a m sg)) 1)
      elems := (List.range 4).map fun sg =>
        unpackElems (mxWidth a.afmt) (s.fsRead f (blockElemsAt a.afmt a.src (actBlock a m sg)) (4 * mxWidth a.afmt)) }

/-- The bytes of an activation row lie in allocated pages. -/
def actPages (r : FrondRec) (a : AstreamArgs) (m : Nat) : Bool :=
  if a.afmt = 0 then r.pageOk (actAt a m) 512
  else (List.range 4).all fun sg =>
    r.pageOk (blockScaleAt a.afmt a.src (actBlock a m sg)) 1 && r.pageOk (blockElemsAt a.afmt a.src (actBlock a m sg)) (4 * mxWidth a.afmt)

/-- Every row that a pass reads and writes lies in allocated pages (R43). -/
def astreamPages (r : FrondRec) (a : AstreamArgs) : Bool :=
  (List.range a.m).all fun m => actPages r a m && r.pageOk (accAt a m) (4 * a.nValid)

/-- The results of row m of a pass that enters in a cycle: one word per valid column (R54). The row's activations are read in the cycle in which it
enters, its accumulator row 32 rows later (R47, R48). 'fed' are bytes that stand for those at SRC, for rows taken from a ring (R148). -/
def State.rowResult (s : State) (f bank cycle : Nat) (a : AstreamArgs) (fed : List Byte) (m : Nat) : List Word :=
  let rc := rowCycles (nth 0 (s.getFrond f).arr.fmt bank)
  let row := ((s.seenAt f (cycle + m * rc)).fsWrite f a.src fed).actRow f a m
  let init := s.seenAt f (cycle + (m + 32) * rc)
  (List.range a.nValid).map fun n =>
    (s.getFrond f).arr.columnResult bank a row (if a.initAcc then init.fsWord f (accAt a m + 4 * n) else 0) n

/-- Words as little-endian bytes. -/
def wordBytes (ws : List Word) : List Byte := ws.flatMap fun w => leBytes 4 w.toNat

/-- Row m of a pass runs: its results are written, and can be read from row time m + 131 on (R49). -/
def State.passRow (f bank cycle : Nat) (a : AstreamArgs) (fed : List Byte) (m : Nat) (s : State) : State :=
  let rc := rowCycles (nth 0 (s.getFrond f).arr.fmt bank)
  let bs := wordBytes (s.rowResult f bank cycle a fed m)
  let old := s.fsRead f (accAt a m) bs.length
  (s.fsWrite f (accAt a m) bs).updFrond f fun y =>
    { y with arr := { y.arr with inflight := y.arr.inflight ++ [(cycle + (m + 131) * rc, accAt a m, old)] } }

/-- The rows of a pass in order. -/
def State.passRows (f bank cycle : Nat) (a : AstreamArgs) (fed : List Byte) (s : State) : State :=
  forAll (List.range a.m) (State.passRow f bank cycle a fed) s

/-- Raise a token that an operation names, if it names one (R132). -/
def State.raiseOpt (f : Nat) (t : Option Nat) (s : State) : State := match t with | some t => s.raiseToken f t | none => s

/-- The array after a pass of its active bank that enters in a cycle: its timing, and the result rows that a later pass cannot read at once. -/
def Arr.entered (x : Arr) (cycle m : Nat) : Arr :=
  let rc := rowCycles (nth 0 x.fmt x.active)
  let e := cycle + m * rc
  { x with lastEnter := e, bankFree := x.bankFree.set x.active e, bankDrain := x.bankDrain.set x.active (e + 127 * rc)
           inflight := x.inflight.filter fun r => decide (e < r.1) }

/-- A pass enters in a cycle and runs (R47 to R51, R55, R56): its rows are tagged with the active bank. R78's array busy cycles count the cycles in which
its rows enter: DESIGN CHOICE, log entry 57. -/
def State.enterPass (f cycle : Nat) (a : AstreamArgs) (fed : List Byte) (s : State) : State :=
  let x := (s.getFrond f).arr
  let s1 := (s.passRows f x.active cycle a fed).updFrond f fun y => { y with arr := y.arr.entered cycle a.m }
  (s1.frondCount f 0 (a.m * rowCycles (nth 0 x.fmt x.active))).raiseOpt f a.token

/-- An array pass is issued: it enters, is queued behind a pass that still enters, or faults (R52, R55, R77). -/
def State.issuePass (f w cycle : Nat) (r : FrondRec) (a : AstreamArgs) (enter : State → State) (s : State) : State :=
  let x := (s.getFrond f).arr
  if !astreamOk a (nth 0 x.fmt x.active) || !astreamPages r a then s.unitFault f unitArray w
  else if cycle < x.lastEnter ∨ !x.queue.isEmpty then
    s.updFrond f fun y => { y with arr := { y.arr with queue := y.arr.queue ++ [{ args := a, warden := w, cycle := cycle }] } }
  else enter s

/-- ASTREAM (R54, R55). -/
def State.astream (f w cycle : Nat) (a : AstreamArgs) (s : State) : State :=
  match s.driven f unitArray w with
  | none => s
  | some (_, r, drives) =>
    let c := max cycle (s.getFrond f).arr.stallTo
    if !drives then s.wardenFault f w else s.issuePass f w c r a (State.enterPass f c a [])

/-- ASTREAM. -/
def execAstream (frond warden cycle : Nat) (args : AstreamArgs) (s : State) : Host.Outcome State Fault Refusal :=
  .next (s.astream frond warden cycle args)

end Sys2Proof.Machine
end

