-- ==== Sys2Proof/Machine/Vector.lean ====
section
/-! DEFINITION. The vector unit: lanes, loads and stores, ranking, reductions and conversions, with the counts of every conversion (R60 to
R63, R80, R81, R94 to R107, R174). -/

namespace Sys2Proof.Machine

/-! ### Arithmetic statistics (R174, R175) -/

/-- Add to the counts of a destination format and class. -/
def Arith.count (fmt cls conv ovf unf : Nat) (a : Arith) : Arith :=
  let k := 3 * (4 * (if fmt = 0 then 0 else fmt - 1) + cls)
  { a with counts := Tab.upd 0 (Tab.upd 0 (Tab.upd 0 a.counts k (satAdd 64 · conv)) (k + 1) (satAdd 64 · ovf)) (k + 2) (satAdd 64 · unf) }

/-- Change both sets of statistics of a partition: the run's and the step's. -/
def State.updArith (p : Nat) (g : Arith → Arith) (s : State) : State :=
  s.updPart p fun q => { q with arith := g q.arith, arithNow := g q.arithNow }

/-- Count conversions (R99, R174), FP16 gradients also for the vote (R164). -/
def State.countConv (p : Nat) (cvt : Byte) (conv ovf unf : Nat) (s : State) : State :=
  let s1 := s.updArith p (Arith.count (cvtDst cvt) (cvtClass cvt) conv ovf unf)
  if cvtDst cvt = 2 ∧ cvtClass cvt = 2 then
    s1.updRun p fun r => { r with gradConv := satAdd 64 r.gradConv conv, gradUnf := satAdd 64 r.gradUnf unf }
  else s1

/-- Count n scale-range faults and set ARITH (R107). -/
def State.countScaleRange (p n : Nat) (s : State) : State :=
  if n = 0 then s else (s.updArith p fun a => { a with scaleRange := satAdd 64 a.scaleRange n }).raise .scaleRange

/-- F19_RNE of a partition's pattern (R82). -/
def State.f19Rne (s : State) (p : Nat) : Bool := bit (s.getPart p).image.flags 0

/-! ### Registers -/

/-- A vector register, lane by lane. -/
def Frond.vget (x : Frond) (r lane : Nat) : Word := Tab.get 0 x.vreg (256 * (r % 16) + lane)
/-- Write a lane of a vector register. -/
def Frond.vput (r lane : Nat) (w : Word) (x : Frond) : Frond := { x with vreg := Tab.set 0 x.vreg (256 * (r % 16) + lane) w }
/-- Every lane of a register. -/
def Frond.vlanes (x : Frond) (r : Nat) : List Word := (List.range 256).map (x.vget r)
/-- Write lanes 0, 1, ... of a register. -/
def Frond.vwrite (r : Nat) (ws : List Word) (x : Frond) : Frond := (List.range ws.length).foldl (fun x i => x.vput r i (nth 0 ws i)) x

/-! ### Ranking (R96) -/

/-- Element a ranks before element b: by totalOrder, equal ones by index. -/
def rankBefore (a b : Word × Nat) : Bool := decide (orderKey a.1 < orderKey b.1) || (orderKey a.1 == orderKey b.1 && decide (a.2 ≤ b.2))
/-- Element a ranks before element b in descending order. -/
def rankAfter (a b : Word × Nat) : Bool := decide (orderKey b.1 < orderKey a.1) || (orderKey a.1 == orderKey b.1 && decide (a.2 ≤ b.2))
/-- Put an element in its place. -/
def rankInsert (before : Word × Nat → Word × Nat → Bool) (x : Word × Nat) : List (Word × Nat) → List (Word × Nat)
  | [] => [x]
  | y :: t => if before x y then x :: y :: t else y :: rankInsert before x t
/-- Elements in order. -/
def rankSort (before : Word × Nat → Word × Nat → Bool) (l : List (Word × Nat)) : List (Word × Nat) := l.foldr (rankInsert before) []

/-- The lanes that a ranking writes (log entry 34): argmax and argmin an index in lane 0, sort every lane in ascending order, top-k the first
k in descending order. F19 elements rank by their containers without bits 12:0 (R84). -/
def rankLanes (op : Rank) (f19 : Bool) (vs : List Word) : List Word :=
  let ws := vs.map (operand f19)
  let l := ws.zip (List.range ws.length)
  match op with
  | .argmax => [BitVec.ofNat 32 ((rankSort rankAfter l).headD (0, 0)).2]
  | .argmin => [BitVec.ofNat 32 ((rankSort rankBefore l).headD (0, 0)).2]
  | .sort => (rankSort rankBefore l).map (·.1)
  | .topk k => ((rankSort rankAfter l).take k).map (·.1)

/-! ### Operations -/

/-- Address of the scale byte of block b of a block group, and of its element bytes (R89, R90). -/
def groupScaleAt (addr b : Nat) : Nat := addr + b
/-- Address of the element bytes of block b of a block group. -/
def groupElemsAt (fmt addr b : Nat) : Nat := addr + 64 + 4 * mxWidth fmt * b

/-- Widen block b of the block group at an address of a frond store. -/
def State.widenAt (s : State) (f fmt : Nat) (toF19 : Bool) (addr b : Nat) : List Word × Bool :=
  widenBlock fmt toF19 (leNat (s.fsRead f (groupScaleAt addr b) 1)) (unpackElems (mxWidth fmt) (s.fsRead f (groupElemsAt fmt addr b) (4 * mxWidth fmt)))

/-- Eight consecutive blocks lie in allocated pages. A block-group address off the 64-byte boundary of R89 is taken as it is: DESIGN CHOICE, log entry
80. -/
def groupPages (r : FrondRec) (fmt addr b : Nat) : Bool :=
  r.pageOk (groupScaleAt addr b) 8 && r.pageOk (groupElemsAt fmt addr b) (8 * 4 * mxWidth fmt)

/-- The arithmetic that a lane has (R60): a lane does not divide. -/
def laneHas (o : FpBin) : Bool := o != .div

/-- What a vector operation does to a frond, lane by lane; none for an operation that the unit does not have. -/
def vecLanes (rne : Bool) (x : Frond) (op : VecOp) : Option (Nat × List Word) :=
  match op with
  | .bin o f19 d a b => if !laneHas o then none else some (d, (List.range 256).map fun i => fpBin o f19 rne (x.vget a i) (x.vget b i))
  | .fma f19 d a b c => some (d, (List.range 256).map fun i => fpFma f19 rne (x.vget a i) (x.vget b i) (x.vget c i))
  | .cmp p fa fb d a b =>
    some (d, (List.range 256).map fun i => Config.cmpWord (fpCompare p (operand fa (x.vget a i)) (operand fb (x.vget b i))))
  | .rank o f19 d a => some (d, rankLanes o f19 (x.vlanes a))
  | .widen fmt d a => if fmt = 0 ∨ fmt = 2 ∨ fmt = 3 then some (d, (x.vlanes a).map (widenWord fmt)) else none
  | _ => none

/-- A widening of eight MX blocks from the frond store into a register, its scale-range faults counted (R106, R107). -/
def State.vecWidenMx (f p fmt : Nat) (toF19 : Bool) (d addr block : Nat) (s : State) : State :=
  let bs := (List.range 8).map fun j => s.widenAt f fmt toF19 addr (8 * (block % 8) + j)
  (s.updFrond f (Frond.vwrite d (bs.flatMap (·.1)))).countScaleRange p (bs.filter (·.2)).length

/-- Whether an operation of the vector unit accesses the frond store. -/
def vecStores : VecOp → Bool
  | .load _ _ | .store _ _ | .widenMx _ _ _ _ _ => true
  | .bin _ _ _ _ _ | .fma _ _ _ _ _ | .cmp _ _ _ _ _ _ | .rank _ _ _ _ | .widen _ _ _ => false

/-- A vector operation of a frond that runs: none for an undefined one or an access outside the pages (R43, R77). -/
def State.vecEffect (f p : Nat) (r : FrondRec) (op : VecOp) (s : State) : Option State :=
  match op with
  | .load d addr =>
    if r.pageOk addr 1024 then some (s.updFrond f (Frond.vwrite d ((List.range 256).map fun i => s.fsWord f (addr + 4 * i)))) else none
  | .store a addr => if r.pageOk addr 1024 then some (s.fsWrite f addr (((s.getFrond f).vlanes a).flatMap fun w => leBytes 4 w.toNat)) else none
  | .widenMx fmt f19 d addr block =>
    if isMx fmt && groupPages r fmt addr (8 * (block % 8)) then some (s.vecWidenMx f p fmt f19 d addr block) else none
  | o => (vecLanes (s.f19Rne p) (s.getFrond f) o).map fun x => s.updFrond f (Frond.vwrite x.1 x.2)

/-- VECTOR_OPERATION (R60, R61). -/
def State.vectorOperation (f w : Nat) (op : VecOp) (token : Option Nat) (s : State) : State :=
  match s.driven f unitVector w with
  | none => s
  | some (p, r, drives) =>
    if !drives then s.wardenFault f w
    else match s.vecEffect f p r op with
      | some s1 => (if vecStores op then s1.contend f 6 else s1).raiseOpt f token
      | none => s.unitFault f unitVector w

/-- VECTOR_OPERATION. -/
def execVectorOperation (frond warden : Nat) (op : VecOp) (token : Option Nat) (s : State) : Host.Outcome State Fault Refusal :=
  .next (s.vectorOperation frond warden op token)

/-- One step of a reduction: lane i combines with lane i + n, for i below n (R62). -/
def reduceStep (op : FpBin) (f19 rne : Bool) (n : Nat) (ws : List Word) : List Word :=
  ((List.range n).map fun i => fpBin op f19 rne (nth 0 ws i) (nth 0 ws (i + n))) ++ ws.drop n

/-- The eight steps of a reduction. -/
def reduceLanes (op : FpBin) (f19 rne : Bool) (ws : List Word) : List Word :=
  [128, 64, 32, 16, 8, 4, 2, 1].foldl (fun ws n => reduceStep op f19 rne n ws) ws

/-- VECTOR_REDUCTION (R62): the result lies in lane 0. -/
def State.vectorReduction (f w : Nat) (op : FpBin) (f19 : Bool) (reg : Nat) (s : State) : State :=
  match s.driven f unitVector w with
  | none => s
  | some (p, _, drives) =>
    if !drives then s.wardenFault f w
    else if !laneHas op then s.unitFault f unitVector w
    else s.updFrond f fun x => x.vwrite reg (reduceLanes op f19 (s.f19Rne p) (x.vlanes reg))

/-- VECTOR_REDUCTION. -/
def execVectorReduction (frond warden : Nat) (op : FpBin) (f19 : Bool) (reg : Nat) (s : State) : Host.Outcome State Fault Refusal :=
  .next (s.vectorReduction frond warden op f19 reg)

/-! ### Conversions (R63, R80, R81, R174) -/

/-- Bytes of an IEEE destination element: an F19 container or a half. -/
def ieeeBytes (fmt : Nat) : Nat := if fmt = 0 then 4 else 2

/-- Narrow FP32 words into an IEEE format: bytes, overflows and underflows. -/
def narrowList (fmt : Nat) (rne : Bool) (ws : List Word) : List Byte × Nat × Nat :=
  let ns := ws.map (narrowIeee fmt rne)
  (ns.flatMap fun n => leBytes (ieeeBytes fmt) n.code, (ns.filter (·.ovf)).length, (ns.filter (·.unf)).length)

/-- Narrow 32 words into MX block b of the block group at an address, counted (R102 to R104, R174). -/
def State.narrowBlock (f p : Nat) (cvt : Byte) (addr b : Nat) (ws : List Word) (s : State) : State :=
  let fmt := cvtDst cvt
  let m := mxBlock fmt (cvtNan cvt) ws
  (((s.fsWrite f (groupScaleAt addr b) [BitVec.ofNat 8 m.scale]).fsWrite f (groupElemsAt fmt addr b) (packElems (mxWidth fmt) m.elems)).countConv
    p cvt 32 m.ovf m.unf)

/-- The result of a vector conversion lies in allocated pages (its place: log entry 35). -/
def convPages (r : FrondRec) (cvt : Byte) (dst block : Nat) : Bool :=
  if isMx (cvtDst cvt) then groupPages r (cvtDst cvt) dst (8 * (block % 8)) else r.pageOk dst (256 * ieeeBytes (cvtDst cvt))

/-- Narrow the 256 lanes of a register into the frond store. -/
def State.vecNarrow (f p : Nat) (cvt : Byte) (src dst block : Nat) (s : State) : State :=
  let ws := (s.getFrond f).vlanes src
  if isMx (cvtDst cvt) then
    forAll (List.range 8) (fun j s => s.narrowBlock f p cvt dst (8 * (block % 8) + j) ((ws.drop (32 * j)).take 32)) s
  else
    let n := narrowList (cvtDst cvt) (s.f19Rne p) ws
    (s.fsWrite f dst n.1).countConv p cvt 256 n.2.1 n.2.2

/-- VECTOR_CONVERSION (R63): a CVT that R81 forbids is an undefined instruction. -/
def State.vectorConversion (f w : Nat) (cvt : Byte) (src dst block : Nat) (s : State) : State :=
  match s.driven f unitVector w with
  | none => s
  | some (p, r, drives) =>
    if !drives then s.wardenFault f w
    else if cvtOk cvt && convPages r cvt dst block then (s.vecNarrow f p cvt src dst block).contend f 6
    else s.unitFault f unitVector w

/-- VECTOR_CONVERSION. -/
def execVectorConversion (frond warden : Nat) (cvt : Byte) (src dst block : Nat) (s : State) : Host.Outcome State Fault Refusal :=
  .next (s.vectorConversion frond warden cvt src dst block)

end Sys2Proof.Machine
end

