-- ==== Sys2Proof/Machine/Fused.lean ====
section
/-! DEFINITION. The values of fused instructions: contributions and their narrowing, additions in RED_FMT, the bytes of sent rows, and the
widening of gathered ones (R82, R91, R99, R106, R107, R147 to R149, R155, R156). -/

namespace Sys2Proof.Machine

/-! ### Reduction formats (R149) -/

/-- Bytes of an element of RED_FMT. -/
def redSize (red : Nat) : Nat := if red = 2 then 2 else 4
/-- One addition of a reduction. -/
def redAdd (red a b : Nat) : Nat := if red = 2 then fp16Add a b else (fpBin .add false false (BitVec.ofNat 32 a) (BitVec.ofNat 32 b)).toNat
/-- An element is neither an infinity nor a NaN. -/
def redFinite (red c : Nat) : Bool := if red = 2 then decide (c % 2 ^ 15 < 0x7C00) else isFinite (BitVec.ofNat 32 c)
/-- Elements as bytes. -/
def valBytes (size : Nat) (vs : List Nat) : List Byte := vs.flatMap (leBytes size)
/-- Elements of bytes. -/
def valsOf (size : Nat) (bs : List Byte) : List Nat := (List.range (bs.length / max size 1)).map fun i => fld bs (size * i) size

/-! ### Contributions (R148, R155) -/

/-- Words in blocks of 32, the last one filled with zeros (R91). -/
def wordBlocks (ws : List Word) : List (List Word) :=
  (List.range (cdiv ws.length 32)).map fun i => (List.range 32).map fun k => nth 0 ws (32 * i + k)

/-- What a narrowing gives: codes, and how many were converted, overflowed and underflowed. -/
structure Narrowing where
  codes : List Nat
  conv : Nat := 0
  ovf : Nat := 0
  unf : Nat := 0
deriving DecidableEq, Repr, Inhabited

/-- A contribution through an MX format: narrowed, and widened again into FP32, in which its sums are formed. -/
def mxContribution (cvt : Byte) (ws : List Word) : Narrowing :=
  let fmt := cvtDst cvt
  let bs := (wordBlocks ws).map (mxBlock fmt (cvtNan cvt))
  { codes := ((bs.flatMap fun b => (widenBlock fmt false b.scale b.elems).1).map (·.toNat)).take ws.length, conv := ws.length
    ovf := (bs.map (·.ovf)).sum, unf := (bs.map (·.unf)).sum }

/-- A contribution through F19, FP16 or BF16: kept as FP16 for RED_FMT 0x2, else widened into FP32. -/
def ieeeContribution (cvt : Byte) (red : Nat) (rne : Bool) (ws : List Word) : Narrowing :=
  let fmt := cvtDst cvt
  let ns := ws.map (narrowIeee fmt rne)
  { codes := ns.map fun n => if red = 2 then n.code else (widenWord fmt (BitVec.ofNat 32 n.code)).toNat, conv := ws.length
    ovf := (ns.filter (·.ovf)).length, unf := (ns.filter (·.unf)).length }

/-- The local contribution of a reduction in RED_FMT (R148, R149). -/
def contribution (x : Fused) (rne : Bool) (ws : List Word) : Narrowing :=
  let cvt := BitVec.ofNat 8 x.cvt
  if !x.narrow then { codes := ws.map (·.toNat) }
  else if isMx (cvtDst cvt) then mxContribution cvt ws
  else ieeeContribution cvt x.redFmt rne ws

/-- The bytes of one block group of narrowed blocks: scales, then elements, with padding blocks at the end (R89, R91). -/
def groupOfBlocks (fmt : Nat) (bs : List MxBlock) : List Byte :=
  ((List.range 64).map fun i => BitVec.ofNat 8 (match bs[i]? with | some b => b.scale | none => 0x7F))
    ++ (List.range 64).flatMap fun i => packElems (mxWidth fmt) (match bs[i]? with | some b => b.elems | none => List.replicate 32 0)

/-- The bytes of result rows as MM.SEND sends them (R148): FP32, or narrowed by CVT, MX data in whole block groups. -/
def sentRows (x : Fused) (rne : Bool) (ws : List Word) : Narrowing :=
  let cvt := BitVec.ofNat 8 x.cvt
  let fmt := cvtDst cvt
  if !x.narrow then { codes := (ws.flatMap fun w => leBytes 4 w.toNat).map (·.toNat) }
  else if isMx fmt then
    let bs := (wordBlocks ws).map (mxBlock fmt (cvtNan cvt))
    { codes := ((List.range (cdiv bs.length 64)).flatMap fun g => groupOfBlocks fmt ((bs.drop (64 * g)).take 64)).map (·.toNat)
      conv := ws.length, ovf := (bs.map (·.ovf)).sum, unf := (bs.map (·.unf)).sum }
  else
    let n := narrowList fmt rne ws
    { codes := n.1.map (·.toNat), conv := ws.length, ovf := n.2.1, unf := n.2.2 }

/-! ### Gathered bytes (R70, R148, R179) -/

/-- Element format of an AG.MM with LAND_WIDEN: MXFP8, E4M3 or E5M2; the record does not say which (log entry 38). -/
def landFmt (record : Nat) : Nat := if Config.landE5m2 record then 5 else 4

/-- Block groups widened into F19 as they land, with the scale-range faults (R106, R107). -/
def landWidened (fmt : Nat) (bs : List Byte) : List Byte × Nat :=
  let ls := (List.range (bs.length / blockGroup fmt)).flatMap fun g => (List.range 64).map fun b =>
    widenBlock fmt true (fld bs (blockGroup fmt * g + b) 1)
      (unpackElems (mxWidth fmt) (slice bs (blockGroup fmt * g + 64 + 4 * mxWidth fmt * b) (4 * mxWidth fmt)))
  ((ls.flatMap (·.1)).flatMap fun w => leBytes 4 w.toNat, (ls.filter (·.2)).length)

/-! ### The program of an instruction (R288, R289) -/

/-- OP codes of R147. -/
def opSend : Nat := 1
/-- RECV.MM. -/
def opRecv : Nat := 2
/-- MM.RS. -/
def opRs : Nat := 3
/-- AG.MM. -/
def opAg : Nat := 4
/-- MM.AR. -/
def opAr : Nat := 5
/-- VEC.AR. -/
def opVecAr : Nat := 6

/-- The stages of a program: axis, and whether it gathers. -/
def stagesOf (op : Nat) (g : Group) : List (Nat × Bool) :=
  (if op = opAg then [] else g.axisList.map fun a => (a, false)) ++ (if op = opRs then [] else g.axisList.reverse.map fun a => (a, true))

/-- Bytes of the tensor that the stages divide. -/
def Coll.total (c : Coll) (g : Group) : Nat := if c.what.op = opAg then c.what.length * g.size else c.what.length
/-- Bytes of one working value. -/
def Coll.valSize (c : Coll) : Nat := if c.what.op ≤ 2 ∨ c.what.op = opAg then 1 else redSize c.what.redFmt
/-- Chunks of a transfer. -/
def Coll.chunkCount (c : Coll) : Nat := cdiv c.what.length (max c.what.chunk 1)
/-- Bytes of chunk i of a transfer. -/
def Coll.chunkLen (c : Coll) (i : Nat) : Nat := min c.what.chunk (c.what.length - i * c.what.chunk)
/-- Offset of the ring slot of chunk i. -/
def Coll.slotOff (c : Coll) (i : Nat) : Nat := i % max c.what.slots 1 * c.what.chunk

/-- Put new values in place of those from index i on. -/
def putVals (vs : List Nat) (i : Nat) (new : List Nat) : List Nat := vs.take i ++ new ++ vs.drop (i + new.length)

/-- The values of bytes lo to lo + n of the working tensor. -/
def Coll.slice (c : Coll) (lo n : Nat) : List Nat := (c.vals.drop (lo / c.valSize)).take (n / c.valSize)

/-! ### What a data frame does to the working values (R288, R289) -/

/-- A side of a line has arrived at an element, or has no terms. -/
def sideThere (t : Tab Nat) (has : Bool) (i : Nat) : Bool := !has || Tab.get 0 t i != 0

/-- Element i of the own piece on a line: the sides that have terms, added in the order of R288, then the own value. -/
def Coll.lineSum (c : Coll) (below above : Bool) (i : Nat) : List Nat :=
  let red := c.what.redFmt
  let l := Tab.get 0 c.left i - 1
  let r := Tab.get 0 c.right i - 1
  let side := if below && above then redAdd red l r else if below then l else r
  (if below && above then [side] else []) ++ [redAdd red side (nth 0 c.vals i)]

/-- A partial sum arrives for element i of the own piece on a line. -/
def Coll.lineElem (below above fromBelow : Bool) (i v : Nat) (c : Coll) : Coll :=
  let c1 := if fromBelow then { c with left := Tab.set 0 c.left i (v + 1) } else { c with right := Tab.set 0 c.right i (v + 1) }
  if sideThere c1.left below i && sideThere c1.right above i then
    let ps := c1.lineSum below above i
    { c1 with vals := putVals c1.vals i [ps.getLastD 0], got := c1.got + c1.valSize, flag := c1.flag && ps.all (redFinite c1.what.redFmt) }
  else c1

/-- Own values added to incoming partial sums from element i on. -/
def Coll.addOwn (c : Coll) (i : Nat) (vs : List Nat) : List Nat :=
  (List.range vs.length).map fun k => redAdd c.what.redFmt (nth 0 vs k) (nth 0 c.vals (i + k))

/-- Partial sums of another member's piece are formed here and go on. -/
def Coll.passes (ws : List Nat) (c : Coll) : Coll :=
  { c with flag := c.flag && ws.all (redFinite c.what.redFmt), got := c.got + ws.length * c.valSize }

/-- Partial sums formed here: their finiteness counts (R156, R291). -/
def Coll.sees (ws : List Nat) (c : Coll) : Coll := { c with flag := c.flag && ws.all (redFinite c.what.redFmt) }

/-- Values reach their place. -/
def Coll.place (i : Nat) (ws : List Nat) (c : Coll) : Coll := { c with vals := putVals c.vals i ws, got := c.got + ws.length * c.valSize }

/-- Pieces of others whose partial sums a member adds to and passes on (R288): on a ring all but its own and the one that it starts, on a line those
above it that come from below and those below it that come from above. -/
def Group.passed (g : Group) (size here : Coord) (a : Nat) : Nat :=
  let i := g.pos here a
  let n := g.span a
  if g.ring size a then n - 2 else (if 0 < i then n - 1 - i else 0) + (if i + 1 < n then i else 0)

/-- Bytes that a stage must see before it ends: in a gather every piece but the own one, in a reduction the own piece and what passes by. -/
def stageNeed (g : Group) (size here : Coord) (total a : Nat) (gather : Bool) : Nat :=
  if g.span a ≤ 1 then 0
  else if gather then (g.span a - 1) * g.pieceLen here total a else (1 + g.passed size here a) * g.pieceLen here total a

end Sys2Proof.Machine
end

