-- ==== Sys2Proof/Machine/Collective.lean ====
section
/-! DEFINITION. The communication part of fused instructions: stages, frames, the tree pass with the finite flag, DONE, and pattern-data
frames (R149, R156, R157, R231, R232, R288 to R293, R295). -/

namespace Sys2Proof.Machine

/-! ### Instructions of a step -/

/-- A fused instruction of the step by its key. -/
def State.coll (s : State) (p : Nat) (k : Nat × Nat) : Option Coll := (s.getPart p).colls.find? fun c => c.key == k
/-- Change a fused instruction. -/
def State.updColl (p : Nat) (k : Nat × Nat) (f : Coll → Coll) (s : State) : State :=
  s.updPart p fun q => { q with colls := q.colls.map fun (c : Coll) => if c.key = k then f c else c }
/-- The group that an instruction names. -/
def State.collGroup (s : State) (p : Nat) (c : Coll) : Option Group := (s.getPart p).image.group c.group

/-! ### DONE (R147, R156, R157) -/

/-- A reduction with FINITE returns its flag: it is ANDed into the step finite flag, and a 0 is counted (R157, R175). -/
def State.returnFlag (p : Nat) (flag : Bool) (s : State) : State :=
  let s1 := s.updRun p fun r => { r with finite := r.finite && flag }
  if flag then s1 else s1.updArith p fun a => { a with nonfinite := satAdd 64 a.nonfinite 1 }

/-- The instruction is a reduction that carries the finite flag. -/
def Fused.reduces (x : Fused) : Bool := x.finite && (x.op == opRs || x.op == opAr || x.op == opVecAr)

/-- DONE is raised once (R147). -/
def State.collDone (p : Nat) (k : Nat × Nat) (s : State) : State :=
  match s.coll p k with
  | some c =>
    let s1 := (s.updColl p k fun c => { c with done := true }).raiseToken c.frond c.what.done
    (if c.what.reduces then s1.returnFlag p c.flag else s1).noteVote p
  | none => s

/-- Raise the token of each of n result chunks in order (R147). -/
def State.raiseChunks (c : Coll) (n : Nat) (s : State) : State :=
  forAll (List.range n) (fun i s => s.raiseToken c.frond (c.what.tokenOut + i % max c.what.slots 1)) s

/-! ### Frames (R231, R292, R293) -/

/-- Queue a COLL frame in a direction, on a port with slots (R293). -/
def State.sendColl (p : Nat) (c : Coll) (dir token extra : Nat) (payload : List Byte) (s : State) : State :=
  match s.slotPort p dir with
  | some port =>
    s.sendHop port
      { dst := neighbour s.size s.here dir, src := s.here, part := p, kind := 2, vl := 1, token := token % 65536
        arg := c.group % 65536 + 2 ^ 16 * (c.inst % 256) + extra, payload := payload }
  | none => s

/-- Data bytes of one COLL or PDATA frame: whole 64-byte lines, no more than a chunk (R228, R232; log entry 39). -/
def dataStep (x : Fused) : Nat := min (max x.chunk 64) 14784

/-- Send values as bytes lo on of the working tensor, in frames; TOKEN numbers the chunk they lie in (R292; log entry 39). -/
def State.sendValues (p : Nat) (c : Coll) (dir lo : Nat) (vs : List Nat) (s : State) : State :=
  let bs := valBytes c.valSize vs
  let n := dataStep c.what
  forAll (List.range (cdiv bs.length n)) (fun i s =>
    s.sendColl p c dir ((lo + n * i) / max c.what.chunk 1) 0 ((bs.drop (n * i)).take n)) s

/-- Send a tree-pass frame to a neighbour (R291, R292): TREE and FLAG in ARG, one zero byte. -/
def State.sendTree (p : Nat) (c : Coll) (flag : Bool) (d : Coord) (s : State) : State :=
  match dirTo s.here d with
  | some dir => s.sendColl p c dir 0 (2 ^ 25 + 2 ^ 24 * b2n flag) [0]
  | none => s

/-! ### The tree pass (R291) -/

/-- The flag is final here: the children get it, and DONE follows. -/
def State.treeDown (p : Nat) (c : Coll) (g : Group) (flag : Bool) (s : State) : State :=
  (forAll (g.children s.here) (fun d s => s.sendTree p c flag d) (s.updColl p c.key fun c => { c with flag := flag })).collDone p c.key

/-- After the data phase and with the results of all children: up to the parent, or down again from the root. -/
def State.treeUp (p : Nat) (k : Nat × Nat) (s : State) : State :=
  match s.coll p k with
  | none => s
  | some c =>
    match s.collGroup p c with
    | none => s
    | some g =>
      if !c.dataDone || c.upSent || !(g.children s.here).all (fun d => c.up.any fun u => u.1 == d) then s
      else
        let flag := c.flag && c.up.all (·.2)
        match g.parent s.here with
        | none => s.treeDown p c g flag
        | some d => (s.updColl p k fun c => { c with upSent := true, flag := flag }).sendTree p c flag d

/-! ### Stages (R287 to R289) -/

/-- What stands at DST when the data phase of a reduction or a gather is complete (R148). -/
def State.resultBytes (s : State) (c : Coll) (g : Group) : List Byte × Nat :=
  if c.what.op = opRs then
    let n := c.what.length / max g.size 1
    (valBytes c.valSize (c.slice (g.rank s.here * n) n), 0)
  else if c.what.op = opAg ∧ c.what.landWiden then landWidened (landFmt c.record) (valBytes 1 c.vals)
  else (valBytes c.valSize c.vals, 0)

/-- The data phase is complete: the result is at DST and its chunks' tokens are raised; then the tree pass, or DONE (R148, R291). An AG.MM
is done when its array part has run. -/
def State.dataComplete (p : Nat) (c : Coll) (g : Group) (s : State) : State :=
  let b := s.resultBytes c g
  let s1 := ((((s.fsWrite c.frond c.what.dst b.1).countScaleRange p b.2).updColl p c.key fun c => { c with dataDone := true }).raiseChunks c
    (cdiv b.1.length (max c.what.chunk 1)))
  if c.what.op = opAg then s1 else if c.what.reduces then s1.treeUp p c.key else s1.collDone p c.key

/-- What a member sends of itself when a stage begins: on a ring the piece that its neighbour's sum starts with, at the ends of a line the
pieces of the others; in a gather its own piece (R288, R289). -/
def State.openStage (p : Nat) (g : Group) (c : Coll) (a : Nat) (gather : Bool) (s : State) : State :=
  let n := g.span a
  let i := g.pos s.here a
  let total := c.total g
  let len := g.pieceLen s.here total a
  let send (up : Bool) (j : Nat) (s : State) : State :=
    let lo := g.pieceOff s.here total a j
    s.sendValues p c (if up then 2 * a else 2 * a + 1) lo (c.slice lo len)
  if gather then
    if g.ring s.size a then send true i s
    else
      let s1 := if i + 1 < n then send true i s else s
      if 0 < i then send false i s1 else s1
  else if g.ring s.size a then send true ((i + n - 1) % n) s
  else
    let s1 := if i = 0 then forAll ((List.range n).drop 1) (send true) s else s
    if i + 1 = n then forAll (List.range (n - 1)) (send false) s1 else s1

/-- Go through the stages that need nothing from others, and open the next one that does. -/
def State.runStages (p : Nat) (k : Nat × Nat) : Nat → State → State
  | 0, s => s
  | n + 1, s =>
    match s.coll p k with
    | none => s
    | some c =>
      match s.collGroup p c with
      | none => s
      | some g =>
        match (stagesOf c.what.op g)[c.stage]? with
        | none => s.dataComplete p c g
        | some (a, gather) =>
          let s1 := s.openStage p g c a gather
          if stageNeed g s.size s.here (c.total g) a gather = 0 then
            State.runStages p k n (s1.updColl p k fun c => { c with stage := c.stage + 1 })
          else s1

/-- The local contribution is ready and the program begins (R148, R155). -/
def State.beginProgram (p : Nat) (k : Nat × Nat) (vals : List Nat) (flag : Bool) (s : State) : State :=
  (s.updColl p k fun c => { c with vals := vals, ready := true, flag := flag }).runStages p k 8

/-- A stage that has all it needs ends. -/
def State.endStage (p : Nat) (k : Nat × Nat) (need : Nat) (s : State) : State :=
  match s.coll p k with
  | some c =>
    if need ≤ c.got then
      (s.updColl p k fun c => { c with stage := c.stage + 1, got := 0, left := [], right := [] }).runStages p k 8
    else s
  | none => s

/-- A data frame of a reduction stage (R288): the own values are added on the way; the own piece stays. -/
def State.takeReduce (p : Nat) (c : Coll) (g : Group) (pl : CollPlace) (vs : List Nat) (s : State) : State :=
  let a := pl.axis
  let lo := g.pieceOff s.here (c.total g) a pl.piece + pl.off
  let i := lo / c.valSize
  let me := g.pos s.here a
  if pl.piece = me then
    if g.ring s.size a then let ws := c.addOwn i vs; s.updColl p c.key fun c => (c.sees ws).place i ws
    else
      s.updColl p c.key fun c =>
        (List.range vs.length).foldl (fun c k => c.lineElem (decide (0 < me)) (decide (me + 1 < g.span a)) pl.fromBelow (i + k) (nth 0 vs k)) c
  else
    let ws := c.addOwn i vs
    (s.updColl p c.key (Coll.passes ws)).sendValues p c (if g.ring s.size a || pl.fromBelow then 2 * a else 2 * a + 1) lo ws

/-- A data frame of a gather stage (R289): the values are placed and passed on, to the last member that lacks them (log entry 40). -/
def State.takeGather (p : Nat) (c : Coll) (g : Group) (pl : CollPlace) (vs : List Nat) (s : State) : State :=
  let a := pl.axis
  let lo := g.pieceOff s.here (c.total g) a pl.piece + pl.off
  let me := g.pos s.here a
  let s1 := s.updColl p c.key (Coll.place (lo / c.valSize) vs)
  if g.ring s.size a then (if (me + 1) % g.span a = pl.piece then s1 else s1.sendValues p c (2 * a) lo vs)
  else if pl.fromBelow then (if me + 1 < g.span a then s1.sendValues p c (2 * a) lo vs else s1)
  else if 0 < me then s1.sendValues p c (2 * a + 1) lo vs
  else s1

/-- A data frame of the stage that the member is in. -/
def State.takeData (p : Nat) (c : Coll) (g : Group) (pl : CollPlace) (f : Frame) (s : State) : State :=
  let vs := valsOf c.valSize f.payload
  let s1 := if pl.gather then s.takeGather p c g pl vs else s.takeReduce p c g pl vs
  s1.endStage p c.key (stageNeed g s.size s.here (c.total g) pl.axis pl.gather)

/-- The frame's data lie within the piece that it names. -/
def placeOk (g : Group) (here : Coord) (c : Coll) (pl : CollPlace) (n : Nat) : Bool :=
  decide (pl.piece < g.span pl.axis) && decide (pl.off + n ≤ g.pieceLen here (c.total g) pl.axis) && pl.off % c.valSize == 0
    && n % c.valSize == 0 && !(pl.gather && pl.piece == g.pos here pl.axis)

/-- A tree-pass frame (R291): from the parent the final flag, from a child its result. -/
def State.takeTree (p : Nat) (c : Coll) (g : Group) (f : Frame) (s : State) : State :=
  let flag := bit f.arg 24
  if g.parent s.here = some f.src then (if c.upSent then s.treeDown p c g flag else s)
  else if (g.children s.here).contains f.src && !c.up.any (fun u => u.1 == f.src) then
    (s.updColl p c.key fun c => { c with up := c.up ++ [(f.src, flag)] }).treeUp p c.key
  else s

/-! ### COLL_FRAME -/

/-- The instruction that a COLL frame belongs to (R292). -/
def State.collNamed (s : State) (f : Frame) : Option Coll := (s.getPart f.part).collOf (bits f.arg 15 0) (bits f.arg 23 16)
/-- A COLL frame numbers an instruction that comes after those issued here (R292). -/
def State.collAhead (s : State) (f : Frame) : Bool :=
  decide ((bits f.arg 23 16 + 256 - Tab.get 0 (s.getPart f.part).collNext (bits f.arg 15 0) % 256) % 256 < 128)

/-- The place of a stage in an instruction's program. -/
def stageIndex (op : Nat) (g : Group) (pl : CollPlace) : Nat := (stagesOf op g).idxOf (pl.axis, pl.gather)

/-- A frame that is early stays in the port: its instruction has not been issued here, or has not come to the frame's stage. -/
def State.collEarly (s : State) (f : Frame) (pl : CollPlace) : Bool :=
  match s.collNamed f with
  | none => s.collAhead f
  | some c =>
    if c.done || c.aborted then s.collAhead f
    else match s.collGroup f.part c with
      | some g => !(bit f.arg 25) && (!c.ready || decide (c.stage < stageIndex c.what.op g pl))
      | none => false

/-- What a COLL frame does to the instruction that it belongs to. -/
def State.collActs (f : Frame) (pl : CollPlace) (s : State) : State :=
  match s.collNamed f with
  | none => s
  | some c =>
    match s.collGroup f.part c with
    | none => s
    | some g =>
      if c.done || c.aborted then s
      else if bit f.arg 25 then s.takeTree f.part c g f
      else if stageIndex c.what.op g pl = c.stage ∧ !c.dataDone ∧ placeOk g s.here c pl f.payload.length then s.takeData f.part c g pl f
      else s

/-- A COLL frame that has been taken: received, it is progress, also when the instance is over (R295). -/
def State.collTaken (f : Frame) (pl : CollPlace) (s : State) : State := (s.collProgress f).collActs f pl

/-- Take a one-hop frame of a partition (R231): its destination is here, and the partition's pattern is ARMED or RUNNING. -/
def State.hopArrives (port : Nat) (f : Frame) (s : State) : Bool × State :=
  match s.arrives port f with
  | (false, s1) => (false, s1)
  | (true, s1) =>
    if f.dst ≠ s.here then (false, s1.discardArrived port 5 f)
    else if !(s.getPart f.part).live then (false, s1.discardArrived port 6 f)
    else (true, s1)

/-- The hub link to a frond's die carries traffic (R14, R20). -/
def State.dieOpen (s : State) (f : Nat) : Bool := s.linkOpen (ringOf (frondDie f))

/-- A COLL frame waits in the port: it is early, or the link to the die of its instruction does not carry traffic (R20). -/
def State.collWaits (s : State) (f : Frame) (pl : CollPlace) : Bool :=
  s.collEarly f pl || match s.collNamed f with | some c => !s.dieOpen c.frond | none => false

/-- COLL_FRAME (R231, R292). -/
def State.collFrame (port : Nat) (f : Frame) (pl : CollPlace) (s : State) : State :=
  if f.kind ≠ 2 then s
  else if f.dst = s.here ∧ (s.getPart f.part).live ∧ s.collWaits f pl then s
  else match s.hopArrives port f with
    | (true, s1) => s1.collTaken f pl
    | (false, s1) => s1

/-- COLL_FRAME. -/
def execCollFrame (port : Nat) (frame : Frame) (place : CollPlace) (s : State) : Host.Outcome State Fault Refusal :=
  .next (s.collFrame port frame place)

/-! ### PDATA_FRAME (R232) -/

/-- The ring of a RECV.MM feeds the pass at the head of the array's queue: each chunk whose token is raised is taken in order (R148). -/
def State.feedRing (p f : Nat) (k : Nat × Nat) : Nat → State → State
  | 0, s => s
  | n + 1, s =>
    match s.coll p k with
    | some c =>
      let i := c.chunks
      if c.what.op = opRecv ∧ i < c.chunkCount ∧ s.tokenAt f (c.what.tokenIn + i % max c.what.slots 1) (i / max c.what.slots 1) then
        let bs := s.fsRead f (c.what.dst + c.slotOff i) (c.chunkLen i)
        State.feedRing p f k n (s.updColl p k fun c => { c with vals := c.vals ++ bs.map (·.toNat), chunks := c.chunks + 1, progress := s.stitch })
      else s
    | none => s

/-- Feed the pass at the head of a frond's queue. -/
def State.feed (p f : Nat) (s : State) : State :=
  match (s.getFrond f).arr.queue with
  | x :: _ => match x.fused with | some k => s.feedRing p f k 16 | none => s
  | [] => s

/-- The bytes of a PDATA frame land, and its token is raised behind them (R132, R232). What would land outside the frond store, or in a
frond that the partition has not, is dropped (log entry 41). -/
def State.pdataLands (fr : Frame) (s : State) : State :=
  match s.physical fr.part (bits fr.arg 9 0) with
  | some f =>
    let a := 64 * bits fr.arg 25 10
    if 3670016 < a + fr.payload.length then s
    else
      let s1 := s.fsWrite f a fr.payload
      (if fr.raise ∧ fr.token < 4096 then s1.raiseToken f fr.token else s1).feed fr.part f
  | none => s

/-- A PDATA frame waits in the port while the link to its frond's die does not carry traffic (R20). -/
def State.pdataWaits (s : State) (f : Frame) : Bool := match s.physical f.part (bits f.arg 9 0) with | some g => !s.dieOpen g | none => false

/-- PDATA_FRAME (R231, R232). -/
def State.pdataFrame (port : Nat) (f : Frame) (s : State) : State :=
  if f.kind ≠ 1 then s
  else if f.dst = s.here ∧ (s.getPart f.part).live ∧ s.pdataWaits f then s
  else match s.hopArrives port f with
    | (true, s1) => s1.pdataLands f
    | (false, s1) => s1

/-- PDATA_FRAME. -/
def execPdataFrame (port : Nat) (frame : Frame) (s : State) : Host.Outcome State Fault Refusal := .next (s.pdataFrame port frame)

end Sys2Proof.Machine
end

