-- ==== Sys2Proof/Machine/TwinOps.lean ====
section
/-! DEFINITION. Twin operations that several steps share: leaving comparison (R305), and the end of a donor's copy (R359). -/

namespace Sys2Proof.Machine

/-- Change a partition's twin state. -/
def State.updTwin (p : Nat) (g : Twin → Twin) (s : State) : State := s.updPart p fun q => { q with twin := g q.twin }

/-- Comparison ends: nothing is outstanding and the vote waits for nothing (R305). -/
def Twin.quiet (t : Twin) : Twin := { t with due := none, sentAt := none, waiting := false }

/-- A partition leaves comparison and is SOLO, with the TWIN cause (R305). -/
def State.becomeSolo (p : Nat) (s : State) : State := (s.updTwin p fun t => { t.quiet with state := .solo, soloNext := false }).raise .solo

/-- A bound partition leaves comparison for the loss of the twin port: from the next step where a comparison has completed in this AON tick (R305). -/
def State.leaveTwin (p : Nat) (s : State) : State :=
  if (s.getPart p).twin.comparedAt = some s.now then s.updTwin p fun t => { t with soloNext := true } else s.becomeSolo p

/-- A donor's copy fails: the frames not yet sent are dropped, the failure is counted, and TWIN COPY FAIL is set (R359, R360). -/
def State.copyFails (p : Nat) (s : State) : State :=
  ((s.updPort 12 fun x => { x with tx := x.tx.filter fun f => !(f.kind == 0xB && f.part == p) }).updTwin p fun t =>
    { t with copy := .failed, copyFails := satAdd 32 t.copyFails 1 }).raise .copyFail

/-- The twin port is LOST: every bound partition leaves comparison (R305), and a copy being sent fails (R359). -/
def State.twinLost (s : State) : State :=
  let s1 := forAll (allParts.filter fun p => (s.getPart p).twin.copy == .sending) State.copyFails s
  forAll (allParts.filter fun p => (s.getPart p).twin.state == .bound) State.leaveTwin s1

end Sys2Proof.Machine
end

