-- ==== Sys2Proof/Machine/Aborts.lean ====
section
/-! DEFINITION. The abort of a collective: deadline, abort records, the hold of the vote and the report (R150, R163, R294 to R298, R430). -/

namespace Sys2Proof.Machine

/-- The bytes of an abort record (R296 names its fields; their places: log entry 42). -/
def Abort.bytes (a : Abort) : List Byte :=
  record 24 [⟨0, 8, a.step⟩, ⟨8, 2, a.group⟩, ⟨0xA, 1, a.inst⟩, ⟨0xB, 1, a.member.x⟩, ⟨0xC, 1, a.member.y⟩, ⟨0xD, 1, a.member.z⟩,
    ⟨0xE, 2, a.rank⟩, ⟨0x10, 8, a.progress⟩]
/-- The abort record that bytes spell. -/
def abortParse (b : List Byte) : Abort :=
  { step := fld b 0 8, group := fld b 8 2, inst := fld b 0xA 1, progress := fld b 0x10 8, rank := fld b 0xE 2,
    member := ⟨fld b 0xB 1, fld b 0xC 1, fld b 0xD 1⟩ }

/-- The lower of two records by LAST_PROGRESS, then RANK (R296). -/
def Abort.lower (a b : Abort) : Bool := decide (a.progress < b.progress) || (a.progress == b.progress && decide (a.rank < b.rank))

/-- A STEP.COMMIT is the one instruction that a warden does not discard (R163). -/
def Wait.isCommit : Wait → Bool
  | .commit _ => true
  | _ => false

/-- Passes of fused instructions that still wait in the array queues of a partition, and what its wardens stall on, are discarded with the rest of the
step (R163). -/
def State.dropFused (p : Nat) (s : State) : State :=
  forAll (s.fronds p) (fun f s => s.updFrond f fun x =>
    { x with arr := { x.arr with queue := x.arr.queue.filter fun (y : Pass) => y.fused.isNone }
             wait := x.wait.filter fun e => match e.2 with | some w => w.isCommit | none => false }) s

/-- An instance is aborted here: its DONE is never raised, the wardens discard the step's rest, and the vote will carry ABORT (R150, R163). -/
def State.abortInstance (p : Nat) (k : Nat × Nat) (s : State) : State :=
  let s1 := ((s.updColl p k fun c => { c with aborted := true }).updRun p fun r => { r with abort := true, discard := true }).dropFused p
  (s1.updTwin p fun t => { t with collAborts := satAdd 64 t.collAborts 1 }).noteVote p

/-- Send an abort record to the tree neighbours of its group except the one it came from (R296). -/
def State.relayAbort (p : Nat) (a : Abort) (g : Group) (from_ : Option Coord) (s : State) : State :=
  forAll ((g.tree s.here).filter fun d => some d != from_)
    (fun d s => s.inject { dst := d, src := s.here, part := p, kind := 4, arg := 1, vl := 2, payload := a.bytes }) s

/-- A record is better than the best held, if one is. -/
def Abort.improves (a : Abort) (best : Option Abort) : Bool := match best with | some b => a.lower b | none => true

/-- Keep and relay a record that is better than the best held (R296). -/
def State.keepAbort (p : Nat) (k : Nat × Nat) (a : Abort) (from_ : Option Coord) (s : State) : State :=
  match s.coll p k with
  | some c =>
    if a.improves c.best then
      let s1 := s.updColl p k fun c => { c with best := some a }
      match s.collGroup p c with | some g => s1.relayAbort p a g from_ | none => s1
    else s
  | none => s

/-- A record for an instance of the step (R296, R298): it aborts the instance unless DONE was raised; then it only marks the vote. -/
def State.holdAbort (p : Nat) (k : Nat × Nat) (a : Abort) (from_ : Option Coord) (s : State) : State :=
  match s.coll p k with
  | some c =>
    let s1 := if c.done then s.updRun p fun r => { r with abort := true } else if c.aborted then s else s.abortInstance p k
    s1.keepAbort p k a from_
  | none => s

/-- Two records of one instance. -/
def Abort.sameInstance (a b : Abort) : Bool := a.step == b.step && a.group == b.group && a.inst == b.inst

/-- A record of an instance that is not issued here: kept and relayed when it is the best held; it acts when the instance is issued (R296; log entry
42). -/
def State.keepEarly (p : Nat) (a : Abort) (from_ : Coord) (s : State) : State :=
  let q := s.getPart p
  if a.improves (q.earlyAborts.find? a.sameInstance) then
    let s1 := s.updPart p fun q => { q with earlyAborts := (q.earlyAborts.filter fun b => !a.sameInstance b) ++ [a] }
    match q.image.group a.group with | some g => s1.relayAbort p a g (some from_) | none => s1
  else s

/-- A record received (R296). -/
def State.takeAbort (p : Nat) (a : Abort) (from_ : Coord) (s : State) : State :=
  let q := s.getPart p
  match (q.collOf a.group a.inst).filter fun c => c.step == a.step with
  | some c => s.holdAbort p c.key a (some from_)
  | none => if q.run.step ≤ a.step then s.keepEarly p a from_ else s

/-- ABORT_RECORD (R296): a VOTE frame with ARG 0x1 for this package. -/
def State.abortRecord (port : Nat) (f : Frame) (s : State) : State :=
  if f.kind ≠ 4 ∨ f.arg ≠ 1 ∨ f.dst ≠ s.here then s
  else match s.arrives port f with
    | (false, s1) => s1
    | (true, s1) => if (s1.getPart f.part).live then s1.takeAbort f.part (abortParse f.payload) f.src else s1

/-- ABORT_RECORD. -/
def execAbortRecord (port : Nat) (frame : Frame) (s : State) : Host.Outcome State Fault Refusal := .next (s.abortRecord port frame)

/-- The member's own record (R296). -/
def State.ownAbort (s : State) (p : Nat) (c : Coll) : Abort :=
  { step := c.step, group := c.group, inst := c.inst % 256, progress := c.progress, rank := ((s.collGroup p c).map fun g => g.rank s.here).getD 0, member := s.here }

/-- COLLECTIVE_TIMEOUT (R294, R296, R298): the stitch counter has reached D and DONE has not been raised; each member times out once. -/
def State.collectiveTimeout (p group inst : Nat) (s : State) : State :=
  let k := (group, inst)
  match s.coll p k with
  | some c =>
    if (s.getPart p).pat = .running ∧ opRs ≤ c.what.op ∧ c.deadline ≤ s.stitch ∧ !c.done ∧ !c.timedOut then
      (s.updColl p k fun c => { c with timedOut := true }).holdAbort p k (s.ownAbort p c) none
    else s
  | none => s

/-- COLLECTIVE_TIMEOUT. -/
def execCollectiveTimeout (part group inst : Nat) (s : State) : Host.Outcome State Fault Refusal := .next (s.collectiveTimeout part group inst)

/-- An instance reported before another: the earlier D, the lower GROUP_ID, the lower INSTANCE (R297). -/
def Coll.reportsBefore (a b : Coll) : Bool :=
  decide (a.deadline < b.deadline) || (a.deadline == b.deadline && (decide (a.group < b.group) || (a.group == b.group && decide (a.inst ≤ b.inst))))

/-- The settled instance of the step that PATTERN_STATUS reports (R297). -/
def firstSettled (cs : List Coll) : Option Coll :=
  (cs.filter (·.settled)).foldl (fun b c => match b with | some x => if x.reportsBefore c then some x else some c | none => some c) none

/-- ABORT_AT and ABORT_RANK after an instance has been settled. -/
def Partition.reportAbort (q : Partition) : Partition :=
  match firstSettled q.colls with
  | some c => match c.best with
    | some b => { q with run := { q.run with abortAt := some (b.member, b.rank, c.step) } }
    | none => q
  | none => q

/-- The fault-log entry of an aborted instance (R430). -/
def abortEntry (p : Nat) (a : Abort) : LogArgs :=
  { kind := 4, code := .collAbort, part := p,
    detail := [⟨0, 8, a.step⟩, ⟨8, 2, a.group⟩, ⟨0xA, 1, a.inst⟩, ⟨0xB, 1, a.member.x⟩, ⟨0xC, 1, a.member.y⟩, ⟨0xD, 1, a.member.z⟩, ⟨0xE, 2, a.rank⟩] }

/-- ABORT_HOLD_EXPIRY (R297): at D + 1,024 the member in the best record is logged and reported, and this instance holds the vote no longer. -/
def State.abortHoldExpiry (p group inst : Nat) (s : State) : State :=
  let k := (group, inst)
  match s.coll p k with
  | some c =>
    if (s.getPart p).pat = .running ∧ c.aborted ∧ !c.settled ∧ c.deadline + 1024 ≤ s.stitch then
      let s1 := (s.updColl p k fun c => { c with settled := true }).updPart p Partition.reportAbort
      match c.best with
      | some b => s1.log (abortEntry p { b with step := c.step, group := group, inst := inst % 256 })
      | none => s1
    else s
  | none => s

/-- ABORT_HOLD_EXPIRY. -/
def execAbortHoldExpiry (part group inst : Nat) (s : State) : Host.Outcome State Fault Refusal := .next (s.abortHoldExpiry part group inst)

end Sys2Proof.Machine
end

