-- ==== Sys2Proof/Machine/Announce.lean ====
section
/-! DEFINITION. Rate levels and announcements: the level rules (R116, R341 to R344, R348, R429), the announcement envelope, its relay and
its application (R281 to R285, R347, R355). -/

namespace Sys2Proof.Machine

/-! ### Rate levels -/

/-- Rate tables of every partition that holds a pattern (R343). -/
def State.loadedTables (s : State) : List (List RateEntry) :=
  (allParts.filter fun p => (s.getPart p).holds).map fun p => (s.getPart p).image.rate

/-- A table enables a level. -/
def enables (t : List RateEntry) (l : Nat) : Bool := (nth {} t l).enabled
/-- The highest level that a table enables. -/
def highest (t : List RateEntry) : Nat := (((List.range 16).filter (enables t)).getLast?).getD 0
/-- L_cap (10 *The run level*). -/
def State.lCap (s : State) : Nat := s.loadedTables.foldl (fun a t => min a (highest t)) 15
/-- Every loaded table enables a level. -/
def State.enabledEverywhere (s : State) (l : Nat) : Bool := s.loadedTables.all (enables · l)
/-- The goal under a scheduled and a thermal level (R343); 0 on a parked package (R340). -/
def State.goal (s : State) (sched therm : Nat) : Nat :=
  if s.aon.park = .parked then 0
  else (((List.range (min (min sched s.lCap) therm + 1)).filter s.enabledEverywhere).getLast?).getD 0
/-- Stitches that a level lasts before the next step (R343). -/
def stepStitches (l : Nat) : Nat := cdiv (625 * (30 + 14 * l)) 192
/-- An opportunity of R343: the interval of the present level has passed at stitch k. -/
def State.mayStep (s : State) (k : Nat) : Bool := match s.rate.lastStep with | some t => decide (t + stepStitches s.rate.run ≤ k) | none => true
/-- Core voltage of a level in mV (R341). -/
def levelMv (l : Nat) : Nat := nth 0 [550, 567, 583, 600, 617, 633, 650, 667, 683, 700, 717, 733, 750, 767, 783, 800] l
/-- Wake lead in microseconds for a step to a level (R344). -/
def State.wakeLead (s : State) (l : Nat) : Nat :=
  if s.loadedTables.isEmpty then 1000
  else (s.loadedTables.map fun t =>
    match (List.range 16).find? fun i => decide (l ≤ i) && enables t i with | some i => (nth {} t i).lead | none => 0).foldl max 0
/-- Microseconds as stitches at a level, rounded up (R341, R344). -/
def leadStitches (level micros : Nat) : Nat := cdiv (micros * 1000 * (30 + 14 * level)) 614400
/-- The level that a target gives (R348). -/
def policyLevel (targetKw packages : Nat) (t : List RateEntry) : Nat :=
  (((List.range 16).filter fun l => enables t l && decide ((nth {} t l).watts ≤ targetKw * 1000 / max packages 1)).getLast?).getD 0

/-! ### Applying announcements -/

/-- Count a rate announcement as ignored (R348). -/
def State.annIgnored (s : State) : State :=
  ({ s with rate := { s.rate with ignored := satAdd 32 s.rate.ignored 1 } }).raise .annIgnored

/-- A rate announcement takes effect (R348). -/
def State.applyRate (b : List Byte) (s : State) : State :=
  let q := s.getPart (fld b 1 1)
  if 64 ≤ fld b 1 1 ∨ !q.holds then s.annIgnored
  else if fld b 0 1 = 1 then
    { s with rate := { s.rate with
      sched := policyLevel (fld b 4 4) q.image.fabricPackages q.image.rate, targetKw := fld b 4 4 } }
  else if fld b 0 1 = 2 then
    if enables q.image.rate (fld b 2 1) then { s with rate := { s.rate with sched := fld b 2 1 } } else s.annIgnored
  else s

/-- A twin announcement takes effect (R355, R356): it waits for the decision of its step; another fabric's is counted and ignored. -/
def State.applyTwin (eff : Nat) (b : List Byte) (s : State) : State :=
  match s.links.plan with
  | some pl =>
    if fld b 2 1 = pl.twin then
      if 64 ≤ fld b 1 1 then s else s.updPart (fld b 1 1) fun q => { q with twin := { q.twin with acts := q.twin.acts ++ [(fld b 0 1, eff, fld b 4 4)] } }
    else { s with anns := { s.anns with foreign := satAdd 64 s.anns.foreign 1 } }
  | none => s

/-- Apply one announcement. -/
def State.applyAnn (a : Ann) (s : State) : State :=
  if a.atype = 1 then s.applyRate a.body else if a.atype = 2 then s.applyTwin a.effective a.body else s

/-- The order of application (R284): EFFECTIVE, fabric rank of the origin, SEQ. -/
def annBefore (size : Coord) (a b : Ann) : Bool :=
  decide (a.effective < b.effective)
    || (a.effective == b.effective && (decide (rankOf size a.origin < rankOf size b.origin)
      || (a.origin == b.origin && decide (a.seq ≤ b.seq))))

/-- Put an announcement into a list in the order of application. -/
def annInsert (size : Coord) (a : Ann) : List Ann → List Ann
  | [] => [a]
  | b :: t => if annBefore size a b then a :: b :: t else b :: annInsert size a t

/-- The announcements that a boundary applies, in order. -/
def State.dueAnns (s : State) (k : Nat) : List Ann :=
  (s.anns.held.filter fun a => decide (a.due ≤ k)).foldr (annInsert s.size) []

/-- ANNOUNCEMENT_APPLY (R284, R285). -/
def State.announcementApply (s : State) : State :=
  forAll (s.dueAnns s.stitch) State.applyAnn
    { s with anns := { s.anns with held := s.anns.held.filter fun a => decide (s.stitch < a.due) } }

/-- ANNOUNCEMENT_APPLY. -/
def execAnnouncementApply (s : State) : Host.Outcome State Fault Refusal := .next s.announcementApply

/-- No announcement waits to be applied at the present boundary. -/
def State.annsDone (s : State) : Bool := s.anns.held.all fun a => decide (s.stitch < a.due)

/-- LOCAL_RATE_APPLY (R284, R347): after every announcement due, in acceptance order. -/
def State.localRateApply (s : State) : State :=
  if s.annsDone then
    let due := s.rate.locals.filter fun e => decide (e.1 ≤ s.stitch)
    { s with rate := { s.rate with
      sched := (due.getLast?.map (·.2)).getD s.rate.sched, locals := s.rate.locals.filter fun e => decide (s.stitch < e.1) } }
  else s

/-- LOCAL_RATE_APPLY. -/
def execLocalRateApply (s : State) : Host.Outcome State Fault Refusal := .next s.localRateApply

/-- ANNOUNCEMENT_FORGET (R283): 65,536 stitches after EFFECTIVE. -/
def State.announcementForget (origin : Coord) (seq : Nat) (s : State) : State :=
  { s with anns := { s.anns with
    known := s.anns.known.filter fun e => !(e.1 == origin && e.2.1 == seq && decide (e.2.2 + 65536 ≤ s.stitch)) } }

/-- ANNOUNCEMENT_FORGET. -/
def execAnnouncementForget (origin : Coord) (seq : Nat) (s : State) : Host.Outcome State Fault Refusal :=
  .next (s.announcementForget origin seq)

/-! ### Holding and relaying -/

/-- Fabric ports that carry broadcasts (R263, R283). -/
def State.castPorts (s : State) : List Nat := (List.range 12).filter fun p => (s.getPort p).state == .up && !(s.isSelvage p)

/-- The BROADCAST payload of an announcement (R281). -/
def Ann.bytes (a : Ann) : List Byte :=
  record 16 [⟨0, 8, a.effective⟩, ⟨8, 4, a.seq⟩, ⟨0xC, 1, a.origin.x⟩, ⟨0xD, 1, a.origin.y⟩, ⟨0xE, 1, a.origin.z⟩, ⟨0xF, 1, a.atype⟩] ++ a.body

/-- Send an announcement on every port that carries broadcasts except one. -/
def State.castAnn (a : Ann) (but : Option Nat) (s : State) : State :=
  forAll (s.castPorts.filter fun p => some p != but)
    (fun p s => s.sendHop p { dst := neighbour s.size s.here (s.dirOf p), src := s.here, kind := 5, vl := 2, payload := a.bytes }) s

/-- Hold and remember an announcement (R283). -/
def State.holdAnn (a : Ann) (s : State) : State :=
  { s with anns := { s.anns with held := s.anns.held ++ [a], known := s.anns.known ++ [(a.origin, a.seq, a.effective)] } }

/-- The origin's own checks of R282: EFFECTIVE too close, or 64 announcements held. -/
def State.annRefusal (s : State) (effective : Nat) : Option Status :=
  if effective < s.stitch + 50000 then some .badParam else if 64 ≤ s.anns.held.length then some .busy else none

/-- Originate an announcement (R282): it is held and sent on every port that carries broadcasts. -/
def State.originate (atype effective : Nat) (body : List Byte) (s : State) : State :=
  let a : Ann := { effective := effective, seq := s.anns.seq, origin := s.here, atype := atype, body := body, due := effective }
  (State.holdAnn a { s with anns := { s.anns with seq := (s.anns.seq + 1) % 2 ^ 32 } }).castAnn a none

/-- The announcement a BROADCAST payload spells, as it is held when it arrives at stitch k. -/
def annParse (b : List Byte) (k : Nat) : Ann :=
  { effective := fld b 0 8, seq := fld b 8 4, origin := ⟨fld b 0xC 1, fld b 0xD 1, fld b 0xE 1⟩, atype := fld b 0xF 1,
    body := (b.drop 16).take 112, due := if fld b 0 8 ≤ k then k + 1 else fld b 0 8 }

/-- An announcement is known: its origin and SEQ are remembered, or it is still held (R283). -/
def Anns.knows (x : Anns) (a : Ann) : Bool :=
  x.known.any (fun e => e.1 == a.origin && e.2.1 == a.seq) || x.held.any fun e => e.origin == a.origin && e.seq == a.seq

/-- BROADCAST_FRAME (R283, R285). -/
def State.broadcastFrame (port : Nat) (f : Frame) (s : State) : State :=
  if f.kind ≠ 5 then s
  else match s.arrives port f with
  | (false, s1) => s1
  | (true, s1) =>
    let a := annParse f.payload s.stitch
    if s1.anns.knows a then s1
    else if a.effective + 65536 < s.stitch ∨ 64 ≤ s1.anns.held.length then
      ({ s1 with anns := { s1.anns with dropped := satAdd 64 s1.anns.dropped 1 } }).raise .annDropped
    else
      let s2 := if a.effective ≤ s.stitch then
          ({ s1 with anns := { s1.anns with late := satAdd 64 s1.anns.late 1 } }).raise .annLate else s1
      (s2.holdAnn a).castAnn a (some port)

/-- BROADCAST_FRAME. -/
def execBroadcastFrame (port : Nat) (frame : Frame) (s : State) : Host.Outcome State Fault Refusal := .next (s.broadcastFrame port frame)

end Sys2Proof.Machine
end

