-- ==== Sys2Proof/Machine/ImageCheck.lean ====
section
/-! DEFINITION. The pattern image: its layout, its checks in the order of R428, and what a load keeps of it (R112 to R124, R141 check 1). -/

namespace Sys2Proof.Machine

/-! ### Reading an image -/

/-- One check of an image: whether it holds, and the REASON, INDEX and image offset of its failure (R143). -/
structure Chk where
  ok : Bool
  reason : Nat
  index : Nat
  off : Nat
deriving DecidableEq, Repr

/-- A range or equality (REASON 0x0107). -/
def chk (index off : Nat) (ok : Bool) : Chk := ⟨ok, 0x0107, index, off⟩
/-- A reserved field (0x0106). -/
def rsv (index off : Nat) (ok : Bool) : Chk := ⟨ok, 0x0106, index, off⟩
/-- A directory condition (0x0105). -/
def dirc (index off : Nat) (ok : Bool) : Chk := ⟨ok, 0x0105, index, off⟩

/-- Directory entry i of an image: TYPE, COUNT, OFFSET, LENGTH (R114). -/
def dirEntry (b : List Byte) (i : Nat) : Nat × Nat × Nat × Nat :=
  let o := 0x80 + 16 * i
  (fld b o 2, fld b (o + 2) 2, fld b (o + 8) 4, fld b (o + 0xC) 4)

/-- The section of a TYPE: offset, COUNT and LENGTH. -/
def sectionOf (b : List Byte) (t : Nat) : Nat × Nat × Nat :=
  match (List.range 16).find? fun i => (dirEntry b i).1 == t with
  | some i => (dirEntry b i).2.2.1 |> fun o => (o, (dirEntry b i).2.1, (dirEntry b i).2.2.2)
  | none => (0, 0, 0)

/-- Offset of a section. -/
def secOff (b : List Byte) (t : Nat) : Nat := (sectionOf b t).1
/-- COUNT of a section. -/
def secCount (b : List Byte) (t : Nat) : Nat := (sectionOf b t).2.1
/-- LENGTH of a section. -/
def secLen (b : List Byte) (t : Nat) : Nat := (sectionOf b t).2.2

/-- Low and high bound of the image's box on an axis. -/
def imgBox (b : List Byte) (a : Nat) : Nat × Nat := (fld b (0x48 + 4 * a) 2, fld b (0x4A + 4 * a) 2)
/-- Low and high bound of the job box on an axis. -/
def imgJob (b : List Byte) (a : Nat) : Nat × Nat := (fld b (0x54 + 4 * a) 2, fld b (0x56 + 4 * a) 2)
/-- Size of the fabric on an axis. -/
def imgSize (b : List Byte) (a : Nat) : Nat := fld b (0x20 + 2 * a) 2

/-- RESOURCES records. -/
def imgResources (b : List Byte) : List Resource :=
  (List.range (secCount b 1)).map fun i =>
    let o := secOff b 1 + 16 * i
    { res := fld b o 1, index := fld b (o + 2) 2, amount := fld b (o + 8) 8 }

/-- FRONDS records. -/
def imgFronds (b : List Byte) : List FrondRec :=
  (List.range (secCount b 2)).map fun i =>
    let o := secOff b 2 + 256 * i
    { lfrond := fld b o 2, wardens := fld b (o + 2) 2, pages := fld b (o + 4) 2, slots := fld b (o + 6) 1, entry := slice b (o + 8) 16,
      constOffset := fld b (o + 0x18) 4, constLength := fld b (o + 0x1C) 4, constDest := fld b (o + 0x20) 4,
      relocFirst := fld b (o + 0x24) 4, relocCount := fld b (o + 0x28) 4,
      slotBody := (List.range 64).map fun s => fld b (o + 0x40 + 2 * s) 2 }

/-- GROUPS records; MEMBERS 0 stands for 32,768 (R120). -/
def imgGroups (b : List Byte) : List Group :=
  (List.range (secCount b 6)).map fun i =>
    let o := secOff b 6 + 16 * i
    let m := fld b (o + 0xA) 2
    { id := fld b o 2, axes := fld b (o + 2) 1, box := (List.range 6).map fun k => fld b (o + 4 + k) 1, members := if m = 0 then 32768 else m }

/-- RATE entries. -/
def imgRate (b : List Byte) : List RateEntry :=
  (List.range 16).map fun l =>
    let o := secOff b 7 + 0x20 + 8 * l
    { watts := fld b o 2, enabled := bit (fld b (o + 2) 1) 0, lead := fld b (o + 4) 2 }

/-- Signature regions. -/
def imgRegions (b : List Byte) : List Region :=
  (List.range (secCount b 8)).map fun i =>
    let o := secOff b 8 + 16 + 24 * i
    { space := fld b o 1, offset := fld b (o + 8) 8, length := fld b (o + 16) 8 }

/-- SLOTS entries. -/
def imgSlots (b : List Byte) : List SlotEntry :=
  (List.range (secCount b 9)).map fun i =>
    let o := secOff b 9 + 16 + 16 * i
    { first := fld b o 2, width := fld b (o + 2) 1, maxTokens := fld b (o + 4) 4, input := fld b (o + 8) 8 }

/-- What the package keeps of an image (R112, R144). COLL_TIMEOUT 0 selects 2^20 (R113). -/
def imageParse (b : List Byte) : Image :=
  { patternId := fld b 0x10 8, flags := fld b 0x1F 1, size := (List.range 3).map (imgSize b), profile := fld b 0x26 1, fronds := fld b 0x28 2,
    stepStitches := fld b 0x2C 4, slipBudget := fld b 0x30 4, realignLead := fld b 0x34 2,
    collTimeout := if fld b 0x38 4 = 0 then 2 ^ 20 else fld b 0x38 4, steps := fld b 0x40 8,
    box := (List.range 3).flatMap fun a => [(imgBox b a).1, (imgBox b a).2], job := (List.range 3).flatMap fun a => [(imgJob b a).1, (imgJob b a).2],
    resources := imgResources b, records := imgFronds b, groups := imgGroups b, fabricPackages := fld b (secOff b 7) 4, rate := imgRate b,
    sigFlags := fld b (secOff b 8) 1, lossOffset := fld b (secOff b 8 + 8) 8, regions := imgRegions b, slotCount := fld b (secOff b 9) 2,
    slotFlags := fld b (secOff b 9 + 8) 1, slots := imgSlots b }

/-! ### Header and directory (R113, R114) -/

/-- CRC-32 over an image with its IMAGE_CRC field read as zero (R113). -/
def imageCrc (b : List Byte) : Nat := (crc32 (b.take 12 ++ [0, 0, 0, 0] ++ b.drop 16)).toNat

/-- The first group of R428, before the CRC. -/
def firstChecks (b : List Byte) (size : Nat) : List Chk :=
  let isz := fld b 8 4
  [⟨fld b 0 4 == 0x54504734, 0x0101, 0, 0⟩, ⟨fld b 5 1 == 1, 0x0102, 0, 4⟩, chk 0 6 (fld b 6 2 == 0x180),
    ⟨isz % 64 == 0 && decide (0x180 ≤ isz) && decide (isz ≤ 134217728) && isz == size, 0x0103, 0, 8⟩]

/-- The box fields of an axis: the image box in the fabric at X_HI (joined only with its own bounds), as R113 orders them. -/
def boxChecks (b : List Byte) : List Chk :=
  (List.range 3).map fun a => chk 0 (0x4A + 4 * a) (decide ((imgBox b a).1 ≤ (imgBox b a).2) && decide ((imgBox b a).2 < imgSize b a))

/-- The job box fields: in the fabric, and holding the image's box (R124). The image's box is held against the job box axis by axis, at the JOB_*_HI field of
each: DESIGN CHOICE, log entry 81. -/
def jobChecks (b : List Byte) : List Chk :=
  (List.range 3).map fun a =>
    chk 0 (0x56 + 4 * a) (decide ((imgJob b a).1 ≤ (imgJob b a).2) && decide ((imgJob b a).2 < imgSize b a)
      && decide ((imgJob b a).1 ≤ (imgBox b a).1) && decide ((imgBox b a).2 ≤ (imgJob b a).2))

/-- The second group of R428: the other header fields, in ascending offset. -/
def headerChecks (b : List Byte) : List Chk :=
  let dim (a : Nat) : Bool := decide (1 ≤ imgSize b a) && decide (imgSize b a ≤ 256)
  [rsv 0 0x1F (decide (fld b 0x1F 1 < 2)), chk 0 0x20 (dim 0), chk 0 0x22 (dim 1),
    chk 0 0x24 (dim 2 && decide (imgSize b 0 * imgSize b 1 * imgSize b 2 ≤ 32768)), chk 0 0x26 (decide (fld b 0x26 1 < 2)),
    rsv 0 0x27 (zeros b 0x27 0x28), chk 0 0x28 (decide (4 ≤ fld b 0x28 2) && decide (fld b 0x28 2 ≤ 576) && fld b 0x28 2 % 4 == 0),
    rsv 0 0x2A (zeros b 0x2A 0x2C), chk 0 0x2C (decide (4096 ≤ fld b 0x2C 4) && decide (fld b 0x2C 4 ≤ 2 ^ 31)),
    chk 0 0x30 (decide (fld b 0x30 4 < fld b 0x2C 4)), chk 0 0x34 (decide (16 ≤ fld b 0x34 2)), rsv 0 0x36 (zeros b 0x36 0x38),
    rsv 0 0x3C (zeros b 0x3C 0x40)] ++ boxChecks b ++ jobChecks b ++ [rsv 0 0x60 (zeros b 0x60 0x80)]

/-- COUNT is what R114 asks of a TYPE. -/
def countOk (b : List Byte) (t c : Nat) : Bool := if t = 4 then c == 0 else if t = 7 then c == 1 else if t = 2 then c == fld b 0x28 2 else true

/-- LENGTH is what R114 asks of a TYPE and COUNT. -/
def lengthOk (t c len : Nat) : Bool :=
  if t = 4 then true
  else len == nth 0 [0, 16 * c, 256 * c, 4096 * c, 0, 8 * c, 16 * c, 160, 16 + 24 * c, 16 + 16 * c] t

/-- Two sections do not overlap. -/
def apart (a b : Nat × Nat × Nat × Nat) : Bool :=
  a.1 == 0 || b.1 == 0 || a.2.2.2 == 0 || b.2.2.2 == 0 || decide (a.2.2.1 + a.2.2.2 ≤ b.2.2.1) || decide (b.2.2.1 + b.2.2.2 ≤ a.2.2.1)

/-- Checks of directory entry i (R114). -/
def entryChecks (b : List Byte) (i : Nat) : List Chk :=
  let o := 0x80 + 16 * i
  let e := dirEntry b i
  let t := e.1
  if t = 0 then
    [dirc 0 (o + 2) (e.2.1 == 0), dirc 0 (o + 4) (zeros b (o + 4) (o + 8)), dirc 0 (o + 8) (e.2.2.1 == 0), dirc 0 (o + 0xC) (e.2.2.2 == 0)]
  else
    [dirc t o (decide (t ≤ 9) && !((List.range i).any fun j => (dirEntry b j).1 == t)), dirc t (o + 2) (countOk b t e.2.1),
      dirc t (o + 4) (zeros b (o + 4) (o + 8)), dirc t (o + 8) (e.2.2.1 % 64 == 0 && decide (0x180 ≤ e.2.2.1)),
      ⟨decide (e.2.2.1 + e.2.2.2 ≤ fld b 8 4), 0x0103, t, o + 0xC⟩, dirc t (o + 0xC) (lengthOk t e.2.1 e.2.2.2),
      dirc t (o + 0xC) ((List.range i).all fun j => apart e (dirEntry b j))]

/-- Each section TYPE appears; the offset reported for a missing one is free (log entry 19). -/
def missingChecks (b : List Byte) : List Chk :=
  (List.range 9).map fun k => dirc (k + 1) (Config.admissionIndex (k + 1)) ((List.range 16).any fun i => (dirEntry b i).1 == k + 1)

/-- The third group of R428. -/
def directoryChecks (b : List Byte) : List Chk := (List.range 16).flatMap (entryChecks b) ++ missingChecks b

/-! ### Sections (R115 to R123) -/

/-- Declared amount of a resource. -/
def amountIn (rs : List Resource) (res idx : Nat) : Nat := match rs.find? (fun r => r.res == res && r.index == idx) with | some r => r.amount | none => 0

/-- RESOURCES (R115, R124). -/
def resourceChecks (b : List Byte) (rs : List Resource) : List Chk :=
  let lastCtx := (List.range rs.length).foldl (fun a i => if (nth ⟨0, 0, 0⟩ rs i).res = 7 ∨ (nth ⟨0, 0, 0⟩ rs i).res = 8 then i else a) 0
  ((List.range rs.length).zip rs).flatMap fun x =>
    let i := x.1
    let r := x.2
    let o := secOff b 1 + 16 * i
    let limit := if r.res = 1 ∨ r.res = 2 then fld b 0x28 2 else if r.res = 5 then 12 else 1
    [chk 1 o (decide (1 ≤ r.res) && decide (r.res ≤ 8)), rsv 1 (o + 1) (zeros b (o + 1) (o + 2)),
      chk 1 (o + 2) (decide (r.index < limit) && !((rs.take i).any fun q => q.res == r.res && q.index == r.index)),
      rsv 1 (o + 4) (zeros b (o + 4) (o + 8)),
      chk 1 (o + 8) ((!(r.res == 1 || r.res == 3 || r.res == 4) || r.amount % 4096 == 0)
        && (!(r.res == 5) || r.amount == 0 || decide (r.index < 6))
        && (!(i == lastCtx) || amountIn rs 8 0 == 0 || amountIn rs 7 0 != 0))]

/-- FRONDS (R117, R118), what a record shows by itself and against RESOURCES. -/
def frondChecks (b : List Byte) (rs : List Resource) (fs : List FrondRec) : List Chk :=
  ((List.range fs.length).zip fs).flatMap fun x =>
    let l := x.1
    let f := x.2
    let o := secOff b 2 + 256 * l
    [chk 2 o (f.lfrond == l), rsv 2 (o + 2) (decide (f.wardens < 4096)), chk 2 (o + 4) (f.pages == amountIn rs 1 l / 4096),
      chk 2 (o + 6) (f.slots == amountIn rs 2 l && decide (f.slots ≤ f.pages)), rsv 2 (o + 7) (zeros b (o + 7) (o + 8))]
    ++ ((List.range 16).map fun g => chk 2 (o + 8 + g) ((nth 0 f.entry g).toNat == 255 || decide ((nth 0 f.entry g).toNat < f.slots)))
    ++ [chk 2 (o + 0x20) (f.constDest % 64 == 0
          && (f.constLength == 0 || (decide (4096 * f.slots ≤ f.constDest) && decide (f.constDest + f.constLength ≤ 4096 * f.pages)))),
        rsv 2 (o + 0x2C) (zeros b (o + 0x2C) (o + 0x40))]
    ++ ((List.range 64).map fun s => chk 2 (o + 0x40 + 2 * s) (decide (s < f.slots) || nth 0 f.slotBody s == 0xFFFF))
    ++ [rsv 2 (o + 0xC0) (zeros b (o + 0xC0) (o + 0x100))]

/-- The combination of R52 that an array operation names, as far as its words tell it. -/
def combOk (x : Option (Nat × Nat) × Option Nat) : Bool :=
  (match x.1 with | some w => weightsOk w.1 w.2 | none => true)
    && match x.1, x.2 with
       | some w, some a => actsOk w.1 a
       | none, some a => actsOk 0 a || actsOk 4 a
       | _, none => true

/-- The lowest logical frond that has body j in a slot, which a format code of that body reports; the spec names none for a body that no frond has (log
entry 19). -/
def bodyUser (fs : List FrondRec) (j : Nat) : Nat :=
  ((List.range fs.length).find? fun l =>
    let f := nth default fs l
    (List.range (min 64 f.slots)).any fun s => nth 0 f.slotBody s == j).getD (Config.admissionIndex j)

/-- The format codes and array combinations that the words of a body hold (R52, R79, R148), at the body that holds them (R428). Which words hold them is the
FREE encoding of log entry 79. -/
def codeChecks (b : List Byte) (fs : List FrondRec) : List Chk :=
  (List.range (secCount b 3)).flatMap fun j =>
    let o := secOff b 3 + 4096 * j
    (List.range 1024).flatMap fun i =>
      let w := fld b (o + 4 * i) 4
      [⟨!Config.cvtWord (BitVec.ofNat 32 w) || decide (bits w 27 24 < 9), 0x0108, bodyUser fs j, o + 4 * i⟩,
        ⟨combOk (Config.arrayOp (slice b (o + 4 * i) (4096 - 4 * i))), 0x0108, bodyUser fs j, o + 4 * i⟩]

/-- BODIES: the conditions that join it with FRONDS, which report the FRONDS field that breaks them (DESIGN CHOICE, log entry 81), then its words. -/
def bodyChecks (b : List Byte) (fs : List FrondRec) : List Chk :=
  (((List.range fs.length).zip fs).flatMap fun x =>
    (List.range (min 64 x.2.slots)).map fun s =>
      chk 2 (secOff b 2 + 256 * x.1 + 0x40 + 2 * s) (decide (nth 0 x.2.slotBody s < secCount b 3)))
  ++ codeChecks b fs

/-- The bytes of a frond's constant copy that lie at a frond-store address, as an image offset, when n of them do. -/
def inCopy (b : List Byte) (f : FrondRec) (addr n : Nat) : Option Nat :=
  if f.constDest ≤ addr ∧ addr + n ≤ f.constDest + f.constLength then some (secOff b 4 + f.constOffset + (addr - f.constDest)) else none

/-- RELOC records of a frond: record index, FS_ADDR and KIND (R119). -/
def relocsOf (b : List Byte) (f : FrondRec) : List (Nat × Nat × Nat) :=
  (List.range f.relocCount).map fun k =>
    let j := f.relocFirst + k
    (j, fld b (secOff b 5 + 8 * j) 3, fld b (secOff b 5 + 8 * j + 3) 1)

/-- The array parameters that a fused record names at AOP, when they lie in the frond's constant copy: a combination of R52 (log entry 79). -/
def aopChecks (b : List Byte) (l : Nat) (f : FrondRec) (g : Fused) : List Chk :=
  match (if g.op = 6 then none else inCopy b f g.aop 1) with
  | some io => [⟨combOk (Config.arrayOp (slice b io (f.constDest + f.constLength - g.aop))), 0x0108, l, io⟩]
  | none => []

/-- The format codes of the marked fused records and the array parameters that they name, made at the constant bytes that hold them (R52, R79, R428), in
ascending offset. -/
def formatChecks (b : List Byte) (fs : List FrondRec) : List Chk :=
  let all : List Chk := ((List.range fs.length).zip fs).flatMap fun x =>
    ((relocsOf b x.2).filter fun r => decide (r.1 < secCount b 5)).flatMap fun r =>
      if r.2.2 = 0x11 ∧ r.2.1 % 64 = 0 then
        match inCopy b x.2 r.2.1 64 with
        | some io =>
          let g := fusedParse (slice b io 64)
          [⟨!g.narrow || decide (g.cvt % 16 < 9), 0x0108, x.1, io + 0xC⟩, ⟨decide (g.redFmt < 9), 0x0108, x.1, io + 0xD⟩] ++ aopChecks b x.1 x.2 g
        | none => []
      else []
  match (all.filter fun c => !c.ok).foldl (fun (a : Option Chk) c => match a with | some x => if x.off ≤ c.off then some x else some c | none => some c) none with
  | some c => [c]
  | none => []

/-- CONST: the conditions that join it with FRONDS, which report the FRONDS field that breaks them (DESIGN CHOICE, log entry 81), and the format codes. -/
def constChecks (b : List Byte) (fs : List FrondRec) : List Chk :=
  ((List.range fs.length).zip fs).map (fun x =>
    chk 2 (secOff b 2 + 256 * x.1 + 0x1C) (decide (x.2.constOffset + x.2.constLength ≤ secLen b 4))) ++ formatChecks b fs

/-- Members of a group of the image. -/
def membersIn (gs : List Group) (id : Nat) : Option Nat := (gs.find? fun g => g.id == id).map (·.members)

/-- What a RELOC record breaks in one frond that names it (R118, R119). -/
def relocFrond (b : List Byte) (gs : List Group) (rb addr kind l : Nat) (f : FrondRec) : List Chk :=
  if kind = 1 ∨ kind = 2 then [chk 5 rb (addr % 8 == 0 && (inCopy b f addr 8).isSome)]
  else if kind = 0x10 ∨ kind = 0x11 then
    let n := if kind = 0x10 then 32 else 64
    match inCopy b f addr n with
    | some io =>
      if addr % n ≠ 0 then [⟨false, 0x0109, l, rb⟩]
      else
        let bad := if kind = 0x10 then spoolBad (slice b io 32) f.pages else fusedBad (slice b io 64) (membersIn gs)
        [⟨bad.isNone, 0x0109, l, io + bad.getD 0⟩]
    | none => [⟨false, 0x0109, l, rb⟩]
  else []

/-- RELOC: the conditions that join it with FRONDS first, which report the FRONDS field that breaks them (DESIGN CHOICE, log entry 81), then the records in
ascending index. -/
def relocChecks (b : List Byte) (fs : List FrondRec) (gs : List Group) : List Chk :=
  let n := secCount b 5
  (((List.range fs.length).zip fs).map fun x =>
    chk 2 (secOff b 2 + 256 * x.1 + 0x28) (decide (x.2.relocFirst + x.2.relocCount ≤ n)))
  ++ (List.range n).flatMap fun j =>
    let rb := secOff b 5 + 8 * j
    let addr := fld b rb 3
    let kind := fld b (rb + 3) 1
    let users := ((List.range fs.length).zip fs).filter fun x => decide (x.2.relocFirst ≤ j) && decide (j < x.2.relocFirst + x.2.relocCount)
    let found := users.flatMap fun x => relocFrond b gs rb addr kind x.1 x.2
    (found.filter fun c => c.reason == 0x0107)
      ++ [chk 5 (rb + 3) (kind == 1 || kind == 2 || kind == 0x10 || kind == 0x11), rsv 5 (rb + 4) (zeros b (rb + 4) (rb + 8))]
      ++ (found.filter fun c => c.reason != 0x0107)

/-- Product of the spans of a group's axes (R120). -/
def groupSpan (g : Group) : Nat :=
  (List.range 3).foldl (fun p a => if bit g.axes a then p * (nth 0 g.box (2 * a + 1) + 1 - nth 0 g.box (2 * a)) else p) 1

/-- GROUPS (R120, R124). A group's bounds are held against the boxes axis by axis: DESIGN CHOICE, log entry 81. -/
def groupChecks (b : List Byte) (gs : List Group) : List Chk :=
  ((List.range gs.length).zip gs).flatMap fun x =>
    let g := x.2
    let o := secOff b 6 + 16 * x.1
    [chk 6 o (g.id != 0xFFFF && !((gs.take x.1).any fun h => h.id == g.id)), rsv 6 (o + 2) (decide (g.axes < 8)), rsv 6 (o + 3) (zeros b (o + 3) (o + 4))]
    ++ ((List.range 3).map fun a =>
      let lo := nth 0 g.box (2 * a)
      let hi := nth 0 g.box (2 * a + 1)
      chk 6 (o + 5 + 2 * a) (decide (lo ≤ hi) && decide (lo ≤ (imgBox b a).1) && decide ((imgBox b a).2 ≤ hi) && decide ((imgJob b a).1 ≤ lo)
        && decide (hi ≤ (imgJob b a).2)))
    ++ [chk 6 (o + 0xA) (decide (2 ≤ groupSpan g) && decide (groupSpan g ≤ 32768) && fld b (o + 0xA) 2 == groupSpan g % 32768), rsv 6 (o + 0xC) (zeros b (o + 0xC) (o + 0x10))]

/-- RATE (R121, R342). -/
def rateChecks (b : List Byte) (rt : List RateEntry) : List Chk :=
  let o := secOff b 7
  [chk 7 o (decide (1 ≤ fld b o 4) && decide (fld b o 4 ≤ 32768)), rsv 7 (o + 4) (zeros b (o + 4) (o + 0x20))]
  ++ ((List.range 16).zip rt).flatMap fun x =>
    let p := o + 0x20 + 8 * x.1
    let e := x.2
    let before := ((rt.take x.1).filter (·.enabled)).getLast?
    [rsv 7 (p + 2) (decide (fld b (p + 2) 1 < 2)),
      chk 7 (p + 2) (if e.enabled then decide (1 ≤ e.watts) && (match before with | some d => decide (d.watts ≤ e.watts) | none => true)
        else e.watts == 0 && x.1 != 0),
      rsv 7 (p + 3) (zeros b (p + 3) (p + 4)),
      chk 7 (p + 4) (if e.enabled then decide (100 ≤ e.lead) && decide (e.lead ≤ 1000) else e.lead == 0), rsv 7 (p + 6) (zeros b (p + 6) (p + 8))]

/-- SIGNATURE (R122). -/
def signatureChecks (b : List Byte) (rs : List Resource) (gs : List Region) : List Chk :=
  let o := secOff b 8
  let loss := fld b (o + 8) 8
  [rsv 8 o (decide (fld b o 1 < 4)), rsv 8 (o + 1) (zeros b (o + 1) (o + 2)), chk 8 (o + 2) (decide (fld b (o + 2) 2 ≤ 256) && fld b (o + 2) 2 == gs.length),
    rsv 8 (o + 4) (zeros b (o + 4) (o + 8)),
    chk 8 (o + 8) (if bit (fld b o 1) 0 then loss % 4 == 0 && decide (loss + 4 ≤ amountIn rs 3 0) else loss == 0)]
  ++ ((List.range gs.length).zip gs).flatMap fun x =>
    let p := o + 16 + 24 * x.1
    [chk 8 p (x.2.space == 1 || x.2.space == 2), rsv 8 (p + 1) (zeros b (p + 1) (p + 8)),
      chk 8 (p + 16) (decide (x.2.offset + x.2.length ≤ amountIn rs (if x.2.space = 1 then 3 else 4) 0))]

/-- SLOTS (R123). -/
def slotChecks (b : List Byte) (rs : List Resource) (es : List SlotEntry) : List Chk :=
  let o := secOff b 9
  let total := fld b o 2
  [chk 9 o (decide (1 ≤ total) && decide (total ≤ 1024)), chk 9 (o + 2) (fld b (o + 2) 2 == es.length && es.length != 0),
    rsv 9 (o + 8) (decide (fld b (o + 8) 1 < 2)), rsv 9 (o + 9) (zeros b (o + 9) (o + 16))]
  ++ ((List.range es.length).zip es).flatMap fun x =>
    let e := x.2
    let p := o + 16 + 16 * x.1
    let start := match (es.take x.1).getLast? with | some d => d.first + d.width | none => 0
    [chk 9 p (e.first == start),
      chk 9 (p + 2) (decide (1 ≤ e.width) && decide (e.width ≤ 64)
        && (if x.1 + 1 = es.length then e.first + e.width == total else decide (e.first + e.width ≤ total))),
      rsv 9 (p + 3) (zeros b (p + 3) (p + 4)), chk 9 (p + 4) (decide (1 ≤ e.maxTokens) && decide (e.maxTokens ≤ e.width * fld b (o + 4) 4)),
      chk 9 (p + 8) (e.input % 8 == 0 && decide (e.input + 8 ≤ amountIn rs 3 0))]

/-- The fourth group of R428: the sections in ascending TYPE. -/
def sectionChecks (b : List Byte) : List Chk :=
  let rs := imgResources b
  let fs := imgFronds b
  let gs := imgGroups b
  resourceChecks b rs ++ frondChecks b rs fs ++ bodyChecks b fs ++ constChecks b fs ++ relocChecks b fs gs ++ groupChecks b gs
    ++ rateChecks b (imgRate b) ++ signatureChecks b rs (imgRegions b) ++ slotChecks b rs (imgSlots b)

/-- The first check of a list that fails. -/
def firstFail (cs : List Chk) : Option Chk := cs.find? fun c => !c.ok

/-- Check 1 of R141 in the order of R428: REASON, INDEX, NEEDED and AVAILABLE of the first failure. -/
def imageFailure (b : List Byte) (size : Nat) : Option (Nat × Nat × Nat × Nat) :=
  match firstFail (firstChecks b size) with
  | some c => some (c.reason, c.index, c.off, 0)
  | none =>
    if imageCrc b ≠ fld b 0xC 4 then some (0x0104, 0, imageCrc b, fld b 0xC 4)
    else match firstFail (headerChecks b) with
      | some c => some (c.reason, c.index, c.off, 0)
      | none =>
        match firstFail (directoryChecks b) with
        | some c => some (c.reason, c.index, c.off, 0)
        | none => (firstFail (sectionChecks b)).map fun c => (c.reason, c.index, c.off, 0)

end Sys2Proof.Machine
end

