-- ==== Sys2Proof/Machine/Startup.lean ====
section
/-! DEFINITION. Power, reset and the self-test: rails and reset pins, the seven phases, die bring-up and admission, the running die links
(R16 to R32, R392 to R401, R409, R418 to R420, R427). -/

namespace Sys2Proof.Machine

/-! ### The self-test (R395 to R399) -/

/-- Bound of a self-test phase in AON ticks (R396). -/
def phaseBound (n : Nat) : Nat := nth 0 [0, 25000000, 50000000, 250000, 200000000, 375000000, 200000000, 50000000] n

/-- The phase that follows another one, 0 after the last: a SELFTEST_RUN goes 2, 4, 5, 6, 7 (R398). -/
def phaseAfter (byRun : Bool) (n : Nat) : Nat := if n = 7 then 0 else if byRun ∧ n = 2 then 4 else n + 1

/-- Begin a self-test: the record describes it from now on (R399). -/
def State.beginTest (trigger : Nat) (full : Bool) (by_ : Option Nat) (s : State) : State :=
  { s with test :=
    { trigger := trigger, mode := b2n full, phase := if by_.isSome then 2 else 1, run := satAdd 64 s.test.run 1, active := true, began := s.now,
      full := false, byCommand := by_ } }

/-- Memory as a self-test that passes leaves it (R210): everything outside the AON bank holds zeros. -/
def State.zeroAll (s : State) : State := { s with far := [], store := [], localStore := [], ctx := [], frond := [] }

/-- The present phase passes: the next one starts, or the self-test passes (R396, R397). -/
def State.phasePass (s : State) : State :=
  let t := s.test
  let next := phaseAfter t.byCommand.isSome t.phase
  let t1 := { t with ticks := t.ticks.set (t.phase - 1) (s.now - t.began), phase := next, began := s.now }
  if next ≠ 0 then { s with test := t1 }
  else
    let s1 := State.domsAfterTest (State.zeroAll
      { s with test := { t1 with result := 1, active := false, byCommand := none }, aon := { s.aon with phase := .up } })
    let s2 := s1.raise .selftestDone
    match t.byCommand with
    | some ch => s2.answer ch .ok []
    | none => s2

/-- Lanes that phase 7 tests: all of them after a reset, those of ports neither UP nor SELVAGE in a SELFTEST_RUN, so that a lane of no port is not
tested then (R398). -/
def State.laneTested (s : State) (lane : Nat) : Bool :=
  if s.test.byCommand.isNone then true
  else (List.range 13).any fun p =>
    !((s.getPort p).state == .up || s.isSelvage p)
      && (match s.portDef p with | some d => decide (d.first ≤ lane) && decide (lane < d.first + d.lanes) | none => false)

/-- LANE_FAIL of a phase 7 report, lanes that are not tested left out. -/
def State.lanesFailed (s : State) (r : PhaseReport) : BitVec 28 :=
  BitVec.ofNat 28 ((List.range 28).foldl (fun a i => a + if r.laneFail.getLsbD i && s.laneTested i then 2 ^ i else 0) 0)

/-- The lowest number below n that a test marks. -/
def lowestOf (n : Nat) (f : Nat → Bool) : Option Nat := (List.range n).find? f

/-- STACK bits that a phase 5 report gives: pseudo-channels with pattern errors and the training mark (R399). -/
def stackMarks (r : PhaseReport) (i : Nat) : Word := nth 0 r.stack i &&& 0x1FF00#32

/-- PEAT bits that a phase 6 report gives: training, pattern error, capacity (R399, R422). -/
def peatMarks (r : PhaseReport) (k : Nat) : Word := nth 0 r.peat k &&& 7#32

/-- Reason code of a marked stack (R396): training before a pattern error. -/
def stackReason (w : Word) : Nat := if w.getLsbD 16 then 0x50 else 0x52

/-- Reason code of a marked peat controller: training, pattern error, capacity not 512 GiB (R396, R422). -/
def peatReason (w : Word) : Nat := if w.getLsbD 0 then 0x60 else if w.getLsbD 1 then 0x61 else 0x62

/-- The first failing unit of the running phase by the marks of its report, with its reason: REASON, UNIT_KIND and UNIT (R396, R398, R399, R422). In
phase 5 a channel without a repair lane that had a lasting lane fault fails too (R205); a phase whose units differ in kind names frond groups before
die controllers, and stacks before channels (log entry 74). -/
def State.phaseFailure (s : State) (r : PhaseReport) : Option (Nat × Nat × Nat) :=
  if s.test.phase = 4 then
    match lowestOf 144 r.groupFail.getLsbD, lowestOf 4 r.dieFail.getLsbD with
    | some g, _ => some (if r.reason = 0x41 then 0x41 else 0x40, 3, g)
    | none, some d => some (0x42, 1, d)
    | none, none => if r.reason = 0 then none else some (r.reason, r.unitKind, r.unit)
  else if s.test.phase = 5 then
    match lowestOf 12 fun i => stackMarks r i != 0, s.mem.noSpare.min? with
    | some i, _ => some (stackReason (stackMarks r i), 7, i)
    | none, some c => some (0x51, 6, c)
    | none, none => if r.reason = 0 then none else some (r.reason, r.unitKind, r.unit)
  else if s.test.phase = 6 then
    match lowestOf 8 fun k => peatMarks r k != 0 with
    | some k => some (peatReason (peatMarks r k), 8, k)
    | none => if r.reason = 0 then none else some (r.reason, r.unitKind, r.unit)
  else if s.test.phase = 7 then (lowestOf 28 (s.lanesFailed r).getLsbD).map fun l => (0x70, 0xB, l)
  else if r.reason = 0 then none
  else some (r.reason, r.unitKind, r.unit)

/-- What a phase marks in the record (R396, R399). -/
def State.recordPhase (r : PhaseReport) (s : State) : State :=
  let t := s.test
  if t.phase = 4 then { s with test := { t with groupFail := r.groupFail } }
  else if t.phase = 5 then
    let s1 := forAll r.repaired State.trainRepair s
    { s1 with test := { s1.test with stack := (List.range 12).map fun i => nth 0 s1.test.stack i ||| stackMarks r i } }
  else if t.phase = 6 then { s with test := { t with peat := (List.range 8).map (peatMarks r) } }
  else if t.phase = 7 then { s with test := { t with laneFail := s.lanesFailed r } }
  else s

/-- The running phase has overrun its bound (R396). -/
def State.phaseOverrun (s : State) : Bool := decide (s.test.began + phaseBound s.test.phase < s.now)

/-- SELFTEST_PHASE_END (R396): phase 3 ends by its own steps (log entry 27). The phase records what it marks; it fails when it has overrun its bound,
and on the first unit it marks; otherwise the next one starts. The training of phase 5 has judged every channel that lacked a repair lane (R205). -/
def State.selftestPhaseEnd (r : PhaseReport) (s : State) : State :=
  if !s.test.active ∨ s.test.phase = 3 then s
  else
    let s1 := s.recordPhase r
    let s2 := if s.test.phase = 5 then { s1 with mem := { s1.mem with noSpare := [] } } else s1
    if s.phaseOverrun then s2.testFail 0x0A 0 0
    else match s.phaseFailure r with
      | some (reason, kind, unit) => s2.testFail reason kind unit
      | none => s2.phasePass

/-- SELFTEST_PHASE_END. -/
def execSelftestPhaseEnd (report : PhaseReport) (s : State) : Host.Outcome State Fault Refusal := .next (s.selftestPhaseEnd report)

/-- SELFTEST_PHASE_TIMEOUT (R396): the phase has overrun its bound. -/
def State.selftestPhaseTimeout (s : State) : State :=
  if s.test.active ∧ s.phaseOverrun then s.testFail 0x0A 0 0 else s

/-- SELFTEST_PHASE_TIMEOUT. -/
def execSelftestPhaseTimeout (s : State) : Host.Outcome State Fault Refusal := .next s.selftestPhaseTimeout

/-- Whether the self-test that the record describes admits dies: a SELFTEST_RUN has no phase 3 (R398, R399). -/
def SelfTest.admits (t : SelfTest) : Bool := t.trigger != 3

/-- DIE word of ring position r (R399). -/
def State.dieWord (s : State) (r : Nat) : Nat :=
  if s.test.admits then nth 0 s.test.dieReason r + 2 ^ 8 * (s.getDie r).queries + 2 ^ 16 * b2n (s.getDie r).cap.isSome else 0

/-- The 512-byte record of SELFTEST_REPORT (R399). -/
def State.testRecord (s : State) : List Byte :=
  let t := s.test
  record 256 ([⟨0, 1, t.result⟩, ⟨1, 1, t.mode⟩, ⟨2, 1, t.trigger⟩, ⟨3, 1, t.phase⟩, ⟨4, 1, t.reason⟩, ⟨5, 1, t.unitKind⟩, ⟨6, 2, t.unit⟩,
      ⟨8, 8, t.run⟩] ++ (List.range 7).map (fun i => ⟨0x10 + 4 * i, 4, nth 0 t.ticks i⟩)
    ++ (List.range 4).map (fun r => ⟨0x40 + 4 * r, 4, s.dieWord r⟩) ++ [⟨0x50, 4, t.laneFail.toNat⟩, ⟨0x60, 18, t.groupFail.toNat⟩]
    ++ (List.range 12).map (fun i => ⟨0x80 + 4 * i, 4, (nth 0 t.stack i).toNat⟩)
    ++ (List.range 8).map (fun i => ⟨0xB0 + 4 * i, 4, (nth 0 t.peat i).toNat⟩))
    ++ (List.range 4).flatMap fun r => slice (if t.admits then (s.getDie r).cap.getD [] else []) 0 64

/-- SELFTEST_REPORT (R399). -/
def execSelftestReport (ch : Nat) (s : State) : Host.Outcome State Fault Refusal :=
  .next (s.runCommand 0x0701 ch fun _ _ s => s.finish ch .ok [] s.testRecord)

/-- SELFTEST_RUN (R398): refused while any partition exists (R383); otherwise the phases run in the background. -/
def State.selftestRunOwn (ch : Nat) (b : List Byte) (s : State) : State :=
  if 1 < fld b 0 1 ∨ !zeros b 1 4 then s.answer ch .badParam []
  else if allParts.any fun p => (s.getPart p).alive then s.answer ch .notPermitted []
  else (s.startWake.accept ch).beginTest 3 (fld b 0 1 == 1) (some ch)

/-- SELFTEST_RUN. -/
def execSelftestRun (ch : Nat) (s : State) : Host.Outcome State Fault Refusal :=
  .next (s.runCommand 0x0702 ch fun _ b s => s.selftestRunOwn ch b)

/-! ### Reset and power (R392 to R397, R418, R419) -/

/-- Package reset: everything returns to its reset value but the AON bank's log, self-test record and bulk buffers, the AON count and pins, the test
access port and the measured temperature (R10, R32, R37, R376, R393, R407). That the bulk buffers lie in the AON bank, as a part of its mailbox
and channel state, and so keep their bytes is DEDUCED (log entry 75). -/
def State.packageReset (s : State) : State :=
  let r : State := {}
  { r with
    pending := s.pending, out := s.out, free := s.free, tap := s.tap
    aon := { s.aon with phase := .held, park := .no, parkDue := false, thermTrip := false, tripped := false, railsOut := 0,
                        railsLow := 0, listenDue := none, i3cAddr := none }
    bulk := s.bulk
    test := { s.test with active := false, byCommand := none }
    faults := { r.faults with log := s.faults.log, next := s.faults.next }
    mem := { r.mem with noSpare := s.mem.noSpare }
    rate := { r.rate with tj := s.rate.tj } }

/-- The release of the package's reset (R395, R397, R408, R430): a RESET entry, then the self-test; a junction at 110 degrees C or more
fails it and drives THERM_TRIP_N low (R427). -/
def State.startUp (s : State) : State :=
  let s1 := s.log { kind := 8, code := .ok, detail := [⟨0, 1, if s.aon.coldReset then 1 else 2⟩] }
  let s2 := ({ s1 with aon := { s1.aon with phase := .selfTest, coldReset := false, hostRelease := s.now } }).beginTest
    (if s.aon.coldReset then 1 else 2) s.test.full none
  if 110 * 16 ≤ s.rate.tj then
    State.raise .trip (({ s2 with aon := { s2.aon with thermTrip := true, tripped := true } }).testFail 0x0B 0 0)
  else s2

/-- VAON_RISE (R392, R395, R408): the AON domain is held in reset; the next self-test is full. -/
def State.vaonRise (s : State) : State :=
  if s.aon.phase = .off then
    { (({} : State)) with pending := s.pending, out := s.out, free := s.free, aon := { perstN := s.aon.perstN } }
  else s

/-- VAON_RISE. -/
def execVaonRise (s : State) : Host.Outcome State Fault Refusal := .next s.vaonRise

/-- VAON_FALL (R393, R394): everything is lost, the AON bank and the fault log included. -/
def State.vaonFall (s : State) : State :=
  { (({} : State)) with
    pending := s.pending, out := s.out, free := s.free, aon := { perstN := s.aon.perstN, phase := .off } }

/-- VAON_FALL. -/
def execVaonFall (s : State) : Host.Outcome State Fault Refusal := .next s.vaonFall

/-- PWR_OK_FALL (R394): it acts as a low PKG_RESET_N. -/
def State.pwrOkFall (s : State) : State :=
  if s.aon.phase ≠ .off ∧ s.aon.pwrOk then
    let s1 := s.packageReset
    { s1 with aon := { s1.aon with pwrOk := false, armed := false } }
  else s

/-- PWR_OK_FALL. -/
def execPwrOkFall (s : State) : Host.Outcome State Fault Refusal := .next s.pwrOkFall

/-- PWR_OK_RISE (R392, R394): the rail monitors are armed; with PKG_RESET_N high already, this is the end of a reset by PWR_OK. -/
def State.pwrOkRise (s : State) : State :=
  if s.aon.phase = .held ∧ !s.aon.pwrOk then
    let s1 := { s with aon := { s.aon with pwrOk := true, armed := true } }
    if s.aon.pkgResetN then s1.startUp else s1
  else s

/-- PWR_OK_RISE. -/
def execPwrOkRise (s : State) : Host.Outcome State Fault Refusal := .next s.pwrOkRise

/-- PKG_RESET_N_ASSERT (R31, R32). -/
def State.pkgResetNAssert (s : State) : State :=
  if s.aon.phase ≠ .off ∧ s.aon.pkgResetN then
    let s1 := s.packageReset
    { s1 with aon := { s1.aon with pkgResetN := false } }
  else s

/-- PKG_RESET_N_ASSERT. -/
def execPkgResetNAssert (s : State) : Host.Outcome State Fault Refusal := .next s.pkgResetNAssert

/-- PKG_RESET_N_RELEASE (R395, R418): the straps are sampled, and the package starts when PWR_OK is high too. -/
def State.pkgResetNRelease (strap : BitVec 12) (tj : Int) (s : State) : State :=
  if s.aon.phase = .held ∧ !s.aon.pkgResetN then
    let s1 := { s with aon := { s.aon with pkgResetN := true, strap := strap }, rate := { s.rate with tj := tj } }
    if s.aon.pwrOk then s1.startUp else s1
  else s

/-- PKG_RESET_N_RELEASE. -/
def execPkgResetNRelease (strap : BitVec 12) (tj : Int) (s : State) : Host.Outcome State Fault Refusal :=
  .next (s.pkgResetNRelease strap tj)

/-- A MEM_FILL that reads or writes host memory: its remaining pieces fail once the host port has been reset (R389). -/
def Fill.cut (f : Fill) : Fill := if f.mode = 2 ∨ f.mode = 3 then { f with hostLost := true } else f

/-- Reset of the host port (R389, R420): ENABLE of every ring channel and SUBMIT_ENABLE of every partition are cleared, transfers with host memory are
cut, and the PCIe function is at its reset values. -/
def State.hostPortReset (s : State) : State :=
  let s1 := forAll ((List.range 72).filter ringChannel) (fun c s => s.updChan c fun x => { x with rxOn := false }) s
  let s2 := forAll allParts (fun p s => s.updPart p fun q => { q with fill := q.fill.map Fill.cut, serve := { q.serve with submitOn := false } }) s1
  { s2 with pcie := {} }

/-- PERST_N_ASSERT (R31, R389). -/
def State.perstNAssert (s : State) : State := State.hostPortReset { s with aon := { s.aon with perstN := false } }

/-- PERST_N_ASSERT. -/
def execPerstNAssert (s : State) : Host.Outcome State Fault Refusal := .next s.perstNAssert

/-- PERST_N_RELEASE (R397, R420): the host port trains from now on. -/
def State.perstNRelease (s : State) : State :=
  if s.aon.perstN then s
  else { s with aon := { s.aon with perstN := true, hostRelease := if s.aon.pkgResetN then s.now else s.aon.hostRelease } }

/-- PERST_N_RELEASE. -/
def execPerstNRelease (s : State) : Host.Outcome State Fault Refusal := .next s.perstNRelease

/-- FUNCTION_LEVEL_RESET (R420): the effect of R389, by a configuration request that reaches the function. -/
def State.functionLevelReset (s : State) : State := if s.pathUp .config then s.hostPortReset else s

/-- FUNCTION_LEVEL_RESET. -/
def execFunctionLevelReset (s : State) : Host.Outcome State Fault Refusal := .next s.functionLevelReset

/-- Bit of a rail among the nine (R411). -/
def railIndex : Rail → Nat
  | .vaon => 0 | .vaux18 => 1 | .vhub => 2 | .vcomp d => 3 + d | .vlink => 7 | .vpeat => 8

/-- A rail's position in the power-up sequence (R392), which the fault log names (12 *Unit kinds*). -/
def railPosition : Rail → Nat
  | .vaon => 1 | .vaux18 => 2 | .vhub => 3 | .vcomp _ => 4 | .vlink => 5 | .vpeat => 6

/-- The package names a rail: there are four core rails (R411). -/
def railReal : Rail → Bool
  | .vcomp d => decide (d < 4)
  | _ => true

/-- A voltage change is in progress, or has settled less than 200 µs ago (R414; log entry 71). -/
def State.changing (s : State) : Bool :=
  match s.rate.mvAt with
  | some t => decide (s.now < t + min (Config.settleTicks s.rate.writes) (ms 1) + us 200)
  | none => false

/-- The least and greatest set point, in mV, against which a rail is judged (R411, R414). -/
def State.setPoints (s : State) : Rail → Nat × Nat
  | .vaon => (750, 750)
  | .vaux18 => (1800, 1800)
  | .vlink => (900, 900)
  | .vpeat => (1050, 1050)
  | .vhub | .vcomp _ =>
    if s.changing then (min s.rate.mvOld s.rate.mv, max s.rate.mvOld s.rate.mv) else (s.rate.mv, s.rate.mv)

/-- A voltage, in µV, lies below 97 % of the least set point of its rail (R411, R414). -/
def State.tooLow (s : State) (r : Rail) (uv : Nat) : Bool := decide (uv < 970 * (s.setPoints r).1)
/-- A voltage, in µV, lies above 103 % of the greatest set point of its rail (R411, R414). -/
def State.tooHigh (s : State) (r : Rail) (uv : Nat) : Bool := decide (1030 * (s.setPoints r).2 < uv)

/-- What the fault of a rail leads to (R394, R409, R427, R430): the entry of the rail; then Safe Listen, at once in a package with no pattern ARMED or
RUNNING, and otherwise at the next stitch boundary, at which those patterns halt. A self-test fails with it. -/
def State.railAct (pos : Nat) (s : State) : State :=
  if s.aon.phase = .up ∧ s.test.active = false ∧ (allParts.any fun p => (s.getPart p).live) then
    let s1 := s.logSafeListen 0x0C 0x0C pos
    { s1 with aon := { s1.aon with listenDue := some (s1.aon.listenDue.getD pos) } }
  else s.tripOrRail 0x0C 0x0C pos

/-- A rail fault (R394, R400, R401). -/
def State.railFails (rail : Rail) (low : Bool) (s : State) : State :=
  let s1 := (s.railAct (railPosition rail)).raise .rail
  { s1 with aon := { s1.aon with
    railsOut := s1.aon.railsOut ||| BitVec.twoPow 9 (railIndex rail)
    railsLow := if low then s1.aon.railsLow ||| BitVec.twoPow 9 (railIndex rail) else s1.aon.railsLow } }

/-- The rail monitors judge (R392, R394): from PWR_OK on. -/
def State.monitors (s : State) : Bool := s.aon.armed && s.aon.phase != .off

/-- RAIL_FAULT (R394, R414): a rail other than VAON has read a voltage, in µV, for more than 100 µs; within its range, widened while its voltage
changes, it is no fault. A fall of VAON is VAON_FALL. -/
def State.railFault (rail : Rail) (uv : Nat) (s : State) : State :=
  if s.monitors ∧ rail ≠ .vaon ∧ railReal rail = true ∧ (s.tooLow rail uv ∨ s.tooHigh rail uv) then s.railFails rail (s.tooLow rail uv) else s

/-- RAIL_FAULT. -/
def execRailFault (rail : RailReading) (s : State) : Host.Outcome State Fault Refusal := .next (s.railFault rail.rail rail.uv)

/-- Rail of an AVSBus rail select (R413): 0 is VHUB, 1 to 4 VCOMP0 to VCOMP3. -/
def avsRail (sel : Nat) : Rail := if sel = 0 then .vhub else .vcomp (sel - 1)

/-- AVSBUS_SETTLE_TIMEOUT (R413): 1 ms after the last write, whose target readback has not shown, the rail has failed under R394. -/
def State.avsbusSettleTimeout (sel : Nat) (s : State) : State :=
  match s.rate.mvAt with
  | some t =>
    if s.monitors ∧ sel ≤ 4 ∧ t + ms 1 ≤ s.now then
      State.railFails (avsRail sel) false { s with rate := { s.rate with mvAt := none } }
    else s
  | none => s

/-- AVSBUS_SETTLE_TIMEOUT. -/
def execAvsbusSettleTimeout (rail : Nat) (s : State) : Host.Outcome State Fault Refusal := .next (s.avsbusSettleTimeout rail)

/-! ### Die bring-up (R23 to R30) -/

/-- Change ring position r's die. -/
def State.updDie (r : Nat) (f : Die → Die) (s : State) : State := { s with dies := { s.dies with die := s.dies.die.modify r f } }
/-- Phase 3 of a self-test runs. -/
def State.inBringup (s : State) : Bool := s.test.active && s.test.phase == 3

/-- Latest AON tick of a bring-up step after the release of C0 (R30). -/
def bringupBound : BringupStep → Nat
  | .release r => 250 * r
  | .pll r => 500 + 250 * r
  | .hubLink r => 25500 + 250 * r
  | .admission => 33750
  | .firmware _ => 58750
  | .half _ => 83750
  | .aligned => 84000
  | .phase => 250000

/-- Whether a bring-up step is done; one that names no die is. -/
def State.stepDone (s : State) : BringupStep → Bool
  | .release r => decide (4 ≤ r) || (s.getDie r).released.isSome
  | .pll r => decide (4 ≤ r) || (s.getDie r).pll
  | .hubLink r => decide (4 ≤ r) || (s.getDie r).hubUp
  | .admission => (List.range 4).all fun r => (s.getDie r).cap.isSome
  | .firmware r => decide (4 ≤ r) || (s.getDie r).firmware
  | .half h => nth true s.dies.half h
  | .aligned => s.dies.aligned
  | .phase => false

/-- Unit kind and unit that a bring-up timeout names (log entry 28). -/
def bringupUnit : BringupStep → Nat × Nat
  | .release r | .pll r | .firmware r => (1, r)
  | .hubLink r => (2, r)
  | .half h => (2, 4 + h)
  | .admission | .aligned | .phase => (0, 0)

/-- A bring-up step is not done and has overrun its bound, or the phase has (R30). -/
def State.overdue (s : State) (w : BringupStep) : Bool :=
  match (s.getDie 0).released with
  | some t => s.inBringup && !(s.stepDone w) && decide (t + bringupBound w < s.now)
  | none => false

/-- BRINGUP_TIMEOUT (R30). -/
def State.bringupTimeout (w : BringupStep) (s : State) : State :=
  if s.overdue w then s.testFail 0x0A (bringupUnit w).1 (bringupUnit w).2 else s

/-- A bring-up step comes: late, it fails the self-test as its time-out would have (R30); in time, it acts. -/
def State.inTime (w : BringupStep) (f : State → State) (s : State) : State := if s.overdue w then s.bringupTimeout w else f s

/-- The next die to release may be released now (R28): the first at once, each later one 250 AON ticks after the one before it. -/
def State.releaseDue (s : State) (r : Nat) : Bool :=
  r == 0 || (match (s.getDie (r - 1)).released with | some t => decide (t + 250 ≤ s.now) | none => false)

/-- DIE_RELEASE (R28). -/
def State.dieRelease (s : State) : State :=
  match (List.range 4).find? fun r => (s.getDie r).released.isNone with
  | some r =>
    if s.inBringup ∧ s.releaseDue r then State.inTime (.release r) (State.updDie r fun d => { d with released := some s.now }) s else s
  | none => s

/-- DIE_RELEASE. -/
def execDieRelease (s : State) : Host.Outcome State Fault Refusal := .next s.dieRelease

/-- DIE_PLL_LOCK (R29). -/
def State.diePllLock (r : Nat) (s : State) : State :=
  if s.inBringup ∧ (s.getDie r).released.isSome then State.inTime (.pll r) (State.updDie r fun d => { d with pll := true }) s else s

/-- DIE_PLL_LOCK. -/
def execDiePllLock (ring : Nat) (s : State) : Host.Outcome State Fault Refusal := .next (s.diePllLock ring)

/-- Send a capability query with a new tag (R23). -/
def State.capQuery (r : Nat) (s : State) : State :=
  let tag := ((s.getDie r).tag + 1) % 256
  (s.updDie r fun d => { d with tag := tag, queries := d.queries + 1, queryAt := s.now }).odpSend r (.query tag)

/-- HUB_LINK_UP (R18, R29). -/
def State.hubLinkUp (r : Nat) (s : State) : State :=
  if s.inBringup ∧ (s.getDie r).pll ∧ !(s.getDie r).hubUp then
    State.inTime (.hubLink r) (fun s => (s.updDie r fun d => { d with hubUp := true }).capQuery r) s
  else s

/-- HUB_LINK_UP. -/
def execHubLinkUp (ring : Nat) (s : State) : Host.Outcome State Fault Refusal := .next (s.hubLinkUp ring)

/-- The first check of the admission table that a die's block fails, 0 for none; 'base' is ring position 0's block (R25). -/
def dieCheck (base b : List Byte) : Nat :=
  if fld b 1 1 ≠ 1 then 0x02
  else if fld b 4 2 ≠ 1 then 0x03
  else if bits (fld b 0xC 4) 8 0 ≠ 0x1FF then 0x04
  else if bits (fld b 0x10 4) 8 0 ≠ 0x1FF then 0x05
  else if fld b 8 1 % 2 ≠ 0 ∨ fld b 9 1 % 2 ≠ 0 ∨ 12 < fld b 8 1 ∨ 12 < fld b 9 1 ∨ fld b 0xA 1 ≠ 3 then 0x06
  else if fld b 0xB 1 ≠ 0x84 then 0x07
  else if fld b 0x15 1 ≠ 16 then 0x08
  else if fld b 2 2 ≠ fld base 2 2 ∨ fld b 4 2 ≠ fld base 4 2 ∨ fld b 6 1 ≠ fld base 6 1 ∨ fld b 8 2 ≠ fld base 8 2 then 0x09
  else 0

/-- The first die, in ring order, that fails admission, with its reason; 'silent' is a die known not to respond (R25; log entry 28). -/
def State.admissionFails (s : State) (silent : Option Nat) : Option (Nat × Nat) :=
  let base := (s.getDie 0).cap.getD []
  (List.range 4).findSome? fun r =>
    if silent = some r then some (r, 0x01)
    else match (s.getDie r).cap with
      | some b => if dieCheck (if base.isEmpty then b else base) b = 0 then none else some (r, dieCheck (if base.isEmpty then b else base) b)
      | none => none

/-- Fail the self-test on a die's admission (R26). -/
def State.admissionFail (r reason : Nat) (s : State) : State :=
  ({ s with test := { s.test with dieReason := s.test.dieReason.set r reason } }).testFail reason 1 r

/-- DIE_ADMISSION (R25): decided when every die has answered, or one is known not to respond. -/
def State.dieAdmission (silent : Option Nat) (s : State) : State :=
  if silent.isSome ∨ (List.range 4).all fun r => (s.getDie r).cap.isSome then
    match s.admissionFails silent with
    | some (r, reason) => s.admissionFail r reason
    | none => s
  else s

/-- CAPABILITY_REPLY (R23 to R25): only a reply with the tag of the latest query counts. -/
def State.capabilityReply (r tag : Nat) (block : List Byte) (s : State) : State :=
  let d := s.getDie r
  if s.inBringup ∧ d.hubUp ∧ d.cap = none ∧ tag = d.tag then
    State.inTime .admission
      (fun s => (s.updDie r fun d => { d with cap := some (slice block 0 64), odp := min 0x0102 (fld block 0 2) }).dieAdmission none) s
  else s

/-- CAPABILITY_REPLY. -/
def execCapabilityReply (ring tag : Nat) (block : List Byte) (s : State) : Host.Outcome State Fault Refusal :=
  .next (s.capabilityReply ring tag block)

/-- CAPABILITY_QUERY_TIMEOUT (R23): another query, or NO_RESPONSE after the third. -/
def State.capabilityQueryTimeout (r : Nat) (s : State) : State :=
  let d := s.getDie r
  if s.inBringup ∧ d.hubUp ∧ d.cap = none ∧ d.queryAt + 2500 ≤ s.now then
    if d.queries < 3 then s.capQuery r else s.dieAdmission (some r)
  else s

/-- CAPABILITY_QUERY_TIMEOUT. -/
def execCapabilityQueryTimeout (ring : Nat) (s : State) : Host.Outcome State Fault Refusal := .next (s.capabilityQueryTimeout ring)

/-- DIE_FIRMWARE_LOADED (R29): after the die set is admitted. -/
def State.dieFirmwareLoaded (r : Nat) (s : State) : State :=
  if s.inBringup ∧ ((List.range 4).all fun k => (s.getDie k).cap.isSome) then
    State.inTime (.firmware r) (State.updDie r fun d => { d with firmware := true }) s
  else s

/-- DIE_FIRMWARE_LOADED. -/
def execDieFirmwareLoaded (ring : Nat) (s : State) : Host.Outcome State Fault Refusal := .next (s.dieFirmwareLoaded ring)

/-- A half-partner link is up; with both up the counter copies are aligned and the phase completes (R17, R30). -/
def State.halfUp (h : Nat) (s : State) : State :=
  let s1 := { s with dies := { s.dies with half := s.dies.half.set h true } }
  if s1.dies.half.all id then
    State.phasePass { s1 with dies :=
      { s1.dies with aligned := true, die := s1.dies.die.map fun (d : Die) => { d with stitchCopy := s.stitch } } }
  else s1

/-- HALF_PARTNER_LINK_UP (R17, R29, R30): half 0 joins ring positions 0 and 1, half 1 joins 2 and 3; with both up the counter copies are
aligned and the phase completes. -/
def State.halfPartnerLinkUp (h : Nat) (s : State) : State :=
  if s.inBringup ∧ h < 2 ∧ (s.getDie (2 * h)).firmware ∧ (s.getDie (2 * h + 1)).firmware then
    State.inTime (.half h) (State.inTime .phase fun s => State.halfUp h s) s
  else s

/-- HALF_PARTNER_LINK_UP. -/
def execHalfPartnerLinkUp (half : Nat) (s : State) : Host.Outcome State Fault Refusal := .next (s.halfPartnerLinkUp half)

/-- BRINGUP_TIMEOUT. -/
def execBringupTimeout (which : BringupStep) (s : State) : Host.Outcome State Fault Refusal := .next (s.bringupTimeout which)

/-! ### Running die links (R19 to R21) -/

/-- UCIE_FLIT_CRC_RETRY (R19): the retry delays the data and changes nothing. -/
def execUcieFlitCrcRetry (_link : Nat) (s : State) : Host.Outcome State Fault Refusal := .next s

/-- Put a die link into a state. -/
def State.setLink (l : Nat) (v : DieLink) (s : State) : State := { s with dies := { s.dies with link := Tab.set .up s.dies.link l v } }

/-- DIE_LINK_TRAINING_LOSS (R20): counted when the retraining begins; a further loss belongs to it. -/
def State.dieLinkTrainingLoss (l : Nat) (s : State) : State :=
  if s.aon.phase = .up ∧ l < 6 ∧ s.dieLink l = .up then (s.setLink l (.retraining s.now)).faultEvent 1 l 0 0 else s

/-- DIE_LINK_TRAINING_LOSS. -/
def execDieLinkTrainingLoss (link : Nat) (s : State) : Host.Outcome State Fault Refusal := .next (s.dieLinkTrainingLoss link)

/-- DIE_LINK_RETRAIN_DONE (R20, R22): what waited for the link goes. -/
def State.dieLinkRetrainDone (l : Nat) (s : State) : State :=
  match s.dieLink l with
  | .retraining _ => if l < 4 then (s.setLink l .up).odpResume l else s.setLink l .up
  | _ => s

/-- DIE_LINK_RETRAIN_DONE. -/
def execDieLinkRetrainDone (link : Nat) (s : State) : Host.Outcome State Fault Refusal := .next (s.dieLinkRetrainDone link)

/-- DIE_LINK_LOST (R21): retraining did not complete within 1 ms. With no pattern live no halt is logged; the loss then takes an entry of its own, of
KIND HALT and CODE INTERNAL, since R21 has it recorded by the fault log and R430 gives no row for it: DESIGN CHOICE, log entry 76. -/
def State.dieLinkLost (l : Nat) (s : State) : State :=
  match s.dieLink l with
  | .retraining t =>
    if t + ms 1 ≤ s.now then
      let s1 := (s.setLink l .lost).raise .dieLink
      if allParts.any fun p => (s.getPart p).live then s1.haltAllDue .internal 2 l
      else s1.log { kind := 4, code := .internal, unitKind := 2, unit := l }
    else s
  | _ => s

/-- DIE_LINK_LOST. -/
def execDieLinkLost (link : Nat) (s : State) : Host.Outcome State Fault Refusal := .next (s.dieLinkLost link)

/-- A lost die link refuses PATTERN_LOAD, PATTERN_ADMIT and PATTERN_START with INTERNAL (R21). -/
def State.linkDead (s : State) : Bool := (List.range 6).any fun l => s.dieLink l == .lost

end Sys2Proof.Machine
end

