-- ==== Sys2Proof/Machine/Admission.lean ====
section
/-! DEFINITION. PATTERN_LOAD, PATTERN_ADMIT and the admission queue: retirement, the checks of R141, and the load (R21, R117 to R119, R141
to R145, R374, R381, R405, R406). -/

namespace Sys2Proof.Machine

/-! ### The first step (R374, R381) -/

/-- Ranges of PATTERN_LOAD's parameters. -/
def loadParamsOk (b : List Byte) : Bool :=
  (fld b 0 1 == 1 || fld b 0 1 == 2) && zeros b 1 4 && fld b 4 4 % 64 == 0 && decide (fld b 4 4 ≤ 134217728) && fld b 8 8 % 64 == 0

/-- A command's own part up to its place in the queue. -/
def State.loadOwn (load : Bool) (ch : Nat) (h : Held) (b : List Byte) (s : State) : State :=
  let mayHost := decide (4 ≤ ch) || (ch == 1 && h.via == .mailbox)
  if s.linkDead then s.answer ch .internal []
  else if !loadParamsOk b then s.answer ch .badParam []
  else if fld b 0 1 = 1 ∧ !mayHost then s.answer ch .notPermitted []
  else if fld b 0 1 = 2 ∧ (s.getPart h.part).hbmGib * gib < fld b 8 8 + fld b 4 4 then s.answer ch .badParam []
  else if 8 ≤ s.admissions.length then s.answer ch .busy []
  else
    let a : Admission := { load := load, ch := ch, tag := h.tag, part := h.part, source := fld b 0 1, size := fld b 4 4, addr := fld b 8 8 }
    let s1 := State.accept ch { s with admissions := s.admissions ++ [a] }
    if load then s1.startWake else s1

/-- PATTERN_LOAD. -/
def execPatternLoad (ch : Nat) (s : State) : Host.Outcome State Fault Refusal := .next (s.runCommand 0x0201 ch (State.loadOwn true ch))

/-- PATTERN_ADMIT. -/
def execPatternAdmit (ch : Nat) (s : State) : Host.Outcome State Fault Refusal := .next (s.runCommand 0x0202 ch (State.loadOwn false ch))

/-! ### Retirement (R405, R406) -/

/-- A live pattern declares LINK_SLOTS on a port. -/
def State.portUsed (s : State) (p : Nat) : Bool :=
  allParts.any fun q => (s.getPart q).live && (s.getPart q).image.amount 5 p != 0

/-- Ports that retire at the start of a PATTERN_LOAD. -/
def State.retiringPorts (s : State) : List Nat :=
  (List.range 13).filter fun p => (s.getPort p).marked && (s.getPort p).state != .retired && !(s.portUsed p)

/-- Marked groups and ports retire at the start of a PATTERN_LOAD, with a RETIRED entry each; the groups are switched OFF. -/
def State.retireMarked (s : State) : State :=
  let gs := groupsOf (s.faults.marked &&& ~~~s.faults.retired)
  let s1 := forAll gs (fun g s => s.log { kind := 3, code := .faultLasting, unitKind := 3, unit := g })
    { s with faults := { s.faults with retired := s.faults.retired ||| s.faults.marked } }
  let s2 := forAll s.retiringPorts (fun p s =>
    (s.log { kind := 3, code := .faultLasting, unitKind := 0xA, unit := p }).updPort p fun x =>
      { x with state := .retired, stage := .idle, retrain := none, tx := [], replay := [] }) s1
  if gs.isEmpty then s2 else forAll gs (fun g s => s.switchDom g .off) s2

/-! ### Checks 2 to 4 of R141 -/

/-- How an admission ends: status, REASON, INDEX, NEEDED and AVAILABLE (R143). -/
structure Verdict141 where
  st : Status
  reason : Nat := 0
  index : Nat := 0
  needed : Nat := 0
  available : Nat := 0
deriving DecidableEq, Repr

/-- Fronds of a partition that are neither retired nor marked (R142). -/
def State.sound (s : State) (p : Nat) : List Nat := (s.fronds p).filter fun f => !(s.faults.marked.getLsbD (frondGroup f))

/-- VENDOR, DIE_CLASS, GEN and grid of a die's capability block. -/
def dieSet (b : List Byte) : List Nat := [fld b 2 2, fld b 4 2, fld b 6 1, fld b 8 1, fld b 9 1]

/-- The first ring position whose die differs from the image's die set. -/
def State.otherDie (s : State) (b : List Byte) : Option Nat :=
  (List.range 4).find? fun r => dieSet ((s.getDie r).cap.getD []) != [fld b 0x18 2, fld b 0x1A 2, fld b 0x1C 1, fld b 0x1D 1, fld b 0x1E 1]

/-- Check 2 of R141: shape. -/
def State.shapeFailure (s : State) (p : Nat) (b : List Byte) (i : Image) : Option Verdict141 :=
  match s.otherDie b, s.links.plan with
  | some r, _ => some { st := .refusedShape, reason := 0x0201, index := r }
  | none, none => some { st := .refusedShape, reason := 0x0202 }
  | none, some pl =>
    if [pl.size.x, pl.size.y, pl.size.z] ≠ i.size then some { st := .refusedShape, reason := 0x0202 }
    else if !inBox i.box pl.here then some { st := .refusedShape, reason := 0x0203 }
    else if s.links.profile ≠ i.profile then
      some { st := .refusedShape, reason := 0x0204, needed := i.profile, available := s.links.profile }
    else if (s.sound p).length < i.fronds then
      some { st := .refusedShape, reason := 0x0205, needed := i.fronds, available := (s.sound p).length }
    else none

/-- Check 3 of R141: ports. -/
def State.portFailure (s : State) (i : Image) : Option Verdict141 :=
  (List.range 12).findSome? fun p =>
    if i.amount 5 p = 0 then none
    else
      let x := s.getPort p
      if x.marked ∨ x.state = .retired then some { st := .linkAbsent, reason := 0x0301, index := p }
      else if x.state = .held then some { st := .miswired, reason := 0x0302, index := p }
      else if x.state ≠ .up ∨ s.isSelvage p then some { st := .linkAbsent, reason := 0x0301, index := p }
      else none

/-- What the other partitions' patterns hold of a resource (R142). -/
def State.others (s : State) (p res idx : Nat) : Nat :=
  (allParts.map fun q => if q != p && (s.getPart q).holds then (s.getPart q).image.amount res idx else 0).sum

/-- Link slots of a port of L lanes, Q = floor(192 / f) with f = (30 + 14 level) / 150 GHz (R116, R341). -/
def portSlots (lanes level : Nat) : Nat := lanes * (28800 / (30 + 14 * level))

/-- Capacity left for a resource (R115). -/
def State.capacity (s : State) (p : Nat) (i : Image) (res idx : Nat) : Nat :=
  let q := s.getPart p
  if res = 1 then 3670016
  else if res = 2 then 64
  else if res = 3 then q.hbmGib * gib
  else if res = 4 then q.peatGib * gib
  else if res = 5 then portSlots (s.lanesOf idx) (highest i.rate) - s.others p 5 idx
  else if res = 6 then 256 - s.others p 6 0
  else if res = 7 then 4096 - s.others p 7 0
  else min q.serve.quota (s.ctxFree + s.ctxHeld p)

/-- Check 4 of R141: resources, in ascending RES and INDEX. -/
def State.resourceFailure (s : State) (p : Nat) (i : Image) : Option Verdict141 :=
  (List.range 9).findSome? fun res => (List.range 576).findSome? fun idx =>
    if s.capacity p i res idx < i.amount res idx then
      some { st := .refusedFit, reason := res, index := idx, needed := i.amount res idx, available := s.capacity p i res idx }
    else none

/-- The checks of R141 on the bytes of an image. -/
def State.judge (s : State) (p size : Nat) (b : List Byte) : Verdict141 :=
  match imageFailure b size with
  | some (r, ix, n, av) => { st := .badParam, reason := r, index := ix, needed := n, available := av }
  | none =>
    let i := imageParse b
    ((s.shapeFailure p b i).orElse fun _ => (s.portFailure i).orElse fun _ => s.resourceFailure p i).getD { st := .ok }

/-! ### The load (R144) -/

/-- Add a partition's base to the 64-bit value at a frond-store address (R119). -/
def State.relocate (f addr base : Nat) (s : State) : State :=
  s.fsWrite f addr (leBytes 8 ((leNat (s.fsRead f addr 8) + base) % 2 ^ 64))

/-- Load one logical frond: bodies, constants and relocations (R117 to R119). -/
def State.loadFrond (p : Nat) (b : List Byte) (r : FrondRec) (f : Nat) (s : State) : State :=
  let q := s.getPart p
  let s1 := forAll (List.range r.slots) (fun k s => s.fsWrite f (4096 * k) (slice b (secOff b 3 + 4096 * nth 0 r.slotBody k) 4096)) s
  let s2 := s1.fsWrite f r.constDest (slice b (secOff b 4 + r.constOffset) r.constLength)
  forAll (relocsOf b r) (fun x s =>
    if x.2.2 = 1 then s.relocate f x.2.1 q.hbmBase else if x.2.2 = 2 then s.relocate f x.2.1 q.peatBase else s) s2

/-- Reserve and load an admitted image; the partition is LOADED (R144, R16). Frames that wait for a window wait on, now for one of this pattern's
(R240). -/
def State.loadImage (a : Admission) (b : List Byte) (s : State) : State :=
  let i := imageParse b
  let s1 := (s.releaseWins a.part).updPart a.part fun q =>
    { q with pat := .loaded, image := i, loadedBy := { ch := a.ch, tag := a.tag, opcode := 0x0201 }, startedBy := {}, tcb := {}, run := {},
             colls := [], collNext := [], earlyAborts := [], tokens := []
             twin := { q.twin with copy := .none, copyBytes := 0, copyDone := 0, due := none, sentAt := none, waiting := false, acts := [] } }
  let fs := s1.fronds a.part
  let s2 := forAll ((List.range i.fronds).zip i.records) (fun x s => s.loadFrond a.part b x.2 (nth 0 fs x.1)) s1.switchDomains
  State.retryWaiting a.part (s2.toDies (.section_ a.part))

/-- A load that waits is done once its frond groups are ON and the package is awake (R117, R337, R340): loaded as one step, and completed. -/
def State.finishLoad (s : State) : State :=
  match s.loading with
  | some l =>
    if s.aon.park = .no ∧ s.loadGroups.all (fun g => s.getDom g == .on) then
      (State.loadImage l.adm l.bytes { s with loading := none }).answer l.adm.ch .ok (reasonWords 0 0 0 0)
    else s
  | none => s

/-- Judge an admission's image, and complete the command with the words of R143; an image to be loaded waits for its frond groups first. -/
def State.judgeImage (a : Admission) (b : List Byte) (s : State) : State :=
  let v := s.judge a.part a.size b
  if v.st = .ok ∧ a.load then
    (State.switchDomains { s with loading := some { adm := a, bytes := b, fronds := (imageParse b).fronds } }).finishLoad
  else s.answer a.ch v.st (reasonWords v.reason v.index v.needed v.available)

/-- The image of an admission as it is read: a host read's bytes, or the partition's HBM unless a read there failed. The corrected errors of the reads
count in either case (R202). -/
def State.readImage (a : Admission) (host : HostRead) (hbmError : Option MemUnit) (ce : List MemUnit) (s : State) : State :=
  if a.source = 1 then
    match host with
    | .ok b => s.judgeImage a (slice b 0 a.size)
    | .pcieError => s.answer a.ch .internal []
  else match hbmError with
    | some u => (s.memEvents (⟨u, some 0⟩ :: corrected ce)).answer a.ch .internal []
    | none => (s.memEvents (corrected ce)).judgeImage a (s.far.readN ((s.getPart a.part).hbmBase + a.addr) a.size)

/-- The image buffer answers, and for an image in HBM the HBM interfaces with their links and channels too (R20, R205, R337). -/
def State.sourceOpen (s : State) (a : Admission) : Bool :=
  s.getDom 174 == .on && (a.source == 1
    || ((List.range 12).all (fun k => s.getDom (144 + k) == .on) && s.rangeOpen none ((s.getPart a.part).hbmBase + a.addr) a.size))

/-- The turn of an admission that has left the queue (R21, R125, R145). -/
def State.takeTurn (a : Admission) (host : HostRead) (hbmError : Option MemUnit) (ce : List MemUnit) (s : State) : State :=
  if s.linkDead then s.answer a.ch .internal []
  else match s.existsCheck a.part with
    | .gone w => s.conflict a.ch w
    | .stop st => s.answer a.ch st []
    | .pass =>
      if a.load then
        let s1 := s.retireMarked
        if (s.getPart a.part).live then s1.conflict a.ch (s.getPart a.part).loadedBy else s1.readImage a host hbmError ce
      else s.readImage a host hbmError ce

/-- ADMISSION_TURN (R145, R374): the oldest admission, once the load before it is done; a PATTERN_LOAD waits until the package is awake (R340), and every
admission until what it reads answers. -/
def State.admissionTurn (host : HostRead) (hbmError : Option MemUnit) (ce : List MemUnit) (s : State) : State :=
  match s.admissions with
  | [] => s
  | a :: rest =>
    if s.loading.isSome ∨ (a.load ∧ s.aon.park ≠ .no) ∨ !s.sourceOpen a then s else State.takeTurn a host hbmError ce { s with admissions := rest }

/-- ADMISSION_TURN. -/
def execAdmissionTurn (host : HostRead) (hbmError : HbmRead) (s : State) : Host.Outcome State Fault Refusal :=
  .next (s.admissionTurn host hbmError.error hbmError.corrected)

/-! ### Waking (R337, R340) -/

/-- What waits for a domain goes on (R337): the commands that wait for the context array, and a load. -/
def State.resume (s : State) : State := s.tableAwake.finishLoad

/-- DOMAIN_WAKE_DONE (R337): a waking domain is ON, and what waits for it goes on. -/
def execDomainWakeDone (domain : Nat) (s : State) : Host.Outcome State Fault Refusal := .next (s.wakeDone domain).resume

/-- PARKED_WAKE_DONE (R340). -/
def execParkedWakeDone (s : State) : Host.Outcome State Fault Refusal := .next s.parkedWakeDone.resume

end Sys2Proof.Machine
end

