-- ==== Sys2Proof/Machine/LinkPlan.lean ====
section
/-! DEFINITION. LINK_PROFILE, LINK_PLAN, SELVAGE_SET with its effect, and ROUTE_TABLE_LOAD (R220 to R222, R243 to R246, R252, R262 to R265). -/

namespace Sys2Proof.Machine

/-! ### LINK_PROFILE (R221, R222) -/

/-- The PORT_DEF of port p. -/
def portDefOf (b : List Byte) (p : Nat) : PortDef :=
  let w := fld b (4 + 4 * p) 4
  ⟨bits w 4 0, bits w 11 8, bits w 18 16⟩

/-- Reserved bits of a PORT_DEF are zero. -/
def portDefClean (b : List Byte) (p : Nat) : Bool :=
  let w := fld b (4 + 4 * p) 4
  bits w 7 5 == 0 && bits w 15 12 == 0 && bits w 31 19 == 0

/-- A lane lies in a port. -/
def PortDef.hasLane (d : PortDef) (l : Nat) : Bool := decide (d.first ≤ l) && decide (l < d.first + d.lanes)

/-- A port definition stands on its own: 2 to 8 lanes that do not leave lane 23, and a direction of 0 to 5 (R222). -/
def PortDef.ok (d : PortDef) : Bool := decide (2 ≤ d.lanes) && decide (d.lanes ≤ 8) && decide (d.first + d.lanes ≤ 24) && decide (d.dir ≤ 5)

/-- No two ports share a lane (R222). -/
def lanesDisjoint (ds : List PortDef) : Bool := (List.range 24).all fun l => decide ((ds.filter fun d => d.hasLane l).length ≤ 1)

/-- The parameters of LINK_PROFILE are valid (R221, R222, R3). -/
def profileOk (b : List Byte) : Bool :=
  let n := fld b 1 1
  let defs := (List.range n).map (portDefOf b)
  zeros b 2 4 && zeros b (4 + 4 * n) 52
    && (if fld b 0 1 = 0x0F then
          decide (1 ≤ n) && decide (n ≤ 12) && (List.range n).all (portDefClean b) && defs.all PortDef.ok && lanesDisjoint defs
        else decide (fld b 0 1 ≤ 1) && n == 0)

/-- LINK_PROFILE (R221): before the first accepted LINK_PLAN only. -/
def State.linkProfileOwn (ch : Nat) (b : List Byte) (s : State) : State :=
  if s.links.planned then s.answer ch .notPermitted []
  else if !profileOk b then s.answer ch .badParam []
  else
    (State.switchDomains { s with links := { s.links with
      profile := fld b 0 1, custom := (List.range (fld b 1 1)).map (portDefOf b) } }).answer ch .ok []

/-- LINK_PROFILE. -/
def execLinkProfile (ch : Nat) (s : State) : Host.Outcome State Fault Refusal :=
  .next (s.runCommand 0x0401 ch fun _ b s => s.linkProfileOwn ch b)

/-! ### LINK_PLAN (R243, R244, R246) -/

/-- Entry i of a plan, as one number. -/
def planEntry (b : List Byte) (i : Nat) : Nat := fld b (0x20 + 8 * i) 8
/-- SLOT of an entry. -/
def entrySlot (e : Nat) : Nat := bits e 11 0
/-- Coordinate of an entry. -/
def entryAt (e : Nat) : Coord := ⟨bits e 23 16, bits e 31 24, bits e 39 32⟩
/-- PORT_MASK of an entry. -/
def entryPorts (e : Nat) : Nat := bits e 51 40

/-- A coordinate lies inside the sizes. -/
def inside (size c : Coord) : Bool := decide (c.x < size.x) && decide (c.y < size.y) && decide (c.z < size.z)

/-- No value of a list stands there twice. -/
def noRepeat {α : Type} [BEq α] : List α → Bool
  | [] => true
  | x :: t => !(t.contains x) && noRepeat t

/-- The header of a plan is valid (R243, R3). -/
def planHeadOk (b : List Byte) : Bool :=
  let size := [fld b 8 2, fld b 0xA 2, fld b 0xC 2]
  fld b 0 8 != 0 && size.all (fun n => decide (1 ≤ n) && decide (n ≤ 256)) && decide (fld b 8 2 * fld b 0xA 2 * fld b 0xC 2 ≤ 32768)
    && decide (fld b 0xE 1 ≤ 1) && zeros b 0xF 0x10 && decide (1 ≤ fld b 0x1C 2) && decide (fld b 0x1C 2 ≤ 4096) && zeros b 0x1E 0x20

/-- The ports of a mask are defined by the profile and lie on axes longer than 1 (R244). -/
def State.maskOk (s : State) (size : Coord) (mask : Nat) : Bool :=
  (List.range 12).all fun p => !(bit mask p) || (decide (p < s.profilePorts.length) && decide (1 < coordOn size (s.dirOf p / 2)))

/-- The plan that a parameter block gives this package, unless it is refused (R243, R244). -/
def State.planOf (s : State) (b : List Byte) : Option Plan :=
  let size : Coord := ⟨fld b 8 2, fld b 0xA 2, fld b 0xC 2⟩
  let es := (List.range (fld b 0x1C 2)).map (planEntry b)
  match es.find? fun e => entrySlot e == s.aon.strap.toNat with
  | none => none
  | some e =>
    if planHeadOk b && es.all (fun e => bits e 15 12 == 0 && bits e 63 52 == 0 && inside size (entryAt e)) && noRepeat (es.map entrySlot)
        && noRepeat (es.map entryAt) && s.maskOk size (entryPorts e) then
      some { fabric := fld b 0 8, size := size, twin := fld b 0xE 1, peer := fld b 0x10 8, chassis := fld b 0x18 4, here := entryAt e,
             ports := entryPorts e }
    else none

/-- A port begins an attempt of the bring-up sequence (R246). -/
def Port.attempt (now : Nat) (x : Port) : Port :=
  { x with state := .bringup, stage := .train, attempts := x.attempts + 1, since := now, lane := [], samples := [], deskewed := false,
           mixed := false, obs := none, rtt := 0 }

/-- A port as it is brought down: what it has counted and its mark for retirement stay (R246, R248). -/
def Port.down (x : Port) : Port := { marked := x.marked, count := x.count }

/-- A port under a new plan: a RETIRED one stays (R252), one the plan names starts its first attempt, and another is unused. -/
def Port.replan (named : Bool) (now : Nat) (x : Port) : Port :=
  if x.state = .retired then { x with result := .none }
  else if named then x.down.attempt now else x.down

/-- An accepted plan: the ports of the package start bring-up (R246). -/
def State.acceptPlan (ch : Nat) (pl : Plan) (s : State) : State :=
  let s1 := { s with links := { s.links with plan := some pl, planned := true, planCh := some ch, checking := true }
                     sync := { s.sync with nb := [], parent := none, locked := false, zeros := 0 } }
  let s2 := forAll (List.range 13) (fun p s => s.updPort p (Port.replan (s1.plannedPorts.contains p) s.now)) s1
  s2.switchDomains.accept ch

/-- LINK_PLAN (R243, R244, R246). -/
def State.linkPlanOwn (ch : Nat) (b : List Byte) (s : State) : State :=
  if allParts.any fun p => (s.getPart p).live then s.answer ch .notPermitted []
  else match s.planOf b with
    | none => s.answer ch .badParam []
    | some pl => s.acceptPlan ch pl

/-- LINK_PLAN. -/
def execLinkPlan (ch : Nat) (s : State) : Host.Outcome State Fault Refusal :=
  .next (s.runCommand 0x0402 ch fun _ b s => s.linkPlanOwn ch b)

/-! ### Selvage (R262, R263) -/

/-- SELVAGE_SET (R262): the boundary is the next one after the acceptance (R373). -/
def State.selvageSetOwn (h : Held) (ch : Nat) (b : List Byte) (s : State) : State :=
  if allParts.any fun p => (s.getPart p).live then s.answer ch .notPermitted []
  else if bits (fld b 0 2) 15 12 ≠ 0 ∨ bits (fld b 2 2) 15 3 ≠ 0 ∨ !zeros b 4 8 then s.answer ch .badParam []
  else
    State.answer ch .ok [] { s with links := { s.links with
      selvNext := some (bits (fld b 0 2) 11 0, bits (fld b 2 2) 2 0, h.at_ + 1) } }

/-- SELVAGE_SET. -/
def execSelvageSet (ch : Nat) (s : State) : Host.Outcome State Fault Refusal :=
  .next (s.runCommand 0x0404 ch fun h b s => s.selvageSetOwn h ch b)

/-- A port becomes a selvage port: the frames queued to leave by it are discarded and counted (R263). -/
def Port.discardQueued (x : Port) : Port :=
  { x with tx := [], count := { x.count with ev := Tab.upd 0 x.count.ev 8 (satAdd 64 · x.tx.length) } }

/-- SELVAGE_APPLY (R262): at the boundary after the acceptance. -/
def State.selvageApply (s : State) : State :=
  match s.links.selvNext with
  | some (mask, noWrap, k) =>
    if k ≤ s.stitch then
      forAll ((List.range 12).filter fun p => bit mask p) (fun p s => s.updPort p Port.discardQueued)
        { s with links := { s.links with selvage := mask, noWrap := noWrap, selvNext := none } }
    else s
  | none => s

/-- SELVAGE_APPLY. -/
def execSelvageApply (s : State) : Host.Outcome State Fault Refusal := .next s.selvageApply

/-! ### Routing table (R265) -/

/-- Box i of ROUTE_TABLE_LOAD. -/
def routeBox (b : List Byte) (i : Nat) : List Nat := (List.range 6).map fun j => fld b (8 + 8 * i + j) 1

/-- ROUTE_TABLE_LOAD (R265). -/
def State.routeTableOwn (ch : Nat) (b : List Byte) (s : State) : State :=
  let n := fld b 0 2
  if 16 < n ∨ !zeros b 2 8 ∨ !((List.range n).all fun i => zeros b (14 + 8 * i) (16 + 8 * i)) then s.answer ch .badParam []
  else State.answer ch .ok [] { s with links := { s.links with boxes := (List.range n).map (routeBox b) } }

/-- ROUTE_TABLE_LOAD. -/
def execRouteTableLoad (ch : Nat) (s : State) : Host.Outcome State Fault Refusal :=
  .next (s.runCommand 0x0405 ch fun _ b s => s.routeTableOwn ch b)

end Sys2Proof.Machine
end

