-- ==== Sys2Proof/Machine/Bringup.lean ====
section
/-! DEFINITION. Bring-up of a port, the plan check, and losing a link (R220, R245 to R257). -/

namespace Sys2Proof.Machine

/-! ### Own link-management flits -/

/-- Lane i of an attempt. -/
def Port.laneAt (x : Port) (i : Nat) : Lane := Tab.get {} x.lane i
/-- Change lane i of an attempt. -/
def Port.updLane (i : Nat) (f : Lane → Lane) (x : Port) : Port := { x with lane := Tab.upd {} x.lane i f }
/-- Lane numbers of a port. -/
def State.laneNums (s : State) (p : Nat) : List Nat := List.range (s.lanesOf p)

/-- Deskewed with the round trip measured: the ALIGNED flag (R249). -/
def Port.isAligned (x : Port) : Bool := x.deskewed && x.samples.length == 16

/-- The ALIGN payload that a lane sends (R249): the MARK of this flit time, and the highest MARK received; ECHO_DELAY is a FREE VALUE, log entry 31. -/
def State.alignPayload (s : State) (p lane : Nat) : List Byte :=
  let x := s.getPort p
  record 232 [⟨0, 1, 1⟩, ⟨1, 1, lane⟩, ⟨2, 1, s.lanesOf p⟩, ⟨3, 1, p⟩, ⟨4, 4, x.marks⟩, ⟨8, 4, (x.laneAt lane).mark⟩,
    ⟨0xC, 4, (Config.echoDelay (s.free + lane)).toNat⟩, ⟨0x10, 1, b2n x.isAligned⟩]

/-- SEEN: two consecutive identical IDENT flits on every lane (R250). -/
def State.seenAll (s : State) (p : Nat) : Bool := (s.laneNums p).all fun i => decide (2 ≤ ((s.getPort p).laneAt i).same)

/-- The IDENT payload that a lane sends (R250). -/
def State.identPayload (s : State) (p lane : Nat) : List Byte :=
  let pl := s.links.plan.getD ⟨0, {}, 0, 0, 0, {}, 0⟩
  record 232 [⟨0, 1, 2⟩, ⟨1, 1, lane⟩, ⟨2, 1, s.lanesOf p⟩, ⟨3, 1, p⟩, ⟨4, 1, s.dirOf p⟩, ⟨5, 1, pl.twin⟩, ⟨6, 1, b2n (s.seenAll p)⟩,
    ⟨8, 8, pl.fabric⟩, ⟨0x10, 1, pl.here.x⟩, ⟨0x11, 1, pl.here.y⟩, ⟨0x12, 1, pl.here.z⟩, ⟨0x14, 4, pl.chassis⟩, ⟨0x18, 2, s.aon.strap.toNat⟩]

/-- 16 flit times of a lane before its port is UP (R248 to R250): a LINKMGT flit with SEQ, ACK and NAK zero, and 15 IDLE flits. -/
def mgmtTimes (payload : List Byte) : List Flit :=
  mkFlit (flitHeader 2 0 0 false false false 0 0 (0, 0, 0)) payload :: List.replicate 15 (mkFlit (flitHeader 0 0 0 false false false 0 0 (0, 0, 0)) [])
/-- ALIGN flits of one MARK go out on every lane (R249). -/
def State.sendAlign (p : Nat) (s : State) : State :=
  let s1 := forAll (s.laneNums p) (fun i t => t.sendLane p i (mgmtTimes (s.alignPayload p i))) s
  { s1.updPort p (fun x => { x with marks := (x.marks + 1) % 2 ^ 32 }) with free := s.free + s.lanesOf p }
/-- IDENT flits go out on every lane (R250). -/
def State.sendIdent (p : Nat) (s : State) : State := forAll (s.laneNums p) (fun i t => t.sendLane p i (mgmtTimes (s.identPayload p i))) s

/-! ### Attempts (R246, R247) -/

/-- An attempt or a retrain runs on the port. -/
def Port.trying (x : Port) : Bool := x.stage == .train || x.stage == .align || x.stage == .ident

/-- A failed attempt: a retrain waits for its bound (R255, R256), the fourth attempt leaves the port ABSENT, an earlier one is followed by
a wait (R247). -/
def Port.failed (now : Nat) (x : Port) : Port :=
  if x.retrain.isSome then { x with stage := .idle }
  else if 4 ≤ x.attempts then { x with state := .absent, stage := .finished, obs := none, mixed := false, rtt := 0 }
  else { x with stage := .waiting, since := now }

/-- The attempt of a port fails. -/
def State.attemptFails (p : Nat) (s : State) : State := s.updPort p (Port.failed s.now)

/-- BRINGUP_ATTEMPT (R247): after a 50 ms wait. -/
def State.bringupAttempt (p : Nat) (s : State) : State :=
  let x := s.getPort p
  if x.state = .bringup ∧ x.stage = .waiting ∧ x.since + ms 50 ≤ s.now then s.updPort p (Port.attempt s.now) else s

/-- BRINGUP_ATTEMPT. -/
def execBringupAttempt (port : Nat) (s : State) : Host.Outcome State Fault Refusal := .next (s.bringupAttempt port)

/-- The stage of a port passes to ALIGN, and it starts to send ALIGN flits. -/
def State.enterAlign (p : Nat) (s : State) : State :=
  (s.updPort p fun x => { x with stage := .align }).sendAlign p

/-- The stage of a port passes to IDENT, and it starts to send IDENT flits. -/
def State.enterIdent (p : Nat) (s : State) : State :=
  (s.updPort p fun x => { x with stage := .ident }).sendIdent p

/-- LANE_LOCK (R246, R220): TRAIN ends when every lane of the port has locked. -/
def State.laneLock (p lane : Nat) (s : State) : State :=
  if (s.getPort p).stage = .train ∧ lane < s.lanesOf p then
    let s1 := s.updPort p (Port.updLane lane fun l => { l with locked := true })
    if (s.laneNums p).all fun i => ((s1.getPort p).laneAt i).locked then s1.enterAlign p else s1
  else s

/-- LANE_LOCK. -/
def execLaneLock (port lane : Nat) (s : State) : Host.Outcome State Fault Refusal := .next (s.laneLock port lane)

/-- A stage of an attempt has overrun its bound, counted from the attempt's start (R246). -/
def State.stageTimeout (p : Nat) (st : Stage) (bound : Nat) (s : State) : State :=
  let x := s.getPort p
  if x.stage = st ∧ x.retrain = none ∧ x.since + ms bound ≤ s.now then s.attemptFails p else s

/-- TRAIN_TIMEOUT. -/
def execTrainTimeout (port : Nat) (s : State) : Host.Outcome State Fault Refusal := .next (s.stageTimeout port .train 300)
/-- ALIGN_TIMEOUT. -/
def execAlignTimeout (port : Nat) (s : State) : Host.Outcome State Fault Refusal := .next (s.stageTimeout port .align 350)
/-- IDENT_TIMEOUT. -/
def execIdentTimeout (port : Nat) (s : State) : Host.Outcome State Fault Refusal := .next (s.stageTimeout port .ident 450)

/-- LANE_SIGNAL_LOSS (R246): in any stage of an attempt. -/
def State.laneSignalLoss (p lane : Nat) (s : State) : State :=
  if (s.getPort p).trying ∧ lane < s.lanesOf p then s.attemptFails p else s

/-- LANE_SIGNAL_LOSS. -/
def execLaneSignalLoss (port lane : Nat) (s : State) : Host.Outcome State Fault Refusal := .next (s.laneSignalLoss port lane)

/-! ### ALIGN (R249) -/

/-- What a lane learns from an ALIGN flit. -/
def Lane.align (b : List Byte) (arrival : Nat) (l : Lane) : Lane :=
  { l with port := fld b 3 1, lanes := fld b 2 1, mark := max l.mark (fld b 4 4), aligns := l.aligns + 1, arrival := arrival
           aligned := if bit (fld b 0x10 1) 0 then l.aligned + 1 else 0 }

/-- Every lane reports the same PORT and LANES, and the MARK streams stand at one mark. -/
def lanesMatch (ls : List Lane) : Bool :=
  ls.all fun l => decide (1 ≤ l.aligns) && l.port == (ls.headD {}).port && l.lanes == (ls.headD {}).lanes && l.mark == (ls.headD {}).mark

/-- Skew between lanes, 1/32 ns. -/
def skewOf (ls : List Lane) : Nat := (ls.map (·.arrival)).foldl max 0 - (ls.map (·.arrival)).foldl min (ls.headD {}).arrival

/-- RTT_NS of 16 samples in 1/32 ns: their mean, rounded up to 1 ns. -/
def rttOf (samples : List Nat) : Nat := cdiv samples.sum 512

/-- The port after an ALIGN flit: the lane, a round-trip sample on the lowest lane, and the deskew. -/
def Port.alignStep (n lane arrival departure : Nat) (b : List Byte) (x : Port) : Port :=
  let y := x.updLane lane (Lane.align b arrival)
  let sample := arrival - departure - fld b 0xC 4
  let samples := if lane = 0 then (sample :: y.samples).take 16 else y.samples
  { y with samples := samples, rtt := if samples.length = 16 then rttOf samples else y.rtt
           deskewed := y.deskewed || lanesMatch ((List.range n).map y.laneAt) }

/-- ALIGN_FLIT (R249): a skew above 64 ns or a round trip above 2 us fails the attempt; lanes that never match pass to IDENT after 16
flits as MIXED. A flit on the lowest lane tells of 16 flit times, in which the own flits go out (log entry 31). -/
def State.alignFlit (p lane : Nat) (b : List Byte) (arrival departure : Nat) (s : State) : State :=
  let x := s.getPort p
  if x.stage ≠ .align ∨ s.lanesOf p ≤ lane ∨ fld b 0 1 ≠ 1 then s
  else
    let y := x.alignStep (s.lanesOf p) lane arrival departure b
    let ls := (s.laneNums p).map y.laneAt
    let s1 := s.updPort p fun _ => y
    if y.deskewed && !x.deskewed && decide (64 * 32 < skewOf ls) then s1.attemptFails p
    else if y.isAligned && decide (2000 < y.rtt) then s1.attemptFails p
    else if y.isAligned && ls.all (fun l => decide (4 ≤ l.aligned)) then s1.enterIdent p
    else if !y.deskewed && ls.all (fun l => decide (16 ≤ l.aligns)) then
      State.enterIdent p (s1.updPort p fun z => { z with mixed := true, rtt := 0, samples := [] })
    else if lane = 0 then s1.sendAlign p
    else s1

/-- ALIGN_FLIT. -/
def execAlignFlit (port lane : Nat) (payload : List Byte) (arrival departure : Nat) (s : State) : Host.Outcome State Fault Refusal :=
  .next (s.alignFlit port lane payload arrival departure)

/-! ### IDENT (R250) -/

/-- The identity an IDENT payload carries. -/
def identOf (b : List Byte) : Ident :=
  { lane := fld b 1 1, lanes := fld b 2 1, port := fld b 3 1, dir := fld b 4 1, twin := fld b 5 1, fabric := fld b 8 8,
    at_ := ⟨fld b 0x10 1, fld b 0x11 1, fld b 0x12 1⟩, chassis := fld b 0x14 4, slot := bits (fld b 0x18 2) 11 0 }

/-- What a lane learns from an IDENT flit. -/
def Lane.identStep (b : List Byte) (l : Lane) : Lane :=
  { l with ident := some (identOf b), same := if l.ident = some (identOf b) then l.same + 1 else 1, seen := bit (fld b 6 1) 0 }

/-- The lanes received identities from more than one partner port (R251). -/
def identsMixed (ls : List Lane) : Bool :=
  ls.any fun l => l.ident.map Ident.who != (ls.headD {}).ident.map Ident.who

/-- IDENT is complete. -/
def identDone (ls : List Lane) : Bool := ls.all fun l => decide (2 ≤ l.same) && l.seen

/-- A port whose IDENT is complete: a retrain keeps the partner it had, and marks another one as mixed. -/
def Port.identified (ls : List Lane) (x : Port) : Port :=
  if x.retrain.isSome then
    { x with stage := .finished, mixed := x.mixed || identsMixed ls || (ls.headD {}).ident.map Ident.who != x.obs.map Ident.who }
  else { x with stage := .finished, mixed := x.mixed || identsMixed ls, obs := (ls.headD {}).ident }

/-- IDENT may still complete: a retrain must complete within 1 ms (R255). -/
def Port.identInTime (now : Nat) (x : Port) : Bool :=
  match x.retrain with | some t => decide (now ≤ t + ms 1) | none => true

/-- IDENT_FLIT (R250): the own IDENT flits go out in the 16 flit times that a flit on the lowest lane tells of, and once more with SEEN at the end (log
entry 31). -/
def State.identFlit (p lane : Nat) (b : List Byte) (s : State) : State :=
  if (s.getPort p).stage ≠ .ident ∨ s.lanesOf p ≤ lane ∨ fld b 0 1 ≠ 2 then s
  else
    let s1 := s.updPort p (Port.updLane lane (Lane.identStep b))
    let ls := (s.laneNums p).map (s1.getPort p).laneAt
    if identDone ls && (s.getPort p).identInTime s.now then (s1.sendIdent p).updPort p (Port.identified ls)
    else if lane = 0 then s1.sendIdent p
    else s1

/-- IDENT_FLIT. -/
def execIdentFlit (port lane : Nat) (payload : List Byte) (s : State) : Host.Outcome State Fault Refusal := .next (s.identFlit port lane payload)

/-! ### Plan check (R251, R252) -/

/-- Planned ports without a result. -/
def State.unchecked (s : State) : List Nat := s.plannedPorts.filter fun p => (s.getPort p).result == .none

/-- A port's bring-up has ended. -/
def Port.ended (x : Port) : Bool := x.stage == .finished || x.state == .absent || x.state == .retired

/-- The ports that the check gives a result now: under a new plan all of them once every one has ended; later each port as it ends. -/
def State.checkable (s : State) : List Nat :=
  let ps := s.unchecked
  if s.links.checking then (if ps.all fun p => (s.getPort p).ended then ps else []) else ps.filter fun p => (s.getPort p).ended

/-- The observed partner of a port is the expected partner of port q. -/
def State.observes (s : State) (p q : Nat) : Bool :=
  match (s.getPort p).obs, s.expected q with
  | some o, some e => o.who == e
  | _, _ => false

/-- The port of the plan with which a port is swapped (R251). -/
def State.swapOf (s : State) (p : Nat) : Option Nat :=
  s.plannedPorts.find? fun q =>
    q != p && !(s.getPort q).mixed && (s.getPort q).state != .retired && !s.observes q q && s.observes p q && s.observes q p

/-- The result of a port (R251). -/
def State.resultOf (s : State) (p : Nat) : PortResult :=
  let x := s.getPort p
  if x.state = .retired ∨ x.obs = none then .absent
  else if x.mixed then .miswired
  else if s.observes p p then .ok
  else if (s.swapOf p).isSome then .swapped
  else .miswired

/-- The own lanes by the LANE_INDEX that their identities reported, plus one (R223). -/
def Port.laneOrder (n : Nat) (x : Port) : Tab Nat :=
  (List.range n).foldl (fun t i => match (x.laneAt i).ident with | some d => Tab.set 0 t d.lane (i + 1) | none => t) []

/-- A flit stream begins: striped from lane 0 at both ends (R223, R248); after a retrain too, where the lanes have been deskewed anew (log entry 82). -/
def Port.newStream (n : Nat) (x : Port) : Port := { x with order := x.laneOrder n, laneRx := [], txIndex := 0, rxIndex := 0, lane := [], samples := [] }

/-- A port after the check (R248, R252): an OK port becomes UP with its flit stream at SEQ 0. -/
def Port.checked (n : Nat) (r : PortResult) (pair : Option Nat) (now : Nat) (x : Port) : Port :=
  let y := { x.newStream n with result := r, pair := if r = .swapped then pair.getD 255 else 255, stage := .idle }
  if x.state = .retired then y
  else match r with
    | .ok => { y with state := .up, txSeq := 0, txAcked := 0, replay := [], rxSeq := 0, nak := false, symbols := [], partialRx := [], partialDl := [],
                      rx := [], tx := [], flow := [], used := [], tries := [], mgmt := [], chunks := [], lastRest := false, lastAccept := now, lostAt := none, retrain := none }
    | .absent => { y with state := .absent }
    | _ => { y with state := .held }

/-- The completion status of LINK_PLAN (R252). -/
def State.planStatus (s : State) : Status :=
  let rs := s.plannedPorts.map fun p => (s.getPort p).result
  if rs.all (· == .ok) then .ok else if rs.any (fun r => r == .miswired || r == .swapped) then .miswired else .linkAbsent

/-- Complete the LINK_PLAN that waits for the check. -/
def State.completePlan (s : State) : State :=
  match s.links.planCh with
  | some ch => State.answer ch s.planStatus [] { s with links := { s.links with planCh := none, checking := false } }
  | none => s

/-- Every planned port has its result and LINK_PLAN is still to complete: the check ends. -/
def State.endCheck (s : State) : State := if s.links.checking ∧ s.unchecked = [] then s.completePlan else s

/-- PLAN_CHECK (R251, R252). -/
def State.planCheck (s : State) : State :=
  let ps := s.checkable
  let s1 := forAll ps (fun p t => t.updPort p (Port.checked (s.lanesOf p) (s.resultOf p) (s.swapOf p) s.now)) s
  let s2 := if ps.any fun p => s.resultOf p != .ok then s1.raise .linkPlan else s1
  s2.endCheck

/-- PLAN_CHECK. -/
def execPlanCheck (s : State) : Host.Outcome State Fault Refusal := .next s.planCheck

/-! ### Losing a link (R255 to R257) -/

/-- The condition of a link event holds. -/
def State.linkEventDue (s : State) (p : Nat) (c : LinkEventCause) : Bool :=
  let x := s.getPort p
  s.carries p && (match c with
    | .laneLoss lane => decide (lane < s.lanesOf p)
    | .replays => x.tries.any fun n => decide (8 ≤ n)
    | .noAccept => decide (x.lastAccept + us 100 ≤ s.now))

/-- A retrain begins (R255): the port holds its traffic, and its replay buffer and partner stay. -/
def Port.startRetrain (now : Nat) (x : Port) : Port :=
  { x with retrain := some now, stage := .train, lane := [], samples := [], deskewed := false, mixed := false }

/-- LINK_EVENT (R255): an UP port that is not retraining. -/
def State.linkEvent (p : Nat) (c : LinkEventCause) (s : State) : State :=
  if s.linkEventDue p c then ((s.updPort p (Port.startRetrain s.now)).portEv p 3 1).faultEvent 11 p 0 0 else s

/-- LINK_EVENT. -/
def execLinkEvent (port : Nat) (cause : LinkEventCause) (s : State) : Host.Outcome State Fault Refusal := .next (s.linkEvent port cause)

/-- The retrain has identified the same partner (R255). -/
def Port.retrained (x : Port) : Bool := x.retrain.isSome && x.stage == .finished && !x.mixed

/-- Send again every flit of the replay buffer (R225, R255). -/
def State.replayAll (p : Nat) (s : State) : State :=
  let fs := (s.getPort p).replay
  if fs.isEmpty then s
  else ((s.updPort p fun x => { x with tries := x.tries.map (· + 1) }).sendStream p fs).portEv p 2 1

/-- PORT_RETRAIN_DONE (R255): its IDENT completed within 1 ms with the same partner; the port replays and resumes. -/
def State.portRetrainDone (p : Nat) (s : State) : State :=
  if (s.getPort p).retrained then
    (s.updPort p fun x =>
      { x.newStream (s.lanesOf p) with retrain := none, stage := .idle, tries := x.tries.map fun _ => 0, lastAccept := s.now }).replayAll p
  else s

/-- PORT_RETRAIN_DONE. -/
def execPortRetrainDone (port : Nat) (s : State) : Host.Outcome State Fault Refusal := .next (s.portRetrainDone port)

/-- The port is LOST (R256): what it had queued is discarded and counted. -/
def Port.lose (now : Nat) (x : Port) : Port :=
  { x with state := .lost, stage := .idle, retrain := none, lostAt := some now, tx := [], replay := [], tries := [], mgmt := [], chunks := [], symbols := [], partialRx := [], partialDl := [],
           count := { x.count with ev := Tab.upd 0 (Tab.upd 0 x.count.ev 10 (satAdd 64 · x.tx.length)) 4 (satAdd 64 · 1) } }

/-- PORT_LOST (R256): the retrain overran 1 ms or found another partner. A lost selvage port changes no pattern; the twin port's loss makes
the bound partitions SOLO instead (R305). -/
def State.portLost (p : Nat) (s : State) : State :=
  let x := s.getPort p
  match x.retrain with
  | some t =>
    if (t + ms 1 ≤ s.now ∧ !x.retrained) ∨ (x.stage = .finished ∧ x.mixed) then
      let s1 := ((s.updPort p (Port.lose s.now)).faultEvent 12 p 0 0).raise .linkLost
      if p = 12 then s1.twinLost else if s.isSelvage p then s1 else s1.haltAllDue .linkLost 0xA p
    else s
  | none => s

/-- PORT_LOST. -/
def execPortLost (port : Nat) (s : State) : Host.Outcome State Fault Refusal := .next (s.portLost port)

/-- LOST_PORT_BRINGUP (R253, R256): 100 ms after the loss, bring-up runs again against the current plan. -/
def State.lostPortBringup (p : Nat) (s : State) : State :=
  match (s.getPort p).lostAt with
  | some t =>
    if (s.getPort p).state = .lost ∧ t + ms 100 ≤ s.now ∧ s.plannedPorts.contains p then
      s.updPort p fun x => x.down.attempt s.now
    else s
  | none => s

/-- LOST_PORT_BRINGUP. -/
def execLostPortBringup (port : Nat) (s : State) : Host.Outcome State Fault Refusal := .next (s.lostPortBringup port)

end Sys2Proof.Machine
end

