-- ==== Sys2Proof/Machine/Flits.lean ====
section
/-! DEFINITION. The flit stream of an UP port: receiving, acknowledging and replaying flits, flow-control symbols, and the order in which a
port sends (R223 to R228, R230, R234 to R238, R267). -/

namespace Sys2Proof.Machine

/-! ### Header fields (R223) -/

/-- FTYPE. -/
def flFtype (f : Flit) : Nat := bits f.hdr.toNat 3 0
/-- FIRST. -/
def flFirst (f : Flit) : Bool := f.hdr.getLsbD 4
/-- LAST. -/
def flLast (f : Flit) : Bool := f.hdr.getLsbD 5
/-- VL. -/
def flVl (f : Flit) : Nat := bits f.hdr.toNat 7 6
/-- DL. -/
def flDl (f : Flit) : Nat := bits f.hdr.toNat 8 8
/-- NAK. -/
def flNak (f : Flit) : Bool := f.hdr.getLsbD 9
/-- SEQ. -/
def flSeq (f : Flit) : Nat := bits f.hdr.toNat 23 12
/-- ACK. -/
def flAck (f : Flit) : Nat := bits f.hdr.toNat 35 24
/-- SKIND. -/
def flSkind (f : Flit) : Nat := bits f.hdr.toNat 41 40
/-- SCH. -/
def flSch (f : Flit) : Nat := bits f.hdr.toNat 44 42
/-- HOLD. -/
def flHold (f : Flit) : Nat := bits f.hdr.toNat 63 48

/-- The CRC of a flit is right (R223, R224). -/
def flCrcOk (f : Flit) : Bool := f.crc == crc32 (leBytes 8 f.hdr.toNat ++ slice f.payload 0 232)

/-! ### Receiving (R224 to R228) -/

/-- An ACK releases the flits up to it from the replay buffer (R225, R226). -/
def Port.acked (ack : Nat) (x : Port) : Port :=
  let n := (ack + 1 + 4096 - x.txAcked % 4096) % 4096
  if n ≤ x.replay.length ∧ 0 < n then
    { x with replay := x.replay.drop n, tries := x.tries.drop n, txAcked := (ack + 1) % 4096
             chunks := x.chunks.filter fun c => decide (n ≤ (c.2.2.2 + 4096 - x.txAcked % 4096) % 4096) }
  else x

/-- An accepted symbol sets its channel, at the boundary of the frame in flight when there is one (R236, R238). -/
def Port.symbol (now : Nat) (fl : Flit) (x : Port) : Port :=
  if 6 ≤ (flSch fl) then x
  else if (flSkind fl) = 1 ∨ ((flSkind fl) = 2 ∧ (flHold fl) = 0) then x.updChan (flSch fl) fun c => { c with heldUntil := none }
  else if (flSkind fl) = 2 then
    { x.updChan (flSch fl) fun c => { c with heldUntil := some (max now c.frameEnd + (flHold fl)) } with
      used := Tab.set 0 x.used (65 + vlOfSch (flSch fl)) 1 }
  else x

/-- A DATA flit joins the frame of its virtual lane and takes a place of its channel (R228, R235). -/
def Port.dataFlit (fl : Flit) (x : Port) : Port :=
  let sofar := if flFirst fl then [] else Tab.get [] x.partialRx (flVl fl)
  let dl := if (flFirst fl) then (flDl fl) else Tab.get 0 x.partialDl (flVl fl) - 1
  { x.updChan (schOf (flVl fl) dl) (fun c => { c with taken := c.taken + 1 }) with
    partialRx := Tab.set [] x.partialRx (flVl fl) (sofar ++ slice fl.payload 0 232), partialDl := Tab.set 0 x.partialDl (flVl fl) (dl + 1) }

/-- The frame that the last flit of a virtual lane completes. -/
def Port.frameOf (vl : Nat) (x : Port) : Frame := frameParse vl (Tab.get 0 x.partialDl vl - 1) (Tab.get [] x.partialRx vl)

/-- A completed frame stands among those received; one that may not be delivered is discarded and counted (R230, R263). -/
def State.frameIn (p : Nat) (f : Frame) (s : State) : State :=
  let s1 := s.updPort p fun x =>
    { x with rx := x.rx ++ [f], partialRx := Tab.set [] x.partialRx f.vl [], partialDl := Tab.set 0 x.partialDl f.vl 0 }
  if !kindOk p f || s.isSelvage p then (s1.arrives p f).2 else s1

/-- The payload side of an accepted flit. -/
def State.flitPayload (p : Nat) (fl : Flit) (s : State) : State :=
  if (flFtype fl) = 1 then
    let s1 := s.updPort p (Port.dataFlit fl)
    let f := (s1.getPort p).frameOf (flVl fl)
    let s2 := s1.flowCheck p (schOf f.vl f.dl)
    if (flLast fl) then s2.frameIn p f else s2
  else s

/-- A flit accepted in sequence: its ACK, NAK and symbol take effect, once (R225, R227). -/
def State.acceptFlit (p : Nat) (fl : Flit) (s : State) : State :=
  let s1 := s.updPort p fun x => (Port.symbol s.now fl (x.acked (flAck fl))) |> fun y => { y with rxSeq := (y.rxSeq + 1) % 4096, lastAccept := s.now }
  let s2 := if (flNak fl) then s1.replayAll p else s1
  s2.flitPayload p fl

/-- A failed flit is one event of the link error class, whatever the port does (R224, R267). -/
def State.flitError (p : Nat) (s : State) : State := (s.portEv p 1 1).faultEvent 10 p 0 0

/-- A failed flit of the flit stream (R224, R225, R267): NAK goes out with the next flit. -/
def State.flitFails (p : Nat) (s : State) : State := State.flitError p (s.updPort p fun x => { x with nak := true })

/-- A flit is a failed one: its FEC cannot correct it, or its CRC fails (R224). -/
def flitFailed (fec : Fec) (fl : Flit) : Bool := fec == .failed || !flCrcOk fl

/-- The next flit of the received stream (R224, R225). A flit out of sequence is discarded whole. -/
def State.takeFlit (p : Nat) (fec : Fec) (fl : Flit) (s : State) : State :=
  if flitFailed fec fl then s.flitFails p
  else
    let s1 := if fec = .corrected then s.portEv p 0 1 else s
    if (flSeq fl) = (s.getPort p).rxSeq then s1.acceptFlit p fl else s1

/-- Own lane of a port on which flit i of the received stream comes (R223). -/
def State.laneOfFlit (s : State) (p i : Nat) : Nat :=
  let k := i % max (s.lanesOf p) 1
  if Tab.get 0 (s.getPort p).order k = 0 then k else Tab.get 0 (s.getPort p).order k - 1

/-- Take the flits of the received stream in flit order, as far as they have come (R223). -/
def State.reassemble (p : Nat) : Nat → State → State
  | 0, s => s
  | n + 1, s =>
    let lane := s.laneOfFlit p (s.getPort p).rxIndex
    match Tab.get [] (s.getPort p).laneRx lane with
    | [] => s
    | (fec, fl) :: rest =>
      State.reassemble p n ((s.updPort p fun x => { x with rxIndex := x.rxIndex + 1, laneRx := Tab.set [] x.laneRx lane rest }).takeFlit p fec fl)

/-- Flits that wait on the lanes of a port for their turn. -/
def Port.laneFlits (x : Port) : Nat := (x.laneRx.map fun e => e.2.length).sum

/-- FLIT_RECEIVE (R223 to R225, R248): on a port that carries flits, the flit takes its turn in the stream; in bring-up and in a retrain a failed one
counts and is discarded. -/
def State.flitReceive (p lane : Nat) (fec : Fec) (fl : Flit) (s : State) : State :=
  if s.lanesOf p ≤ lane then s
  else if s.carries p then
    let s1 := s.updPort p fun x => { x with laneRx := Tab.upd [] x.laneRx lane (· ++ [(fec, fl)]) }
    s1.reassemble p (s1.getPort p).laneFlits
  else if (s.getPort p).stage = .align ∨ (s.getPort p).stage = .ident then
    if flitFailed fec fl then s.flitError p else if fec = .corrected then s.portEv p 0 1 else s
  else s

/-- FLIT_RECEIVE. -/
def execFlitReceive (port lane : Nat) (fec : Fec) (flit : Flit) (s : State) : Host.Outcome State Fault Refusal :=
  .next (s.flitReceive port lane fec flit)

/-! ### Holds (R236, R237) -/

/-- FLOW_HOLD_EXPIRY (R236). -/
def State.flowHoldExpiry (p k : Nat) (s : State) : State :=
  match ((s.getPort p).chan k).heldUntil with
  | some t => if t ≤ s.now then s.updPort p (Port.updChan k fun c => { c with heldUntil := none }) else s
  | none => s

/-- FLOW_HOLD_EXPIRY. -/
def execFlowHoldExpiry (port sch : Nat) (s : State) : Host.Outcome State Fault Refusal := .next (s.flowHoldExpiry port sch)

/-- FLOW_OFF_RESEND (R237): half of the hold of the last OFF has passed and the channel is still short of places. -/
def State.flowOffResend (p k : Nat) (s : State) : State :=
  let c := (s.getPort p).chan k
  match c.offAt with
  | some t =>
    if 2048 - c.taken ≤ s.onAbove p ∧ s.offHold p ≤ 2 * (s.now - t) then
      s.updPort p fun x => { x.updChan k (fun c => { c with offAt := some s.now }) with symbols := x.symbols ++ [(2, k, s.offHold p)] }
    else s
  | none => s

/-- FLOW_OFF_RESEND. -/
def execFlowOffResend (port sch : Nat) (s : State) : Host.Outcome State Fault Refusal := .next (s.flowOffResend port sch)

/-! ### Sending (R234, R238) -/

/-- LINK_SLOTS that a partition declares for a port (R146). -/
def State.slotsOn (s : State) (part p : Nat) : Nat := if (s.getPart part).holds then (s.getPart part).image.amount 5 p else 0

/-- No frame of a virtual lane is in flight on a port at an AON tick (R228). -/
def Port.laneFree (x : Port) (vl now : Nat) : Bool :=
  (List.range 6).all fun k => vlOfSch k != vl || decide ((x.chan k).frameEnd ≤ now)

/-- A frame may start on a port: its channel is not held (R238), no frame of its virtual lane is in flight (R228) and the replay buffer
takes it (R226). -/
def State.mayStart (s : State) (p : Nat) (f : Frame) : Bool :=
  let x := s.getPort p
  !((x.chan (schOf f.vl f.dl)).heldAt s.now) && x.laneFree f.vl s.now && s.roomFor p (frameFlits f) && s.chunkMay p f

/-- Two frames of one virtual lane, source and destination, which arrive in the order sent (R233); pattern data and collective frames of two partitions
wait for slots of their own (R146). -/
def sameFlow (f g : Frame) : Bool := f.vl == g.vl && f.src == g.src && f.dst == g.dst && (decide (2 ≤ f.vl) || f.part == g.part)

/-- Of the frames of each flow, the oldest: only these may start. -/
def flowHeads (seen : List Frame) : List Frame → List Frame
  | [] => []
  | f :: t => if seen.any (sameFlow f) then flowHeads seen t else f :: flowHeads (f :: seen) t

/-- The frames queued at a port that are the oldest of their flow. -/
def Port.heads (x : Port) : List Frame := flowHeads [] x.tx

/-- Step 2 of R234: LINKMGT flits and control frames while the control allowance of 4 x L flits lasts. -/
def State.controlFrame (s : State) (p : Nat) : Option Frame :=
  if Tab.get 0 (s.getPort p).used 64 < 4 * s.lanesOf p then (s.getPort p).heads.find? fun f => f.vl == 2 && s.mayStart p f else none

/-- Step 3 of R234: pattern data and collective frames of a partition whose allowance lasts. -/
def State.slotFrame (s : State) (p : Nat) : Option Frame :=
  (s.getPort p).heads.find? fun f => decide (f.vl < 2) && decide (Tab.get 0 (s.getPort p).used f.part < s.slotsOn f.part p) && s.mayStart p f

/-- The oldest frame of a virtual lane that may start. -/
def State.laneHead (s : State) (p vl : Nat) : Option Frame := (s.getPort p).heads.find? fun f => f.vl == vl && s.mayStart p f

/-- Step 4 of R234: VL3 frames and what is left of VL2, in turn frame by frame. -/
def State.restFrame (s : State) (p : Nat) : Option Frame :=
  if (s.getPort p).lastRest then (s.laneHead p 3).or (s.laneHead p 2) else (s.laneHead p 2).or (s.laneHead p 3)

/-- The frame that a port starts next, with the key of the allowance it is charged to (none for step 4). -/
def State.pickFrame (s : State) (p : Nat) : Option (Frame × Option Nat) :=
  match s.controlFrame p, s.slotFrame p, s.restFrame p with
  | some f, _, _ => some (f, some 64)
  | none, some f, _ => some (f, some f.part)
  | none, none, some f => some (f, none)
  | none, none, none => none

/-- Data bytes of a TWIN_COPY frame; none for its end frame (R357). -/
def copyData (f : Frame) : Option Nat := if fld f.payload 8 1 = 0xFE then none else some (f.payload.length - 16)

/-- A TWIN_COPY frame has been sent: the bytes count, and the end frame completes the copy (R360). -/
def State.copySent (f : Frame) (s : State) : State :=
  if f.kind ≠ 0xB then s
  else match copyData f with
    | some n => s.updTwin f.part fun t => { t with copyDone := satAdd 64 t.copyDone n }
    | none => s.updTwin f.part fun t => { t with copy := .complete }

/-- A frame leaves the queue of a port and is sent, charged to an allowance. -/
def State.startFrame (p : Nat) (f : Frame) (key : Option Nat) (s : State) : State :=
  let s1 := s.updPort p fun x =>
    match key with
    | some k => { x with tx := x.tx.erase f, used := Tab.upd 0 x.used k (· + frameFlits f) }
    | none => { x with tx := x.tx.erase f, lastRest := f.vl == 2 }
  (((s1.sendFrame p f).updPort p (Port.chunkSent f)).collProgress f).copySent f

/-- A frame is in flight on some channel. -/
def Port.inFlight (x : Port) (now : Nat) : Bool := (List.range 6).any fun k => decide (now < (x.chan k).frameEnd)

/-- Send a LINKMGT flit on an UP port, sequenced as any other and charged to the control allowance (R234, R273). -/
def State.putMgmt (p : Nat) (payload : List Byte) (s : State) : State :=
  State.sendFlit p 2 0 0 false false payload (s.updPort p fun x => { x with used := Tab.upd 0 x.used 64 (· + 1) })

/-- A LINKMGT flit goes out in the first flit slot: at once where the port may send, else before any frame when it may again (R273). -/
def State.sendMgmt (p : Nat) (payload : List Byte) (s : State) : State :=
  if s.carries p && s.roomFor p 1 && (s.getPort p).mgmt.isEmpty then s.putMgmt p payload
  else if (s.getPort p).state = .up then s.updPort p fun x => { x with mgmt := x.mgmt ++ [payload] }
  else s

/-- The LINKMGT flit that has waited longest goes out. -/
def State.mgmtNext (p : Nat) (s : State) : State :=
  match (s.getPort p).mgmt with
  | b :: t => s.putMgmt p b |>.updPort p fun x => { x with mgmt := t }
  | [] => s

/-- FRAME_SEND (R234): a LINKMGT flit that waits, the next frame by priority, or an IDLE flit when nothing may start and nothing is in flight. -/
def State.frameSend (p : Nat) (s : State) : State :=
  if !s.carries p then s
  else if !(s.getPort p).mgmt.isEmpty && s.roomFor p 1 then s.mgmtNext p
  else match s.pickFrame p with
    | some (f, key) => s.startFrame p f key
    | none => if (s.getPort p).inFlight s.now || !s.roomFor p 1 then s else s.sendFlit p 0 0 0 false false []

/-- FRAME_SEND. -/
def execFrameSend (port : Nat) (s : State) : Host.Outcome State Fault Refusal := .next (s.frameSend port)

end Sys2Proof.Machine
end

