-- ==== Sys2Proof/Machine/FusedIssue.lean ====
section
/-! DEFINITION. Issue of fused instructions, their array parts, the entry of queued passes, and the chunks that MM.SEND sends (R55, R124,
R130, R131, R147 to R150, R155, R287, R292, R294 to R296). -/

namespace Sys2Proof.Machine

/-! ### Checks at issue -/

/-- Bytes that a result takes at DST. -/
def Fused.resultLen (x : Fused) (members : Nat) : Nat :=
  if x.op = opRs then x.length / max members 1
  else if x.op = opAg then (if x.landWiden then x.length * members / 2112 * 8192 else x.length * members)
  else x.length

/-- Elements of a reduction's contribution: LENGTH counts bytes in RED_FMT (R148; log entry 43). -/
def Fused.elements (x : Fused) : Nat := x.length / redSize x.redFmt

/-- The frond-store ranges of an instruction lie in allocated pages (R43). -/
def Fused.pagesOk (x : Fused) (r : FrondRec) (members : Nat) : Bool :=
  if x.op = opSend then r.pageOk x.src (x.slots * x.chunk)
  else if x.op = opRecv then r.pageOk x.dst (x.slots * x.chunk)
  else (if x.op = opAg then r.pageOk x.src x.length else r.pageOk x.src (4 * x.elements)) && r.pageOk x.dst (x.resultLen members)

/-- The array part of an instruction may run: a combination of R52, and its rows in allocated pages (R43; those of a RECV.MM come from its
ring). -/
def passOk (x : Fused) (r : FrondRec) (a : AstreamArgs) (fmt : Nat) : Bool :=
  x.op == opVecAr || (astreamOk a fmt &&
    (if x.op = opRecv then (List.range a.m).all fun m => r.pageOk (accAt a m) (4 * a.nValid) else astreamPages r a))

/-- Members of the group that a record names; 1 for a transfer with a peer. -/
def State.fusedMembers (s : State) (p : Nat) (x : Fused) : Nat :=
  if x.op ≤ opRecv then 1 else (((s.getPart p).image.group x.group).map (·.members)).getD 1

/-- What makes the issue a frond fault (R71, R77, R131, R147, R149, R287): a record out of its ranges, or parameters, ranges or rows outside the pages. The
parameters that stand at AOP come with the command (log entry 64). -/
def State.fusedFaulty (s : State) (f p : Nat) (r : FrondRec) (b : List Byte) (a : AstreamArgs) : Bool :=
  let x := fusedParse b
  let arr := (s.getFrond f).arr
  (fusedBad b fun id => ((s.getPart p).image.group id).map (·.members)).isSome || !x.pagesOk r (s.fusedMembers p x)
    || (x.op != opVecAr && !r.pageOk x.aop 1) || !passOk x r a (nth 0 arr.fmt arr.active)

/-! ### The local part -/

/-- Count what a narrowing converted (R99, R174). -/
def State.countNarrowing (p : Nat) (x : Fused) (n : Narrowing) (s : State) : State :=
  if x.narrow then s.countConv p (BitVec.ofNat 8 x.cvt) n.conv n.ovf n.unf else s

/-- The contribution at SRC enters the program (R148, R155, R156). -/
def State.contribute (p f : Nat) (k : Nat × Nat) (x : Fused) (s : State) : State :=
  let n := contribution x (s.f19Rne p) ((List.range x.elements).map fun i => s.fsWord f (x.src + 4 * i))
  (s.countNarrowing p x n).beginProgram p k n.codes (n.codes.all (redFinite x.redFmt))

/-- Result rows of a pass, row by row. -/
def State.resultRows (s : State) (f : Nat) (a : AstreamArgs) : List Word :=
  (List.range a.m).flatMap fun m => (List.range a.nValid).map fun n => s.fsWord f (accAt a m + 4 * n)

/-- The rows of an MM.SEND are narrowed and wait to be sent (R148). -/
def State.rowsToSend (p f : Nat) (k : Nat × Nat) (x : Fused) (a : AstreamArgs) (s : State) : State :=
  let n := sentRows x (s.f19Rne p) (s.resultRows f a)
  (s.countNarrowing p x n).updColl p k fun c => { c with vals := n.codes, ready := true }

/-- What follows the last row of an array part (R148). -/
def State.afterPass (p f : Nat) (k : Nat × Nat) (a : AstreamArgs) (s : State) : State :=
  match s.coll p k with
  | none => s
  | some c =>
    if c.aborted ∨ c.done then s
    else if c.what.op = opSend then s.rowsToSend p f k c.what a
    else if c.what.op = opRecv then (s.raiseChunks c (cdiv (4 * a.m * a.nValid) (max c.what.chunk 1))).collDone p k
    else if c.what.op = opAg then s.collDone p k
    else s.contribute p f k c.what

/-- The bytes that a RECV.MM's rows are taken from (R148). -/
def State.fedBytes (s : State) (p : Nat) (k : Nat × Nat) : List Byte :=
  match s.coll p k with
  | some c => if c.what.op = opRecv then c.vals.map (BitVec.ofNat 8) else []
  | none => []

/-- The array part of a fused instruction enters and runs. -/
def State.enterFused (p f cycle : Nat) (k : Nat × Nat) (a : AstreamArgs) (s : State) : State :=
  (s.enterPass f cycle a (s.fedBytes p k)).afterPass p f k a

/-! ### Issue -/

/-- The instruction as it is issued (R292, R294, R295). -/
def newColl (q : Partition) (f record stitch : Nat) (x : Fused) : Coll :=
  let g := if x.op ≤ opRecv then 65536 + x.group else x.group
  { group := g, inst := Tab.get 0 q.collNext g, frond := f, record := record, what := x, step := q.run.step
    deadline := q.run.base + x.planDone + q.image.slipBudget + q.image.collTimeout, progress := stitch }

/-- The abort record of an instance that came before the instruction was issued. -/
def Partition.earlyAbort (q : Partition) (c : Coll) : Option Abort :=
  q.earlyAborts.find? fun (a : Abort) => a.group == c.group && a.inst == c.inst % 256 && a.step == c.step

/-- Enter the instruction among those of the step; a record that came before it aborts it now (R292, R296). -/
def State.enrol (p : Nat) (c : Coll) (s : State) : State :=
  let a := (s.getPart p).earlyAbort c
  let s1 := s.updPart p fun q => { q with colls := q.colls ++ [{ c with best := a }], collNext := Tab.upd 0 q.collNext c.group (· + 1) }
  if a.isSome then s1.abortInstance p c.key else s1

/-- Put the array part behind the passes of the queue. -/
def State.queueFused (f w cycle : Nat) (k : Nat × Nat) (a : AstreamArgs) (s : State) : State :=
  s.updFrond f fun y => { y with arr := { y.arr with queue := y.arr.queue ++ [{ args := a, warden := w, fused := some k, cycle := cycle }] } }

/-- The parts of an issued instruction begin (R55, R148): the sources of MM.SEND, MM.RS and MM.AR enter when the array is free; those that
consume chunks wait for them in the queue. -/
def State.beginFused (p f w cycle : Nat) (c : Coll) (a : AstreamArgs) (s : State) : State :=
  let x := (s.getFrond f).arr
  let k := c.key
  if c.what.op = opVecAr then s.contribute p f k c.what
  else if c.what.op = opAg then
    let own := s.fsRead f c.what.src c.what.length
    match s.collGroup p c with
    | some g => (s.queueFused f w cycle k a).beginProgram p k
        (putVals (List.replicate (c.total g) 0) (g.rank s.here * c.what.length) (own.map (·.toNat))) true
    | none => s
  else if c.what.op = opRecv then (s.queueFused f w cycle k a).feed p f
  else if cycle < x.lastEnter ∨ !x.queue.isEmpty then s.queueFused f w cycle k a
  else s.enterFused p f cycle k a

/-- The instruction has been enrolled: its parts begin, unless a record has aborted it already (R163). -/
def State.launchFused (p f w cycle : Nat) (c : Coll) (a : AstreamArgs) (s : State) : State :=
  if (s.getPart p).run.discard then s else s.beginFused p f w cycle c a

/-- A fused instruction whose ES is reached issues: its lateness is recorded, or a bad record is a frond fault (R77, R134, R147). A record whose OP is
another one is none of this command's. -/
def State.fusedGo (op f w record cycle p : Nat) (r : FrondRec) (a : AstreamArgs) (s : State) : State :=
  let b := s.fsRead f record 64
  let x := fusedParse b
  if x.op ≠ op ∧ 1 ≤ x.op ∧ x.op ≤ 6 then s
  else if s.fusedFaulty f p r b a then s.unitFault f (if op = opVecAr then unitVector else unitArray) w
  else
    let c := newColl (s.getPart p) f record s.stitch x
    ((s.recordIssue p x.es).enrol p c).launchFused p f w (max cycle (s.getFrond f).arr.stallTo) c a

/-- Issue of a fused instruction by the warden that drives its unit (R77, R130, R134, R147): it stalls until its ES is reached. -/
def State.fusedIssue (op f w record cycle : Nat) (a : AstreamArgs) (s : State) : State :=
  let unit := if op = opVecAr then unitVector else unitArray
  match s.driven f unit w with
  | none => s
  | some (p, r, drives) =>
    if !drives then s.wardenFault f w
    else if !r.pageOk record 64 then s.unitFault f unit w
    else if s.esReached p (fusedParse (s.fsRead f record 64)).es then s.fusedGo op f w record cycle p r a
    else s.setWait f w (some (.fused op record cycle a))

/-- A fused instruction that a warden stalls on issues once its ES is reached (R130). -/
def State.wakeFused (f w : Nat) (s : State) : State :=
  match s.codeRuns f (unitPinnule (wardenPinnule w)), s.waitOf f w with
  | some (p, r), some (.fused op record cycle a) =>
    if s.esReached p (fusedParse (s.fsRead f record 64)).es then (s.setWait f w none).fusedGo op f w record cycle p r a else s
  | _, _ => s

/-- MM_SEND (R148). -/
def execMmSend (frond warden record cycle : Nat) (args : AstreamArgs) (s : State) : Host.Outcome State Fault Refusal :=
  .next (s.fusedIssue opSend frond warden record cycle args)
/-- RECV_MM (R148). -/
def execRecvMm (frond warden record cycle : Nat) (args : AstreamArgs) (s : State) : Host.Outcome State Fault Refusal :=
  .next (s.fusedIssue opRecv frond warden record cycle args)
/-- MM_RS (R148, R155). -/
def execMmRs (frond warden record cycle : Nat) (args : AstreamArgs) (s : State) : Host.Outcome State Fault Refusal :=
  .next (s.fusedIssue opRs frond warden record cycle args)
/-- AG_MM (R148, R179). -/
def execAgMm (frond warden record cycle : Nat) (args : AstreamArgs) (s : State) : Host.Outcome State Fault Refusal :=
  .next (s.fusedIssue opAg frond warden record cycle args)
/-- MM_AR (R148). -/
def execMmAr (frond warden record cycle : Nat) (args : AstreamArgs) (s : State) : Host.Outcome State Fault Refusal :=
  .next (s.fusedIssue opAr frond warden record cycle args)
/-- VEC_AR (R148). -/
def execVecAr (frond warden record : Nat) (s : State) : Host.Outcome State Fault Refusal :=
  .next (s.fusedIssue opVecAr frond warden record 0 default)

/-! ### ASTREAM_ENTER (R55) -/

/-- The input of a queued pass is complete: all chunks of a RECV.MM taken, the tensor of an AG.MM gathered (R148). -/
def State.passFed (s : State) (p : Nat) (k : Nat × Nat) : Bool :=
  match s.coll p k with
  | some c => if c.what.op = opRecv then decide (c.chunkCount ≤ c.chunks) else if c.what.op = opAg then c.dataDone else true
  | none => true

/-- The head of the queue leaves it. -/
def State.popPass (f : Nat) (s : State) : State := s.updFrond f fun y => { y with arr := { y.arr with queue := y.arr.queue.drop 1 } }

/-- Cycles in which a queued pass waited while row 0 was free (R78, R148; log entry 57). -/
def Arr.passWaited (x : Arr) (y : Pass) (cycle : Nat) : Nat := cycle - max x.lastEnter y.cycle

/-- ASTREAM_ENTER (R55): in the cycle after the preceding pass's last row, the oldest queued pass enters; a SWAP or an ALOAD that the array warden stalls
on may then go. -/
def State.astreamEnter (f cycle : Nat) (s : State) : State :=
  let x := (s.getFrond f).arr
  match s.unitRuns f unitArray, x.queue with
  | some (p, r), y :: _ =>
    if cycle < x.lastEnter then s
    else match y.fused with
      | none =>
        (((s.popPass f).frondCount f 1 (x.passWaited y cycle)).enterPass f cycle y.args []).wakeArray f (r.warden unitArray) cycle |>.noteVote p
      | some k =>
        let s1 := s.feed p f
        if s1.passFed p k then
          (((s1.popPass f).frondCount f 1 (x.passWaited y cycle)).enterFused p f cycle k y.args).wakeArray f (r.warden unitArray) cycle |>.noteVote p
        else s1
  | _, _ => s

/-- ASTREAM_ENTER. -/
def execAstreamEnter (frond cycle : Nat) (s : State) : Host.Outcome State Fault Refusal := .next (s.astreamEnter frond cycle)

/-! ### FUSED_CHUNK_SEND (R148, R232) -/

/-- Send one chunk as consecutive PDATA frames on its port; only the last sets RAISE (R232). -/
def State.sendChunk (p : Nat) (c : Coll) (i : Nat) (bs : List Byte) (s : State) : State :=
  let port := c.what.group
  let n := 14784
  let m := cdiv bs.length n
  forAll (List.range m) (fun j s =>
    s.sendHop port
      { dst := neighbour s.size s.here (s.dirOf port), src := s.here, part := p, kind := 1, raise := j + 1 == m, vl := 0
        token := c.what.tokenOut + i % max c.what.slots 1
        arg := c.what.peer % 1024 + 2 ^ 10 * ((c.what.dst + c.slotOff i + n * j) / 64 % 65536), payload := (bs.drop (n * j)).take n }) s

/-- The chunk that an MM.SEND sends next goes through its slot of the ring at SRC (R147, R148). -/
def State.chunkGoes (p f : Nat) (c : Coll) (i : Nat) (s : State) : State :=
  let bs := ((c.vals.drop (i * c.what.chunk)).take (c.chunkLen i)).map (BitVec.ofNat 8)
  ((s.fsWrite f (c.what.src + c.slotOff i) bs).updColl p c.key fun c => { c with chunks := c.chunks + 1, progress := s.stitch }).sendChunk p c i bs

/-- FUSED_CHUNK_SEND (R148): the event itself says that the peer has released chunk i - SLOTS, or, for the number after the last chunk,
that the peer has landed the last one (log entry 44). -/
def State.fusedChunkSend (f record i : Nat) (s : State) : State :=
  match s.unitRuns f unitArray with
  | none => s
  | some (p, _) =>
    match (s.getPart p).colls.find? fun c => c.frond == f && c.record == record && c.what.op == opSend && !c.done with
    | none => s
    | some c =>
      if (s.getPart p).run.discard ∨ !c.ready ∨ i ≠ c.chunks ∨ !s.dieOpen f then s
      else if i < c.chunkCount then s.chunkGoes p f c i
      else s.collDone p c.key

/-- FUSED_CHUNK_SEND. -/
def execFusedChunkSend (frond record chunk : Nat) (s : State) : Host.Outcome State Fault Refusal := .next (s.fusedChunkSend frond record chunk)

end Sys2Proof.Machine
end

