-- ==== Sys2Proof/Machine/MemFill.lean ====
section
/-! DEFINITION. MEM_FILL and its pieces (R89, R200, R204, R213 to R218, R431), HBM lane sparing (R205, R206) and refresh (R339). -/

namespace Sys2Proof.Machine

/-! ### MEM_FILL -/

/-- First package address of a space of a partition: 1 HBM, 2 peat, 3 hub window (R189, R192). -/
def Partition.spaceBase (q : Partition) (p space : Nat) : Nat :=
  if space = 1 then q.hbmBase else if space = 2 then q.peatBase else hubWindow p
/-- Bytes of a space of a partition. -/
def Partition.spaceSize (q : Partition) (space : Nat) : Nat :=
  if space = 1 then q.hbmGib * gib else if space = 2 then q.peatGib * gib else windowSize

/-- The transfer that a parameter block describes (R213). -/
def fillParse (ch : Nat) (b : List Byte) : Fill :=
  { ch := ch, mode := fld b 0 1, dstSpace := fld b 1 1, srcSpace := fld b 2 1, poison := fld b 3 1, value := fld b 4 4, dst := fld b 8 8,
    src := fld b 0x10 8, length := fld b 0x18 8 }

/-- VALUE, HOST_IN and COPY write into the package. -/
def Fill.lands (f : Fill) : Bool := f.mode != 3
/-- COPY and HOST_OUT read from the package. -/
def Fill.reads (f : Fill) : Bool := f.mode == 1 || f.mode == 3

/-- A code of a space is one, where a space is asked for; 0 otherwise. -/
def spaceOk (asked : Bool) (sp : Nat) : Bool := if asked then decide (1 ≤ sp) && decide (sp ≤ 3) else sp == 0

/-- The fields of a MEM_FILL are in range (R213, R215, R216). -/
def Fill.fieldsOk (f : Fill) : Bool :=
  decide (f.mode ≤ 3) && spaceOk f.lands f.dstSpace && spaceOk f.reads f.srcSpace && (decide (f.poison ≤ 8) || f.poison == 15)
    && (f.mode == 0 || f.value == 0) && (f.mode != 0 || f.src == 0) && f.dst % 64 == 0 && f.src % 64 == 0 && f.length % 64 == 0
    && decide (64 ≤ f.length) && (!(decide (4 ≤ f.poison) && decide (f.poison ≤ 8)) || f.length % blockGroup f.poison == 0)

/-- A range lies in the partition's space. -/
def Partition.inSpace (q : Partition) (space off n : Nat) : Bool := decide (off + n ≤ q.spaceSize space)

/-- The ranges lie in the partition, and those of a COPY do not overlap (R213). -/
def Fill.rangesOk (q : Partition) (f : Fill) : Bool :=
  (!f.lands || q.inSpace f.dstSpace f.dst f.length) && (!f.reads || q.inSpace f.srcSpace f.src f.length)
    && !(f.mode == 1 && f.dstSpace == f.srcSpace && decide (f.src < f.dst + f.length) && decide (f.dst < f.src + f.length))

/-- MEM_FILL (R213, R214); on a parked package its acceptance starts the waking (R340). -/
def State.memFillOwn (ch : Nat) (h : Held) (b : List Byte) (s : State) : State :=
  let f := fillParse ch b
  if !f.fieldsOk || !f.rangesOk (s.getPart h.part) then s.answer ch .badParam []
  else (s.startWake.updPart h.part fun q => { q with fill := some f }).accept ch

/-- MEM_FILL. -/
def execMemFill (ch : Nat) (s : State) : Host.Outcome State Fault Refusal := .next (s.runCommand 0x0902 ch (State.memFillOwn ch))

/-! ### Pieces (R214, R215) -/

/-- Pieces of a transfer. -/
def Fill.pieces (f : Fill) : Nat := cdiv f.length 2048
/-- Bytes of piece i. -/
def Fill.pieceBytes (f : Fill) (i : Nat) : Nat := min 2048 (f.length - 2048 * i)

/-- The host port is in reset, or has been since the transfer began (R389). -/
def State.hostGone (s : State) (f : Fill) : Bool := f.hostLost || !s.aon.perstN

/-- Write bytes at an offset of the destination: package memory, or host memory for HOST_OUT. -/
def State.fillWrite (p : Nat) (f : Fill) (off : Nat) (bs : List Byte) (s : State) : State :=
  if f.lands then { s with far := s.far.writeN ((s.getPart p).spaceBase p f.dstSpace + f.dst + off) bs }
  else if s.hostGone f then s
  else s.emit (.hostWrite (f.dst + off) bs)

/-- The bytes that a piece carries. -/
def State.pieceData (s : State) (p : Nat) (f : Fill) (i : Nat) (host : List Byte) : List Byte :=
  let n := f.pieceBytes i
  if f.mode = 0 then (List.range n).map fun j => BitVec.ofNat 8 (f.value / 256 ^ (j % 4))
  else if f.mode = 2 then slice host 0 n
  else s.far.readN ((s.getPart p).spaceBase p f.srcSpace + f.src + 2048 * i) n

/-- A word repeated over n bytes. -/
def wordFill (word width n : Nat) : List Byte := (List.range n).map fun j => BitVec.ofNat 8 (word / 256 ^ (j % width))

/-- One block group of MX poison (R215). -/
def groupPoison (fmt : Nat) : List Byte := List.replicate 64 0xFF ++ List.replicate (blockGroup fmt - 64) 0

/-- The poison of piece i: an offset of the range and the bytes (R215, R216). -/
def Fill.poisonOf (f : Fill) (i : Nat) : Nat × List Byte :=
  let n := f.pieceBytes i
  if 4 ≤ f.poison ∧ f.poison ≤ 8 then
    let g := blockGroup f.poison
    let lo := 2048 * i / g
    let hi := (2048 * i + n - 1) / g
    (g * lo, (List.range (hi + 1 - lo)).flatMap fun _ => groupPoison f.poison)
  else
    (2048 * i, if f.poison = 2 then wordFill 0x7E00 2 n else if f.poison = 3 then wordFill 0x7FC0 2 n
      else if f.poison = 15 then wordFill 0xDEADF00D 4 n else wordFill 0x7FC00000 4 n)

/-- Bit of FAILED_UNITS of a unit (R217). -/
def unitBit (u : MemUnit) : Nat := match u with | .hbm st _ => 2 ^ st | .peat k => 2 ^ (16 + k) | .hub => 2 ^ 28 | .host => 2 ^ 29

/-- Unit kind and index of a memory unit (R408). -/
def unitIndex (u : MemUnit) : Nat × Nat := match u with | .hbm st q => (5, 64 * st + q) | .peat k => (8, k) | .hub => (9, 0) | .host => (0, 0)

/-- Mark a unit that failed a piece. -/
def State.markUnit (p : Nat) (u : MemUnit) (s : State) : State :=
  s.updPart p fun q => { q with fill := q.fill.map fun (f : Fill) => { f with units := f.units ||| unitBit u } }

/-- Write the poison of a failed piece, once; when that write fails too the bytes are indeterminate and the log records the piece (R215). -/
def State.writePoison (p : Nat) (f : Fill) (i : Nat) (failed : Option (MemUnit × Nat)) (s : State) : State :=
  let x := f.poisonOf i
  match failed with
  | none => s.fillWrite p f x.1 x.2
  | some (u, o) =>
    let n := x.2.length
    let s1 := s.fillWrite p f x.1 ((List.range n).map fun j => Config.freeByte (s.free + j))
    let a := (s.getPart p).spaceBase p f.dstSpace + f.dst + x.1 + o
    ((State.memUe u a { s1 with free := s1.free + n }).markUnit p u).log
      { kind := 7, code := .partialDone, part := p, unitKind := (unitIndex u).1, unit := (unitIndex u).2,
        detail := [⟨0, 8, 2048 * i⟩, ⟨8, 4, f.pieceBytes i⟩] }

/-- An offset of the range lies in the poison of a failed piece. -/
def Fill.poisoned (f : Fill) (off : Nat) : Bool :=
  f.failed.any fun k => decide ((f.poisonOf k).1 ≤ off) && decide (off < (f.poisonOf k).1 + (f.poisonOf k).2.length)

/-- The part of a good piece that stands at completion: with MX poison, what shares no block group with a failed piece (R215, R216); first byte and
length. -/
def Fill.goodPart (f : Fill) (i : Nat) : Nat × Nat :=
  if 4 ≤ f.poison ∧ f.poison ≤ 8 ∧ !f.failed.isEmpty then
    let os := (List.range (f.pieceBytes i)).filter fun j => !f.poisoned (2048 * i + j)
    (os.headD 0, os.length)
  else (0, f.pieceBytes i)

/-- A good piece lands; poison that another piece has left in a block group which the two share stays (R215, R431). -/
def State.landPiece (p : Nat) (f : Fill) (i : Nat) (data : List Byte) (s : State) : State :=
  let g := f.goodPart i
  s.fillWrite p f (2048 * i + g.1) (((s.pieceData p f i data).drop g.1).take g.2)

/-- What becomes of one piece. -/
def State.pieceEffect (p : Nat) (f : Fill) (i : Nat) (r : PieceEnd) (s : State) : State :=
  match r with
  | .ok data ce => (s.landPiece p f i data).memEvents (corrected ce)
  | .readFailed u ce poison => ((s.memEvents (⟨u, some 0⟩ :: corrected ce)).markUnit p u).writePoison p f i poison
  | .writeFailed u o ce poison =>
    let a := (s.getPart p).spaceBase p f.dstSpace + f.dst + 2048 * i + o
    ((s.memEvents (⟨u, some a⟩ :: corrected ce)).markUnit p u).writePoison p f i poison

/-- A piece that touches host memory fails once the host port has been reset (R389). -/
def State.pieceEnd (s : State) (f : Fill) (r : PieceEnd) : PieceEnd :=
  match r with
  | .ok _ ce =>
    if !s.hostGone f then r
    else if f.mode = 2 then .readFailed .host ce none
    else if f.mode = 3 then .writeFailed .host 0 ce (some (.host, 0))
    else r
  | _ => r

/-- The memory of piece i of a transfer goes on now (R20, R205). -/
def State.pieceOpen (s : State) (p : Nat) (f : Fill) (i : Nat) : Bool :=
  let q := s.getPart p
  (!f.lands || s.rangeOpen none (q.spaceBase p f.dstSpace + f.dst + 2048 * i) (f.pieceBytes i))
    && (!f.reads || s.rangeOpen none (q.spaceBase p f.srcSpace + f.src + 2048 * i) (f.pieceBytes i))

/-- Whether a piece failed. -/
def pieceFailed (r : PieceEnd) : Bool := match r with | .ok _ _ => false | _ => true

/-- Reply words of the completion (R217). -/
def Fill.words (f : Fill) : List Nat :=
  (if f.failed.isEmpty then [0, 0, 0, 0]
    else [f.units, f.failed.length] ++ words64 (2048 * f.failed.foldl min (f.failed.headD 0))) ++ words64 f.length

/-- The transfer completes when every piece has finished or failed (R214, R218). -/
def State.fillDone (p : Nat) (s : State) : State :=
  match (s.getPart p).fill with
  | none => s
  | some f =>
    if f.ended.length < f.pieces then s
    else
      let s1 := s.updPart p fun q => { q with fill := none }
      if f.failed.isEmpty then s1.answer f.ch .ok f.words
      else ((s1.setMem p).raise .memPartial).answer f.ch .partialDone f.words

/-- MEM_FILL_PIECE_DONE (R214): each piece ends once, in any order (R431), while the memory domains are ON and nothing delays its accesses (R206). -/
def State.memFillPieceDone (p i : Nat) (r : PieceEnd) (s : State) : State :=
  match (s.getPart p).fill with
  | none => s
  | some f =>
    if s.aon.park ≠ .no ∨ f.pieces ≤ i ∨ f.ended.contains i ∨ !s.pieceOpen p f i then s
    else
      let r := s.pieceEnd f r
      let s1 := s.pieceEffect p f i r
      let s2 := s1.updPart p fun q => { q with fill := q.fill.map fun (g : Fill) =>
        { g with ended := g.ended ++ [i], failed := if pieceFailed r then g.failed ++ [i] else g.failed } }
      s2.fillDone p

/-- MEM_FILL_PIECE_DONE. -/
def execMemFillPieceDone (part piece : Nat) (result : PieceEnd) (s : State) : Host.Outcome State Fault Refusal :=
  .next (s.memFillPieceDone part piece result)

/-! ### Lane sparing (R205, R206) -/

/-- HBM_LANE_FAULT (R205): one event of the channel's class, whatever its kind. -/
def execHbmLaneFault (channel lane : Nat) (_kind : LaneFault) (s : State) : Host.Outcome State Fault Refusal :=
  .next (if channel < 384 then s.faultEvent 5 channel lane 0 else s)

/-- HBM_LANE_RETRAIN (R205): at a boundary after the fault became lasting, the channel enters self-refresh and a repair lane replaces the faulty
lane. -/
def State.hbmLaneRetrain (c : Nat) (s : State) : State :=
  if s.mem.due.any fun d => d.1 == c && decide (d.2.2 < s.stitch) then
    { s with mem := { s.mem with
      due := s.mem.due.filter fun d => d.1 != c, retraining := s.mem.retraining ++ [c], repairs := Tab.upd 0 s.mem.repairs c (· + 1)
      spares := Tab.upd 0 s.mem.spares (c / 32) (satAdd 8 · 1) } }
  else s

/-- HBM_LANE_RETRAIN. -/
def execHbmLaneRetrain (channel : Nat) (s : State) : Host.Outcome State Fault Refusal := .next (s.hbmLaneRetrain channel)

/-- HBM_LANE_RETRAIN_DONE (R205): the contents are kept and the class's events of the channel are cleared. -/
def State.hbmLaneRetrainDone (c : Nat) (s : State) : State :=
  if s.mem.retraining.contains c then
    State.updUnit 5 c (fun x => { x with count := 0 }) { s with mem := { s.mem with retraining := s.mem.retraining.erase c } }
  else s

/-- HBM_LANE_RETRAIN_DONE. -/
def execHbmLaneRetrainDone (channel : Nat) (s : State) : Host.Outcome State Fault Refusal := .next (s.hbmLaneRetrainDone channel)

/-- HBM_REFRESH (R339): per-bank refresh of a pseudo-channel; it changes no contents. A stack whose interface is not ON holds itself in self-refresh (R340). -/
def execHbmRefresh (stack pc : Nat) (s : State) : Host.Outcome State Fault Refusal :=
  .next (if stack < 12 ∧ pc < 64 ∧ s.getDom (144 + stack) = .on then
    { s with mem := { s.mem with refreshes := Tab.upd 0 s.mem.refreshes (64 * stack + pc) (· + 1) } } else s)

end Sys2Proof.Machine
end

