-- ==== Sys2Proof/Machine/TcbOps.lean ====
section
/-! DEFINITION. The training control block as 256 bytes: its layout, its ranges and the copy in HBM (R159 to R161). -/

namespace Sys2Proof.Machine

/-- The 256 bytes of a training control block (05 *Training control block*). -/
def Tcb.bytes (t : Tcb) : List Byte :=
  record 256 [⟨0x00, 2, t.cfgVer⟩, ⟨0x02, 1, twos 1 t.scaleInit⟩, ⟨0x03, 1, twos 1 t.scaleMin⟩, ⟨0x04, 1, twos 1 t.scaleMax⟩,
    ⟨0x05, 1, t.skipHalt⟩, ⟨0x06, 1, t.earlyShareExp⟩, ⟨0x08, 4, t.growth⟩, ⟨0x0C, 4, t.earlyRun⟩, ⟨0x10, 4, t.beta1.toNat⟩,
    ⟨0x14, 4, t.beta2.toNat⟩, ⟨0x18, 4, t.eps.toNat⟩, ⟨0x1C, 4, t.weightDecay.toNat⟩, ⟨0x20, 4, t.emaBeta.toNat⟩, ⟨0x24, 4, t.lrPeak.toNat⟩,
    ⟨0x28, 4, t.lrFloor.toNat⟩, ⟨0x2C, 4, t.warmup⟩, ⟨0x30, 4, t.decayEnd⟩, ⟨0x34, 4, t.gradMul.toNat⟩, ⟨0x38, 8, t.seed⟩,
    ⟨0x40, 8, t.stepBase⟩, ⟨0x48, 8, t.ringOffset⟩, ⟨0x50, 8, t.slotBytes⟩, ⟨0x80, 1, twos 1 t.scaleExp⟩, ⟨0x81, 1, t.skipRun⟩,
    ⟨0x84, 4, t.cleanRun⟩, ⟨0x88, 8, t.updates⟩, ⟨0x90, 8, t.committedStep⟩, ⟨0x98, 4, t.b1Pow.toNat⟩, ⟨0x9C, 4, t.b2Pow.toNat⟩,
    ⟨0xA0, 8, t.commits⟩, ⟨0xA8, 8, t.skipsNonfinite⟩, ⟨0xB0, 8, t.skipsVoid⟩, ⟨0xB8, 1, t.lastOutcome⟩]

/-- The 32-bit word at an offset of a record. -/
def fldW (b : List Byte) (off : Nat) : Word := BitVec.ofNat 32 (fld b off 4)

/-- Configuration fields as bytes give them (CFG_VER 0x0001), or their defaults (CFG_VER 0x0000) (R160). -/
def Tcb.config (b : List Byte) : Tcb :=
  if fld b 0 2 = 0 then {}
  else
    { cfgVer := fld b 0 2, scaleInit := signed 1 (fld b 2 1), scaleMin := signed 1 (fld b 3 1), scaleMax := signed 1 (fld b 4 1),
      skipHalt := fld b 5 1, earlyShareExp := fld b 6 1, growth := fld b 8 4, earlyRun := fld b 0xC 4, beta1 := fldW b 0x10,
      beta2 := fldW b 0x14, eps := fldW b 0x18, weightDecay := fldW b 0x1C, emaBeta := fldW b 0x20, lrPeak := fldW b 0x24,
      lrFloor := fldW b 0x28, warmup := fld b 0x2C 4, decayEnd := fld b 0x30 4, gradMul := fldW b 0x34, seed := fld b 0x38 8,
      stepBase := fld b 0x40 8, ringOffset := fld b 0x48 8, slotBytes := fld b 0x50 8 }

/-- Configuration and state fields as bytes give them. -/
def Tcb.parse (b : List Byte) : Tcb :=
  { Tcb.config b with
    scaleExp := signed 1 (fld b 0x80 1), skipRun := fld b 0x81 1, cleanRun := fld b 0x84 4, updates := fld b 0x88 8,
    committedStep := fld b 0x90 8, b1Pow := fldW b 0x98, b2Pow := fldW b 0x9C, commits := fld b 0xA0 8, skipsNonfinite := fld b 0xA8 8,
    skipsVoid := fld b 0xB0 8, lastOutcome := fld b 0xB8 1 }

/-- Magnitude bits of an FP32 encoding. -/
def fpMag (w : Word) : Nat := w.toNat % 2 ^ 31
/-- The FP32 encoding of 1.0. -/
def fpOne : Nat := 0x3F800000
/-- A finite FP32 value at least zero (negative zero is zero). -/
def fpNonneg (w : Word) : Bool := decide (fpMag w < 0x7F800000) && (!w.getLsbD 31 || fpMag w == 0)
/-- A finite FP32 value above zero. -/
def fpPos (w : Word) : Bool := fpNonneg w && decide (0 < fpMag w)

/-- Every configuration field lies in its range (05 *Training control block, configuration fields*). -/
def Tcb.rangesOk (t : Tcb) : Bool :=
  let unit (w : Word) : Bool := fpNonneg w && decide (fpMag w < fpOne)
  decide (-32 ≤ t.scaleMin) && decide (t.scaleMin ≤ 63) && decide (t.scaleMin ≤ t.scaleMax) && decide (t.scaleMax ≤ 63)
    && decide (t.scaleMin ≤ t.scaleInit) && decide (t.scaleInit ≤ t.scaleMax) && decide (1 ≤ t.earlyShareExp) && decide (t.earlyShareExp ≤ 63)
    && decide (1 ≤ t.growth) && decide (t.growth ≤ 2 ^ 31) && decide (t.earlyRun ≤ t.growth) && unit t.beta1 && unit t.beta2 && fpPos t.eps
    && fpNonneg t.weightDecay && unit t.emaBeta && fpNonneg t.lrPeak && fpNonneg t.lrFloor && decide (fpMag t.lrFloor ≤ fpMag t.lrPeak)
    && decide (t.warmup ≤ 2 ^ 31) && (t.decayEnd == 0 || decide (t.warmup < t.decayEnd)) && fpPos t.gradMul && t.ringOffset % 4096 == 0
    && t.slotBytes % 4096 == 0

/-- A TCB read at PATTERN_START passes the checks of R160, for a pattern that declares some PEAT_BYTES. -/
def tcbOk (b : List Byte) (peatBytes : Nat) : Bool :=
  let t := Tcb.parse b
  let powOk (w : Word) : Bool := fpNonneg w && decide (fpMag w ≤ fpOne)
  decide (fld b 0 2 ≤ 1) && (fld b 0 2 == 0 || t.rangesOk) && zeros b 7 8 && zeros b 0x58 0x80 && zeros b 0x82 0x84 && zeros b 0xB9 0x100
    && (t.updates == 0 || (decide (t.scaleMin ≤ t.scaleExp) && decide (t.scaleExp ≤ t.scaleMax) && powOk t.b1Pow && powOk t.b2Pow))
    && (t.slotBytes == 0 || decide (t.ringOffset + 3 * t.slotBytes ≤ peatBytes))

/-- The live TCB that PATTERN_START makes of the bytes it read (R161). -/
def Tcb.begin_ (b : List Byte) : Tcb :=
  let t := Tcb.parse b
  let u := { t with commits := 0, skipsNonfinite := 0, skipsVoid := 0, lastOutcome := 0 }
  if t.updates = 0 then
    { u with scaleExp := t.scaleInit, b1Pow := BitVec.ofNat 32 fpOne, b2Pow := BitVec.ofNat 32 fpOne, cleanRun := 0, skipRun := 0,
             committedStep := 2 ^ 64 - 1 }
  else u

/-- Write the live TCB to HBM offset 0x0 of a partition whose pattern declares HBM_BYTES (R159). -/
def State.copyTcb (p : Nat) (s : State) : State :=
  if (s.getPart p).image.amount 0x03 0 = 0 then s
  else { s with far := s.far.writeN (s.getPart p).hbmBase (s.getPart p).tcb.bytes }

end Sys2Proof.Machine
end

