-- ==== Sys2Proof/Machine/Patterns.lean ====
section
/-! DEFINITION. Starting, halting and stepping a pattern: PATTERN_START, PATTERN_HALT, the start of the run and of each step (R21, R126,
R127, R135, R157 to R161, R358, R378). -/

namespace Sys2Proof.Machine

/-- Live TCB bytes that PATTERN_START reads: HBM offset 0x0, or nothing when HBM_BYTES is zero (R159). -/
def State.tcbBytes (s : State) (p : Nat) : List Byte :=
  if (s.getPart p).image.amount 3 0 = 0 then [] else s.far.readN (s.getPart p).hbmBase 256

/-- The frond part of PATTERN_START (R117, R126, R131): tokens, counters and streams are reset and the gangs take their entry slots. -/
def Frond.start (r : FrondRec) (x : Frond) : Frond :=
  { x with token := [], streams := [], counts := [], bob := [], stopped := [], pc := [], wait := []
           arr := { x.arr with stalled := none, queue := [], lastEnter := 0, loadEnd := 0, bankFree := [0, 0], bankDrain := [0, 0], inflight := [], stallTo := 0 }
           gang := (List.range 16).foldl (fun t g =>
             let e := (nth 0 r.entry g).toNat
             Tab.set 0 t g (if e = 255 then 0 else e + 1)) [] }

/-- The pattern is ARMED: the run, the statistics, the serving counters and the fronds are reset (R126, R161, R175, R292, R322, R326, R328). -/
def State.arm (p start : Nat) (by_ : Winner) (s : State) : State :=
  let t := Tcb.begin_ (s.tcbBytes p)
  let s1 := s.updPart p fun q =>
    { q with pat := .armed, startedBy := by_, tcb := t, run := { start := start, base := start }, arith := {}, arithNow := {}, arithStep := (0, {})
             colls := [], collNext := [], earlyAborts := [], tokens := [], heldPieces := []
             serve := { q.serve with seq := 0, completed := 0, inbox := [], received := 0, takes := [] }
             twin := { q.twin with own := [], due := none, sentAt := none, waiting := false, rebind := none, comparedAt := none } }
  let fs := s1.fronds p
  forAll ((List.range (s1.getPart p).image.fronds).zip (s1.getPart p).image.records) (fun x s => s.updFrond (nth 0 fs x.1) (Frond.start x.2)) s1

/-- A copy into the partition has begun and is not complete (R358). -/
def Twin.landing (t : Twin) : Bool := t.copy == .receiving || t.copy == .failed

/-- PATTERN_START (R21, R126, R160, R358). -/
def State.patternStartOwn (ch : Nat) (h : Held) (b : List Byte) (s : State) : State :=
  let p := h.part
  let q := s.getPart p
  if s.linkDead then s.answer ch .internal []
  else if q.pat ≠ .loaded then s.answer ch .notPermitted []
  else if q.twin.landing then s.answer ch .busy []
  else if fld b 0 8 < s.stitch + 1024 then s.answer ch .badParam []
  else if !tcbOk (s.tcbBytes p) (q.image.amount 4 0) then s.answer ch .badParam []
  else (s.arm p (fld b 0 8) { ch := ch, tag := h.tag, opcode := 0x0203 }).answer ch .ok []

/-- PATTERN_START. -/
def execPatternStart (ch : Nat) (s : State) : Host.Outcome State Fault Refusal := .next (s.runCommand 0x0203 ch (State.patternStartOwn ch))

/-- PATTERN_HALT (R127, R378): a halt with status OK falls due; OK whatever the pattern's state. -/
def execPatternHalt (ch : Nat) (s : State) : Host.Outcome State Fault Refusal :=
  .next (s.runCommand 0x0204 ch fun h _ s => (s.haltDue h.part .ok).answer ch .ok [])

/-! ### Steps -/

/-- The run as a step begins: step number, base and marks (R129, R134, R138, R157, R164). -/
def Run.beginStep (n base : Nat) (r : Run) : Run :=
  { start := r.start, step := n, base := base, maxSlip := r.maxSlip, realigns := if r.realigned then satAdd 32 r.realigns 1 else r.realigns,
    lateIssues := r.lateIssues, last := r.last, sig := r.sig, halt := r.halt, haltAt := r.haltAt, abortAt := r.abortAt }

/-- A donor's partition is bound again from the step after its copy's (R356). -/
def Twin.beginStep (n : Nat) (t : Twin) : Twin := if t.rebind = some n then { t with state := .bound, rebind := none } else t

/-- A step begins: the run's marks, the step's counts, and the copy of the live TCB in HBM before the first instruction (R157, R159); a partition that lost
its twin port with a comparison just complete is SOLO from here (R305). -/
def State.beginStep (p n base : Nat) (s : State) : State :=
  let s1 := (s.updPart p fun q =>
    { q with run := q.run.beginStep n base, arithNow := {}, colls := [], tokens := [], twin := q.twin.beginStep n,
             earlyAborts := q.earlyAborts.filter fun (a : Abort) => decide (n ≤ a.step) }).copyTcb p
  if (s.getPart p).twin.soloNext then s1.becomeSolo p else s1

/-- PATTERN_RUN_START (R126): at START_STITCH the pattern is RUNNING and step 0 begins. -/
def State.patternRunStart (p : Nat) (s : State) : State :=
  let q := s.getPart p
  if q.pat = .armed ∧ q.run.start ≤ s.stitch then (s.updPart p fun q => { q with pat := .running }).beginStep p 0 q.run.start else s

/-- PATTERN_RUN_START. -/
def execPatternRunStart (part : Nat) (s : State) : Host.Outcome State Fault Refusal := .next (s.patternRunStart part)

/-- STEP_BEGIN (R135): at B(N+1), once step N is decided. -/
def State.stepBegin (p : Nat) (s : State) : State :=
  let q := s.getPart p
  match q.run.next with
  | some b => if q.pat = .running ∧ q.run.decided ∧ b ≤ s.stitch then s.beginStep p (q.run.step + 1) b else s
  | none => s

/-- STEP_BEGIN. -/
def execStepBegin (part : Nat) (s : State) : Host.Outcome State Fault Refusal := .next (s.stepBegin part)

end Sys2Proof.Machine
end

