-- ==== Sys2Proof/Machine/Pinnule.lean ====
section
/-! DEFINITION. Pinnules: integer, scalar and quad instructions, local and frond-store accesses, conversions, FINCHK, the Bobbin generator
and RAISE (R43, R61, R64 to R68, R77, R80, R81, R92 to R96, R105, R132, R149, R157, R181 to R183). -/

namespace Sys2Proof.Machine

/-! ### Registers -/

/-- Integer register of a pinnule. -/
def Frond.iget (x : Frond) (p r : Nat) : Word := Tab.get 0 x.ireg (32 * p + r % 32)
/-- Write an integer register. -/
def Frond.iput (p r : Nat) (w : Word) (x : Frond) : Frond := { x with ireg := Tab.set 0 x.ireg (32 * p + r % 32) w }
/-- Scalar FP register of a pinnule. -/
def Frond.fget (x : Frond) (p r : Nat) : Word := Tab.get 0 x.freg (32 * p + r % 32)
/-- Write a scalar FP register. -/
def Frond.fput (p r : Nat) (w : Word) (x : Frond) : Frond := { x with freg := Tab.set 0 x.freg (32 * p + r % 32) w }
/-- Word i of a quad register of a pinnule. -/
def Frond.qget (x : Frond) (p q i : Nat) : Word := Tab.get 0 x.qreg (32 * p + 4 * (q % 8) + i)
/-- Write the four words of a quad register. -/
def Frond.qput (p q : Nat) (ws : Nat → Word) (x : Frond) : Frond :=
  { x with qreg := [0, 1, 2, 3].foldl (fun t i => Tab.set 0 t (32 * p + 4 * (q % 8) + i) (ws i)) x.qreg }

/-- Source code of a pinnule in a fault entry: 3 worker, 4 warden (R430). -/
def pinSource (p : Nat) : Nat := if p < 512 then 3 else 4

/-- A pinnule's frond fault (R77). -/
def State.pinFault (f p slot offset : Nat) (s : State) : State := s.frondFault f (unitPinnule p) (pinSource p) slot p offset

/-- The partition and frond record under which a pinnule goes on: a worker runs, and a warden issues in program order unless it discards the rest of
the step (R130, R163). -/
def State.pinGoes (s : State) (f p : Nat) : Option (Nat × FrondRec) :=
  if p < 512 then s.unitRuns f (unitPinnule p) else s.issuer f (gangOf p)

/-- The partition and frond record of a pinnule whose gang runs a program slot (R67). -/
def State.pinRuns (s : State) (f p slot : Nat) : Option (Nat × FrondRec) :=
  if p < 528 ∧ Tab.get 0 (s.getFrond f).gang (gangOf p) = slot + 1 then s.pinGoes f p else none

/-! ### Instructions (R66) -/

/-- An integer as FP32, rounded to nearest-even (R177). -/
def fpOfInt (v : Int) : Word := fpWrite false false (.num (decide (v < 0)) v.natAbs 0)

/-- A register-only instruction: the frond after it, none for one that is not register-only. -/
def pinRegs (rne : Bool) (p : Nat) (x : Frond) (op : PinOp) : Option Frond :=
  match op with
  | .int code d a b => some (x.iput p d (Config.intResult code (x.iget p a) (x.iget p b)))
  | .fpBin o f19 d a b => some (x.fput p d (Sys2Proof.Machine.fpBin o f19 rne (x.fget p a) (x.fget p b)))
  | .fpFma f19 d a b c => some (x.fput p d (Sys2Proof.Machine.fpFma f19 rne (x.fget p a) (x.fget p b) (x.fget p c)))
  | .fpSqrt f19 d a => some (x.fput p d (fpWrite f19 rne (fpRead f19 (x.fget p a)).sqrt))
  | .fpCmp c fa fb d a b => some (x.iput p d (Config.cmpWord (fpCompare c (operand fa (x.fget p a)) (operand fb (x.fget p b)))))
  | .fpWiden fmt d a => if fmt = 0 ∨ fmt = 2 ∨ fmt = 3 then some (x.fput p d (widenWord fmt (x.fget p a))) else none
  | .fp16Add d a b =>
    some (x.fput p d (BitVec.ofNat 32 (Sys2Proof.Machine.fp16Add ((x.fget p a).toNat % 2 ^ 16) ((x.fget p b).toNat % 2 ^ 16))))
  | .quadFma d a b c => some (x.qput p d fun i => Sys2Proof.Machine.fpFma true rne (x.qget p a i) (x.qget p b i) (x.qget p c i))
  | .quadBin o d a b => if !laneHas o then none else some (x.qput p d fun i => Sys2Proof.Machine.fpBin o true rne (x.qget p a i) (x.qget p b i))
  | .moveFpInt d a => some (x.iput p d (x.fget p a))
  | .moveIntFp d a => some (x.fput p d (x.iget p a))
  | .intFp sg d a => some (x.fput p d (fpOfInt (if sg then (x.iget p a).toInt else (x.iget p a).toNat)))
  | .dropMask d q dropT =>
    some (x.iput p d (wordOf fun i => decide (i < 4) && decide ((x.qget p q i).toNat < dropT)))
  | _ => none

/-- The effect of a pinnule instruction; none where it is a frond fault: an undefined one, an access outside the local store or the pages,
an issue to a unit that the pinnule does not drive, a slot that the section does not declare (R77). -/
def State.pinEffect (f pa p : Nat) (r : FrondRec) (op : PinOp) (s : State) : Option State :=
  match op with
  | .undefined => none
  | .loadLocal d a =>
    if a + 4 ≤ 2048 then some (s.updFrond f (Frond.iput p d (BitVec.ofNat 32 (leNat (s.localStore.readN (localKey f p a) 4))))) else none
  | .storeLocal d a =>
    if a + 4 ≤ 2048 then
      some { s with localStore := s.localStore.writeN (localKey f p a) (leBytes 4 ((s.getFrond f).iget p d).toNat) }
    else none
  | .loadFrond d a => if r.pageOk a 4 then some ((s.updFrond f (Frond.iput p d (s.fsWord f a))).contend f 7) else none
  | .storeFrond d a => if r.pageOk a 4 then some ((s.fsPut f a ((s.getFrond f).iget p d)).contend f 7) else none
  | .issueShared unit => if 512 ≤ p ∧ unit < 3 ∧ r.warden unit = p - 512 then some s else none
  | .startSlot slot =>
    if 512 ≤ p ∧ slot < r.slots then some (s.updFrond f fun x => { x with gang := Tab.set 0 x.gang (p - 512) (slot + 1) }) else none
  | o => (pinRegs (s.f19Rne pa) p (s.getFrond f) o).map fun x => s.updFrond f fun _ => x

/-- PINNULE_INSTRUCTION (R66). -/
def State.pinnuleInstruction (f p slot offset : Nat) (op : PinOp) (s : State) : State :=
  match s.pinRuns f p slot with
  | none => s
  | some (pa, r) => ((s.setPc f p offset).pinEffect f pa p r op).getD ((s.setPc f p offset).pinFault f p slot offset)

/-- PINNULE_INSTRUCTION. -/
def execPinnuleInstruction (frond pinnule slot offset : Nat) (op : PinOp) (s : State) : Host.Outcome State Fault Refusal :=
  .next (s.pinnuleInstruction frond pinnule slot offset op)

/-! ### Conversions (R80, R81; places: log entry 35) -/

/-- Narrow one FP register, or 32 FP32 words of the local store into one block of a block group of the frond store (R89). -/
def State.pinNarrow (f pa p : Nat) (cvt : Byte) (src dst block : Nat) (s : State) : State :=
  let fmt := cvtDst cvt
  if isMx fmt then
    let ws : List Word := (List.range 32).map fun i => BitVec.ofNat 32 (leNat (s.localStore.readN (localKey f p (src + 4 * i)) 4))
    (s.narrowBlock f pa cvt dst (block % 64) ws).contend f 7
  else
    let n := narrowIeee fmt (s.f19Rne pa) ((s.getFrond f).fget p src)
    (s.updFrond f (Frond.fput p dst (BitVec.ofNat 32 n.code))).countConv pa cvt 1 (b2n n.ovf) (b2n n.unf)

/-- The places of a conversion exist: MX words in the local store, and their block in allocated pages. -/
def pinConvOk (r : FrondRec) (cvt : Byte) (src dst block : Nat) : Bool :=
  cvtOk cvt && (!(isMx (cvtDst cvt)) || (decide (src + 128 ≤ 2048) && r.pageOk (groupScaleAt dst (block % 64)) 1
    && r.pageOk (groupElemsAt (cvtDst cvt) dst (block % 64)) (4 * mxWidth (cvtDst cvt))))

/-- PINNULE_CONVERSION (R80, R174): a CVT that R81 forbids is an undefined instruction. -/
def State.pinnuleConversion (f p slot offset : Nat) (cvt : Byte) (src dst block : Nat) (s : State) : State :=
  match s.pinRuns f p slot with
  | none => s
  | some (pa, r) =>
    let s1 := s.setPc f p offset
    if pinConvOk r cvt src dst block then s1.pinNarrow f pa p cvt src dst block else s1.pinFault f p slot offset

/-- PINNULE_CONVERSION. -/
def execPinnuleConversion (frond pinnule slot offset : Nat) (cvt : Byte) (src : Nat) (dst : ConvDst) (s : State) : Host.Outcome State Fault Refusal :=
  .next (s.pinnuleConversion frond pinnule slot offset cvt src dst.place dst.block)

/-! ### FINCHK, BOB and RAISE -/

/-- A pinnule of a gang that runs some slot. -/
def State.pinBusy (s : State) (f p : Nat) : Option (Nat × FrondRec) :=
  if p < 528 ∧ Tab.get 0 (s.getFrond f).gang (gangOf p) ≠ 0 then s.pinGoes f p else none

/-- The words FINCHK tests: an FP32 register, or four F19 values. -/
def finWords (x : Frond) (p : Nat) : FinArg → List Word
  | .fp r => [x.fget p r]
  | .quad q => [0, 1, 2, 3].map fun i => operand true (x.qget p q i)

/-- FINCHK (R157, R175). -/
def State.finchk (f p : Nat) (a : FinArg) (s : State) : State :=
  match s.pinBusy f p with
  | none => s
  | some (pa, _) =>
    if (finWords (s.getFrond f) p a).all isFinite then s
    else (s.updArith pa fun x => { x with finchk := satAdd 64 x.finchk 1 }).updRun pa fun r => { r with finite := false }

/-- FINCHK. -/
def execFinchk (frond pinnule : Nat) (arg : FinArg) (s : State) : Host.Outcome State Fault Refusal := .next (s.finchk frond pinnule arg)

/-- One round of the Bobbin generator: key words, then the four counter words (R181). -/
def bobRound (r : Nat) (v : Word × Word × Word × Word × Word × Word) : Word × Word × Word × Word × Word × Word :=
  match v with
  | (k0, k1, x0, x1, x2, x3) =>
    let a0 := x0 + k0 + BitVec.ofNat 32 r
    let a1 := x1 ^^^ k1
    let b0 := a0 + a1
    let a3 := (x3 ^^^ b0).rotateLeft 13
    let a2 := x2 + a3
    let b1 := (a1 ^^^ a2).rotateLeft 9
    let c0 := b0 + b1
    let b3 := (a3 ^^^ c0).rotateLeft 5
    let b2 := a2 + b3
    let c1 := (b1 ^^^ b2).rotateLeft 11
    (k0 + 0xA57D8C13#32, k1 + 0x4F1BB3D7#32, c0, c1, b2, b3)

/-- The Bobbin generator (R181): the four output words. -/
def bobbin (k0 k1 x0 x1 x2 x3 : Word) : List Word :=
  match (List.range 10).foldl (fun v r => bobRound r v) (k0, k1, x0, x1, x2, x3) with
  | (_, _, y0, y1, y2, y3) => [y0 + x0, y1 + x1, y2 + x2, y3 + x3]

/-- The cycle in which a BOB of a pinnule issues: one that comes earlier waits until 4 cycles after the last (R182). -/
def Frond.bobAt (x : Frond) (p cycle : Nat) : Nat := if Tab.get 0 x.bob p = 0 then cycle else max cycle (Tab.get 0 x.bob p + 3)

/-- BOB (R182): key and counter from integer registers, at most one in every 4 cycles. -/
def State.bob (f p cycle k0 k1 c0 c1 c2 c3 q : Nat) (s : State) : State :=
  match s.pinBusy f p with
  | none => s
  | some _ =>
    s.updFrond f fun x =>
      let ws := bobbin (x.iget p k0) (x.iget p k1) (x.iget p c0) (x.iget p c1) (x.iget p c2) (x.iget p c3)
      { x.qput p q (fun i => nth 0 ws i) with bob := Tab.set 0 x.bob p (x.bobAt p cycle + 1) }

/-- BOB. -/
def execBob (frond pinnule cycle key0 key1 c0 c1 c2 c3 q : Nat) (s : State) : Host.Outcome State Fault Refusal :=
  .next (s.bob frond pinnule cycle key0 key1 c0 c1 c2 c3 q)

/-- RAISE (R131, R132): a token beyond 4,095 is an undefined instruction. -/
def State.raisePin (f p t : Nat) (s : State) : State :=
  match s.pinBusy f p with
  | none => s
  | some _ => if t < 4096 then s.raiseToken f t else s.pinFault f p (s.slotOf f (gangOf p)) (s.pcOf f p)

/-- RAISE. -/
def execRaise (frond pinnule token : Nat) (s : State) : Host.Outcome State Fault Refusal := .next (s.raisePin frond pinnule token)

end Sys2Proof.Machine
end

