-- ==== Sys2Proof/Machine/Power.lean ====
section
/-! DEFINITION. Power following: POWER_TARGET, RATE_SET, POWER_REPORT, DOMAIN_QUERY, the steps of L_run and their wake leads (R343, R344,
R346, R347, R350 to R352, R413). -/

namespace Sys2Proof.Machine

/-! ### Commands -/

/-- Body of a rate announcement (R347). -/
def rateBody (mode part level kw : Nat) : List Byte := record 112 [⟨0, 1, mode⟩, ⟨1, 1, part⟩, ⟨2, 1, level⟩, ⟨4, 4, kw⟩]

/-- The last two checks of an announcing command, and the announcement. -/
def State.announceCmd (ch atype effective : Nat) (body : List Byte) (s : State) : State :=
  match s.annRefusal effective with
  | some st => s.answer ch st []
  | none => (s.originate atype effective body).answer ch .ok []

/-- POWER_TARGET (R347). -/
def State.powerTargetOwn (ch : Nat) (h : Held) (b : List Byte) (s : State) : State :=
  if fld b 8 4 < 1 ∨ !zeros b 0xC 0x10 then s.answer ch .badParam []
  else if !(s.getPart h.part).holds then s.answer ch .notPermitted []
  else s.announceCmd ch 1 (fld b 0 8) (rateBody 1 h.part 0 (fld b 8 4))

/-- POWER_TARGET. -/
def execPowerTarget (ch : Nat) (s : State) : Host.Outcome State Fault Refusal := .next (s.runCommand 0x0301 ch (State.powerTargetOwn ch))

/-- RATE_SET (R347): local, or announced to the fabric. -/
def State.rateSetOwn (ch : Nat) (h : Held) (b : List Byte) (s : State) : State :=
  let eff := fld b 0 8
  let level := fld b 8 1
  if 15 < level ∨ 1 < fld b 9 1 ∨ !zeros b 0xA 0x10 then s.answer ch .badParam []
  else if !(s.getPart h.part).holds then s.answer ch .notPermitted []
  else if !(enables (s.getPart h.part).image.rate level) then s.answer ch .badParam []
  else if fld b 9 1 = 1 then s.announceCmd ch 1 eff (rateBody 2 h.part level 0)
  else if eff ≠ 0 ∧ eff ≤ s.stitch then s.answer ch .badParam []
  else
    State.answer ch .ok [] { s with rate := { s.rate with
      locals := s.rate.locals ++ [(if eff = 0 then s.stitch + 1 else eff, level)] } }

/-- RATE_SET. -/
def execRateSet (ch : Nat) (s : State) : Host.Outcome State Fault Refusal := .next (s.runCommand 0x0302 ch (State.rateSetOwn ch))

/-- Reply words of POWER_REPORT (R351); power and energy are measurements, free values. -/
def State.powerWords (s : State) : List Nat :=
  let r := s.rate
  let st := if s.aon.phase = .safeListen then 2 else if s.aon.park = .parked then 1 else 0
  [r.run + 2 ^ 8 * r.sched + 2 ^ 16 * s.lCap + 2 ^ 24 * r.therm, st + 2 ^ 8 * s.anns.held.length, (Config.powerW s.free).toNat, twos 4 r.tj]
    ++ words64 (Config.energyJ s.free).toNat ++ words64 (r.lastStep.getD 0) ++ [r.targetKw, r.ignored, r.throttles, r.lateSteps]

/-- POWER_REPORT. -/
def execPowerReport (ch : Nat) (s : State) : Host.Outcome State Fault Refusal :=
  .next (s.runCommand 0x0303 ch fun _ _ s => (s.answer ch .ok s.powerWords).nextFree)

/-- The 192-byte record of DOMAIN_QUERY (R352). -/
def State.domRecord (s : State) : List Byte := (List.range 192).map fun d => if d < 184 then BitVec.ofNat 8 (s.domCode d) else 0

/-- DOMAIN_QUERY. -/
def execDomainQuery (ch : Nat) (s : State) : Host.Outcome State Fault Refusal :=
  .next (s.runCommand 0x0304 ch fun _ _ s => s.finish ch .ok [] s.domRecord)

/-! ### Steps of L_run -/

/-- Write the voltage of a level to VHUB and VCOMP0 to VCOMP3 (R344, R413): a change is in progress from now on (R414). -/
def State.setVoltage (l : Nat) (s : State) : State :=
  forAll (List.range 5) (fun r s => s.emit (.avs r (levelMv l))) { s with rate := { s.rate with
    mv := levelMv l, mvOld := s.rate.mv, mvAt := some s.now, writes := s.rate.writes + 1 } }

/-- Lock the standby PLL of the hub and of every die at the clock of a level (R335). -/
def Rate.lockStandby (l : Nat) (r : Rate) : Rate := { r with pll := r.pll.map fun (p : Pll) => { p with standby := some l } }

/-- Switch to the standby PLL, locked at the clock of a level; the old PLL becomes the standby (R335). -/
def Rate.switchPll (r : Rate) : Rate :=
  { r with pll := r.pll.map fun (p : Pll) => match p.standby with | some l => { active := l, standby := some p.active } | none => p }

/-- The PLL of link group g runs, at every rate level, while its domain is ON (R335). -/
def State.linkPllRuns (s : State) (g : Nat) : Bool := s.getDom (164 + g) == .on

/-- The frond-clock PLLs of the hub run while hub section 11, the frond clock, is ON (R335, R336). -/
def State.hubPllRuns (s : State) : Bool := s.getDom 182 == .on

/-- L_sched as it stands after every announcement and local RATE_SET due by stitch k (R284). -/
def State.schedBy (s : State) (k : Nat) : Nat := (State.localRateApply (forAll (s.dueAnns k) State.applyAnn
    { s with anns := { s.anns with held := [] }, sync := { s.sync with stitch := k } })).rate.sched

/-- The level of the upward step that falls due within h stitches, if one does. -/
def State.upStepWithin (s : State) (h : Nat) : Option Nat :=
  let g := s.goal (s.schedBy (s.stitch + h)) s.rate.therm
  if s.rate.run < g ∧ s.mayStep (s.stitch + h) then some (min g (s.rate.run + 4)) else none

/-- Stitches of the wake lead of a step to a level, at the present level. -/
def State.leadTo (s : State) (l : Nat) : Nat := leadStitches s.rate.run (s.wakeLead l)

/-- RATE_WAKE_LEAD (R344): one wake lead before an upward step the voltage rises and the standby PLL is locked. -/
def State.rateWakeLead (s : State) : State :=
  match s.upStepWithin (leadStitches s.rate.run 1000) with
  | some l =>
    if s.aon.phase = .up ∧ s.upStepWithin (s.leadTo l) = some l ∧ s.rate.ready.map (·.1) ≠ some l then
      State.setVoltage l { s with rate := { s.rate.lockStandby l with ready := some (l, s.stitch) } }
    else s
  | none => s

/-- RATE_WAKE_LEAD. -/
def execRateWakeLead (s : State) : Host.Outcome State Fault Refusal := .next s.rateWakeLead

/-- L_therm at an opportunity of R343 (R350). -/
def State.throttle (s : State) : State :=
  if 100 * 16 ≤ s.rate.tj then
    let t := min s.rate.therm (s.rate.run - 4)
    let s1 := { s with rate := { s.rate with therm := t } }
    if t < s.rate.therm then s1.raise .throttle else s1
  else s

/-- The voltage and PLL for an upward step to a level are ready at the present boundary (R344; log entry 29). -/
def State.voltageReady (s : State) (l : Nat) : Bool :=
  match s.rate.ready with
  | some (r, k) => r == l && decide (k + s.leadTo l ≤ s.stitch)
  | none => false

/-- L_run moves to a level at this boundary: the clock switches to the standby PLL, locked at the new level (R16, R335, R343, R344). -/
def State.stepTo (l : Nat) (s : State) : State :=
  let down := l < s.rate.run
  let byTherm := decide down && s.goal s.rate.sched 15 != s.goal s.rate.sched s.rate.therm
  let s1 := { s with rate := { (s.rate.lockStandby l).switchPll with
    run := l, lastStep := some s.stitch, ready := none, delayed := false
    throttles := if byTherm then satAdd 32 s.rate.throttles 1 else s.rate.throttles
    lateSteps := if s.rate.delayed then satAdd 32 s.rate.lateSteps 1 else s.rate.lateSteps } }
  let s2 := s1.toDies (.rate l)
  (if down then s2.setVoltage l else s2).raise .level

/-- RATE_STEP (R343, R344, R350): after the announcements and local settings due at this boundary. A step that waits for its voltage is late when
it is made; one whose goal has fallen back is no longer waited for (R344, R351). -/
def State.rateStep (s : State) : State :=
  if s.aon.phase = .up ∧ s.annsDone ∧ (s.rate.locals.all fun e => decide (s.stitch < e.1)) ∧ s.mayStep s.stitch then
    let s1 := s.throttle
    let g := s1.goal s1.rate.sched s1.rate.therm
    if g = s1.rate.run then { s1 with rate := { s1.rate with delayed := false } }
    else if g < s1.rate.run then State.stepTo (max g (s1.rate.run - 4)) { s1 with rate := { s1.rate with delayed := false } }
    else if s1.voltageReady (min g (s1.rate.run + 4)) then s1.stepTo (min g (s1.rate.run + 4))
    else { s1 with rate := { s1.rate with delayed := true } }
  else s

/-- RATE_STEP. -/
def execRateStep (s : State) : Host.Outcome State Fault Refusal := .next s.rateStep

end Sys2Proof.Machine
end

