-- ==== Sys2Proof/Machine/Regulators.lean ====
section
/-! DEFINITION. The bandwidth regulators of a partition (R197 to R200): MEM_REGULATE, its effect at a boundary, the refill, and the pieces
that draw on a share. -/

namespace Sys2Proof.Machine

/-- A regulator of a partition: 1 HBM, otherwise peat. -/
def Partition.reg (q : Partition) (tier : Nat) : Regulator := if tier = 1 then q.regHbm else q.regPeat
/-- Change a regulator. -/
def Partition.updReg (tier : Nat) (f : Regulator → Regulator) (q : Partition) : Partition :=
  if tier = 1 then { q with regHbm := f q.regHbm } else { q with regPeat := f q.regPeat }

/-- New settings of a regulator (R199): a share that is switched on starts full, and one that stays on keeps its tokens up to its new depth. -/
def Regulator.apply (on : Bool) (rate depth : Nat) (r : Regulator) : Regulator :=
  { on := on, rate := rate, depth := depth,
    tokens := if r.on then r.tokens.map fun (t : Nat) => min t (depth / 4) else List.replicate 4 (depth / 4) }

/-- The refill of an enabled regulator's shares at a boundary (R198). -/
def Regulator.refill (r : Regulator) : Regulator :=
  if r.on then { r with tokens := r.tokens.map fun (t : Nat) => min (t + r.rate / 4) (r.depth / 4) } else r

/-- A share has the tokens for a piece, or its regulator is disabled. -/
def Regulator.lets (r : Regulator) (die units : Nat) : Bool := !r.on || decide (units ≤ nth 0 r.tokens die)
/-- A piece draws on a share. -/
def Regulator.draw (die units : Nat) (r : Regulator) : Regulator :=
  if r.on then { r with tokens := r.tokens.modify die (· - units) } else r

/-- The parameters of MEM_REGULATE are valid (R199). -/
def regulateOk (b : List Byte) : Bool :=
  let tier := fld b 0 1
  let on := fld b 1 1
  (tier == 1 || tier == 2) && decide (on ≤ 1) && zeros b 2 4 && zeros b 0xC 0x10
    && (on == 0 || (decide (4 ≤ fld b 4 4) && decide (128 ≤ fld b 8 4) && decide (fld b 4 4 ≤ fld b 8 4)))

/-- MEM_REGULATE (R199): it is answered at the boundary that applies it. -/
def State.memRegulateOwn (ch : Nat) (h : Held) (b : List Byte) (s : State) : State :=
  if !regulateOk b then s.answer ch .badParam []
  else
    State.markStepped ch { s with regulate := s.regulate ++ [⟨ch, h.at_, h.part, fld b 0 1, fld b 1 1 == 1, fld b 4 4, fld b 8 4⟩] }

/-- MEM_REGULATE. -/
def execMemRegulate (ch : Nat) (s : State) : Host.Outcome State Fault Refusal := .next (s.runCommand 0x0901 ch (State.memRegulateOwn ch))

/-- Apply one accepted MEM_REGULATE and answer it. -/
def State.regulateOne (e : RegSet) (s : State) : State :=
  let s1 := if (s.getPart e.part).alive then s.updPart e.part (Partition.updReg e.tier (Regulator.apply e.on e.rate e.depth)) else s
  s1.answer e.ch .ok []

/-- The settings accepted before the boundary of a stitch apply, in acceptance order (R199). -/
def State.regulateTo (k : Nat) (s : State) : State :=
  forAll (s.regulate.filter fun e => decide (e.at_ < k)) State.regulateOne { s with regulate := s.regulate.filter fun e => decide (k ≤ e.at_) }

/-- MEM_REGULATE_APPLY (R199): settings whose boundary has come. STITCH_BOUNDARY applies those of its own boundary before its refill. -/
def execMemRegulateApply (s : State) : Host.Outcome State Fault Refusal := .next (s.regulateTo s.stitch)

/-- The refill of every share of every partition (R198). -/
def State.refillAll (s : State) : State :=
  { s with part := s.part.map fun (e : Nat × Partition) =>
      (e.1, { e.2 with regHbm := e.2.regHbm.refill, regPeat := e.2.regPeat.refill }) }

/-! ### Pieces (R198) -/

/-- Units of 64 B of the pieces of a burst: 2 KiB each, the last may be shorter. -/
def pieceUnits (bytes : Nat) : List Nat :=
  (List.range (cdiv bytes 2048)).map fun i => min 2048 (bytes - 2048 * i) / 64

/-- A piece passes its share at once when none of its share waits and its tokens are there; otherwise it is held. -/
def State.offerPiece (p : Nat) (x : HeldPiece) (s : State) : State :=
  let q := s.getPart p
  let queued := q.heldPieces.any fun y => y.tier == x.tier && y.die == x.die
  if !queued && (q.reg x.tier).lets x.die x.units then s.updPart p (Partition.updReg x.tier (Regulator.draw x.die x.units))
  else s.updPart p fun q => { q with heldPieces := q.heldPieces ++ [x] }

/-- Offer every piece of a burst to its regulator; the hub window is not regulated (R200). -/
def State.offerBurst (p tier f stream burst bytes : Nat) (s : State) : State :=
  if tier = 3 then s
  else forAll (pieceUnits bytes) (fun u s => s.offerPiece p ⟨tier, frondDie f, f, stream, burst, u⟩) s

/-- A regulator holds a piece of a burst. -/
def State.burstHeld (s : State) (p f stream burst : Nat) : Bool :=
  (s.getPart p).heldPieces.any fun x => x.frond == f && x.stream == stream && x.burst == burst

/-- A boundary finds pieces held: each frond that waits for one counts the 4,096 cycles of the stitch (R78; log entry 32). -/
def State.countHolds (s : State) : State :=
  forAll ((allParts.flatMap fun p => (s.getPart p).heldPieces.map (·.frond)).eraseDups) (fun f s => s.frondCount f 12 4096) s

/-- REGULATOR_PIECE_PASS (R198): the oldest piece that a share holds passes once its tokens have refilled. -/
def State.regulatorPiecePass (p tier die bytes : Nat) (s : State) : State :=
  let q := s.getPart p
  match q.heldPieces.find? fun x => x.tier == tier && x.die == die with
  | some x =>
    if x.units = bytes / 64 ∧ (q.reg tier).lets die x.units then
      s.updPart p fun q => Partition.updReg tier (Regulator.draw die x.units) { q with heldPieces := q.heldPieces.erase x }
    else s
  | none => s

/-- REGULATOR_PIECE_PASS. -/
def execRegulatorPiecePass (part tier die bytes : Nat) (s : State) : Host.Outcome State Fault Refusal :=
  .next (s.regulatorPiecePass part tier die bytes)

end Sys2Proof.Machine
end

