-- ==== Sys2Proof/Machine/Reports.lean ====
section
/-! DEFINITION. The commands that report: FW_INFO, FAULT_POLICY, FAULT_LOG_READ, LINK_REPORT, PATTERN_STATUS, TWIN_STATUS and the nine
blocks of STATS_READ (R138, R175, R202, R254, R266, R306, R333, R360, R382, R383, R403, R408). -/

namespace Sys2Proof.Machine

/-! ### Firmware and faults -/

/-- FW_INFO (R383). -/
def execFwInfo (ch : Nat) (s : State) : Host.Outcome State Fault Refusal :=
  .next (s.runCommand 0x0A01 ch fun _ _ s =>
    s.answer ch .ok [Config.fwRev.toNat, Config.romRev.toNat, 0x0102 + 2 ^ 16 * 0x0100, 1, Config.buildId.toNat])

/-- FAULT_POLICY (R383, R403): the reply holds the window and threshold that were in force. -/
def State.faultPolicyOwn (ch : Nat) (b : List Byte) (s : State) : State :=
  let c := fld b 0 1
  if !policyOk b then s.answer ch .badParam []
  else
    State.answer ch .ok [(s.policySet c).1, (s.policySet c).2]
      { s with faults := { s.faults with policy := Tab.set (0, 0) s.faults.policy c (fld b 4 4, fld b 8 4) } }

/-- FAULT_POLICY. -/
def execFaultPolicy (ch : Nat) (s : State) : Host.Outcome State Fault Refusal :=
  .next (match s.waiting 0x0903 ch with
    | some _ => State.runCommand 0x0903 ch (fun _ b s => s.faultPolicyOwn ch b) (s.dropPolicy ch)
    | none => s)

/-- Sequence number of the oldest entry held, NEXT for an empty log. -/
def Faults.oldest (f : Faults) : Nat := match f.log with | e :: _ => e.seq | [] => f.next

/-- Entries that FAULT_LOG_READ returns (11 *FAULT_LOG_READ parameters and record). -/
def Faults.pick (f : Faults) (first count : Nat) : List LogEntry :=
  let from_ := if first = 2 ^ 64 - 1 ∨ first < f.oldest then f.oldest else first
  (f.log.filter fun e => decide (from_ ≤ e.seq)).take count

/-- FAULT_LOG_READ: what it returns counts as read (R408). -/
def State.faultLogOwn (ch : Nat) (b : List Byte) (s : State) : State :=
  let n := fld b 8 2
  if n = 0 ∨ 1023 < n ∨ !zeros b 0xA 0x10 then s.answer ch .badParam []
  else
    let es := s.faults.pick (fld b 0 8) n
    let log := s.faults.log.map fun (e : LogEntry) => if es.any (fun x => x.seq == e.seq) then { e with read := true } else e
    State.finish ch .ok [] (record 32 [⟨0, 8, s.faults.oldest⟩, ⟨8, 8, s.faults.next⟩, ⟨0x10, 2, es.length⟩] ++ es.flatMap LogEntry.bytes)
      { s with faults := { s.faults with log := log } }

/-- FAULT_LOG_READ. -/
def execFaultLogRead (ch : Nat) (s : State) : Host.Outcome State Fault Refusal :=
  .next (s.runCommand 0x0503 ch fun _ b s => s.faultLogOwn ch b)

/-! ### LINK_REPORT (R254) -/

/-- Code of a port's STATE; a trained selvage port reads SELVAGE. -/
def State.portCode (s : State) (p : Nat) : Nat :=
  match (s.getPort p).state with
  | .unused => 0 | .bringup => 1 | .up => if s.isSelvage p then 7 else 2 | .held => 3 | .absent => 4 | .lost => 5 | .retired => 6

/-- Code of a RESULT. -/
def PortResult.code : PortResult → Nat
  | .none => 0 | .ok => 1 | .miswired => 2 | .swapped => 3 | .absent => 4

/-- The 32-byte port record. -/
def State.portRecord (s : State) (p : Nat) : List Byte :=
  let x := s.getPort p
  let d := (s.portDef p).getD ⟨0, 0, 255⟩
  let o := x.obs.getD default
  let want := match s.links.plan with | some pl => if p = 12 then pl.peer else pl.fabric | none => 0
  let flags := b2n x.mixed + 2 * b2n (x.obs.isSome && o.fabric != want) + 4 * b2n (x.marked && x.state != .retired)
  record 32 [⟨0, 1, s.portCode p⟩, ⟨1, 1, x.result.code⟩, ⟨2, 1, d.lanes⟩, ⟨3, 1, d.dir⟩, ⟨4, 1, d.first⟩, ⟨5, 1, x.attempts⟩,
    ⟨6, 1, x.pair⟩, ⟨7, 1, flags⟩, ⟨8, 1, o.at_.x⟩, ⟨9, 1, o.at_.y⟩, ⟨0xA, 1, o.at_.z⟩, ⟨0xB, 1, o.port⟩, ⟨0xC, 1, o.twin⟩,
    ⟨0x10, 8, o.fabric⟩, ⟨0x18, 4, x.rtt⟩]

/-- The 432-byte record of LINK_REPORT. -/
def State.linkRecord (s : State) : List Byte :=
  let head := match s.links.plan with
    | some pl => [⟨1, 1, if s.links.checking then 1 else 2⟩, ⟨4, 1, pl.here.x⟩, ⟨5, 1, pl.here.y⟩, ⟨6, 1, pl.here.z⟩, ⟨7, 1, pl.twin⟩,
        ⟨8, 8, pl.fabric⟩]
    | none => []
  record 16 (⟨0, 1, s.links.profile⟩ :: head) ++ (List.range 13).flatMap s.portRecord

/-- LINK_REPORT. -/
def execLinkReport (ch : Nat) (s : State) : Host.Outcome State Fault Refusal :=
  .next (s.runCommand 0x0403 ch fun _ _ s => s.finish ch .ok [] s.linkRecord)

/-! ### PATTERN_STATUS and TWIN_STATUS -/

/-- Reply words of PATTERN_STATUS (R138, R168, R297). -/
def Partition.statusWords (q : Partition) : List Nat :=
  let r := q.run
  let a := r.abortAt.getD ({}, 0, 0)
  [q.pat.code + 2 ^ 16 * (match r.last with | some st => st.code | none => 0), r.slip] ++ words64 r.step ++ words64 r.base
    ++ [r.maxSlip, r.realigns] ++ words64 r.lateIssues ++ words64 q.image.patternId
    ++ [a.1.x + 2 ^ 8 * a.1.y + 2 ^ 16 * a.1.z, a.2.1]

/-- PATTERN_STATUS. -/
def execPatternStatus (ch : Nat) (s : State) : Host.Outcome State Fault Refusal :=
  .next (s.runCommand 0x0205 ch fun h _ s => s.answer ch .ok (s.getPart h.part).statusWords)

/-- Code of TWIN_STATE (R306). -/
def TwinState.code : TwinState → Nat
  | .unbound => 0 | .bound => 1 | .solo => 2
/-- Code of COPY (R360). -/
def CopyState.code : CopyState → Nat
  | .none => 0 | .sending => 1 | .receiving => 2 | .complete => 3 | .failed => 4

/-- Reply words of TWIN_STATUS (R360). -/
def State.twinWords (s : State) (p : Nat) : List Nat :=
  let t := (s.getPart p).twin
  [t.state.code + 2 ^ 8 * t.copy.code + 2 ^ 16 * b2n (s.aon.park == .parked), t.discarded] ++ words64 t.copyBytes ++ words64 t.copyDone
    ++ words64 t.lastCompared ++ words64 (match s.links.plan with | some pl => pl.peer | none => 0)

/-- TWIN_STATUS. -/
def execTwinStatus (ch : Nat) (s : State) : Host.Outcome State Fault Refusal :=
  .next (s.runCommand 0x0804 ch fun h _ s => s.answer ch .ok (s.twinWords h.part))

/-! ### STATS_READ -/

/-- n words of w bytes, by a function of their index. -/
def wordsOf (w n : Nat) (f : Nat → Nat) : List Byte := (List.range n).flatMap fun i => leBytes w (f i)
/-- n zero bytes. -/
def zeroBytes (n : Nat) : List Byte := List.replicate n 0
/-- Block header: the BLOCK byte and reserved bytes to 0x3F. -/
def blockHead (block : Nat) : List Byte := record 64 [⟨0, 1, block⟩]

/-- Blocks 0x01 and 0x02 (R175). -/
def arithBlock (block step : Nat) (a : Arith) : List Byte :=
  record 64 [⟨0, 1, block⟩, ⟨8, 8, step⟩, ⟨0x10, 8, a.scaleRange⟩, ⟨0x18, 8, a.finchk⟩, ⟨0x20, 8, a.nonfinite⟩]
    ++ wordsOf 8 96 fun i => Tab.get 0 a.counts i

/-- Block 0x04 (R382). -/
def State.frondBlock (s : State) (p first count : Nat) : List Byte :=
  record 64 [⟨0, 1, 4⟩, ⟨2, 2, first⟩, ⟨4, 2, count⟩] ++ (List.range count).flatMap fun i =>
    match s.physical p (first + i) with
    | some f => wordsOf 8 13 fun j => Tab.get 0 (s.getFrond f).counts j
    | none => zeroBytes 104

/-- Blocks 0x05 and 0x06 (R202). -/
def State.hbmBlock (s : State) : List Byte :=
  blockHead 5 ++ (List.range 768).flatMap (fun i => leBytes 4 (Tab.get 0 s.mem.hbmCe i) ++ leBytes 4 (Tab.get 0 s.mem.hbmUe i))
    ++ wordsOf 1 12 (Tab.get 0 s.mem.spares) ++ zeroBytes 52
/-- Block 0x06 (R202). -/
def State.peatBlock (s : State) : List Byte :=
  blockHead 6 ++ (List.range 8).flatMap (fun i => leBytes 4 (Tab.get 0 s.mem.peatCe i) ++ leBytes 4 (Tab.get 0 s.mem.peatUe i))
    ++ leBytes 4 s.mem.hubCe ++ leBytes 4 s.mem.hubUe ++ zeroBytes 56

/-- Block 0x07 (R266). -/
def State.routerBlock (s : State) : List Byte :=
  blockHead 7 ++ (List.range 13).flatMap (fun p =>
      let c := (s.getPort p).count
      wordsOf 8 12 (Tab.get 0 c.vl) ++ wordsOf 8 11 (Tab.get 0 c.ev) ++ zeroBytes 72)
    ++ leBytes 8 s.links.binds ++ leBytes 8 s.links.timeouts ++ zeroBytes 48

/-- A doubled time difference in 1/32 ns as a field holds it: exact when it is a whole number, otherwise the rounding is free (log 16). -/
def halved (x : Int) : Int := if x % 2 = 0 then x / 2 else Config.halfOffset x

/-- Block 0x08 (R306); the partition fields read zero without a partition. -/
def State.timeBlock (s : State) (p : Option Nat) : List Byte :=
  let y := s.sync
  let t : Twin := match p with | some i => (s.getPart i).twin | none => {}
  blockHead 8 ++ record 0x60 [⟨0, 4, y.root⟩, ⟨4, 1, y.depth⟩, ⟨5, 1, y.parent.getD 255⟩, ⟨6, 1, b2n s.isLocked⟩,
      ⟨8, 4, twos 4 (halved y.theta2)⟩, ⟨0xC, 4, twos 4 (halved y.maxTheta2)⟩, ⟨0x10, 8, y.rounds⟩, ⟨0x18, 8, y.excursions⟩,
      ⟨0x20, 8, y.raises⟩, ⟨0x28, 8, s.anns.late⟩, ⟨0x30, 8, s.anns.dropped⟩, ⟨0x38, 1, t.state.code⟩, ⟨0x40, 8, t.matches_⟩,
      ⟨0x48, 8, t.mismatches⟩, ⟨0x50, 8, t.timeouts⟩, ⟨0x58, 8, t.collAborts⟩]
    ++ wordsOf 8 12 (Tab.get 0 y.mismatch) ++ zeroBytes 64

/-- Block 0x09 (R333). -/
def State.serveBlock (s : State) (p : Nat) : List Byte :=
  let v := (s.getPart p).serve
  blockHead 9 ++ wordsOf 4 4 (fun i => nth 0 [s.ctxOpenCount p, s.ctxReserved p, v.quota, s.ctxFree] i) ++ wordsOf 8 14 (Tab.get 0 v.counts)
    ++ zeroBytes 64

/-- A block's record for a partition that passed its checks; none for a BLOCK that does not exist. -/
def State.statsBlock (s : State) (block p first count : Nat) : Option (List Byte) :=
  let q := s.getPart p
  match block with
  | 1 => some (arithBlock 1 q.run.step q.arith)
  | 2 => some (arithBlock 2 q.arithStep.1 q.arithStep.2)
  | 3 => some q.tcb.bytes
  | 4 => some (s.frondBlock p first count)
  | 5 => some s.hbmBlock
  | 6 => some s.peatBlock
  | 7 => some s.routerBlock
  | 8 => some (s.timeBlock (if s.aon.phase = .safeListen then none else some p))
  | 9 => some (s.serveBlock p)
  | _ => none

/-- Parameters of STATS_READ (11 *STATS_READ parameters). -/
def statsOk (b : List Byte) (fronds : Nat) : Bool :=
  zeros b 1 2 && zeros b 6 8
    && (if fld b 0 1 = 4 then decide (1 ≤ fld b 4 2) && decide (fld b 4 2 ≤ 576) && decide (fld b 2 2 + fld b 4 2 ≤ fronds)
        else fld b 2 2 == 0 && fld b 4 2 == 0)

/-- Whether a block names the partition of PART (11 *STATS_READ record lengths, R379). -/
def State.statsNames (s : State) (block : Nat) : Bool :=
  (decide (1 ≤ block) && decide (block ≤ 4)) || (block == 8 && s.aon.phase != .safeListen) || block == 9

/-- STATS_READ: its own existence check and BUSY, then the parameters and the record. -/
def State.statsOwn (ch : Nat) (h : Held) (b : List Byte) (s : State) : State :=
  let block := fld b 0 1
  let e := if s.statsNames block then s.existsCheck h.part else .pass
  match e with
  | .stop st => s.answer ch st []
  | .gone w => s.conflict ch w
  | .pass =>
    if s.statsNames block ∧ (s.getPart h.part).life = .filling then s.answer ch .busy []
    else if statsOk b ((s.getPart h.part).image.fronds) then
      match s.statsBlock block h.part (fld b 2 2) (fld b 4 2) with
      | some r => s.finish ch .ok [] r
      | none => s.answer ch .badParam []
    else s.answer ch .badParam []

/-- STATS_READ. -/
def execStatsRead (ch : Nat) (s : State) : Host.Outcome State Fault Refusal := .next (s.runCommand 0x0501 ch (State.statsOwn ch))

end Sys2Proof.Machine
end

