-- ==== Sys2Proof/Machine/Spool.lean ====
section
/-! DEFINITION. The spool engine: issue of a stream, read bursts with their landing and poison, slot releases and write bursts (R69 to R78,
R131, R132, R186, R197, R200, R203, R204). -/

namespace Sys2Proof.Machine

/-! ### Streams -/

/-- Far address of burst j, modulo 2^64 (R69). -/
def Stream.farOf (x : Stream) (j : Nat) : Nat := (x.far + j * x.stride) % 2 ^ 64
/-- Slot of burst j. -/
def Stream.slot (x : Stream) (j : Nat) : Nat := j % max x.slots 1
/-- Frond-store address of the slot of burst j (R69). -/
def Stream.slotAt (x : Stream) (j : Nat) : Nat := x.ring + x.slot j * slotSize x.convert x.burst
/-- Token of the slot of burst j (R72, R73). -/
def Stream.tokenOf (x : Stream) (j : Nat) : Nat := x.token + x.slot j

/-- A stream of a frond by its identity. -/
def State.streamAt (s : State) (f id : Nat) : Option Stream := (s.getFrond f).streams.find? fun x => x.id == id
/-- Change a stream. -/
def State.updStream (f id : Nat) (g : Stream → Stream) (s : State) : State :=
  s.updFrond f fun x => { x with streams := x.streams.map fun (y : Stream) => if y.id = id then g y else y }

/-- A descriptor becomes an outstanding stream of its frond (R69, R74); it keeps the place of the instruction that issued it, for the log (R77). -/
def State.openStream (f w addr : Nat) (s : State) : State :=
  s.updFrond f fun x =>
    { x with streams := x.streams ++ [{ streamParse (s.fsRead f addr 32) with id := x.nextStream, pc := s.pcOf f (wardenPinnule w) }]
             nextStream := x.nextStream + 1 }

/-- A stream issues: a descriptor that R71 refuses is a frond fault, and behind 64 streams its warden stalls (R71, R74). -/
def State.goStream (f w addr : Nat) (r : FrondRec) (s : State) : State :=
  if (spoolBad (s.fsRead f addr 32) r.pages).isSome then s.unitFault f unitSpool w
  else if 64 ≤ (s.getFrond f).streams.length then s.setWait f w (some (.stream addr))
  else s.openStream f w addr

/-- The stream that a spool warden stalls on issues when there is a place. -/
def State.wakeStream (f : Nat) (r : FrondRec) (s : State) : State :=
  let w := r.warden unitSpool
  match s.waitOf f w with
  | some (.stream addr) => (s.setWait f w none).goStream f w addr r
  | _ => s

/-- A stream whose last burst is released or accepted retires, which makes room for one that waits (R74). -/
def State.retireStream (f id : Nat) (r : FrondRec) (s : State) : State :=
  State.wakeStream f r (s.updFrond f fun x => { x with streams := x.streams.filter fun (y : Stream) => !(y.id == id && decide (y.count ≤ y.released)) })

/-- The tier of a burst for the regulators: 1 HBM, 2 peat, 3 the own hub window (R185, R197, R200). -/
def tierOf (a : Nat) : Nat := if a < peatStart then 1 else if a < hubStart then 2 else 3

/-- SPOOL_STREAM_ISSUE (R65, R69, R71, R74): a 65th stream stalls; a descriptor that R71 refuses is a frond fault. -/
def State.spoolStreamIssue (f w addr : Nat) (s : State) : State :=
  match s.driven f unitSpool w with
  | none => s
  | some (_, r, drives) =>
    if !drives then s.wardenFault f w
    else if !r.pageOk addr 32 then s.unitFault f unitSpool w
    else s.goStream f w addr r

/-- SPOOL_STREAM_ISSUE. -/
def execSpoolStreamIssue (frond warden addr : Nat) (s : State) : Host.Outcome State Fault Refusal := .next (s.spoolStreamIssue frond warden addr)

/-- A burst is issued: an address outside the partition is a frond fault and moves no byte (R186); else it counts (R78) and is offered to
its regulator (R75, R198). 'key' is the counter of its direction. The fault's place is that of the stream's issue (R77). -/
def State.issueBurst (f p : Nat) (r : FrondRec) (x : Stream) (key : Nat) (s : State) : State :=
  let a := x.farOf x.next
  if !s.farOk p a x.burst then
    s.frondFault f unitSpool 2 (s.slotOf f (r.warden unitSpool)) (wardenPinnule (r.warden unitSpool)) x.pc
  else
    (((s.updStream f x.id fun y => { y with next := y.next + 1 }).frondCount f key 1).frondCount f (key + 1) x.burst).offerBurst
      p (tierOf a) f x.id x.next x.burst

/-- SPOOL_BURST_START (R72): burst j of a read stream starts while j minus released is below DEPTH. -/
def State.spoolBurstStart (f id : Nat) (s : State) : State :=
  match s.streamAt f id, s.unitRuns f unitSpool with
  | some x, some (p, r) => if !x.write ∧ x.next < x.count ∧ x.next - x.released < x.depth then s.issueBurst f p r x 8 else s
  | _, _ => s

/-- SPOOL_BURST_START. -/
def execSpoolBurstStart (frond stream : Nat) (s : State) : Host.Outcome State Fault Refusal := .next (s.spoolBurstStart frond stream)

/-! ### Landing (R70, R76, R203) -/

/-- Bytes that an uncorrected error at an address spoils: the ECC word that holds it, 8 bytes of hub SRAM, else 64 bytes (R201, R203; log
entry 36). -/
def eccBytes (a : Nat) : Nat := if hubStart ≤ a then 8 else 64

/-- Byte i of a burst from address a is affected by one of the errors, given by their offsets in the burst. -/
def byteBad (a : Nat) (ue : List Nat) (i : Nat) : Bool := ue.any fun e => (a + e) / eccBytes a == (a + i) / eccBytes a

/-- Some byte of n from offset i on is affected. -/
def rangeBad (a : Nat) (ue : List Nat) (i n : Nat) : Bool := (List.range n).any fun k => byteBad a ue (i + k)

/-- Raw landing: every 64-byte word that holds an affected byte is poison (R203). -/
def landRaw (a : Nat) (ue : List Nat) (bs : List Byte) : List Byte :=
  (List.range (bs.length / 64)).flatMap fun i =>
    if rangeBad a ue (64 * i) 64 then (List.replicate 16 0xDEADF00D).flatMap (leBytes 4) else (bs.drop (64 * i)).take 64

/-- One MX block of a burst, widened into F19, or 32 canonical NaNs where its scale or an element is affected (R91, R106, R203). -/
def landBlock (fmt a : Nat) (ue : List Nat) (bs : List Byte) (g b : Nat) : List Word × Bool :=
  let so := blockGroup fmt * g + b
  let eo := blockGroup fmt * g + 64 + 4 * mxWidth fmt * b
  if rangeBad a ue so 1 || rangeBad a ue eo (4 * mxWidth fmt) then (List.replicate 32 0x7FC00000#32, false)
  else widenBlock fmt true (fld bs so 1) (unpackElems (mxWidth fmt) (slice bs eo (4 * mxWidth fmt)))

/-- Every block of a burst of block groups. -/
def landBlocks (fmt a : Nat) (ue : List Nat) (bs : List Byte) : List (List Word × Bool) :=
  (List.range (bs.length / blockGroup fmt)).flatMap fun g => (List.range 64).map fun b => landBlock fmt a ue bs g b

/-- 16-bit elements widened into F19, canonical NaN where affected (R105, R203). -/
def landHalves (fmt a : Nat) (ue : List Nat) (bs : List Byte) : List Word :=
  (List.range (bs.length / 2)).map fun i => if rangeBad a ue (2 * i) 2 then 0x7FC00000#32 else widenHalf fmt (fld bs (2 * i) 2)

/-- What a burst lands in its slot, and its scale-range faults (R107). -/
def landing (convert a : Nat) (ue : List Nat) (bs : List Byte) : List Byte × Nat :=
  if convert = 0 then (landRaw a ue bs, 0)
  else if convert = 1 ∨ convert = 2 then
    let ls := landBlocks (convert + 3) a ue bs
    (wordBytes (ls.flatMap (·.1)), (ls.filter (·.2)).length)
  else (wordBytes (landHalves (convert - 1) a ue bs), 0)

/-- The corrected and uncorrected errors of a read, by their offsets from the address (R201 to R203). -/
def State.readErrors (p a : Nat) (ue ce : List Nat) (s : State) : State :=
  let s1 := s.memEvents ((ce.map fun o => ⟨unitAt (a + o), none⟩) ++ ue.map fun o => ⟨unitAt (a + o), some 0⟩)
  if ue.isEmpty then s1 else s1.setMem p

/-- Raise the tokens of a stream in burst order, as far as bursts have landed (R72). -/
def State.raiseLanded (f id : Nat) : Nat → State → State
  | 0, s => s
  | n + 1, s =>
    match s.streamAt f id with
    | some x =>
      if x.landed.contains x.raised then
        State.raiseLanded f id n
          ((s.updStream f id fun y => { y with raised := y.raised + 1, landed := y.landed.erase y.raised }).raiseToken f (x.tokenOf x.raised))
      else s
    | none => s

/-- Burst j of a stream has started, has not landed, and no piece of it is held (R75). -/
def State.burstOpen (s : State) (p f : Nat) (x : Stream) (j : Nat) : Bool :=
  decide (x.raised ≤ j) && decide (j < x.next) && !x.landed.contains j && !s.burstHeld p f x.id j

/-- SPOOL_BURST_LANDED (R70, R72, R76, R132, R203): the slot is written, the errors are counted, and the tokens follow in burst order. -/
def State.spoolBurstLanded (f id j : Nat) (ue ce : List Nat) (s : State) : State :=
  match s.streamAt f id, s.unitRuns f unitSpool with
  | some x, some (p, _) =>
    if !x.write ∧ s.burstOpen p f x j ∧ s.rangeOpen (some (frondDie f)) (farAddr p (x.farOf j)) x.burst then
      let a := farAddr p (x.farOf j)
      let l := landing x.convert a ue (s.far.readN a x.burst)
      let s1 := (((s.fsWrite f (x.slotAt j) l.1).countScaleRange p l.2).readErrors p a ue ce).updStream f id fun y =>
        { y with landed := y.landed ++ [j] }
      ((s1.contend f 5).raiseLanded f id (x.landed.length + 1)).noteVote p
    else s
  | _, _ => s

/-- SPOOL_BURST_LANDED. -/
def execSpoolBurstLanded (frond stream burst : Nat) (ue ce : List Nat) (s : State) : Host.Outcome State Fault Refusal :=
  .next (s.spoolBurstLanded frond stream burst ue ce)

/-- SPOOL_SLOT_RELEASE (R72, R74): the slot of the oldest burst in use is released. -/
def State.spoolSlotRelease (f id : Nat) (s : State) : State :=
  match s.streamAt f id, s.unitRuns f unitSpool with
  | some x, some (_, r) =>
    if !x.write ∧ x.released < x.raised then (s.updStream f id fun y => { y with released := y.released + 1 }).retireStream f id r else s
  | _, _ => s

/-- SPOOL_SLOT_RELEASE. -/
def execSpoolSlotRelease (frond stream : Nat) (s : State) : Host.Outcome State Fault Refusal := .next (s.spoolSlotRelease frond stream)

/-! ### Write streams (R73) -/

/-- Bursts of a slot that far memory has accepted: the completions among the raises of its token. -/
def Stream.completions (x : Stream) (slot : Nat) : Nat := (x.released + max x.slots 1 - 1 - slot) / max x.slots 1

/-- The producer has raised the token of burst j for its generation: the stream's own completions on that token do not count as the
producer's raises (R73, R131; log entry 37). -/
def State.producerRaised (s : State) (f : Nat) (x : Stream) (j : Nat) : Bool :=
  s.tokenAt f (x.tokenOf j) (j / max x.slots 1 + x.completions (x.slot j))

/-- SPOOL_WRITE_BURST (R73): the next burst is issued once its producer has raised its token. -/
def State.spoolWriteBurst (f id : Nat) (s : State) : State :=
  match s.streamAt f id, s.unitRuns f unitSpool with
  | some x, some (p, r) => if x.write ∧ x.next < x.count ∧ s.producerRaised f x x.next then s.issueBurst f p r x 10 else s
  | _, _ => s

/-- SPOOL_WRITE_BURST. -/
def execSpoolWriteBurst (frond stream : Nat) (s : State) : Host.Outcome State Fault Refusal := .next (s.spoolWriteBurst frond stream)

/-- The bytes that a write leaves: those of a 64-byte word that was not accepted are indeterminate (R204). -/
def State.acceptedBytes (s : State) (bs : List Byte) (refused : List Nat) : List Byte :=
  (List.range bs.length).map fun i => if refused.any fun e => e / 64 == i / 64 then Config.freeByte (s.free + i) else nth 0 bs i

/-- The errors of a write: one uncorrected error for each place refused, and MEM in the vote (R204). -/
def State.writeErrors (p a : Nat) (refused : List Nat) (s : State) : State :=
  let s1 := s.memEvents (refused.map fun o => ⟨unitAt (a + o), some (a + o)⟩)
  if refused.isEmpty then s1 else s1.setMem p

/-- SPOOL_WRITE_ACCEPTED (R73, R74, R204): far memory takes the oldest burst issued; the completion raises its token. -/
def State.spoolWriteAccepted (f id : Nat) (refused : List Nat) (s : State) : State :=
  match s.streamAt f id, s.unitRuns f unitSpool with
  | some x, some (p, r) =>
    let j := x.released
    if x.write ∧ j < x.next ∧ !s.burstHeld p f id j ∧ s.rangeOpen (some (frondDie f)) (farAddr p (x.farOf j)) x.burst then
      let a := farAddr p (x.farOf j)
      let bs := s.acceptedBytes (s.fsRead f (x.slotAt j) x.burst) refused
      let s1 := State.writeErrors p a refused { s with far := s.far.writeN a bs, free := if refused.isEmpty then s.free else s.free + x.burst }
      ((((s1.contend f 5).updStream f id fun y => { y with released := y.released + 1 }).raiseToken f (x.tokenOf j)).retireStream f id r).noteVote p
    else s
  | _, _ => s

/-- SPOOL_WRITE_ACCEPTED. -/
def execSpoolWriteAccepted (frond stream : Nat) (refused : List Nat) (s : State) : Host.Outcome State Fault Refusal :=
  .next (s.spoolWriteAccepted frond stream refused)

end Sys2Proof.Machine
end

