-- ==== Sys2Proof/Machine/Sync.lean ====
section
/-! DEFINITION. The stitch boundary and the synchronisation of the stitch counters (R17, R128, R198, R234, R266, R268, R271 to R279). -/

namespace Sys2Proof.Machine

/-! ### The boundary -/

/-- The counter and its copies on the dies (R17, R128). -/
def State.setStitch (k : Nat) (s : State) : State :=
  { s with sync := { s.sync with stitch := k }
           dies := { s.dies with die := s.dies.die.map fun (d : Die) => { d with stitchCopy := k } } }

/-- Some channel of a virtual lane is held. -/
def Port.vlHeld (x : Port) (v now : Nat) : Bool := (List.range 6).any fun k => vlOfSch k == v && (x.chan k).heldAt now

/-- Places taken in the receiver for a virtual lane. -/
def Port.vlTaken (x : Port) (v : Nat) : Nat := (((List.range 6).filter fun k => vlOfSch k == v).map fun k => (x.chan k).taken).sum

/-- The counters of a virtual lane at a boundary: a stitch with a hold, and the places sampled (R266). -/
def Port.sampleVl (now v : Nat) (x : Port) : Port :=
  (x.vlCount v 1 (if Tab.get 0 x.used (65 + v) = 1 ∨ x.vlHeld v now then 1 else 0)).vlCount v 2 (x.vlTaken v)

/-- The allowances of the next stitch: what a partition overran is carried over (R234). -/
def nextUsed (slots : Nat → Nat) (now : Nat) (x : Port) : Tab Nat :=
  let parts : Tab Nat := (x.used.filter fun (e : Nat × Nat) => decide (e.1 < 64) && decide (slots e.1 < e.2)).map
    fun (e : Nat × Nat) => (e.1, e.2 - slots e.1)
  parts ++ ((List.range 4).filter fun v => x.vlHeld v now).map fun v => (65 + v, 1)

/-- A port at a boundary. -/
def State.portBoundary (p : Nat) (s : State) : State :=
  let now := s.now
  let peak := ((List.range 6).map fun k => ((s.getPort p).chan k).taken).foldl max (Tab.get 0 s.links.mapPeak p)
  let s1 := s.updPort p fun x =>
    let y := (List.range 4).foldl (fun y v => y.sampleVl now v) x
    { y with used := nextUsed (fun q => s.slotsOn q p) now x }
  { s1 with links := { s1.links with mapPeak := Tab.set 0 s1.links.mapPeak p peak } }

/-- Every instruction that a warden stalls on looks again: its stitch may have come (R130). -/
def State.wakeAll (s : State) : State :=
  forAll ((s.frond.filter fun (e : Nat × Frond) => !e.2.wait.isEmpty).map (·.1))
    (fun f s => forAll (s.stalledWardens f) (fun w s => (s.wakeWarden f w).wakeFused f w) s) s

/-- The counters, the ports, the shares and the stalled wardens at a boundary. -/
def State.boundary (s : State) : State :=
  let s1 := (s.regulateTo (s.stitch + 1)).countHolds
  let s2 := { s1 with links := { s1.links with mapLevels := Tab.upd 0 s1.links.mapLevels s1.rate.run (· + 1) } }
  (forAll (List.range 13) State.portBoundary (s2.setStitch ((s2.stitch + 1) % 2 ^ 64))).refillAll.wakeAll

/-- STITCH_BOUNDARY (R128): MEM_REGULATEs still to apply take effect first (R199), the counter and its copies advance, the ports are
sampled, and the shares refill (R198). Counts while the package runs. A rail fault that found a pattern live takes the package into Safe Listen
here, where its patterns halt (R394). -/
def State.stitchBoundary (s : State) : State :=
  if s.aon.phase ≠ .up then s
  else if s.aon.listenDue.isSome then s.boundary.enterSafeListen
  else s.boundary

/-- STITCH_BOUNDARY. -/
def execStitchBoundary (s : State) : Host.Outcome State Fault Refusal := .next s.stitchBoundary

/-! ### Neighbours and the parent (R271, R272) -/

/-- What is known of the neighbour at a port. -/
def State.neighbourAt (s : State) (p : Nat) : Neighbour := Tab.get {} s.sync.nb p
/-- Change what is known of a neighbour. -/
def State.updNb (p : Nat) (f : Neighbour → Neighbour) (s : State) : State :=
  { s with sync := { s.sync with nb := Tab.upd {} s.sync.nb p f } }

/-- Ports that take part: fabric ports in state UP or SELVAGE (R271). -/
def State.syncPorts (s : State) : List Nat := (List.range 12).filter fun p => (s.getPort p).state == .up

/-- The package's fabric rank (R272). -/
def State.ownRank (s : State) : Nat := rankOf s.size s.here

/-- A neighbour whose advertisement counts (R272, R276). -/
def Neighbour.counts (n : Neighbour) (own : Nat) : Bool :=
  decide (n.depth < 64) && decide (n.missed < 2) && n.depth != 255 && !n.differs && decide (n.root < own)

/-- The better of two parents: the lower ROOT_RANK, then DEPTH, then port. -/
def State.betterParent (s : State) (a b : Nat) : Nat :=
  let x := s.neighbourAt a
  let y := s.neighbourAt b
  if y.root < x.root ∨ (y.root = x.root ∧ y.depth < x.depth) then b else a

/-- The parent port; none for a root. -/
def State.pickParent (s : State) : Option Nat :=
  match s.syncPorts.filter fun p => (s.neighbourAt p).counts s.ownRank with
  | [] => none
  | p :: t => some (t.foldl s.betterParent p)

/-- Take the parent that the advertisements give; a new parent starts the lock afresh (R272, R277). -/
def State.followParent (s : State) : State :=
  let np := s.pickParent
  let y := s.sync
  let root := match np with | some p => (s.neighbourAt p).root | none => s.ownRank
  let depth := match np with | some p => (s.neighbourAt p).depth + 1 | none => 0
  { s with sync := { y with
    parent := np, root := root, depth := depth, locked := y.locked && np == y.parent, zeros := if np = y.parent then y.zeros else 0
    lastRound := if np = y.parent then y.lastRound else none } }

/-! ### SYNC and FOLLOW (R273) -/

/-- No partition is ARMED or RUNNING. -/
def State.idle (s : State) : Bool := !(allParts.any fun p => (s.getPart p).live)

/-- SYNC payload. -/
def State.syncPayload (s : State) : List Byte :=
  record 232 [⟨0, 1, 0x10⟩, ⟨1, 1, s.sync.depth⟩, ⟨2, 1, b2n (!s.idle)⟩, ⟨4, 4, s.sync.root⟩, ⟨8, 8, s.stitch⟩]

/-- FOLLOW payload for round k of a port. -/
def State.followPayload (s : State) (p k : Nat) : List Byte :=
  let n := s.neighbourAt p
  record 232 [⟨0, 1, 0x11⟩, ⟨2, 1, b2n (!s.idle)⟩, ⟨8, 8, k⟩, ⟨0x10, 4, twos 4 n.dep⟩, ⟨0x14, 4, twos 4 n.arr⟩]

/-- FOLLOW goes out once both times of the round are known. -/
def State.sendFollow (p k : Nat) (s : State) : State :=
  let n := s.neighbourAt p
  if n.depK = k + 1 ∧ n.arrK = k + 1 then s.sendMgmt p (s.followPayload p k) else s

/-- A round begins on a port: a neighbour that was not heard since the last round has missed one (R272). -/
def Neighbour.newRound (k : Nat) (dep : Int) (n : Neighbour) : Neighbour :=
  { n with missed := if n.heard then 0 else n.missed + 1, heard := n.arrK == k + 1, dep := dep, depK := k + 1 }

/-- Departure of the SYNC of a port, among those given. -/
def departureOf (ds : List (Nat × Int)) (p : Nat) : Int := match ds.find? fun d => d.1 == p with | some d => d.2 | none => 0

/-- SYNC_ROUND (R273): at a stitch K with K mod 1,024 = 0. -/
def State.syncRound (ds : List (Nat × Int)) (s : State) : State :=
  if s.aon.phase ≠ .up ∨ s.stitch % 1024 ≠ 0 ∨ s.links.plan = none then s
  else
    let k := s.stitch
    let s1 := (forAll s.syncPorts (fun p s => s.updNb p (Neighbour.newRound k (departureOf ds p))) s).followParent
    forAll s1.syncPorts (fun p s => (s.sendMgmt p s.syncPayload).sendFollow p k) s1

/-- SYNC_ROUND. -/
def execSyncRound (departures : List (Nat × Int)) (s : State) : Host.Outcome State Fault Refusal := .next (s.syncRound departures)

/-- What a SYNC tells of the neighbour. -/
def Neighbour.sync (b : List Byte) (arrival : Int) (n : Neighbour) : Neighbour :=
  { n with root := fld b 4 4, depth := fld b 1 1, counter := fld b 8 8, active := bit (fld b 2 1) 0, heard := true, missed := 0,
           arr := arrival, arrK := fld b 8 8 + 1, differs := false }

/-- The COUNTER of a SYNC agrees with the own counter: the boundaries of one round lie less than one stitch apart (R273, R276; log entry 33). -/
def State.agrees (s : State) (k : Nat) : Bool := decide (k ≤ s.stitch + 1) && decide (s.stitch ≤ k + 1)

/-- A COUNTER that differs (R276): an idle package notes a greater one to take; otherwise the port's mismatch counts. -/
def State.counterDiffers (p k : Nat) (s : State) : State :=
  if s.stitch < k ∧ s.idle then
    { s with sync := { s.sync with raiseTo := some (max k ((s.sync.raiseTo.map (·.1)).getD 0), s.stitch) } }
  else
    State.updNb p (fun n => { n with differs := true })
      { s with sync := { s.sync with mismatch := Tab.upd 0 s.sync.mismatch p (satAdd 64 · 1) } }

/-- SYNC_RECEIVE (R272, R273, R276). -/
def State.syncReceive (p : Nat) (b : List Byte) (arrival : Int) (s : State) : State :=
  if !(s.syncPorts.contains p) ∨ fld b 0 1 ≠ 0x10 then s
  else
    let k := fld b 8 8
    let s1 := s.updNb p (Neighbour.sync b arrival)
    let s2 := if s.agrees k then s1 else s1.counterDiffers p k
    s2.followParent.sendFollow p k

/-- SYNC_RECEIVE. -/
def execSyncReceive (port : Nat) (payload : List Byte) (arrival : Int) (s : State) : Host.Outcome State Fault Refusal :=
  .next (s.syncReceive port payload arrival)

/-- COUNTER_RAISE (R276): at the boundary after the greater COUNTER came, on a package that is still idle. -/
def State.counterRaise (s : State) : State :=
  match s.sync.raiseTo with
  | some (v, k) =>
    if s.stitch ≤ k then s
    else
      let s1 := { s with sync := { s.sync with raiseTo := none } }
      if s.idle ∧ s.stitch < v then
        let s2 := s1.setStitch v
        { s2 with sync := { s2.sync with raises := satAdd 64 s2.sync.raises 1 } }
      else s1
  | none => s

/-- COUNTER_RAISE. -/
def execCounterRaise (s : State) : Host.Outcome State Fault Refusal := .next s.counterRaise

/-! ### The offset to the parent (R274, R275, R277, R279) -/

/-- Twice theta: own boundary later than the partner's, 1/32 ns (R274). -/
def thetaTwice (ownDep ownArr dep arr : Int) : Int := (arr - ownDep) - (ownArr - dep)

/-- 100 ppm of 1,024 stitches at a level, doubled, in 1/32 ns (R275, R341). -/
def trimLimit (level : Nat) : Nat := 402653184 / (100 * (30 + 14 * level))

/-- The servo uses a round (R275): its stitch lies more than 16 stitches after the last rate change. -/
def State.servoUses (s : State) (k : Nat) : Bool := match s.rate.lastStep with | some t => decide (t + 16 < k) | none => true

/-- Rounds in a row with theta zero after one that read zero: a round that was missed starts the row afresh (R277). -/
def Sync.zeroRow (y : Sync) (k : Nat) : Nat := if y.lastRound = some k then y.zeros else if y.lastRound.map (· + 1024) = some k then min 4 (y.zeros + 1) else 1

/-- An idle package steps its boundary at once when it is more than 64 ns off, by the whole offset (R275). -/
def State.boundaryStep (s : State) (k : Nat) (t : Int) : Bool := s.servoUses k && s.idle && decide (2 * 64 * 32 < t.natAbs)

/-- The trim that a round gives (R275): a package that steps its boundary trims nothing. -/
def State.trimFor (s : State) (k : Nat) (t : Int) : Int :=
  if !s.servoUses k then s.sync.trim2
  else if s.boundaryStep k t then 0
  else max (-(trimLimit s.rate.run : Int)) (min (trimLimit s.rate.run) t)

/-- A measured offset: ROUNDS, OFFSET, the trim or the step of the boundary, and LOCKED (R275, R277, R306). -/
def State.measured (k : Nat) (t : Int) (s : State) : State :=
  let y := s.sync
  let zeros := if t = 0 then y.zeroRow k else 0
  let newly := !y.locked && zeros == 4
  { s with sync := { y with
    lastRound := some k, moved2 := if s.boundaryStep k t then y.moved2 - t else y.moved2
    rounds := satAdd 64 y.rounds 1, theta2 := t, trim2 := s.trimFor k t, zeros := zeros, locked := y.locked || zeros == 4
    maxTheta2 := if newly then 0 else max y.maxTheta2 t.natAbs } }

/-- An excursion of a LOCKED package (R279): beyond 1/16 ns. -/
def State.excursion (s : State) : State :=
  (State.faultEvent 13 0 0 0 { s with sync := { s.sync with excursions := satAdd 64 s.sync.excursions 1, locked := false, zeros := 0 } }).raise
    .linkSync

/-- FOLLOW_RECEIVE (R271, R274): of the parent, once for a round whose two SYNCs are known, on a port that takes part; a round in which the COUNTERs differ
is not used. -/
def State.followReceive (p : Nat) (b : List Byte) (s : State) : State :=
  let n := s.neighbourAt p
  let k := fld b 8 8
  if fld b 0 1 ≠ 0x11 ∨ !(s.syncPorts.contains p) ∨ s.sync.parent ≠ some p ∨ s.sync.lastRound = some k ∨ n.depK ≠ k + 1 ∨ n.arrK ≠ k + 1 ∨ n.differs then s
  else
    let t := thetaTwice n.dep n.arr (signed 4 (fld b 0x10 4)) (signed 4 (fld b 0x14 4))
    let s1 := s.measured k t
    if s.sync.locked && decide (4 < t.natAbs) then s1.excursion else s1

/-- FOLLOW_RECEIVE. -/
def execFollowReceive (port : Nat) (payload : List Byte) (s : State) : Host.Outcome State Fault Refusal := .next (s.followReceive port payload)

end Sys2Proof.Machine
end

