-- ==== Sys2Proof/Machine/Telemetry.lean ====
section
/-! DEFINITION. Frames that pass through, commands that come in frames, and congestion maps (R258 to R261, R268 to R270, R363, R390, R391). -/

namespace Sys2Proof.Machine

/-! ### Forwarding (R258 to R261, R263) -/

/-- The kind is routed (R229). -/
def kindRouted (k : Nat) : Bool := k == 3 || k == 4 || k == 6 || k == 7 || k == 8 || k == 9

/-- ROUTED_FORWARD (R258). -/
def State.routedForward (p : Nat) (f : Frame) (s : State) : State :=
  if f.dst = s.here ∨ !kindRouted f.kind then s
  else match s.arrives p f with
    | (false, s1) => s1
    | (true, s1) => s1.forward p f

/-- ROUTED_FORWARD. -/
def execRoutedForward (port : Nat) (frame : Frame) (s : State) : Host.Outcome State Fault Refusal := .next (s.routedForward port frame)

/-! ### Commands in frames (R363, R391) -/

/-- Take a packet as the command of a channel, unless the channel holds one: then it is answered BUSY. -/
def State.latchPacket (ch : Nat) (packet : List Byte) (via : Via) (s : State) : State :=
  let h := { parseHeader (slice packet 0 16) (.ok (packet.drop 16)) via with tick := s.now, at_ := s.stitch }
  if (s.getChan ch).held.isSome then s.replyFrame h .busy true [] []
  else
    let s1 := s.updChan ch fun c => { c with busy := true, held := some h }
    if (opInfo h.opcode).isNone then s1.answer ch .badOpcode [] else (s1.dropPolicy ch).notePolicy ch h

/-- COMMAND_FRAME (R391). -/
def State.commandFrame (p : Nat) (f : Frame) (s : State) : State :=
  if f.kind ≠ 3 ∨ f.dst ≠ s.here then s
  else match s.arrives p f with
    | (false, s1) => s1
    | (true, s1) =>
      if bit f.arg 0 then s1.ringRecord 1 3 f.src 0 f.payload else s1.latchPacket 1 f.payload (.frame f.src)

/-- COMMAND_FRAME. -/
def execCommandFrame (port : Nat) (frame : Frame) (s : State) : Host.Outcome State Fault Refusal := .next (s.commandFrame port frame)

/-! ### Congestion maps (R268 to R270) -/

/-- A range of numbers, both ends included. -/
def span (lo hi : Nat) : List Nat := (List.range (hi + 1 - lo)).map (lo + ·)

/-- The coordinates of a box, X fastest, then Y, then Z. -/
def boxCoords (b : List Nat) : List Coord :=
  (span (nth 0 b 4) (nth 0 b 5)).flatMap fun z => (span (nth 0 b 2) (nth 0 b 3)).flatMap fun y => (span (nth 0 b 0) (nth 0 b 1)).map fun x => ⟨x, y, z⟩

/-- Packages of a box. -/
def boxCount (b : List Nat) : Nat :=
  (nth 0 b 1 + 1 - nth 0 b 0) * (nth 0 b 3 + 1 - nth 0 b 2) * (nth 0 b 5 + 1 - nth 0 b 4)

/-- Requests that are outstanding. -/
def CMap.outstanding (m : CMap) (asked : Nat) : Nat := asked - m.toAsk.length - m.entries.length

/-- A TELEMETRY request (R270). -/
def askFrame (here d : Coord) (reqId : Nat) : Frame :=
  { dst := d, src := here, kind := 9, arg := 1 + 2 ^ 8 * reqId, vl := 3, payload := List.replicate 8 0 }

/-- Send requests while fewer than 256 are outstanding. -/
def State.askMap (s : State) : State :=
  match s.cmap with
  | none => s
  | some m =>
    let all := (boxCoords m.box).filter (inside s.size)
    let n := 256 - m.outstanding all.length
    let ds := m.toAsk.take n
    if ds.isEmpty then s
    else
      forAll ds (fun d s => s.inject (askFrame s.here d m.reqId))
        { s with cmap := some { m with toAsk := m.toAsk.drop n, lastSent := s.now } }

/-- The entry of a package that did not reply: its coordinate and zeros (R269). -/
def blankEntry (c : Coord) : List Byte := record 80 [⟨0, 1, c.x⟩, ⟨1, 1, c.y⟩, ⟨2, 1, c.z⟩]

/-- The record of a map (R268). -/
def CMap.bytes (m : CMap) : List Byte :=
  (m.box.map fun v => (BitVec.ofNat 8 v : Byte)) ++ [(0 : Byte), 0] ++ leBytes 4 (boxCount m.box) ++ leBytes 4 m.entries.length ++ List.replicate 16 (0 : Byte)
    ++ (boxCoords m.box).flatMap fun c => match m.entries.find? fun e => e.1 == c with | some e => e.2 | none => blankEntry c

/-- The map completes with the replies it has. -/
def State.endMap (s : State) : State :=
  match s.cmap with
  | none => s
  | some m => State.finish m.ch .ok [] m.bytes { s with cmap := none }

/-- The map completes when every reply has arrived. -/
def State.mapDone (s : State) : State :=
  match s.cmap with
  | none => s
  | some m => if m.entries.length = boxCount m.box then s.endMap else s

/-- CONGESTION_MAP (R268, R270): its record must fit the bulk buffer unless HOST is 1 (R368). -/
def State.congestionMapOwn (ch : Nat) (h : Held) (b : List Byte) (s : State) : State :=
  let box := (List.range 6).map fun i => fld b i 1
  if !zeros b 6 8 ∨ (!h.host ∧ 65536 < 32 + 80 * boxCount box) then s.answer ch .badParam []
  else
    let id := (s.reqId + 1) % 2 ^ 16
    let m : CMap := { ch := ch, reqId := id, box := box, lastSent := s.now, toAsk := (boxCoords box).filter (inside s.size), entries := [] }
    (State.askMap (State.accept ch { s with cmap := some m, reqId := id })).mapDone

/-- CONGESTION_MAP. -/
def execCongestionMap (ch : Nat) (s : State) : Host.Outcome State Fault Refusal := .next (s.runCommand 0x0502 ch (State.congestionMapOwn ch))

/-- CONGESTION_MAP_TIMEOUT (R268): 10 ms after the last request. -/
def State.congestionMapTimeout (s : State) : State :=
  match s.cmap with
  | some m => if m.lastSent + ms 10 ≤ s.now then s.endMap else s
  | none => s

/-- CONGESTION_MAP_TIMEOUT. -/
def execCongestionMapTimeout (s : State) : Host.Outcome State Fault Refusal := .next s.congestionMapTimeout

/-- A counter of a port's virtual lane: FLITS_SENT 0, OFF_STITCHES 1. -/
def Port.vlValue (x : Port) (v k : Nat) : Nat := Tab.get 0 x.count.vl (3 * v + k)

/-- Growth of a counter in the interval of the map (R268). -/
def State.mapDelta (s : State) (p v k : Nat) : Nat := (s.getPort p).vlValue v k - Tab.get 0 s.links.mapBase (8 * p + 2 * v + k)

/-- Stitches of the interval. -/
def State.mapInterval (s : State) : Nat := min (s.stitch - s.links.mapSince) (2 ^ 32 - 1)

/-- The product of the divisors 30 + 14 l of all run levels. -/
def rateProduct : Nat := (List.range 16).foldl (fun n l => n * (30 + 14 * l)) 1

/-- Flits that a lane could signal in the interval, times rateProduct: a stitch at level l lasts 614,400 / (30 + 14 l) ns (R341), in which a lane at
106.25 Gb/s signals 31,875 / (30 + 14 l) flits of 2,048 bits (R223). -/
def State.laneCapacity (s : State) : Nat := ((List.range 16).map fun l => Tab.get 0 s.links.mapLevels l * 31875 * (rateProduct / (30 + 14 * l))).sum

/-- UTIL of a port (R268): DATA flits sent, of what it could signal (log entry 17); a port without lanes and an interval without a stitch give a free
value. -/
def State.mapUtil (s : State) (p : Nat) : Byte :=
  let sent := ((List.range 4).map fun v => s.mapDelta p v 0).sum
  let room := s.laneCapacity * s.lanesOf p
  if room = 0 then Config.freeByte (s.free + 48 + p) else BitVec.ofNat 8 (min 255 (sent * rateProduct * 255 / room))

/-- STALL of a port and virtual lane (R268); an interval of no stitch gives a free value. -/
def State.mapStall (s : State) (p v : Nat) : Byte :=
  if s.mapInterval = 0 then Config.freeByte (s.free + 4 * p + v) else BitVec.ofNat 8 (s.mapDelta p v 1 * 255 / s.mapInterval)

/-- This package's congestion-map entry (R268). -/
def State.mapEntry (s : State) : List Byte :=
  let any : (Port → Bool) → Bool := fun f => (List.range 13).any fun p => f (s.getPort p)
  let flags := 1 + 2 * b2n ((List.range 12).any s.isSelvage) + 4 * b2n (any fun x => x.state == .lost || x.state == .retired)
  record 8 [⟨0, 1, s.here.x⟩, ⟨1, 1, s.here.y⟩, ⟨2, 1, s.here.z⟩, ⟨3, 1, flags⟩, ⟨4, 4, s.mapInterval⟩]
    ++ (List.range 12).map s.mapUtil
    ++ (List.range 12).flatMap (fun p => (List.range 4).map (s.mapStall p))
    ++ (List.range 12).map fun p => BitVec.ofNat 8 (Tab.get 0 s.links.mapPeak p * 255 / 2048)

/-- A new interval starts (R269). -/
def State.newInterval (s : State) : State :=
  let base : Tab Nat := (List.range 12).foldl (fun t p => (List.range 4).foldl (fun t v =>
    Tab.set 0 (Tab.set 0 t (8 * p + 2 * v) ((s.getPort p).vlValue v 0)) (8 * p + 2 * v + 1) ((s.getPort p).vlValue v 1)) t) []
  { s with links := { s.links with mapSince := s.stitch, mapBase := base, mapPeak := [], mapLevels := [] }, free := s.free + 60 }

/-- TTYPE of a TELEMETRY frame (R270). -/
def ttype (f : Frame) : Nat := bits f.arg 7 0
/-- REQ_ID of a TELEMETRY frame (R270). -/
def telemetryId (f : Frame) : Nat := bits f.arg 23 8

/-- TELEMETRY_REQUEST (R269, R270). A reserved TTYPE is counted as DISC_KIND. -/
def State.telemetryRequest (p : Nat) (f : Frame) (s : State) : State :=
  if f.kind ≠ 9 ∨ f.dst ≠ s.here ∨ ttype f = 2 then s
  else match s.arrives p f with
    | (false, s1) => s1
    | (true, s1) =>
      if ttype f ≠ 1 then s1.portEv p 7 1
      else s1.newInterval.inject { dst := f.src, src := s.here, kind := 9, arg := 2 + 2 ^ 8 * telemetryId f, vl := 3, payload := s.mapEntry }

/-- TELEMETRY_REQUEST. -/
def execTelemetryRequest (port : Nat) (frame : Frame) (s : State) : Host.Outcome State Fault Refusal := .next (s.telemetryRequest port frame)

/-- A reply belongs to the map in progress and is the first from its source (R270). -/
def CMap.takes (m : CMap) (f : Frame) : Bool := m.reqId == telemetryId f && inBox m.box f.src && !(m.entries.any fun e => e.1 == f.src)

/-- TELEMETRY_REPLY (R268, R270). -/
def State.telemetryReply (p : Nat) (f : Frame) (s : State) : State :=
  if f.kind ≠ 9 ∨ f.dst ≠ s.here ∨ ttype f ≠ 2 then s
  else match s.arrives p f with
    | (false, s1) => s1
    | (true, s1) =>
      match s1.cmap with
      | some m =>
        if m.takes f then
          State.mapDone (State.askMap { s1 with cmap := some { m with entries := m.entries ++ [(f.src, slice f.payload 0 80)] } })
        else s1
      | none => s1

/-- TELEMETRY_REPLY. -/
def execTelemetryReply (port : Nat) (frame : Frame) (s : State) : Host.Outcome State Fault Refusal := .next (s.telemetryReply port frame)

end Sys2Proof.Machine
end

