-- ==== Sys2Proof/Machine/TestPort.lean ====
section
/-! DEFINITION. The test access chain (R33 to R37) and the dynamic address of the I3C port (R421). -/

namespace Sys2Proof.Machine

/-- The die at a chain position from TDI: none for the hub at position 0, else its ring position (R33). -/
def tapRing (pos : Nat) : Option Nat := if pos = 0 then none else some (pos - 1)

/-- The hub stands a 1-bit bypass stage in for the TAP of a die that is held in reset or whose own VCOMP rail is not up (R35; log entry 67). -/
def State.tapAbsent (s : State) (pos : Nat) : Bool :=
  match tapRing pos with
  | none => false
  | some r => (s.getDie r).released.isNone || s.aon.railsLow.getLsbD (3 + dieAt r)

/-- Boundary-scan instructions act as BYPASS while the package is out of reset and not in Safe Listen (R36, R394). -/
def State.tapEffective (s : State) (i : TapInstr) : TapInstr :=
  if s.outOfReset ∧ s.aon.phase ≠ .safeListen ∧ (i = .extest ∨ i = .clamp ∨ i = .highz) then .bypass else i

/-- IR length at a chain position (R33): a foreign die's own, once its capability block has come. Before, the length of a Caertos die: DESIGN CHOICE,
log entry 78. -/
def State.irLen (s : State) (pos : Nat) : Nat :=
  match tapRing pos with
  | none => 8
  | some r => match (s.getDie r).cap with | some b => fld b 0x14 1 | none => 6

/-- IDCODE at a chain position (R33): a foreign die's own, once its capability block has come. Before, that of a Caertos die: DESIGN CHOICE,
log entry 78. -/
def State.idcode (s : State) (pos : Nat) : Nat :=
  match tapRing pos with
  | none => 0x1A4E12AB
  | some r => match (s.getDie r).cap with | some b => fld b 0x18 4 | none => 0x1A4E22AB

/-- The bits a TAP captures for an instruction scan, least significant first: 0b01 in the two low bits (R34); the others are free. -/
def State.irCapture (s : State) (pos : Nat) : List Bool :=
  if s.tapAbsent pos then [false]
  else (List.range (s.irLen pos)).map fun i => if i = 0 then true else if i = 1 then false else Config.boundaryBit (8 * pos) i

/-- The instruction that acts at a chain position. -/
def State.tapInstr (s : State) (pos : Nat) : TapInstr := s.tapEffective (nth .idcode s.tap.ir pos)

/-- The boundary register lies between TDI and TDO of this instruction. -/
def scansCells (i : TapInstr) : Bool := i == .samplePreload || i == .extest

/-- The bits a TAP captures for a data scan: its IDCODE, a bypass 0, or boundary cells, whose number and content are outside the spec (R34). -/
def State.drCapture (s : State) (pos : Nat) : List Bool :=
  if s.tapAbsent pos then [false]
  else match s.tapInstr pos with
    | .idcode => (List.range 32).map (s.idcode pos).testBit
    | .bypass | .clamp | .highz => [false]
    | .samplePreload | .extest => (List.range (Config.boundaryLen pos)).map (Config.boundaryBit (8 * pos + 1 + s.free))

/-- The chain's data registers from TDO towards TDI, as captured. -/
def State.drChain (s : State) : List Bool := [4, 3, 2, 1, 0].flatMap s.drCapture

/-- Bits between TDO and the data register of a position. -/
def State.drBelow (s : State) (pos : Nat) : Nat := (((List.range 5).filter fun p => decide (pos < p)).map fun p => (s.drCapture p).length).sum

/-- What the data register of a position holds after a scan. -/
def State.drAfter (s : State) (tdi : List Bool) (pos : Nat) : List Bool :=
  (((s.drChain ++ tdi).drop tdi.length).drop (s.drBelow pos)).take (s.drCapture pos).length

/-- What a die's boundary-scan pins carry (R34, R36; IEEE 1149.1). -/
inductive PinDrive where
  | functional
  | cells (bits : List Bool)
  | highZ
deriving DecidableEq, Repr

/-- EXTEST and CLAMP drive the pins of a die from its boundary register, HIGHZ turns them off; under any other instruction, and while these act as
BYPASS, its logic drives them (R36). -/
def State.pinDrive (s : State) (pos : Nat) : PinDrive :=
  if s.tapAbsent pos then .functional
  else match s.tapInstr pos with
    | .extest | .clamp => .cells (nth [] s.tap.cells pos)
    | .highz => .highZ
    | .bypass | .idcode | .samplePreload => .functional

/-- TAP_OPERATION (R34 to R37). TDO gives the captured bits of the position nearest TDO first, then the bits that TDI gave. A scan of boundary cells
leaves what was shifted in to the boundary register. A TAP that the hub stands in for takes no instruction: it keeps the one it had selected, DESIGN
CHOICE, log entry 78. -/
def State.tapOperation (op : TapOp) (s : State) : State :=
  if s.aon.phase = .off then s
  else match op with
    | .trst | .testLogicReset => { s with tap := { s.tap with ir := List.replicate 5 .idcode } }
    | .irScan instrs =>
      let tdo := [4, 3, 2, 1, 0].flatMap s.irCapture
      let ir := (List.range 5).map fun p =>
        if s.tapAbsent p then nth .idcode s.tap.ir p else (instrs[p]?).getD (nth .idcode s.tap.ir p)
      State.emit (.tdo tdo) { s with tap := { s.tap with ir := ir } }
    | .drScan tdi =>
      let cells := (List.range 5).map fun p =>
        if !s.tapAbsent p && scansCells (s.tapInstr p) then s.drAfter tdi p else nth [] s.tap.cells p
      (State.emit (.tdo ((s.drChain ++ tdi).take tdi.length)) { s with tap := { s.tap with cells := cells } }).nextFree

/-- TAP_OPERATION. -/
def execTapOperation (op : TapOp) (s : State) : Host.Outcome State Fault Refusal := .next (s.tapOperation op)

/-- The provisional ID of the I3C port (R421). -/
def State.provisionalId (s : State) : Nat := 2 ^ 33 * Config.mipiCode.toNat + 2 ^ 16 * 0x1248 + s.aon.strap.toNat

/-- ENTDAA (R421): from the end of self-test phase 1, a port without an address offers its provisional ID and takes the one it is given. -/
def State.entdaa (address : Nat) (s : State) : State :=
  if s.visible ∧ s.aon.i3cAddr = none then
    ({ s with aon := { s.aon with i3cAddr := some (address % 128) } }).emit (.i3cId s.provisionalId)
  else s

/-- ENTDAA. -/
def execEntdaa (address : Nat) (s : State) : Host.Outcome State Fault Refusal := .next (s.entdaa address)

end Sys2Proof.Machine
end

