-- ==== Sys2Proof/Machine/Thermal.lean ====
section
/-! DEFINITION. Heat (R350, R409, R419, R427): the samples, the trip, the comparator and the rise of L_therm. Readings are in 1/16 degrees C. -/

namespace Sys2Proof.Machine

/-- Sensors are read while the package is out of reset. -/
def State.awake (s : State) : Bool := s.aon.phase == .up || s.aon.phase == .selfTest || s.aon.phase == .safeListen

/-- The firmware trip (R350, R419, R427): the pin goes low, TRIP is set, the trip takes its one entry, and the package enters Safe Listen. Once it has
tripped nothing more happens until the next package reset. -/
def State.thermalTrip (s : State) : State :=
  if s.aon.tripped then s
  else (State.tripOrRail 0x0B 0 0 { s with aon := { s.aon with thermTrip := true, tripped := true } }).raise .trip

/-- THERMAL_SAMPLE (R350): Tj is the highest reading. Throttling by L_therm acts at the opportunities of R343 (RATE_STEP). -/
def State.thermalSample (readings : List Int) (s : State) : State :=
  match readings with
  | [] => s
  | r :: rs =>
    if s.awake then
      let tj := rs.foldl max r
      let s1 := { s with rate := { s.rate with
        tj := tj, coolSince := if tj ≤ 92 * 16 then some (s.rate.coolSince.getD s.now) else none } }
      let s2 := if 95 * 16 ≤ tj then s1.raise .warn else s1
      if 110 * 16 ≤ tj then s2.thermalTrip else s2
    else s

/-- THERMAL_SAMPLE. -/
def execThermalSample (readings : List Int) (s : State) : Host.Outcome State Fault Refusal := .next (s.thermalSample readings)

/-- THERMAL_COMPARATOR_TRIP (R419, R427): the pin goes low, and stays low until PKG_RESET_N is low. -/
def State.comparatorTrip (reading : Int) (s : State) : State :=
  if s.awake ∧ 115 * 16 ≤ reading then { s with aon := { s.aon with thermTrip := true } } else s

/-- THERMAL_COMPARATOR_TRIP. -/
def execThermalComparatorTrip (reading : Int) (s : State) : Host.Outcome State Fault Refusal := .next (s.comparatorTrip reading)

/-- L_THERM_RISE (R350): one level for each 100 ms at or below 92 degrees C. -/
def State.thermRise (s : State) : State :=
  match s.rate.coolSince with
  | some t =>
    if s.awake ∧ t + ms 100 ≤ s.now then
      { s with rate := { s.rate with therm := min 15 (s.rate.therm + 1), coolSince := some (t + ms 100) } }
    else s
  | none => s

/-- L_THERM_RISE. -/
def execLThermRise (s : State) : Host.Outcome State Fault Refusal := .next s.thermRise

end Sys2Proof.Machine
end

