-- ==== Sys2Proof/Machine/Twin.lean ====
section
/-! DEFINITION. Twin comparison and rejoin: TWIN_BIND, TWIN_SHED, TWIN_REJOIN, signatures, their exchange and comparison, the peer-record
deadline, and the copy of a rejoin (R299 to R305, R353 to R359, R391). -/

namespace Sys2Proof.Machine

/-! ### Commands -/

/-- Bytes of all signature regions of an image. -/
def Image.regionBytes (i : Image) : Nat := (i.regions.map (·.length)).sum

/-- A bind that R354, R301 and R406 allow; otherwise the status of its refusal. -/
def State.bindRefusal (s : State) (p : Nat) : Option Status :=
  let q := s.getPart p
  let x := s.getPort 12
  if q.pat ≠ .loaded then some .notPermitted
  else if x.state ≠ .up ∨ x.marked then some .linkAbsent
  else if q.image.regions.isEmpty ∨ gib < q.image.regionBytes then some .refusedShape
  else none

/-- A bound partition compares from its first commit (R354). -/
def Twin.bind (t : Twin) : Twin := { t.quiet with state := .bound, own := [], peer := [] }
/-- Unbound. -/
def Twin.unbind (t : Twin) : Twin := { t.quiet with state := .unbound, own := [], peer := [] }

/-- TWIN_BIND (R354); accepted on a parked package it starts the waking (R340). -/
def State.twinBindOwn (ch : Nat) (h : Held) (b : List Byte) (s : State) : State :=
  let p := h.part
  let w := fld b 0 4
  if 1 < w then s.answer ch .badParam []
  else if w = 1 then
    if (s.getPart p).pat = .loaded ∨ (s.getPart p).pat = .halted then (s.updTwin p Twin.unbind).answerAfterWake ch .ok
    else s.answer ch .notPermitted []
  else match s.bindRefusal p with
    | some st => s.answer ch st []
    | none => (s.updTwin p Twin.bind).answerAfterWake ch .ok

/-- TWIN_BIND. -/
def execTwinBind (ch : Nat) (s : State) : Host.Outcome State Fault Refusal := .next (s.runCommand 0x0801 ch (State.twinBindOwn ch))

/-- Body of a twin announcement (R355). -/
def twinBody (op part index hold : Nat) : List Byte := record 112 [⟨0, 1, op⟩, ⟨1, 1, part⟩, ⟨2, 1, index⟩, ⟨4, 4, hold⟩]

/-- TWIN_INDEX of the own plan; 2, which no fabric has, without a plan. -/
def State.twinIndex (s : State) : Nat := match s.links.plan with | some pl => pl.twin | none => 2

/-- TWIN_SHED (R355). -/
def State.twinShedOwn (ch : Nat) (h : Held) (b : List Byte) (s : State) : State :=
  let q := s.getPart h.part
  let role := fld b 8 1
  if !q.holds ∨ q.twin.state = .unbound then s.answer ch .notPermitted []
  else if role < 1 ∨ 2 < role ∨ fld b 9 1 ≠ s.twinIndex ∨ !zeros b 0xA 0x10 then s.answer ch .badParam []
  else s.announceCmd ch 2 (fld b 0 8) (twinBody role h.part (fld b 9 1) 0)

/-- TWIN_SHED. -/
def execTwinShed (ch : Nat) (s : State) : Host.Outcome State Fault Refusal := .next (s.runCommand 0x0802 ch (State.twinShedOwn ch))

/-- TWIN_REJOIN (R356). -/
def State.twinRejoinOwn (ch : Nat) (h : Held) (b : List Byte) (s : State) : State :=
  let q := s.getPart h.part
  let hold := fld b 8 4
  if q.twin.state ≠ .solo then s.answer ch .notPermitted []
  else if q.tcb.slotBytes = 0 ∨ hold < 1024 ∨ 2 ^ 31 < hold ∨ !zeros b 0xC 0x10 then s.answer ch .badParam []
  else s.announceCmd ch 2 (fld b 0 8) (twinBody 3 h.part s.twinIndex hold)

/-- TWIN_REJOIN. -/
def execTwinRejoin (ch : Nat) (s : State) : Host.Outcome State Fault Refusal := .next (s.runCommand 0x0803 ch (State.twinRejoinOwn ch))

/-! ### Signatures (R299, R300) -/

/-- Far address of an offset in a space of a partition: 1 HBM, 2 peat. -/
def State.spaceAt (s : State) (p space off : Nat) : Nat := (s.getPart p).spaceBase p space + off

/-- A peat offset lies in the state ring (R300). -/
def Tcb.inRing (t : Tcb) (space off : Nat) : Bool :=
  space == 2 && decide (t.ringOffset ≤ off) && decide (off < t.ringOffset + 3 * t.slotBytes)

/-- Where a region is read: a region in the ring is written against slot 0 and read from the slot of update t (R300). -/
def State.regionAt (s : State) (p : Nat) (r : Region) : Nat :=
  let t := (s.getPart p).tcb
  s.spaceAt p r.space (r.offset + if t.inRing r.space r.offset then t.updates % 3 * t.slotBytes else 0)

/-- The message of a signature (R299). -/
def State.sigMessage (s : State) (p : Nat) : List Byte :=
  let q := s.getPart p
  let i := q.image
  leBytes 8 i.patternId ++ leBytes 8 q.tcb.committedStep ++ leBytes 8 q.tcb.updates
    ++ (if bit i.sigFlags 0 then s.far.readN (s.spaceAt p 1 i.lossOffset) 4 else [])
    ++ (if bit i.sigFlags 1 then slice (arithBlock 2 q.arithStep.1 q.arithStep.2) 8 0x338 else [])
    ++ i.regions.flatMap fun r => s.far.readN (s.regionAt p r) r.length

/-- The record of a commit (R299, R302). -/
def State.sigRecord (s : State) (p : Nat) : SigRec :=
  let q := s.getPart p
  { patternId := q.image.patternId, step := q.tcb.committedStep, updates := q.tcb.updates, sig := leNat ((sha256 (s.sigMessage p)).take 16) }

/-- Payload of a TWIN_SIG frame (R302). -/
def SigRec.bytes (r : SigRec) (index : Nat) : List Byte :=
  record 48 [⟨0, 8, r.patternId⟩, ⟨8, 8, r.step⟩, ⟨16, 8, r.updates⟩, ⟨24, 16, r.sig⟩, ⟨40, 1, index⟩]
/-- The record that a payload spells. -/
def sigParse (b : List Byte) : SigRec := { patternId := fld b 0 8, step := fld b 8 8, updates := fld b 16 8, sig := fld b 24 16 }

/-! ### Comparison (R303, R304) -/

/-- Two records match. -/
def SigRec.same (a b : SigRec) : Bool := a.patternId == b.patternId && a.updates == b.updates && a.sig == b.sig

/-- The fault-log entry of a record of a mismatch (R430). -/
def sigEntry (p unit : Nat) (r : SigRec) : LogArgs :=
  { kind := 4, code := .signatureMismatch, part := p, unitKind := 0xD, unit := unit, detail := [⟨0, 8, r.step⟩, ⟨8, 8, r.updates⟩, ⟨16, 16, r.sig⟩] }

/-- A comparison completes: it releases the vote (R303). -/
def Twin.compared (now step : Nat) (matched : Bool) (t : Twin) : Twin :=
  { t with
    lastCompared := step, sentAt := none, waiting := false, comparedAt := if matched then some now else t.comparedAt
    matches_ := if matched then satAdd 64 t.matches_ 1 else t.matches_
    mismatches := if matched then t.mismatches else satAdd 64 t.mismatches 1 }

/-- A mismatch (R304): counted, marked for the next vote, both records logged, and the cause set. -/
def State.sigDiffers (p : Nat) (own peer : SigRec) (s : State) : State :=
  ((((s.updTwin p (Twin.compared s.now peer.step false)).updRun p fun r => { r with sig := true }).log (sigEntry p 0 own)).log (sigEntry p 1 peer)).raise
    .mismatch

/-- Compare a peer's record with an own one of the same step (R303, R304). -/
def State.compareSig (p : Nat) (own peer : SigRec) (s : State) : State :=
  if own.same peer then s.updTwin p (Twin.compared s.now own.step true) else s.sigDiffers p own peer

/-- A peer record is of a step that the package has not committed yet (R303). -/
def Partition.sigAhead (q : Partition) (r : SigRec) : Bool := q.tcb.committedStep == 2 ^ 64 - 1 || decide (q.tcb.committedStep < r.step)

/-- What stands for the own record when a mismatch finds that this package holds none: its signature is a FREE VALUE, log entry 52. -/
def Partition.staleRecord (q : Partition) : SigRec :=
  { patternId := q.image.patternId, step := q.tcb.committedStep, updates := q.tcb.updates, sig := (Config.staleSig q.tcb.committedStep).toNat }

/-- A peer's signature record arrives at a bound partition (R303): compared, held, or, of a lower step without a record, a mismatch. -/
def State.takeSig (p : Nat) (r : SigRec) (s : State) : State :=
  let q := s.getPart p
  match q.twin.own.find? fun o => o.step == r.step with
  | some o => s.compareSig p o r
  | none =>
    if q.sigAhead r then s.updTwin p fun t => { t with peer := t.peer ++ [r] }
    else s.sigDiffers p (q.twin.own.headD q.staleRecord) r

/-- After a commit of a bound partition: the signature is formed, is to be sent, and the peer's records held for this step and for lower ones are judged
(R299, R303). -/
def State.formSignature (p : Nat) (s : State) : State :=
  let r := s.sigRecord p
  let s1 := s.updTwin p fun t =>
    { t with own := r :: t.own.take 1, peer := t.peer.filter fun y => decide (r.step < y.step), due := some s.stitch, sentAt := none, waiting := true }
  forAll ((s.getPart p).twin.peer.filter fun y => decide (y.step ≤ r.step)) (State.takeSig p) s1

/-- SIGNATURE_SEND (R301, R302): when hashing after a commit is done. -/
def State.signatureSend (p : Nat) (s : State) : State :=
  let t := (s.getPart p).twin
  match t.due, t.own with
  | some _, r :: _ =>
    if t.state ≠ .bound then s
    else
      (s.sendTwin { dst := s.here, src := s.here, part := p, kind := 0xA, vl := 2, payload := r.bytes s.twinIndex }).updTwin p fun t =>
        { t with due := none, sentAt := if t.waiting then some s.stitch else none }
  | _, _ => s

/-- SIGNATURE_SEND. -/
def execSignatureSend (part : Nat) (s : State) : Host.Outcome State Fault Refusal := .next (s.signatureSend part)

/-- PEER_RECORD_DEADLINE (R305): the own record's stitch plus T. -/
def State.peerRecordDeadline (p : Nat) (s : State) : State :=
  let q := s.getPart p
  match q.twin.sentAt with
  | some k =>
    if q.twin.state = .bound ∧ q.twin.waiting ∧ k + q.image.collTimeout ≤ s.stitch then
      (s.updTwin p fun t => { t with timeouts := satAdd 64 t.timeouts 1 }).becomeSolo p
    else s
  | none => s

/-- PEER_RECORD_DEADLINE. -/
def execPeerRecordDeadline (part : Nat) (s : State) : Host.Outcome State Fault Refusal := .next (s.peerRecordDeadline part)

/-- TWIN_SIG_FRAME (R303, R305, R391): ARG 0 a signature record, 1 a command for channel 2, 2 a reply for the channel 1 ring. -/
def State.twinSigFrame (f : Frame) (s : State) : State :=
  if f.kind ≠ 0xA then s
  else match s.arrives 12 f with
    | (false, s1) => s1
    | (true, s1) =>
      if f.arg = 1 then s1.latchPacket 2 f.payload .twin
      else if f.arg = 2 then s1.ringRecord 1 3 s.here 0 f.payload
      else if (s1.getPart f.part).twin.state = .bound then s1.takeSig f.part (sigParse f.payload)
      else s1

/-- TWIN_SIG_FRAME. -/
def execTwinSigFrame (frame : Frame) (s : State) : Host.Outcome State Fault Refusal := .next (s.twinSigFrame frame)

/-! ### The copy of a rejoin (R356 to R359) -/

/-- A piece of the copy set: space, offset, bytes. -/
structure CopyPiece where
  space : Nat
  off : Nat
  bytes : List Byte
deriving DecidableEq, Repr, Inhabited

/-- The copy set in order: the live TCB, the ring slots of updates t and t - 1, and every signature region outside the ring (R356). -/
def State.copySet (s : State) (p : Nat) : List CopyPiece :=
  let q := s.getPart p
  let t := q.tcb
  let slot (u : Nat) : CopyPiece :=
    let o := t.ringOffset + u % 3 * t.slotBytes
    { space := 2, off := o, bytes := s.far.readN (s.spaceAt p 2 o) t.slotBytes }
  [{ space := 1, off := 0, bytes := t.bytes }, slot t.updates] ++ (if t.updates = 0 then [] else [slot (t.updates - 1)])
    ++ (q.image.regions.filter fun r => !t.inRing r.space r.offset).map fun r =>
      { space := r.space, off := r.offset, bytes := s.far.readN (s.spaceAt p r.space r.offset) r.length }

/-- The pieces cut into the data of single frames, of at most 14,816 bytes (R357). -/
def cutPieces (ps : List CopyPiece) : List CopyPiece :=
  ps.flatMap fun x => (List.range (cdiv x.bytes.length 14816)).map fun i =>
    { space := x.space, off := x.off + 14816 * i, bytes := (x.bytes.drop (14816 * i)).take 14816 }

/-- A TWIN_COPY frame (R357). -/
def State.copyFrame (s : State) (p seq : Nat) (x : CopyPiece) : Frame :=
  { dst := s.here, src := s.here, part := p, kind := 0xB, vl := 3,
    payload := record 16 [⟨0, 8, x.off⟩, ⟨8, 1, x.space⟩, ⟨12, 4, seq⟩] ++ x.bytes }

/-- The donor sends its copy set, and the end frame with PATTERN_ID, TOTAL_BYTES, NEXT_STEP and UPDATES (R356, R357, R360). -/
def State.sendCopy (p : Nat) (s : State) : State :=
  let q := s.getPart p
  let ps := cutPieces (s.copySet p)
  let total := (ps.map fun x => x.bytes.length).sum
  let ends := leBytes 8 q.image.patternId ++ leBytes 8 total ++ leBytes 8 (q.tcb.stepBase + q.run.step + 1) ++ leBytes 8 q.tcb.updates
  let last : CopyPiece := { space := 0xFE, off := 0, bytes := ends }
  let all := ps ++ [last]
  forAll (List.range all.length) (fun i s => s.sendTwin (s.copyFrame p i (nth default all i)))
    (s.updTwin p fun t => { t with copy := .sending, copyBytes := total, copyDone := 0 })

/-- DONOR_COPY_DEADLINE (R359): at B(N+1) the copy has not ended. -/
def State.donorCopyDeadline (p : Nat) (s : State) : State :=
  let q := s.getPart p
  let late : Bool := match q.run.next with | some b => decide (b ≤ s.stitch) | none => !q.run.decided
  if q.twin.copy = .sending ∧ late then s.copyFails p else s

/-- DONOR_COPY_DEADLINE. -/
def execDonorCopyDeadline (part : Nat) (s : State) : Host.Outcome State Fault Refusal := .next (s.donorCopyDeadline part)

/-- The data of a frame land at the same offset of this partition (R358); what lies outside the partition is dropped. -/
def State.landCopy (p space off : Nat) (bs : List Byte) (s : State) : State :=
  let q := s.getPart p
  let s1 := s.updTwin p fun t => { t with copy := .receiving, copyDone := satAdd 64 t.copyDone bs.length, copyBytes := satAdd 64 t.copyBytes bs.length }
  if (space = 1 ∨ space = 2) ∧ off + bs.length ≤ q.spaceSize space then { s1 with far := s1.far.writeN (s1.spaceAt p space off) bs } else s1

/-- The first frame of a copy starts its byte count. -/
def Twin.copyStarts (t : Twin) : Twin := { t with copy := .receiving, copyBytes := 0, copyDone := 0 }

/-- The end frame (R358): PATTERN_ID and the byte count are checked, NEXT_STEP goes into STEP_BASE of the landed TCB, and the copy is
complete. -/
def State.endCopy (p : Nat) (d : List Byte) (s : State) : State :=
  let q := s.getPart p
  if fld d 0 8 = q.image.patternId ∧ fld d 8 8 = q.twin.copyDone then
    (State.updTwin p (fun t => { t with copy := .complete })
      { s with far := s.far.writeN (s.spaceAt p 1 0x40) (leBytes 8 (fld d 16 8)) }).raise .copyDone
  else (s.updTwin p fun t => { t with copy := .failed }).raise .copyFail

/-- TWIN_COPY_FRAME (R357, R358): accepted only for a bound partition whose pattern is LOADED. -/
def State.twinCopyFrame (f : Frame) (s : State) : State :=
  if f.kind ≠ 0xB then s
  else match s.arrives 12 f with
    | (false, s1) => s1
    | (true, s1) =>
      let p := f.part
      let q := s1.getPart p
      if q.twin.state ≠ .bound ∨ q.pat ≠ .loaded then s1.updTwin p fun t => { t with discarded := satAdd 32 t.discarded 1 }
      else
        let d := f.payload.drop 16
        if fld f.payload 8 1 = 0xFE then s1.endCopy p d
        else (if fld f.payload 12 4 = 0 then s1.updTwin p Twin.copyStarts else s1).landCopy p (fld f.payload 8 1) (fld f.payload 0 8) d

/-- TWIN_COPY_FRAME. -/
def execTwinCopyFrame (frame : Frame) (s : State) : Host.Outcome State Fault Refusal := .next (s.twinCopyFrame frame)

end Sys2Proof.Machine
end

