-- ==== Sys2Proof/Machine/Votes.lean ====
section
/-! DEFINITION. The end of a step: STEP.COMMIT, the vote and its exchange, the timeout, the decision with the loss-scale controller, the
state ring and the next base, and the twin acts (R134, R135, R138, R162 to R175, R297, R299, R355, R356). -/

namespace Sys2Proof.Machine

/-! ### Vote records (R164) -/

/-- The 64 bytes of a vote record. -/
def Vote.bytes (v : Vote) : List Byte :=
  record 64 [⟨0, 8, v.step⟩, ⟨8, 8, v.issue⟩, ⟨0x10, 4, v.slip⟩,
    ⟨0x14, 4, b2n v.finite + 2 * b2n v.void + 4 * b2n v.abort + 8 * b2n v.mem + 16 * b2n v.sig⟩, ⟨0x18, 8, v.gradConv⟩, ⟨0x20, 8, v.gradUnf⟩]
/-- The vote record that bytes spell. -/
def voteParse (b : List Byte) : Vote :=
  let f := fld b 0x14 4
  { step := fld b 0 8, issue := fld b 8 8, slip := fld b 0x10 4, finite := bit f 0, void := bit f 1, abort := bit f 2, mem := bit f 3, sig := bit f 4
    gradConv := fld b 0x18 8, gradUnf := fld b 0x20 8 }
/-- Two votes of one step combined (R164). -/
def Vote.join (a b : Vote) : Vote :=
  { step := a.step, issue := max a.issue b.issue, slip := max a.slip b.slip, finite := a.finite && b.finite, void := a.void || b.void
    abort := a.abort || b.abort, mem := a.mem || b.mem, sig := a.sig || b.sig, gradConv := satAdd 64 a.gradConv b.gradConv
    gradUnf := satAdd 64 a.gradUnf b.gradUnf }

/-! ### STEP_COMMIT (R162, R163) -/

/-- STEP_COMMIT: issued once by each warden, also after an abort; the warden stalls on it until its earliest start. -/
def State.stepCommit (f w es : Nat) (s : State) : State :=
  match s.unitRuns f (unitPinnule (wardenPinnule w)) with
  | some (p, _) =>
    if (s.waitOf f w).isSome ∨ (s.getPart p).run.committed.contains (16 * f + w) then s
    else if s.esReached p es then s.commitBy p f w es
    else s.setWait f w (some (.commit es))
  | none => s

/-- STEP_COMMIT. -/
def execStepCommit (frond warden es : Nat) (s : State) : Host.Outcome State Fault Refusal := .next (s.stepCommit frond warden es)

/-! ### The decision (R167, R170, R172) -/

/-- The non-finite branch of the loss-scale controller, with the skip's counts. -/
def Tcb.skipNonfinite (t : Tcb) : Tcb :=
  { t with scaleExp := max (t.scaleExp - 1) t.scaleMin, cleanRun := 0, skipRun := min (t.skipRun + 1) 255
           skipsNonfinite := satAdd 64 t.skipsNonfinite 1, lastOutcome := 2 }
/-- Early growth: a long enough clean run and a large enough underflow share (R172). -/
def Tcb.early (t : Tcb) (v : Vote) (run : Nat) : Bool :=
  t.earlyRun != 0 && decide (t.earlyRun ≤ run) && decide (v.gradConv ≤ v.gradUnf * 2 ^ t.earlyShareExp) && v.gradConv != 0
/-- An FP32 product, rounded once. -/
def mulWord (a b : Word) : Word := fpBin .mul false false a b
/-- The clean branch of the controller, and the commit of step n (R167). -/
def Tcb.commit (t : Tcb) (v : Vote) (n : Nat) : Tcb :=
  let run := satAdd 32 t.cleanRun 1
  let grow := decide (t.growth ≤ run) || t.early v run
  { t with scaleExp := if grow then min (t.scaleExp + 1) t.scaleMax else t.scaleExp, cleanRun := if grow then 0 else run, skipRun := 0
           updates := satAdd 64 t.updates 1, committedStep := (t.stepBase + n) % 2 ^ 64, b1Pow := mulWord t.b1Pow t.beta1
           b2Pow := mulWord t.b2Pow t.beta2, commits := satAdd 64 t.commits 1, lastOutcome := 1 }

/-- The outcomes of R167. -/
inductive Outcome where
  | fail (st : Status)
  | voidSkip
  | skip
  | commit
deriving DecidableEq, Repr

/-- The first row of R167 whose condition holds. -/
def Vote.outcome (v : Vote) : Outcome :=
  if v.sig then .fail .signatureMismatch
  else if v.abort then .fail .collAbort
  else if v.mem then .fail .internal
  else if v.void then .voidSkip
  else if !v.finite then .skip
  else .commit

/-- Status reported for an outcome. -/
def Outcome.status : Outcome → Status
  | .fail st => st
  | .voidSkip => .stepSkipped
  | .skip => .stepSkipped
  | .commit => .ok

/-- The live TCB after an outcome of step n. -/
def Outcome.tcb (o : Outcome) (v : Vote) (n : Nat) (t : Tcb) : Tcb :=
  match o with
  | .fail _ => { t with lastOutcome := 4 }
  | .voidSkip => { t with skipsVoid := satAdd 64 t.skipsVoid 1, lastOutcome := 3 }
  | .skip => t.skipNonfinite
  | .commit => t.commit v n

/-- The base of the next step (R135). -/
def nextBase (i : Image) (r : Run) (v : Vote) : Nat :=
  if v.slip ≤ i.slipBudget then r.base + i.stepStitches else max (r.base + i.stepStitches) (v.issue + i.realignLead)

/-- The run after a decision (R135, R138, R168). A failed step has no next one. -/
def Run.decide_ (i : Image) (v : Vote) (o : Outcome) (r : Run) : Run :=
  { r with
    decided := true, fN := v.issue, maxSlip := max r.maxSlip v.slip, last := some o.status, sent := none, children := []
    next := match o with | .fail _ => none | _ => if i.steps = r.step + 1 then none else some (nextBase i r v)
    realigned := decide (i.slipBudget < v.slip) }

/-- Write the live TCB into the header of the slot that has become current, the rest of its 4 KiB zero (R169, R170). -/
def State.ringHeader (p : Nat) (s : State) : State :=
  let t := (s.getPart p).tcb
  if t.slotBytes = 0 then s
  else { s with far := s.far.writeN (s.spaceAt p 2 (t.ringOffset + t.updates % 3 * t.slotBytes)) (slice t.bytes 0 4096) }

/-- A halt of a pattern that has no entry of its own in the log (R430). -/
def State.loggedHalt (p : Nat) (st : Status) (s : State) : State := (s.log { kind := 4, code := st, part := p }).haltDue p st

/-- The failure of a step has its entries in the log of this package already: a mismatch that its own vote carried, or an instance aborted here (R297,
R304, R430). A failure that comes from other packages only has none. -/
def Partition.faultLogged (q : Partition) (v : Vote) : Bool :=
  if v.sig then (match q.run.sent with | some (own, _) => own.sig | none => false) else v.abort && q.colls.any (·.settled)

/-- Causes and halts of an outcome (R167, R168, R172, R430). 'known' says that the log has the failure already. -/
def State.outcomeActs (p : Nat) (known : Bool) (o : Outcome) (s : State) : State :=
  match o with
  | .fail st => (if known then s.haltDue p st else s.loggedHalt p st).raise .stepFail
  | .voidSkip => s.raise .void
  | .skip =>
    let t := (s.getPart p).tcb
    let s1 := s.raise .skip
    if t.skipHalt ≠ 0 ∧ t.skipHalt ≤ t.skipRun then (s1.loggedHalt p .stepSkipped).raise .skipHalt else s1
  | .commit => s.ringHeader p

/-- A twin announcement acts at the decision of its step (R355, R356): 1 SHED, 2 SOLO, 3 DONOR, which every package of the donor fabric takes, whatever
became of its own partition's comparison. -/
def State.twinAct (p : Nat) (o : Outcome) (act : Nat × Nat × Nat) (s : State) : State :=
  let q := s.getPart p
  if act.1 = 1 then
    let s1 := (s.updTwin p Twin.quiet).haltDue p .ok
    { s1 with aon := { s1.aon with parkDue := true } }
  else if act.1 = 2 then (if q.twin.state = .bound then s.becomeSolo p else s)
  else
    match o with
    | .fail _ => s
    | _ =>
      ((s.updRun p fun r => { r with next := r.next.map fun b => max b (r.fN + act.2.2) }).sendCopy p).updTwin p fun t =>
        { t with rebind := some (q.run.step + 1) }

/-- The twin announcements whose step this is: its base is at or after EFFECTIVE (R355). -/
def Partition.actsDue (q : Partition) : List (Nat × Nat × Nat) := q.twin.acts.filter fun a => decide (a.2.1 ≤ q.run.base)

/-- Apply the twin announcements of the step. -/
def State.twinActs (p : Nat) (o : Outcome) (s : State) : State :=
  let q := s.getPart p
  forAll q.actsDue (State.twinAct p o) (s.updTwin p fun t => { t with acts := t.acts.filter fun a => !decide (a.2.1 ≤ q.run.base) })

/-- A commit of a bound partition forms a signature, unless a SHED acts at the step (R299, R355). -/
def State.commitSignature (p : Nat) (o : Outcome) (shed : Bool) (s : State) : State :=
  match o with
  | .commit => if (s.getPart p).twin.state = .bound ∧ !shed then s.formSignature p else s
  | _ => s

/-- The decision of step N (R167): outcome, TCB and its copy in HBM (R159), statistics latch, ring, twin acts, signature, the end of STEPS, and the OUTCOME
doorbell. -/
def State.decideStep (p : Nat) (v : Vote) (s : State) : State :=
  let q := s.getPart p
  let o := v.outcome
  let n := q.run.step
  let s1 := (s.updPart p fun q =>
    { q with tcb := o.tcb v n q.tcb, run := q.run.decide_ q.image v o, arithStep := (n, q.arithNow) }).copyTcb p
  let s2 := (s1.outcomeActs p (q.faultLogged v) o).twinActs p o
  let s3 := s2.commitSignature p o (q.actsDue.any fun a => a.1 == 1)
  let s4 := if q.image.steps = n + 1 then s3.haltDue p o.status else s3
  s4.ringHost (4 + p) 4

/-! ### Forming and sending the vote (R162, R165, R166, R297) -/

/-- What holds a vote that has been formed: an aborted instance before D + 1,024 (R297), or a signature comparison (R166). -/
def Partition.voteHeld (q : Partition) : Bool := q.colls.any (fun c => c.aborted && !c.settled) || (q.twin.state == .bound && q.twin.waiting)

/-- The own vote of the step. -/
def Partition.ownVote (q : Partition) : Vote :=
  let r := q.run
  { step := r.step, issue := r.issue.getD 0, slip := r.slip, finite := r.finite, void := r.void, abort := r.abort, mem := r.mem, sig := r.sig
    gradConv := r.gradConv, gradUnf := r.gradUnf }

/-- Send a vote record to a member of the job-box tree. -/
def State.sendVote (p : Nat) (v : Vote) (d : Coord) (s : State) : State :=
  s.inject { dst := d, src := s.here, part := p, kind := 4, vl := 2, payload := v.bytes }

/-- The combined record goes down the tree, and the step is decided. -/
def State.voteDown (p : Nat) (v : Vote) (s : State) : State :=
  (forAll ((s.getPart p).image.jobGroup.children s.here) (fun d s => s.sendVote p v d) s).decideStep p v

/-- With the own vote sent and every child's vote there: up to the parent, or the decision at the root. -/
def State.voteUp (p : Nat) (s : State) : State :=
  let q := s.getPart p
  let g := q.image.jobGroup
  match q.run.sent with
  | none => s
  | some (own, _) =>
    if q.run.passed || q.run.decided || !(g.children s.here).all (fun d => q.run.children.any fun c => c.1 == d) then s
    else
      let v := (q.run.children.map (·.2)).foldl Vote.join own
      match g.parent s.here with
      | none => s.voteDown p v
      | some d => (s.updRun p fun r => { r with passed := true }).sendVote p v d

/-- VOTE_SEND (R162, R166, R297): the vote is formed once its conditions hold, and it is sent once nothing holds it. -/
def State.voteSend (p : Nat) (s : State) : State :=
  let q := s.getPart p
  if q.pat ≠ .running ∨ q.run.decided ∨ q.run.sent.isSome ∨ q.run.halt.isSome ∨ !s.voteForms p then s
  else
    let s1 := s.updRun p fun r => { r with issue := some (r.issue.getD s.stitch) }
    if q.voteHeld then s1
    else (s1.updRun p fun r => { r with sent := some ((s1.getPart p).ownVote, s.stitch), sig := false }).voteUp p

/-- VOTE_SEND. -/
def execVoteSend (part : Nat) (s : State) : Host.Outcome State Fault Refusal := .next (s.voteSend part)

/-- A vote record of the step arrives: from the parent the combined one, from a child the one of its subtree (R164). -/
def State.takeVote (p : Nat) (v : Vote) (src : Coord) (s : State) : State :=
  let q := s.getPart p
  let g := q.image.jobGroup
  if g.parent s.here = some src then (if q.run.passed ∧ q.run.sent.isSome then s.voteDown p v else s)
  else if (g.children s.here).contains src && !q.run.children.any (fun c => c.1 == src) then
    (s.updRun p fun r => { r with children := r.children ++ [(src, v)] }).voteUp p
  else s

/-- VOTE_FRAME (R164, R165): a record whose STEP differs is discarded. -/
def State.voteFrame (port : Nat) (f : Frame) (s : State) : State :=
  if f.kind ≠ 4 ∨ f.arg ≠ 0 ∨ f.dst ≠ s.here then s
  else match s.arrives port f with
    | (false, s1) => s1
    | (true, s1) =>
      let q := s1.getPart f.part
      let v := voteParse f.payload
      if q.pat ≠ .running ∨ q.run.decided ∨ v.step ≠ q.run.step then s1 else s1.takeVote f.part v f.src

/-- VOTE_FRAME. -/
def execVoteFrame (port : Nat) (frame : Frame) (s : State) : Host.Outcome State Fault Refusal := .next (s.voteFrame port frame)

/-- The member named by a vote timeout (R165): the first child in tree order whose vote has not come, else the parent. -/
def State.missingVoter (s : State) (p : Nat) : Coord :=
  let q := s.getPart p
  let g := q.image.jobGroup
  ((g.children s.here).find? fun d => !q.run.children.any fun c => c.1 == d).getD ((g.parent s.here).getD s.here)

/-- VOTE_TIMEOUT (R165): COLL_TIMEOUT stitches after the vote was sent, without the combined record; the exchange has failed, so the halt
may take effect (R127). -/
def State.voteTimeout (p : Nat) (s : State) : State :=
  let q := s.getPart p
  match q.run.sent with
  | some (_, k) =>
    if q.pat = .running ∧ !q.run.decided ∧ k + q.image.collTimeout ≤ s.stitch then
      let d := s.missingVoter p
      let a : Abort := { step := q.run.step, group := 0xFFFF, inst := 0, progress := 0, rank := q.image.jobGroup.rank d, member := d }
      let kept (r : Run) : Bool := match r.abortAt with | some x => x.2.2 == r.step | none => false
      let s1 := s.updRun p fun r =>
        { r with sent := none, passed := true, abortAt := if kept r then r.abortAt else some (d, a.rank, r.step) }
      (s1.log (abortEntry p a)).haltDue p .collAbort
    else s
  | none => s

/-- VOTE_TIMEOUT. -/
def execVoteTimeout (part : Nat) (s : State) : Host.Outcome State Fault Refusal := .next (s.voteTimeout part)

/-! ### Issues (R129, R130) -/

/-- WARDEN_ISSUE (R130, R133): an instruction that carries an ES issues once its stitch is reached and its tokens are raised; until then
its warden stalls on it. -/
def State.wardenIssue (f w es : Nat) (tokens : List (Nat × Nat)) (s : State) : State :=
  match s.issuer f w with
  | some (p, _) =>
    if s.esReached p es ∧ tokens.all (fun t => s.tokenAt f t.1 t.2) then s.recordIssue p es else s.setWait f w (some (.issue es tokens))
  | none => s

/-- WARDEN_ISSUE. -/
def execWardenIssue (frond warden es : Nat) (tokens : List (Nat × Nat)) (s : State) : Host.Outcome State Fault Refusal :=
  .next (s.wardenIssue frond warden es tokens)

/-- STITCH_WAIT (R129): the offset is in an integer register of the warden. -/
def execStitchWait (frond warden reg : Nat) (s : State) : Host.Outcome State Fault Refusal :=
  .next (s.wardenIssue frond warden ((s.getFrond frond).iget (wardenPinnule warden) reg).toNat [])

/-! ### MICRO_BATCH_INPUT_READ (R151, R152) -/

/-- Zero-fill one landing buffer, given as logical frond, address of token 0 and bytes of a token, from token lo up to token hi. -/
def State.zeroLanding (p lo hi : Nat) (b : Nat × Nat × Nat) (s : State) : State :=
  match s.physical p b.1 with
  | some f =>
    if b.2.1 + b.2.2 * hi ≤ 3670016 then { s with store := s.store.zero (storeKey f (b.2.1 + b.2.2 * lo)) (b.2.2 * (hi - lo)) } else s
  | none => s

/-- A length fault (R152): the void mark of the step, and the DATA entry of the log. -/
def State.lengthFault (p e maxTokens tokens : Nat) (s : State) : State :=
  (s.updRun p fun r => { r with void := true }).log
    { kind := 7, code := .stepSkipped, part := p, detail := [⟨0, 2, e⟩, ⟨4, 4, maxTokens⟩, ⟨8, 8, tokens⟩] }

/-- TOKENS as taken goes to pattern code: into its places, given as logical frond and address; where pattern code keeps it is its own (R151; log entry
85). -/
def State.passTokens (p t : Nat) (b : Nat × Nat) (s : State) : State :=
  match s.physical p b.1 with
  | some f => if b.2 + 8 ≤ 3670016 then s.fsWrite f b.2 (leBytes 8 t) else s
  | none => s

/-- MICRO_BATCH_INPUT_READ (R151, R152): the first stage reads TOKENS of an entry's record once in a step. -/
def State.microBatchInputRead (p e : Nat) (landing : List (Nat × Nat × Nat)) (places : List (Nat × Nat)) (s : State) : State :=
  let q := s.getPart p
  match q.image.slots[e]? with
  | some x =>
    if q.pat ≠ .running ∨ !(bit q.image.slotFlags 0) ∨ Tab.get 0 q.tokens e ≠ 0 then s
    else
      let n := leNat (s.far.readN (q.hbmBase + x.input) 8)
      let t := if n ≤ x.maxTokens then n else 0
      let s1 := forAll places (State.passTokens p t)
        (forAll landing (State.zeroLanding p t x.maxTokens) (s.updPart p fun q => { q with tokens := Tab.set 0 q.tokens e (t + 1) }))
      if n ≤ x.maxTokens then s1 else s1.lengthFault p e x.maxTokens n
  | none => s

/-- MICRO_BATCH_INPUT_READ. -/
def execMicroBatchInputRead (part entry : Nat) (landing : Landing) (s : State) : Host.Outcome State Fault Refusal :=
  .next (s.microBatchInputRead part entry landing.ranges landing.places)

end Sys2Proof.Machine
end

