-- ==== Sys2Proof/Machine/Dispatch.lean ====
section
/-! DEFINITION. exec: one arm per command of the opcode table, each one direct call of its meaning. -/

namespace Sys2Proof.Machine

/-- What a command does to everything but the queue (95_what_each_step_holds.md: each row is one whole step). -/
def exec (i : Instr) (s : State) : Host.Outcome State Fault Refusal :=
  match i with
  | .vaonRise => Sys2Proof.Machine.execVaonRise s
  | .vaonFall => Sys2Proof.Machine.execVaonFall s
  | .pwrOkFall => Sys2Proof.Machine.execPwrOkFall s
  | .pkgResetNAssert => Sys2Proof.Machine.execPkgResetNAssert s
  | .pkgResetNRelease strap tj => Sys2Proof.Machine.execPkgResetNRelease strap tj s
  | .perstNAssert => Sys2Proof.Machine.execPerstNAssert s
  | .functionLevelReset => Sys2Proof.Machine.execFunctionLevelReset s
  | .railFault rail => Sys2Proof.Machine.execRailFault rail s
  | .avsbusSettleTimeout rail => Sys2Proof.Machine.execAvsbusSettleTimeout rail s
  | .tapOperation op => Sys2Proof.Machine.execTapOperation op s
  | .thermalSample readings => Sys2Proof.Machine.execThermalSample readings s
  | .thermalComparatorTrip reading => Sys2Proof.Machine.execThermalComparatorTrip reading s
  | .lThermRise => Sys2Proof.Machine.execLThermRise s
  | .selftestPhaseEnd report => Sys2Proof.Machine.execSelftestPhaseEnd report s
  | .selftestPhaseTimeout => Sys2Proof.Machine.execSelftestPhaseTimeout s
  | .dieRelease => Sys2Proof.Machine.execDieRelease s
  | .diePllLock ring => Sys2Proof.Machine.execDiePllLock ring s
  | .hubLinkUp ring => Sys2Proof.Machine.execHubLinkUp ring s
  | .capabilityReply ring tag block => Sys2Proof.Machine.execCapabilityReply ring tag block s
  | .capabilityQueryTimeout ring => Sys2Proof.Machine.execCapabilityQueryTimeout ring s
  | .dieFirmwareLoaded ring => Sys2Proof.Machine.execDieFirmwareLoaded ring s
  | .halfPartnerLinkUp half => Sys2Proof.Machine.execHalfPartnerLinkUp half s
  | .bringupTimeout which => Sys2Proof.Machine.execBringupTimeout which s
  | .ucieFlitCrcRetry link => Sys2Proof.Machine.execUcieFlitCrcRetry link s
  | .dieLinkTrainingLoss link => Sys2Proof.Machine.execDieLinkTrainingLoss link s
  | .dieLinkRetrainDone link => Sys2Proof.Machine.execDieLinkRetrainDone link s
  | .dieLinkLost link => Sys2Proof.Machine.execDieLinkLost link s
  | .partCreate ch => Sys2Proof.Machine.execPartCreate ch s
  | .partCreateFillDone part => Sys2Proof.Machine.execPartCreateFillDone part s
  | .partDestroy ch => Sys2Proof.Machine.execPartDestroy ch s
  | .partQuery ch => Sys2Proof.Machine.execPartQuery ch s
  | .patternLoad ch => Sys2Proof.Machine.execPatternLoad ch s
  | .patternAdmit ch => Sys2Proof.Machine.execPatternAdmit ch s
  | .admissionTurn host hbmError => Sys2Proof.Machine.execAdmissionTurn host hbmError s
  | .patternStart ch => Sys2Proof.Machine.execPatternStart ch s
  | .patternHalt ch => Sys2Proof.Machine.execPatternHalt ch s
  | .patternStatus ch => Sys2Proof.Machine.execPatternStatus ch s
  | .powerTarget ch => Sys2Proof.Machine.execPowerTarget ch s
  | .rateSet ch => Sys2Proof.Machine.execRateSet ch s
  | .powerReport ch => Sys2Proof.Machine.execPowerReport ch s
  | .domainQuery ch => Sys2Proof.Machine.execDomainQuery ch s
  | .linkProfile ch => Sys2Proof.Machine.execLinkProfile ch s
  | .linkPlan ch => Sys2Proof.Machine.execLinkPlan ch s
  | .linkReport ch => Sys2Proof.Machine.execLinkReport ch s
  | .selvageSet ch => Sys2Proof.Machine.execSelvageSet ch s
  | .selvageApply => Sys2Proof.Machine.execSelvageApply s
  | .routeTableLoad ch => Sys2Proof.Machine.execRouteTableLoad ch s
  | .statsRead ch => Sys2Proof.Machine.execStatsRead ch s
  | .congestionMap ch => Sys2Proof.Machine.execCongestionMap ch s
  | .congestionMapTimeout => Sys2Proof.Machine.execCongestionMapTimeout s
  | .faultLogRead ch => Sys2Proof.Machine.execFaultLogRead ch s
  | .ctxOpen ch => Sys2Proof.Machine.execCtxOpen ch s
  | .ctxClose ch => Sys2Proof.Machine.execCtxClose ch s
  | .ctxQuota ch => Sys2Proof.Machine.execCtxQuota ch s
  | .batchPolicy ch => Sys2Proof.Machine.execBatchPolicy ch s
  | .selftestReport ch => Sys2Proof.Machine.execSelftestReport ch s
  | .selftestRun ch => Sys2Proof.Machine.execSelftestRun ch s
  | .twinBind ch => Sys2Proof.Machine.execTwinBind ch s
  | .twinShed ch => Sys2Proof.Machine.execTwinShed ch s
  | .twinRejoin ch => Sys2Proof.Machine.execTwinRejoin ch s
  | .twinStatus ch => Sys2Proof.Machine.execTwinStatus ch s
  | .memRegulate ch => Sys2Proof.Machine.execMemRegulate ch s
  | .memRegulateApply => Sys2Proof.Machine.execMemRegulateApply s
  | .memFill ch => Sys2Proof.Machine.execMemFill ch s
  | .memFillPieceDone part piece result => Sys2Proof.Machine.execMemFillPieceDone part piece result s
  | .faultPolicy ch => Sys2Proof.Machine.execFaultPolicy ch s
  | .fwInfo ch => Sys2Proof.Machine.execFwInfo ch s
  | .parkedWakeDone => Sys2Proof.Machine.execParkedWakeDone s
  | .parkedEntry => Sys2Proof.Machine.execParkedEntry s
  | .registerWrite a value host => Sys2Proof.Machine.execRegisterWrite a value host s
  | .dbRingSubmit a value records => Sys2Proof.Machine.execDbRingSubmit a value records s
  | .dbRingRxpost a value => Sys2Proof.Machine.execDbRingRxpost a value s
  | .dbClear a value => Sys2Proof.Machine.execDbClear a value s
  | .rxTailWrite a value buffers => Sys2Proof.Machine.execRxTailWrite a value buffers s
  | .rxCtrlWrite a value => Sys2Proof.Machine.execRxCtrlWrite a value s
  | .rxringDropRead a => Sys2Proof.Machine.execRxringDropRead a s
  | .stitchBoundary => Sys2Proof.Machine.execStitchBoundary s
  | .patternRunStart part => Sys2Proof.Machine.execPatternRunStart part s
  | .patternHaltEffect part => Sys2Proof.Machine.execPatternHaltEffect part s
  | .stepBegin part => Sys2Proof.Machine.execStepBegin part s
  | .announcementApply => Sys2Proof.Machine.execAnnouncementApply s
  | .localRateApply => Sys2Proof.Machine.execLocalRateApply s
  | .announcementForget origin seq => Sys2Proof.Machine.execAnnouncementForget origin seq s
  | .rateStep => Sys2Proof.Machine.execRateStep s
  | .rateWakeLead => Sys2Proof.Machine.execRateWakeLead s
  | .syncRound departures => Sys2Proof.Machine.execSyncRound departures s
  | .syncReceive port payload arrival => Sys2Proof.Machine.execSyncReceive port payload arrival s
  | .followReceive port payload => Sys2Proof.Machine.execFollowReceive port payload s
  | .counterRaise => Sys2Proof.Machine.execCounterRaise s
  | .bringupAttempt port => Sys2Proof.Machine.execBringupAttempt port s
  | .laneLock port lane => Sys2Proof.Machine.execLaneLock port lane s
  | .trainTimeout port => Sys2Proof.Machine.execTrainTimeout port s
  | .alignFlit port lane payload arrival departure => Sys2Proof.Machine.execAlignFlit port lane payload arrival departure s
  | .alignTimeout port => Sys2Proof.Machine.execAlignTimeout port s
  | .identFlit port lane payload => Sys2Proof.Machine.execIdentFlit port lane payload s
  | .identTimeout port => Sys2Proof.Machine.execIdentTimeout port s
  | .laneSignalLoss port lane => Sys2Proof.Machine.execLaneSignalLoss port lane s
  | .planCheck => Sys2Proof.Machine.execPlanCheck s
  | .flitReceive port lane fec flit => Sys2Proof.Machine.execFlitReceive port lane fec flit s
  | .flowHoldExpiry port sch => Sys2Proof.Machine.execFlowHoldExpiry port sch s
  | .flowOffResend port sch => Sys2Proof.Machine.execFlowOffResend port sch s
  | .frameSend port => Sys2Proof.Machine.execFrameSend port s
  | .linkEvent port cause => Sys2Proof.Machine.execLinkEvent port cause s
  | .portRetrainDone port => Sys2Proof.Machine.execPortRetrainDone port s
  | .portLost port => Sys2Proof.Machine.execPortLost port s
  | .lostPortBringup port => Sys2Proof.Machine.execLostPortBringup port s
  | .routedForward port frame => Sys2Proof.Machine.execRoutedForward port frame s
  | .pdataFrame port frame => Sys2Proof.Machine.execPdataFrame port frame s
  | .collFrame port frame place => Sys2Proof.Machine.execCollFrame port frame place s
  | .commandFrame port frame => Sys2Proof.Machine.execCommandFrame port frame s
  | .voteFrame port frame => Sys2Proof.Machine.execVoteFrame port frame s
  | .abortRecord port frame => Sys2Proof.Machine.execAbortRecord port frame s
  | .voteTimeout part => Sys2Proof.Machine.execVoteTimeout part s
  | .broadcastFrame port frame => Sys2Proof.Machine.execBroadcastFrame port frame s
  | .creditFrame port frame => Sys2Proof.Machine.execCreditFrame port frame s
  | .creditSend source => Sys2Proof.Machine.execCreditSend source s
  | .windowTimeout part window => Sys2Proof.Machine.execWindowTimeout part window s
  | .fallbackFrame port frame => Sys2Proof.Machine.execFallbackFrame port frame s
  | .serveFrame port frame => Sys2Proof.Machine.execServeFrame port frame s
  | .batchSealDeadline part => Sys2Proof.Machine.execBatchSealDeadline part s
  | .telemetryRequest port frame => Sys2Proof.Machine.execTelemetryRequest port frame s
  | .telemetryReply port frame => Sys2Proof.Machine.execTelemetryReply port frame s
  | .twinSigFrame frame => Sys2Proof.Machine.execTwinSigFrame frame s
  | .twinCopyFrame frame => Sys2Proof.Machine.execTwinCopyFrame frame s
  | .signatureSend part => Sys2Proof.Machine.execSignatureSend part s
  | .peerRecordDeadline part => Sys2Proof.Machine.execPeerRecordDeadline part s
  | .donorCopyDeadline part => Sys2Proof.Machine.execDonorCopyDeadline part s
  | .wardenIssue frond warden es tokens => Sys2Proof.Machine.execWardenIssue frond warden es tokens s
  | .stitchWait frond warden reg => Sys2Proof.Machine.execStitchWait frond warden reg s
  | .aload frond warden cycle args => Sys2Proof.Machine.execAload frond warden cycle args s
  | .aloadRowResume frond cycle => Sys2Proof.Machine.execAloadRowResume frond cycle s
  | .swap frond warden cycle => Sys2Proof.Machine.execSwap frond warden cycle s
  | .astream frond warden cycle args => Sys2Proof.Machine.execAstream frond warden cycle args s
  | .astreamEnter frond cycle => Sys2Proof.Machine.execAstreamEnter frond cycle s
  | .vectorOperation frond warden op token => Sys2Proof.Machine.execVectorOperation frond warden op token s
  | .vectorReduction frond warden op f19 reg => Sys2Proof.Machine.execVectorReduction frond warden op f19 reg s
  | .vectorConversion frond warden cvt src dst block => Sys2Proof.Machine.execVectorConversion frond warden cvt src dst block s
  | .pinnuleInstruction frond pinnule slot offset op => Sys2Proof.Machine.execPinnuleInstruction frond pinnule slot offset op s
  | .pinnuleConversion frond pinnule slot offset cvt src dst => Sys2Proof.Machine.execPinnuleConversion frond pinnule slot offset cvt src dst s
  | .finchk frond pinnule arg => Sys2Proof.Machine.execFinchk frond pinnule arg s
  | .bob frond pinnule cycle key0 key1 c0 c1 c2 c3 q => Sys2Proof.Machine.execBob frond pinnule cycle key0 key1 c0 c1 c2 c3 q s
  | .raise frond pinnule token => Sys2Proof.Machine.execRaise frond pinnule token s
  | .stepCommit frond warden es => Sys2Proof.Machine.execStepCommit frond warden es s
  | .voteSend part => Sys2Proof.Machine.execVoteSend part s
  | .svRecv frond warden addr token => Sys2Proof.Machine.execSvRecv frond warden addr token s
  | .svSend frond warden dest destPart addr => Sys2Proof.Machine.execSvSend frond warden dest destPart addr s
  | .batchTake frond warden addr token => Sys2Proof.Machine.execBatchTake frond warden addr token s
  | .batchDone frond warden seq addr => Sys2Proof.Machine.execBatchDone frond warden seq addr s
  | .fbSend frond warden dest destPart addr length => Sys2Proof.Machine.execFbSend frond warden dest destPart addr length s
  | .mmSend frond warden record cycle args => Sys2Proof.Machine.execMmSend frond warden record cycle args s
  | .recvMm frond warden record cycle args => Sys2Proof.Machine.execRecvMm frond warden record cycle args s
  | .mmRs frond warden record cycle args => Sys2Proof.Machine.execMmRs frond warden record cycle args s
  | .agMm frond warden record cycle args => Sys2Proof.Machine.execAgMm frond warden record cycle args s
  | .mmAr frond warden record cycle args => Sys2Proof.Machine.execMmAr frond warden record cycle args s
  | .vecAr frond warden record => Sys2Proof.Machine.execVecAr frond warden record s
  | .fusedChunkSend frond record chunk => Sys2Proof.Machine.execFusedChunkSend frond record chunk s
  | .collectiveTimeout part group inst => Sys2Proof.Machine.execCollectiveTimeout part group inst s
  | .abortHoldExpiry part group inst => Sys2Proof.Machine.execAbortHoldExpiry part group inst s
  | .spoolStreamIssue frond warden addr => Sys2Proof.Machine.execSpoolStreamIssue frond warden addr s
  | .spoolBurstStart frond stream => Sys2Proof.Machine.execSpoolBurstStart frond stream s
  | .spoolBurstLanded frond stream burst ue ce => Sys2Proof.Machine.execSpoolBurstLanded frond stream burst ue ce s
  | .spoolSlotRelease frond stream => Sys2Proof.Machine.execSpoolSlotRelease frond stream s
  | .spoolWriteBurst frond stream => Sys2Proof.Machine.execSpoolWriteBurst frond stream s
  | .spoolWriteAccepted frond stream refused => Sys2Proof.Machine.execSpoolWriteAccepted frond stream refused s
  | .regulatorPiecePass part tier die bytes => Sys2Proof.Machine.execRegulatorPiecePass part tier die bytes s
  | .microBatchInputRead part entry landing => Sys2Proof.Machine.execMicroBatchInputRead part entry landing s
  | .hbmLaneFault channel lane kind => Sys2Proof.Machine.execHbmLaneFault channel lane kind s
  | .hbmLaneRetrain channel => Sys2Proof.Machine.execHbmLaneRetrain channel s
  | .hbmLaneRetrainDone channel => Sys2Proof.Machine.execHbmLaneRetrainDone channel s
  | .hbmRefresh stack pc => Sys2Proof.Machine.execHbmRefresh stack pc s
  | .pwrOkRise => Sys2Proof.Machine.execPwrOkRise s
  | .perstNRelease => Sys2Proof.Machine.execPerstNRelease s
  | .domainWakeDone domain => Sys2Proof.Machine.execDomainWakeDone domain s
  | .entdaa address => Sys2Proof.Machine.execEntdaa address s

end Sys2Proof.Machine
end

