-- ==== Sys2Proof/Safety.lean ====
section
/-! DEFINITION. The terms in which claims about the package are made: a command ready for its own part, a frame that may be delivered,
memory in canonical form, a log entry added, and an instruction's frond unit that runs. -/

namespace Sys2Proof.Machine

/-- Every byte memory of the package is in the one canonical form. -/
def State.memoriesCanonical (s : State) : Prop :=
  Memory.wf s.far ∧ Memory.wf s.store ∧ Memory.wf s.localStore ∧ Memory.wf s.bulk

/-- Channel ch holds command h of an opcode, it has not taken its first step and its turn has come, it is not to be forwarded, the checks 2 to 6 of R369
pass and its parameter block is b: what is left is the command's own part (R373). -/
def Commanded (s : State) (op ch : Nat) (h : Held) (b : List Byte) : Prop :=
  (s.getChan ch).held = some h ∧ h.opcode = op ∧ h.stepped = false ∧ s.turnOf ch h.tick = true ∧ h.forwards ch = false ∧
    (∃ i, opInfo op = some i ∧ s.checks i ch h = .pass) ∧ h.block = some b

/-- A frame that may be delivered from a port (R230, R256, R263): its kind belongs to its lane and its port, and the port is neither a
selvage port nor LOST. -/
def Deliverable (s : State) (p : Nat) (f : Frame) : Prop :=
  kindOk p f = true ∧ s.isSelvage p = false ∧ (s.getPort p).state ≠ .lost

/-- No command that BATCH_SEAL_DEADLINE, a STEP_REQ or a submit ring would let go first is held for partition p (R332). -/
def State.noneFirst (s : State) (p : Nat) : Prop :=
  ∀ ch h, ch = 1 ∨ ch = 4 + p → (s.getChan ch).held = some h → ¬ (h.part = p ∧ (h.opcode = 0x0602 ∨ h.opcode = 0x0604))

/-- No warden of the partition's fronds stalls on an instruction. -/
def State.noneStalls (s : State) (p : Nat) : Prop := ∀ f, f < 576 → (s.getPart p).groups.getLsbD (frondGroup f) = true → (s.getFrond f).wait = []

/-- The hub link to ring position r carries traffic and no control message to it waits (R20, R22). -/
def State.ctlGoes (s : State) (r : Nat) : Prop := s.dieLink r = .up ∧ Tab.get [] s.dies.odp (4 * r + 2) = []

/-- The n-byte words of a record from an offset are those of a function, each in its width. -/
def WordsAt (r : List Byte) (off w n : Nat) (f : Nat → Nat) : Prop := ∀ i, i < n → fld r (off + w * i) w = f i % 256 ^ w

/-- What a block of STATS_READ holds for partition p (11 *STATS_READ record lengths* and the blocks' own tables: R175, R159, R382, R202, R266, R306,
R333). OFFSET and MAX_OFFSET of block 8 are stated where the doubled difference is even (log entry 16). -/
def StatsRecord (s : State) (p block first count : Nat) (r : List Byte) : Prop :=
  let q := s.getPart p
  let arith (step : Nat) (a : Arith) : Prop := r.length = 832 ∧ fld r 8 8 = step % 2 ^ 64 ∧ fld r 0x10 8 = a.scaleRange % 2 ^ 64 ∧
    fld r 0x18 8 = a.finchk % 2 ^ 64 ∧ fld r 0x20 8 = a.nonfinite % 2 ^ 64 ∧ WordsAt r 64 8 96 (Tab.get 0 a.counts)
  (block ≠ 3 → nth 0 r 0 = BitVec.ofNat 8 block) ∧
  (block = 1 → arith q.run.step q.arith) ∧ (block = 2 → arith q.arithStep.1 q.arithStep.2) ∧ (block = 3 → r = q.tcb.bytes) ∧
  (block = 4 → r.length = 64 + 104 * count ∧ fld r 2 2 = first % 2 ^ 16 ∧ fld r 4 2 = count % 2 ^ 16 ∧
    ∀ i f, i < count → s.physical p (first + i) = some f → WordsAt r (64 + 104 * i) 8 13 (Tab.get 0 (s.getFrond f).counts)) ∧
  (block = 5 → r.length = 6272 ∧ WordsAt r 6208 1 12 (Tab.get 0 s.mem.spares) ∧
    ∀ i, i < 768 → fld r (64 + 8 * i) 4 = Tab.get 0 s.mem.hbmCe i % 2 ^ 32 ∧ fld r (68 + 8 * i) 4 = Tab.get 0 s.mem.hbmUe i % 2 ^ 32) ∧
  (block = 6 → r.length = 192 ∧ fld r 128 4 = s.mem.hubCe % 2 ^ 32 ∧ fld r 132 4 = s.mem.hubUe % 2 ^ 32 ∧
    ∀ k, k < 8 → fld r (64 + 8 * k) 4 = Tab.get 0 s.mem.peatCe k % 2 ^ 32 ∧ fld r (68 + 8 * k) 4 = Tab.get 0 s.mem.peatUe k % 2 ^ 32) ∧
  (block = 7 → r.length = 3456 ∧ fld r 3392 8 = s.links.binds % 2 ^ 64 ∧ fld r 3400 8 = s.links.timeouts % 2 ^ 64 ∧
    ∀ i, i < 13 → WordsAt r (64 + 256 * i) 8 12 (Tab.get 0 (s.getPort i).count.vl) ∧ WordsAt r (160 + 256 * i) 8 11 (Tab.get 0 (s.getPort i).count.ev)) ∧
  (block = 8 → r.length = 320 ∧ fld r 0x40 4 = s.sync.root % 2 ^ 32 ∧ fld r 0x44 1 = s.sync.depth % 256 ∧
    fld r 0x45 1 = s.sync.parent.getD 255 % 256 ∧ fld r 0x46 1 = (if s.sync.parent = none ∨ s.sync.locked then 1 else 0) ∧
    (s.sync.theta2 % 2 = 0 → fld r 0x48 4 = twos 4 (s.sync.theta2 / 2)) ∧
    (s.sync.maxTheta2 % 2 = 0 → fld r 0x4C 4 = s.sync.maxTheta2 / 2 % 2 ^ 32) ∧ fld r 0x50 8 = s.sync.rounds % 2 ^ 64 ∧
    fld r 0x58 8 = s.sync.excursions % 2 ^ 64 ∧ fld r 0x60 8 = s.sync.raises % 2 ^ 64 ∧ fld r 0x68 8 = s.anns.late % 2 ^ 64 ∧
    fld r 0x70 8 = s.anns.dropped % 2 ^ 64 ∧ fld r 0x78 1 = (match q.twin.state with | .unbound => 0 | .bound => 1 | .solo => 2) ∧
    fld r 0x80 8 = q.twin.matches_ % 2 ^ 64 ∧ fld r 0x88 8 = q.twin.mismatches % 2 ^ 64 ∧ fld r 0x90 8 = q.twin.timeouts % 2 ^ 64 ∧
    fld r 0x98 8 = q.twin.collAborts % 2 ^ 64 ∧ WordsAt r 0xA0 8 12 (Tab.get 0 s.sync.mismatch)) ∧
  (block = 9 → r.length = 256 ∧ fld r 64 4 = s.ctxOpenCount p % 2 ^ 32 ∧ fld r 68 4 = s.ctxReserved p % 2 ^ 32 ∧
    fld r 72 4 = q.serve.quota % 2 ^ 32 ∧ fld r 76 4 = s.ctxFree % 2 ^ 32 ∧ WordsAt r 80 8 14 (Tab.get 0 q.serve.counts))

/-- The newest entry of the fault log. -/
def State.newest (s : State) : Option LogEntry := s.faults.log.getLast?

/-- The package holds nothing of its work: no partition, no context, no frond state and no memory content. -/
def State.emptied (s : State) : Prop :=
  s.part = [] ∧ s.ctx = [] ∧ s.frond = [] ∧ s.far = [] ∧ s.store = [] ∧ s.localStore = []

/-- Cause bit c is set in its STATUS register (R386). -/
def State.caused (s : State) (c : Cause) : Prop := (nth 0 s.irq.status c.group).getLsbD c.bit = true

/-- The lists that stand for a fixed number of registers have that number: eleven STATUS registers, four dies, two half-partner links. -/
def State.shaped (s : State) : Prop := s.irq.status.length = 11 ∧ s.dies.die.length = 4 ∧ s.dies.half.length = 2

/-- The form that every step keeps: memories and the context table canonical, the fixed lists of their sizes. -/
def State.wellFormed (s : State) : Prop := s.memoriesCanonical ∧ Tab.wf {} s.ctx ∧ s.shaped

/-- The MSI-X side of a change of causes, doorbells or masks from s to t (11 R384): one message each time the routed set goes from empty to non-empty,
pending while it is masked; once the set is empty nothing is pending; otherwise none. -/
def MsixAfter (s t : State) : Prop :=
  t.irq.msiSet = t.msiOn ∧
  (t.msiOn = true → s.irq.msiSet = false → s.msixLive = true → s.pcie.masked = false →
    t.pcie = s.pcie ∧ t.out = s.out ++ [.msix s.pcie.msgAddr s.pcie.msgData]) ∧
  (t.msiOn = true → s.irq.msiSet = false → s.msixLive = true → s.pcie.masked = true → t.pcie = { s.pcie with pend := true } ∧ t.out = s.out) ∧
  (t.msiOn = true → s.irq.msiSet = true ∨ s.msixLive = false → t.pcie = s.pcie ∧ t.out = s.out) ∧
  (t.msiOn = false → t.pcie = { s.pcie with pend := false } ∧ t.out = s.out)

/-- What the start of a self-test leaves in t, started from s (12 R395, R397, R399, R430): the record describes the new test, the log has its RESET
entry, and nothing of the package's work changes. -/
def SelfTestBegun (s t : State) : Prop :=
  t.aon.phase = .selfTest ∧ t.aon.coldReset = false ∧ t.aon.hostRelease = s.aon.ticks ∧
  t.test = { trigger := if s.aon.coldReset then 1 else 2, mode := if s.test.full then 1 else 0, phase := 1, run := satAdd 64 s.test.run 1,
             active := true, began := s.aon.ticks, full := false } ∧
  t.faults = { s.faults with log := t.faults.log, next := s.faults.next + 1 } ∧
  (∃ e, t.newest = some e ∧ e.kind = 8 ∧ e.code = .ok ∧ e.seq = s.faults.next ∧ e.time = s.aon.ticks ∧
    fld e.detail 0 1 = if s.aon.coldReset then 1 else 2) ∧
  t = { s with aon := t.aon, test := t.test, rate := t.rate, faults := t.faults, irq := t.irq, pcie := t.pcie, out := t.out }

/-- What an entry into Safe Listen leaves (12 R400): the phase, no partition, no memory outside the AON bank, no queue, the next self-test full. -/
def InSafeListen (t : State) : Prop :=
  t.aon.phase = .safeListen ∧ t.emptied ∧ t.admissions = [] ∧ t.loading = none ∧ t.regulate = [] ∧ t.waking = [] ∧ t.ctxWaits = [] ∧
  t.links.planCh = none ∧ t.cmap = none ∧ t.anns.held = [] ∧ t.test.active = false ∧ t.test.full = true

/-- A self-test that ran in s has failed in t with a reason and a unit (12 R396, R399, R400, R430): the record names them and the phase, the package is
in Safe Listen with SELFTEST FAIL set, and the log has the SELFTEST entry, the newest one where no pattern had to halt. -/
def SelfTestFailed (s t : State) (reason kind unit : Nat) : Prop :=
  InSafeListen t ∧ t.test.result = 2 ∧ t.test.reason = reason ∧ t.test.unitKind = kind ∧ t.test.unit = unit ∧ t.test.phase = s.test.phase ∧
  t.test.run = s.test.run ∧ (s.irq.status.length = 11 → t.caused .selftestFail) ∧
  ((∀ p, p < 64 → (s.getPart p).live = false) → ∃ e, t.newest = some e ∧ e.kind = 5 ∧ e.code = .safeListen ∧ e.unitKind = kind ∧
    e.unit = unit ∧ e.seq = s.faults.next ∧ fld e.detail 0 1 = s.test.phase % 256 ∧ fld e.detail 1 1 = reason % 256)

/-- From s to t the ALIGN flits of one flit time have gone out on every lane of port p, whose state they tell is x (07 R248, R249): a LINKMGT flit with the
lane, the port, the MARK of the time, the highest MARK received on the lane and the ALIGNED flag, then 15 IDLE flits; ECHO_DELAY is a free value. -/
def AlignSent (s t : State) (p : Nat) (x : Port) : Prop :=
  t.out = s.out ++ (List.range (s.lanesOf p)).map (fun i => .flits p ((mgmtTimes (record 232 [⟨0, 1, 1⟩, ⟨1, 1, i⟩, ⟨2, 1, s.lanesOf p⟩, ⟨3, 1, p⟩,
    ⟨4, 4, x.marks⟩, ⟨8, 4, (x.laneAt i).mark⟩, ⟨0xC, 4, (Config.echoDelay (s.free + i)).toNat⟩,
    ⟨0x10, 1, b2n (x.deskewed && x.samples.length == 16)⟩])).map fun fl => ⟨i, fl, flitParity fl⟩)) ∧
  t.free = s.free + s.lanesOf p

/-- From s to t the IDENT flits of one flit time have gone out on every lane of port p, whose state they tell is x (07 R248, R250): a LINKMGT flit with
the lane, the port, the package's identity by its plan and SEEN, then 15 IDLE flits. -/
def IdentSent (s t : State) (p : Nat) (x : Port) : Prop :=
  ∀ pl, s.links.plan = some pl →
    t.out = s.out ++ (List.range (s.lanesOf p)).map (fun i => .flits p ((mgmtTimes (record 232 [⟨0, 1, 2⟩, ⟨1, 1, i⟩, ⟨2, 1, s.lanesOf p⟩, ⟨3, 1, p⟩,
      ⟨4, 1, s.dirOf p⟩, ⟨5, 1, pl.twin⟩, ⟨6, 1, b2n ((List.range (s.lanesOf p)).all fun k => decide (2 ≤ (x.laneAt k).same))⟩, ⟨8, 8, pl.fabric⟩,
      ⟨0x10, 1, pl.here.x⟩, ⟨0x11, 1, pl.here.y⟩, ⟨0x12, 1, pl.here.z⟩, ⟨0x14, 4, pl.chassis⟩, ⟨0x18, 2, s.aon.strap.toNat⟩])).map
        fun fl => ⟨i, fl, flitParity fl⟩))

/-- From s to t no frond but f has changed. -/
def OtherFronds (s t : State) (f : Nat) : Prop := ∀ g, g ≠ f → t.getFrond g = s.getFrond g

/-- From s to t a token of frond f has been raised once, if one is named, and no other (04 R131, R132). Wardens of the frond that waited for it may go on
(R130), which only changes their stalls and the run of the frond's partition; where none stalls neither changes. -/
def TokenRaised (s t : State) (f : Nat) (tok : Option Nat) : Prop :=
  (∀ k, tok = some k → Tab.get 0 (t.getFrond f).token k = (Tab.get 0 (s.getFrond f).token k + 1) % 2 ^ 32) ∧
  (∀ k, tok ≠ some k → Tab.get 0 (t.getFrond f).token k = Tab.get 0 (s.getFrond f).token k) ∧
  (tok = none → (t.getFrond f).token = (s.getFrond f).token) ∧
  (tok = none ∨ (s.getFrond f).wait = [] → (t.getFrond f).wait = (s.getFrond f).wait ∧ t.part = s.part) ∧
  (∀ q, s.owner f ≠ some q → t.getPart q = s.getPart q)

/-- From s to t the vote of partition p has been noted (05 R162, R164): its ISSUE is the stitch at which all conditions hold for the first time, and
nothing else of a partition has changed. -/
def VoteNoted (s t : State) (p : Nat) : Prop :=
  (t.getPart p).run.issue = (if (s.getPart p).run.issue = none ∧ t.voteForms p = true then some s.sync.stitch else (s.getPart p).run.issue) ∧
  t.getPart p = { s.getPart p with run := { (s.getPart p).run with issue := (t.getPart p).run.issue } } ∧
  ∀ q, q ≠ p → t.getPart q = s.getPart q

/-- In t the shadow bank of frond f holds the tile of a load which starts in cycle c in s, and the active bank is as it was (02 R45, R53, R54, R89): each
valid place has its element, E2M1 expanded, and its block's scale; each other place is zero. -/
def BankLoaded (s t : State) (f c : Nat) (a : AloadArgs) : Prop :=
  (∀ k, k / 16384 = (s.getFrond f).arr.active → Tab.get 0 (t.getFrond f).arr.weight k = Tab.get 0 (s.getFrond f).arr.weight k) ∧
  (∀ k, k / 512 = (s.getFrond f).arr.active ∨ a.wfmt = 0 → Tab.get 0 (t.getFrond f).arr.scale k = Tab.get 0 (s.getFrond f).arr.scale k) ∧
  (a.wfmt = 0 → ∀ k n, k < 128 → n < 128 → Tab.get 0 (t.getFrond f).arr.weight (16384 * (s.getFrond f).arr.shadow + 128 * k + n) =
    BitVec.ofNat 19 (if k < a.kValid ∧ n < a.nValid then ((s.seenAt f c).fsWord f (tileWordAt a k n)).toNat / 2 ^ 13 else 0)) ∧
  (a.wfmt ≠ 0 → ∀ sg n, sg < 4 → n < 128 →
    Tab.get 0 (t.getFrond f).arr.scale (512 * (s.getFrond f).arr.shadow + 128 * sg + n) =
      (if 32 * sg < a.kValid ∧ n < a.nValid then BitVec.ofNat 8 (leNat ((s.seenAt f c).fsRead f (blockScaleAt a.wfmt a.src (tileBlock sg n)) 1))
        else 0) ∧
    ∀ i, i < 32 → Tab.get 0 (t.getFrond f).arr.weight (16384 * (s.getFrond f).arr.shadow + 128 * (32 * sg + i) + n) =
      (if 32 * sg + i < a.kValid ∧ n < a.nValid then
        BitVec.ofNat 19 (if a.wfmt = 8 then
          expandE2m1 (nth 0 (unpackElems 4 ((s.seenAt f c).fsRead f (blockElemsAt 8 a.src (tileBlock sg n)) 16)) i)
        else nth 0 (unpackElems (mxWidth a.wfmt) ((s.seenAt f c).fsRead f (blockElemsAt a.wfmt a.src (tileBlock sg n)) (4 * mxWidth a.wfmt))) i)
      else 0))

/-- From s to t a pass of frond f has entered in cycle c with its bank's row time rc (02 R47, R49, R50, R51, R54, R55, R58, R78): when its last row has
entered row 0 is free; its rows leave array row 127 later by 127 row times; each result row is written, can be read from row time m + 131 on, and no other
byte of a store has changed; array busy cycles count. A pass of one row gives each valid column the sum of R48 or R50, or the extreme of R51, over what the
array can read in the row's cycles. -/
def PassEntered (s t : State) (f c rc : Nat) (a : AstreamArgs) : Prop :=
  (t.getFrond f).arr.lastEnter = c + a.m * rc ∧
  (t.getFrond f).arr.bankFree = (s.getFrond f).arr.bankFree.set (s.getFrond f).arr.active (c + a.m * rc) ∧
  (t.getFrond f).arr.bankDrain = (s.getFrond f).arr.bankDrain.set (s.getFrond f).arr.active (c + a.m * rc + 127 * rc) ∧
  (∃ old : Nat → List Byte,
    (t.getFrond f).arr.inflight = ((s.getFrond f).arr.inflight ++ (List.range a.m).map fun m => (c + (m + 131) * rc, accAt a m, old m)).filter
      (fun y => decide (c + a.m * rc < y.1)) ∧
    ∀ m, m < a.m → (∀ j, j < m → accAt a j + 4 * a.nValid ≤ accAt a m ∨ accAt a m + 4 * a.nValid ≤ accAt a j) →
      old m = s.fsRead f (accAt a m) (4 * a.nValid)) ∧
  (∀ x, (∀ m, m < a.m → x < storeKey f (accAt a m) ∨ storeKey f (accAt a m) + 4 * a.nValid ≤ x) → t.store.read x = s.store.read x) ∧
  Tab.get 0 (t.getFrond f).counts 0 = satAdd 64 (Tab.get 0 (s.getFrond f).counts 0) (a.m * rc) ∧
  (∀ k, 2 ≤ k → k ≠ 3 → Tab.get 0 (t.getFrond f).counts k = Tab.get 0 (s.getFrond f).counts k) ∧
  (a.m = 1 → actsOk (nth 0 (s.getFrond f).arr.fmt (s.getFrond f).arr.active) a.afmt = true → ∀ (x : Arr) (u v : State),
    x = (s.getFrond f).arr → u = s.seenAt f c → v = s.seenAt f (c + 32 * rc) → ∀ n, n < a.nValid →
    ∀ (init : Word) (wt : Nat → Nat) (ps : List Word), init = (if a.initAcc then v.fsWord f (accAt a 0 + 4 * n) else 0) →
    (∀ k, wt k = (Tab.get 0 x.weight (16384 * x.active + 128 * k + n)).toNat) →
    ps = (List.range 128).map (fun k => f19Product (wt k) (u.fsWord f (a.src + 4 * k))) →
    (a.afmt = 0 → a.mode = 0 → t.fsWord f (accAt a 0 + 4 * n) = ps.foldl addTrunc init) ∧
    (a.afmt = 0 → a.mode ≠ 0 → t.fsWord f (accAt a 0 + 4 * n) = (ps.take a.kValid).foldl (fpMaxMin (a.mode == 1)) init) ∧
    (∀ (cw ca : Nat → Nat) (ws es : Nat → List Nat) (wf : Nat), wf = nth 0 x.fmt x.active →
      (∀ sg, cw sg = (Tab.get 0 x.scale (512 * x.active + 128 * sg + n)).toNat) →
      (∀ sg, ca sg = leNat (u.fsRead f (blockScaleAt a.afmt a.src (actBlock a 0 sg)) 1)) →
      (∀ sg, ws sg = (List.range 32).map fun i => wt (32 * sg + i)) →
      (∀ sg, es sg = unpackElems (mxWidth a.afmt) (u.fsRead f (blockElemsAt a.afmt a.src (actBlock a 0 sg)) (4 * mxWidth a.afmt))) →
      (a.afmt ≠ 0 → a.mode = 0 → t.fsWord f (accAt a 0 + 4 * n) =
        [0, 1, 2, 3].foldl (fun acc sg => addTrunc acc (blockSum wf a.afmt (cw sg) (ca sg) (ws sg) (es sg))) init) ∧
      (a.afmt ≠ 0 → a.mode ≠ 0 → t.fsWord f (accAt a 0 + 4 * n) =
        (([0, 1, 2, 3].flatMap fun sg => blockTerms wf a.afmt (cw sg) (ca sg) (ws sg) (es sg)).take a.kValid).foldl
          (fpMaxMin (a.mode == 1)) init)))

/-- From u to t nothing has happened but that an operation of frond f has raised its token, if it names one (02 R61, 04 R130, R132). -/
def RaisedAfter (u t : State) (f : Nat) (tok : Option Nat) : Prop :=
  TokenRaised u t f tok ∧ t.getFrond f = { u.getFrond f with token := (t.getFrond f).token, wait := (t.getFrond f).wait } ∧ OtherFronds u t f ∧
  t = { u with frond := t.frond, part := t.part }

/-- From s to t the first n lanes of vector register d of frond f have got their values, and no other lane of a register has changed (02 R60). -/
def LanesWritten (s t : State) (f d n : Nat) (v : Nat → Word) : Prop :=
  (∀ i, i < n → (t.getFrond f).vget d i = v i) ∧
  ∀ e i, e < 16 → i < 256 → e ≠ d ∨ n ≤ i → (t.getFrond f).vget e i = (s.getFrond f).vget e i

/-- From s to t the conversions of a CVT have counted in partition p, with their overflows and underflows, in both sets of statistics, and those of FP16
gradients for the vote (03 R99, 05 R164, R174). -/
def Converted (s t : State) (p : Nat) (cvt : Byte) (conv ovf unf : Nat) : Prop :=
  (∀ k j, k = 3 * (4 * (if cvtDst cvt = 0 then 0 else cvtDst cvt - 1) + cvtClass cvt) →
    Tab.get 0 (t.getPart p).arith.counts j = satAdd 64 (Tab.get 0 (s.getPart p).arith.counts j)
      (if j = k then conv else if j = k + 1 then ovf else if j = k + 2 then unf else 0) ∨
      j ≠ k ∧ j ≠ k + 1 ∧ j ≠ k + 2 ∧ Tab.get 0 (t.getPart p).arith.counts j = Tab.get 0 (s.getPart p).arith.counts j) ∧
  (∀ k j, k = 3 * (4 * (if cvtDst cvt = 0 then 0 else cvtDst cvt - 1) + cvtClass cvt) →
    Tab.get 0 (t.getPart p).arithNow.counts j = satAdd 64 (Tab.get 0 (s.getPart p).arithNow.counts j)
      (if j = k then conv else if j = k + 1 then ovf else if j = k + 2 then unf else 0) ∨
      j ≠ k ∧ j ≠ k + 1 ∧ j ≠ k + 2 ∧ Tab.get 0 (t.getPart p).arithNow.counts j = Tab.get 0 (s.getPart p).arithNow.counts j) ∧
  t.getPart p = { s.getPart p with
    arith := { (s.getPart p).arith with counts := (t.getPart p).arith.counts }
    arithNow := { (s.getPart p).arithNow with counts := (t.getPart p).arithNow.counts }
    run := if cvtDst cvt = 2 ∧ cvtClass cvt = 2 then
        { (s.getPart p).run with gradConv := satAdd 64 (s.getPart p).run.gradConv conv, gradUnf := satAdd 64 (s.getPart p).run.gradUnf unf }
      else (s.getPart p).run } ∧
  ∀ q, q ≠ p → t.getPart q = s.getPart q

/-- From s to t the words have been narrowed into blocks b, b + 1, ... of the block group at an address of frond f, 32 words to a block (03 R89, R90, R102 to
R104), and no other byte of a store has changed; their overflows and underflows are counted. -/
def BlocksNarrowed (s t : State) (f p : Nat) (cvt : Byte) (addr b n : Nat) (ws : List Word) : Prop :=
  ∀ (x : Nat → MxBlock) (w : Nat), w = mxWidth (cvtDst cvt) → (∀ j, x j = mxBlock (cvtDst cvt) (cvtNan cvt) ((ws.drop (32 * j)).take 32)) →
    (∀ j, j < n → t.fsRead f (addr + (b + j)) 1 = [BitVec.ofNat 8 (x j).scale] ∧
      t.fsRead f (addr + 64 + 4 * w * (b + j)) (4 * w) = packElems w (x j).elems) ∧
    (∀ k, k < storeKey f (addr + b) ∨ storeKey f (addr + b + n) ≤ k →
      k < storeKey f (addr + 64 + 4 * w * b) ∨ storeKey f (addr + 64 + 4 * w * (b + n)) ≤ k → t.store.read k = s.store.read k) ∧
    Converted s t p cvt (32 * n) (((List.range n).map fun j => (x j).ovf).foldl (· + ·) 0) (((List.range n).map fun j => (x j).unf).foldl (· + ·) 0)

/-- From s to t pinnule n of frond f has written a value to its integer register d, at an instruction offset, and nothing else has changed (02 R66, R67). -/
def IntWritten (s t : State) (f n off d : Nat) (v : Word) : Prop :=
  (t.getFrond f).iget n d = v ∧ (∀ m e, e < 32 → (m ≠ n ∨ e ≠ d) → (t.getFrond f).iget m e = (s.getFrond f).iget m e) ∧
  t.getFrond f = { s.getFrond f with ireg := (t.getFrond f).ireg, pc := Tab.set 0 (s.getFrond f).pc n off, counts := (t.getFrond f).counts } ∧
  OtherFronds s t f ∧ t = { s with frond := t.frond, free := t.free }

/-- As IntWritten for a scalar FP register. -/
def FpWritten (s t : State) (f n off d : Nat) (v : Word) : Prop :=
  (t.getFrond f).fget n d = v ∧ (∀ m e, e < 32 → (m ≠ n ∨ e ≠ d) → (t.getFrond f).fget m e = (s.getFrond f).fget m e) ∧
  t.getFrond f = { s.getFrond f with freg := (t.getFrond f).freg, pc := Tab.set 0 (s.getFrond f).pc n off } ∧
  OtherFronds s t f ∧ t = { s with frond := t.frond, part := t.part }

/-- As IntWritten for the four words of a quad register. -/
def QuadWritten (s t : State) (f n off q : Nat) (v : Nat → Word) : Prop :=
  (∀ i, i < 4 → (t.getFrond f).qget n q i = v i) ∧
  (∀ m e i, e < 8 → i < 4 → (m ≠ n ∨ e ≠ q) → (t.getFrond f).qget m e i = (s.getFrond f).qget m e i) ∧
  t.getFrond f = { s.getFrond f with qreg := (t.getFrond f).qreg, pc := Tab.set 0 (s.getFrond f).pc n off } ∧
  OtherFronds s t f ∧ t = { s with frond := t.frond }

/-- A list in ascending order of totalOrder (03 R96). -/
def Ascending (l : List Word) : Prop := l.Pairwise fun a b => orderKey a ≤ orderKey b

/-- From s to t a burst of a stream has been issued: its counters (02 R78) from a key on and its place in the stream have gone up, and its 2 KiB pieces
have been offered to the regulator of its tier (06 R198): one that no other waits before draws on its share where that has the tokens, else it is held. -/
def BurstIssued (s t : State) (f p key : Nat) (x : Stream) : Prop :=
  t.streamAt f x.id = some { x with next := x.next + 1 } ∧ (∀ k, k ≠ x.id → t.streamAt f k = s.streamAt f k) ∧
  t.getFrond f = { s.getFrond f with
    streams := (t.getFrond f).streams
    counts := Tab.upd 0 (Tab.upd 0 (s.getFrond f).counts key (satAdd 64 · 1)) (key + 1) (satAdd 64 · x.burst) } ∧
  (hubStart ≤ x.farOf x.next → t.part = s.part) ∧
  (∀ (tier die u : Nat) (q : Partition), x.farOf x.next < hubStart → tier = (if x.farOf x.next < peatStart then 1 else 2) → die = frondDie f →
    u = x.burst / 64 → 0 < x.burst → x.burst ≤ 2048 → q = s.getPart p →
    ((∃ y ∈ q.heldPieces, y.tier = tier ∧ y.die = die) ∨ (q.reg tier).on = true ∧ nth 0 (q.reg tier).tokens die < u →
      t.getPart p = { q with heldPieces := q.heldPieces ++ [⟨tier, die, f, x.id, x.next, u⟩] }) ∧
    ((∀ y ∈ q.heldPieces, y.tier ≠ tier ∨ y.die ≠ die) → (q.reg tier).on = true → u ≤ nth 0 (q.reg tier).tokens die →
      t.getPart p = q.updReg tier fun g => { g with tokens := g.tokens.modify die (· - u) }) ∧
    ((∀ y ∈ q.heldPieces, y.tier ≠ tier ∨ y.die ≠ die) → (q.reg tier).on = false → t.getPart p = q)) ∧
  t.getPart p = { s.getPart p with
    regHbm := (t.getPart p).regHbm, regPeat := (t.getPart p).regPeat, heldPieces := (t.getPart p).heldPieces } ∧
  OtherFronds s t f ∧ (∀ q, q ≠ p → t.getPart q = s.getPart q) ∧ t = { s with frond := t.frond, part := t.part }

/-- The bytes that frond f has at an address in t are those that a burst read from a far address a lands (02 R70, 03 R105, R106, 06 R203): raw bytes, a 64-byte
word with an uncorrected error as its poison; blocks of MX elements or 16-bit elements widened into F19 containers, canonical NaN where an error lies. -/
def BurstLanded (t : State) (f addr convert a : Nat) (ue : List Nat) (bs : List Byte) : Prop :=
  (convert = 0 → bs.length % 64 = 0 → ∀ i, i < bs.length / 64 →
    (rangeBad a ue (64 * i) 64 = false → t.fsRead f (addr + 64 * i) 64 = slice bs (64 * i) 64) ∧
    (rangeBad a ue (64 * i) 64 = true → ∀ j, j < 16 → t.fsWord f (addr + 64 * i + 4 * j) = 0xDEADF00D#32)) ∧
  (∀ (fmt g b i so eo : Nat), convert = 1 ∨ convert = 2 → fmt = convert + 3 → g < bs.length / blockGroup fmt → b < 64 → i < 32 →
    so = blockGroup fmt * g + b → eo = blockGroup fmt * g + 64 + 4 * mxWidth fmt * b →
    t.fsWord f (addr + 4 * (2048 * g + 32 * b + i)) =
      (if rangeBad a ue so 1 || rangeBad a ue eo (4 * mxWidth fmt) then 0x7FC00000#32
       else nth 0 (widenBlock fmt true (fld bs so 1) (unpackElems (mxWidth fmt) (slice bs eo (4 * mxWidth fmt)))).1 i)) ∧
  (convert = 3 ∨ convert = 4 → ∀ i, i < bs.length / 2 → t.fsWord f (addr + 4 * i) =
    (if rangeBad a ue (2 * i) 2 then 0x7FC00000#32 else widenHalf (convert - 1) (fld bs (2 * i) 2)))

/-- From s to t burst j of read stream x of frond f has landed beside those in its list (02 R72): the tokens of all bursts that have landed without a gap are
raised, in burst order. -/
def BurstsRaised (s t : State) (f j : Nat) (x : Stream) : Prop :=
  ∃ (m : Nat) (y : Stream), t.streamAt f x.id = some y ∧ y = { x with raised := x.raised + m, landed := y.landed } ∧
    (∀ i, x.raised ≤ i → i < x.raised + m → i ∈ x.landed ++ [j]) ∧ x.raised + m ∉ x.landed ++ [j] ∧
    (∀ i, x.raised + m ≤ i → (i ∈ y.landed ↔ i ∈ x.landed ++ [j])) ∧ (∀ k, k ≠ x.id → t.streamAt f k = s.streamAt f k) ∧
    ∀ k n, n = ((List.range m).filter fun i => x.tokenOf (x.raised + i) == k).length →
      (n = 0 → Tab.get 0 (t.getFrond f).token k = Tab.get 0 (s.getFrond f).token k) ∧
      (0 < n → Tab.get 0 (t.getFrond f).token k = (Tab.get 0 (s.getFrond f).token k + n) % 2 ^ 32)

/-- In t the step of partition p that stood in u is decided by a combined vote (04 R134, R135, 05 R159, R167 to R172, 12 R430), where no twin act
waits and the partition is not bound: the first row of R167 whose mark the vote bears gives the status, the control block and the halt; a
commit takes the controller's clean branch; the decided step gives the next base; the control block is copied to HBM, and a commit writes the
slot's header in the ring; causes, the log and the OUTCOME doorbell follow. -/
def StepDecided (u t : State) (p : Nat) (v : Vote) : Prop :=
  ∀ (q : Partition) (st : Status) (tcb : Tcb) (stop : Option Status) (cause : Option Cause) (run : Nat), q = u.getPart p → q.pat = .running →
    q.twin.acts = [] → q.twin.state ≠ .bound → run = satAdd 32 q.tcb.cleanRun 1 →
    (v.sig = true ∧ st = .signatureMismatch ∧ tcb = { q.tcb with lastOutcome := 4 } ∧ stop = some st ∧ cause = some .stepFail ∨
     v.sig = false ∧ v.abort = true ∧ st = .collAbort ∧ tcb = { q.tcb with lastOutcome := 4 } ∧ stop = some st ∧ cause = some .stepFail ∨
     v.sig = false ∧ v.abort = false ∧ v.mem = true ∧ st = .internal ∧ tcb = { q.tcb with lastOutcome := 4 } ∧ stop = some st ∧ cause = some .stepFail ∨
     v.sig = false ∧ v.abort = false ∧ v.mem = false ∧ v.void = true ∧ st = .stepSkipped ∧ stop = none ∧ cause = some .void ∧
       tcb = { q.tcb with skipsVoid := satAdd 64 q.tcb.skipsVoid 1, lastOutcome := 3 } ∨
     v.sig = false ∧ v.abort = false ∧ v.mem = false ∧ v.void = false ∧ v.finite = false ∧ st = .stepSkipped ∧ cause = some .skip ∧
       tcb = { q.tcb with
         scaleExp := max (q.tcb.scaleExp - 1) q.tcb.scaleMin, cleanRun := 0, skipRun := min (q.tcb.skipRun + 1) 255
         skipsNonfinite := satAdd 64 q.tcb.skipsNonfinite 1, lastOutcome := 2 } ∧
       stop = (if q.tcb.skipHalt ≠ 0 ∧ q.tcb.skipHalt ≤ tcb.skipRun then some .stepSkipped else none) ∨
     v.sig = false ∧ v.abort = false ∧ v.mem = false ∧ v.void = false ∧ v.finite = true ∧ st = .ok ∧ stop = none ∧ cause = none ∧
       ∃ grow : Bool, (grow = true ↔ q.tcb.growth ≤ run ∨ q.tcb.earlyRun ≠ 0 ∧ q.tcb.earlyRun ≤ run ∧
           v.gradConv ≤ v.gradUnf * 2 ^ q.tcb.earlyShareExp ∧ v.gradConv ≠ 0) ∧
         tcb = { q.tcb with
           scaleExp := if grow then min (q.tcb.scaleExp + 1) q.tcb.scaleMax else q.tcb.scaleExp, cleanRun := if grow then 0 else run, skipRun := 0
           updates := satAdd 64 q.tcb.updates 1, committedStep := (q.tcb.stepBase + q.run.step) % 2 ^ 64
           b1Pow := fpBin .mul false false q.tcb.b1Pow q.tcb.beta1, b2Pow := fpBin .mul false false q.tcb.b2Pow q.tcb.beta2
           commits := satAdd 64 q.tcb.commits 1, lastOutcome := 1 }) →
    ∃ (h : Option Status) (far : Mem), h = (if q.run.halt ≠ none then q.run.halt else if stop ≠ none then stop
        else if q.image.steps = q.run.step + 1 then some st else none) ∧
      far = (if q.image.amount 0x03 0 = 0 then u.far else u.far.writeN q.hbmBase tcb.bytes) ∧
      t.getPart p = { q with
        tcb := tcb, arithStep := (q.run.step, q.arithNow)
        run := { q.run with
          decided := true, fN := v.issue, maxSlip := max q.run.maxSlip v.slip, last := some st, sent := none, children := []
          next := if cause = some .stepFail ∨ q.image.steps = q.run.step + 1 then none else some
            (if v.slip ≤ q.image.slipBudget then q.run.base + q.image.stepStitches
             else max (q.run.base + q.image.stepStitches) (v.issue + q.image.realignLead))
          realigned := decide (q.image.slipBudget < v.slip), halt := h
          haltAt := if q.run.halt = none ∧ h ≠ none then u.sync.stitch else q.run.haltAt } } ∧
      (∀ k, k ≠ p → t.getPart k = u.getPart k) ∧
      t.far = (if cause = none ∧ tcb.slotBytes ≠ 0 then
        far.writeN (u.spaceAt p 2 (tcb.ringOffset + tcb.updates % 3 * tcb.slotBytes)) (slice tcb.bytes 0 4096) else far) ∧
      (∀ c, cause = some c → u.irq.status.length = 11 → t.caused c) ∧
      (u.irq.status.length = 11 → cause = some .skip → stop ≠ none → t.caused .skipHalt) ∧
      (∀ h', stop = some h' → cause = some .skip ∨ q.faultLogged v = false → ∃ e, t.newest = some e ∧ e.kind = 4 ∧ e.code = h' ∧ e.part = p ∧
        e.seq = u.faults.next) ∧
      (stop = none ∨ cause = some .stepFail ∧ q.faultLogged v = true → t.faults = u.faults) ∧
      (t.getChan (4 + p)).db.getLsbD 4 = true ∧ (∀ c, c ≠ 4 + p → t.getChan c = u.getChan c) ∧
      t = { u with
        part := t.part, far := t.far, chan := t.chan, faults := t.faults, irq := t.irq, pcie := t.pcie, out := t.out }

/-- The state in which a member of the job box has sent a vote to each of others, in their order (05 R164). -/
def State.votesTo (u : State) (p : Nat) (v : Vote) (ds : List Coord) : State :=
  ds.foldl (fun x d => x.inject { dst := d, src := x.here, part := p, kind := 4, vl := 2, payload := v.bytes }) u

/-- From u to t the vote of partition p has gone up as far as it can (05 R164, R165): with the own vote sent and those of all children there, the vote
of the subtree goes to the parent once; at the root the combined vote goes down to the children and decides the step. -/
def VoteRises (u t : State) (p : Nat) : Prop :=
  ∀ (q : Partition) (g : Group), q = u.getPart p → g = q.image.jobGroup →
    (q.run.sent = none ∨ q.run.passed = true ∨ q.run.decided = true ∨ (∃ d ∈ g.children u.here, ∀ c ∈ q.run.children, c.1 ≠ d) → t = u) ∧
    (∀ own k v, q.run.sent = some (own, k) → q.run.passed = false → q.run.decided = false → (∀ d ∈ g.children u.here, ∃ c ∈ q.run.children, c.1 = d) →
      v = (q.run.children.map (·.2)).foldl Vote.join own →
      (∀ d, g.parent u.here = some d → t = (u.updRun p fun r => { r with passed := true }).votesTo p v [d]) ∧
      (g.parent u.here = none → StepDecided (u.votesTo p v (g.children u.here)) t p v))

/-- The state after an abort record has gone from the package to each of some members, in their order (08 R296). -/
def State.recordsTo (u : State) (p : Nat) (a : Abort) (ds : List Coord) : State :=
  ds.foldl (fun x d => x.inject { dst := d, src := x.here, part := p, kind := 4, arg := 1, vl := 2, payload := a.bytes }) u

/-- From s to t instance k of partition p, which stands as c, has been aborted here (08 R296, 05 R150, R163): the wardens discard the rest of the step, the vote
will carry ABORT, the abort is counted, and the passes and stalls of its fronds that belong to the discarded rest are gone. -/
def InstanceAborted (s t : State) (p : Nat) (k : Nat × Nat) (c : Coll) : Prop :=
  t.coll p k = some { c with aborted := true } ∧ (∀ j, j ≠ k → t.coll p j = s.coll p j) ∧
  t.getPart p = { s.getPart p with
    colls := (t.getPart p).colls
    run := { (s.getPart p).run with
      abort := true, discard := true
      issue := if (s.getPart p).pat = .running ∧ (s.getPart p).run.issue = none ∧ t.voteForms p = true then some s.sync.stitch
        else (s.getPart p).run.issue }
    twin := { (s.getPart p).twin with collAborts := satAdd 64 (s.getPart p).twin.collAborts 1 } } ∧
  (∀ f ∈ s.fronds p, t.getFrond f = { s.getFrond f with
    arr := { (s.getFrond f).arr with queue := (s.getFrond f).arr.queue.filter fun (y : Pass) => y.fused.isNone }
    wait := (s.getFrond f).wait.filter fun e => match e.2 with | some (.commit _) => true | _ => false }) ∧
  (∀ f, f ∉ s.fronds p → t.getFrond f = s.getFrond f) ∧ (∀ q, q ≠ p → t.getPart q = s.getPart q) ∧
  t = { s with part := t.part, frond := t.frond }

/-- From u to t a member has held a record against the best that it holds of instance k (08 R296): a better one replaces it and goes on to the tree
neighbours of the group, but not to the one that it came from. -/
def RecordKept (u t : State) (p : Nat) (k : Nat × Nat) (a : Abort) (src : Option Coord) : Prop :=
  ∀ c : Coll, u.coll p k = some c →
    ((∃ b, c.best = some b ∧ (b.progress < a.progress ∨ b.progress = a.progress ∧ b.rank ≤ a.rank)) → t = u) ∧
    ((∀ b, c.best = some b → a.progress < b.progress ∨ a.progress = b.progress ∧ a.rank < b.rank) → ∃ v : State,
      v = u.updColl p k (fun d => { d with best := some a }) ∧
      (u.collGroup p c = none → t = v) ∧
      (∀ g, u.collGroup p c = some g → t = v.recordsTo p a ((g.tree u.here).filter fun d => some d != src)))

/-- From s to t the twin state of partition p has changed, and no other partition. -/
def TwinChanged (s t : State) (p : Nat) (w : Twin) : Prop :=
  t.getPart p = { s.getPart p with twin := w } ∧ ∀ q, q ≠ p → t.getPart q = s.getPart q

end Sys2Proof.Machine
end

