-- ==== Sys2Proof/Certificates/Slice0/Obligations.lean ====
section
/-! DEFINITION. The statements about the package, one definition each. A statement of what a command does has as its conclusion
that exec answers a next state, under hypotheses on the state and the command's operands alone. -/

open Sys2Proof Sys2Proof.Machine

/-! ### The block -/

/-- A step takes the command at the front of the queue and runs its meaning with the queue's rest; with no command waiting, one AON tick passes
unless VAON is down.
The model's own choices in it: log entry 1. -/
def Obligations.StepRunsFrontCommand : Prop :=
  (∀ (c : Instr) (rest : List Instr) (s : State), s.pending = c :: rest → step s = exec c { s with pending := rest }) ∧
  (∀ s : State, s.pending = [] → s.aon.phase ≠ .off → step s = .next { s with aon := { s.aon with ticks := s.aon.ticks + 1 } }) ∧
  (∀ s : State, s.pending = [] → s.aon.phase = .off → step s = .next s)

/-- What reset leaves of what the spec states: VAON has just risen, the package is held in reset, the next self-test is full, the fault
log is empty, L_sched and L_run are 0 and L_therm 15, the core voltage is 550 mV, no partition exists and TOP_ROUTE holds its reset value. -/
def Obligations.ResetHoldsStatedValues : Prop :=
  State.reset.aon.phase = .held ∧ State.reset.aon.ticks = 0 ∧ State.reset.test.full = true ∧ State.reset.test.run = 0 ∧
  State.reset.faults.log = [] ∧ State.reset.faults.next = 0 ∧ State.reset.rate.sched = 0 ∧ State.reset.rate.run = 0 ∧
  State.reset.rate.therm = 15 ∧ State.reset.rate.mv = 550 ∧ (∀ p, (State.reset.getPart p).life = .never) ∧
  State.reset.irq.topRoute = 0x87FF07FF#32 ∧ State.reset.tap.ir = List.replicate 5 .idcode ∧ State.reset.sync.stitch = 0 ∧
  (∀ d, State.reset.getDom d = .off) ∧ (∀ p, (State.reset.getPort p).state = .unused) ∧ State.reset.pending = []

/-! ### Power, reset and self-test -/

/-- R393 and R394: a fall of VAON loses everything, fault log and AON count included. R392 and R395: when VAON rises the AON domain is held in reset
with a count of 0, and the next self-test is full; while VAON is up a rise changes nothing.
The model's own choices in it: log entry 18. -/
def Obligations.VaonFallAndRise : Prop :=
  (∀ s : State, ∃ t : State, exec .vaonFall s = .next t ∧ t.aon.phase = .off ∧ t.faults = {} ∧ t.test = {} ∧ t.emptied ∧
    t = { State.reset with
          pending := s.pending, out := s.out, free := s.free, aon := { perstN := s.aon.perstN, phase := .off } }) ∧
  (∀ s : State, s.aon.phase = .off → ∃ t : State, exec .vaonRise s = .next t ∧ t.aon.phase = .held ∧ t.aon.ticks = 0 ∧ t.test.full = true ∧
    t.faults.log = [] ∧
    t = { State.reset with pending := s.pending, out := s.out, free := s.free, aon := { perstN := s.aon.perstN } }) ∧
  (∀ s : State, s.aon.phase ≠ .off → exec .vaonRise s = .next s)

/-- R393, R394 and R37: a low PWR_OK has the same effect as a low PKG_RESET_N: the package is held in reset; the AON bank (fault log, self-test
record, bulk buffers, AON count and pins) and the test access port stay, and everything else returns to its reset value: retirement marks and fault
policies, memory counters, rate and voltage, announcements, REQ_ID, the commands that wait. A pin that is low already changes nothing.
The model's own choices in it: log entries 18, 22, 46 and 75. -/
def Obligations.PackageResetKeepsAonBank : Prop :=
  ∀ (s : State) (a : Aon) (r : State), s.aon.phase ≠ .off →
    a = { s.aon with phase := .held, park := .no, parkDue := false, thermTrip := false, tripped := false, railsOut := 0, railsLow := 0,
                     listenDue := none, i3cAddr := none } →
    r = { State.reset with
          pending := s.pending, out := s.out, free := s.free, tap := s.tap, bulk := s.bulk
          test := { s.test with active := false, byCommand := none }
          faults := { log := s.faults.log, next := s.faults.next }
          mem := { noSpare := s.mem.noSpare }
          rate := { tj := s.rate.tj } } →
    (s.aon.pkgResetN = true → exec .pkgResetNAssert s = .next { r with aon := { a with pkgResetN := false } }) ∧
    (s.aon.pwrOk = true → exec .pwrOkFall s = .next { r with aon := { a with pwrOk := false, armed := false } }) ∧
    (s.aon.pkgResetN = false → exec .pkgResetNAssert s = .next s) ∧
    (s.aon.pwrOk = false → exec .pwrOkFall s = .next s)

/-- R392, R395 and R430: PWR_OK arms the rail monitors; self-test begins when PKG_RESET_N is released, full the first time after VAON rises;
released below 110 degrees C it begins with phase 1, and a RESET entry is logged; at 110 degrees C or more it fails with reason 0x0B, and THERM_TRIP_N
is driven (R427). With the other of the two pins low the release only samples its pin. -/
def Obligations.ReleaseBeginsSelfTest : Prop :=
  ∀ (s : State) (strap : BitVec 12) (tj : Int), s.aon.phase = .held →
    (s.aon.pkgResetN = false → s.aon.pwrOk = true → tj < 1760 →
      ∃ t : State, exec (.pkgResetNRelease strap tj) s = .next t ∧ SelfTestBegun s t ∧
        t.aon = { s.aon with phase := .selfTest, coldReset := false, hostRelease := s.aon.ticks, pkgResetN := true, strap := strap } ∧
        t.rate = { s.rate with tj := tj }) ∧
    (s.aon.pkgResetN = false → s.aon.pwrOk = true → 1760 ≤ tj →
      ∃ t : State, exec (.pkgResetNRelease strap tj) s = .next t ∧ InSafeListen t ∧ t.test.result = 2 ∧ t.test.reason = 0x0B ∧
        t.test.phase = 1 ∧ t.aon.thermTrip = true ∧ t.aon.strap = strap ∧ t.rate.tj = tj ∧
        (s.irq.status.length = 11 → t.caused .trip ∧ t.caused .selftestFail)) ∧
    (s.aon.pkgResetN = false → s.aon.pwrOk = false →
      exec (.pkgResetNRelease strap tj) s =
        .next { s with aon := { s.aon with pkgResetN := true, strap := strap }, rate := { s.rate with tj := tj } }) ∧
    (s.aon.pwrOk = false → s.aon.pkgResetN = false →
      exec .pwrOkRise s = .next { s with aon := { s.aon with pwrOk := true, armed := true } }) ∧
    (s.aon.pwrOk = false → s.aon.pkgResetN = true → s.rate.tj < 1760 →
      ∃ t : State, exec .pwrOkRise s = .next t ∧ SelfTestBegun s t ∧
        t.aon = { s.aon with phase := .selfTest, coldReset := false, hostRelease := s.aon.ticks, pwrOk := true, armed := true } ∧ t.rate = s.rate)

/-- R396, R399, R400: a phase of a self-test that ends within its bound with no unit marked is followed at once by the next one, and its time is recorded; a
channel that phase 5 repairs takes a repair lane (R206); after phase 7 the package is up, memory holds zeros, SELFTEST DONE is set and a SELFTEST_RUN
completes. A phase that marks units fails on the lowest of them with the reason of its mark (a peat controller without 512 GiB: 0x62, R422), a phase
that overruns its bound, whatever it reports, with 0x0A: the record says where and why, and the package enters Safe Listen.
The model's own choices in it: log entries 45 and 74. -/
def Obligations.SelfTestPhasesRunInOrder : Prop :=
  (∀ (s : State) (r : PhaseReport), s.test.active = true → s.test.byCommand = none → s.aon.ticks ≤ s.test.began + phaseBound s.test.phase →
      r.reason = 0 → r.groupFail = 0 → r.dieFail = 0 → (∀ i, i < 12 → nth 0 r.stack i &&& 0x1FF00#32 = 0) →
      (∀ k, k < 8 → nth 0 r.peat k &&& 7#32 = 0) → s.mem.noSpare = [] →
      s.test.phase = 1 ∨ s.test.phase = 2 ∨ s.test.phase = 4 ∨ s.test.phase = 5 ∨ s.test.phase = 6 →
      ∃ t : State, exec (.selftestPhaseEnd r) s = .next t ∧ t.test.phase = s.test.phase + 1 ∧ t.test.active = true ∧
        t.test.began = s.aon.ticks ∧ (s.test.ticks.length = 7 → nth 0 t.test.ticks (s.test.phase - 1) = s.aon.ticks - s.test.began) ∧
        (s.test.phase ≠ 5 ∨ r.repaired = [] → t = { s with test := t.test }) ∧
        (∀ c, s.test.phase = 5 → r.repaired = [c] → c < 384 → Tab.get 0 s.mem.repairs c < 2 →
          Tab.get 0 t.mem.repairs c = Tab.get 0 s.mem.repairs c + 1 ∧
          Tab.get 0 t.mem.spares (c / 32) = satAdd 8 (Tab.get 0 s.mem.spares (c / 32)) 1 ∧
          (Tab.get {} t.faults.unit (unitKey 5 c)).count = 0 ∧ t.faults.log = s.faults.log ∧
          (s.test.stack.length = 12 → nth 0 t.test.stack (c / 32) = nth 0 s.test.stack (c / 32) + 1) ∧
          t = { s with test := t.test, mem := t.mem, faults := t.faults })) ∧
  (∀ (s : State) (r : PhaseReport), s.test.active = true → s.test.phase = 7 → s.aon.ticks ≤ s.test.began + phaseBound 7 → s.lanesFailed r = 0 →
      ∃ t : State, exec (.selftestPhaseEnd r) s = .next (match s.test.byCommand with | some ch => t.answer ch .ok [] | none => t) ∧
        t.test.result = 1 ∧ t.test.active = false ∧ t.test.byCommand = none ∧ t.aon = { s.aon with phase := .up } ∧
        t.far = [] ∧ t.store = [] ∧ t.localStore = [] ∧ t.ctx = [] ∧ t.frond = [] ∧ (s.irq.status.length = 11 → t.caused .selftestDone) ∧
        t = { s with test := t.test, aon := t.aon, far := [], store := [], localStore := [], ctx := [], frond := [], dom := t.dom, irq := t.irq,
                     pcie := t.pcie, out := t.out }) ∧
  (∀ (s : State) (r : PhaseReport) (reason kind unit : Nat), s.test.active = true → s.aon.ticks ≤ s.test.began + phaseBound s.test.phase →
      (s.test.phase = 1 ∨ s.test.phase = 2) ∧ r.reason ≠ 0 ∧ reason = r.reason ∧ kind = r.unitKind ∧ unit = r.unit ∨
      s.test.phase = 4 ∧ unit < 144 ∧ r.groupFail.getLsbD unit = true ∧ (∀ g, g < unit → r.groupFail.getLsbD g = false) ∧
        reason = (if r.reason = 0x41 then 0x41 else 0x40) ∧ kind = 3 ∨
      s.test.phase = 4 ∧ r.groupFail = 0 ∧ unit < 4 ∧ r.dieFail.getLsbD unit = true ∧ (∀ d, d < unit → r.dieFail.getLsbD d = false) ∧
        reason = 0x42 ∧ kind = 1 ∨
      s.test.phase = 5 ∧ unit < 12 ∧ nth 0 r.stack unit &&& 0x1FF00#32 ≠ 0 ∧ (∀ i, i < unit → nth 0 r.stack i &&& 0x1FF00#32 = 0) ∧
        reason = (if (nth 0 r.stack unit).getLsbD 16 then 0x50 else 0x52) ∧ kind = 7 ∨
      s.test.phase = 5 ∧ (∀ i, i < 12 → nth 0 r.stack i &&& 0x1FF00#32 = 0) ∧ unit ∈ s.mem.noSpare ∧ (∀ c ∈ s.mem.noSpare, unit ≤ c) ∧
        reason = 0x51 ∧ kind = 6 ∨
      s.test.phase = 6 ∧ unit < 8 ∧ nth 0 r.peat unit &&& 7#32 ≠ 0 ∧ (∀ k, k < unit → nth 0 r.peat k &&& 7#32 = 0) ∧
        reason = (if (nth 0 r.peat unit).getLsbD 0 then 0x60 else if (nth 0 r.peat unit).getLsbD 1 then 0x61 else 0x62) ∧ kind = 8 ∨
      s.test.phase = 7 ∧ unit < 28 ∧ (s.lanesFailed r).getLsbD unit = true ∧ (∀ l, l < unit → (s.lanesFailed r).getLsbD l = false) ∧
        reason = 0x70 ∧ kind = 0xB →
      ∃ t : State, exec (.selftestPhaseEnd r) s = .next t ∧ SelfTestFailed s t reason kind unit) ∧
  (∀ (s : State) (r : PhaseReport), s.test.active = true → s.test.began + phaseBound s.test.phase < s.aon.ticks →
      (s.test.phase ≠ 3 → ∃ t : State, exec (.selftestPhaseEnd r) s = .next t ∧ SelfTestFailed s t 0x0A 0 0) ∧
      ∃ t : State, exec .selftestPhaseTimeout s = .next t ∧ SelfTestFailed s t 0x0A 0 0) ∧
  (∀ s : State, s.aon.ticks ≤ s.test.began + phaseBound s.test.phase → exec .selftestPhaseTimeout s = .next s)

/-- R389 and R420: PERST_N low and a function-level reset that reaches the function clear ENABLE of every ring channel and SUBMIT_ENABLE of every
partition, cut the transfers with host memory, return the PCIe function to its reset values, and change nothing else; PERST_N high starts the host
port's release time.
The model's own choices in it: log entry 70. -/
def Obligations.HostPortResetClearsEnables : Prop :=
  (∀ (s : State) (c : Instr) (a : Aon),
    (c = .perstNAssert ∧ a = { s.aon with perstN := false } ∨ c = .functionLevelReset ∧ s.configReady = true ∧ a = s.aon) →
    ∃ t : State, exec c s = .next t ∧ t.aon = a ∧ t.pcie = {} ∧
      (∀ k, ringChannel k = true → t.getChan k = { s.getChan k with rxOn := false }) ∧
      (∀ k, ringChannel k = false → t.getChan k = s.getChan k) ∧
      (∀ p, p < 64 → t.getPart p = { s.getPart p with
        serve := { (s.getPart p).serve with submitOn := false }
        fill := (s.getPart p).fill.map fun (f : Fill) => { f with hostLost := f.hostLost || f.mode == 2 || f.mode == 3 } }) ∧
      (∀ p, 64 ≤ p → t.getPart p = s.getPart p) ∧
      t = { s with aon := t.aon, chan := t.chan, part := t.part, pcie := {} }) ∧
  (∀ s : State, s.configReady = false → exec .functionLevelReset s = .next s) ∧
  (∀ s : State, s.aon.perstN = false → exec .perstNRelease s = .next { s with
    aon := { s.aon with perstN := true, hostRelease := if s.aon.pkgResetN then s.aon.ticks else s.aon.hostRelease } }) ∧
  (∀ s : State, s.aon.perstN = true → exec .perstNRelease s = .next s)

/-- R394, R400, R411, R413 and R414: while the monitors are armed, a rail other than VAON that reads outside 3 % of its set point (while the voltage
changes, and for 200 us after it settles, outside 3 % of both set points) is a fault: it is marked out of range, POWER RAIL is set and the rail is
logged; with no pattern live the package is in Safe Listen at once, otherwise it will be at the next stitch boundary. A rail within its range is
none. A supply that has not settled 1 ms after the last write has failed. R350, R419 and R427: Tj is the highest reading of a sample; at 95 degrees C
it warns; at 110 the pin is driven low, TRIP is set and the package enters Safe Listen; the comparator drives the pin at 115 degrees C; L_therm
rises one level for each 100 ms at or below 92 degrees C, to 15 at most.
The model's own choices in it: log entry 71. -/
def Obligations.RailFaultsAndThermalTrips : Prop :=
  (∀ (s : State) (rail : Rail) (uv lo hi : Nat), s.aon.armed = true → s.aon.phase = .up → s.test.active = false → rail ≠ .vaon →
    railReal rail = true →
    (rail = .vaux18 ∧ lo = 1800 ∧ hi = 1800 ∨ rail = .vlink ∧ lo = 900 ∧ hi = 900 ∨ rail = .vpeat ∧ lo = 1050 ∧ hi = 1050 ∨
      (rail = .vhub ∨ ∃ d, rail = .vcomp d) ∧ lo = min s.rate.mvOld s.rate.mv ∧ hi = max s.rate.mvOld s.rate.mv ∧
        (∃ w, s.rate.mvAt = some w ∧ s.aon.ticks < w + 5000) ∨
      (rail = .vhub ∨ ∃ d, rail = .vcomp d) ∧ lo = s.rate.mv ∧ hi = s.rate.mv ∧
        (s.rate.mvAt = none ∨ ∃ w, s.rate.mvAt = some w ∧ w + 30000 ≤ s.aon.ticks)) →
    (970 * lo ≤ uv → uv ≤ 1030 * hi → exec (.railFault ⟨rail, uv⟩) s = .next s) ∧
    (uv < 970 * lo ∨ 1030 * hi < uv → (∀ p, p < 64 → (s.getPart p).live = false) → ∃ (t : State) (e : LogEntry),
      exec (.railFault ⟨rail, uv⟩) s = .next t ∧ InSafeListen t ∧ (s.irq.status.length = 11 → t.caused .rail) ∧
      t.aon.railsOut = s.aon.railsOut ||| BitVec.twoPow 9 (railIndex rail) ∧
      t.aon.railsLow = (if uv < 970 * lo then s.aon.railsLow ||| BitVec.twoPow 9 (railIndex rail) else s.aon.railsLow) ∧
      t.newest = some e ∧ e.kind = 6 ∧ e.code = .safeListen ∧ e.unitKind = 0xC ∧ e.unit = railPosition rail ∧ e.seq = s.faults.next) ∧
    (uv < 970 * lo ∨ 1030 * hi < uv → (∃ p, p < 64 ∧ (s.getPart p).live = true) → ∃ (t : State) (e : LogEntry),
      exec (.railFault ⟨rail, uv⟩) s = .next t ∧ (s.aon.listenDue = none → t.aon.listenDue = some (railPosition rail)) ∧
      (s.irq.status.length = 11 → t.caused .rail) ∧ t.aon.railsOut = s.aon.railsOut ||| BitVec.twoPow 9 (railIndex rail) ∧
      t.newest = some e ∧ e.kind = 6 ∧ e.unitKind = 0xC ∧ e.unit = railPosition rail ∧
      t = { s with aon := t.aon, faults := t.faults, irq := t.irq, pcie := t.pcie, out := t.out })) ∧
  (∀ (s : State) (sel w : Nat), s.aon.armed = true → s.aon.phase = .up → s.test.active = false → sel ≤ 4 → s.rate.mvAt = some w →
    (s.aon.ticks < w + 25000 → exec (.avsbusSettleTimeout sel) s = .next s) ∧
    (w + 25000 ≤ s.aon.ticks → (∀ p, p < 64 → (s.getPart p).live = false) → ∃ t : State, exec (.avsbusSettleTimeout sel) s = .next t ∧
      InSafeListen t ∧ t.aon.railsOut = s.aon.railsOut ||| BitVec.twoPow 9 (if sel = 0 then 2 else 2 + sel) ∧
      (s.irq.status.length = 11 → t.caused .rail))) ∧
  (∀ s : State, s.aon.phase = .up → s.aon.listenDue.isSome = true → ∃ t : State, exec .stitchBoundary s = .next t ∧ InSafeListen t) ∧
  (∀ (s : State) (r : Int) (rs : List Int), s.awake = true →
    ((∀ x ∈ r :: rs, x < 1520) → ∃ t : State, exec (.thermalSample (r :: rs)) s = .next t ∧ t.rate.tj ∈ r :: rs ∧
      (∀ x ∈ r :: rs, x ≤ t.rate.tj) ∧ t.rate.coolSince = (if t.rate.tj ≤ 1472 then some (s.rate.coolSince.getD s.aon.ticks) else none) ∧
      t = { s with rate := { s.rate with tj := t.rate.tj, coolSince := t.rate.coolSince } }) ∧
    ((∀ x ∈ r :: rs, x < 1760) → (∃ x ∈ r :: rs, 1520 ≤ x) → s.irq.status.length = 11 → ∃ t : State,
      exec (.thermalSample (r :: rs)) s = .next t ∧ t.rate.tj ∈ r :: rs ∧ (∀ x ∈ r :: rs, x ≤ t.rate.tj) ∧ t.rate.coolSince = none ∧ t.caused .warn ∧
      t = { s with rate := { s.rate with tj := t.rate.tj, coolSince := none }, irq := t.irq, pcie := t.pcie, out := t.out }) ∧
    (s.aon.phase = .up → s.aon.tripped = false → (∃ x ∈ r :: rs, 1760 ≤ x) → s.irq.status.length = 11 → ∃ t : State,
      exec (.thermalSample (r :: rs)) s = .next t ∧ InSafeListen t ∧ t.aon.thermTrip = true ∧ t.aon.tripped = true ∧ t.caused .trip ∧
      t.caused .warn ∧ t.caused .selftestFail ∧ s.faults.next < t.faults.next ∧ (∀ x ∈ r :: rs, x ≤ t.rate.tj))) ∧
  (∀ (s : State) (r : Int), s.awake = true →
    (1840 ≤ r → exec (.thermalComparatorTrip r) s = .next { s with aon := { s.aon with thermTrip := true } }) ∧
    (r < 1840 → exec (.thermalComparatorTrip r) s = .next s)) ∧
  (∀ (s : State) (since : Nat), s.awake = true → s.rate.coolSince = some since →
    (since + 2500000 ≤ s.aon.ticks → exec .lThermRise s =
      .next { s with rate := { s.rate with therm := min 15 (s.rate.therm + 1), coolSince := some (since + 2500000) } }) ∧
    (s.aon.ticks < since + 2500000 → exec .lThermRise s = .next s))

/-- R33 to R37: TRST_N and Test-Logic-Reset select IDCODE in every TAP; an instruction scan selects the instruction given at each position whose TAP is
there, a bypass stage stands in for the others and captures 0; a data scan shifts out what the chain had captured, then what it takes in, and leaves the
boundary registers that it does not run through. While the package is out of reset and not in Safe Listen EXTEST, CLAMP and HIGHZ act as BYPASS;
otherwise they act on the pins. No operation of the test port has an effect on anything but the chain and the bits it gives out. R421: ENTDAA gives the
I3C port its address once.
The model's own choices in it: log entries 11, 18, 67 and 78. -/
def Obligations.TestPortAndI3cAddress : Prop :=
  (∀ s : State, s.aon.phase ≠ .off →
    exec (.tapOperation .trst) s = .next { s with tap := { s.tap with ir := List.replicate 5 .idcode } } ∧
    exec (.tapOperation .testLogicReset) s = .next { s with tap := { s.tap with ir := List.replicate 5 .idcode } }) ∧
  (∀ (s : State) (i : List TapInstr), s.aon.phase ≠ .off → i.length = 5 →
    ∃ (t : State) (bits : List Bool), exec (.tapOperation (.irScan i)) s = .next t ∧ t.tap.ir.length = 5 ∧
      (∀ pos, pos < 5 → nth .idcode t.tap.ir pos = if s.tapAbsent pos then nth .idcode s.tap.ir pos else nth .idcode i pos) ∧
      bits = [4, 3, 2, 1, 0].flatMap s.irCapture ∧
      (∀ pos, pos < 5 → s.tapAbsent pos = true → s.irCapture pos = [false]) ∧
      (∀ pos, pos < 5 → s.tapAbsent pos = false → 2 ≤ s.irLen pos → (s.irCapture pos).length = s.irLen pos ∧ (s.irCapture pos).take 2 = [true, false]) ∧
      t = { s with tap := { s.tap with ir := t.tap.ir }, out := s.out ++ [.tdo bits] }) ∧
  (∀ (s : State) (b : List Bool), s.aon.phase ≠ .off → ∃ (t : State) (chain : List Bool), exec (.tapOperation (.drScan b)) s = .next t ∧
    chain = [4, 3, 2, 1, 0].flatMap s.drCapture ∧
    (∀ pos, pos < 5 → s.tapAbsent pos = true ∨ nth .idcode s.tap.ir pos = .bypass → s.drCapture pos = [false]) ∧
    (∀ pos, pos < 5 → s.tapAbsent pos = false → nth .idcode s.tap.ir pos = .idcode →
      s.drCapture pos = (List.range 32).map (s.idcode pos).testBit) ∧ s.idcode 0 = 0x1A4E12AB ∧
    (∀ pos, pos < 5 → s.tapAbsent pos = true ∨ (nth .idcode s.tap.ir pos ≠ .samplePreload ∧ nth .idcode s.tap.ir pos ≠ .extest) →
      nth [] t.tap.cells pos = nth [] s.tap.cells pos) ∧
    t = { s with tap := { s.tap with cells := t.tap.cells }, out := s.out ++ [.tdo ((chain ++ b).take b.length)], free := s.free + 1 }) ∧
  (∀ (s : State) (pos : Nat) (i : TapInstr), pos < 5 → nth .idcode s.tap.ir pos = i → i = .extest ∨ i = .clamp ∨ i = .highz →
    (s.aon.pkgResetN = true → s.aon.pwrOk = true → s.aon.phase ≠ .safeListen → s.drCapture pos = [false] ∧ s.pinDrive pos = .functional) ∧
    (s.aon.pkgResetN = false ∨ s.aon.pwrOk = false ∨ s.aon.phase = .safeListen → s.tapAbsent pos = false →
      s.pinDrive pos = if i = .highz then .highZ else .cells (nth [] s.tap.cells pos))) ∧
  (∀ (s : State) (o : TapOp), ∃ t : State, exec (.tapOperation o) s = .next t ∧ t = { s with tap := t.tap, out := t.out, free := t.free }) ∧
  (∀ (s : State) (a : Nat), s.visible = true →
    (s.aon.i3cAddr = none → exec (.entdaa a) s =
      .next { s with aon := { s.aon with i3cAddr := some (a % 128) }, out := s.out ++ [.i3cId s.provisionalId] }) ∧
    (s.aon.i3cAddr ≠ none → exec (.entdaa a) s = .next s))

/-! ### Compute dies and their links -/

/-- R28 and R29: in phase 3 the first die is released at once and each later one 250 AON ticks after the one before it; PLL lock, hub link
(which sends the first capability query with a new tag) and firmware follow. Each, within its bound, changes the one die only. R30: with both half-partner
links up the counter copies of the dies are aligned and phase 3 is followed by phase 4; one alone only marks itself; a step that overruns its bound, as
a time-out or by coming late, fails the self-test with TIMEOUT and the package enters Safe Listen.
The model's own choices in it: log entries 27 and 28. -/
def Obligations.DieBringupRunsInOrder : Prop :=
  (∀ (s : State) (r : Nat), s.test.active = true → s.test.phase = 3 → r < 4 → s.dies.die.length = 4 →
    (∀ k, k < r → ∃ at_, (s.getDie k).released = some at_ ∧ at_ + 250 ≤ s.aon.ticks) → (s.getDie r).released = none →
    (∀ at_, (s.getDie 0).released = some at_ → s.aon.ticks ≤ at_ + 250 * r) →
      ∃ t : State, exec .dieRelease s = .next t ∧ t.getDie r = { s.getDie r with released := some s.aon.ticks } ∧
        (∀ k, k ≠ r → t.getDie k = s.getDie k) ∧ t = { s with dies := { s.dies with die := t.dies.die } }) ∧
  (∀ (s : State) (r first : Nat), s.test.active = true → s.test.phase = 3 → r < 4 → s.dies.die.length = 4 → (s.getDie 0).released = some first →
    ((s.getDie r).released.isSome = true → s.aon.ticks ≤ first + 500 + 250 * r → ∃ t : State, exec (.diePllLock r) s = .next t ∧
        t.getDie r = { s.getDie r with pll := true } ∧ (∀ k, k ≠ r → t.getDie k = s.getDie k) ∧
        t = { s with dies := { s.dies with die := t.dies.die } }) ∧
    ((s.getDie r).pll = true → (s.getDie r).hubUp = false → s.aon.ticks ≤ first + 25500 + 250 * r → Tab.get .up s.dies.link r = .up →
      Tab.get [] s.dies.odp (4 * r + 3) = [] → ∃ t : State, exec (.hubLinkUp r) s = .next t ∧
        t.getDie r = { s.getDie r with hubUp := true, tag := ((s.getDie r).tag + 1) % 256, queries := (s.getDie r).queries + 1,
                                       queryAt := s.aon.ticks } ∧
        (∀ k, k ≠ r → t.getDie k = s.getDie k) ∧
        t = { s with dies := { s.dies with die := t.dies.die }, out := s.out ++ [.capQuery r (((s.getDie r).tag + 1) % 256)] }) ∧
    ((∀ k, k < 4 → (s.getDie k).cap.isSome = true) → s.aon.ticks ≤ first + 58750 → ∃ t : State, exec (.dieFirmwareLoaded r) s = .next t ∧
        t.getDie r = { s.getDie r with firmware := true } ∧ (∀ k, k ≠ r → t.getDie k = s.getDie k) ∧
        t = { s with dies := { s.dies with die := t.dies.die } }) ∧
    ((s.getDie r).released.isSome = true → (s.getDie r).pll = false → first + 500 + 250 * r < s.aon.ticks →
      ∃ t : State, exec (.diePllLock r) s = .next t ∧ SelfTestFailed s t 0x0A 1 r)) ∧
  (∀ (s : State) (h first : Nat), s.test.active = true → s.test.phase = 3 → s.test.byCommand = none → s.dies.die.length = 4 →
    s.dies.half.length = 2 → h < 2 → (s.getDie (2 * h)).firmware = true → (s.getDie (2 * h + 1)).firmware = true →
    (s.getDie 0).released = some first → s.aon.ticks ≤ first + 83750 →
    (nth false s.dies.half (1 - h) = true → ∃ t : State, exec (.halfPartnerLinkUp h) s = .next t ∧ t.dies.half = [true, true] ∧
        t.dies.aligned = true ∧ t.test.phase = 4 ∧ t.test.began = s.aon.ticks ∧
        (∀ r, r < 4 → t.getDie r = { s.getDie r with stitchCopy := s.sync.stitch }) ∧
        t = { s with dies := { s.dies with half := [true, true], aligned := true, die := t.dies.die }, test := t.test }) ∧
    (nth false s.dies.half (1 - h) = false → ∃ t : State, exec (.halfPartnerLinkUp h) s = .next t ∧ nth false t.dies.half h = true ∧
        nth false t.dies.half (1 - h) = false ∧ t = { s with dies := { s.dies with half := t.dies.half } })) ∧
  (∀ (s : State) (w : BringupStep) (first : Nat), s.test.active = true → s.test.phase = 3 → (s.getDie 0).released = some first →
    s.stepDone w = false → first + bringupBound w < s.aon.ticks → ∃ t : State, exec (.bringupTimeout w) s = .next t ∧
      SelfTestFailed s t 0x0A (bringupUnit w).1 (bringupUnit w).2)

/-- R23 and R25: only a reply with the tag of the latest query counts; its 64-byte block is kept and the operating ODP version is the
lower of the two; the set is judged when every die has answered: a die whose block fails a check fails the self-test with that check's reason, and the
record names it. Without a reply 100 microseconds after a query another one is sent, and after the third the die does not respond: the self-test fails
with reason 0x01 and the package enters Safe Listen.
The model's own choices in it: log entry 28. -/
def Obligations.CapabilityExchange : Prop :=
  ∀ (s : State) (r : Nat), s.test.active = true → s.test.phase = 3 → r < 4 → s.dies.die.length = 4 → (s.getDie r).hubUp = true →
    (s.getDie r).cap = none →
    (∀ (tag : Nat) (b : List Byte), tag = (s.getDie r).tag → b.length = 64 →
      (∀ at_, (s.getDie 0).released = some at_ → s.aon.ticks ≤ at_ + 33750) →
      ((∃ k, k < 4 ∧ k ≠ r ∧ (s.getDie k).cap = none) → ∃ t : State, exec (.capabilityReply r tag b) s = .next t ∧
        t.getDie r = { s.getDie r with cap := some b, odp := min 0x0102 (fld b 0 2) } ∧
        (∀ k, k ≠ r → t.getDie k = s.getDie k) ∧ t = { s with dies := { s.dies with die := t.dies.die } }) ∧
      (∀ base : List Byte, (r = 0 → base = b) → (r ≠ 0 → (s.getDie 0).cap = some base) → base ≠ [] →
        (∀ k, k < 4 → k ≠ r → ∃ c, (s.getDie k).cap = some c ∧ dieCheck base c = 0) →
        (dieCheck base b = 0 → ∃ t : State, exec (.capabilityReply r tag b) s = .next t ∧
          t.getDie r = { s.getDie r with cap := some b, odp := min 0x0102 (fld b 0 2) } ∧
          (∀ k, k ≠ r → t.getDie k = s.getDie k) ∧ t = { s with dies := { s.dies with die := t.dies.die } }) ∧
        (dieCheck base b ≠ 0 → ∃ t : State, exec (.capabilityReply r tag b) s = .next t ∧ SelfTestFailed s t (dieCheck base b) 1 r ∧
          (s.test.dieReason.length = 4 → nth 0 t.test.dieReason r = dieCheck base b) ∧ (t.getDie r).cap = some b))) ∧
    (∀ (tag : Nat) (b : List Byte), tag ≠ (s.getDie r).tag → exec (.capabilityReply r tag b) s = .next s) ∧
    (s.aon.ticks < (s.getDie r).queryAt + 2500 → exec (.capabilityQueryTimeout r) s = .next s) ∧
    ((s.getDie r).queryAt + 2500 ≤ s.aon.ticks → (s.getDie r).queries < 3 → Tab.get .up s.dies.link r = .up →
      Tab.get [] s.dies.odp (4 * r + 3) = [] → ∃ t : State, exec (.capabilityQueryTimeout r) s = .next t ∧
      t.getDie r = { s.getDie r with tag := ((s.getDie r).tag + 1) % 256, queries := (s.getDie r).queries + 1, queryAt := s.aon.ticks } ∧
      (∀ k, k ≠ r → t.getDie k = s.getDie k) ∧
      t = { s with dies := { s.dies with die := t.dies.die }, out := s.out ++ [.capQuery r (((s.getDie r).tag + 1) % 256)] }) ∧
    ((s.getDie r).queryAt + 2500 ≤ s.aon.ticks → 3 ≤ (s.getDie r).queries →
      (∀ k, k < r → (s.getDie k).cap = none) → ∃ t : State, exec (.capabilityQueryTimeout r) s = .next t ∧
      SelfTestFailed s t 0x01 1 r ∧ (s.test.dieReason.length = 4 → nth 0 t.test.dieReason r = 1))

/-- R19 to R22: a flit CRC retry changes nothing; a trained link that loses training while the package runs retrains, and the loss is exactly one event
of its class, in the window that is open or in a new one, logged by the rule of the class; a further loss while it retrains is none; done, it is up again
and the messages that waited for it go, each class in its order; after 1 ms it is lost: every live pattern is to halt with INTERNAL, SELFTEST DIE_LINK
is set, and with no pattern to halt the loss is logged with INTERNAL.
The model's own choices in it: log entries 73 and 76. -/
def Obligations.DieLinkLossAndRetrain : Prop :=
  ∀ (s : State) (l : Nat), l < 6 →
    exec (.ucieFlitCrcRetry l) s = .next s ∧
    (∀ (x : FaultUnit) (w h : Nat), x = Tab.get {} s.faults.unit (unitKey 1 l) → s.policy 1 = (w, h) → x.held = false → s.aon.phase = .up →
      s.dieLink l = .up →
      (x.count = 0 ∨ x.start + w * 25000000 ≤ s.aon.ticks → 1 < h → ∃ (t : State) (e : LogEntry), exec (.dieLinkTrainingLoss l) s = .next t ∧
        t.dieLink l = .retraining s.aon.ticks ∧ (∀ k, k ≠ l → t.dieLink k = s.dieLink k) ∧
        Tab.get {} t.faults.unit (unitKey 1 l) = { start := s.aon.ticks, count := 1, held := false } ∧
        (∀ u, u ≠ unitKey 1 l → Tab.get {} t.faults.unit u = Tab.get {} s.faults.unit u) ∧
        t.newest = some e ∧ e.kind = 1 ∧ e.cls = 1 ∧ e.unitKind = 2 ∧ e.unit = l ∧ t.faults.next = s.faults.next + 1 ∧
        t = { s with dies := { s.dies with link := t.dies.link }, faults := t.faults, irq := t.irq, pcie := t.pcie, out := t.out }) ∧
      (0 < x.count → s.aon.ticks < x.start + w * 25000000 → x.count + 1 < h → ∃ t : State, exec (.dieLinkTrainingLoss l) s = .next t ∧
        t.dieLink l = .retraining s.aon.ticks ∧ (∀ k, k ≠ l → t.dieLink k = s.dieLink k) ∧
        Tab.get {} t.faults.unit (unitKey 1 l) = { x with count := x.count + 1 } ∧
        (∀ u, u ≠ unitKey 1 l → Tab.get {} t.faults.unit u = Tab.get {} s.faults.unit u) ∧
        t = { s with dies := { s.dies with link := t.dies.link }, faults := { s.faults with unit := t.faults.unit } }) ∧
      (0 < x.count → s.aon.ticks < x.start + w * 25000000 → h ≤ x.count + 1 → s.irq.status.length = 11 → ∃ (t : State) (e : LogEntry),
        exec (.dieLinkTrainingLoss l) s = .next t ∧ t.dieLink l = .retraining s.aon.ticks ∧ (∀ k, k ≠ l → t.dieLink k = s.dieLink k) ∧
        (Tab.get {} t.faults.unit (unitKey 1 l)).count = 0 ∧ t.newest = some e ∧ e.kind = 2 ∧ e.code = .faultLasting ∧ e.cls = 1 ∧ e.unit = l ∧
        fld e.detail 0 4 = (x.count + 1) % 2 ^ 32 ∧ t.caused .lasting ∧
        t = { s with dies := { s.dies with link := t.dies.link }, faults := t.faults, irq := t.irq, pcie := t.pcie, out := t.out })) ∧
    (∀ since, s.dieLink l = .retraining since → exec (.dieLinkTrainingLoss l) s = .next s) ∧
    (∀ since, s.dieLink l = .retraining since → ∃ t : State, exec (.dieLinkRetrainDone l) s = .next t ∧ t.dieLink l = .up ∧
      (∀ k, k ≠ l → t.dieLink k = s.dieLink k) ∧
      (4 ≤ l → t = { s with dies := { s.dies with link := t.dies.link } }) ∧
      (l < 4 → (∀ c, c < 4 → Tab.get [] t.dies.odp (4 * l + c) = []) ∧ (∀ k, k < 4 * l ∨ 4 * l + 4 ≤ k → Tab.get [] t.dies.odp k = Tab.get [] s.dies.odp k) ∧
        t.out = s.out ++ ((List.range 4).flatMap fun c => Tab.get [] s.dies.odp (4 * l + c)).map (OdpMsg.output l) ∧
        t = { s with dies := { s.dies with link := t.dies.link, odp := t.dies.odp }, out := t.out })) ∧
    (∀ since, s.dieLink l = .retraining since → since + 25000 ≤ s.aon.ticks → (∀ p, 64 ≤ p → (s.getPart p).live = false) → s.irq.status.length = 11 →
      ∃ t : State, exec (.dieLinkLost l) s = .next t ∧ t.dieLink l = .lost ∧ t.linkDead = true ∧ (∀ k, k ≠ l → t.dieLink k = s.dieLink k) ∧
        t.caused .dieLink ∧ (∀ u, Tab.get {} t.faults.unit u = Tab.get {} s.faults.unit u) ∧
        (∀ p, (s.getPart p).live = true → (s.getPart p).run.halt = none → t.getPart p = { s.getPart p with
          run := { (s.getPart p).run with halt := some .internal, haltAt := s.sync.stitch } }) ∧
        (∀ p, (s.getPart p).live = false ∨ (s.getPart p).run.halt ≠ none → t.getPart p = s.getPart p) ∧
        (∃ e, t.newest = some e ∧ e.kind = 4 ∧ e.code = .internal ∧ e.unitKind = 2 ∧ e.unit = l) ∧
        t = { s with dies := { s.dies with link := t.dies.link }, part := t.part, faults := t.faults, irq := t.irq, pcie := t.pcie, out := t.out })

/-! ### Commands, partitions, domains and reports -/

/-- R371, R372, R367 and R368: a final status of a mailbox command sets MB_ACK with its code, MB_TAG with the TAG and the reply words, frees the
channel and rings ACK, or DONE when ACCEPTED went before; a long record goes to the bulk buffer, with its length in MB_REPLY14 and 15; no
other channel changes. ACCEPTED leaves the command held in its background phase and rings ACK. R386 and R384: a cause sets its bit of its STATUS
register and no other, and one MSI-X message is sent when the set of routed causes goes from empty to not empty, unless the function or its vector holds
it back, which leaves it pending; none when the set stays as it was, and none is pending once it is empty.
The model's own choices in it: log entry 70. -/
def Obligations.StatusesAndCausesSignal : Prop :=
  (∀ (s : State) (ch : Nat) (h : Held), (s.getChan ch).held = some h → h.via = .mailbox →
    (∀ (st : Status) (words : List Nat), st ≠ .internal → ∃ t : State, s.answer ch st words = t ∧
      t.getChan ch = { s.getChan ch with
        ackValid := true, final := true, code := st.code, tag := h.tag, busy := false, held := none
        reply := (List.range 16).map fun i => BitVec.ofNat 32 (nth 0 words i)
        db := (s.getChan ch).db ||| BitVec.twoPow 32 (if h.acked then 1 else 0) } ∧
      (∀ c, c ≠ ch → t.getChan c = s.getChan c) ∧ t = { s with chan := t.chan, irq := t.irq, pcie := t.pcie, out := t.out }) ∧
    (∀ (r : List Byte), r ≠ [] → h.host = false → ∃ t : State, s.finish ch .ok [] r = t ∧ (t.getChan ch).held = none ∧
      nth 0 (t.getChan ch).reply 14 = BitVec.ofNat 32 r.length ∧ nth 0 (t.getChan ch).reply 15 = BitVec.ofNat 32 r.length ∧
      (∀ i, i < r.length → t.bulk.read (65536 * ch + i) = nth 0 r i) ∧
      (∀ a, a < 65536 * ch ∨ 65536 * ch + r.length ≤ a → t.bulk.read a = s.bulk.read a) ∧
      (∀ c, c ≠ ch → t.getChan c = s.getChan c) ∧
      t = { s with chan := t.chan, irq := t.irq, pcie := t.pcie, out := t.out, bulk := t.bulk }) ∧
    (∃ t : State, s.accept ch = t ∧ t.getChan ch = { s.getChan ch with
        ackValid := true, final := false, code := 1, tag := h.tag, held := some { h with stepped := true, acked := true }
        reply := List.replicate 16 0, db := (s.getChan ch).db ||| 1#32 } ∧
      (∀ c, c ≠ ch → t.getChan c = s.getChan c) ∧ t = { s with chan := t.chan, irq := t.irq, pcie := t.pcie, out := t.out })) ∧
  (∀ (s : State) (c : Cause) (t : State), s.irq.status.length = 11 → t = s.raise c →
    t.caused c ∧
    (∀ n i, ¬ (n = c.group ∧ i = c.bit) → (nth 0 t.irq.status n).getLsbD i = (nth 0 s.irq.status n).getLsbD i) ∧
    t.irq = { s.irq with status := t.irq.status, msiSet := t.irq.msiSet } ∧
    (t.irq.msiSet = true → s.irq.msiSet = false → s.msixLive = true →
      ((s.pcie.funcMask || s.pcie.vecMask || s.pcie.d3hot) = false → t.out = s.out ++ [.msix s.pcie.msgAddr s.pcie.msgData] ∧ t.pcie = s.pcie) ∧
      ((s.pcie.funcMask || s.pcie.vecMask || s.pcie.d3hot) = true → t.out = s.out ∧ t.pcie = { s.pcie with pend := true })) ∧
    (t.irq.msiSet = true → s.irq.msiSet = false → s.msixLive = false → t.out = s.out ∧ t.pcie = s.pcie) ∧
    (t.irq.msiSet = true → s.irq.msiSet = true → t.out = s.out ∧ t.pcie = s.pcie) ∧
    (t.irq.msiSet = false → t.out = s.out ∧ t.pcie = { s.pcie with pend := false }) ∧
    t = { s with irq := t.irq, pcie := t.pcie, out := t.out })

/-- R380, R209, R376: PART_CREATE whose checks pass makes the partition with its frond groups and its HBM and peat ranges, remembers who
created it, tells the compute dies in ring order and is ACCEPTED while the fills run. Nothing of another partition changes; of the number's earlier
life only who destroyed it and its twin counters stay (R306). A partition that exists already is CONFLICT with its creator's words (R377). R190: the range
that a partition gets is the lowest that fits: the first GiB from which n GiB lie in the tier and meet no range taken. -/
def Obligations.PartCreateTakesLowestRanges : Prop :=
  (∀ (s : State) (ch : Nat) (h : Held) (b : List Byte), Commanded s 0x0101 ch h b →
    (∀ x y : Nat, s.aon.park = .no → (∀ r, r < 4 → s.ctlGoes r) →
      (s.getPart h.part).alive = false → BitVec.ofNat 144 (fld b 0 18) ≠ 0 → fld b 0x12 2 ≤ 576 → fld b 0x14 2 ≤ 512 → zeros b 0x16 0x18 = true →
      (∀ g, g < 144 → (BitVec.ofNat 144 (fld b 0 18)).getLsbD g = true → s.faults.retired.getLsbD g = false ∧ s.groupAbsent g = false) →
      (∀ q, q < 64 → (s.getPart q).alive = true → (s.getPart q).groups &&& BitVec.ofNat 144 (fld b 0 18) = 0) →
      lowestFree (s.taken false) 576 (fld b 0x12 2) = some x → lowestFree (s.taken true) 512 (fld b 0x14 2) = some y →
      ∃ t : State, exec (.partCreate ch) s = .next (State.accept ch t) ∧
        t.getPart h.part = {
          life := .filling, createdBy := { ch := ch, tag := h.tag, opcode := 0x0101 }, destroyedBy := (s.getPart h.part).destroyedBy
          groups := BitVec.ofNat 144 (fld b 0 18), hbmBase := x * 1073741824, hbmGib := fld b 0x12 2
          peatBase := 0x010000000000 + y * 1073741824, peatGib := fld b 0x14 2, pat := .empty
          regHbm := { on := false }, regPeat := { on := false }
          serve := { quota := 0, deadlineUs := 200, maxRows := 128, submitOn := false }
          twin := { matches_ := (s.getPart h.part).twin.matches_, mismatches := (s.getPart h.part).twin.mismatches
                    timeouts := (s.getPart h.part).twin.timeouts, collAborts := (s.getPart h.part).twin.collAborts } } ∧
        (∀ q, q ≠ h.part → t.getPart q = s.getPart q) ∧
        t = { s with part := t.part, out := s.out ++ [.ctl 0 (.create h.part), .ctl 1 (.create h.part), .ctl 2 (.create h.part),
                                                      .ctl 3 (.create h.part)] }) ∧
    ((s.getPart h.part).alive = true → exec (.partCreate ch) s = .next (s.answer ch .conflict
      [(s.getPart h.part).createdBy.tag + 2 ^ 16 * (s.getPart h.part).createdBy.ch, (s.getPart h.part).createdBy.opcode]))) ∧
  (∀ (taken : List (Nat × Nat)) (total n g : Nat), lowestFree taken total n = some g ↔
    (g + n ≤ total ∧ (∀ r ∈ taken, g + n ≤ r.1 ∨ r.1 + r.2 ≤ g)) ∧
      ∀ k, k < g → ¬ (k + n ≤ total ∧ ∀ r ∈ taken, k + n ≤ r.1 ∨ r.1 + r.2 ≤ k))

/-- R209 and R378: when the fills of a new partition have run, which an HBM channel that retrains and a hub link without traffic hold up, every byte of
its HBM and peat ranges, of its hub window and of its frond stores reads zero, no byte outside them has changed, and the partition exists. With
PART_CREATE still held on its channel, that command completes with OK. R209, R212 and R376: PART_DESTROY of a partition whose pattern is not ARMED or
RUNNING frees it without a fill: the record says who destroyed it, its twin counters stay (R306), it holds no context, and neither its far memory nor
another partition changes; that of a live one is CONFLICT with the words of its PATTERN_START (R377).
The model's own choices in it: log entry 22. -/
def Obligations.PartitionFillsAndDestroy : Prop :=
  (∀ (s : State) (p : Nat), (s.getPart p).life = .filling → s.aon.park = .no → s.mem.retraining = [] →
    (∀ l, l < 4 → Tab.get .up s.dies.link l = .up) →
    ∃ (t u : State), exec (.partCreateFillDone p) s = .next t ∧
      t = (if s.holds (s.getPart p).createdBy.ch 0x0101 p then u.answer (s.getPart p).createdBy.ch .ok [] else u) ∧
      u.getPart p = { s.getPart p with life := .exists_ } ∧ (∀ q, q ≠ p → u.getPart q = s.getPart q) ∧
      (∀ a, (s.getPart p).hbmBase ≤ a → a < (s.getPart p).hbmBase + (s.getPart p).hbmGib * 1073741824 → u.far.read a = 0) ∧
      (∀ a, (s.getPart p).peatBase ≤ a → a < (s.getPart p).peatBase + (s.getPart p).peatGib * 1073741824 → u.far.read a = 0) ∧
      (∀ a, hubWindow p ≤ a → a < hubWindow p + 524288 → u.far.read a = 0) ∧
      (∀ a, (a < (s.getPart p).hbmBase ∨ (s.getPart p).hbmBase + (s.getPart p).hbmGib * 1073741824 ≤ a) →
        (a < (s.getPart p).peatBase ∨ (s.getPart p).peatBase + (s.getPart p).peatGib * 1073741824 ≤ a) →
        (a < hubWindow p ∨ hubWindow p + 524288 ≤ a) → u.far.read a = s.far.read a) ∧
      (∀ f a, f < 576 → a < 4194304 → (s.getPart p).groups.getLsbD (frondGroup f) = true → u.store.read (storeKey f a) = 0) ∧
      (∀ f a, f < 576 → a < 4194304 → (s.getPart p).groups.getLsbD (frondGroup f) = false →
        u.store.read (storeKey f a) = s.store.read (storeKey f a)) ∧
      u = { s with part := u.part, far := u.far, frond := u.frond, store := u.store, localStore := u.localStore }) ∧
  (∀ (s : State) (ch : Nat) (h : Held) (b : List Byte), Commanded s 0x0102 ch h b → s.aon.park = .no →
    ((s.getPart h.part).live = false → ∃ t : State, exec (.partDestroy ch) s = .next (t.answer ch .ok []) ∧
      t.getPart h.part = { life := .destroyed, createdBy := (s.getPart h.part).createdBy
                           destroyedBy := { ch := ch, tag := h.tag, opcode := 0x0102 }
                           twin := { matches_ := (s.getPart h.part).twin.matches_, mismatches := (s.getPart h.part).twin.mismatches
                                     timeouts := (s.getPart h.part).twin.timeouts, collAborts := (s.getPart h.part).twin.collAborts } } ∧
      (∀ q, q ≠ h.part → t.getPart q = s.getPart q) ∧ t.far = s.far ∧ t.sync = s.sync ∧ t.faults = s.faults ∧ t.aon = s.aon ∧
      t.test = s.test ∧ t.bulk = s.bulk ∧ t.mem = s.mem ∧ t.rate = s.rate ∧ t.anns = s.anns) ∧
    ((s.getPart h.part).live = true → exec (.partDestroy ch) s = .next (s.answer ch .conflict
      [(s.getPart h.part).startedBy.tag + 2 ^ 16 * (s.getPart h.part).startedBy.ch, (s.getPart h.part).startedBy.opcode])))

/-- PART_QUERY, PATTERN_STATUS, TWIN_STATUS and POWER_REPORT answer OK with exactly the words that the spec lays out (11 *PART_QUERY reply*, R138, R360,
R351), and change nothing but their channel; POWER_REPORT also passes over the free value that stands for the measured power and energy, about which
nothing is said but its widths.
The model's own choices in it: log entry 12. -/
def Obligations.QueriesAnswerInWords : Prop :=
  ∀ (s : State) (ch : Nat) (h : Held) (b : List Byte) (q : Partition), q = s.getPart h.part →
    (Commanded s 0x0103 ch h b → exec (.partQuery ch) s = .next (s.answer ch .ok
      [1 + 2 ^ 8 * (match q.pat with | .empty => 0 | .loaded => 1 | .armed => 2 | .running => 3 | .halted => 4) + 2 ^ 16 * q.createdBy.tag,
       ((List.range 576).filter fun f => q.groups.getLsbD (frondGroup f) && !(s.faults.retired.getLsbD (frondGroup f))).length
         + 2 ^ 16 * ((List.range 144).filter fun g => q.groups.getLsbD g && !(s.faults.retired.getLsbD g)).length,
       q.hbmBase % 2 ^ 32, q.hbmBase / 2 ^ 32 % 2 ^ 32, q.peatBase % 2 ^ 32, q.peatBase / 2 ^ 32 % 2 ^ 32, q.hbmGib + 2 ^ 16 * q.peatGib,
       q.groups.toNat % 2 ^ 32, q.groups.toNat / 2 ^ 32 % 2 ^ 32, q.groups.toNat / 2 ^ 64 % 2 ^ 32, q.groups.toNat / 2 ^ 96 % 2 ^ 32,
       q.groups.toNat / 2 ^ 128 % 2 ^ 32])) ∧
    (Commanded s 0x0205 ch h b → exec (.patternStatus ch) s = .next (s.answer ch .ok
      [(match q.pat with | .empty => 0 | .loaded => 1 | .armed => 2 | .running => 3 | .halted => 4)
         + 2 ^ 16 * (match q.run.last with | some st => st.code | none => 0), q.run.slip,
       q.run.step % 2 ^ 32, q.run.step / 2 ^ 32 % 2 ^ 32, q.run.base % 2 ^ 32, q.run.base / 2 ^ 32 % 2 ^ 32, q.run.maxSlip, q.run.realigns,
       q.run.lateIssues % 2 ^ 32, q.run.lateIssues / 2 ^ 32 % 2 ^ 32, q.image.patternId % 2 ^ 32, q.image.patternId / 2 ^ 32 % 2 ^ 32,
       (match q.run.abortAt with | some a => a.1.x + 2 ^ 8 * a.1.y + 2 ^ 16 * a.1.z | none => 0),
       (match q.run.abortAt with | some a => a.2.1 | none => 0)])) ∧
    (Commanded s 0x0804 ch h b → exec (.twinStatus ch) s = .next (s.answer ch .ok
      [(match q.twin.state with | .unbound => 0 | .bound => 1 | .solo => 2)
         + 2 ^ 8 * (match q.twin.copy with | .none => 0 | .sending => 1 | .receiving => 2 | .complete => 3 | .failed => 4)
         + 2 ^ 16 * (if s.aon.park = .parked then 1 else 0), q.twin.discarded,
       q.twin.copyBytes % 2 ^ 32, q.twin.copyBytes / 2 ^ 32 % 2 ^ 32, q.twin.copyDone % 2 ^ 32, q.twin.copyDone / 2 ^ 32 % 2 ^ 32,
       q.twin.lastCompared % 2 ^ 32, q.twin.lastCompared / 2 ^ 32 % 2 ^ 32,
       (match s.links.plan with | some pl => pl.peer % 2 ^ 32 | none => 0),
       (match s.links.plan with | some pl => pl.peer / 2 ^ 32 % 2 ^ 32 | none => 0)])) ∧
    (Commanded s 0x0303 ch h b → ∃ (watts : BitVec 32) (joules : BitVec 64) (t : State), t = s.answer ch .ok
        [s.rate.run + 2 ^ 8 * s.rate.sched + 2 ^ 16 * s.lCap + 2 ^ 24 * s.rate.therm,
         (if s.aon.phase = .safeListen then 2 else if s.aon.park = .parked then 1 else 0) + 2 ^ 8 * s.anns.held.length,
         watts.toNat, twos 4 s.rate.tj, joules.toNat % 2 ^ 32, joules.toNat / 2 ^ 32 % 2 ^ 32,
         (s.rate.lastStep.getD 0) % 2 ^ 32, (s.rate.lastStep.getD 0) / 2 ^ 32 % 2 ^ 32,
         s.rate.targetKw, s.rate.ignored, s.rate.throttles, s.rate.lateSteps] ∧
      exec (.powerReport ch) s = .next { t with free := t.free + 1 })

/-- R352, R254, R399 and R383: DOMAIN_QUERY gives 192 bytes with the state of each of the 184 domains, LINK_REPORT 432 bytes with the plan and a record of
every port, SELFTEST_REPORT 512 bytes with every field of the record, FW_INFO its words; each changes nothing but its channel. R398: SELFTEST_RUN with
no partition left is ACCEPTED and begins a self-test of the mode asked for with phase 2; it answers when the test ends; with one left it is
NOT_PERMITTED. -/
def Obligations.ReportsAndSelfTestRun : Prop :=
  (∀ (s : State) (ch : Nat) (h : Held) (b : List Byte),
    (Commanded s 0x0304 ch h b → ∃ r : List Byte, exec (.domainQuery ch) s = .next (s.finish ch .ok [] r) ∧ r.length = 192 ∧
      (∀ d, d < 184 → (d < 144 → s.groupAbsent d = false ∧ s.faults.retired.getLsbD d = false) →
        nth 0 r d = (match s.getDom d with | .off => 0 | .wakingOff => 1 | .wakingRetain => 1 | .on => 2 | .retain => 3)) ∧
      (∀ d, d < 144 → s.groupAbsent d = true → nth 0 r d = 5) ∧
      (∀ d, d < 144 → s.groupAbsent d = false → s.faults.retired.getLsbD d = true → nth 0 r d = 4) ∧
      (∀ d, 184 ≤ d → nth 0 r d = 0)) ∧
    (Commanded s 0x0403 ch h b → ∃ r : List Byte, exec (.linkReport ch) s = .next (s.finish ch .ok [] r) ∧ r.length = 432 ∧
      nth 0 r 0 = BitVec.ofNat 8 s.links.profile ∧ (s.links.plan = none → slice r 1 15 = List.replicate 15 0) ∧
      (∀ pl, s.links.plan = some pl → nth 0 r 1 = (if s.links.checking then 1 else 2) ∧ nth 0 r 4 = BitVec.ofNat 8 pl.here.x ∧
        nth 0 r 5 = BitVec.ofNat 8 pl.here.y ∧ nth 0 r 6 = BitVec.ofNat 8 pl.here.z ∧ nth 0 r 7 = BitVec.ofNat 8 pl.twin ∧
        fld r 8 8 = pl.fabric % 2 ^ 64) ∧
      (∀ p, p < 13 → ∃ rec : List Byte, rec = slice r (16 + 32 * p) 32 ∧
        nth 0 rec 0 = (match (s.getPort p).state with
          | .unused => 0 | .bringup => 1 | .up => if s.isSelvage p then 7 else 2 | .held => 3 | .absent => 4 | .lost => 5 | .retired => 6) ∧
        nth 0 rec 1 = (match (s.getPort p).result with | .none => 0 | .ok => 1 | .miswired => 2 | .swapped => 3 | .absent => 4) ∧
        (∀ d, s.portDef p = some d → nth 0 rec 2 = BitVec.ofNat 8 d.lanes ∧ nth 0 rec 3 = BitVec.ofNat 8 d.dir ∧ nth 0 rec 4 = BitVec.ofNat 8 d.first) ∧
        nth 0 rec 5 = BitVec.ofNat 8 (s.getPort p).attempts ∧ nth 0 rec 6 = BitVec.ofNat 8 (s.getPort p).pair ∧
        fld rec 0x18 4 = (s.getPort p).rtt % 2 ^ 32 ∧
        (∀ o, (s.getPort p).obs = some o → nth 0 rec 8 = BitVec.ofNat 8 o.at_.x ∧ nth 0 rec 9 = BitVec.ofNat 8 o.at_.y ∧
          nth 0 rec 0xA = BitVec.ofNat 8 o.at_.z ∧ nth 0 rec 0xB = BitVec.ofNat 8 o.port ∧ nth 0 rec 0xC = BitVec.ofNat 8 o.twin ∧
          fld rec 0x10 8 = o.fabric % 2 ^ 64))) ∧
    (Commanded s 0x0701 ch h b → ∃ r : List Byte, exec (.selftestReport ch) s = .next (s.finish ch .ok [] r) ∧ r.length = 512 ∧
      nth 0 r 0 = BitVec.ofNat 8 s.test.result ∧ nth 0 r 1 = BitVec.ofNat 8 s.test.mode ∧ nth 0 r 2 = BitVec.ofNat 8 s.test.trigger ∧
      nth 0 r 3 = BitVec.ofNat 8 s.test.phase ∧ nth 0 r 4 = BitVec.ofNat 8 s.test.reason ∧ nth 0 r 5 = BitVec.ofNat 8 s.test.unitKind ∧
      fld r 6 2 = s.test.unit % 2 ^ 16 ∧ fld r 8 8 = s.test.run % 2 ^ 64 ∧ WordsAt r 0x10 4 7 (nth 0 s.test.ticks) ∧
      WordsAt r 0x40 4 4 (fun k => if s.test.trigger = 3 then 0 else
        nth 0 s.test.dieReason k + 2 ^ 8 * (s.getDie k).queries + 2 ^ 16 * (if (s.getDie k).cap.isSome then 1 else 0)) ∧
      fld r 0x50 4 = s.test.laneFail.toNat ∧ fld r 0x60 18 = s.test.groupFail.toNat ∧
      WordsAt r 0x80 4 12 (fun i => (nth 0 s.test.stack i).toNat) ∧ WordsAt r 0xB0 4 8 (fun k => (nth 0 s.test.peat k).toNat) ∧
      (∀ k c, k < 4 → s.test.trigger ≠ 3 → (s.getDie k).cap = some c → c.length = 64 → slice r (256 + 64 * k) 64 = c) ∧
      (∀ k, k < 4 → s.test.trigger = 3 ∨ (s.getDie k).cap = none → slice r (256 + 64 * k) 64 = List.replicate 64 0)) ∧
    (Commanded s 0x0A01 ch h b → exec (.fwInfo ch) s = .next (s.answer ch .ok
      [Config.fwRev.toNat, Config.romRev.toNat, 0x01000102, 1, Config.buildId.toNat]))) ∧
  (∀ (s : State) (ch : Nat) (h : Held) (b : List Byte), Commanded s 0x0702 ch h b → s.aon.park = .no → fld b 0 1 ≤ 1 → zeros b 1 4 = true →
    ((∀ p, p < 64 → (s.getPart p).alive = false) → ∃ t : State, exec (.selftestRun ch) s = .next { t with test := {
        trigger := 3, mode := fld b 0 1, phase := 2, run := satAdd 64 s.test.run 1, active := true, began := s.aon.ticks, full := false
        byCommand := some ch } } ∧ t = s.accept ch) ∧
    ((∃ p, p < 64 ∧ (s.getPart p).alive = true) → exec (.selftestRun ch) s = .next (s.answer ch .notPermitted [])))

/-- R403, R383 and R408: FAULT_POLICY sets one class's window and threshold, zero naming the class's default, and answers those that were in force;
FAULT_LOG_READ gives a header and the 64-byte entries from the sequence number asked for, at most as many as asked for; those entries, and no others,
count as read from then on. STATS_READ writes the record of the block it names, each of its fields in its place, and changes nothing but its channel.
The model's own choices in it: log entry 16. -/
def Obligations.FaultLogAndStatistics : Prop :=
  ∀ (s : State) (ch : Nat) (h : Held) (b : List Byte),
    (Commanded s 0x0903 ch h b → 1 ≤ fld b 0 1 → fld b 0 1 ≤ 13 → zeros b 1 4 = true → fld b 4 4 ≤ 3600 → fld b 8 4 ≤ 65535 →
      zeros b 0xC 0x10 = true →
      ∃ t : State, exec (.faultPolicy ch) s = .next (t.answer ch .ok [(s.policySet (fld b 0 1)).1, (s.policySet (fld b 0 1)).2]) ∧
        t.policySet (fld b 0 1) = (if fld b 4 4 = 0 then (classDefault (fld b 0 1)).1 else fld b 4 4,
                                   if fld b 8 4 = 0 then (classDefault (fld b 0 1)).2 else fld b 8 4) ∧
        (∀ c, c ≠ fld b 0 1 → t.policySet c = s.policySet c) ∧
        ((∀ e ∈ s.faults.policyPend, e.ch = ch) → ∀ c, t.policy c = t.policySet c) ∧
        t.faults.policyPend = s.faults.policyPend.filter (fun e => e.ch != ch) ∧
        t = { s with faults := { s.faults with policy := t.faults.policy, policyPend := t.faults.policyPend } }) ∧
    (Commanded s 0x0503 ch h b → 1 ≤ fld b 8 2 → fld b 8 2 ≤ 1023 → zeros b 0xA 0x10 = true → ∀ (oldest lo : Nat) (es : List LogEntry),
      oldest = (match s.faults.log with | e :: _ => e.seq | [] => s.faults.next) →
      lo = (if fld b 0 8 = 2 ^ 64 - 1 ∨ fld b 0 8 < oldest then oldest else fld b 0 8) →
      es = (s.faults.log.filter fun e => decide (lo ≤ e.seq)).take (fld b 8 2) →
      ∃ (t : State) (r : List Byte), exec (.faultLogRead ch) s = .next (t.finish ch .ok [] r) ∧ r.length = 32 + 64 * es.length ∧
        fld r 0 8 = oldest % 2 ^ 64 ∧ fld r 8 8 = s.faults.next % 2 ^ 64 ∧ fld r 0x10 2 = es.length ∧
        (∀ i e, es[i]? = some e → fld r (32 + 64 * i) 8 = e.seq % 2 ^ 64 ∧ fld r (40 + 64 * i) 8 = e.time % 2 ^ 64 ∧
          fld r (48 + 64 * i) 8 = e.stitch % 2 ^ 64 ∧ fld r (56 + 64 * i) 2 = e.code.code ∧ fld r (58 + 64 * i) 1 = e.cls % 256 ∧
          fld r (59 + 64 * i) 1 = e.kind % 256 ∧ fld r (60 + 64 * i) 1 = e.part % 256 ∧ fld r (61 + 64 * i) 1 = e.unitKind % 256 ∧
          fld r (62 + 64 * i) 2 = e.unit % 2 ^ 16 ∧ slice r (64 + 64 * i) 32 = slice e.detail 0 32) ∧
        t.faults.log = s.faults.log.map (fun (e : LogEntry) => { e with read := e.read || es.any fun x => x.seq == e.seq }) ∧
        t = { s with faults := { s.faults with log := t.faults.log } }) ∧
    (Commanded s 0x0501 ch h b → s.aon.phase = .up → (s.getPart h.part).life = .exists_ → 1 ≤ fld b 0 1 → fld b 0 1 ≤ 9 → zeros b 1 2 = true →
      zeros b 6 8 = true → (fld b 0 1 ≠ 4 → fld b 2 2 = 0 ∧ fld b 4 2 = 0) →
      (fld b 0 1 = 4 → 1 ≤ fld b 4 2 ∧ fld b 4 2 ≤ 576 ∧ fld b 2 2 + fld b 4 2 ≤ (s.getPart h.part).image.fronds) →
      ∃ r : List Byte, exec (.statsRead ch) s = .next (s.finish ch .ok [] r) ∧ StatsRecord s h.part (fld b 0 1) (fld b 2 2) (fld b 4 2) r)

/-- R337 and R340: with a shed in effect and no pattern live the package parks: the HBM stacks, the frond groups that are ON and the hub sections 2 to 5
are in RETAIN, the sections 0, 8 and 9 and the groups that wake are OFF, and contexts and far memory stay. A waking domain becomes ON; when every domain
is back the package is no longer parked, and the waking commands get their final statuses.
The model's own choices in it: log entries 49 and 88. -/
def Obligations.ParkAndWakeDomains : Prop :=
  ∀ s : State,
    (s.aon.phase = .up → s.aon.parkDue = true → s.aon.park = .no → (∀ p, p < 64 → (s.getPart p).live = false) →
      ∃ t : State, exec .parkedEntry s = .next t ∧ t.aon = { s.aon with park := .parked, parkDue := false } ∧
        (∀ d, d < 144 → t.getDom d = match s.getDom d with | .on => .retain | .wakingRetain => .retain | .retain => .retain | _ => .off) ∧
        (∀ d, 144 ≤ d → d < 164 ∨ 173 ≤ d → d < 177 → t.getDom d = .retain) ∧
        (∀ d, d = 171 ∨ d = 179 ∨ d = 180 → t.getDom d = .off) ∧
        (∀ d, d = 172 ∨ d = 177 ∨ d = 178 ∨ 181 ≤ d → d < 184 → s.getDom d = .on → t.getDom d = .on) ∧
        t = { s with aon := t.aon, dom := t.dom, frond := t.frond, store := t.store, localStore := t.localStore }) ∧
    (∀ ws : List (Nat × Status), s.aon.park = .waking → s.waking = ws → s.loading = none → s.ctxWaits = [] → ∃ t : State,
      exec .parkedWakeDone s = .next (ws.foldl (fun u w => u.answer w.1 w.2 []) t) ∧ t.aon = { s.aon with park := .no } ∧ t.waking = [] ∧
      (∀ d, d < 184 → t.getDom d = if s.getDom d = .wakingOff ∨ s.getDom d = .wakingRetain then .on else s.getDom d) ∧
      t = { s with aon := t.aon, dom := t.dom, waking := [] }) ∧
    (∀ d, s.getDom d = .wakingOff ∨ s.getDom d = .wakingRetain → s.loading = none → s.ctxWaits = [] → ∃ t : State,
      exec (.domainWakeDone d) s = .next t ∧ t.getDom d = .on ∧ (∀ k, k ≠ d → t.getDom k = s.getDom k) ∧ t = { s with dom := t.dom })

/-! ### Registers and host rings -/

/-- R4, R6, R370, R372, R384 and R386: an access that does not reach the package changes nothing. A register that is written acts by its access code:
MB_DATA, the bulk buffer of a channel that holds no command and the masks take the value, a STATUS register of a cause group clears the bits written 1;
after a change of the cause tree the MSI-X side follows it. A GO latches the command's header and parameters and makes the channel BUSY, or sets OVERRUN
while the channel holds one; one with an opcode that is not in the table is answered BAD_OPCODE at once. DB_RING_MASK frees the RXPOST bit that it held.
Nothing else changes.
The model's own choices in it: log entry 70. -/
def Obligations.RegisterWritesFollowAccessCodes : Prop :=
  ∀ (s : State) (a : RegAccess) (v : Word) (host : HostRead) (rs : List HostRead),
    (s.reaches a = false → s.reachesFunction a = false → exec (.registerWrite a v ⟨host, rs⟩) s = .next s) ∧
    (∀ c o, s.reaches a = true → accBlock a = some (c, o) → o < 0x40 → ∃ t : State, exec (.registerWrite a v ⟨host, rs⟩) s = .next t ∧
      t.getChan c = { s.getChan c with data := (s.getChan c).data.set (o / 4) v } ∧ (∀ k, k ≠ c → t.getChan k = s.getChan k) ∧
      t = { s with chan := t.chan }) ∧
    (∀ c, s.reaches a = true → accBlock a = some (c, 0x88) → ∃ t : State, exec (.registerWrite a v ⟨host, rs⟩) s = .next t ∧
      t.getChan c = { s.getChan c with dbMask := v } ∧ (∀ k, k ≠ c → t.getChan k = s.getChan k) ∧ MsixAfter s t ∧
      t = { s with chan := t.chan, irq := { s.irq with msiSet := t.irq.msiSet }, pcie := t.pcie, out := t.out }) ∧
    (∀ c, s.reaches a = true → accBlock a = some (c, 0x90) → v.getLsbD 31 = true ∨ (s.getChan c).ring.getLsbD 31 = false ∨ c < 4 →
      ∃ t : State, exec (.registerWrite a v ⟨host, rs⟩) s = .next t ∧
        t.getChan c = { s.getChan c with ringMask := v, ring := (t.getChan c).ring } ∧
        (∀ i, 0 < i → (t.getChan c).ring.getLsbD i = (s.getChan c).ring.getLsbD i) ∧
        (t.getChan c).ring.getLsbD 0 = (v.getLsbD 0 && (s.getChan c).ring.getLsbD 0) ∧
        (∀ k, k ≠ c → t.getChan k = s.getChan k) ∧ t = { s with chan := t.chan }) ∧
    (∀ n, s.reaches a = true → accBlock a = none → accBulk a = none → accGroup a = some (n, 0) → n < 11 → s.irq.status.length = 11 →
      ∃ t : State, exec (.registerWrite a v ⟨host, rs⟩) s = .next t ∧ nth 0 t.irq.status n = nth 0 s.irq.status n &&& ~~~(v &&& w1cBits n) ∧
        (∀ k, k ≠ n → nth 0 t.irq.status k = nth 0 s.irq.status k) ∧ MsixAfter s t ∧
        t = { s with irq := { s.irq with status := t.irq.status, msiSet := t.irq.msiSet }, pcie := t.pcie, out := t.out }) ∧
    (∀ n, s.reaches a = true → accBlock a = none → accBulk a = none → accGroup a = some (n, 1) → n < 11 → s.irq.mask.length = 11 →
      ∃ t : State, exec (.registerWrite a v ⟨host, rs⟩) s = .next t ∧ nth 0 t.irq.mask n = v &&& groupBits n ∧
        (∀ k, k ≠ n → nth 0 t.irq.mask k = nth 0 s.irq.mask k) ∧ MsixAfter s t ∧
        t = { s with irq := { s.irq with mask := t.irq.mask, msiSet := t.irq.msiSet }, pcie := t.pcie, out := t.out }) ∧
    (∀ n, s.reaches a = true → accBlock a = none → accBulk a = none → accGroup a = some (n, 1) → n = 16 ∨ n = 17 → s.irq.maskExt.length = 2 →
      ∃ t : State, exec (.registerWrite a v ⟨host, rs⟩) s = .next t ∧ nth 0 t.irq.maskExt (n - 16) = v ∧
        nth 0 t.irq.maskExt (17 - n) = nth 0 s.irq.maskExt (17 - n) ∧ MsixAfter s t ∧
        t = { s with irq := { s.irq with maskExt := t.irq.maskExt, msiSet := t.irq.msiSet }, pcie := t.pcie, out := t.out }) ∧
    (s.reaches a = true → a.off = 0x44 → ∃ t : State, exec (.registerWrite a v ⟨host, rs⟩) s = .next t ∧ t.irq.topMask = v &&& 0x7FF#32 ∧ MsixAfter s t ∧
      t = { s with irq := { s.irq with topMask := t.irq.topMask, msiSet := t.irq.msiSet }, pcie := t.pcie, out := t.out }) ∧
    (s.reaches a = true → a.off = 0x48 → ∃ t : State, exec (.registerWrite a v ⟨host, rs⟩) s = .next t ∧ t.irq.topRoute = v &&& 0x87FF07FF#32 ∧
      MsixAfter s t ∧ t = { s with irq := { s.irq with topRoute := t.irq.topRoute, msiSet := t.irq.msiSet }, pcie := t.pcie, out := t.out }) ∧
    (∀ c x, s.reaches a = true → accBlock a = none → accBulk a = some (c, x) →
      ((s.getChan c).busy = true → exec (.registerWrite a v ⟨host, rs⟩) s = .next s) ∧
      ((s.getChan c).busy = false → ∃ t : State, exec (.registerWrite a v ⟨host, rs⟩) s = .next t ∧
        (∀ i, i < 4 → t.bulk.read (x + i) = BitVec.ofNat 8 (v.toNat / 256 ^ i)) ∧
        (∀ k, k < x ∨ x + 4 ≤ k → t.bulk.read k = s.bulk.read k) ∧ t = { s with bulk := t.bulk })) ∧
    (∀ c, s.reaches a = true → accBlock a = some (c, 0x40) → v = 4 → exec (.registerWrite a v ⟨host, rs⟩) s =
      .next (s.updChan c fun x => { x with overrun := false })) ∧
    (∀ c h, s.reaches a = true → accBlock a = some (c, 0x40) → v = 1 → (s.getChan c).busy = true → (s.getChan c).held = some h →
      h.via = .mailbox ∨ h.stepped = true ∨ h.tick ≠ s.aon.ticks →
      ∃ t : State, exec (.registerWrite a v ⟨host, rs⟩) s = .next t ∧ t.getChan c = { s.getChan c with overrun := true } ∧
        (∀ k, k ≠ c → t.getChan k = s.getChan k) ∧ t = { s with chan := t.chan }) ∧
    (∀ c, s.reaches a = true → accBlock a = some (c, 0x40) → v = 1 → (s.getChan c).busy = false → (s.getChan c).data.length = 16 →
      ∀ (w0 w1 : Word) (bytes : List Byte), w0 = nth 0 (s.getChan c).data 0 → w1 = nth 0 (s.getChan c).data 1 →
      bytes = (s.getChan c).data.flatMap (fun w => leBytes 4 w.toNat) →
      ((opInfo (w0.toNat % 2 ^ 16)).isSome = true →
        ∃ (t : State) (h : Held), exec (.registerWrite a v ⟨host, rs⟩) s = .next t ∧
          t.getChan c = { s.getChan c with ackValid := false, final := false, code := 0, tag := 0, reply := List.replicate 16 0, busy := true, held := some h } ∧
          h.opcode = w0.toNat % 2 ^ 16 ∧ h.part = w0.toNat / 2 ^ 16 % 2 ^ 6 ∧ h.flags = w0.toNat / 2 ^ 24 % 16 ∧ h.tag = w1.toNat % 2 ^ 16 ∧
          h.length = w1.toNat / 2 ^ 16 ∧ h.addr = fld bytes 8 8 ∧
          h.params = (if w0.getLsbD 24 = false then .ok (bytes.drop 16) else if w0.getLsbD 25 = true then host
            else .ok (s.bulk.readN (65536 * c) (w1.toNat / 2 ^ 16))) ∧
          h.stepped = false ∧ h.acked = false ∧ h.via = .mailbox ∧ h.tick = s.aon.ticks ∧ h.at_ = s.sync.stitch ∧
          (∀ k, k ≠ c → t.getChan k = s.getChan k) ∧
          (h.opcode ≠ 0x0903 → t.faults.policyPend = s.faults.policyPend.filter fun e => e.ch != c) ∧
          (∀ e ∈ t.faults.policyPend, e ∈ s.faults.policyPend ∨ e.ch = c) ∧
          t = { s with chan := t.chan, faults := { s.faults with policyPend := t.faults.policyPend } }) ∧
      ((opInfo (w0.toNat % 2 ^ 16)).isSome = false →
        ∃ t : State, exec (.registerWrite a v ⟨host, rs⟩) s = .next t ∧ (t.getChan c).busy = false ∧ (t.getChan c).held = none ∧
          (t.getChan c).ackValid = true ∧ (t.getChan c).final = true ∧ (t.getChan c).code = 0x20 ∧ (t.getChan c).tag = w1.toNat % 2 ^ 16 ∧
          (t.getChan c).db.getLsbD 0 = true ∧ (∀ k, k ≠ c → t.getChan k = s.getChan k) ∧ MsixAfter s t ∧
          t = { s with chan := t.chan, irq := { s.irq with msiSet := t.irq.msiSet }, pcie := t.pcie, out := t.out })) ∧
    (∀ p : Pcie, s.reachesFunction a = true → (a.path = .bar2 ∧ p = s.pcie.bar2Write a.off v ∨ a.path = .config ∧ p = s.pcie.configWrite a.off v) →
      exec (.registerWrite a v ⟨host, rs⟩) s = .next (if s.hostPower = true ∧ s.aon.perstN = true ∧ p.msixOn = true ∧ p.funcMask = false ∧
          p.vecMask = false ∧ p.d3hot = false ∧ p.pend = true
        then { s with pcie := { p with pend := false }, out := s.out ++ [.msix p.msgAddr p.msgData] } else { s with pcie := p }))

/-- R372, R387, R389 and R6: RXPOST is taken at once when it is not masked and stays set when it is; DB_CLEAR clears the DB_STATUS bits written
1; RX_TAIL takes the new tail, and the descriptors from the old one on are those posted; RX_CTRL with ENABLE 0 to 1 and fields in range sets RX_HEAD and
RSEQ to 0, with fields out of range it stays off, and while enabled only ENABLE can be written; reading RXRING_DROP returns the count and clears it. Each
changes its own channel only, and an access to another register changes nothing.
The model's own choices in it: log entry 4. -/
def Obligations.DoorbellsAndReceiveRing : Prop :=
  (∀ (s : State) (a : RegAccess) (v : Word) (c : Nat),
    (s.atReg a 0x80 = some c → v.getLsbD 0 = true → ∃ t : State, exec (.dbRingRxpost a v) s = .next t ∧
      (t.getChan c).ring.getLsbD 0 = (s.getChan c).ringMask.getLsbD 0 ∧
      (∀ i, 0 < i → (t.getChan c).ring.getLsbD i = (s.getChan c).ring.getLsbD i) ∧
      t.getChan c = { s.getChan c with ring := (t.getChan c).ring } ∧
      (∀ k, k ≠ c → t.getChan k = s.getChan k) ∧ t = { s with chan := t.chan }) ∧
    (s.atReg a 0x80 = some c → v.getLsbD 0 = false → exec (.dbRingRxpost a v) s = .next s) ∧
    (s.atReg a 0x8C = some c → ∃ t : State, exec (.dbClear a v) s = .next t ∧ t.getChan c = { s.getChan c with db := (s.getChan c).db &&& ~~~v } ∧
      (∀ k, k ≠ c → t.getChan k = s.getChan k) ∧ MsixAfter s t ∧
      t = { s with chan := t.chan, irq := { s.irq with msiSet := t.irq.msiSet }, pcie := t.pcie, out := t.out }) ∧
    (∀ bufs, s.atReg a 0x14C = some c → ringChannel c = true → ∃ t : State, exec (.rxTailWrite a v bufs) s = .next t ∧
      t.getChan c = { s.getChan c with rxTail := v.toNat % 2 ^ 16, bufAddr := (t.getChan c).bufAddr } ∧
      (bufs.length ≤ 2 ^ (s.getChan c).sizeLog2 → (∀ k, k < bufs.length →
          Tab.get 0 (t.getChan c).bufAddr (((s.getChan c).rxTail + k) % 2 ^ (s.getChan c).sizeLog2) = nth 0 bufs k / 64 * 64) ∧
        (∀ i, (∀ k, k < bufs.length → i ≠ ((s.getChan c).rxTail + k) % 2 ^ (s.getChan c).sizeLog2) →
          Tab.get 0 (t.getChan c).bufAddr i = Tab.get 0 (s.getChan c).bufAddr i)) ∧
      (∀ k, k ≠ c → t.getChan k = s.getChan k) ∧ t = { s with chan := t.chan }) ∧
    (∀ (units log2 : Nat) (t : State), s.atReg a 0x148 = some c → ringChannel c = true → units = bits v.toNat 31 16 → log2 = bits v.toNat 11 8 →
      ((s.getChan c).rxOn = false → v.getLsbD 0 = true → 4 ≤ units → units ≤ 1024 → 6 ≤ log2 → log2 ≤ 15 →
        t = s.updChan c (fun x => { x with bufUnits := units, sizeLog2 := log2, rxOn := true, rxHead := 0, rseq := 0 }) →
        exec (.rxCtrlWrite a v) s = .next t) ∧
      ((s.getChan c).rxOn = false → v.getLsbD 0 = false ∨ units < 4 ∨ 1024 < units ∨ log2 < 6 ∨ 15 < log2 →
        t = s.updChan c (fun x => { x with bufUnits := units, sizeLog2 := log2 }) → exec (.rxCtrlWrite a v) s = .next t) ∧
      ((s.getChan c).rxOn = true → t = s.updChan c (fun x => { x with rxOn := v.getLsbD 0 }) → exec (.rxCtrlWrite a v) s = .next t)) ∧
    (s.atReg a 0x154 = some c → ringChannel c = true → ∃ t : State, exec (.rxringDropRead a) s = .next t ∧
      t.getChan c = { s.getChan c with rxDrop := 0 } ∧ t.out = s.out ++ [.regData (BitVec.ofNat 32 (s.getChan c).rxDrop)] ∧
      (∀ k, k ≠ c → t.getChan k = s.getChan k) ∧ t = { s with chan := t.chan, out := t.out })) ∧
  (∀ (s : State) (a : RegAccess) (v : Word) (bufs : List Nat),
    (s.atReg a 0x80 = none → exec (.dbRingRxpost a v) s = .next s) ∧ (s.atReg a 0x8C = none → exec (.dbClear a v) s = .next s) ∧
    (s.atReg a 0x14C = none → exec (.rxTailWrite a v bufs) s = .next s) ∧ (s.atReg a 0x148 = none → exec (.rxCtrlWrite a v) s = .next s) ∧
    (s.atReg a 0x154 = none → exec (.rxringDropRead a) s = .next s))

/-! ### Announcements and power -/

/-- R281 to R285 and R348: an announcement not known before is held until its EFFECTIVE stitch, or, late, until the next boundary, counted and
reported; it is remembered and relayed on every other UP fabric port that is no selvage port. One more than 65,536 stitches late, or the 65th, is dropped
and counted. One already known, applied or not, changes nothing further. Those due are applied in the order of EFFECTIVE, rank of the origin and SEQ: a rate
announcement for a partition that holds a pattern sets L_sched to its level, or to the highest enabled level within the target; another one is counted as
ignored; a twin announcement is kept for its partition, and one of another fabric is counted. It is forgotten 65,536 stitches after EFFECTIVE. -/
def Obligations.AnnouncementsHeldAndApplied : Prop :=
  (∀ (s : State) (p : Nat) (f : Frame) (a : Ann), f.kind = 5 → Deliverable s p f → a = annParse f.payload s.sync.stitch →
    a.effective = fld f.payload 0 8 ∧ a.seq = fld f.payload 8 4 ∧
    ((∃ e ∈ s.anns.known, e.1 = a.origin ∧ e.2.1 = a.seq) ∨ (∃ e ∈ s.anns.held, e.origin = a.origin ∧ e.seq = a.seq) →
      ∃ t : State, exec (.broadcastFrame p f) s = .next t ∧ (∀ q, (t.getPort q).tx = (s.getPort q).tx) ∧
        (∀ q, q ≠ p → t.getPort q = s.getPort q) ∧ t = { s with links := { s.links with port := t.links.port } }) ∧
    ((∀ e ∈ s.anns.known, e.1 = a.origin → e.2.1 ≠ a.seq) → (∀ e ∈ s.anns.held, e.origin = a.origin → e.seq ≠ a.seq) →
      (s.sync.stitch ≤ a.effective + 65536 → s.anns.held.length < 64 → ∃ t : State, exec (.broadcastFrame p f) s = .next t ∧
        t.anns = { s.anns with held := s.anns.held ++ [a], known := s.anns.known ++ [(a.origin, a.seq, a.effective)],
                               late := if a.effective ≤ s.sync.stitch then satAdd 64 s.anns.late 1 else s.anns.late } ∧
        (s.sync.stitch < a.effective → a.due = a.effective ∧ t.irq = s.irq ∧ t.pcie = s.pcie ∧ t.out = s.out) ∧
        (a.effective ≤ s.sync.stitch → a.due = s.sync.stitch + 1 ∧ (s.irq.status.length = 11 → t.caused .annLate)) ∧
        (∀ q, q ≠ p → q < 12 → (s.getPort q).state = .up → s.isSelvage q = false → t.getPort q = { s.getPort q with
          tx := (s.getPort q).tx ++ [{ dst := neighbour s.size s.here (s.dirOf q), src := s.here, kind := 5, vl := 2, payload := a.bytes }] }) ∧
        (∀ q, q ≠ p → 12 ≤ q ∨ (s.getPort q).state ≠ .up ∨ s.isSelvage q = true → t.getPort q = s.getPort q) ∧
        (t.getPort p).tx = (s.getPort p).tx ∧
        t = { s with anns := t.anns, links := { s.links with port := t.links.port }, irq := t.irq, pcie := t.pcie, out := t.out }) ∧
      (a.effective + 65536 < s.sync.stitch ∨ 64 ≤ s.anns.held.length → ∃ t : State, exec (.broadcastFrame p f) s = .next t ∧
        t.anns = { s.anns with dropped := satAdd 64 s.anns.dropped 1 } ∧ (s.irq.status.length = 11 → t.caused .annDropped) ∧
        (∀ q, (t.getPort q).tx = (s.getPort q).tx) ∧
        t = { s with anns := t.anns, links := { s.links with port := t.links.port }, irq := t.irq, pcie := t.pcie, out := t.out }))) ∧
  (∀ (s : State) (a : Ann) (q : Partition), s.anns.held = [a] → a.due ≤ s.sync.stitch → a.atype = 1 → q = s.getPart (fld a.body 1 1) →
    (fld a.body 0 1 = 2 → fld a.body 1 1 < 64 → q.holds = true → enables q.image.rate (fld a.body 2 1) = true →
      exec .announcementApply s = .next { s with anns := { s.anns with held := [] }, rate := { s.rate with sched := fld a.body 2 1 } }) ∧
    (∀ l, fld a.body 0 1 = 1 → fld a.body 1 1 < 64 → q.holds = true → l < 16 → enables q.image.rate l = true →
      (nth {} q.image.rate l).watts ≤ fld a.body 4 4 * 1000 / max q.image.fabricPackages 1 →
      (∀ k, l < k → k < 16 → enables q.image.rate k = true → fld a.body 4 4 * 1000 / max q.image.fabricPackages 1 < (nth {} q.image.rate k).watts) →
      exec .announcementApply s =
        .next { s with anns := { s.anns with held := [] }, rate := { s.rate with sched := l, targetKw := fld a.body 4 4 } }) ∧
    (64 ≤ fld a.body 1 1 ∨ q.holds = false ∨ (fld a.body 0 1 = 2 ∧ enables q.image.rate (fld a.body 2 1) = false) →
      ∃ t : State, exec .announcementApply s = .next t ∧ (s.irq.status.length = 11 → t.caused .annIgnored) ∧
        t = { s with anns := { s.anns with held := [] }, rate := { s.rate with ignored := satAdd 32 s.rate.ignored 1 }, irq := t.irq, pcie := t.pcie
                     out := t.out })) ∧
  (∀ (s : State) (a b : Ann), s.anns.held = [a, b] ∨ s.anns.held = [b, a] → (∀ x, x = a ∨ x = b → x.due ≤ s.sync.stitch ∧ x.atype = 1 ∧
      fld x.body 0 1 = 2 ∧ fld x.body 1 1 < 64 ∧ (s.getPart (fld x.body 1 1)).holds = true ∧
      enables (s.getPart (fld x.body 1 1)).image.rate (fld x.body 2 1) = true) →
    a.effective < b.effective ∨ (a.effective = b.effective ∧ rankOf s.size a.origin < rankOf s.size b.origin) ∨
      (a.effective = b.effective ∧ a.origin = b.origin ∧ a.seq < b.seq) →
    exec .announcementApply s = .next { s with anns := { s.anns with held := [] }, rate := { s.rate with sched := fld b.body 2 1 } }) ∧
  (∀ (s : State) (a : Ann) (pl : Plan), s.anns.held = [a] → a.due ≤ s.sync.stitch → a.atype = 2 → s.links.plan = some pl →
    (fld a.body 2 1 = pl.twin → fld a.body 1 1 < 64 → ∃ t : State, exec .announcementApply s = .next t ∧
      t.getPart (fld a.body 1 1) = { s.getPart (fld a.body 1 1) with twin := { (s.getPart (fld a.body 1 1)).twin with
        acts := (s.getPart (fld a.body 1 1)).twin.acts ++ [(fld a.body 0 1, a.effective, fld a.body 4 4)] } } ∧
      (∀ q, q ≠ fld a.body 1 1 → t.getPart q = s.getPart q) ∧ t = { s with anns := { s.anns with held := [] }, part := t.part }) ∧
    (fld a.body 2 1 ≠ pl.twin → exec .announcementApply s =
      .next { s with anns := { s.anns with held := [], foreign := satAdd 64 s.anns.foreign 1 } })) ∧
  (∀ s : State, (∀ a ∈ s.anns.held, s.sync.stitch < a.due) → exec .announcementApply s = .next s) ∧
  (∀ (s : State) (o : Coord) (q : Nat), exec (.announcementForget o q) s = .next { s with anns := { s.anns with
    known := s.anns.known.filter fun e => !(e.1 == o && e.2.1 == q && decide (e.2.2 + 65536 ≤ s.sync.stitch)) } })

/-- R282, R347: POWER_TARGET and an announced RATE_SET at least 50,000 stitches ahead hold the announcement with the next number, send it on every port
that carries broadcasts and answer OK; nearer ones are BAD_PARAM, a 65th is BUSY. A local RATE_SET waits for its boundary, the next one with EFFECTIVE 0,
where the last one accepted gives L_sched. R343, R344, R350 and R16: at an opportunity with everything due applied, L_run steps down towards a lower goal by
at most four levels: the clock switches to the standby PLL, the dies are told in ring order and then the supplies; above 100 degrees C L_therm falls to
four levels below L_run first. A rise waits until its voltage is ready, which is asked for one wake lead before, and is late when it waited.
The model's own choices in it: log entries 29 and 48. -/
def Obligations.PowerCommandsAndRunLevel : Prop :=
  (∀ (s : State) (ch : Nat) (h : Held) (b : List Byte) (mode level kw : Nat) (c : Instr),
    (Commanded s 0x0301 ch h b ∧ c = .powerTarget ch ∧ mode = 1 ∧ level = 0 ∧ kw = fld b 8 4 ∧ 1 ≤ kw ∧ zeros b 0xC 0x10 = true) ∨
      (Commanded s 0x0302 ch h b ∧ c = .rateSet ch ∧ mode = 2 ∧ level = fld b 8 1 ∧ kw = 0 ∧ level ≤ 15 ∧ fld b 9 1 = 1 ∧ zeros b 0xA 0x10 = true ∧
        enables (s.getPart h.part).image.rate level = true) →
    ((s.getPart h.part).holds = true → s.sync.stitch + 50000 ≤ fld b 0 8 → s.anns.held.length < 64 →
      ∃ (t : State) (a : Ann), exec c s = .next (t.answer ch .ok []) ∧ t.anns = { s.anns with
          held := s.anns.held ++ [a], known := s.anns.known ++ [(s.here, s.anns.seq, fld b 0 8)], seq := (s.anns.seq + 1) % 2 ^ 32 } ∧
        a.effective = fld b 0 8 ∧ a.due = fld b 0 8 ∧ a.seq = s.anns.seq ∧ a.origin = s.here ∧ a.atype = 1 ∧ a.body.length = 112 ∧
        fld a.body 0 1 = mode ∧ fld a.body 1 1 = h.part % 256 ∧ fld a.body 2 1 = level ∧ fld a.body 4 4 = kw ∧ zeros a.body 8 112 = true ∧
        (∀ q, q < 12 → (s.getPort q).state = .up → s.isSelvage q = false → t.getPort q = { s.getPort q with
          tx := (s.getPort q).tx ++ [{ dst := neighbour s.size s.here (s.dirOf q), src := s.here, kind := 5, vl := 2, payload := a.bytes }] }) ∧
        (∀ q, 12 ≤ q ∨ (s.getPort q).state ≠ .up ∨ s.isSelvage q = true → t.getPort q = s.getPort q) ∧
        t = { s with anns := t.anns, links := { s.links with port := t.links.port } }) ∧
    ((s.getPart h.part).holds = true → fld b 0 8 < s.sync.stitch + 50000 → exec c s = .next (s.answer ch .badParam [])) ∧
    ((s.getPart h.part).holds = true → s.sync.stitch + 50000 ≤ fld b 0 8 → 64 ≤ s.anns.held.length → exec c s = .next (s.answer ch .busy [])) ∧
    ((s.getPart h.part).holds = false → exec c s = .next (s.answer ch .notPermitted []))) ∧
  (∀ (s : State) (ch : Nat) (h : Held) (b : List Byte), Commanded s 0x0302 ch h b → fld b 8 1 ≤ 15 → fld b 9 1 = 0 → zeros b 0xA 0x10 = true →
    (s.getPart h.part).holds = true → enables (s.getPart h.part).image.rate (fld b 8 1) = true →
    (fld b 0 8 = 0 ∨ s.sync.stitch < fld b 0 8 → exec (.rateSet ch) s = .next (State.answer ch .ok []
      { s with rate := { s.rate with locals := s.rate.locals ++ [(if fld b 0 8 = 0 then s.sync.stitch + 1 else fld b 0 8, fld b 8 1)] } })) ∧
    (fld b 0 8 ≠ 0 → fld b 0 8 ≤ s.sync.stitch → exec (.rateSet ch) s = .next (s.answer ch .badParam []))) ∧
  (∀ (s : State) (pre later : List (Nat × Nat)) (k l : Nat), (∀ a ∈ s.anns.held, s.sync.stitch < a.due) → s.rate.locals = pre ++ (k, l) :: later →
    k ≤ s.sync.stitch → (∀ e ∈ later, s.sync.stitch < e.1) → exec .localRateApply s = .next { s with rate := { s.rate with
      sched := l, locals := s.rate.locals.filter fun e => decide (s.sync.stitch < e.1) } }) ∧
  (∀ s : State, (∃ a ∈ s.anns.held, a.due ≤ s.sync.stitch) ∨ (∀ e ∈ s.rate.locals, s.sync.stitch < e.1) → exec .localRateApply s = .next s) ∧
  (∀ (s : State) (g : Nat), (∀ a ∈ s.anns.held, s.sync.stitch < a.due) → (∀ e ∈ s.rate.locals, s.sync.stitch < e.1) → s.aon.phase = .up →
    s.mayStep s.sync.stitch = true → s.rate.tj < 1600 → g = s.goal s.rate.sched s.rate.therm →
    (∀ l, g < s.rate.run → l = max g (s.rate.run - 4) → (∀ r, r < 4 → s.ctlGoes r) → ∃ t : State, exec .rateStep s = .next t ∧
      t.rate = { s.rate with
        run := l, lastStep := some s.sync.stitch, ready := none, delayed := false, mv := levelMv l, mvOld := s.rate.mv, mvAt := some s.aon.ticks
        writes := s.rate.writes + 1, pll := s.rate.pll.map (fun p => { active := l, standby := some p.active })
        throttles := if s.goal s.rate.sched 15 = g then s.rate.throttles else satAdd 32 s.rate.throttles 1 } ∧
      (s.irq.status.length = 11 → t.caused .level) ∧
      (∃ more, t.out = s.out ++ [.ctl 0 (.rate l), .ctl 1 (.rate l), .ctl 2 (.rate l), .ctl 3 (.rate l), .avs 0 (levelMv l), .avs 1 (levelMv l),
        .avs 2 (levelMv l), .avs 3 (levelMv l), .avs 4 (levelMv l)] ++ more ∧ (more = [] ∨ more = [.msix s.pcie.msgAddr s.pcie.msgData])) ∧
      t = { s with rate := t.rate, irq := t.irq, pcie := t.pcie, out := t.out }) ∧
    (g = s.rate.run → exec .rateStep s = .next { s with rate := { s.rate with delayed := false } }) ∧
    (∀ l, s.rate.run < g → l = min g (s.rate.run + 4) →
      ((∀ k, s.rate.ready = some (l, k) → s.sync.stitch < k + s.leadTo l) →
        exec .rateStep s = .next { s with rate := { s.rate with delayed := true } }) ∧
      (∀ k, s.rate.ready = some (l, k) → k + s.leadTo l ≤ s.sync.stitch → (∀ r, r < 4 → s.ctlGoes r) → ∃ t : State, exec .rateStep s = .next t ∧
        t.rate = { s.rate with
          run := l, lastStep := some s.sync.stitch, ready := none, delayed := false, pll := s.rate.pll.map (fun p => { active := l, standby := some p.active })
          lateSteps := if s.rate.delayed then satAdd 32 s.rate.lateSteps 1 else s.rate.lateSteps } ∧
        (s.irq.status.length = 11 → t.caused .level) ∧
        (∃ more, t.out = s.out ++ [.ctl 0 (.rate l), .ctl 1 (.rate l), .ctl 2 (.rate l), .ctl 3 (.rate l)] ++ more ∧
          (more = [] ∨ more = [.msix s.pcie.msgAddr s.pcie.msgData])) ∧
        t = { s with rate := t.rate, irq := t.irq, pcie := t.pcie, out := t.out }))) ∧
  (∀ s : State, (∀ a ∈ s.anns.held, s.sync.stitch < a.due) → (∀ e ∈ s.rate.locals, s.sync.stitch < e.1) → s.aon.phase = .up →
    s.mayStep s.sync.stitch = true → 1600 ≤ s.rate.tj → ∃ t : State, exec .rateStep s = .next t ∧
      t.rate.therm = min s.rate.therm (s.rate.run - 4) ∧ t.rate.run = max (s.goal s.rate.sched t.rate.therm) (s.rate.run - 4) ∧
      (t.rate.therm < s.rate.therm → s.irq.status.length = 11 → t.caused .throttle) ∧ t.rate.sched = s.rate.sched ∧
      t = { s with rate := t.rate, irq := t.irq, pcie := t.pcie, out := t.out, dies := { s.dies with odp := t.dies.odp } }) ∧
  (∀ s : State, s.aon.phase ≠ .up ∨ (∃ a ∈ s.anns.held, a.due ≤ s.sync.stitch) ∨ (∃ e ∈ s.rate.locals, e.1 ≤ s.sync.stitch) ∨
      s.mayStep s.sync.stitch = false → exec .rateStep s = .next s) ∧
  (∀ (s : State) (l : Nat), s.aon.phase = .up → s.anns.held = [] → s.rate.locals = [] → s.rate.run < s.goal s.rate.sched s.rate.therm →
    l = min (s.goal s.rate.sched s.rate.therm) (s.rate.run + 4) → s.wakeLead l ≤ 1000 →
    s.mayStep (s.sync.stitch + leadStitches s.rate.run (s.wakeLead l)) = true →
    ((∀ k, s.rate.ready ≠ some (l, k)) → exec .rateWakeLead s = .next { s with
      rate := { s.rate with ready := some (l, s.sync.stitch), mv := levelMv l, mvOld := s.rate.mv, mvAt := some s.aon.ticks, writes := s.rate.writes + 1
                            pll := s.rate.pll.map (fun p => { p with standby := some l }) }
      out := s.out ++ [.avs 0 (levelMv l), .avs 1 (levelMv l), .avs 2 (levelMv l), .avs 3 (levelMv l), .avs 4 (levelMv l)] }) ∧
    (∀ k, s.rate.ready = some (l, k) → exec .rateWakeLead s = .next s)) ∧
  (∀ s : State, s.aon.phase ≠ .up ∨ (s.anns.held = [] ∧ s.rate.locals = [] ∧ s.goal s.rate.sched s.rate.therm ≤ s.rate.run) →
    exec .rateWakeLead s = .next s)

/-! ### Contexts, batches and windows -/

/-- R313 to R316: CTX_OPEN takes the lowest FREE entry, whose GEN becomes the next one and never 0, and answers its handle; the entry holds
the parameters. With the quota reached, or with the table full and the reservation used up, the answer is TABLE_FULL with the counts, which cause is counted,
and CTX_FULL is set; bad parameters and a partition without a pattern that can run are refused. While the context array is not ON the command is
ACCEPTED and waits; the array is switched on for it, and it opens its context when the array is ON (R337).
The model's own choices in it: log entry 88. -/
def Obligations.ContextOpenTakesLowestFree : Prop :=
  (∀ (s : State) (ch : Nat) (h : Held) (b : List Byte) (q : Partition), Commanded s 0x0601 ch h b → q = s.getPart h.part →
    (q.pat = .empty ∨ q.pat = .halted → exec (.ctxOpen ch) s = .next (s.answer ch .notPermitted [])) ∧
    (q.pat ≠ .empty → q.pat ≠ .halted →
      (ctxOpenOk q b = false → exec (.ctxOpen ch) s = .next (s.answer ch .badParam [])) ∧
      (ctxOpenOk q b = true → s.ctxOpenCount h.part = q.serve.quota → ∃ t : State,
        exec (.ctxOpen ch) s = .next (t.answer ch .tableFull [0, 1, s.ctxOpenCount h.part, q.serve.quota]) ∧
        (s.irq.status.length = 11 → t.caused .ctxFull) ∧ Tab.get 0 (t.getPart h.part).serve.counts 1 = satAdd 64 (Tab.get 0 q.serve.counts 1) 1 ∧
        t.getPart h.part = { q with serve := { q.serve with counts := (t.getPart h.part).serve.counts } } ∧
        (∀ k, k ≠ h.part → t.getPart k = s.getPart k) ∧ t = { s with part := t.part, irq := t.irq, pcie := t.pcie, out := t.out }) ∧
      (ctxOpenOk q b = true → s.ctxOpenCount h.part ≠ q.serve.quota → s.ctxReserved h.part ≤ s.ctxOpenCount h.part → s.ctxFree = 0 → ∃ t : State,
        exec (.ctxOpen ch) s = .next (t.answer ch .tableFull [0, 2, s.ctxOpenCount h.part, 0]) ∧
        (s.irq.status.length = 11 → t.caused .ctxFull) ∧ Tab.get 0 (t.getPart h.part).serve.counts 2 = satAdd 64 (Tab.get 0 q.serve.counts 2) 1 ∧
        t.getPart h.part = { q with serve := { q.serve with counts := (t.getPart h.part).serve.counts } } ∧
        (∀ k, k ≠ h.part → t.getPart k = s.getPart k) ∧ t = { s with part := t.part, irq := t.irq, pcie := t.pcie, out := t.out }) ∧
      (ctxOpenOk q b = true → s.ctxOpenCount h.part ≠ q.serve.quota → s.ctxOpenCount h.part < s.ctxReserved h.part ∨ s.ctxFree ≠ 0 →
        (s.getDom 173 = .on → Tab.wf {} s.ctx →
          ∃ (t : State) (i : Nat), (s.getCtx i).state = .free ∧ (∀ j, j < i → (s.getCtx j).state ≠ .free) ∧
            exec (.ctxOpen ch) s = .next (t.answer ch .ok [2 ^ 20 * (t.getCtx i).gen + i, t.ctxOpenCount h.part, t.ctxFree]) ∧
            t.getCtx i = { state := .open_, part := h.part, gen := nextGen (s.getCtx i).gen, wset := fld b 0 1, tier := fld b 1 1 == 1,
                           maxLength := fld b 4 4, kvHbm := fld b 8 8, kvPeat := fld b 0x10 8, kvBytes := fld b 0x18 8, budgetUs := fld b 0x20 4 } ∧
            0 < nextGen (s.getCtx i).gen ∧ nextGen (s.getCtx i).gen < 4096 ∧ (∀ j, j ≠ i → t.getCtx j = s.getCtx j) ∧
            Tab.get 0 (t.getPart h.part).serve.counts 0 = satAdd 64 (Tab.get 0 q.serve.counts 0) 1 ∧
            t.getPart h.part = { q with serve := { q.serve with counts := (t.getPart h.part).serve.counts } } ∧
            (∀ k, k ≠ h.part → t.getPart k = s.getPart k) ∧ t = { s with ctx := t.ctx, part := t.part }) ∧
        (s.getDom 173 ≠ .on → ∃ t : State, exec (.ctxOpen ch) s = .next t ∧ t.ctxWaits = s.ctxWaits ++ [ch] ∧
          (t.getChan ch).held = some { h with stepped := true, acked := true } ∧ t.part = s.part ∧ t.ctx = s.ctx ∧
          (s.aon.park = .no → t.getDom 173 = match s.getDom 173 with | .off => .wakingOff | .retain => .wakingRetain | d => d) ∧
          (∀ d, d ≠ 173 → t.getDom d = s.getDom d) ∧
          t = { s with ctxWaits := t.ctxWaits, chan := t.chan, dom := t.dom, irq := t.irq, pcie := t.pcie, out := t.out, links := t.links })))) ∧
  (∀ (s : State) (ch : Nat) (h : Held) (b : List Byte) (q : Partition), s.getDom 173 = .wakingOff ∨ s.getDom 173 = .wakingRetain → s.ctxWaits = [ch] →
    (s.getChan ch).held = some h → h.opcode = 0x0601 → h.block = some b → q = s.getPart h.part → s.aon.phase = .up → s.aon.park = .no →
    s.loading = none → q.pat ≠ .empty → q.pat ≠ .halted → ctxOpenOk q b = true → s.ctxOpenCount h.part ≠ q.serve.quota →
    s.ctxOpenCount h.part < s.ctxReserved h.part ∨ s.ctxFree ≠ 0 → Tab.wf {} s.ctx → h.via = .mailbox →
    ∃ (t : State) (i : Nat), exec (.domainWakeDone 173) s = .next t ∧ (s.getCtx i).state = .free ∧ (∀ j, j < i → (s.getCtx j).state ≠ .free) ∧
      (t.getCtx i).state = .open_ ∧ (t.getCtx i).part = h.part ∧ (t.getCtx i).gen = nextGen (s.getCtx i).gen ∧ (∀ j, j ≠ i → t.getCtx j = s.getCtx j) ∧
      t.getDom 173 = .on ∧ t.ctxWaits = [] ∧ (t.getChan ch).held = none ∧ (t.getChan ch).busy = false ∧ t.far = s.far ∧ t.faults = s.faults)

/-- R317, R316 and R332: CTX_CLOSE of an OPEN context frees its entry; a BATCHED one becomes CLOSING; a READY one leaves its forming batch and is
freed, and its requester gets REJECT CLOSED, or STALE where the request came in this very tick. Other open contexts keep theirs. R312 and R327: CTX_QUOTA
sets the quota and answers the old one and the entries held, refusing one below those; BATCH_POLICY sets the deadline, the row limit and the submit ring,
whose consume index and phase restart, and a forming batch that is as long as the new limit seals. -/
def Obligations.ContextCloseAndPolicies : Prop :=
  (∀ (s : State) (ch : Nat) (h : Held) (b : List Byte), Commanded s 0x0602 ch h b → s.aon.phase = .up → s.aon.park = .no → s.tableWaits = false →
    (zeros b 4 8 = false ∨ s.ctxOf h.part (fld b 0 4) = none → exec (.ctxClose ch) s = .next (s.answer ch .badParam [])) ∧
    (∀ i, zeros b 4 8 = true → s.ctxOf h.part (fld b 0 4) = some i →
      ((s.getCtx i).state = .open_ → ∃ t : State, exec (.ctxClose ch) s = .next (t.answer ch .ok []) ∧ (t.getCtx i).state = .free ∧
        (∀ j, j ≠ i → (s.getCtx j).state ≠ .free → t.getCtx j = s.getCtx j) ∧
        t = { s with ctx := t.ctx, dom := t.dom, frond := t.frond, store := t.store, localStore := t.localStore }) ∧
      ((s.getCtx i).state = .batched → ∃ t : State, exec (.ctxClose ch) s = .next (t.answer ch .ok []) ∧
        t.getCtx i = { s.getCtx i with state := .closing } ∧ (∀ j, j ≠ i → t.getCtx j = s.getCtx j) ∧ t = { s with ctx := t.ctx }) ∧
      ((s.getCtx i).state = .closing → exec (.ctxClose ch) s = .next (s.answer ch .badParam [])) ∧
      ((s.getCtx i).state = .ready → ∀ (now : Bool) (u : State), (now = true ↔ (s.getCtx i).reqTick = s.aon.ticks % 2 ^ 32) →
        u = s.serveTo h.part (s.getCtx i).hostReq (s.getCtx i).req (s.getCtx i).reqPart
          (serveRecord 3 (if now then 1 else 6) 0 (handleOf i (s.getCtx i)) (s.getCtx i).tokenIn 0 (s.getCtx i).cookie) →
        ∃ t : State, exec (.ctxClose ch) s = .next (t.answer ch .ok []) ∧ (t.getCtx i).state = .free ∧
          t.formingOf h.part (s.getCtx i).wset = (s.formingOf h.part (s.getCtx i).wset).erase i ∧
          (∀ w, w ≠ (s.getCtx i).wset → t.formingOf h.part w = s.formingOf h.part w) ∧
          Tab.get 0 (t.getPart h.part).serve.counts 4 = satAdd 64 (Tab.get 0 (s.getPart h.part).serve.counts 4) 1 ∧
          (now = true → Tab.get 0 (t.getPart h.part).serve.counts 3 = Tab.get 0 (s.getPart h.part).serve.counts 3 - 1) ∧
          (now = false → Tab.get 0 (t.getPart h.part).serve.counts 3 = Tab.get 0 (s.getPart h.part).serve.counts 3) ∧
          (∀ j, j ≠ i → (s.getCtx j).state ≠ .free → t.getCtx j = s.getCtx j) ∧ (∀ k, k ≠ h.part → t.getPart k = s.getPart k) ∧
          t.links = u.links ∧ t.chan = u.chan ∧ t.out = u.out ∧ t.irq = u.irq ∧ t.pcie = u.pcie ∧
          t = { s with ctx := t.ctx, part := t.part, links := t.links, chan := t.chan, out := t.out, irq := t.irq, pcie := t.pcie, dom := t.dom
                       frond := t.frond, store := t.store, localStore := t.localStore }))) ∧
  (∀ (s : State) (ch : Nat) (h : Held) (b : List Byte), Commanded s 0x0603 ch h b →
    (zeros b 4 8 = true → fld b 0 4 ≤ 1048576 → s.ctxHeld h.part ≤ fld b 0 4 → ∃ t : State, exec (.ctxQuota ch) s =
        .next (t.answer ch .ok [(s.getPart h.part).serve.quota, s.ctxHeld h.part]) ∧
      t.getPart h.part = { s.getPart h.part with serve := { (s.getPart h.part).serve with quota := fld b 0 4 } } ∧
      (∀ q, q ≠ h.part → t.getPart q = s.getPart q) ∧ t = { s with part := t.part }) ∧
    (1048576 < fld b 0 4 ∨ fld b 0 4 < s.ctxHeld h.part → exec (.ctxQuota ch) s = .next (s.answer ch .badParam []))) ∧
  (∀ (s : State) (ch : Nat) (h : Held) (b : List Byte), Commanded s 0x0604 ch h b →
    (batchPolicyOk b = false → exec (.batchPolicy ch) s = .next (s.answer ch .badParam [])) ∧
    (batchPolicyOk b = true → (s.getPart h.part).serve.forming = [] → ∃ t : State, exec (.batchPolicy ch) s = .next (t.answer ch .ok []) ∧
      t.getPart h.part = { s.getPart h.part with serve := { (s.getPart h.part).serve with
        deadlineUs := fld b 0 4, maxRows := fld b 4 1, submitOn := fld b 5 1 == 1, submitAddr := fld b 8 8, submitEntries := fld b 0x10 4 } } ∧
      t.getChan (4 + h.part) = { s.getChan (4 + h.part) with subIndex := 0, subPhase := true, subHead := 65536 } ∧
      (∀ q, q ≠ h.part → t.getPart q = s.getPart q) ∧ (∀ c, c ≠ 4 + h.part → t.getChan c = s.getChan c) ∧
      t = { s with part := t.part, chan := t.chan }) ∧
    (∀ w rows, batchPolicyOk b = true → (s.getPart h.part).serve.forming = [(w, rows)] → rows.length = fld b 4 1 → s.noneStalls h.part →
      (∀ x ∈ (s.getPart h.part).serve.sealed_, x.at_ ≠ s.aon.ticks) → ∃ t : State, exec (.batchPolicy ch) s = .next (t.answer ch .ok []) ∧
        (t.getPart h.part).serve.forming = [] ∧ (t.getPart h.part).serve.sealed_ = (s.getPart h.part).serve.sealed_ ++
          [{ seq := (s.getPart h.part).serve.seq, wset := w, rows := rows.map (s.batchRow h.part), at_ := s.aon.ticks }] ∧
        (t.getPart h.part).serve.seq = (s.getPart h.part).serve.seq + 1 ∧ (∀ i ∈ rows, t.getCtx i = { s.getCtx i with state := .batched }) ∧
        (∀ i, i ∉ rows → t.getCtx i = s.getCtx i) ∧ (∀ q, q ≠ h.part → t.getPart q = s.getPart q) ∧
        t = { s with part := t.part, chan := t.chan, ctx := t.ctx }))

/-- R320, R321, R323 and R324: a step request for an OPEN context of a RUNNING pattern below its length makes the context READY with the request's
token and requester and joins the forming batch of its weight set as its last row (before the rows of the same AON tick with a higher index, R325),
whether it comes in a SERVE frame, whose credit is gathered and whose sending partition stands in ARG, or from the submit ring, whose consume index then
advances and is reported. Any other request is answered with a REJECT: STALE, NOT_RUNNING, BUSY or LENGTH. A STEP_DONE or REJECT goes to the serve inbox, or is
dropped and counted. R326: when the deadline of a forming batch has come it seals: its rows become BATCHED and the batch takes the next SEQ.
The model's own choices in it: log entries 25 and 87. -/
def Obligations.BatchesFormAndSeal : Prop :=
  (∀ (s : State) (p : Nat) (f : Frame) (q : Partition), f.kind = 8 → f.dst = s.here → Deliverable s p f → q = s.getPart f.part →
    s.tableWaits = false → s.noneFirst f.part →
    (∀ i w, fld f.payload 0 1 = 1 → s.ctxOf f.part (fld f.payload 4 4) = some i → q.pat = .running → (s.getCtx i).state = .open_ →
      (s.getCtx i).length ≠ (s.getCtx i).maxLength → w = (s.getCtx i).wset → (s.formingOf f.part w).length + 1 < q.serve.maxRows →
      (∀ k, s.pastDeadline q.serve.deadlineUs (s.formingOf f.part k) = false) →
      ∃ t : State, exec (.serveFrame p f) s = .next t ∧
        t.getCtx i = { s.getCtx i with state := .ready, hostReq := false, tokenIn := fld f.payload 8 4, cookie := fld f.payload 0x10 8,
                                       reqTick := s.aon.ticks % 2 ^ 32, req := f.src, reqPart := f.arg / 2 ^ 20 % 64 } ∧
        t.formingOf f.part w = s.joinRows (s.formingOf f.part w) i ∧
        ((∀ j ∈ s.formingOf f.part w, (s.getCtx j).reqTick ≠ s.aon.ticks % 2 ^ 32 ∨ j < i) → t.formingOf f.part w = s.formingOf f.part w ++ [i]) ∧
        (∀ k, k ≠ w → t.formingOf f.part k = s.formingOf f.part k) ∧
        Tab.get 0 (t.getPart f.part).serve.counts 3 = satAdd 64 (Tab.get 0 q.serve.counts 3) 1 ∧
        t.getPart f.part = { q with serve := { q.serve with forming := (t.getPart f.part).serve.forming, counts := (t.getPart f.part).serve.counts } } ∧
        (∀ k, k ≠ f.part → t.getPart k = s.getPart k) ∧ (∀ j, j ≠ i → t.getCtx j = s.getCtx j) ∧ (∃ c ∈ t.links.credits, c.source = f.src) ∧
        t = { s with ctx := t.ctx, part := t.part, links := { s.links with port := t.links.port, credits := t.links.credits } }) ∧
    (∀ (i code : Nat), fld f.payload 0 1 = 1 → i = fld f.payload 4 4 % 2 ^ 20 →
      (s.ctxOf f.part (fld f.payload 4 4) = none ∧ code = 1 ∨
        s.ctxOf f.part (fld f.payload 4 4) = some i ∧ (q.pat ≠ .running ∧ code = 4 ∨
          q.pat = .running ∧ ((s.getCtx i).state ≠ .open_ ∧ code = 2 ∨
            (s.getCtx i).state = .open_ ∧ (s.getCtx i).length = (s.getCtx i).maxLength ∧ code = 3))) →
      ∃ u t : State, exec (.serveFrame p f) s = .next t ∧
        u = { s with links := { s.links with port := u.links.port, credits := u.links.credits } } ∧ (∃ c ∈ u.links.credits, c.source = f.src) ∧
        (∀ k, k ≠ p → u.getPort k = s.getPort k) ∧
        t = (u.serveTo f.part false f.src (f.arg / 2 ^ 20 % 64)
          (serveRecord 3 code 0 (fld f.payload 4 4) (fld f.payload 8 4) 0 (fld f.payload 0x10 8))).serveCount f.part 4 1) ∧
    (fld f.payload 0 1 = 2 ∨ fld f.payload 0 1 = 3 → s.noneStalls f.part → ∃ t : State, exec (.serveFrame p f) s = .next t ∧
      (q.live = true → q.serve.inbox.length < 1024 → t.getPart f.part = { q with serve := { q.serve with
        inbox := q.serve.inbox ++ [slice f.payload 0 32] } }) ∧
      (q.live = false ∨ 1024 ≤ q.serve.inbox.length → Tab.get 0 (t.getPart f.part).serve.counts 13 = satAdd 64 (Tab.get 0 q.serve.counts 13) 1 ∧
        t.getPart f.part = { q with serve := { q.serve with counts := (t.getPart f.part).serve.counts } }) ∧
      (∀ k, k ≠ f.part → t.getPart k = s.getPart k) ∧ (∃ c ∈ t.links.credits, c.source = f.src) ∧
      t = { s with part := t.part, links := { s.links with port := t.links.port, credits := t.links.credits } }) ∧
    (fld f.payload 0 1 = 0 ∨ 3 < fld f.payload 0 1 → ∃ t : State, exec (.serveFrame p f) s = .next t ∧
      Tab.get 0 (t.getPart f.part).serve.counts 10 = satAdd 64 (Tab.get 0 q.serve.counts 10) 1 ∧ (∃ c ∈ t.links.credits, c.source = f.src) ∧
      (∀ k, k ≠ f.part → t.getPart k = s.getPart k) ∧
      t = { s with part := t.part, links := { s.links with port := t.links.port, credits := t.links.credits } })) ∧
  (∀ (s : State) (a : RegAccess) (c : Nat), s.atReg a 0x80 = some c → 4 ≤ c →
    ((s.getChan c).ringMask.getLsbD 31 = true → ∀ rs, ∃ t : State, exec (.dbRingSubmit a 0x80000000#32 rs) s = .next t ∧
      t.getChan c = { s.getChan c with ring := (s.getChan c).ring ||| 0x80000000#32 } ∧ (∀ k, k ≠ c → t.getChan k = s.getChan k) ∧
      t = { s with chan := t.chan }) ∧
    ((s.getChan c).ringMask.getLsbD 31 = false → s.tableWaits = false → (s.getPart (c - 4)).serve.submitOn = false → ∀ rs, ∃ t : State,
      exec (.dbRingSubmit a 0x80000000#32 rs) s = .next t ∧ t.getChan c = { s.getChan c with ring := (s.getChan c).ring &&& 0x7FFFFFFF#32 } ∧
      (∀ k, k ≠ c → t.getChan k = s.getChan k) ∧ t = { s with chan := t.chan }) ∧
    ((s.getChan c).ringMask.getLsbD 31 = false → s.tableWaits = false → (s.getPart (c - 4)).serve.submitOn = true → s.noneFirst (c - 4) →
      (s.getChan c).subIndex + 1 ≠ (s.getPart (c - 4)).serve.submitEntries →
      (∀ (i w : Nat) (r : List Byte), bit (fld r 2 1) 0 = (s.getChan c).subPhase → fld r 0 1 = 1 → s.ctxOf (c - 4) (fld r 4 4) = some i →
        (s.getPart (c - 4)).pat = .running → (s.getCtx i).state = .open_ → (s.getCtx i).length ≠ (s.getCtx i).maxLength → w = (s.getCtx i).wset →
        (s.formingOf (c - 4) w).length + 1 < (s.getPart (c - 4)).serve.maxRows →
        (∀ k, s.pastDeadline (s.getPart (c - 4)).serve.deadlineUs (s.formingOf (c - 4) k) = false) →
        ∃ t : State, exec (.dbRingSubmit a 0x80000000#32 [.ok r]) s = .next t ∧
          t.getCtx i = { s.getCtx i with state := .ready, hostReq := true, tokenIn := fld r 8 4, cookie := fld r 0x10 8
                                         reqTick := s.aon.ticks % 2 ^ 32, req := s.here, reqPart := c - 4 } ∧
          t.formingOf (c - 4) w = s.joinRows (s.formingOf (c - 4) w) i ∧ (∀ j, j ≠ i → t.getCtx j = s.getCtx j) ∧
          t.getChan c = { s.getChan c with
            ring := (s.getChan c).ring &&& 0x7FFFFFFF#32, subIndex := (s.getChan c).subIndex + 1
            subHead := 65536 * b2n (s.getChan c).subPhase + ((s.getChan c).subIndex + 1), db := (s.getChan c).db ||| 0x40#32 } ∧
          (∀ k, k ≠ c → t.getChan k = s.getChan k) ∧ (∀ k, k ≠ c - 4 → t.getPart k = s.getPart k) ∧
          t = { s with ctx := t.ctx, part := t.part, chan := t.chan, irq := t.irq, pcie := t.pcie, out := t.out }) ∧
      (∀ r : List Byte, bit (fld r 2 1) 0 ≠ (s.getChan c).subPhase → ∃ t : State, exec (.dbRingSubmit a 0x80000000#32 [.ok r]) s = .next t ∧
        (t.getChan c).subIndex = (s.getChan c).subIndex ∧ (t.getChan c).ring = (s.getChan c).ring &&& 0x7FFFFFFF#32 ∧
        (∀ k, k ≠ c → t.getChan k = s.getChan k) ∧ t = { s with chan := t.chan, irq := t.irq, pcie := t.pcie, out := t.out }) ∧
      (∃ t : State, exec (.dbRingSubmit a 0x80000000#32 [.pcieError]) s = .next t ∧ (t.getChan c).subIndex = (s.getChan c).subIndex + 1 ∧
        Tab.get 0 (t.getPart (c - 4)).serve.counts 11 = satAdd 64 (Tab.get 0 (s.getPart (c - 4)).serve.counts 11) 1 ∧
        (s.irq.status.length = 11 → t.caused .submit) ∧ (∀ k, k ≠ c → t.getChan k = s.getChan k) ∧
        t = { s with part := t.part, chan := t.chan, irq := t.irq, pcie := t.pcie, out := t.out }))) ∧
  (∀ (s : State) (p w : Nat) (rows : List Nat) (v : Serve), v = (s.getPart p).serve → v.forming = [(w, rows)] → s.noneFirst p → s.noneStalls p →
    (∀ x ∈ v.sealed_, x.at_ ≠ s.aon.ticks) →
    (s.pastDeadline v.deadlineUs rows = true → ∃ t : State, exec (.batchSealDeadline p) s = .next t ∧
      t.getPart p = { s.getPart p with serve := { v with
        sealed_ := v.sealed_ ++ [{ seq := v.seq, wset := w, rows := rows.map (s.batchRow p), at_ := s.aon.ticks }]
        seq := v.seq + 1, forming := [], counts := (t.getPart p).serve.counts } } ∧
      Tab.get 0 (t.getPart p).serve.counts 5 = satAdd 64 (Tab.get 0 v.counts 5) 1 ∧
      Tab.get 0 (t.getPart p).serve.counts 6 = satAdd 64 (Tab.get 0 v.counts 6) rows.length ∧
      Tab.get 0 (t.getPart p).serve.counts 8 = satAdd 64 (Tab.get 0 v.counts 8) 1 ∧
      (∀ i, i ∈ rows → t.getCtx i = { s.getCtx i with state := .batched }) ∧ (∀ i, i ∉ rows → t.getCtx i = s.getCtx i) ∧
      (∀ q, q ≠ p → t.getPart q = s.getPart q) ∧ t = { s with ctx := t.ctx, part := t.part }) ∧
    (s.pastDeadline v.deadlineUs rows = false → exec (.batchSealDeadline p) s = .next s))

/-- R322, R328 and R329: SV.RECV takes the oldest inbox record to the frond store and raises its token, and on an empty inbox its warden stalls;
BATCH.TAKE writes the descriptor of the batch it is due, and stalls until there is one; BATCH.DONE of a batch of one row makes a BATCHED context OPEN again
with one more token of length, in the tier its result names, and answers STEP_DONE; a CLOSING one is freed with REJECT CLOSED. From another warden, for another
batch or with a buffer outside the allocated pages each is a frond fault. -/
def Obligations.WardenServingInstructions : Prop :=
  (∀ (s : State) (f w a k p : Nat) (r : FrondRec), s.issuer f w = some (p, r) →
    (s.logical p f ≠ 0 ∨ r.warden unitArray ≠ w ∨ r.pageOk a 32 = false → exec (.svRecv f w a k) s = .next (s.wardenFault f w)) ∧
    (s.logical p f = 0 → r.warden unitArray = w → r.pageOk a 32 = true →
      ((s.getPart p).serve.inbox = [] → ∃ t : State, exec (.svRecv f w a k) s = .next t ∧
        t.waitOf f w = some (.recv a k) ∧ (∀ x, x ≠ w → t.waitOf f x = s.waitOf f x) ∧
        t.getFrond f = { s.getFrond f with wait := (t.getFrond f).wait } ∧ (∀ g, g ≠ f → t.getFrond g = s.getFrond g) ∧ t = { s with frond := t.frond }) ∧
      (∀ rcd rest, (s.getPart p).serve.inbox = rcd :: rest → rcd.length = 32 → (s.getFrond f).wait = [] →
        ∃ t : State, exec (.svRecv f w a k) s = .next t ∧
          t.getPart p = { s.getPart p with serve := { (s.getPart p).serve with inbox := rest, received := (s.getPart p).serve.received + 1 } } ∧
          t.fsRead f a 32 = rcd ∧ (∀ x, x < storeKey f a ∨ storeKey f a + 32 ≤ x → t.store.read x = s.store.read x) ∧
          Tab.get 0 (t.getFrond f).token k = (Tab.get 0 (s.getFrond f).token k + 1) % 2 ^ 32 ∧
          (∀ j, j ≠ k → Tab.get 0 (t.getFrond f).token j = Tab.get 0 (s.getFrond f).token j) ∧
          t.getFrond f = { s.getFrond f with token := (t.getFrond f).token } ∧ (∀ g, g ≠ f → t.getFrond g = s.getFrond g) ∧
          (∀ q, q ≠ p → t.getPart q = s.getPart q) ∧ t = { s with part := t.part, store := t.store, frond := t.frond })) ∧
    (r.warden unitArray ≠ w ∨ r.pageOk a 4160 = false → exec (.batchTake f w a k) s = .next (s.wardenFault f w)) ∧
    (∀ n v, r.warden unitArray = w → r.pageOk a 4160 = true → v = (s.getPart p).serve → n = Tab.get 0 v.takes f →
      ((∀ b ∈ v.sealed_, b.seq ≠ n) ∨ v.completed + 4 ≤ n → ∃ t : State, exec (.batchTake f w a k) s = .next t ∧
        t.waitOf f w = some (.take a k) ∧ (∀ x, x ≠ w → t.waitOf f x = s.waitOf f x) ∧
        t.getFrond f = { s.getFrond f with wait := (t.getFrond f).wait } ∧ (∀ g, g ≠ f → t.getFrond g = s.getFrond g) ∧ t = { s with frond := t.frond }) ∧
      (∀ b, v.sealed_.find? (fun b => b.seq == n) = some b → n < v.completed + 4 → (s.getFrond f).wait = [] →
        ∃ t : State, exec (.batchTake f w a k) s = .next t ∧ t.fsRead f a 4160 = b.bytes ∧
          (∀ x, x < storeKey f a ∨ storeKey f a + 4160 ≤ x → t.store.read x = s.store.read x) ∧
          Tab.get 0 (t.getPart p).serve.takes f = n + 1 ∧ (∀ g, g ≠ f → Tab.get 0 (t.getPart p).serve.takes g = Tab.get 0 v.takes g) ∧
          t.getPart p = { s.getPart p with serve := { v with takes := (t.getPart p).serve.takes } } ∧ (∀ q, q ≠ p → t.getPart q = s.getPart q) ∧
          Tab.get 0 (t.getFrond f).token k = (Tab.get 0 (s.getFrond f).token k + 1) % 2 ^ 32 ∧
          (∀ j, j ≠ k → Tab.get 0 (t.getFrond f).token j = Tab.get 0 (s.getFrond f).token j) ∧
          t.getFrond f = { s.getFrond f with token := (t.getFrond f).token } ∧ (∀ g, g ≠ f → t.getFrond g = s.getFrond g) ∧
          t = { s with part := t.part, store := t.store, frond := t.frond }))) ∧
  (∀ (s : State) (f w a p seq : Nat) (r : FrondRec), s.issuer f w = some (p, r) → s.noneFirst p →
    ((s.getPart p).serve.sealed_ = [] ∨ s.logical p f ≠ 0 ∨ r.warden unitArray ≠ w ∨ seq ≠ (s.getPart p).serve.completed ∨ r.pageOk a 1024 = false →
      exec (.batchDone f w seq a) s = .next (s.wardenFault f w)) ∧
    (∀ (b : Batch) (row : BatchRow) (c : Ctx) (res : Nat), s.aon.phase = .up → s.aon.park = .no → s.logical p f = 0 → r.warden unitArray = w →
      r.pageOk a 1024 = true → seq = (s.getPart p).serve.completed →
      (s.getPart p).serve.sealed_.find? (fun b => b.seq == seq) = some b → b.rows = [row] → c = s.getCtx row.entry → res = leNat (s.fsRead f a 8) →
      c.hostReq = true ∨ (s.getPart p).windows ≠ 0 → s.noneStalls p → ¬ (bit res 33 = true ∧ c.kvPeat = 2 ^ 64 - 1) →
      (c.state = .batched → ∀ u : State, u = s.serveTo p c.hostReq c.req c.reqPart
          (serveRecord 2 0 (2 * b2n (bit res 32)) row.handle (res % 2 ^ 32) (c.length + 1) c.cookie) →
        ∃ t : State, exec (.batchDone f w seq a) s = .next t ∧ (t.getPart p).serve.completed = seq + 1 ∧
          t.getCtx row.entry = { c with state := .open_, hostReq := false, tier := bit res 33, length := c.length + 1 } ∧
          (∀ j, j ≠ row.entry → t.getCtx j = s.getCtx j) ∧ t.links = u.links ∧ t.chan = u.chan ∧ t.out = u.out ∧ t.irq = u.irq ∧ t.pcie = u.pcie ∧
          (∀ q, q ≠ p → t.getPart q = s.getPart q) ∧
          t = { s with ctx := t.ctx, part := t.part, links := t.links, chan := t.chan, out := t.out, irq := t.irq, pcie := t.pcie, dom := t.dom
                       frond := t.frond, store := t.store, localStore := t.localStore }) ∧
      (c.state = .closing → ∀ u : State, u = s.serveTo p c.hostReq c.req c.reqPart
          (serveRecord 3 6 0 (handleOf row.entry c) c.tokenIn 0 c.cookie) →
        ∃ t : State, exec (.batchDone f w seq a) s = .next t ∧ (t.getPart p).serve.completed = seq + 1 ∧ (t.getCtx row.entry).state = .free ∧
          (∀ j, j ≠ row.entry → (s.getCtx j).state ≠ .free → t.getCtx j = s.getCtx j) ∧ t.links = u.links ∧ t.chan = u.chan ∧ t.out = u.out ∧
          t.irq = u.irq ∧ t.pcie = u.pcie ∧ (∀ q, q ≠ p → t.getPart q = s.getPart q) ∧
          t = { s with ctx := t.ctx, part := t.part, links := t.links, chan := t.chan, out := t.out, irq := t.irq, pcie := t.pcie, dom := t.dom
                       frond := t.frond, store := t.store, localStore := t.localStore })))

/-- R239, R240 and R229: a windowed frame of SV.SEND or FB.SEND goes out in the window already bound to its destination, or in a newly bound one, which
holds one more frame in flight, and carries the window's index and EPOCH in ARG; with 16 in flight it waits; without reserved windows it is a frond fault.
R241, R242 and R387: gathered credits go back in one CREDIT frame, once there are 8 or 10 microseconds after the first; a credit of the window's EPOCH lowers
its count in flight; a window without a credit for 1 ms empties, its EPOCH advances and the timeout is counted; a fallback frame is written to its
partition's ring as one record, or dropped whole and counted.
The model's own choices in it: log entry 25. -/
def Obligations.WindowsAndCredits : Prop :=
  (∀ (s : State) (f w a n p dp : Nat) (r : FrondRec) (d : Coord) (c : Instr) (fr : Frame), s.issuer f w = some (p, r) →
    (c = .svSend f w d dp a ∧ r.pageOk a 32 = true ∧ svSendOk (s.fsRead f a 32) = true ∧
        fr = { dst := d, src := s.here, part := dp, kind := 8, vl := 3, arg := 2 ^ 20 * p, payload := s.fsRead f a 32 }) ∨
      (c = .fbSend f w d dp a n ∧ r.pageOk a n = true ∧ 1 ≤ n ∧ n ≤ 14832 ∧
        fr = { dst := d, src := s.here, part := dp, kind := 7, vl := 3, arg := 0, payload := s.fsRead f a n }) →
    ((s.getPart p).windows = 0 → exec c s = .next (s.wardenFault f w)) ∧
    ((s.getPart p).windows ≠ 0 → (∀ g ∈ (s.getPart p).serve.waiting, g.dst ≠ d) →
      (∀ i, (s.boundWins p).find? (fun j => (s.getWin j).partner == d) = some i → (s.getWin i).inflight < 16 →
        ∃ u : State, exec c s = .next (u.inject { fr with arg := i + 2 ^ 12 * ((s.getWin i).epoch % 256) + fr.arg }) ∧
          u.getWin i = { s.getWin i with inflight := (s.getWin i).inflight + 1
                                         credit := if (s.getWin i).inflight = 0 then s.aon.ticks else (s.getWin i).credit } ∧
          (∀ j, j ≠ i → u.getWin j = s.getWin j) ∧ u = { s with links := { s.links with win := u.links.win } }) ∧
      (∀ i, (∀ j ∈ s.boundWins p, (s.getWin j).partner ≠ d) → (s.boundWins p).length < (s.getPart p).windows → (s.getWin i).owner = 0 →
        (∀ j, j < i → (s.getWin j).owner ≠ 0) → i ≤ 4096 →
        ∃ u : State, exec c s = .next (u.inject { fr with arg := i + 2 ^ 12 * ((s.getWin i).epoch % 256) + fr.arg }) ∧
          u.getWin i = { owner := p + 1, partner := d, inflight := 1, epoch := (s.getWin i).epoch, credit := s.aon.ticks, idle := s.aon.ticks } ∧
          (∀ j, j ≠ i → u.getWin j = s.getWin j) ∧
          u = { s with links := { s.links with win := u.links.win, binds := satAdd 64 s.links.binds 1 } }) ∧
      (∀ i, (s.boundWins p).find? (fun j => (s.getWin j).partner == d) = some i → 16 ≤ (s.getWin i).inflight →
        ∃ t : State, exec c s = .next t ∧
          t.getPart p = { s.getPart p with serve := { (s.getPart p).serve with waiting := (s.getPart p).serve.waiting ++ [fr] } } ∧
          (∀ q, q ≠ p → t.getPart q = s.getPart q) ∧ t = { s with part := t.part })) ∧
    ((∃ g ∈ (s.getPart p).serve.waiting, g.dst = d) → (s.getPart p).windows ≠ 0 → ∃ t : State, exec c s = .next t ∧
      t.getPart p = { s.getPart p with serve := { (s.getPart p).serve with waiting := (s.getPart p).serve.waiting ++ [fr] } } ∧
      (∀ q, q ≠ p → t.getPart q = s.getPart q) ∧ t = { s with part := t.part })) ∧
  (∀ (s : State) (f w a n p dp : Nat) (r : FrondRec) (d : Coord), s.issuer f w = some (p, r) →
    (r.pageOk a 32 = false ∨ svSendOk (s.fsRead f a 32) = false → exec (.svSend f w d dp a) s = .next (s.wardenFault f w)) ∧
    (r.pageOk a n = false ∨ n = 0 ∨ 14832 < n → exec (.fbSend f w d dp a n) s = .next (s.wardenFault f w))) ∧
  (∀ (s : State) (d : Coord) (c : Credits), s.links.credits.find? (fun c => c.source == d) = some c →
    (8 ≤ (c.entries.map (·.2)).sum ∨ c.first + 250 ≤ s.aon.ticks → exec (.creditSend d) s = .next (State.inject
      { dst := d, src := s.here, kind := 6, vl := 2, payload := c.entries.flatMap fun e => leBytes 4 (e.1 + 2 ^ 20 * e.2) }
      { s with links := { s.links with credits := s.links.credits.filter fun c => c.source != d } })) ∧
    ((c.entries.map (·.2)).sum < 8 → s.aon.ticks < c.first + 250 → exec (.creditSend d) s = .next s)) ∧
  (∀ (s : State) (d : Coord), (∀ c ∈ s.links.credits, c.source ≠ d) → exec (.creditSend d) s = .next s) ∧
  (∀ (s : State) (p i e n : Nat) (f : Frame), f.kind = 6 → f.dst = s.here → Deliverable s p f → i < 4096 → e < 256 → n < 256 →
    f.payload = leBytes 4 (i + 2 ^ 12 * e + 2 ^ 20 * n) → (s.getWin i).owner ≠ 0 → (∀ q, q < 64 → (s.getPart q).serve.waiting = []) →
    ∃ t : State, exec (.creditFrame p f) s = .next t ∧
      (e = (s.getWin i).epoch % 256 → t.getWin i = { s.getWin i with
        inflight := (s.getWin i).inflight - n, credit := s.aon.ticks, idle := if (s.getWin i).inflight ≤ n then s.aon.ticks else (s.getWin i).idle }) ∧
      (e ≠ (s.getWin i).epoch % 256 → t.getWin i = s.getWin i) ∧
      (∀ j, j ≠ i → t.getWin j = s.getWin j) ∧ (∀ q, t.getPart q = s.getPart q) ∧
      t = { s with links := { s.links with port := t.links.port, win := t.links.win }, part := t.part }) ∧
  (∀ (s : State) (p i : Nat),
    ((s.getWin i).owner = p + 1 → 0 < (s.getWin i).inflight → (s.getWin i).credit + 25000 ≤ s.aon.ticks → (s.getPart p).serve.waiting = [] →
      ∃ t : State, exec (.windowTimeout p i) s = .next t ∧
        t.getWin i = { s.getWin i with inflight := 0, epoch := ((s.getWin i).epoch + 1) % 256, idle := s.aon.ticks } ∧
        (∀ j, j ≠ i → t.getWin j = s.getWin j) ∧ t.links = { s.links with win := t.links.win, timeouts := satAdd 64 s.links.timeouts 1 } ∧
        (∀ q, t.getPart q = s.getPart q) ∧ (s.irq.status.length = 11 → t.caused .window) ∧
        t = { s with links := t.links, part := t.part, irq := t.irq, pcie := t.pcie, out := t.out }) ∧
    ((s.getWin i).owner ≠ p + 1 ∨ (s.getWin i).inflight = 0 ∨ s.aon.ticks < (s.getWin i).credit + 25000 →
      exec (.windowTimeout p i) s = .next s)) ∧
  (∀ (s : State) (p k : Nat) (f : Frame) (c : Channel) (rcd : List Byte), f.kind = 7 → f.dst = s.here → f.part < 64 → Deliverable s p f → k = 4 + f.part →
    c = s.getChan k → rcd = record 16 [⟨0, 1, 2⟩, ⟨4, 4, 16 + f.payload.length⟩, ⟨8, 1, f.src.x⟩, ⟨9, 1, f.src.y⟩, ⟨10, 1, f.src.z⟩, ⟨11, 1, f.part⟩]
      ++ (frameHeader f ++ f.payload) →
    (c.rxOn = false ∨ c.freeBufs < cdiv rcd.length (64 * c.bufUnits) → ∃ t : State, exec (.fallbackFrame p f) s = .next t ∧
      t.getChan k = { c with rxDrop := satAdd 32 c.rxDrop 1, db := c.db ||| 8#32 } ∧ (s.irq.status.length = 11 → t.caused .rxDrop) ∧
      (∃ c ∈ t.links.credits, c.source = f.src) ∧ (∀ j, j ≠ k → t.getChan j = s.getChan j) ∧
      t = { s with chan := t.chan, links := { s.links with port := t.links.port, credits := t.links.credits }, irq := t.irq, pcie := t.pcie
                   out := t.out }) ∧
    (c.rxOn = true → cdiv rcd.length (64 * c.bufUnits) ≤ c.freeBufs →
      ∃ t : State, exec (.fallbackFrame p f) s = .next t ∧
        t.getChan k = { c with rseq := (c.rseq + 1) % 2 ^ 32, db := c.db ||| 4#32
                               rxHead := (c.rxHead + cdiv rcd.length (64 * c.bufUnits)) % 2 ^ c.sizeLog2 } ∧
        (∃ more, t.out = s.out ++ ringWrites c (2 ^ c.sizeLog2) rcd ++ more ∧ (more = [] ∨ more = [.msix s.pcie.msgAddr s.pcie.msgData])) ∧
        (∃ c ∈ t.links.credits, c.source = f.src) ∧ (∀ j, j ≠ k → t.getChan j = s.getChan j) ∧
        t = { s with chan := t.chan, links := { s.links with port := t.links.port, credits := t.links.credits }, irq := t.irq, pcie := t.pcie
                     out := t.out }))

/-! ### Patterns -/

/-- R381, R374 and R371: PATTERN_LOAD and PATTERN_ADMIT whose parameters pass are ACCEPTED into the admission queue behind those that wait, with
room for eight; the others are refused. A load accepted while parked starts the wake (R340). R141, R142, R143, R144, R145: the oldest admission is judged on
the image it reads, from the host or from the partition's HBM, by image, shape, ports and resources in that order. PATTERN_ADMIT answers the status and the
words of the first check that fails, or OK, and changes nothing else. PATTERN_LOAD that passes waits until its frond groups are ON and then makes the
partition LOADED with that image, whose bodies, constants and relocations stand in the frond stores (R117 to R119), and tells the dies in ring order.
R405, R406: marked groups and ports retire as a load starts. -/
def Obligations.AdmissionsQueueAndJudge : Prop :=
  (∀ (s : State) (ch : Nat) (h : Held) (b : List Byte) (load : Bool) (c : Instr) (a : Admission),
    load = true ∧ c = .patternLoad ch ∧ Commanded s 0x0201 ch h b ∨ load = false ∧ c = .patternAdmit ch ∧ Commanded s 0x0202 ch h b →
    a = { load := load, ch := ch, tag := h.tag, part := h.part, source := fld b 0 1, size := fld b 4 4, addr := fld b 8 8 } →
    (s.linkDead = true → exec c s = .next (s.answer ch .internal [])) ∧
    (s.linkDead = false → loadParamsOk b = false → exec c s = .next (s.answer ch .badParam [])) ∧
    (s.linkDead = false → loadParamsOk b = true → fld b 0 1 = 1 → ch < 4 → ch ≠ 1 ∨ h.via ≠ .mailbox → exec c s = .next (s.answer ch .notPermitted [])) ∧
    (s.linkDead = false → loadParamsOk b = true → fld b 0 1 = 2 → (s.getPart h.part).hbmGib * 1073741824 < fld b 8 8 + fld b 4 4 →
      exec c s = .next (s.answer ch .badParam [])) ∧
    (s.linkDead = false → loadParamsOk b = true → (fld b 0 1 = 1 → 4 ≤ ch ∨ (ch = 1 ∧ h.via = .mailbox)) →
      (fld b 0 1 = 2 → fld b 8 8 + fld b 4 4 ≤ (s.getPart h.part).hbmGib * 1073741824) →
      (8 ≤ s.admissions.length → exec c s = .next (s.answer ch .busy [])) ∧
      (s.admissions.length < 8 → load = false ∨ s.aon.park ≠ .parked → exec c s = .next (State.accept ch { s with admissions := s.admissions ++ [a] })) ∧
      (s.admissions.length < 8 → load = true → s.aon.park = .parked → ∃ t : State, exec c s = .next t ∧ t.admissions = s.admissions ++ [a] ∧
        t.aon = { s.aon with park := .waking } ∧ (t.getChan ch).held = some { h with stepped := true, acked := true } ∧
        (s.aon.phase = .up → t.getDom 174 = match s.getDom 174 with | .off => .wakingOff | .retain => .wakingRetain | d => d) ∧
        t = { s with admissions := t.admissions, aon := t.aon, chan := t.chan, irq := t.irq, pcie := t.pcie, out := t.out, links := t.links
                     dom := t.dom, frond := t.frond, store := t.store, localStore := t.localStore, ctx := t.ctx }))) ∧
  (∀ (s : State) (host : HostRead) (he : Option MemUnit) (ce : List MemUnit),
    s.admissions = [] ∨ s.loading ≠ none ∨ (∃ a rest, s.admissions = a :: rest ∧ (a.load = true ∧ s.aon.park ≠ .no ∨ s.sourceOpen a = false)) →
    exec (.admissionTurn host ⟨he, ce⟩) s = .next s) ∧
  (∀ (s : State) (a : Admission) (rest : List Admission) (host : HostRead) (he : Option MemUnit) (ce : List MemUnit) (u : State),
    s.admissions = a :: rest → s.loading = none → (a.load = true → s.aon.park = .no) → s.sourceOpen a = true → u = { s with admissions := rest } →
    (s.linkDead = true → exec (.admissionTurn host ⟨he, ce⟩) s = .next (u.answer a.ch .internal [])) ∧
    (s.linkDead = false → (s.getPart a.part).life = .never → exec (.admissionTurn host ⟨he, ce⟩) s = .next (u.answer a.ch .notPermitted [])) ∧
    (s.linkDead = false → (s.getPart a.part).life = .destroyed → exec (.admissionTurn host ⟨he, ce⟩) s = .next (u.answer a.ch .conflict
      [(s.getPart a.part).destroyedBy.tag + 65536 * (s.getPart a.part).destroyedBy.ch, (s.getPart a.part).destroyedBy.opcode])) ∧
    (s.linkDead = false → (s.getPart a.part).life = .exists_ →
      (a.load = false ∨ s.faults.marked = 0#144 ∧ (∀ p, p < 13 → (s.getPort p).marked = false)) →
      (a.load = true → (s.getPart a.part).live = true → exec (.admissionTurn host ⟨he, ce⟩) s = .next (u.answer a.ch .conflict
        [(s.getPart a.part).loadedBy.tag + 65536 * (s.getPart a.part).loadedBy.ch, (s.getPart a.part).loadedBy.opcode])) ∧
      (a.load = false ∨ (s.getPart a.part).live = false →
        (a.source = 1 → host = .pcieError → exec (.admissionTurn host ⟨he, ce⟩) s = .next (u.answer a.ch .internal [])) ∧
        (∀ m, a.source ≠ 1 → he = some m → exec (.admissionTurn host ⟨he, ce⟩) s =
          .next ((u.memEvents (⟨m, some 0⟩ :: corrected ce)).answer a.ch .internal [])) ∧
        (∀ (img : List Byte) (i : Image) (v : Verdict141),
          (a.source = 1 ∧ (∃ x, host = .ok x ∧ img = slice x 0 a.size) ∨
            a.source ≠ 1 ∧ he = none ∧ ce = [] ∧ img = s.far.readN ((s.getPart a.part).hbmBase + a.addr) a.size) → i = imageParse img →
          v = s.judge a.part a.size img →
          (∀ r ix n av, imageFailure img a.size = some (r, ix, n, av) →
            v = { st := .badParam, reason := r, index := ix, needed := n, available := av }) ∧
          (imageFailure img a.size = none →
            (∀ r, s.otherDie img = some r → v = { st := .refusedShape, reason := 0x0201, index := r }) ∧
            (s.otherDie img = none → s.links.plan = none → v = { st := .refusedShape, reason := 0x0202 }) ∧
            (∀ pl, s.otherDie img = none → s.links.plan = some pl →
              ([pl.size.x, pl.size.y, pl.size.z] ≠ i.size → v = { st := .refusedShape, reason := 0x0202 }) ∧
              ([pl.size.x, pl.size.y, pl.size.z] = i.size →
                (inBox i.box pl.here = false → v = { st := .refusedShape, reason := 0x0203 }) ∧
                (inBox i.box pl.here = true → s.links.profile ≠ i.profile →
                  v = { st := .refusedShape, reason := 0x0204, needed := i.profile, available := s.links.profile }) ∧
                (inBox i.box pl.here = true → s.links.profile = i.profile →
                  ((s.sound a.part).length < i.fronds →
                    v = { st := .refusedShape, reason := 0x0205, needed := i.fronds, available := (s.sound a.part).length }) ∧
                  (i.fronds ≤ (s.sound a.part).length →
                    (∀ p, p < 12 → i.amount 5 p ≠ 0 → (∀ k, k < p → i.amount 5 k ≠ 0 →
                        (s.getPort k).marked = false ∧ (s.getPort k).state = .up ∧ s.isSelvage k = false) →
                      ((s.getPort p).marked = true ∨ (s.getPort p).state = .retired → v = { st := .linkAbsent, reason := 0x0301, index := p }) ∧
                      ((s.getPort p).marked = false → (s.getPort p).state = .held → v = { st := .miswired, reason := 0x0302, index := p }) ∧
                      ((s.getPort p).marked = false → (s.getPort p).state ≠ .held → (s.getPort p).state ≠ .up ∨ s.isSelvage p = true →
                        v = { st := .linkAbsent, reason := 0x0301, index := p })) ∧
                    ((∀ p, p < 12 → i.amount 5 p ≠ 0 → (s.getPort p).marked = false ∧ (s.getPort p).state = .up ∧ s.isSelvage p = false) →
                      (∀ res idx, res < 9 → idx < 576 → s.capacity a.part i res idx < i.amount res idx →
                        (∀ r k, k < 576 → r < res ∨ r = res ∧ k < idx → i.amount r k ≤ s.capacity a.part i r k) →
                        v = { st := .refusedFit, reason := res, index := idx, needed := i.amount res idx, available := s.capacity a.part i res idx }) ∧
                      ((∀ res idx, res < 9 → idx < 576 → i.amount res idx ≤ s.capacity a.part i res idx) → v = { st := .ok }))))))) ∧
          (a.load = false ∨ v.st ≠ .ok → exec (.admissionTurn host ⟨he, ce⟩) s =
            .next (u.answer a.ch v.st (reasonWords v.reason v.index v.needed v.available))) ∧
          (a.load = true → v.st = .ok → (∃ f ∈ (s.fronds a.part).take i.fronds, s.getDom (frondGroup f) ≠ .on) → s.aon.phase = .up →
            ∃ t : State, exec (.admissionTurn host ⟨he, ce⟩) s = .next t ∧ t.loading = some { adm := a, bytes := img, fronds := i.fronds } ∧
              t.part = s.part ∧ t.chan = s.chan ∧
              (∀ f ∈ (s.fronds a.part).take i.fronds, s.getDom (frondGroup f) = .off → t.getDom (frondGroup f) = .wakingOff) ∧
              t = { s with admissions := rest, loading := t.loading, dom := t.dom, frond := t.frond, store := t.store, localStore := t.localStore
                           ctx := t.ctx }) ∧
          (a.load = true → v.st = .ok → (∀ f ∈ (s.fronds a.part).take i.fronds, s.getDom (frondGroup f) = .on) → s.aon.phase = .up →
            (∀ r, r < 4 → s.ctlGoes r) → (s.getPart a.part).serve.waiting = [] → Memory.wf s.store →
            ∃ t : State, exec (.admissionTurn host ⟨he, ce⟩) s = .next (t.answer a.ch .ok (reasonWords 0 0 0 0)) ∧
              t.getPart a.part = { s.getPart a.part with
                pat := .loaded, image := i, loadedBy := { ch := a.ch, tag := a.tag, opcode := 0x0201 }, startedBy := {}, tcb := {}, run := {}
                colls := [], collNext := [], earlyAborts := [], tokens := []
                twin := { (s.getPart a.part).twin with copy := .none, copyBytes := 0, copyDone := 0, due := none, sentAt := none, waiting := false
                                                       acts := [] } } ∧
              (∀ q, q ≠ a.part → t.getPart q = s.getPart q) ∧ (∀ k, (t.getWin k).owner ≠ a.part + 1) ∧
              t.out = s.out ++ [.ctl 0 (.section_ a.part), .ctl 1 (.section_ a.part), .ctl 2 (.section_ a.part), .ctl 3 (.section_ a.part)] ∧
              (∀ (r : FrondRec) (f : Nat), i.fronds = 1 → i.records = [r] → (s.fronds a.part)[0]? = some f →
                r.constLength = 0 ∨ 4096 * r.slots ≤ r.constDest →
                (relocsOf img r = [] →
                  (∀ k, k < r.slots → t.fsRead f (4096 * k) 4096 = slice img (secOff img 3 + 4096 * nth 0 r.slotBody k) 4096) ∧
                  t.fsRead f r.constDest r.constLength = slice img (secOff img 4 + r.constOffset) r.constLength) ∧
                (∀ x addr kind, relocsOf img r = [(x, addr, kind)] → kind = 1 ∨ kind = 2 → r.constDest ≤ addr → addr + 8 ≤ r.constDest + r.constLength →
                  t.fsRead f addr 8 = leBytes 8 ((leNat (slice img (secOff img 4 + r.constOffset + (addr - r.constDest)) 8) +
                    (if kind = 1 then (s.getPart a.part).hbmBase else (s.getPart a.part).peatBase)) % 2 ^ 64))) ∧
              t = { s with admissions := rest, part := t.part, links := { s.links with win := t.links.win }, dom := t.dom, frond := t.frond
                           store := t.store, localStore := t.localStore, ctx := t.ctx, out := t.out }))))) ∧
  (∀ (s : State) (g : Nat) (l : Loading), s.loading = some l → s.getDom g = .wakingOff ∨ s.getDom g = .wakingRetain → s.ctxWaits = [] →
    ((s.aon.park ≠ .no ∨ ∃ f ∈ (s.fronds l.adm.part).take l.fronds, frondGroup f ≠ g ∧ s.getDom (frondGroup f) ≠ .on) →
      ∃ t : State, exec (.domainWakeDone g) s = .next t ∧ t.getDom g = .on ∧ (∀ d, d ≠ g → t.getDom d = s.getDom d) ∧ t = { s with dom := t.dom }) ∧
    (s.aon.park = .no → (∀ f ∈ (s.fronds l.adm.part).take l.fronds, frondGroup f ≠ g → s.getDom (frondGroup f) = .on) → (∀ r, r < 4 → s.ctlGoes r) →
      (s.getPart l.adm.part).serve.waiting = [] → ∃ t : State, exec (.domainWakeDone g) s = .next (t.answer l.adm.ch .ok (reasonWords 0 0 0 0)) ∧
        t.loading = none ∧ (t.getPart l.adm.part).pat = .loaded ∧ (t.getPart l.adm.part).image = imageParse l.bytes ∧
        (t.getPart l.adm.part).loadedBy = { ch := l.adm.ch, tag := l.adm.tag, opcode := 0x0201 } ∧ (∀ q, q ≠ l.adm.part → t.getPart q = s.getPart q) ∧
        t.out = s.out ++ [.ctl 0 (.section_ l.adm.part), .ctl 1 (.section_ l.adm.part), .ctl 2 (.section_ l.adm.part), .ctl 3 (.section_ l.adm.part)] ∧
        t = { s with loading := none, part := t.part, links := { s.links with win := t.links.win }, dom := t.dom, frond := t.frond, store := t.store
                     localStore := t.localStore, ctx := t.ctx, out := t.out })) ∧
  (∀ (s : State) (a : Admission) (rest : List Admission) (he : Option MemUnit) (ce : List MemUnit), s.admissions = a :: rest → s.loading = none →
    a.load = true → a.source = 1 → s.aon.park = .no → s.sourceOpen a = true → s.linkDead = false → (s.getPart a.part).life = .exists_ →
    (s.getPart a.part).live = false →
    (∀ g, g < 144 → s.faults.marked = 1#144 <<< g → s.faults.retired.getLsbD g = false → (∀ p, p < 13 → (s.getPort p).marked = false) →
      ∃ t : State, exec (.admissionTurn .pcieError ⟨he, ce⟩) s = .next (t.answer a.ch .internal []) ∧
        t.faults = { s.faults with retired := s.faults.retired ||| s.faults.marked, log := t.faults.log, next := s.faults.next + 1 } ∧
        (∃ e, t.newest = some e ∧ e.kind = 3 ∧ e.code = .faultLasting ∧ e.unitKind = 3 ∧ e.unit = g ∧ e.seq = s.faults.next ∧ e.time = s.aon.ticks) ∧
        t.getDom g = .off ∧ (∀ d, d ≠ g → t.getDom d = s.getDom d) ∧
        t = { s with admissions := rest, faults := t.faults, dom := t.dom, frond := t.frond, store := t.store, localStore := t.localStore
                     irq := t.irq, pcie := t.pcie, out := t.out }) ∧
    (∀ p, p < 13 → s.faults.marked = 0#144 → (s.getPort p).marked = true → (s.getPort p).state ≠ .retired → (∀ k, k ≠ p → (s.getPort k).marked = false) →
      (∀ q, q < 64 → (s.getPart q).live = true → (s.getPart q).image.amount 5 p = 0) →
      ∃ t : State, exec (.admissionTurn .pcieError ⟨he, ce⟩) s = .next (t.answer a.ch .internal []) ∧
        t.getPort p = { s.getPort p with state := .retired, stage := .idle, retrain := none, tx := [], replay := [] } ∧
        (∀ k, k ≠ p → t.getPort k = s.getPort k) ∧
        (∃ e, t.newest = some e ∧ e.kind = 3 ∧ e.code = .faultLasting ∧ e.unitKind = 0xA ∧ e.unit = p ∧ e.seq = s.faults.next) ∧
        t = { s with admissions := rest, faults := { s.faults with log := t.faults.log, next := s.faults.next + 1 }
                     links := { s.links with port := t.links.port }, irq := t.irq, pcie := t.pcie, out := t.out }))

/-- R126, R131, R160, R161, R175: PATTERN_START of a LOADED pattern with a stitch far enough ahead and a control block that passes arms it: the live
control block is what the rules make of the bytes in HBM, the run, its statistics and serving counters start at zero, and the fronds' tokens, counters and streams
are reset with each gang at its entry slot. Refused otherwise. R127 and R378: PATTERN_HALT answers OK whatever the pattern's state; for a live pattern with
no halt due, a halt with status OK falls due; at a later boundary with no step commit in progress the pattern is HALTED with that status; until then nothing
changes. R330: a sealed batch is abandoned then, its rows' requests rejected with HALTED, those of a forming batch with NOT_RUNNING.
The model's own choices in it: log entry 23. -/
def Obligations.PatternStartAndHalt : Prop :=
  (∀ (s : State) (ch : Nat) (h : Held) (b : List Byte) (q : Partition), Commanded s 0x0203 ch h b → q = s.getPart h.part →
    (s.linkDead = true → exec (.patternStart ch) s = .next (s.answer ch .internal [])) ∧
    (s.linkDead = false → q.pat ≠ .loaded → exec (.patternStart ch) s = .next (s.answer ch .notPermitted [])) ∧
    (s.linkDead = false → q.pat = .loaded → q.twin.copy = .receiving ∨ q.twin.copy = .failed → exec (.patternStart ch) s = .next (s.answer ch .busy [])) ∧
    (s.linkDead = false → q.pat = .loaded → q.twin.landing = false →
      fld b 0 8 < s.sync.stitch + 1024 ∨ tcbOk (s.tcbBytes h.part) (q.image.amount 4 0) = false →
      exec (.patternStart ch) s = .next (s.answer ch .badParam [])) ∧
    (s.linkDead = false → q.pat = .loaded → q.twin.landing = false → s.sync.stitch + 1024 ≤ fld b 0 8 →
      tcbOk (s.tcbBytes h.part) (q.image.amount 4 0) = true → q.image.fronds ≤ (s.fronds h.part).length →
      ∃ t : State, exec (.patternStart ch) s = .next (t.answer ch .ok []) ∧
        t.getPart h.part = { q with
          pat := .armed, startedBy := { ch := ch, tag := h.tag, opcode := 0x0203 }, tcb := Tcb.begin_ (s.tcbBytes h.part)
          run := { start := fld b 0 8, base := fld b 0 8 }, arith := {}, arithNow := {}, arithStep := (0, {}), colls := [], collNext := []
          earlyAborts := [], tokens := [], heldPieces := [], serve := { q.serve with seq := 0, completed := 0, inbox := [], received := 0, takes := [] }
          twin := { q.twin with own := [], due := none, sentAt := none, waiting := false, rebind := none, comparedAt := none } } ∧
        (∀ q, q ≠ h.part → t.getPart q = s.getPart q) ∧
        (∀ (i f : Nat) (r : FrondRec), i < q.image.fronds → q.image.records[i]? = some r → (s.fronds h.part)[i]? = some f →
          t.getFrond f = { s.getFrond f with
            token := [], streams := [], counts := [], bob := [], stopped := [], pc := [], wait := [], gang := (t.getFrond f).gang
            arr := { (s.getFrond f).arr with stalled := none, queue := [], lastEnter := 0, loadEnd := 0, bankFree := [0, 0], bankDrain := [0, 0]
                                             inflight := [], stallTo := 0 } } ∧
          (∀ g, g < 16 → Tab.get 0 (t.getFrond f).gang g = if nth 0 r.entry g = 255 then 0 else (nth 0 r.entry g).toNat + 1)) ∧
        (∀ f, f ∉ (s.fronds h.part).take q.image.fronds → t.getFrond f = s.getFrond f) ∧ t = { s with part := t.part, frond := t.frond })) ∧
  (∀ (b : List Byte) (t : Tcb), b.length = 256 → t = Tcb.parse b →
    (t.updates = 0 → Tcb.begin_ b = { t with
      scaleExp := t.scaleInit, b1Pow := 0x3F800000#32, b2Pow := 0x3F800000#32, cleanRun := 0, skipRun := 0, committedStep := 2 ^ 64 - 1
      commits := 0, skipsNonfinite := 0, skipsVoid := 0, lastOutcome := 0 }) ∧
    (t.updates ≠ 0 → Tcb.begin_ b = { t with commits := 0, skipsNonfinite := 0, skipsVoid := 0, lastOutcome := 0 })) ∧
  (∀ (s : State) (ch : Nat) (h : Held) (b : List Byte), Commanded s 0x0204 ch h b →
    ((s.getPart h.part).live = false ∨ (s.getPart h.part).run.halt ≠ none → exec (.patternHalt ch) s = .next (s.answer ch .ok [])) ∧
    ((s.getPart h.part).live = true → (s.getPart h.part).run.halt = none → ∃ t : State, exec (.patternHalt ch) s = .next (t.answer ch .ok []) ∧
      t.getPart h.part = { s.getPart h.part with run := { (s.getPart h.part).run with halt := some .ok, haltAt := s.sync.stitch } } ∧
      (∀ q, q ≠ h.part → t.getPart q = s.getPart q) ∧ t = { s with part := t.part })) ∧
  (∀ (s : State) (p : Nat) (st : Status) (q : Partition), q = s.getPart p → q.run.halt = some st → q.live = true → q.run.haltAt < s.sync.stitch →
    q.run.committing = false →
    (q.serve.sealed_ = [] → q.serve.forming = [] → ∃ t : State, exec (.patternHaltEffect p) s = .next t ∧
      t.getPart p = { q with
        pat := .halted, colls := [], earlyAborts := [], run := { q.run with last := some st, halt := none, sent := none, children := [], sig := false }
        twin := { q.twin with state := if q.twin.soloNext then .solo else q.twin.state, soloNext := false, due := none, sentAt := none, waiting := false
                              acts := [] } } ∧
      (s.irq.status.length = 11 → t.caused .halt) ∧ t.getChan (4 + p) = { s.getChan (4 + p) with db := (s.getChan (4 + p)).db ||| 0x20#32 } ∧
      (∀ c, c ≠ 4 + p → t.getChan c = s.getChan c) ∧ (∀ k, k ≠ p → t.getPart k = s.getPart k) ∧
      t = { s with part := t.part, chan := t.chan, irq := t.irq, pcie := t.pcie, out := t.out }) ∧
    (∀ (bt : Batch) (row : BatchRow) (c : Ctx) (u : State), q.serve.sealed_ = [bt] → bt.rows = [row] → q.serve.completed ≤ bt.seq → q.serve.forming = [] →
      c = s.getCtx row.entry → c.state = .batched → u = s.serveTo p c.hostReq c.req c.reqPart
        (serveRecord 3 5 0 (handleOf row.entry c) c.tokenIn 0 c.cookie) →
      ∃ t : State, exec (.patternHaltEffect p) s = .next t ∧ (t.getPart p).pat = .halted ∧ (t.getPart p).run.last = some st ∧
        (t.getPart p).serve.sealed_ = [] ∧ t.getCtx row.entry = { c with state := .open_, hostReq := false } ∧
        (∀ j, j ≠ row.entry → t.getCtx j = s.getCtx j) ∧ Tab.get 0 (t.getPart p).serve.counts 9 = satAdd 64 (Tab.get 0 q.serve.counts 9) 1 ∧
        Tab.get 0 (t.getPart p).serve.counts 4 = satAdd 64 (Tab.get 0 q.serve.counts 4) 1 ∧ t.links = u.links ∧
        t = { s with part := t.part, ctx := t.ctx, links := t.links, chan := t.chan, irq := t.irq, pcie := t.pcie, out := t.out }) ∧
    (∀ (w i : Nat) (c : Ctx) (u : State), q.serve.sealed_ = [] → q.serve.forming = [(w, [i])] → c = s.getCtx i → u = s.serveTo p c.hostReq c.req c.reqPart
        (serveRecord 3 4 0 (handleOf i c) c.tokenIn 0 c.cookie) →
      ∃ t : State, exec (.patternHaltEffect p) s = .next t ∧ (t.getPart p).pat = .halted ∧ (t.getPart p).serve.forming = [] ∧
        t.getCtx i = { c with state := .open_, hostReq := false } ∧ (∀ j, j ≠ i → t.getCtx j = s.getCtx j) ∧
        Tab.get 0 (t.getPart p).serve.counts 4 = satAdd 64 (Tab.get 0 q.serve.counts 4) 1 ∧ t.links = u.links ∧
        t = { s with part := t.part, ctx := t.ctx, links := t.links, chan := t.chan, irq := t.irq, pcie := t.pcie, out := t.out })) ∧
  (∀ (s : State) (p : Nat), (s.getPart p).run.halt = none ∨ (s.getPart p).live = false ∨ s.sync.stitch ≤ (s.getPart p).run.haltAt ∨
      (s.getPart p).run.committing = true → exec (.patternHaltEffect p) s = .next s)

/-- R126, R135, R138, R157, R159 and R164: at START_STITCH an ARMED pattern is RUNNING with step 0 at that base; at B(N+1) the next step of a decided one
begins. A step begins with its finite flag 1 and no VOID, ABORT or MEM mark, no fused instruction and no arithmetic count, and the live control block is in
HBM offset 0, which is nowhere where the pattern declares no HBM. R305: a partition whose twin port was lost as a comparison completed is SOLO from here. Before
its moment nothing changes. -/
def Obligations.StepsBeginAtTheirBase : Prop :=
  ∀ (s : State) (p n base : Nat) (c : Instr) (q : Partition), q = s.getPart p →
    ((c = .patternRunStart p ∧ q.pat = .armed ∧ q.run.start ≤ s.sync.stitch ∧ n = 0 ∧ base = q.run.start) ∨
        (c = .stepBegin p ∧ q.pat = .running ∧ q.run.decided = true ∧ q.run.next = some base ∧ base ≤ s.sync.stitch ∧ n = q.run.step + 1) →
      (q.twin.soloNext = false → ∃ t : State, exec c s = .next t ∧
        t.getPart p = { q with
          pat := .running
          run := { start := q.run.start, step := n, base := base, maxSlip := q.run.maxSlip
                   realigns := if q.run.realigned then satAdd 32 q.run.realigns 1 else q.run.realigns
                   lateIssues := q.run.lateIssues, last := q.run.last, sig := q.run.sig, halt := q.run.halt, haltAt := q.run.haltAt
                   abortAt := q.run.abortAt, finite := true, void := false, abort := false, mem := false, discard := false, slip := 0, decided := false }
          arithNow := {}, colls := [], tokens := [], earlyAborts := q.earlyAborts.filter (fun a => decide (n ≤ a.step))
          twin := if q.twin.rebind = some n then { q.twin with state := .bound, rebind := none } else q.twin } ∧
        (q.image.amount 3 0 ≠ 0 → (Memory.wf s.far → t.far.readN q.hbmBase 256 = q.tcb.bytes) ∧
          (∀ x, x < q.hbmBase ∨ q.hbmBase + 256 ≤ x → t.far.read x = s.far.read x)) ∧
        (q.image.amount 3 0 = 0 → t.far = s.far) ∧
        (∀ k, k ≠ p → t.getPart k = s.getPart k) ∧ t = { s with part := t.part, far := t.far }) ∧
      (q.twin.soloNext = true → ∃ t : State, exec c s = .next t ∧ (t.getPart p).pat = .running ∧ (t.getPart p).run.step = n ∧
        (t.getPart p).run.base = base ∧ (t.getPart p).twin.state = .solo ∧ (t.getPart p).twin.soloNext = false ∧
        (s.irq.status.length = 11 → t.caused .solo) ∧ (∀ k, k ≠ p → t.getPart k = s.getPart k) ∧
        t = { s with part := t.part, far := t.far, irq := t.irq, pcie := t.pcie, out := t.out })) ∧
    (q.pat ≠ .armed ∨ s.sync.stitch < q.run.start → exec (.patternRunStart p) s = .next s) ∧
    (q.pat ≠ .running ∨ q.run.decided = false ∨ q.run.next = none ∨ (∃ b, q.run.next = some b ∧ s.sync.stitch < b) → exec (.stepBegin p) s = .next s)

/-- R159: the control block's 256 bytes carry every field: what its bytes parse to is the block itself, for a block of CFG_VER 1 whose
fields lie in their widths. R281: an announcement's BROADCAST payload spells the announcement, held until its EFFECTIVE stitch when it arrives in time. -/
def Obligations.RecordsRoundTrip : Prop :=
  (∀ t : Tcb, t.cfgVer = 1 → -128 ≤ t.scaleInit → t.scaleInit ≤ 127 → -128 ≤ t.scaleMin → t.scaleMin ≤ 127 → -128 ≤ t.scaleMax →
    t.scaleMax ≤ 127 → -128 ≤ t.scaleExp → t.scaleExp ≤ 127 → t.skipHalt < 2 ^ 8 → t.earlyShareExp < 2 ^ 8 → t.growth < 2 ^ 32 →
    t.earlyRun < 2 ^ 32 → t.warmup < 2 ^ 32 → t.decayEnd < 2 ^ 32 → t.seed < 2 ^ 64 → t.stepBase < 2 ^ 64 → t.ringOffset < 2 ^ 64 →
    t.slotBytes < 2 ^ 64 → t.skipRun < 2 ^ 8 → t.cleanRun < 2 ^ 32 → t.updates < 2 ^ 64 → t.committedStep < 2 ^ 64 → t.commits < 2 ^ 64 →
    t.skipsNonfinite < 2 ^ 64 → t.skipsVoid < 2 ^ 64 → t.lastOutcome < 2 ^ 8 → t.bytes.length = 256 ∧ Tcb.parse t.bytes = t) ∧
  (∀ (a : Ann) (k : Nat), a.effective < 2 ^ 64 → a.seq < 2 ^ 32 → a.origin.x < 256 → a.origin.y < 256 → a.origin.z < 256 → a.atype < 256 →
    a.body.length = 112 → k < a.effective → a.due = a.effective → a.bytes.length = 128 ∧ annParse a.bytes k = a)

/-! ### Memory -/

/-- R197, R198, R199 and R200: MEM_REGULATE waits for the first boundary after its acceptance, where it sets its regulator and is answered; a share that
is switched on starts full, at a quarter of the depth, and one that stays on keeps its tokens up to that; bad fields are refused. The oldest piece a share
holds passes once its tokens are there, and draws them; until then it stays held. -/
def Obligations.RegulatorsApplyAndRelease : Prop :=
  (∀ (s : State) (ch : Nat) (h : Held) (b : List Byte), Commanded s 0x0901 ch h b →
    (regulateOk b = false → exec (.memRegulate ch) s = .next (s.answer ch .badParam [])) ∧
    (regulateOk b = true → exec (.memRegulate ch) s = .next (State.markStepped ch { s with regulate := s.regulate ++
      [{ ch := ch, at_ := h.at_, part := h.part, tier := fld b 0 1, on := fld b 1 1 == 1, rate := fld b 4 4, depth := fld b 8 4 }] }))) ∧
  (∀ (s : State) (e : RegSet) (later : List RegSet) (q : Partition) (r r' : Regulator), s.regulate = e :: later → e.at_ < s.sync.stitch →
    (∀ x ∈ later, s.sync.stitch ≤ x.at_) → q = s.getPart e.part → r = (if e.tier = 1 then q.regHbm else q.regPeat) →
    r' = { on := e.on, rate := e.rate, depth := e.depth
           tokens := if r.on = true then r.tokens.map (fun t => min t (e.depth / 4)) else List.replicate 4 (e.depth / 4) } →
    (q.life = .exists_ → ∃ t : State, exec .memRegulateApply s = .next (t.answer e.ch .ok []) ∧
      t.getPart e.part = (if e.tier = 1 then { q with regHbm := r' } else { q with regPeat := r' }) ∧
      (∀ k, k ≠ e.part → t.getPart k = s.getPart k) ∧ t = { s with regulate := later, part := t.part }) ∧
    (q.life = .never ∨ q.life = .destroyed → exec .memRegulateApply s = .next (State.answer e.ch .ok [] { s with regulate := later }))) ∧
  (∀ (s : State) (e e' : RegSet) (q : Partition), s.regulate = [e, e'] → e.at_ < s.sync.stitch → e'.at_ < s.sync.stitch → e.part = e'.part → e.tier = 2 →
    e'.tier = 2 → q = s.getPart e.part → q.life = .exists_ → e.on = true → e'.on = true → q.regPeat.on = false → ∃ t : State,
      exec .memRegulateApply s = .next t ∧ t.regulate = [] ∧ (t.getPart e.part).regPeat =
        { on := true, rate := e'.rate, depth := e'.depth, tokens := List.replicate 4 (min (e.depth / 4) (e'.depth / 4)) } ∧ t.far = s.far) ∧
  (∀ s : State, (∀ e ∈ s.regulate, s.sync.stitch ≤ e.at_) → exec .memRegulateApply s = .next s) ∧
  (∀ (s : State) (p tier die : Nat) (x : HeldPiece) (q : Partition) (r : Regulator), q = s.getPart p → r = (if tier = 1 then q.regHbm else q.regPeat) →
    q.heldPieces.find? (fun y => y.tier == tier && y.die == die) = some x →
    (r.on = true → x.units ≤ nth 0 r.tokens die → die < r.tokens.length → ∃ (t : State) (r' : Regulator),
      exec (.regulatorPiecePass p tier die (64 * x.units)) s = .next t ∧ nth 0 r'.tokens die = nth 0 r.tokens die - x.units ∧
      (∀ d, d ≠ die → nth 0 r'.tokens d = nth 0 r.tokens d) ∧ r' = { r with tokens := r'.tokens } ∧
      t.getPart p = (if tier = 1 then { q with regHbm := r', heldPieces := q.heldPieces.erase x }
        else { q with regPeat := r', heldPieces := q.heldPieces.erase x }) ∧
      (∀ k, k ≠ p → t.getPart k = s.getPart k) ∧ t = { s with part := t.part }) ∧
    (r.on = false → ∃ t : State, exec (.regulatorPiecePass p tier die (64 * x.units)) s = .next t ∧
      t.getPart p = { q with heldPieces := q.heldPieces.erase x } ∧ (∀ k, k ≠ p → t.getPart k = s.getPart k) ∧ t = { s with part := t.part }) ∧
    (∀ bytes, r.on = true ∧ nth 0 r.tokens die < x.units ∨ bytes / 64 ≠ x.units → exec (.regulatorPiecePass p tier die bytes) s = .next s)) ∧
  (∀ (s : State) (p tier die bytes : Nat), (∀ x ∈ (s.getPart p).heldPieces, x.tier ≠ tier ∨ x.die ≠ die) →
    exec (.regulatorPiecePass p tier die bytes) s = .next s)

/-- R213, R214, R216 and R340: MEM_FILL whose fields and ranges are valid is ACCEPTED, on a parked package starting the wake, and refused otherwise. A good
piece of a VALUE fill, a copy or a read of host memory has its bytes written and no other byte of memory changes; one of HOST_OUT goes to host memory;
its corrected errors count (R202); the last one ends the transfer with OK. R215, R217 and R218: a piece that failed leaves the poison of the format named in its
bytes, by whole block groups for an MX format, where a good piece that shares one leaves it; its unit is marked and counted, the piece counts as failed, and
the last piece ends the transfer with PARTIAL, the lowest failed offset and MEM in the vote of a running pattern. Where the poison write fails the bytes are free,
the second unit is marked and the log records the piece. R389: a piece with host memory fails once the host port is in reset.
The model's own choices in it: log entries 33 and 88. -/
def Obligations.MemFillPieces : Prop :=
  (∀ (s : State) (ch : Nat) (h : Held) (b : List Byte) (f : Fill), Commanded s 0x0902 ch h b → f = fillParse ch b →
    (f.fieldsOk = false ∨ f.rangesOk (s.getPart h.part) = false → exec (.memFill ch) s = .next (s.answer ch .badParam [])) ∧
    (f.fieldsOk = true → f.rangesOk (s.getPart h.part) = true → ∃ t : State, exec (.memFill ch) s = .next (State.accept ch t) ∧
      t.getPart h.part = { s.getPart h.part with fill := some f } ∧ (∀ q, q ≠ h.part → t.getPart q = s.getPart q) ∧
      (s.aon.park ≠ .parked → t = { s with part := t.part }) ∧
      (s.aon.park = .parked → t.aon = { s.aon with park := .waking } ∧
        t = { s with part := t.part, aon := t.aon, dom := t.dom, frond := t.frond, store := t.store, localStore := t.localStore, ctx := t.ctx }))) ∧
  (∀ (s : State) (p i : Nat) (r : PieceEnd), (s.getPart p).fill = none ∨ s.aon.park ≠ .no ∨
      (∃ f, (s.getPart p).fill = some f ∧ (f.pieces ≤ i ∨ i ∈ f.ended ∨ s.pieceOpen p f i = false)) → exec (.memFillPieceDone p i r) s = .next s) ∧
  (∀ (s : State) (p i n : Nat) (f : Fill) (q : Partition), q = s.getPart p → q.fill = some f → s.aon.park = .no → i < f.pieces → i ∉ f.ended →
    s.pieceOpen p f i = true → n = f.pieceBytes i →
    (∀ (dst : Nat) (data : List Byte) (ce : List MemUnit) (v : State), dst = q.spaceBase p f.dstSpace + f.dst + 2048 * i → f.mode ≤ 2 →
      (f.mode = 2 → s.aon.perstN = true ∧ f.hostLost = false) → v = s.memEvents (corrected ce) →
      (f.failed = [] ∨ f.poison < 4 ∨ 8 < f.poison → ∃ t : State,
        (f.ended.length + 1 < f.pieces → exec (.memFillPieceDone p i (.ok data ce)) s = .next t ∧
          t.getPart p = { q with fill := some { f with ended := f.ended ++ [i] } }) ∧
        (f.ended.length + 1 = f.pieces → f.failed = [] → t.getPart p = { q with fill := none } ∧
          exec (.memFillPieceDone p i (.ok data ce)) s = .next (t.answer f.ch .ok [0, 0, 0, 0, f.length % 2 ^ 32, f.length / 2 ^ 32 % 2 ^ 32])) ∧
        (∀ j, j < n → t.far.read (dst + j) = if f.mode = 0 then BitVec.ofNat 8 (f.value / 256 ^ (j % 4))
          else if f.mode = 1 then s.far.read (q.spaceBase p f.srcSpace + f.src + 2048 * i + j) else nth 0 data j) ∧
        (f.ended.length + 1 = f.pieces → f.failed ≠ [] → exec (.memFillPieceDone p i (.ok data ce)) s = .next (t.answer f.ch .partialDone
            [f.units, f.failed.length, 2048 * f.failed.foldl min (f.failed.headD 0) % 2 ^ 32,
             2048 * f.failed.foldl min (f.failed.headD 0) / 2 ^ 32 % 2 ^ 32, f.length % 2 ^ 32, f.length / 2 ^ 32 % 2 ^ 32]) ∧
          t.getPart p = { q with fill := none, run := if q.pat = .running then { q.run with mem := true } else q.run }) ∧
        (∀ a, a < dst ∨ dst + n ≤ a → t.far.read a = s.far.read a) ∧ (∀ k, k ≠ p → t.getPart k = s.getPart k) ∧
        (f.ended.length + 1 < f.pieces ∨ f.failed = [] → t = { v with far := t.far, part := t.part })) ∧
      (∀ k, f.failed = [k] → k ≠ i → 4 ≤ f.poison → f.poison ≤ 8 → f.ended.length + 1 < f.pieces → ∃ t : State,
        exec (.memFillPieceDone p i (.ok data ce)) s = .next t ∧
        (∀ j, j < n → t.far.read (dst + j) =
          if blockGroup f.poison * (2048 * k / blockGroup f.poison) ≤ 2048 * i + j ∧
              2048 * i + j < blockGroup f.poison * ((2048 * k + f.pieceBytes k - 1) / blockGroup f.poison + 1) then s.far.read (dst + j)
          else if f.mode = 0 then BitVec.ofNat 8 (f.value / 256 ^ (j % 4))
          else if f.mode = 1 then s.far.read (q.spaceBase p f.srcSpace + f.src + 2048 * i + j) else nth 0 data j) ∧
        (∀ a, a < dst ∨ dst + n ≤ a → t.far.read a = s.far.read a) ∧
        t.getPart p = { q with fill := some { f with ended := f.ended ++ [i] } } ∧ (∀ k, k ≠ p → t.getPart k = s.getPart k) ∧
        t = { v with far := t.far, part := t.part })) ∧
    (∀ data, f.mode = 3 → s.aon.perstN = true → f.hostLost = false → f.poison < 4 ∨ 8 < f.poison → f.ended.length + 1 < f.pieces → ∃ t : State,
      exec (.memFillPieceDone p i (.ok data [])) s = .next t ∧
      t.out = s.out ++ [.hostWrite (f.dst + 2048 * i) (s.far.readN (q.spaceBase p f.srcSpace + f.src + 2048 * i) n)] ∧
      t.getPart p = { q with fill := some { f with ended := f.ended ++ [i] } } ∧ (∀ k, k ≠ p → t.getPart k = s.getPart k) ∧
      t = { s with out := t.out, part := t.part }) ∧
    (∀ (dst lo len ub : Nat) (u : MemUnit) (ce : List MemUnit) (r : PieceEnd) (word width : Nat) (v : State), f.mode ≤ 2 →
      dst = q.spaceBase p f.dstSpace + f.dst →
      ub = (match u with | .hbm st _ => 2 ^ st | .peat k => 2 ^ (16 + k) | .hub => 2 ^ 28 | .host => 2 ^ 29) →
      (r = .readFailed u ce none ∧ v = s.memEvents (⟨u, some 0⟩ :: corrected ce) ∨
        ∃ o, r = .writeFailed u o ce none ∧ v = s.memEvents (⟨u, some (dst + 2048 * i + o)⟩ :: corrected ce)) →
      (if 4 ≤ f.poison ∧ f.poison ≤ 8 then lo = 2048 * i / blockGroup f.poison * blockGroup f.poison ∧
          lo + len = ((2048 * i + n - 1) / blockGroup f.poison + 1) * blockGroup f.poison else lo = 2048 * i ∧ len = n) →
      (word = if f.poison = 2 then 0x7E00 else if f.poison = 3 then 0x7FC0 else if f.poison = 15 then 0xDEADF00D else 0x7FC00000) →
      (width = if f.poison = 2 ∨ f.poison = 3 then 2 else 4) →
      ∃ t : State,
        (f.ended.length + 1 < f.pieces → exec (.memFillPieceDone p i r) s = .next t ∧
          t.getPart p = { q with fill := some { f with ended := f.ended ++ [i], failed := f.failed ++ [i], units := f.units ||| ub } } ∧
          t = { v with far := t.far, part := t.part }) ∧
        (f.ended.length + 1 = f.pieces → exec (.memFillPieceDone p i r) s = .next (t.answer f.ch .partialDone
            [f.units ||| ub, f.failed.length + 1, 2048 * f.failed.foldl min i % 2 ^ 32, 2048 * f.failed.foldl min i / 2 ^ 32 % 2 ^ 32,
             f.length % 2 ^ 32, f.length / 2 ^ 32 % 2 ^ 32]) ∧
          t.getPart p = { q with fill := none, run := if q.pat = .running then { q.run with mem := true } else q.run } ∧
          (s.irq.status.length = 11 → t.caused .memPartial) ∧ t = { v with far := t.far, part := t.part, irq := t.irq, pcie := t.pcie, out := t.out }) ∧
        (∀ j, j < len → t.far.read (dst + lo + j) = if 4 ≤ f.poison ∧ f.poison ≤ 8 then (if j % blockGroup f.poison < 64 then 0xFF#8 else 0#8)
          else BitVec.ofNat 8 (word / 256 ^ (j % width))) ∧
        (∀ a, a < dst + lo ∨ dst + lo + len ≤ a → t.far.read a = s.far.read a) ∧ (∀ k, k ≠ p → t.getPart k = s.getPart k)) ∧
    (∀ (u w : MemUnit) (o : Nat) (ub wb dst : Nat), f.mode ≤ 2 → f.poison < 4 ∨ 8 < f.poison → f.ended.length + 1 < f.pieces →
      dst = q.spaceBase p f.dstSpace + f.dst + 2048 * i → ub = unitBit u → wb = unitBit w →
      ∃ (t : State) (e : LogEntry), exec (.memFillPieceDone p i (.readFailed u [] (some (w, o)))) s = .next t ∧ t.newest = some e ∧ e.kind = 7 ∧
        e.code = .partialDone ∧ e.part = p ∧ fld e.detail 0 8 = 2048 * i % 2 ^ 64 ∧ fld e.detail 8 4 = n % 2 ^ 32 ∧
        (e.unitKind, e.unit) = (match w with | .hbm st pc => (5, 64 * st + pc) | .peat k => (8, k) | .hub => (9, 0) | .host => (0, 0)) ∧
        (∀ j, j < n → t.far.read (dst + j) = Config.freeByte (s.free + j)) ∧ t.free = s.free + n ∧
        (∀ a, a < dst ∨ dst + n ≤ a → t.far.read a = s.far.read a) ∧
        t.getPart p = { q with fill := some { f with ended := f.ended ++ [i], failed := f.failed ++ [i], units := f.units ||| ub ||| wb } } ∧
        (∀ k, k ≠ p → t.getPart k = s.getPart k) ∧ t = { s with far := t.far, part := t.part, free := t.free, mem := t.mem, faults := t.faults
                                                                irq := t.irq, pcie := t.pcie, out := t.out }) ∧
    (∀ (data : List Byte) (ce : List MemUnit), s.aon.perstN = false ∨ f.hostLost = true →
      (f.mode = 2 → exec (.memFillPieceDone p i (.ok data ce)) s = exec (.memFillPieceDone p i (.readFailed .host ce none)) s) ∧
      (f.mode = 3 → exec (.memFillPieceDone p i (.ok data ce)) s = exec (.memFillPieceDone p i (.writeFailed .host 0 ce (some (.host, 0)))) s ∧
        (ce = [] → f.ended.length + 1 < f.pieces → ∃ t : State, exec (.memFillPieceDone p i (.ok data ce)) s = .next t ∧ t.far = s.far ∧
          (∀ o ∈ t.out, o ∈ s.out ∨ o = .msix s.pcie.msgAddr s.pcie.msgData) ∧
          t.getPart p = { q with fill := some { f with ended := f.ended ++ [i], failed := f.failed ++ [i], units := f.units ||| 2 ^ 29 } })))) ∧
  (∀ (s : State) (k st pc : Nat),
    (s.memEvents [⟨.peat k, none⟩]).mem = { s.mem with peatCe := Tab.upd 0 s.mem.peatCe k (satAdd 32 · 1) } ∧
    (s.memEvents [⟨.hub, none⟩]).mem = { s.mem with hubCe := satAdd 32 s.mem.hubCe 1 } ∧
    (s.memEvents [⟨.hbm st pc, none⟩]).mem = { s.mem with hbmCe := Tab.upd 0 s.mem.hbmCe (64 * st + pc) (satAdd 32 · 1) } ∧
    (∀ a, (s.memEvents [⟨.peat k, some a⟩]).mem = { s.mem with peatUe := Tab.upd 0 s.mem.peatUe k (satAdd 32 · 1) } ∧
      (s.memEvents [⟨.hub, some a⟩]).mem = { s.mem with hubUe := satAdd 32 s.mem.hubUe 1 } ∧
      (s.memEvents [⟨.hbm st pc, some a⟩]).mem = { s.mem with hbmUe := Tab.upd 0 s.mem.hbmUe (64 * st + pc) (satAdd 32 · 1) } ∧
      (s.irq.status.length = 11 → (s.memEvents [⟨.peat k, some a⟩]).caused .peatUe ∧ (s.memEvents [⟨.hub, some a⟩]).caused .hubUe ∧
        (s.memEvents [⟨.hbm st pc, some a⟩]).caused .hbmUe) ∧
      (Tab.get {} s.faults.unit (unitKey 7 k) = {} → 1 < (s.policy 7).2 → ∃ e, (s.memEvents [⟨.peat k, some a⟩]).newest = some e ∧ e.kind = 1 ∧
        e.cls = 7 ∧ e.unitKind = 8 ∧ e.unit = k ∧ fld e.detail 16 8 = a % 2 ^ 64)) ∧
    (∀ e ∈ [(⟨.peat k, none⟩ : MemEvent), ⟨.hub, none⟩, ⟨.hbm st pc, none⟩, ⟨.peat k, some 0⟩, ⟨.hub, some 0⟩, ⟨.hbm st pc, some 0⟩],
      s.memEvents [e] = { s with mem := (s.memEvents [e]).mem, faults := (s.memEvents [e]).faults, irq := (s.memEvents [e]).irq
                                 pcie := (s.memEvents [e]).pcie, out := (s.memEvents [e]).out }))

/-- R402, R403, R404 and R205: the first event of a lane's class on an HBM channel opens its window and is logged; a further one within the window is
counted; the event that reaches the threshold within the window is logged as lasting, sets LASTING, and with a repair lane left the channel is to be retrained;
with none left it is noted, NO_SPARE is set and the channel makes no further lasting fault. Retraining begins at a boundary after the fault and takes a repair
lane; done, the class's count of the channel is cleared and no memory has changed. R206 and R409: an event that reaches the threshold in a self-test up to
its training phase 5 takes a repair lane there, is not logged as lasting, and the count is cleared. A refresh changes only the model's count of refreshes.
The model's own choices in it: log entry 45. -/
def Obligations.LaneFaultsAndSparing : Prop :=
  (∀ (s : State) (c lane w h n : Nat) (k : LaneFault) (x : FaultUnit), c < 384 → x = Tab.get {} s.faults.unit (unitKey 5 c) → s.policy 5 = (w, h) →
    n = (if x.count = 0 ∨ x.start + w * 25000000 ≤ s.aon.ticks then 1 else x.count + 1) →
    (x.held = true → ∃ t : State, exec (.hbmLaneFault c lane k) s = .next t ∧
      Tab.get {} t.faults.unit (unitKey 5 c) = { x with count := satAdd 32 x.count 1 } ∧
      (∀ u, u ≠ unitKey 5 c → Tab.get {} t.faults.unit u = Tab.get {} s.faults.unit u) ∧ t = { s with faults := { s.faults with unit := t.faults.unit } }) ∧
    (x.held = false → x.count = 0 ∨ x.start + w * 25000000 ≤ s.aon.ticks → 1 < h → ∃ (t : State) (e : LogEntry), exec (.hbmLaneFault c lane k) s = .next t ∧
      Tab.get {} t.faults.unit (unitKey 5 c) = { start := s.aon.ticks, count := 1, held := false } ∧
      (∀ u, u ≠ unitKey 5 c → Tab.get {} t.faults.unit u = Tab.get {} s.faults.unit u) ∧ t.newest = some e ∧ e.kind = 1 ∧ e.cls = 5 ∧ e.unitKind = 6 ∧
      e.unit = c ∧ e.seq = s.faults.next ∧ e.time = s.aon.ticks ∧ fld e.detail 12 1 = lane % 256 ∧
      t = { s with faults := { s.faults with unit := t.faults.unit, log := t.faults.log, next := s.faults.next + 1 }, irq := t.irq, pcie := t.pcie
                   out := t.out }) ∧
    (x.held = false →
      (0 < x.count → s.aon.ticks < x.start + w * 25000000 → x.count + 1 < h → ∃ t : State, exec (.hbmLaneFault c lane k) s = .next t ∧
        Tab.get {} t.faults.unit (unitKey 5 c) = { x with count := x.count + 1 } ∧
        (∀ u, u ≠ unitKey 5 c → Tab.get {} t.faults.unit u = Tab.get {} s.faults.unit u) ∧ t = { s with faults := { s.faults with unit := t.faults.unit } }) ∧
      (h ≤ n → Tab.get 0 s.mem.repairs c < 2 → s.test.active = false ∨ 5 < s.test.phase →
        ∃ (t : State) (e : LogEntry), exec (.hbmLaneFault c lane k) s = .next t ∧ t.newest = some e ∧ e.kind = 2 ∧ e.code = .faultLasting ∧
          e.cls = 5 ∧ e.unitKind = 6 ∧ e.unit = c ∧ (s.irq.status.length = 11 → t.caused .lasting ∧ t.caused .laneLasting) ∧
          ((∀ d ∈ s.mem.due, d.1 ≠ c) → t.mem = { s.mem with due := s.mem.due ++ [(c, lane, s.sync.stitch)] }) ∧
          ((∃ d ∈ s.mem.due, d.1 = c) → t.mem = s.mem) ∧
          t = { s with faults := t.faults, irq := t.irq, pcie := t.pcie, out := t.out, mem := t.mem }) ∧
      (h ≤ n → 2 ≤ Tab.get 0 s.mem.repairs c →
        ∃ (t : State) (e : LogEntry), exec (.hbmLaneFault c lane k) s = .next t ∧ t.newest = some e ∧ e.kind = 2 ∧ e.code = .faultLasting ∧
          e.cls = 5 ∧ e.unit = c ∧ (s.irq.status.length = 11 → t.caused .lasting ∧ t.caused .laneLasting ∧ t.caused .noSpare) ∧
          (Tab.get {} t.faults.unit (unitKey 5 c)).held = true ∧ c ∈ t.mem.noSpare ∧ (∀ d, d ≠ c → (d ∈ t.mem.noSpare ↔ d ∈ s.mem.noSpare)) ∧
          t.mem = { s.mem with noSpare := t.mem.noSpare } ∧ t = { s with faults := t.faults, irq := t.irq, pcie := t.pcie, out := t.out, mem := t.mem }) ∧
      (h ≤ n → Tab.get 0 s.mem.repairs c < 2 → s.test.active = true → s.test.phase ≤ 5 →
        ∃ t : State, exec (.hbmLaneFault c lane k) s = .next t ∧ Tab.get 0 t.mem.repairs c = Tab.get 0 s.mem.repairs c + 1 ∧
          (∀ d, d ≠ c → Tab.get 0 t.mem.repairs d = Tab.get 0 s.mem.repairs d) ∧
          Tab.get 0 t.mem.spares (c / 32) = satAdd 8 (Tab.get 0 s.mem.spares (c / 32)) 1 ∧
          t.test = { s.test with stack := s.test.stack.modify (c / 32) (· + 1) } ∧
          (Tab.get {} t.faults.unit (unitKey 5 c)).count = 0 ∧ (Tab.get {} t.faults.unit (unitKey 5 c)).held = false ∧
          (∀ u, u ≠ unitKey 5 c → Tab.get {} t.faults.unit u = Tab.get {} s.faults.unit u) ∧ t.faults = { s.faults with unit := t.faults.unit } ∧
          t = { s with faults := t.faults, mem := { s.mem with repairs := t.mem.repairs, spares := t.mem.spares }, test := t.test }))) ∧
  (∀ (s : State) (c lane : Nat) (k : LaneFault), 384 ≤ c → exec (.hbmLaneFault c lane k) s = .next s) ∧
  (∀ (s : State) (c : Nat),
    ((∃ d ∈ s.mem.due, d.1 = c ∧ d.2.2 < s.sync.stitch) → ∃ t : State, exec (.hbmLaneRetrain c) s = .next t ∧
      t.mem = { s.mem with due := s.mem.due.filter (fun d => d.1 != c), retraining := s.mem.retraining ++ [c], repairs := t.mem.repairs
                           spares := t.mem.spares } ∧
      Tab.get 0 t.mem.repairs c = Tab.get 0 s.mem.repairs c + 1 ∧ (∀ d, d ≠ c → Tab.get 0 t.mem.repairs d = Tab.get 0 s.mem.repairs d) ∧
      Tab.get 0 t.mem.spares (c / 32) = satAdd 8 (Tab.get 0 s.mem.spares (c / 32)) 1 ∧
      (∀ d, d ≠ c / 32 → Tab.get 0 t.mem.spares d = Tab.get 0 s.mem.spares d) ∧ t = { s with mem := t.mem }) ∧
    ((∀ d ∈ s.mem.due, d.1 = c → s.sync.stitch ≤ d.2.2) → exec (.hbmLaneRetrain c) s = .next s) ∧
    (c ∈ s.mem.retraining → ∃ t : State, exec (.hbmLaneRetrainDone c) s = .next t ∧ t.mem = { s.mem with retraining := s.mem.retraining.erase c } ∧
      Tab.get {} t.faults.unit (unitKey 5 c) = { Tab.get {} s.faults.unit (unitKey 5 c) with count := 0 } ∧
      (∀ u, u ≠ unitKey 5 c → Tab.get {} t.faults.unit u = Tab.get {} s.faults.unit u) ∧
      t = { s with mem := t.mem, faults := { s.faults with unit := t.faults.unit } }) ∧
    (c ∉ s.mem.retraining → exec (.hbmLaneRetrainDone c) s = .next s)) ∧
  (∀ (s : State) (st pc : Nat),
    (st < 12 → pc < 64 → s.getDom (144 + st) = .on → ∃ t : State, exec (.hbmRefresh st pc) s = .next t ∧
      Tab.get 0 t.mem.refreshes (64 * st + pc) = Tab.get 0 s.mem.refreshes (64 * st + pc) + 1 ∧
      (∀ k, k ≠ 64 * st + pc → Tab.get 0 t.mem.refreshes k = Tab.get 0 s.mem.refreshes k) ∧
      t = { s with mem := { s.mem with refreshes := t.mem.refreshes } }) ∧
    (12 ≤ st ∨ 64 ≤ pc ∨ s.getDom (144 + st) ≠ .on → exec (.hbmRefresh st pc) s = .next s))

/-! ### Links -/

/-- R221, R222, R243 to R246, R252, R262, R263 and R265: LINK_PROFILE before any plan sets the port definitions and switches the link groups; LINK_PLAN with
a valid plan and no live pattern is ACCEPTED, gives the package the place its strap's entry names, and every port it names starts its first attempt, no other
port being in use, a RETIRED one staying; SELVAGE_SET takes effect at the boundary after its acceptance, where the frames queued at a new selvage port are discarded
and counted; ROUTE_TABLE_LOAD replaces the boxes. Each is refused otherwise.
The model's own choices in it: log entry 30. -/
def Obligations.LinkCommandsConfigure : Prop :=
  (∀ (s : State) (ch : Nat) (h : Held) (b : List Byte),
    (Commanded s 0x0401 ch h b →
      (s.links.planned = true → exec (.linkProfile ch) s = .next (s.answer ch .notPermitted [])) ∧
      (s.links.planned = false → profileOk b = false → exec (.linkProfile ch) s = .next (s.answer ch .badParam [])) ∧
      (s.links.planned = false → profileOk b = true → ∃ t : State, exec (.linkProfile ch) s = .next (t.answer ch .ok []) ∧
        t.links = { s.links with profile := fld b 0 1, custom := (List.range (fld b 1 1)).map (portDefOf b) } ∧
        (∀ g, g < 7 → s.aon.phase = .up → s.aon.park = .no → t.getDom (164 + g) = if t.linkGroupUsed g then
          (match s.getDom (164 + g) with | .off => .wakingOff | .retain => .wakingRetain | d => d) else .off) ∧
        t = { s with links := t.links, dom := t.dom, frond := t.frond, store := t.store, localStore := t.localStore, ctx := t.ctx })) ∧
    (Commanded s 0x0402 ch h b →
      ((∃ p, p < 64 ∧ (s.getPart p).live = true) → exec (.linkPlan ch) s = .next (s.answer ch .notPermitted [])) ∧
      ((∀ p, p < 64 → (s.getPart p).live = false) →
        (planHeadOk b = false ∨ (∀ i, i < fld b 0x1C 2 → entrySlot (planEntry b i) ≠ s.aon.strap.toNat) →
          exec (.linkPlan ch) s = .next (s.answer ch .badParam [])) ∧
        (s.planOf b = none → exec (.linkPlan ch) s = .next (s.answer ch .badParam [])) ∧
        (∀ pl, s.planOf b = some pl →
          (∃ i, i < fld b 0x1C 2 ∧ entrySlot (planEntry b i) = s.aon.strap.toNat ∧ pl = {
            fabric := fld b 0 8,
            size := ⟨fld b 8 2, fld b 0xA 2, fld b 0xC 2⟩, twin := fld b 0xE 1, peer := fld b 0x10 8, chassis := fld b 0x18 4,
            here := entryAt (planEntry b i), ports := entryPorts (planEntry b i) }) ∧
          ∃ t : State, exec (.linkPlan ch) s = .next (State.accept ch t) ∧
            t.links = { s.links with plan := some pl, planned := true, planCh := some ch, checking := true, port := t.links.port } ∧
            t.sync = { s.sync with nb := [], parent := none, locked := false, zeros := 0 } ∧
            (∀ p, p ∈ t.plannedPorts → (s.getPort p).state ≠ .retired → t.getPort p =
              { marked := (s.getPort p).marked, count := (s.getPort p).count, state := .bringup, stage := .train, attempts := 1, since := s.aon.ticks }) ∧
            (∀ p, p < 13 → p ∉ t.plannedPorts → (s.getPort p).state ≠ .retired → t.getPort p =
              { marked := (s.getPort p).marked, count := (s.getPort p).count }) ∧
            (∀ p, p < 13 → (s.getPort p).state = .retired → t.getPort p = { s.getPort p with result := .none }) ∧
            t = { s with links := t.links, sync := t.sync, dom := t.dom, frond := t.frond, store := t.store, localStore := t.localStore
                         ctx := t.ctx }))) ∧
    (Commanded s 0x0404 ch h b →
      ((∃ p, p < 64 ∧ (s.getPart p).live = true) → exec (.selvageSet ch) s = .next (s.answer ch .notPermitted [])) ∧
      ((∀ p, p < 64 → (s.getPart p).live = false) →
        (bits (fld b 0 2) 15 12 ≠ 0 ∨ bits (fld b 2 2) 15 3 ≠ 0 ∨ zeros b 4 8 = false → exec (.selvageSet ch) s = .next (s.answer ch .badParam [])) ∧
        (bits (fld b 0 2) 15 12 = 0 → bits (fld b 2 2) 15 3 = 0 → zeros b 4 8 = true → exec (.selvageSet ch) s = .next (State.answer ch .ok []
          { s with links := { s.links with selvNext := some (bits (fld b 0 2) 11 0, bits (fld b 2 2) 2 0, h.at_ + 1) } })))) ∧
    (Commanded s 0x0405 ch h b →
      (16 < fld b 0 2 ∨ zeros b 2 8 = false ∨ (∃ i, i < fld b 0 2 ∧ zeros b (14 + 8 * i) (16 + 8 * i) = false) →
        exec (.routeTableLoad ch) s = .next (s.answer ch .badParam [])) ∧
      (fld b 0 2 ≤ 16 → zeros b 2 8 = true → (∀ i, i < fld b 0 2 → zeros b (14 + 8 * i) (16 + 8 * i) = true) →
        exec (.routeTableLoad ch) s = .next (State.answer ch .ok [] { s with links := { s.links with
          boxes := (List.range (fld b 0 2)).map (routeBox b) } })))) ∧
  (∀ s : State,
    (∀ mask nw k, s.links.selvNext = some (mask, nw, k) → k ≤ s.sync.stitch → ∃ t : State, exec .selvageApply s = .next t ∧
      t.links = { s.links with selvage := mask, noWrap := nw, selvNext := none, port := t.links.port } ∧
      (∀ p, p < 12 → bit mask p = true →
        t.getPort p = { s.getPort p with tx := [], count := { (s.getPort p).count with ev := (t.getPort p).count.ev } } ∧
        Tab.get 0 (t.getPort p).count.ev 8 = satAdd 64 (Tab.get 0 (s.getPort p).count.ev 8) (s.getPort p).tx.length ∧
        (∀ k, k ≠ 8 → Tab.get 0 (t.getPort p).count.ev k = Tab.get 0 (s.getPort p).count.ev k)) ∧
      (∀ p, 12 ≤ p ∨ bit mask p = false → t.getPort p = s.getPort p) ∧ t = { s with links := t.links }) ∧
    (s.links.selvNext = none ∨ (∃ mask nw k, s.links.selvNext = some (mask, nw, k) ∧ s.sync.stitch < k) → exec .selvageApply s = .next s))

/-- R246 and R247: after a failed attempt and a wait of 50 ms the next attempt begins; a lane that locks is marked, and with every lane of the port
locked the port passes to ALIGN and sends ALIGN flits on every lane; a stage that overruns its bound, or a lost signal, fails the attempt: the fourth leaves
the port ABSENT, an earlier one is followed by a wait, and a retrain's waits for its bound. Before the bound nothing changes. Nothing but the port and the flits it
sends changes. R249: an ALIGN flit of a lane is taken: its port number, lane count and highest MARK are the lane's, its ALIGNED flags in a row are counted, and on
the lowest lane the round trip is sampled, 16 of them giving RTT_NS; lanes that agree are deskewed; too much skew or too long a round trip fails the attempt; with
every lane ALIGNED four times the port passes to IDENT, and lanes that never agree in 16 flits each pass to it as MIXED. R250: an IDENT flit gives the lane its
partner's identity and counts how often in a row it was the same; once every lane has seen and been seen, the identity is the port's.
The model's own choices in it: log entry 31. -/
def Obligations.PortBringupRuns : Prop :=
  (∀ (s : State) (p : Nat) (x : Port), x = s.getPort p →
    (x.state = .bringup → x.stage = .waiting → x.since + 1250000 ≤ s.aon.ticks → ∃ t : State, exec (.bringupAttempt p) s = .next t ∧
      t.getPort p = { x with state := .bringup, stage := .train, attempts := x.attempts + 1, since := s.aon.ticks, lane := [], samples := []
                             deskewed := false, mixed := false, obs := none, rtt := 0 } ∧
      (∀ q, q ≠ p → t.getPort q = s.getPort q) ∧ t = { s with links := { s.links with port := t.links.port } }) ∧
    (x.state ≠ .bringup ∨ x.stage ≠ .waiting ∨ s.aon.ticks < x.since + 1250000 → exec (.bringupAttempt p) s = .next s) ∧
    (∀ lane, x.stage = .train → lane < s.lanesOf p → ∃ t : State, exec (.laneLock p lane) s = .next t ∧
      (t.getPort p).laneAt lane = { x.laneAt lane with locked := true } ∧ (∀ k, k ≠ lane → (t.getPort p).laneAt k = x.laneAt k) ∧
      ((∃ k, k < s.lanesOf p ∧ k ≠ lane ∧ (x.laneAt k).locked = false) → t.getPort p = { x with lane := (t.getPort p).lane } ∧
        t = { s with links := { s.links with port := t.links.port } }) ∧
      ((∀ k, k < s.lanesOf p → k ≠ lane → (x.laneAt k).locked = true) → AlignSent s t p (t.getPort p |> fun y => { y with marks := x.marks }) ∧
        t.getPort p = { x with lane := (t.getPort p).lane, stage := .align, marks := (x.marks + 1) % 2 ^ 32 } ∧
        t = { s with links := { s.links with port := t.links.port }, out := t.out, free := t.free }) ∧
      (∀ q, q ≠ p → t.getPort q = s.getPort q)) ∧
    (∀ lane, x.stage ≠ .train ∨ s.lanesOf p ≤ lane → exec (.laneLock p lane) s = .next s) ∧
    (∀ (c : Instr),
      (x.retrain = none ∧ (x.stage = .train ∧ c = .trainTimeout p ∧ x.since + 7500000 ≤ s.aon.ticks ∨
          x.stage = .align ∧ c = .alignTimeout p ∧ x.since + 8750000 ≤ s.aon.ticks ∨
          x.stage = .ident ∧ c = .identTimeout p ∧ x.since + 11250000 ≤ s.aon.ticks) ∨
        (x.stage = .train ∨ x.stage = .align ∨ x.stage = .ident) ∧ (∃ lane, lane < s.lanesOf p ∧ c = .laneSignalLoss p lane)) →
      ∃ t : State, exec c s = .next t ∧
        (x.retrain ≠ none → t.getPort p = { x with stage := .idle }) ∧
        (x.retrain = none → 4 ≤ x.attempts → t.getPort p = { x with state := .absent, stage := .finished, obs := none, mixed := false, rtt := 0 }) ∧
        (x.retrain = none → x.attempts < 4 → t.getPort p = { x with stage := .waiting, since := s.aon.ticks }) ∧
        (∀ q, q ≠ p → t.getPort q = s.getPort q) ∧ t = { s with links := { s.links with port := t.links.port } }) ∧
    (x.retrain ≠ none ∨ x.stage ≠ .train ∨ s.aon.ticks < x.since + 7500000 → exec (.trainTimeout p) s = .next s) ∧
    (x.retrain ≠ none ∨ x.stage ≠ .align ∨ s.aon.ticks < x.since + 8750000 → exec (.alignTimeout p) s = .next s) ∧
    (x.retrain ≠ none ∨ x.stage ≠ .ident ∨ s.aon.ticks < x.since + 11250000 → exec (.identTimeout p) s = .next s) ∧
    (∀ lane, (x.stage ≠ .train ∧ x.stage ≠ .align ∧ x.stage ≠ .ident) ∨ s.lanesOf p ≤ lane → exec (.laneSignalLoss p lane) s = .next s)) ∧
  (∀ (s : State) (p lane arrival departure n : Nat) (b : List Byte) (x : Port), x = s.getPort p → n = s.lanesOf p →
    (x.stage ≠ .align ∨ n ≤ lane ∨ fld b 0 1 ≠ 1 → exec (.alignFlit p lane b arrival departure) s = .next s) ∧
    (x.stage = .align → lane < n → fld b 0 1 = 1 → ∃ (t : State) (y : Port), exec (.alignFlit p lane b arrival departure) s = .next t ∧
      y.laneAt lane = { x.laneAt lane with port := fld b 3 1, lanes := fld b 2 1, mark := max (x.laneAt lane).mark (fld b 4 4)
                                           aligns := (x.laneAt lane).aligns + 1, arrival := arrival
                                           aligned := if bit (fld b 0x10 1) 0 then (x.laneAt lane).aligned + 1 else 0 } ∧
      (∀ k, k ≠ lane → y.laneAt k = x.laneAt k) ∧
      (lane = 0 → y.samples = ((arrival - departure - fld b 0xC 4) :: x.samples).take 16) ∧ (lane ≠ 0 → y.samples = x.samples) ∧
      y.rtt = (if y.samples.length = 16 then (y.samples.sum + 511) / 512 else x.rtt) ∧
      (y.deskewed = true ↔ x.deskewed = true ∨ ∀ k, k < n → 1 ≤ (y.laneAt k).aligns ∧ (y.laneAt k).port = (y.laneAt 0).port ∧
        (y.laneAt k).lanes = (y.laneAt 0).lanes ∧ (y.laneAt k).mark = (y.laneAt 0).mark) ∧
      y = { x with lane := y.lane, samples := y.samples, rtt := y.rtt, deskewed := y.deskewed } ∧
      ((y.deskewed = true ∧ x.deskewed = false ∧ (∃ i k, i < n ∧ k < n ∧ (y.laneAt i).arrival + 2048 < (y.laneAt k).arrival)) ∨
          (y.deskewed = true ∧ y.samples.length = 16 ∧ 2000 < y.rtt) →
        t.getPort p = Port.failed s.aon.ticks y ∧ t = { s with links := { s.links with port := t.links.port } }) ∧
      ((x.deskewed = true ∨ y.deskewed = false ∨ ∀ i k, i < n → k < n → (y.laneAt k).arrival ≤ (y.laneAt i).arrival + 2048) →
        (y.deskewed = true → y.samples.length = 16 → y.rtt ≤ 2000 → (∀ k, k < n → 4 ≤ (y.laneAt k).aligned) →
          t.getPort p = { y with stage := .ident } ∧ IdentSent s t p y ∧ t = { s with links := { s.links with port := t.links.port }, out := t.out }) ∧
        (y.deskewed = false → (∀ k, k < n → 16 ≤ (y.laneAt k).aligns) →
          t.getPort p = { y with stage := .ident, mixed := true, rtt := 0, samples := [] } ∧ IdentSent s t p y ∧
          t = { s with links := { s.links with port := t.links.port }, out := t.out }) ∧
        ((y.deskewed = true → y.samples.length = 16 → y.rtt ≤ 2000 ∧ ∃ k, k < n ∧ (y.laneAt k).aligned < 4) →
          (y.deskewed = false → ∃ k, k < n ∧ (y.laneAt k).aligns < 16) →
          (lane = 0 → t.getPort p = { y with marks := (y.marks + 1) % 2 ^ 32 } ∧ AlignSent s t p y ∧
            t = { s with links := { s.links with port := t.links.port }, out := t.out, free := t.free }) ∧
          (lane ≠ 0 → t.getPort p = y ∧ t = { s with links := { s.links with port := t.links.port } }))) ∧
      (∀ q, q ≠ p → t.getPort q = s.getPort q))) ∧
  (∀ (s : State) (p lane n : Nat) (b : List Byte) (x : Port), x = s.getPort p → n = s.lanesOf p →
    (x.stage ≠ .ident ∨ n ≤ lane ∨ fld b 0 1 ≠ 2 → exec (.identFlit p lane b) s = .next s) ∧
    (x.stage = .ident → lane < n → fld b 0 1 = 2 → ∃ (t : State) (y : Port), exec (.identFlit p lane b) s = .next t ∧
      y.laneAt lane = { x.laneAt lane with ident := some (identOf b), seen := bit (fld b 6 1) 0
                                           same := if (x.laneAt lane).ident = some (identOf b) then (x.laneAt lane).same + 1 else 1 } ∧
      (∀ k, k ≠ lane → y.laneAt k = x.laneAt k) ∧ y = { x with lane := y.lane } ∧
      ((∀ k, k < n → 2 ≤ (y.laneAt k).same ∧ (y.laneAt k).seen = true) → (x.retrain = none ∨ ∃ r, x.retrain = some r ∧ s.aon.ticks ≤ r + 25000) →
        IdentSent s t p y ∧ t.getPort p = { y with stage := .finished, mixed := (t.getPort p).mixed, obs := (t.getPort p).obs } ∧
        (x.retrain = none → (t.getPort p).obs = (y.laneAt 0).ident ∧ ((t.getPort p).mixed = true ↔ x.mixed = true ∨
          ∃ k, k < n ∧ (y.laneAt k).ident.map Ident.who ≠ (y.laneAt 0).ident.map Ident.who)) ∧
        (x.retrain ≠ none → (t.getPort p).obs = x.obs ∧ ((t.getPort p).mixed = true ↔ x.mixed = true ∨
          (y.laneAt 0).ident.map Ident.who ≠ x.obs.map Ident.who ∨
          ∃ k, k < n ∧ (y.laneAt k).ident.map Ident.who ≠ (y.laneAt 0).ident.map Ident.who)) ∧
        t = { s with links := { s.links with port := t.links.port }, out := t.out }) ∧
      ((∃ k, k < n ∧ ((y.laneAt k).same < 2 ∨ (y.laneAt k).seen = false)) ∨ (∃ r, x.retrain = some r ∧ r + 25000 < s.aon.ticks) →
        t.getPort p = y ∧ (lane = 0 → IdentSent s t p y) ∧ (lane ≠ 0 → t.out = s.out) ∧
        t = { s with links := { s.links with port := t.links.port }, out := t.out }) ∧
      (∀ q, q ≠ p → t.getPort q = s.getPort q)))

/-- R251, R252, R223 and R248: with one planned port to check, whose partner is the expected one, the port is UP with RESULT OK and its flit stream at
SEQ 0, striped over the lanes as their identities reported, and the LINK_PLAN that waits completes with OK; with no partner observed it is ABSENT and the plan
completes with LINK_ABSENT; with another partner or a mixed one it is held as MISWIRED, and two ports that see each other's partners as SWAPPED, and the plan
completes with MISWIRED; while a planned port has not ended nothing changes. R255 to R257: a link event makes an UP port retrain with its replay buffer kept and
counts it; done within 1 ms with the same partner it replays and carries flits again; otherwise the port is LOST: what it had queued is discarded and counted,
and every live pattern's halt falls due with LINK_LOST unless it is a selvage port, or the twin port, whose bound partitions become SOLO (R305); 100 ms later a
planned port starts bring-up again.
The model's own choices in it: log entry 82. -/
def Obligations.PlanCheckAndRetrain : Prop :=
  (∀ (s : State) (p ch : Nat) (x : Port), s.plannedPorts = [p] → x = s.getPort p → x.result = .none → s.links.checking = true → s.links.planCh = some ch →
    (x.state = .bringup → x.stage = .finished → x.mixed = false → (∃ o e, x.obs = some o ∧ s.expected p = some e ∧ o.who = e) →
      ∃ t : State, exec .planCheck s = .next (t.answer ch .ok []) ∧
        t.getPort p = { marked := x.marked, count := x.count, attempts := x.attempts, obs := x.obs, rtt := x.rtt, since := x.since, deskewed := x.deskewed
                        marks := x.marks, order := (t.getPort p).order, state := .up, result := .ok, lastAccept := s.aon.ticks } ∧
        (∀ i d, i < s.lanesOf p → (x.laneAt i).ident = some d →
          (∀ k e, k < s.lanesOf p → k ≠ i → (x.laneAt k).ident = some e → e.lane ≠ d.lane) → Tab.get 0 (t.getPort p).order d.lane = i + 1) ∧
        t.links = { s.links with planCh := none, checking := false, port := t.links.port } ∧ (∀ q, q ≠ p → t.getPort q = s.getPort q) ∧
        t = { s with links := t.links }) ∧
    (x.state = .bringup ∧ x.stage = .finished ∧ x.obs = none ∨ x.state = .absent ∧ x.obs = none → ∃ t : State,
      exec .planCheck s = .next (t.answer ch .linkAbsent []) ∧ (t.getPort p).state = .absent ∧ (t.getPort p).result = .absent ∧
        (t.getPort p).stage = .idle ∧ t.links = { s.links with planCh := none, checking := false, port := t.links.port } ∧
        (s.irq.status.length = 11 → t.caused .linkPlan) ∧ (∀ q, q ≠ p → t.getPort q = s.getPort q) ∧
        t = { s with links := t.links, irq := t.irq, pcie := t.pcie, out := t.out }) ∧
    (x.state = .retired → ∃ t : State, exec .planCheck s = .next (t.answer ch .linkAbsent []) ∧ (t.getPort p).state = .retired ∧
        (t.getPort p).result = .absent ∧ (s.irq.status.length = 11 → t.caused .linkPlan) ∧ (∀ q, q ≠ p → t.getPort q = s.getPort q) ∧
        t = { s with links := t.links, irq := t.irq, pcie := t.pcie, out := t.out }) ∧
    (∀ o, x.state = .bringup → x.stage = .finished → x.obs = some o → x.mixed = true ∨ s.expected p ≠ some o.who → ∃ t : State,
      exec .planCheck s = .next (t.answer ch .miswired []) ∧ (t.getPort p).state = .held ∧ (t.getPort p).result = .miswired ∧ (t.getPort p).pair = 255 ∧
        (t.getPort p).obs = some o ∧ t.links = { s.links with planCh := none, checking := false, port := t.links.port } ∧
        (s.irq.status.length = 11 → t.caused .linkPlan) ∧ (∀ q, q ≠ p → t.getPort q = s.getPort q) ∧
        t = { s with links := t.links, irq := t.irq, pcie := t.pcie, out := t.out }) ∧
    (x.stage ≠ .finished → x.state ≠ .absent → x.state ≠ .retired → exec .planCheck s = .next s)) ∧
  (∀ (s : State) (p q ch : Nat) (o o' : Ident), s.plannedPorts = [p, q] → p ≠ q → s.links.checking = true → s.links.planCh = some ch →
    (s.getPort p).result = .none → (s.getPort q).result = .none → (s.getPort p).state = .bringup → (s.getPort q).state = .bringup →
    (s.getPort p).stage = .finished → (s.getPort q).stage = .finished → (s.getPort p).mixed = false → (s.getPort q).mixed = false →
    (s.getPort p).obs = some o → (s.getPort q).obs = some o' → s.expected q = some o.who → s.expected p = some o'.who → s.expected p ≠ s.expected q →
    ∃ t : State, exec .planCheck s = .next (t.answer ch .miswired []) ∧ (t.getPort p).state = .held ∧ (t.getPort p).result = .swapped ∧
      (t.getPort p).pair = q ∧ (t.getPort q).state = .held ∧ (t.getPort q).result = .swapped ∧ (t.getPort q).pair = p ∧ t.links.planCh = none ∧
      (∀ k, k ≠ p → k ≠ q → t.getPort k = s.getPort k) ∧ t = { s with links := t.links, irq := t.irq, pcie := t.pcie, out := t.out }) ∧
  (∀ (s : State) (p : Nat) (c : LinkEventCause) (x : Port) (y : FaultUnit), x = s.getPort p → y = Tab.get {} s.faults.unit (unitKey 11 p) →
    (x.state ≠ .up ∨ x.retrain ≠ none ∨ (∃ l, c = .laneLoss l ∧ s.lanesOf p ≤ l) ∨ (c = .replays ∧ ∀ n ∈ x.tries, n < 8) ∨
      (c = .noAccept ∧ s.aon.ticks < x.lastAccept + 2500) → exec (.linkEvent p c) s = .next s) ∧
    (x.state = .up → x.retrain = none → (∃ l, c = .laneLoss l ∧ l < s.lanesOf p) ∨ (c = .replays ∧ ∃ n ∈ x.tries, 8 ≤ n) ∨
        (c = .noAccept ∧ x.lastAccept + 2500 ≤ s.aon.ticks) → ∃ t : State, exec (.linkEvent p c) s = .next t ∧
      t.getPort p = { x with retrain := some s.aon.ticks, stage := .train, lane := [], samples := [], deskewed := false, mixed := false
                             count := { x.count with ev := (t.getPort p).count.ev }, marked := (t.getPort p).marked } ∧
      Tab.get 0 (t.getPort p).count.ev 3 = satAdd 64 (Tab.get 0 x.count.ev 3) 1 ∧
      (∀ k, k ≠ 3 → Tab.get 0 (t.getPort p).count.ev k = Tab.get 0 x.count.ev k) ∧
      (x.marked = false → y = {} → 1 < (s.policy 11).2 → (t.getPort p).marked = false ∧
        (Tab.get {} t.faults.unit (unitKey 11 p)).count = 1 ∧ ∃ e, t.newest = some e ∧ e.kind = 1 ∧ e.cls = 11 ∧ e.unitKind = 0xA ∧ e.unit = p) ∧
      (x.marked = false → x.state ≠ .retired → y.held = false → 0 < y.count → s.aon.ticks < y.start + (s.policy 11).1 * 25000000 →
        (s.policy 11).2 ≤ y.count + 1 → (t.getPort p).marked = true ∧ (s.irq.status.length = 11 → t.caused .linkRetire ∧ t.caused .lasting) ∧
        ∃ e, t.newest = some e ∧ e.kind = 2 ∧ e.code = .faultLasting ∧ e.cls = 11 ∧ e.unit = p) ∧
      (∀ q, q ≠ p → t.getPort q = s.getPort q) ∧
      t = { s with links := { s.links with port := t.links.port }, faults := t.faults, irq := t.irq, pcie := t.pcie, out := t.out })) ∧
  (∀ (s : State) (p : Nat) (x : Port), x = s.getPort p →
    (x.retrain ≠ none → x.stage = .finished → x.mixed = false → ∃ t : State, exec (.portRetrainDone p) s = .next t ∧
      t.getPort p = { x with
        order := (t.getPort p).order, laneRx := [], txIndex := x.replay.length, rxIndex := 0, lane := [], samples := [], retrain := none, stage := .idle
        tries := x.tries.map (fun _ => if x.replay = [] then 0 else 1), lastAccept := s.aon.ticks
        count := { x.count with ev := (t.getPort p).count.ev } } ∧
      (x.replay = [] → (t.getPort p).count = x.count ∧ t.out = s.out) ∧
      (x.replay ≠ [] → Tab.get 0 (t.getPort p).count.ev 2 = satAdd 64 (Tab.get 0 x.count.ev 2) 1 ∧
        (∀ k, k ≠ 2 → Tab.get 0 (t.getPort p).count.ev k = Tab.get 0 x.count.ev k) ∧
        t.out = s.out ++ [.flits p ((List.range x.replay.length).map fun k =>
          ⟨k % max (s.lanesOf p) 1, nth default x.replay k, flitParity (nth default x.replay k)⟩)]) ∧
      (∀ q, q ≠ p → t.getPort q = s.getPort q) ∧ t = { s with links := { s.links with port := t.links.port }, out := t.out }) ∧
    (x.retrain = none ∨ x.stage ≠ .finished ∨ x.mixed = true → exec (.portRetrainDone p) s = .next s) ∧
    (∀ since, x.retrain = some since → (x.stage ≠ .finished ∧ since + 25000 ≤ s.aon.ticks) ∨ (x.stage = .finished ∧ x.mixed = true) →
      (∀ q, 64 ≤ q → (s.getPart q).live = false) → ∃ t : State, exec (.portLost p) s = .next t ∧
      t.getPort p = { x with
        state := .lost, stage := .idle, retrain := none, lostAt := some s.aon.ticks, tx := [], replay := [], tries := [], mgmt := [], chunks := []
        symbols := [], partialRx := [], partialDl := [], count := { x.count with ev := (t.getPort p).count.ev }, marked := (t.getPort p).marked } ∧
      Tab.get 0 (t.getPort p).count.ev 10 = satAdd 64 (Tab.get 0 x.count.ev 10) x.tx.length ∧
      Tab.get 0 (t.getPort p).count.ev 4 = satAdd 64 (Tab.get 0 x.count.ev 4) 1 ∧
      (∀ k, k ≠ 10 → k ≠ 4 → Tab.get 0 (t.getPort p).count.ev k = Tab.get 0 x.count.ev k) ∧
      (s.irq.status.length = 11 → t.caused .linkLost) ∧ (x.marked = true → (t.getPort p).marked = true) ∧
      (p < 12 → s.isSelvage p = false →
        (∀ q, (s.getPart q).live = true → (s.getPart q).run.halt = none → t.getPart q = { s.getPart q with run := { (s.getPart q).run with
          halt := some .linkLost, haltAt := s.sync.stitch } }) ∧
        (∀ q, (s.getPart q).live = false ∨ (s.getPart q).run.halt ≠ none → t.getPart q = s.getPart q)) ∧
      (s.isSelvage p = true → t.part = s.part) ∧
      (p = 12 → (∀ q, q < 64 → (s.getPart q).twin.copy ≠ .sending) → ∀ q, q < 64 →
        ((s.getPart q).twin.state = .bound → (s.getPart q).twin.comparedAt ≠ some s.aon.ticks → t.getPart q = { s.getPart q with
          twin := { (s.getPart q).twin with state := .solo, soloNext := false, due := none, sentAt := none, waiting := false } } ∧
          (s.irq.status.length = 11 → t.caused .solo)) ∧
        ((s.getPart q).twin.state = .bound → (s.getPart q).twin.comparedAt = some s.aon.ticks → t.getPart q = { s.getPart q with
          twin := { (s.getPart q).twin with soloNext := true } }) ∧
        ((s.getPart q).twin.state ≠ .bound → t.getPart q = s.getPart q)) ∧
      (p ≤ 12 → ∀ q, q ≠ p → t.getPort q = s.getPort q) ∧
      t = { s with links := { s.links with port := t.links.port }, part := t.part, faults := t.faults, irq := t.irq, pcie := t.pcie, out := t.out }) ∧
    (x.retrain = none ∨ (∃ since, x.retrain = some since ∧ s.aon.ticks < since + 25000 ∧ x.stage ≠ .finished) ∨ (x.stage = .finished ∧ x.mixed = false) →
      exec (.portLost p) s = .next s) ∧
    (∀ since, x.lostAt = some since → x.state = .lost → since + 2500000 ≤ s.aon.ticks → p ∈ s.plannedPorts →
      ∃ t : State, exec (.lostPortBringup p) s = .next t ∧ t.getPort p =
          { marked := x.marked, count := x.count, state := .bringup, stage := .train, attempts := 1, since := s.aon.ticks } ∧
        (∀ q, q ≠ p → t.getPort q = s.getPort q) ∧ t = { s with links := { s.links with port := t.links.port } }) ∧
    (x.lostAt = none ∨ x.state ≠ .lost ∨ p ∉ s.plannedPorts ∨ (∃ since, x.lostAt = some since ∧ s.aon.ticks < since + 2500000) →
      exec (.lostPortBringup p) s = .next s))

/-! ### Flits and frames -/

/-- R223: the fields of a flit header are read as they were written, and a flit made of a header and a payload carries a right CRC. R229: a frame's 16-byte header followed by its payload spells the frame: every field of every frame whose fields lie in their widths. -/
def Obligations.FlitsAndFramesRoundTrip : Prop :=
  (∀ (ftype vl dl seq ack skind sch hold : Nat) (first last nak : Bool) (payload : List Byte), ftype < 16 → vl < 4 → dl < 2 → seq < 4096 →
    ack < 4096 → skind < 4 → sch < 8 → hold < 65536 → ∃ fl, mkFlit (flitHeader ftype vl dl first last nak seq ack (skind, sch, hold)) payload = fl ∧
      flFtype fl = ftype ∧ flVl fl = vl ∧ flDl fl = dl ∧ flFirst fl = first ∧ flLast fl = last ∧ flNak fl = nak ∧ flSeq fl = seq ∧
      flAck fl = ack ∧ flSkind fl = skind ∧ flSch fl = sch ∧ flHold fl = hold ∧ fl.payload.length = 232 ∧ flCrcOk fl = true) ∧
  (∀ f : Frame, f.dst.x < 256 → f.dst.y < 256 → f.dst.z < 256 → f.src.x < 256 → f.src.y < 256 → f.src.z < 256 → f.part < 64 → f.kind < 16 →
    f.token < 65536 → f.arg < 2 ^ 32 → f.payload.length < 65536 → ∀ tail : List Byte,
      (frameHeader f).length = 16 ∧ frameParse f.vl f.dl (frameHeader f ++ f.payload ++ tail) = f)

/-- R223: the flits of a port's stream are taken in flit order, flit i from the lane that carries it, one that comes early waiting on its lane. R224, R225 and R267:
a flit that fails is discarded whole, counted as one link error event, and a NAK is to go out; one out of sequence is discarded; one in sequence is accepted
once: the next SEQ is expected, its ACK releases replay buffer, its NAK replays what is left, and its symbol sets its channel (R236). R228, R230, R235: a DATA flit
joins the frame of its virtual lane, takes a place, and a place below the skid allowance sends an OFF; a whole frame stands among those received, or is
discarded and counted where its kind may not arrive or the port is a selvage port (R263). In bring-up a failed flit counts and nothing else happens. R236 and R237: a hold
ends when its tick has come; an OFF is repeated when half of its hold has passed and places are still short; before that nothing changes. -/
def Obligations.FlitsAcceptedAndFlow : Prop :=
  (∀ (s : State) (p lane : Nat) (fl : Flit) (x y : Port), x = s.getPort p → s.carries p = true → lane < s.lanesOf p → x.laneRx = [] →
    lane = (if Tab.get 0 x.order (x.rxIndex % max (s.lanesOf p) 1) = 0 then x.rxIndex % max (s.lanesOf p) 1
      else Tab.get 0 x.order (x.rxIndex % max (s.lanesOf p) 1) - 1) →
    y = { x with rxIndex := x.rxIndex + 1 } →
    (∀ (fec : Fec) (u : FaultUnit), fec = .failed ∨ flCrcOk fl = false → u = Tab.get {} s.faults.unit (unitKey 10 p) →
      ∃ t : State, exec (.flitReceive p lane fec fl) s = .next t ∧
        t.getPort p = { y with nak := true, count := { x.count with ev := (t.getPort p).count.ev }, marked := (t.getPort p).marked } ∧
        Tab.get 0 (t.getPort p).count.ev 1 = satAdd 64 (Tab.get 0 x.count.ev 1) 1 ∧
        (∀ k, k ≠ 1 → Tab.get 0 (t.getPort p).count.ev k = Tab.get 0 x.count.ev k) ∧
        (u.held = false → x.marked = false → 0 < u.count → s.aon.ticks < u.start + (s.policy 10).1 * 25000000 → u.count + 1 < (s.policy 10).2 →
          Tab.get {} t.faults.unit (unitKey 10 p) = { u with count := u.count + 1 } ∧ (t.getPort p).marked = false) ∧
        (u = {} → x.marked = false → 1 < (s.policy 10).2 → ∃ e, t.newest = some e ∧ e.kind = 1 ∧ e.cls = 10 ∧ e.unitKind = 0xA ∧ e.unit = p) ∧
        (∀ q, q ≠ p → t.getPort q = s.getPort q) ∧
        t = { s with links := { s.links with port := t.links.port }, faults := t.faults, irq := t.irq, pcie := t.pcie, out := t.out }) ∧
    (flCrcOk fl = true →
      (flSeq fl ≠ x.rxSeq → ∀ fec, fec = .clean ∨ fec = .corrected → ∃ t : State, exec (.flitReceive p lane fec fl) s = .next t ∧
        t.getPort p = { y with count := { x.count with ev := (t.getPort p).count.ev } } ∧ (fec = .clean → (t.getPort p).count = x.count) ∧
        (fec = .corrected → Tab.get 0 (t.getPort p).count.ev 0 = satAdd 64 (Tab.get 0 x.count.ev 0) 1) ∧
        (∀ k, k ≠ 0 → Tab.get 0 (t.getPort p).count.ev k = Tab.get 0 x.count.ev k) ∧ (∀ q, q ≠ p → t.getPort q = s.getPort q) ∧
        t = { s with links := { s.links with port := t.links.port } }) ∧
      (∀ (a : Nat) (keep : Bool), flSeq fl = x.rxSeq → flFtype fl = 0 → a = (flAck fl + 1 + 4096 - x.txAcked % 4096) % 4096 →
        (keep = true ↔ a = 0 ∨ x.replay.length < a) → ∃ t : State, exec (.flitReceive p lane .clean fl) s = .next t ∧
        (t.getPort p).replay = (if keep then x.replay else x.replay.drop a) ∧ (t.getPort p).txAcked = (if keep then x.txAcked else (flAck fl + 1) % 4096) ∧
        (keep = true → (t.getPort p).chunks = x.chunks) ∧
        (keep = false → (t.getPort p).chunks = x.chunks.filter fun c => decide (a ≤ (c.2.2.2 + 4096 - x.txAcked % 4096) % 4096)) ∧
        (flSkind fl = 0 ∨ flSkind fl = 3 ∨ 6 ≤ flSch fl → (t.getPort p).flow = x.flow ∧ (t.getPort p).used = x.used) ∧
        (flSch fl < 6 → flSkind fl = 1 ∨ flSkind fl = 2 → (t.getPort p).chan (flSch fl) = { x.chan (flSch fl) with
            heldUntil := if flSkind fl = 1 ∨ flHold fl = 0 then none else some (max s.aon.ticks (x.chan (flSch fl)).frameEnd + flHold fl) } ∧
          (∀ k, k ≠ flSch fl → (t.getPort p).chan k = x.chan k) ∧
          (flSkind fl = 2 → flHold fl ≠ 0 → Tab.get 0 (t.getPort p).used (65 + vlOfSch (flSch fl)) = 1)) ∧
        (flNak fl = false ∨ (t.getPort p).replay = [] → (t.getPort p).tries = (if keep then x.tries else x.tries.drop a) ∧ (t.getPort p).count = x.count ∧
          (t.getPort p).txIndex = x.txIndex ∧ t.out = s.out) ∧
        (flNak fl = true → (t.getPort p).replay ≠ [] → (t.getPort p).tries = (if keep then x.tries else x.tries.drop a).map (· + 1) ∧
          (t.getPort p).txIndex = x.txIndex + (t.getPort p).replay.length ∧ Tab.get 0 (t.getPort p).count.ev 2 = satAdd 64 (Tab.get 0 x.count.ev 2) 1 ∧
          (∀ k, k ≠ 2 → Tab.get 0 (t.getPort p).count.ev k = Tab.get 0 x.count.ev k) ∧
          t.out = s.out ++ [.flits p ((List.range (t.getPort p).replay.length).map fun k => ⟨(x.txIndex + k) % max (s.lanesOf p) 1,
            nth default (t.getPort p).replay k, flitParity (nth default (t.getPort p).replay k)⟩)]) ∧
        t.getPort p = { y with
          rxSeq := (x.rxSeq + 1) % 4096, lastAccept := s.aon.ticks, replay := (t.getPort p).replay, tries := (t.getPort p).tries
          txAcked := (t.getPort p).txAcked, chunks := (t.getPort p).chunks, flow := (t.getPort p).flow, used := (t.getPort p).used
          txIndex := (t.getPort p).txIndex, count := { x.count with ev := (t.getPort p).count.ev } } ∧
        (∀ q, q ≠ p → t.getPort q = s.getPort q) ∧ t = { s with links := { s.links with port := t.links.port }, out := t.out }) ∧
      (∀ (vl dl k : Nat) (whole : List Byte) (f : Frame), flSeq fl = x.rxSeq → flFtype fl = 1 → flNak fl = false → flSkind fl = 0 → vl = flVl fl →
        dl = (if flFirst fl then flDl fl else Tab.get 0 x.partialDl vl - 1) → k = schOf vl dl →
        whole = (if flFirst fl then [] else Tab.get [] x.partialRx vl) ++ slice fl.payload 0 232 → f = frameParse vl dl whole →
        ∃ t : State, exec (.flitReceive p lane .clean fl) s = .next t ∧
          (flLast fl = false ∨ kindOk p f = true ∧ s.isSelvage p = false →
            ((t.getPort p).chan k).taken = (x.chan k).taken + 1 ∧ (∀ j, j ≠ k → (t.getPort p).chan j = x.chan j) ∧
            ((x.chan k).offAt = none → s.skid p ≤ 2048 - ((x.chan k).taken + 1) → (t.getPort p).symbols = x.symbols) ∧
            ((x.chan k).offAt = none → 2048 - ((x.chan k).taken + 1) < s.skid p → (t.getPort p).symbols = x.symbols ++ [(2, k, s.offHold p)] ∧
              ((t.getPort p).chan k).offAt = some s.aon.ticks) ∧
            ((x.chan k).offAt ≠ none → s.onAbove p < 2048 - ((x.chan k).taken + 1) → (t.getPort p).symbols = x.symbols ++ [(1, k, 0)] ∧
              ((t.getPort p).chan k).offAt = none) ∧ (t.getPort p).count = x.count) ∧
          (flLast fl = false → (t.getPort p).rx = x.rx ∧ Tab.get [] (t.getPort p).partialRx vl = whole ∧
            Tab.get 0 (t.getPort p).partialDl vl = dl + 1) ∧
          (flLast fl = true → Tab.get [] (t.getPort p).partialRx vl = [] ∧
            (kindOk p f = true → s.isSelvage p = false → (t.getPort p).rx = x.rx ++ [f]) ∧
            (kindOk p f = false → f ∉ x.rx → (t.getPort p).rx = x.rx ∧ Tab.get 0 (t.getPort p).count.ev 7 = satAdd 64 (Tab.get 0 x.count.ev 7) 1) ∧
            (kindOk p f = true → s.isSelvage p = true → f ∉ x.rx → (t.getPort p).rx = x.rx ∧
              Tab.get 0 (t.getPort p).count.ev 8 = satAdd 64 (Tab.get 0 x.count.ev 8) 1)) ∧
          (∀ v, v ≠ vl → Tab.get [] (t.getPort p).partialRx v = Tab.get [] x.partialRx v) ∧
          t.getPort p = { y with
            rxSeq := (x.rxSeq + 1) % 4096, lastAccept := s.aon.ticks, replay := (t.getPort p).replay, tries := (t.getPort p).tries
            txAcked := (t.getPort p).txAcked, chunks := (t.getPort p).chunks, flow := (t.getPort p).flow, symbols := (t.getPort p).symbols
            partialRx := (t.getPort p).partialRx, partialDl := (t.getPort p).partialDl, rx := (t.getPort p).rx
            count := { x.count with ev := (t.getPort p).count.ev } } ∧
          (∀ q, q ≠ p → t.getPort q = s.getPort q) ∧
          t = { s with links := { s.links with port := t.links.port, credits := t.links.credits } }))) ∧
  (∀ (s : State) (p lane next : Nat) (fec : Fec) (fl : Flit) (x : Port), x = s.getPort p → s.carries p = true → lane < s.lanesOf p →
    next = (if Tab.get 0 x.order (x.rxIndex % max (s.lanesOf p) 1) = 0 then x.rxIndex % max (s.lanesOf p) 1
      else Tab.get 0 x.order (x.rxIndex % max (s.lanesOf p) 1) - 1) →
    (lane ≠ next → Tab.get [] x.laneRx next = [] → ∃ t : State, exec (.flitReceive p lane fec fl) s = .next t ∧
      Tab.get [] (t.getPort p).laneRx lane = Tab.get [] x.laneRx lane ++ [(fec, fl)] ∧
      (∀ k, k ≠ lane → Tab.get [] (t.getPort p).laneRx k = Tab.get [] x.laneRx k) ∧ t.getPort p = { x with laneRx := (t.getPort p).laneRx } ∧
      (∀ q, q ≠ p → t.getPort q = s.getPort q) ∧ t = { s with links := { s.links with port := t.links.port } }) ∧
    (∀ gl other, lane = next → other ≠ lane → x.laneRx = [(other, [(.clean, gl)])] → fec = .clean → flCrcOk fl = true → flCrcOk gl = true →
      other = (if Tab.get 0 x.order ((x.rxIndex + 1) % max (s.lanesOf p) 1) = 0 then (x.rxIndex + 1) % max (s.lanesOf p) 1
        else Tab.get 0 x.order ((x.rxIndex + 1) % max (s.lanesOf p) 1) - 1) →
      flSeq fl = x.rxSeq → flSeq gl = (x.rxSeq + 1) % 4096 → flFtype fl = 0 → flFtype gl = 0 → flNak fl = false → flNak gl = false →
      ∃ t : State, exec (.flitReceive p lane fec fl) s = .next t ∧ (t.getPort p).rxSeq = (x.rxSeq + 2) % 4096 ∧
        (t.getPort p).rxIndex = x.rxIndex + 2 ∧ (t.getPort p).laneRx = [] ∧ (∀ q, q ≠ p → t.getPort q = s.getPort q) ∧
        t = { s with links := { s.links with port := t.links.port } })) ∧
  (∀ (s : State) (p lane : Nat) (fec : Fec) (fl : Flit) (x : Port), x = s.getPort p →
    (s.lanesOf p ≤ lane → exec (.flitReceive p lane fec fl) s = .next s) ∧
    (lane < s.lanesOf p → s.carries p = false →
      (x.stage ≠ .align → x.stage ≠ .ident → exec (.flitReceive p lane fec fl) s = .next s) ∧
      (x.stage = .align ∨ x.stage = .ident →
        (flCrcOk fl = true → fec = .clean → exec (.flitReceive p lane fec fl) s = .next s) ∧
        (flCrcOk fl = true → fec = .corrected → ∃ t : State, exec (.flitReceive p lane fec fl) s = .next t ∧
          t.getPort p = { x with count := { x.count with ev := (t.getPort p).count.ev } } ∧
          Tab.get 0 (t.getPort p).count.ev 0 = satAdd 64 (Tab.get 0 x.count.ev 0) 1 ∧ (∀ q, q ≠ p → t.getPort q = s.getPort q) ∧
          t = { s with links := { s.links with port := t.links.port } }) ∧
        (flCrcOk fl = false ∨ fec = .failed → ∃ t : State, exec (.flitReceive p lane fec fl) s = .next t ∧
          t.getPort p = { x with count := { x.count with ev := (t.getPort p).count.ev }, marked := (t.getPort p).marked } ∧
          Tab.get 0 (t.getPort p).count.ev 1 = satAdd 64 (Tab.get 0 x.count.ev 1) 1 ∧
          (Tab.get {} s.faults.unit (unitKey 10 p) = {} → x.marked = false → x.state ≠ .retired → 1 < (s.policy 10).2 →
            ∃ e, t.newest = some e ∧ e.kind = 1 ∧ e.cls = 10 ∧ e.unit = p) ∧
          (∀ q, q ≠ p → t.getPort q = s.getPort q) ∧
          t = { s with links := { s.links with port := t.links.port }, faults := t.faults, irq := t.irq, pcie := t.pcie, out := t.out })))) ∧
  (∀ (s : State) (p k : Nat) (c : Flow), c = (s.getPort p).chan k →
    (∀ at_, c.heldUntil = some at_ → at_ ≤ s.aon.ticks → ∃ t : State, exec (.flowHoldExpiry p k) s = .next t ∧
      (t.getPort p).chan k = { c with heldUntil := none } ∧ (∀ j, j ≠ k → (t.getPort p).chan j = (s.getPort p).chan j) ∧
      t.getPort p = { s.getPort p with flow := (t.getPort p).flow } ∧ (∀ q, q ≠ p → t.getPort q = s.getPort q) ∧
      t = { s with links := { s.links with port := t.links.port } }) ∧
    (c.heldUntil = none ∨ (∃ at_, c.heldUntil = some at_ ∧ s.aon.ticks < at_) → exec (.flowHoldExpiry p k) s = .next s) ∧
    (∀ at_, c.offAt = some at_ → 2048 - c.taken ≤ s.onAbove p → s.offHold p ≤ 2 * (s.aon.ticks - at_) →
      ∃ t : State, exec (.flowOffResend p k) s = .next t ∧ (t.getPort p).chan k = { c with offAt := some s.aon.ticks } ∧
        (∀ j, j ≠ k → (t.getPort p).chan j = (s.getPort p).chan j) ∧
        t.getPort p = { s.getPort p with flow := (t.getPort p).flow, symbols := (s.getPort p).symbols ++ [(2, k, s.offHold p)] } ∧
        (∀ q, q ≠ p → t.getPort q = s.getPort q) ∧ t = { s with links := { s.links with port := t.links.port } }) ∧
    (c.offAt = none ∨ s.onAbove p < 2048 - c.taken ∨ (∃ at_, c.offAt = some at_ ∧ 2 * (s.aon.ticks - at_) < s.offHold p) →
      exec (.flowOffResend p k) s = .next s))

/-- R234, R233, R228, R225, R226 and R223: a port that carries flits sends a LINKMGT flit that waits, else the frame of its priority: control frames while the
control allowance lasts, then pattern frames of a partition whose allowance lasts, then VL3 frames and the other control frames in turn; a frame may start only as the
oldest of its flow, on a channel that is not held, with no frame of its lane in flight, with room in the replay buffer and within the bound of chunks in flight
(R293). Its flits take the next SEQs and lanes and stay in the replay buffer, FLITS_SENT and its allowance count them, and it leaves the queue. With nothing to
start and nothing in flight the port sends one IDLE flit; a port that does not carry flits sends none.
The model's own choices in it: log entry 58. -/
def Obligations.PortsSendByPriority : Prop :=
  (∀ (s : State) (p : Nat), s.carries p = false → exec (.frameSend p) s = .next s) ∧
  (∀ (s : State) (p : Nat) (b : List Byte) (more : List (List Byte)) (x : Port), x = s.getPort p → s.carries p = true → x.mgmt = b :: more →
    x.replay.length < 1024 → ∃ (t : State) (fl : Flit), exec (.frameSend p) s = .next t ∧ flFtype fl = 2 ∧ flSeq fl = x.txSeq % 4096 ∧
      flAck fl = (x.rxSeq + 4095) % 4096 ∧ flNak fl = x.nak ∧ fl.payload = slice b 0 232 ∧ flCrcOk fl = true ∧
      t.out = s.out ++ [.flits p [⟨x.txIndex % max (s.lanesOf p) 1, fl, flitParity fl⟩]] ∧
      Tab.get 0 (t.getPort p).used 64 = Tab.get 0 x.used 64 + 1 ∧ (∀ k, k ≠ 64 → Tab.get 0 (t.getPort p).used k = Tab.get 0 x.used k) ∧
      t.getPort p = { x with mgmt := more, used := (t.getPort p).used, txSeq := (x.txSeq + 1) % 4096, nak := false, symbols := x.symbols.drop 1
                             replay := x.replay ++ [fl], tries := x.tries ++ [0], txIndex := x.txIndex + 1 } ∧
      (∀ q, q ≠ p → t.getPort q = s.getPort q) ∧ t = { s with links := { s.links with port := t.links.port }, out := t.out }) ∧
  (∀ (s : State) (p n : Nat) (f : Frame) (key : Option Nat) (x : Port), x = s.getPort p → s.carries p = true → x.mgmt = [] ∨ 1024 ≤ x.replay.length →
    s.pickFrame p = some (f, key) → f.vl < 4 → f.dl < 2 → n = frameFlits f →
    ∃ (t : State) (fs : List Flit), exec (.frameSend p) s = .next t ∧ fs.length = n ∧
      (∀ i fl, fs[i]? = some fl → flFtype fl = 1 ∧ flVl fl = f.vl ∧ flDl fl = f.dl ∧ (flFirst fl = true ↔ i = 0) ∧ (flLast fl = true ↔ i + 1 = n) ∧
        flSeq fl = (x.txSeq + i) % 4096 ∧ flAck fl = (x.rxSeq + 4095) % 4096 ∧ (flNak fl = true ↔ i = 0 ∧ x.nak = true) ∧
        fl.payload = slice (frameHeader f ++ f.payload) (232 * i) 232 ∧ flCrcOk fl = true) ∧
      t.out = s.out ++ (List.range n).map (fun i => .flits p [⟨(x.txIndex + i) % max (s.lanesOf p) 1, nth default fs i, flitParity (nth default fs i)⟩]) ∧
      (∀ k, key = some k → Tab.get 0 (t.getPort p).used k = Tab.get 0 x.used k + n ∧
        (∀ j, j ≠ k → Tab.get 0 (t.getPort p).used j = Tab.get 0 x.used j) ∧ (t.getPort p).lastRest = x.lastRest) ∧
      (key = none → (t.getPort p).used = x.used ∧ (t.getPort p).lastRest = (f.vl == 2)) ∧
      Tab.get 0 (t.getPort p).count.vl (3 * f.vl) = satAdd 64 (Tab.get 0 x.count.vl (3 * f.vl)) n ∧
      (∀ k, k ≠ 3 * f.vl → Tab.get 0 (t.getPort p).count.vl k = Tab.get 0 x.count.vl k) ∧
      (t.getPort p).chan (schOf f.vl f.dl) = { x.chan (schOf f.vl f.dl) with frameEnd := s.aon.ticks + flitTicks n (s.lanesOf p) } ∧
      (∀ k, k ≠ schOf f.vl f.dl → (t.getPort p).chan k = x.chan k) ∧
      (f.kind ≠ 2 ∨ bit f.arg 25 = true → (t.getPort p).chunks = x.chunks) ∧
      (f.kind = 2 → bit f.arg 25 = false → 0 < n → (t.getPort p).chunks =
        (x.chunks.filter fun c => !(c.1 == f.part && c.2.1 == f.arg % 2 ^ 24 && c.2.2.1 == f.token)) ++
          [(f.part, f.arg % 2 ^ 24, f.token, (x.txSeq + n + 4095) % 4096)]) ∧
      (0 < n → t.getPort p = { x with
        tx := x.tx.erase f, used := (t.getPort p).used, lastRest := (t.getPort p).lastRest, txSeq := (x.txSeq + n) % 4096, nak := false
        symbols := x.symbols.drop n, replay := x.replay ++ fs, tries := x.tries ++ List.replicate n 0, txIndex := x.txIndex + n
        flow := (t.getPort p).flow, chunks := (t.getPort p).chunks, count := { x.count with vl := (t.getPort p).count.vl } }) ∧
      (∀ q, q ≠ p → t.getPort q = s.getPort q) ∧ (f.kind ≠ 2 → f.kind ≠ 0xB → t.part = s.part) ∧
      (f.kind = 0xB → t.getPart f.part = { s.getPart f.part with twin := if fld f.payload 8 1 = 0xFE then { (s.getPart f.part).twin with copy := .complete }
        else { (s.getPart f.part).twin with copyDone := satAdd 64 (s.getPart f.part).twin.copyDone (f.payload.length - 16) } }) ∧
      (∀ c, f.kind = 2 → (s.getPart f.part).collOf (f.arg % 65536) (bits f.arg 23 16) = some c → t.getPart f.part = { s.getPart f.part with
        colls := (s.getPart f.part).colls.map fun d => if d.group = c.group ∧ d.inst = c.inst then { d with progress := s.sync.stitch } else d }) ∧
      (∀ q, q ≠ f.part → t.getPart q = s.getPart q) ∧ t = { s with links := { s.links with port := t.links.port }, part := t.part, out := t.out }) ∧
  (∀ (s : State) (p : Nat) (f : Frame) (key : Option Nat) (x : Port), x = s.getPort p → s.pickFrame p = some (f, key) →
    (∃ pre post, x.tx = pre ++ f :: post ∧ ∀ g ∈ pre, sameFlow f g = false) ∧ (x.chan (schOf f.vl f.dl)).heldAt s.aon.ticks = false ∧
    (∀ k, k < 6 → vlOfSch k = f.vl → (x.chan k).frameEnd ≤ s.aon.ticks) ∧ x.replay.length + frameFlits f ≤ 1024 ∧ s.chunkMay p f = true ∧
    (key = some 64 → f.vl = 2 ∧ Tab.get 0 x.used 64 < 4 * s.lanesOf p ∨ f.vl < 2 ∧ f.part = 64) ∧
    (∀ k, key = some k → k ≠ 64 → k = f.part ∧ f.vl < 2 ∧ Tab.get 0 x.used k < s.slotsOn k p) ∧
    (key ≠ some 64 → Tab.get 0 x.used 64 < 4 * s.lanesOf p → ∀ g ∈ x.heads, g.vl = 2 → s.mayStart p g = false) ∧
    (key = none → (f.vl = 2 ∨ f.vl = 3) ∧
      (∀ g ∈ x.heads, g.vl < 2 → Tab.get 0 x.used g.part < s.slotsOn g.part p → s.mayStart p g = false) ∧
      (x.lastRest = true → f.vl = 2 → ∀ g ∈ x.heads, g.vl = 3 → s.mayStart p g = false) ∧
      (x.lastRest = false → f.vl = 3 → ∀ g ∈ x.heads, g.vl = 2 → s.mayStart p g = false))) ∧
  (∀ (s : State) (p : Nat) (x : Port), x = s.getPort p → s.carries p = true → s.pickFrame p = none →
    (x.mgmt = [] → (∀ k, k < 6 → (x.chan k).frameEnd ≤ s.aon.ticks) → x.replay.length < 1024 →
      ∃ (t : State) (fl : Flit), exec (.frameSend p) s = .next t ∧ flFtype fl = 0 ∧ flFirst fl = false ∧ flLast fl = false ∧
        flSeq fl = x.txSeq % 4096 ∧ flAck fl = (x.rxSeq + 4095) % 4096 ∧ flNak fl = x.nak ∧ flCrcOk fl = true ∧
        (x.symbols = [] → flSkind fl = 0) ∧ (∀ a b c rest, x.symbols = (a, b, c) :: rest → a < 4 → b < 8 → c < 65536 →
          flSkind fl = a ∧ flSch fl = b ∧ flHold fl = c) ∧
        t.out = s.out ++ [.flits p [⟨x.txIndex % max (s.lanesOf p) 1, fl, flitParity fl⟩]] ∧
        t.getPort p = { x with txSeq := (x.txSeq + 1) % 4096, nak := false, symbols := x.symbols.drop 1, replay := x.replay ++ [fl]
                               tries := x.tries ++ [0], txIndex := x.txIndex + 1 } ∧
        (∀ q, q ≠ p → t.getPort q = s.getPort q) ∧ t = { s with links := { s.links with port := t.links.port }, out := t.out }) ∧
    (1024 ≤ x.replay.length ∨ x.mgmt = [] ∧ (∃ k, k < 6 ∧ s.aon.ticks < (x.chan k).frameEnd) → exec (.frameSend p) s = .next s))

/-- R258 to R261 and R263: a routed frame for another package leaves by the port of its next hop, in the dateline class of that hop, X before Y before Z and by
the shorter way; at a selvage or LOST port it is discarded and counted. R390: a command with FWD whose checks pass goes on in a COMMAND frame and is answered
OK. R391 and R363: a command frame for this package is latched on channel 1 with the tick of its acceptance, BUSY where that channel holds one, BAD_OPCODE for no
command; a reply goes to that channel's ring as one record. R268 to R270: CONGESTION_MAP is ACCEPTED and its map begins with the next REQ_ID and a request to
each package of its box, 256 at first; a request is answered with an 80-byte entry and starts a new interval; a reply to the map in progress joins its entries,
the next package is asked, and the last reply completes the map; 10 ms after the last request it completes with the replies it has.
The model's own choices in it: log entries 17, 47, 59 and 72. -/
def Obligations.RoutingCommandsAndMaps : Prop :=
  (∀ (s : State) (p q dir : Nat) (f : Frame) (u : State), f.dst ≠ s.here → kindRouted f.kind = true → Deliverable s p f → u = s.takeRx p f →
    nextDir s.links.noWrap s.size s.here f.dst = some dir → s.outPort f.dst = some q →
    (s.isSelvage q = false → (s.getPort q).state = .up → ∃ t : State, exec (.routedForward p f) s = .next t ∧
      t.getPort q = { u.getPort q with tx := (u.getPort q).tx ++ [{ f with dl := hopClass s.size s.here (some (oppositeDir (s.dirOf p))) f.dl dir }] } ∧
      (∀ r, r ≠ q → t.getPort r = u.getPort r) ∧ t = { s with links := { s.links with port := t.links.port } }) ∧
    (∀ k, s.isSelvage q = true ∧ k = 8 ∨ s.isSelvage q = false ∧ (s.getPort q).state = .lost ∧ k = 10 → ∃ t : State,
      exec (.routedForward p f) s = .next t ∧ t.getPort q = { u.getPort q with count := { (u.getPort q).count with ev := (t.getPort q).count.ev } } ∧
      Tab.get 0 (t.getPort q).count.ev k = satAdd 64 (Tab.get 0 (u.getPort q).count.ev k) 1 ∧ (∀ r, r ≠ q → t.getPort r = u.getPort r) ∧
      t = { s with links := { s.links with port := t.links.port } })) ∧
  (∀ (s : State) (p : Nat) (f : Frame), f.dst = s.here ∨ kindRouted f.kind = false → exec (.routedForward p f) s = .next s) ∧
  (∀ (s : State) (p : Nat) (f : Frame), (f ∉ (s.getPort p).rx → s.takeRx p f = s) ∧
    (f ∈ (s.getPort p).rx → ((s.takeRx p f).getPort p).rx = (s.getPort p).rx.erase f ∧
      (((s.takeRx p f).getPort p).chan (schOf f.vl f.dl)).taken = ((s.getPort p).chan (schOf f.vl f.dl)).taken - frameFlits f ∧
      (s.takeRx p f).getPort p = { s.getPort p with
        rx := ((s.takeRx p f).getPort p).rx, flow := ((s.takeRx p f).getPort p).flow, symbols := ((s.takeRx p f).getPort p).symbols } ∧
      (∀ q, q ≠ p → (s.takeRx p f).getPort q = s.getPort q))) ∧
  (∀ (nw n k : Nat) (size a b : Coord), coordOn size k = n → coordOn a k < n → coordOn b k < n → k < 3 → coordOn a k ≠ coordOn b k →
    (∀ j, j < k → coordOn a j = coordOn b j) →
    (bit nw k = true → nextDir nw size a b = some (if coordOn a k < coordOn b k then 2 * k else 2 * k + 1)) ∧
    (bit nw k = false → nextDir nw size a b =
      some (if (coordOn b k + n - coordOn a k) % n ≤ n - (coordOn b k + n - coordOn a k) % n then 2 * k else 2 * k + 1))) ∧
  (∀ (s : State) (op : Nat) (c : Instr) (h : Held) (i : OpInfo) (b hdr : List Byte),
    (op, c) ∈ [(0x0201, Instr.patternLoad 1), (0x0203, Instr.patternStart 1), (0x0204, Instr.patternHalt 1), (0x0401, Instr.linkProfile 1),
      (0x0901, Instr.memRegulate 1), (0x0902, Instr.memFill 1), (0x0A01, Instr.fwInfo 1)] →
    (s.getChan 1).held = some h → h.opcode = op → h.stepped = false → s.turnOf 1 h.tick = true → h.fwd = true ∨ h.twinFwd = true →
    opInfo op = some i → s.checks i 1 h = .pass → h.block = some b →
    hdr = record 16 [⟨0, 2, op⟩, ⟨2, 1, h.part⟩, ⟨3, 1, b2n h.long + 2 * b2n h.host⟩, ⟨4, 2, h.tag⟩, ⟨6, 2, h.length⟩] →
    (h.long = true ∧ h.host = true ∨ 14816 < b.length → exec c s = .next (s.answer 1 .badParam [])) ∧
    (h.long = false ∨ h.host = false → b.length ≤ 14816 →
      (s.links.plan = none → exec c s = .next (s.answer 1 .linkAbsent [])) ∧
      (s.links.plan ≠ none → h.twinFwd = false → exec c s = .next (State.answer 1 .ok [] (s.inject
        { dst := ⟨bits h.addr 7 0, bits h.addr 15 8, bits h.addr 23 16⟩, src := s.here, kind := 3, vl := 2, payload := hdr ++ b }))) ∧
      (s.links.plan ≠ none → h.twinFwd = true → exec c s = .next (State.answer 1 .ok [] (s.sendTwin
        { dst := s.here, src := s.here, kind := 0xA, arg := 1, vl := 2, payload := hdr ++ b }))))) ∧
  (∀ (s : State) (p : Nat) (f : Frame) (u : State) (h : Held), f.kind = 3 → f.dst = s.here → Deliverable s p f → u = s.takeRx p f →
    (bit f.arg 0 = true → exec (.commandFrame p f) s = .next (u.ringRecord 1 3 f.src 0 f.payload)) ∧
    (bit f.arg 0 = false → 16 ≤ f.payload.length → h = {
        opcode := fld f.payload 0 2, part := bits (fld f.payload 2 1) 5 0, flags := bits (fld f.payload 3 1) 3 0, tag := fld f.payload 4 2
        length := fld f.payload 6 2, addr := fld f.payload 8 8
        reserved := bits (fld f.payload 2 1) 7 6 != 0 || bits (fld f.payload 3 1) 7 4 != 0, params := .ok (f.payload.drop 16), via := .frame f.src
        tick := s.aon.ticks, at_ := s.sync.stitch } →
      ((s.getChan 1).held ≠ none → exec (.commandFrame p f) s = .next (u.replyFrame h .busy true [] [])) ∧
      ((s.getChan 1).held = none → opInfo h.opcode = none → ∃ v : State, v.getChan 1 = { s.getChan 1 with busy := true, held := some h } ∧
        v = { u with chan := v.chan } ∧ exec (.commandFrame p f) s = .next (v.answer 1 .badOpcode [])) ∧
      ((s.getChan 1).held = none → (opInfo h.opcode).isSome = true → h.opcode ≠ 0x0903 → (∀ e ∈ s.faults.policyPend, e.ch ≠ 1) →
        ∃ t : State, exec (.commandFrame p f) s = .next t ∧ t.getChan 1 = { s.getChan 1 with busy := true, held := some h } ∧
          (∀ c, c ≠ 1 → t.getChan c = s.getChan c) ∧ t = { u with chan := t.chan }))) ∧
  (∀ (s : State) (p : Nat) (f : Frame), f.kind ≠ 3 ∨ f.dst ≠ s.here → exec (.commandFrame p f) s = .next s) ∧
  (∀ (s : State) (ch : Nat) (h : Held) (b : List Byte) (box : List Nat) (m : CMap) (all : List Coord), Commanded s 0x0502 ch h b →
    box = (List.range 6).map (fun i => fld b i 1) → all = (boxCoords box).filter (fun c => decide (c.x < s.size.x) && decide (c.y < s.size.y) && decide (c.z < s.size.z)) →
    m = { ch := ch, reqId := (s.reqId + 1) % 2 ^ 16, box := box, lastSent := s.aon.ticks, toAsk := all.drop 256, entries := [] } →
    (zeros b 6 8 = false ∨ h.host = false ∧ 65536 < 32 + 80 * boxCount box → exec (.congestionMap ch) s = .next (s.answer ch .badParam [])) ∧
    (zeros b 6 8 = true → h.host = true ∨ 32 + 80 * boxCount box ≤ 65536 → 0 < boxCount box →
      exec (.congestionMap ch) s = .next ((all.take 256).foldl (fun v d => v.inject
        { dst := d, src := v.here, kind := 9, arg := 1 + 2 ^ 8 * m.reqId, vl := 3, payload := List.replicate 8 0 })
        (State.accept ch { s with cmap := some m, reqId := m.reqId })))) ∧
  (∀ (s : State) (m : CMap),
    (s.cmap = some m → m.lastSent + 250000 ≤ s.aon.ticks → exec .congestionMapTimeout s = .next (State.finish m.ch .ok [] m.bytes { s with cmap := none })) ∧
    (s.cmap = none ∨ s.cmap = some m ∧ s.aon.ticks < m.lastSent + 250000 → exec .congestionMapTimeout s = .next s)) ∧
  (∀ (s : State) (p : Nat) (f : Frame), f.kind = 9 → f.dst = s.here → Deliverable s p f →
    (ttype f = 1 → ∃ (u : State) (e : List Byte), e.length = 80 ∧ nth 0 e 0 = BitVec.ofNat 8 s.here.x ∧ nth 0 e 1 = BitVec.ofNat 8 s.here.y ∧
      nth 0 e 2 = BitVec.ofNat 8 s.here.z ∧
      (bit (fld e 3 1) 1 = true ↔ ∃ k, k < 12 ∧ s.isSelvage k = true) ∧
      (bit (fld e 3 1) 2 = true ↔ ∃ k, k < 13 ∧ ((s.getPort k).state = .lost ∨ (s.getPort k).state = .retired)) ∧ bit (fld e 3 1) 0 = true ∧
      fld e 4 4 = min (s.sync.stitch - s.links.mapSince) (2 ^ 32 - 1) ∧
      (∀ k l n, k < 12 → l < 16 → 0 < n → s.links.mapLevels = [(l, n)] → 0 < s.lanesOf k → nth 0 e (8 + k) = BitVec.ofNat 8 (min 255
        ((((List.range 4).map fun v => Tab.get 0 (s.getPort k).count.vl (3 * v) - Tab.get 0 s.links.mapBase (8 * k + 2 * v)).sum * 255 * (30 + 14 * l)) /
          (n * 31875 * s.lanesOf k)))) ∧
      (∀ k v, k < 12 → v < 4 → s.links.mapSince < s.sync.stitch → nth 0 e (20 + 4 * k + v) = BitVec.ofNat 8
        ((Tab.get 0 (s.getPort k).count.vl (3 * v + 1) - Tab.get 0 s.links.mapBase (8 * k + 2 * v + 1)) * 255 /
          min (s.sync.stitch - s.links.mapSince) (2 ^ 32 - 1))) ∧
      (∀ k, k < 12 → nth 0 e (68 + k) = BitVec.ofNat 8 (Tab.get 0 s.links.mapPeak k * 255 / 2048)) ∧
      u.links = { s.links with port := (s.takeRx p f).links.port, mapSince := s.sync.stitch, mapBase := u.links.mapBase, mapPeak := [], mapLevels := [] } ∧
      (∀ k v j, k < 12 → v < 4 → j < 2 → Tab.get 0 u.links.mapBase (8 * k + 2 * v + j) = Tab.get 0 (s.getPort k).count.vl (3 * v + j)) ∧
      u = { s with links := u.links, free := s.free + 60 } ∧ exec (.telemetryRequest p f) s =
        .next (u.inject { dst := f.src, src := s.here, kind := 9, arg := 2 + 2 ^ 8 * telemetryId f, vl := 3, payload := e })) ∧
    (ttype f ≠ 1 → ttype f ≠ 2 → exec (.telemetryRequest p f) s = .next ((s.takeRx p f).portEv p 7 1)) ∧
    (∀ m, ttype f = 2 → s.cmap = some m → m.takes f = true →
      (m.toAsk = [] → m.entries.length + 1 ≠ boxCount m.box → ∃ t : State, exec (.telemetryReply p f) s = .next t ∧
        t.cmap = some { m with entries := m.entries ++ [(f.src, slice f.payload 0 80)] } ∧ t = { s.takeRx p f with cmap := t.cmap }) ∧
      (m.toAsk = [] → m.entries.length + 1 = boxCount m.box → exec (.telemetryReply p f) s = .next (State.finish m.ch .ok []
        { m with entries := m.entries ++ [(f.src, slice f.payload 0 80)] }.bytes { s.takeRx p f with cmap := none })) ∧
      (∀ d rest, m.toAsk = d :: rest → m.entries.length + 1 < boxCount m.box →
        m.entries.length + 1 + m.toAsk.length + 255 = ((boxCoords m.box).filter (inside s.size)).length →
        exec (.telemetryReply p f) s = .next (State.inject
          { dst := d, src := s.here, kind := 9, arg := 1 + 2 ^ 8 * m.reqId, vl := 3, payload := List.replicate 8 0 }
          { s.takeRx p f with cmap := some { m with entries := m.entries ++ [(f.src, slice f.payload 0 80)], toAsk := rest, lastSent := s.aon.ticks } }))) ∧
    (ttype f = 2 → (s.cmap = none ∨ ∃ m, s.cmap = some m ∧ m.takes f = false) → exec (.telemetryReply p f) s = .next (s.takeRx p f))) ∧
  (∀ (s : State) (p : Nat) (f : Frame), (f.kind ≠ 9 ∨ f.dst ≠ s.here ∨ ttype f = 2 → exec (.telemetryRequest p f) s = .next s) ∧
    (f.kind ≠ 9 ∨ f.dst ≠ s.here ∨ ttype f ≠ 2 → exec (.telemetryReply p f) s = .next s))

/-! ### The stitch counter and its synchronisation -/

/-- R128, R17, R198, R199, R234, R266 and R268: at a stitch boundary of a running package the settings of MEM_REGULATE that are due apply first, the counter and
its copies on the dies go up by one, every enabled regulator share gets its quarter of the rate up to its quarter of the depth, each port counts the channels held
and the places taken, carries over what a partition overran and frees the other allowances, and no frame changes. R78: a frond with a piece held counts the cycles of
the stitch. R130: an instruction that stalls on its stitch issues. R394: with a rail fault noted the package enters Safe Listen here. Outside the running package
nothing changes.
The model's own choices in it: log entries 32 and 48. -/
def Obligations.StitchBoundaryAdvances : Prop :=
  (∀ s : State, s.aon.phase ≠ .up → exec .stitchBoundary s = .next s) ∧
  (∀ (s : State) (k : Nat), s.aon.phase = .up → s.aon.listenDue = none → (∀ e ∈ s.regulate, s.sync.stitch < e.at_) → (∀ e ∈ s.frond, e.2.wait = []) →
    (∀ p, p < 64 → (s.getPart p).heldPieces = []) → k = (s.sync.stitch + 1) % 2 ^ 64 → ∃ t : State, exec .stitchBoundary s = .next t ∧
    t.sync = { s.sync with stitch := k } ∧ t.dies.die = s.dies.die.map (fun (d : Die) => { d with stitchCopy := k }) ∧
    (∀ p, t.getPart p = { s.getPart p with regHbm := (t.getPart p).regHbm, regPeat := (t.getPart p).regPeat }) ∧
    (∀ p (r r' : Regulator), r = (s.getPart p).regHbm ∧ r' = (t.getPart p).regHbm ∨ r = (s.getPart p).regPeat ∧ r' = (t.getPart p).regPeat →
      (r.on = false → r' = r) ∧ (r.on = true → r' = { r with tokens := r.tokens.map fun n => min (n + r.rate / 4) (r.depth / 4) })) ∧
    (∀ (p : Nat) (x y : Port), p < 13 → x = s.getPort p → y = t.getPort p →
      y = { x with used := y.used, count := { x.count with vl := y.count.vl } } ∧
      (∀ v, v < 4 → Tab.get 0 y.count.vl (3 * v) = Tab.get 0 x.count.vl (3 * v) ∧
        Tab.get 0 y.count.vl (3 * v + 1) = satAdd 64 (Tab.get 0 x.count.vl (3 * v + 1))
          (if Tab.get 0 x.used (65 + v) = 1 ∨ x.vlHeld v s.aon.ticks = true then 1 else 0) ∧
        Tab.get 0 y.count.vl (3 * v + 2) = satAdd 64 (Tab.get 0 x.count.vl (3 * v + 2)) (x.vlTaken v)) ∧
      (Tab.wf 0 x.used → (∀ q, q < 64 → Tab.get 0 y.used q = Tab.get 0 x.used q - s.slotsOn q p) ∧ Tab.get 0 y.used 64 = 0 ∧
        (∀ v, v < 4 → Tab.get 0 y.used (65 + v) = if x.vlHeld v s.aon.ticks then 1 else 0)) ∧
      Tab.get 0 t.links.mapPeak p = ((List.range 6).map fun c => (x.chan c).taken).foldl max (Tab.get 0 s.links.mapPeak p)) ∧
    (∀ p, 13 ≤ p → t.getPort p = s.getPort p) ∧ Tab.get 0 t.links.mapLevels s.rate.run = Tab.get 0 s.links.mapLevels s.rate.run + 1 ∧
    (∀ l, l ≠ s.rate.run → Tab.get 0 t.links.mapLevels l = Tab.get 0 s.links.mapLevels l) ∧
    t = { s with sync := t.sync, dies := { s.dies with die := t.dies.die }, part := t.part
                 links := { s.links with port := t.links.port, mapPeak := t.links.mapPeak, mapLevels := t.links.mapLevels } }) ∧
  (∀ (s : State) (e : RegSet), s.aon.phase = .up → s.aon.listenDue = none → s.regulate = [e] → e.at_ ≤ s.sync.stitch → (s.getPart e.part).life = .exists_ →
    e.tier = 1 → e.on = true → (s.getPart e.part).regHbm.on = false → (∀ x ∈ s.frond, x.2.wait = []) → ∃ t : State, exec .stitchBoundary s = .next t ∧ t.regulate = [] ∧
      (t.getPart e.part).regHbm = { on := true, rate := e.rate, depth := e.depth, tokens := List.replicate 4 (e.depth / 4) } ∧
      t.sync.stitch = (s.sync.stitch + 1) % 2 ^ 64) ∧
  (∀ (s : State) (p : Nat) (x : HeldPiece), s.aon.phase = .up → s.aon.listenDue = none → s.regulate = [] → (∀ e ∈ s.frond, e.2.wait = []) → p < 64 →
    x ∈ (s.getPart p).heldPieces → ∃ t : State, exec .stitchBoundary s = .next t ∧
      Tab.get 0 (t.getFrond x.frond).counts 12 = satAdd 64 (Tab.get 0 (s.getFrond x.frond).counts 12) 4096 ∧
      (t.getPart p).heldPieces = (s.getPart p).heldPieces) ∧
  (∀ (s : State) (p f w es : Nat) (r : FrondRec), s.aon.phase = .up → s.aon.listenDue = none → s.regulate = [] →
    (∀ q, q < 64 → (s.getPart q).heldPieces = []) → s.frond = [(f, s.getFrond f)] → (s.getFrond f).wait = [(w, some (.issue es []))] →
    s.unitRuns f (unitPinnule (wardenPinnule w)) = some (p, r) → s.sync.stitch + 1 < 2 ^ 64 → ∃ t : State, exec .stitchBoundary s = .next t ∧
      (s.sync.stitch + 1 < (s.getPart p).run.base + es → t.getFrond f = s.getFrond f) ∧
      (s.sync.stitch + 1 = (s.getPart p).run.base + es → t.getFrond f = { s.getFrond f with wait := [] } ∧
        (t.getPart p).run = { (s.getPart p).run with slip := min (s.getPart p).run.slip (2 ^ 32 - 1) }) ∧ t.sync.stitch = s.sync.stitch + 1) ∧
  (∀ s : State, s.aon.phase = .up → s.aon.listenDue ≠ none → ∃ t : State, exec .stitchBoundary s = .next t ∧ InSafeListen t ∧
    t.sync.stitch = (s.sync.stitch + 1) % 2 ^ 64)

/-- R271 to R273: at a round, once in 1,024 stitches, a package that hears no better root is its own root with depth 0, and another follows the neighbour with the
lowest root, then depth, then port; on every port that takes part a SYNC with its root, depth and counter goes out in the first slot that comes. A SYNC that
comes is taken as what the neighbour advertises, and with both times of a round known the FOLLOW goes out. R276: a COUNTER that differs is taken at the next
boundary by an idle package when it is greater; otherwise it is counted and the neighbour does not count. R274, R275, R277, R279 and R306: a FOLLOW of the parent for
a round whose two SYNCs are known gives the offset, twice its value being (arrival - departure here) against there; it is trimmed within 100 ppm, and an idle
package beyond 64 ns steps its boundary at once; the fourth round in a row with none locks the package; beyond 1/16 ns a locked one loses its lock and the
excursion is counted. Other payloads and ports change nothing.
The model's own choices in it: log entries 33, 48 and 61. -/
def Obligations.SyncRoundsAndOffsets : Prop :=
  (∀ (s : State) (ds : List (Nat × Int)), s.aon.phase ≠ .up ∨ s.sync.stitch % 1024 ≠ 0 ∨ s.links.plan = none → exec (.syncRound ds) s = .next s) ∧
  (∀ (s : State) (p k : Nat) (ds : List (Nat × Int)) (n n' : Neighbour) (root depth : Nat) (parent : Option Nat) (y : Sync) (b : List Byte),
    s.aon.phase = .up → k = s.sync.stitch → k % 1024 = 0 → s.links.plan ≠ none → s.syncPorts = [p] → n = s.neighbourAt p →
    n' = { n with missed := if n.heard then 0 else n.missed + 1, heard := n.arrK == k + 1, depK := k + 1
                  dep := match ds.find? fun d => d.1 == p with | some d => d.2 | none => 0 } →
    (n'.depth < 64 ∧ n'.missed < 2 ∧ n.differs = false ∧ n'.root < s.ownRank ∧ parent = some p ∧ root = n.root ∧ depth = n.depth + 1 ∨
      (64 ≤ n'.depth ∨ 2 ≤ n'.missed ∨ n.differs = true ∨ s.ownRank ≤ n'.root) ∧ parent = none ∧ root = s.ownRank ∧ depth = 0) →
    y = { s.sync with nb := y.nb, parent := parent, root := root, depth := depth, locked := s.sync.locked && parent == s.sync.parent
                      zeros := if parent = s.sync.parent then s.sync.zeros else 0
                      lastRound := if parent = s.sync.parent then s.sync.lastRound else none } →
    y.nb = Tab.upd {} s.sync.nb p (fun _ => n') →
    b = record 232 [⟨0, 1, 0x10⟩, ⟨1, 1, depth⟩, ⟨2, 1, b2n (!s.idle)⟩, ⟨4, 4, root⟩, ⟨8, 8, k⟩] →
    (n.arrK ≠ k + 1 → exec (.syncRound ds) s = .next (State.sendMgmt p b { s with sync := y })) ∧
    (n.arrK = k + 1 → exec (.syncRound ds) s = .next ((State.sendMgmt p b { s with sync := y }).sendMgmt p
      (record 232 [⟨0, 1, 0x11⟩, ⟨2, 1, b2n (!s.idle)⟩, ⟨8, 8, k⟩, ⟨0x10, 4, twos 4 n'.dep⟩, ⟨0x14, 4, twos 4 n'.arr⟩])))) ∧
  (∀ (s : State) (p q : Nat) (ds : List (Nat × Int)), s.aon.phase = .up → s.sync.stitch % 1024 = 0 → s.links.plan ≠ none → s.syncPorts = [p, q] →
    (∀ r, r = p ∨ r = q → (s.neighbourAt r).depth < 64 ∧ (s.neighbourAt r).heard = true ∧ (s.neighbourAt r).differs = false ∧
      (s.neighbourAt r).root < s.ownRank) → ∃ t : State, exec (.syncRound ds) s = .next t ∧ t.sync.parent =
        (if (s.neighbourAt q).root < (s.neighbourAt p).root ∨ (s.neighbourAt q).root = (s.neighbourAt p).root ∧
          (s.neighbourAt q).depth < (s.neighbourAt p).depth then some q else some p)) ∧
  (∀ (s : State) (p : Nat) (b : List Byte) (x : Port), x = s.getPort p →
    (x.state = .up → x.retrain = none → x.mgmt = [] → x.replay.length < 1024 → ∃ fl : Flit, flFtype fl = 2 ∧ flSeq fl = x.txSeq % 4096 ∧
      flAck fl = (x.rxSeq + 4095) % 4096 ∧ fl.payload = slice b 0 232 ∧ flCrcOk fl = true ∧
      (s.sendMgmt p b).out = s.out ++ [.flits p [⟨x.txIndex % max (s.lanesOf p) 1, fl, flitParity fl⟩]] ∧
      (s.sendMgmt p b).getPort p = { x with
        used := ((s.sendMgmt p b).getPort p).used, txSeq := (x.txSeq + 1) % 4096, nak := false, symbols := x.symbols.drop 1
        replay := x.replay ++ [fl], tries := x.tries ++ [0], txIndex := x.txIndex + 1 } ∧
      Tab.get 0 ((s.sendMgmt p b).getPort p).used 64 = Tab.get 0 x.used 64 + 1 ∧ (∀ q, q ≠ p → (s.sendMgmt p b).getPort q = s.getPort q) ∧
      s.sendMgmt p b = { s with links := { s.links with port := (s.sendMgmt p b).links.port }, out := (s.sendMgmt p b).out }) ∧
    (x.state = .up → x.retrain ≠ none ∨ x.mgmt ≠ [] ∨ 1024 ≤ x.replay.length →
      s.sendMgmt p b = s.updPort p fun x => { x with mgmt := x.mgmt ++ [b] }) ∧
    (x.state ≠ .up → s.sendMgmt p b = s)) ∧
  (∀ (s : State) (p : Nat) (b : List Byte) (arrival : Int), p ∉ s.syncPorts ∨ fld b 0 1 ≠ 0x10 → exec (.syncReceive p b arrival) s = .next s) ∧
  (∀ (s : State) (p k : Nat) (b : List Byte) (arrival : Int) (n n' : Neighbour), p ∈ s.syncPorts → fld b 0 1 = 0x10 → k = fld b 8 8 →
    n = s.neighbourAt p → n' = { n with root := fld b 4 4, depth := fld b 1 1, counter := k, active := bit (fld b 2 1) 0, heard := true, missed := 0
                                        arr := arrival, arrK := k + 1, differs := false } →
    (k ≤ s.sync.stitch + 1 → s.sync.stitch ≤ k + 1 → ∃ t : State, exec (.syncReceive p b arrival) s = .next t ∧ t.neighbourAt p = n' ∧
      (∀ q, q ≠ p → t.neighbourAt q = s.neighbourAt q) ∧
      t.sync = { s.sync with nb := t.sync.nb, parent := t.sync.parent, root := t.sync.root, depth := t.sync.depth, locked := t.sync.locked
                             zeros := t.sync.zeros, lastRound := t.sync.lastRound } ∧
      (s.syncPorts = [p] → n'.depth < 64 → n'.root < s.ownRank → t.sync.parent = some p ∧ t.sync.root = n'.root ∧ t.sync.depth = n'.depth + 1) ∧
      (s.syncPorts = [p] → 64 ≤ n'.depth ∨ s.ownRank ≤ n'.root → t.sync.parent = none ∧ t.sync.root = s.ownRank ∧ t.sync.depth = 0) ∧
      (t.sync.parent = s.sync.parent → t.sync.locked = s.sync.locked ∧ t.sync.zeros = s.sync.zeros ∧ t.sync.lastRound = s.sync.lastRound) ∧
      (t.sync.parent ≠ s.sync.parent → t.sync.locked = false ∧ t.sync.zeros = 0 ∧ t.sync.lastRound = none) ∧
      (n.depK ≠ k + 1 → t = { s with sync := t.sync }) ∧
      (n.depK = k + 1 → t = State.sendMgmt p (record 232 [⟨0, 1, 0x11⟩, ⟨2, 1, b2n (!s.idle)⟩, ⟨8, 8, k⟩, ⟨0x10, 4, twos 4 n.dep⟩,
        ⟨0x14, 4, twos 4 arrival⟩]) { s with sync := t.sync })) ∧
    (s.sync.stitch + 1 < k → (∀ q, q < 64 → (s.getPart q).live = false) → ∃ t : State, exec (.syncReceive p b arrival) s = .next t ∧
      t.sync.raiseTo = some (max k ((s.sync.raiseTo.map (·.1)).getD 0), s.sync.stitch) ∧ t.neighbourAt p = n' ∧
      (∀ q, q ≠ p → t.neighbourAt q = s.neighbourAt q) ∧ t.sync.mismatch = s.sync.mismatch ∧ t.sync.stitch = s.sync.stitch ∧
      t = { s with sync := t.sync, links := { s.links with port := t.links.port }, out := t.out }) ∧
    (k + 1 < s.sync.stitch ∨ s.sync.stitch + 1 < k ∧ (∃ q, q < 64 ∧ (s.getPart q).live = true) → ∃ t : State,
      exec (.syncReceive p b arrival) s = .next t ∧ Tab.get 0 t.sync.mismatch p = satAdd 64 (Tab.get 0 s.sync.mismatch p) 1 ∧
      (∀ q, q ≠ p → Tab.get 0 t.sync.mismatch q = Tab.get 0 s.sync.mismatch q) ∧ t.neighbourAt p = { n' with differs := true } ∧
      (∀ q, q ≠ p → t.neighbourAt q = s.neighbourAt q) ∧ t.sync.parent ≠ some p ∧ t.sync.raiseTo = s.sync.raiseTo ∧ t.sync.stitch = s.sync.stitch ∧
      t = { s with sync := t.sync, links := { s.links with port := t.links.port }, out := t.out })) ∧
  (∀ (s : State) (p k : Nat) (b : List Byte) (n : Neighbour), n = s.neighbourAt p → k = fld b 8 8 →
    (fld b 0 1 ≠ 0x11 ∨ p ∉ s.syncPorts ∨ s.sync.parent ≠ some p ∨ s.sync.lastRound = some k ∨ n.depK ≠ k + 1 ∨ n.arrK ≠ k + 1 ∨ n.differs = true →
      exec (.followReceive p b) s = .next s) ∧
    (∀ (t2 : Int) (uses step : Bool) (zeros : Nat) (lim : Int) (y : Sync), fld b 0 1 = 0x11 → p ∈ s.syncPorts → s.sync.parent = some p →
      s.sync.lastRound ≠ some k → n.depK = k + 1 → n.arrK = k + 1 → n.differs = false →
      t2 = (signed 4 (fld b 0x14 4) - n.dep) - (n.arr - signed 4 (fld b 0x10 4)) →
      (uses = true ↔ ∀ c, s.rate.lastStep = some c → c + 16 < k) →
      (step = true ↔ uses = true ∧ (∀ q, q < 64 → (s.getPart q).live = false) ∧ 4096 < t2.natAbs) →
      zeros = (if t2 ≠ 0 then 0 else if s.sync.lastRound.map (· + 1024) = some k then min 4 (s.sync.zeros + 1) else 1) →
      lim = ((402653184 / (100 * (30 + 14 * s.rate.run)) : Nat) : Int) →
      y = { s.sync with
        lastRound := some k, rounds := satAdd 64 s.sync.rounds 1, theta2 := t2, moved2 := if step then s.sync.moved2 - t2 else s.sync.moved2
        trim2 := if uses then (if step then 0 else max (-lim) (min lim t2)) else s.sync.trim2, zeros := zeros
        locked := s.sync.locked || zeros == 4
        maxTheta2 := if s.sync.locked = false ∧ zeros = 4 then 0 else max s.sync.maxTheta2 t2.natAbs } →
      (s.sync.locked = false ∨ t2.natAbs ≤ 4 → exec (.followReceive p b) s = .next { s with sync := y }) ∧
      (s.sync.locked = true → 4 < t2.natAbs → ∃ t : State, exec (.followReceive p b) s = .next t ∧
        t.sync = { y with excursions := satAdd 64 s.sync.excursions 1, locked := false, zeros := 0 } ∧ (s.irq.status.length = 11 → t.caused .linkSync) ∧
        (Tab.get {} s.faults.unit (unitKey 13 0) = {} → 1 < (s.policy 13).2 → (Tab.get {} t.faults.unit (unitKey 13 0)).count = 1 ∧
          ∃ e, t.newest = some e ∧ e.kind = 1 ∧ e.cls = 13 ∧ e.unitKind = 0) ∧
        t = { s with sync := t.sync, faults := t.faults, irq := t.irq, pcie := t.pcie, out := t.out }))) ∧
  (∀ (s : State),
    (∀ v k, s.sync.raiseTo = some (v, k) → k < s.sync.stitch → s.sync.stitch < v → (∀ p, p < 64 → (s.getPart p).live = false) →
      exec .counterRaise s = .next { s with
        sync := { s.sync with raiseTo := none, stitch := v, raises := satAdd 64 s.sync.raises 1 }
        dies := { s.dies with die := s.dies.die.map fun (d : Die) => { d with stitchCopy := v } } }) ∧
    (∀ v k, s.sync.raiseTo = some (v, k) → k < s.sync.stitch → v ≤ s.sync.stitch ∨ (∃ p, p < 64 ∧ (s.getPart p).live = true) →
      exec .counterRaise s = .next { s with sync := { s.sync with raiseTo := none } }) ∧
    (s.sync.raiseTo = none ∨ (∃ v k, s.sync.raiseTo = some (v, k) ∧ s.sync.stitch ≤ k) → exec .counterRaise s = .next s))

/-! ### Fronds -/

/-- R45, R52, R53, R54, R55, R57, R58, R59, R65, R77, R78: an ALOAD of the warden that drives the array, with a combination and pages that are right, starts
when no load is in progress, and loads the shadow bank while the active one stays: each valid place takes its word or its element of the tile, E2M1
expanded to equal E4M3 elements, and each other place zero. With the rows still in use it stalls, which is counted, and it resumes when they have left; behind a
stalled ALOAD the warden stalls. SWAP changes the active bank once its conditions hold, and until then the warden stalls, which is counted. Any other
warden's, and a bad ALOAD, is a frond fault.
The model's own choices in it: log entries 14, 57 and 80. -/
def Obligations.ArrayLoadsAndSwaps : Prop :=
  (∀ c, c < 16 → truncWord (elemValue 4 (expandE2m1 c)) = truncWord (elemValue 8 c)) ∧
  (∀ (s : State) (f w cycle p c : Nat) (r : FrondRec) (x : Arr), x = (s.getFrond f).arr →
    (∀ a : AloadArgs,
      (s.driven f unitArray w = none → exec (.aload f w cycle a) s = .next s) ∧
      (s.driven f unitArray w = some (p, r, false) → exec (.aload f w cycle a) s = .next (s.wardenFault f w)) ∧
      (s.driven f unitArray w = some (p, r, true) → aloadOk a = false ∨ aloadPages r a = false →
        exec (.aload f w cycle a) s = .next (s.unitFault f unitArray w)) ∧
      (s.driven f unitArray w = some (p, r, true) → aloadOk a = true → aloadPages r a = true →
        (x.stalled ≠ none → exec (.aload f w cycle a) s = .next (s.setWait f w (some (.load (max cycle x.stallTo) a)))) ∧
        (x.stalled = none → c = max (max cycle x.stallTo) x.loadEnd →
          (c < nth 0 x.bankFree x.shadow → ∃ t : State, exec (.aload f w cycle a) s = .next t ∧
            t.getFrond f = { s.getFrond f with
              arr := { x with stalled := some a, stallTo := max x.stallTo c }, counts := Tab.upd 0 (s.getFrond f).counts 3 (satAdd 64 · 1) } ∧
            OtherFronds s t f ∧ t = { s with frond := t.frond }) ∧
          (nth 0 x.bankFree x.shadow ≤ c → ∃ t : State, exec (.aload f w cycle a) s = .next t ∧ BankLoaded s t f c a ∧
            t.getFrond f = { s.getFrond f with
              arr := { x with
                weight := (t.getFrond f).arr.weight, scale := (t.getFrond f).arr.scale
                fmt := x.fmt.set x.shadow (if a.wfmt = 8 then 4 else a.wfmt), stallTo := max x.stallTo c
                loadEnd := max (c + 127 * rowCycles a.wfmt) (nth 0 x.bankDrain x.shadow) + rowCycles a.wfmt }
              counts := Tab.upd 0 (s.getFrond f).counts 3 (satAdd 64 · (x.rowStalls c a.wfmt)) } ∧
            (nth 0 x.bankDrain x.shadow ≤ c → x.rowStalls c a.wfmt = 0) ∧ OtherFronds s t f ∧ t = { s with frond := t.frond })))) ∧
    (x.stalled = none ∨ s.unitRuns f unitArray = none ∨ cycle < nth 0 x.bankFree x.shadow → exec (.aloadRowResume f cycle) s = .next s) ∧
    (∀ (a : AloadArgs) (e : Nat), x.stalled = some a → s.unitRuns f unitArray = some (p, r) → nth 0 x.bankFree x.shadow ≤ cycle →
      e = max (cycle + 127 * rowCycles a.wfmt) (nth 0 x.bankDrain x.shadow) + rowCycles a.wfmt →
      (s.waitOf f (r.warden unitArray) = none → ∃ t : State, exec (.aloadRowResume f cycle) s = .next t ∧ BankLoaded s t f cycle a ∧
        t.getFrond f = { s.getFrond f with
          arr := { x with
            weight := (t.getFrond f).arr.weight, scale := (t.getFrond f).arr.scale, fmt := x.fmt.set x.shadow (if a.wfmt = 8 then 4 else a.wfmt)
            stalled := none, stallTo := max x.stallTo cycle, loadEnd := e }
          counts := Tab.upd 0 (s.getFrond f).counts 3 (satAdd 64 · (x.rowStalls cycle a.wfmt)) } ∧
        OtherFronds s t f ∧ VoteNoted s t p ∧ t = { s with frond := t.frond, part := t.part }) ∧
      (∀ k, s.waitOf f (r.warden unitArray) = some (.swap k) → x.queue = [] → ∃ t : State, exec (.aloadRowResume f cycle) s = .next t ∧
        BankLoaded s t f cycle a ∧ (t.getFrond f).arr.bank = !x.bank ∧ (t.getFrond f).arr.stalled = none ∧ (t.getFrond f).arr.loadEnd = e ∧
        e ≤ (t.getFrond f).arr.stallTo ∧ t.waitOf f (r.warden unitArray) = none ∧ OtherFronds s t f ∧ VoteNoted s t p ∧
        t = { s with frond := t.frond, part := t.part }) ∧
      (∀ (k : Nat) (b : AloadArgs), s.waitOf f (r.warden unitArray) = some (.load k b) →
        c = max (max (max k cycle) (max x.stallTo cycle)) e → ∃ t : State, exec (.aloadRowResume f cycle) s = .next t ∧
        (t.getFrond f).arr.stalled = none ∧
        (t.getFrond f).arr.loadEnd = max (c + 127 * rowCycles b.wfmt) (nth 0 x.bankDrain x.shadow) + rowCycles b.wfmt ∧
        (t.getFrond f).arr.bank = x.bank ∧ t.waitOf f (r.warden unitArray) = none ∧ OtherFronds s t f ∧ VoteNoted s t p ∧
        t = { s with frond := t.frond, part := t.part })) ∧
    (s.driven f unitArray w = none → exec (.swap f w cycle) s = .next s) ∧
    (s.driven f unitArray w = some (p, r, false) → exec (.swap f w cycle) s = .next (s.wardenFault f w)) ∧
    (s.driven f unitArray w = some (p, r, true) → c = max cycle x.stallTo →
      (x.queue = [] → x.stalled = none → ∃ t : State, exec (.swap f w cycle) s = .next t ∧
        t.getFrond f = { s.getFrond f with
          arr := { x with bank := !x.bank, stallTo := max x.stallTo (max c (max x.lastEnter x.loadEnd)) }
          counts := if max x.lastEnter x.loadEnd ≤ c then (s.getFrond f).counts else Tab.upd 0 (s.getFrond f).counts 2 (satAdd 64 · 1) } ∧
        OtherFronds s t f ∧ t = { s with frond := t.frond }) ∧
      (x.queue ≠ [] ∨ x.stalled ≠ none → ∃ t : State, exec (.swap f w cycle) s = .next t ∧
        t.getFrond f = { s.getFrond f with
          counts := Tab.upd 0 (s.getFrond f).counts 2 (satAdd 64 · 1), wait := Tab.set none (s.getFrond f).wait w (some (.swap c)) } ∧
        OtherFronds s t f ∧ t = { s with frond := t.frond })))

/-- R47, R48, R49, R50, R51, R52, R54, R55, R65, R77, R78: an ASTREAM of the warden that drives the array enters where row 0 is free and no pass is queued, and
its token is raised; behind a pass that still enters it waits in the queue. The oldest queued pass enters when that one's last row has entered, and then a
SWAP or an ALOAD that the array's warden stalls on goes on. What a result row replaced is what the array reads there until row time m + 131. Any other
warden's, and a bad ASTREAM, is a frond fault.
The model's own choices in it: log entries 14, 57 and 80. -/
def Obligations.ArrayPassesEnter : Prop :=
  (∀ (s : State) (f k cycle addr : Nat) (old : List Byte), (s.getFrond f).arr.inflight = [(k, addr, old)] →
    (cycle < k → (s.seenAt f cycle).fsRead f addr old.length = old) ∧ (k ≤ cycle → s.seenAt f cycle = s)) ∧
  (∀ (s : State) (f w cycle p c rc : Nat) (r : FrondRec) (a : AstreamArgs) (x : Arr), x = (s.getFrond f).arr →
    rc = (if nth 0 x.fmt x.active = 0 then 4 else 1) →
    (s.driven f unitArray w = none → exec (.astream f w cycle a) s = .next s) ∧
    (s.driven f unitArray w = some (p, r, false) → exec (.astream f w cycle a) s = .next (s.wardenFault f w)) ∧
    (s.driven f unitArray w = some (p, r, true) → astreamOk a (nth 0 x.fmt x.active) = false ∨ astreamPages r a = false →
      exec (.astream f w cycle a) s = .next (s.unitFault f unitArray w)) ∧
    (s.driven f unitArray w = some (p, r, true) → astreamOk a (nth 0 x.fmt x.active) = true → astreamPages r a = true → c = max cycle x.stallTo →
      (c < x.lastEnter ∨ x.queue ≠ [] → ∃ t : State, exec (.astream f w cycle a) s = .next t ∧
        t.getFrond f = { s.getFrond f with arr := { x with queue := x.queue ++ [{ args := a, warden := w, fused := none, cycle := c }] } } ∧
        OtherFronds s t f ∧ t = { s with frond := t.frond }) ∧
      (x.lastEnter ≤ c → x.queue = [] → ∃ t : State, exec (.astream f w cycle a) s = .next t ∧ PassEntered s t f c rc a ∧
        (∀ k, k ≠ 0 → Tab.get 0 (t.getFrond f).counts k = Tab.get 0 (s.getFrond f).counts k) ∧ TokenRaised s t f a.token ∧
        t.getFrond f = { s.getFrond f with
          arr := { x with
            lastEnter := (t.getFrond f).arr.lastEnter, bankFree := (t.getFrond f).arr.bankFree, bankDrain := (t.getFrond f).arr.bankDrain
            inflight := (t.getFrond f).arr.inflight }
          counts := (t.getFrond f).counts, token := (t.getFrond f).token, wait := (t.getFrond f).wait } ∧
        OtherFronds s t f ∧ t = { s with frond := t.frond, store := t.store, part := t.part })) ∧
    (x.queue = [] ∨ s.unitRuns f unitArray = none ∨ cycle < x.lastEnter → exec (.astreamEnter f cycle) s = .next s) ∧
    (∀ (y : Pass) (rest : List Pass), s.unitRuns f unitArray = some (p, r) → x.queue = y :: rest → y.fused = none → x.lastEnter ≤ cycle →
      ∃ t : State, exec (.astreamEnter f cycle) s = .next t ∧ PassEntered s t f cycle rc y.args ∧ (t.getFrond f).arr.queue = rest ∧
        Tab.get 0 (t.getFrond f).counts 1 = satAdd 64 (Tab.get 0 (s.getFrond f).counts 1) (cycle - max x.lastEnter y.cycle) ∧
        (∀ k, y.args.token = some k → Tab.get 0 (t.getFrond f).token k = (Tab.get 0 (s.getFrond f).token k + 1) % 2 ^ 32) ∧
        (∀ k, y.args.token ≠ some k → Tab.get 0 (t.getFrond f).token k = Tab.get 0 (s.getFrond f).token k) ∧
        (s.waitOf f (r.warden unitArray) = none → (t.getFrond f).arr = { x with
          queue := rest, lastEnter := (t.getFrond f).arr.lastEnter, bankFree := (t.getFrond f).arr.bankFree
          bankDrain := (t.getFrond f).arr.bankDrain, inflight := (t.getFrond f).arr.inflight }) ∧
        (∀ k, s.waitOf f (r.warden unitArray) = some (.swap k) → rest = [] → x.stalled = none →
          (t.getFrond f).arr.bank = !x.bank ∧ t.waitOf f (r.warden unitArray) = none ∧ cycle + y.args.m * rc ≤ (t.getFrond f).arr.stallTo) ∧
        (∀ k, s.waitOf f (r.warden unitArray) = some (.swap k) → rest ≠ [] ∨ x.stalled ≠ none →
          (t.getFrond f).arr.bank = x.bank ∧ t.waitOf f (r.warden unitArray) = some (.swap k)) ∧
        t.getFrond f = { s.getFrond f with
          arr := (t.getFrond f).arr, counts := (t.getFrond f).counts, token := (t.getFrond f).token, wait := (t.getFrond f).wait } ∧
        (y.args.token = none ∨ (s.getFrond f).wait = [] → VoteNoted s t p) ∧ (∀ q, q ≠ p → t.getPart q = s.getPart q) ∧
        OtherFronds s t f ∧ t = { s with frond := t.frond, store := t.store, part := t.part }))

/-- R43, R60, R61, R62, R63, R65, R77, R84, R96, R174: a vector operation of the warden that drives the unit writes its register lane by lane and no other one,
and raises its token; a load takes 256 words of the store and a store writes them; a ranking orders by totalOrder, equal elements by index; a reduction
takes eight steps: in step j lane i combines with lane i + 256/2^j for i below 256/2^j, and the result replaces lane i; a conversion writes its bytes
or its blocks and is counted. Any other warden's, an operation that the unit does not have and an access outside the pages are frond faults.
The model's own choices in it: log entries 34, 35, 57 and 80. -/
def Obligations.VectorUnitOperates : Prop :=
  ∀ (s : State) (f w p : Nat) (r : FrondRec) (x : Frond) (rne : Bool), x = s.getFrond f → rne = s.f19Rne p →
    (s.driven f unitVector w = none → ∀ (o : VecOp) (tok : Option Nat) (b : FpBin) (f19 : Bool) (cvt : Byte) (d src dst block : Nat),
      exec (.vectorOperation f w o tok) s = .next s ∧ exec (.vectorReduction f w b f19 d) s = .next s ∧
      exec (.vectorConversion f w cvt src dst block) s = .next s) ∧
    (s.driven f unitVector w = some (p, r, false) → ∀ (o : VecOp) (tok : Option Nat) (b : FpBin) (f19 : Bool) (cvt : Byte) (d src dst block : Nat),
      exec (.vectorOperation f w o tok) s = .next (s.wardenFault f w) ∧ exec (.vectorReduction f w b f19 d) s = .next (s.wardenFault f w) ∧
      exec (.vectorConversion f w cvt src dst block) s = .next (s.wardenFault f w)) ∧
    (s.driven f unitVector w = some (p, r, true) →
      (∀ (o : VecOp) (tok : Option Nat) (d : Nat), d < 16 →
        (∀ v : Nat → Word,
          ((∃ b f19 i j, o = .bin b f19 d i j ∧ b ≠ .div ∧ ∀ k, v k = fpBin b f19 rne (x.vget i k) (x.vget j k)) ∨
           (∃ f19 i j l, o = .fma f19 d i j l ∧ ∀ k, v k = fpFma f19 rne (x.vget i k) (x.vget j k) (x.vget l k)) ∨
           (∃ c fa fb i j, o = .cmp c fa fb d i j ∧ ∀ k, v k = Config.cmpWord (fpCompare c (operand fa (x.vget i k)) (operand fb (x.vget j k)))) ∨
           (∃ fmt i, o = .widen fmt d i ∧ (fmt = 0 ∨ fmt = 2 ∨ fmt = 3) ∧ ∀ k, v k = widenWord fmt (x.vget i k))) →
          ∃ u t : State, exec (.vectorOperation f w o tok) s = .next t ∧ LanesWritten s u f d 256 v ∧
            u.getFrond f = { x with vreg := (u.getFrond f).vreg } ∧ OtherFronds s u f ∧ u = { s with frond := u.frond } ∧ RaisedAfter u t f tok) ∧
        (∀ (k : Rank) (f19 : Bool) (a : Nat) (ws : List Word), o = .rank k f19 d a → ws = (x.vlanes a).map (operand f19) →
          ∃ (u t : State) (n : Nat), exec (.vectorOperation f w o tok) s = .next t ∧ LanesWritten s u f d n (fun i => (u.getFrond f).vget d i) ∧
            (k = .argmax → n = 1 ∧ ∃ i, i < 256 ∧ (u.getFrond f).vget d 0 = BitVec.ofNat 32 i ∧
              ∀ j, j < 256 → orderKey (nth 0 ws j) ≤ orderKey (nth 0 ws i) ∧ (j < i → orderKey (nth 0 ws j) < orderKey (nth 0 ws i))) ∧
            (k = .argmin → n = 1 ∧ ∃ i, i < 256 ∧ (u.getFrond f).vget d 0 = BitVec.ofNat 32 i ∧
              ∀ j, j < 256 → orderKey (nth 0 ws i) ≤ orderKey (nth 0 ws j) ∧ (j < i → orderKey (nth 0 ws i) < orderKey (nth 0 ws j))) ∧
            (k = .sort → n = 256 ∧ Ascending ((u.getFrond f).vlanes d) ∧ ((u.getFrond f).vlanes d).Perm ws) ∧
            (∀ m, k = .topk m → n = min m 256 ∧ ∃ rest : List Word, Ascending (((u.getFrond f).vlanes d).take n).reverse ∧
              ((((u.getFrond f).vlanes d).take n) ++ rest).Perm ws ∧
              ∀ y ∈ ((u.getFrond f).vlanes d).take n, ∀ z ∈ rest, orderKey z ≤ orderKey y) ∧
            u.getFrond f = { x with vreg := (u.getFrond f).vreg } ∧ OtherFronds s u f ∧ u = { s with frond := u.frond } ∧ RaisedAfter u t f tok) ∧
        (∀ a, o = .load d a → r.pageOk a 1024 = true → ∃ u t : State, exec (.vectorOperation f w o tok) s = .next t ∧
          LanesWritten s u f d 256 (fun i => s.fsWord f (a + 4 * i)) ∧
          u.getFrond f = { x with vreg := (u.getFrond f).vreg, counts := Tab.upd 0 x.counts 6 (satAdd 64 · (Config.conflictCycles s.free)) } ∧
          OtherFronds s u f ∧ u = { s with frond := u.frond, free := s.free + 1 } ∧ RaisedAfter u t f tok) ∧
        (∀ a, o = .store d a → r.pageOk a 1024 = true → ∃ u t : State, exec (.vectorOperation f w o tok) s = .next t ∧
          (∀ i, i < 256 → u.fsWord f (a + 4 * i) = x.vget d i) ∧
          (∀ k, k < storeKey f a ∨ storeKey f a + 1024 ≤ k → u.store.read k = s.store.read k) ∧
          u.getFrond f = { x with counts := Tab.upd 0 x.counts 6 (satAdd 64 · (Config.conflictCycles s.free)) } ∧
          OtherFronds s u f ∧ u = { s with store := u.store, frond := u.frond, free := s.free + 1 } ∧ RaisedAfter u t f tok) ∧
        (∀ fmt f19 addr block n, o = .widenMx fmt f19 d addr block → isMx fmt = true → groupPages r fmt addr (8 * (block % 8)) = true →
          n = ((List.range 8).filter fun j => (s.widenAt f fmt f19 addr (8 * (block % 8) + j)).2).length →
          ∃ u t : State, exec (.vectorOperation f w o tok) s = .next t ∧
          LanesWritten s u f d 256 (fun i => nth 0 (s.widenAt f fmt f19 addr (8 * (block % 8) + i / 32)).1 (i % 32)) ∧
          u.getFrond f = { x with vreg := (u.getFrond f).vreg, counts := Tab.upd 0 x.counts 6 (satAdd 64 · (Config.conflictCycles s.free)) } ∧
          OtherFronds s u f ∧
          (n = 0 → u = { s with frond := u.frond, free := s.free + 1 }) ∧
          (n ≠ 0 → (s.irq.status.length = 11 → u.caused .scaleRange) ∧ (∀ q, q ≠ p → u.getPart q = s.getPart q) ∧
            u.getPart p = { s.getPart p with
              arith := { (s.getPart p).arith with scaleRange := satAdd 64 (s.getPart p).arith.scaleRange n }
              arithNow := { (s.getPart p).arithNow with scaleRange := satAdd 64 (s.getPart p).arithNow.scaleRange n } } ∧
            u = { s with frond := u.frond, part := u.part, irq := u.irq, pcie := u.pcie, out := u.out, free := s.free + 1 }) ∧
          RaisedAfter u t f tok)) ∧
      (∀ (o : VecOp) (tok : Option Nat),
        ((∃ f19 d i j, o = .bin .div f19 d i j) ∨ (∃ fmt d i, o = .widen fmt d i ∧ fmt ≠ 0 ∧ fmt ≠ 2 ∧ fmt ≠ 3) ∨
         (∃ d a, (o = .load d a ∨ o = .store d a) ∧ r.pageOk a 1024 = false) ∨
         (∃ fmt f19 d addr block, o = .widenMx fmt f19 d addr block ∧ (isMx fmt = false ∨ groupPages r fmt addr (8 * (block % 8)) = false))) →
        exec (.vectorOperation f w o tok) s = .next (s.unitFault f unitVector w)) ∧
      (∀ (o : FpBin) (f19 : Bool) (d : Nat), d < 16 →
        (o = .div → exec (.vectorReduction f w o f19 d) s = .next (s.unitFault f unitVector w)) ∧
        (o ≠ .div → ∃ t : State, exec (.vectorReduction f w o f19 d) s = .next t ∧
          (∃ lane : Nat → Nat → BitVec 32, (∀ i, i < 256 → lane 0 i = x.vget d i) ∧
            (∀ j i, 1 ≤ j → j ≤ 8 → i < 256 → lane j i =
              if i < 256 / 2 ^ j then fpBin o f19 rne (lane (j - 1) i) (lane (j - 1) (i + 256 / 2 ^ j)) else lane (j - 1) i) ∧
            LanesWritten s t f d 256 (lane 8)) ∧
          t.getFrond f = { x with vreg := (t.getFrond f).vreg } ∧ OtherFronds s t f ∧ t = { s with frond := t.frond })) ∧
      (∀ (cvt : Byte) (src dst block n : Nat), n = (if cvtDst cvt = 0 then 4 else 2) →
        (cvtOk cvt = false ∨ convPages r cvt dst block = false → exec (.vectorConversion f w cvt src dst block) s = .next (s.unitFault f unitVector w)) ∧
        (cvtOk cvt = true → convPages r cvt dst block = true → isMx (cvtDst cvt) = false →
          ∃ t : State, exec (.vectorConversion f w cvt src dst block) s = .next t ∧
            (∀ i, i < 256 → leNat (t.fsRead f (dst + n * i) n) = (narrowIeee (cvtDst cvt) rne (x.vget src i)).code % 2 ^ (8 * n)) ∧
            (∀ k, k < storeKey f dst ∨ storeKey f dst + 256 * n ≤ k → t.store.read k = s.store.read k) ∧
            Converted s t p cvt 256 ((x.vlanes src).filter fun v => (narrowIeee (cvtDst cvt) rne v).ovf).length
              ((x.vlanes src).filter fun v => (narrowIeee (cvtDst cvt) rne v).unf).length ∧
            t.getFrond f = { x with counts := Tab.upd 0 x.counts 6 (satAdd 64 · (Config.conflictCycles s.free)) } ∧ OtherFronds s t f ∧
            t = { s with store := t.store, frond := t.frond, part := t.part, free := s.free + 1 }) ∧
        (cvtOk cvt = true → convPages r cvt dst block = true → isMx (cvtDst cvt) = true →
          ∃ t : State, exec (.vectorConversion f w cvt src dst block) s = .next t ∧
            BlocksNarrowed s t f p cvt dst (8 * (block % 8)) 8 (x.vlanes src) ∧
            t.getFrond f = { x with counts := Tab.upd 0 x.counts 6 (satAdd 64 · (Config.conflictCycles s.free)) } ∧ OtherFronds s t f ∧
            t = { s with store := t.store, frond := t.frond, part := t.part, free := s.free + 1 })))

/-- R43, R66, R67, R77, R80, R84, R131, R149, R157, R174, R177, R182: a pinnule instruction writes the one register or memory word that it names, an access to the frond
store losing the cycles of its conflicts; the START of a slot sets the slot that the gang runs; a conversion writes its code or its block and is counted; FINCHK
of a value that is not finite clears the step finite flag and is counted; BOB puts the four words of the generator into a quad register, 4 cycles after
the one before; RAISE adds one to its token. An undefined instruction, an access outside the store or the pages, a unit or a slot that is
not the pinnule's, and a token beyond 4,095 are frond faults.
The model's own choices in it: log entries 35, 55 and 57. -/
def Obligations.PinnulesExecute : Prop :=
  ∀ (s : State) (f n p : Nat) (r : FrondRec) (x : Frond) (rne : Bool), x = s.getFrond f → rne = s.f19Rne p →
    (∀ slot off, s.pinRuns f n slot = none → ∀ (o : PinOp) (cvt : Byte) (src dst block : Nat),
      exec (.pinnuleInstruction f n slot off o) s = .next s ∧ exec (.pinnuleConversion f n slot off cvt src ⟨dst, block⟩) s = .next s) ∧
    (∀ slot off, s.pinRuns f n slot = some (p, r) →
      (∀ (o : PinOp) (d : Nat) (v : Word), d < 32 →
        ((∃ code a b, o = .int code d a b ∧ v = Config.intResult code (x.iget n a) (x.iget n b)) ∨
         (∃ c fa fb a b, o = .fpCmp c fa fb d a b ∧ v = Config.cmpWord (fpCompare c (operand fa (x.fget n a)) (operand fb (x.fget n b)))) ∨
         (∃ a, o = .moveFpInt d a ∧ v = x.fget n a) ∨
         (∃ q k, o = .dropMask d q k ∧ ∀ i, v.getLsbD i = (decide (i < 4) && decide ((x.qget n q i).toNat < k))) ∨
         (∃ a, o = .loadLocal d a ∧ a + 4 ≤ 2048 ∧ v = BitVec.ofNat 32 (leNat (s.localStore.readN (localKey f n a) 4)))) →
        ∃ t : State, exec (.pinnuleInstruction f n slot off o) s = .next t ∧ IntWritten s t f n off d v ∧ (t.getFrond f).counts = x.counts ∧
          t.free = s.free) ∧
      (∀ (o : PinOp) (d : Nat) (v : Word), d < 32 →
        ((∃ b f19 i j, o = .fpBin b f19 d i j ∧ v = fpBin b f19 rne (x.fget n i) (x.fget n j)) ∨
         (∃ f19 a b c, o = .fpFma f19 d a b c ∧ v = fpFma f19 rne (x.fget n a) (x.fget n b) (x.fget n c)) ∨
         (∃ f19 a, o = .fpSqrt f19 d a ∧ v = fpWrite f19 rne (fpRead f19 (x.fget n a)).sqrt) ∨
         (∃ fmt a, o = .fpWiden fmt d a ∧ (fmt = 0 ∨ fmt = 2 ∨ fmt = 3) ∧ v = widenWord fmt (x.fget n a)) ∨
         (∃ a b, o = .fp16Add d a b ∧ v = BitVec.ofNat 32 (fp16Add ((x.fget n a).toNat % 2 ^ 16) ((x.fget n b).toNat % 2 ^ 16))) ∨
         (∃ a, o = .moveIntFp d a ∧ v = x.iget n a) ∨
         (∃ a, o = .intFp true d a ∧ v = fpOfInt (x.iget n a).toInt) ∨ (∃ a, o = .intFp false d a ∧ v = fpOfInt (x.iget n a).toNat)) →
        ∃ t : State, exec (.pinnuleInstruction f n slot off o) s = .next t ∧ FpWritten s t f n off d v ∧ t.part = s.part) ∧
      (∀ (o : PinOp) (d : Nat) (v : Nat → Word), d < 8 →
        ((∃ a b c, o = .quadFma d a b c ∧ ∀ i, v i = fpFma true rne (x.qget n a i) (x.qget n b i) (x.qget n c i)) ∨
         (∃ b i j, o = .quadBin b d i j ∧ b ≠ .div ∧ ∀ k, v k = fpBin b true rne (x.qget n i k) (x.qget n j k))) →
        ∃ t : State, exec (.pinnuleInstruction f n slot off o) s = .next t ∧ QuadWritten s t f n off d v) ∧
      (∀ d a, d < 32 →
        (a + 4 ≤ 2048 → ∃ t : State, exec (.pinnuleInstruction f n slot off (.storeLocal d a)) s = .next t ∧
          leNat (t.localStore.readN (localKey f n a) 4) = (x.iget n d).toNat ∧
          (∀ k, k < localKey f n a ∨ localKey f n a + 4 ≤ k → t.localStore.read k = s.localStore.read k) ∧
          t.getFrond f = { x with pc := Tab.set 0 x.pc n off } ∧ OtherFronds s t f ∧ t = { s with frond := t.frond, localStore := t.localStore }) ∧
        (r.pageOk a 4 = true → ∃ t : State, exec (.pinnuleInstruction f n slot off (.loadFrond d a)) s = .next t ∧
          IntWritten s t f n off d (s.fsWord f a) ∧ (t.getFrond f).counts = Tab.upd 0 x.counts 7 (satAdd 64 · (Config.conflictCycles s.free)) ∧
          t.free = s.free + 1) ∧
        (r.pageOk a 4 = true → ∃ t : State, exec (.pinnuleInstruction f n slot off (.storeFrond d a)) s = .next t ∧ t.fsWord f a = x.iget n d ∧
          (∀ k, k < storeKey f a ∨ storeKey f a + 4 ≤ k → t.store.read k = s.store.read k) ∧
          t.getFrond f = { x with pc := Tab.set 0 x.pc n off, counts := Tab.upd 0 x.counts 7 (satAdd 64 · (Config.conflictCycles s.free)) } ∧
          OtherFronds s t f ∧ t = { s with frond := t.frond, store := t.store, free := s.free + 1 })) ∧
      (∀ u, 512 ≤ n → u < 3 → r.warden u = n - 512 → ∃ t : State, exec (.pinnuleInstruction f n slot off (.issueShared u)) s = .next t ∧
        t.getFrond f = { x with pc := Tab.set 0 x.pc n off } ∧ OtherFronds s t f ∧ t = { s with frond := t.frond }) ∧
      (∀ k, 512 ≤ n → k < r.slots → ∃ t : State, exec (.pinnuleInstruction f n slot off (.startSlot k)) s = .next t ∧
        t.getFrond f = { x with pc := Tab.set 0 x.pc n off, gang := Tab.set 0 x.gang (n - 512) (k + 1) } ∧ OtherFronds s t f ∧
        t = { s with frond := t.frond }) ∧
      (∀ o : PinOp,
        (o = .undefined ∨ (∃ fmt d a, o = .fpWiden fmt d a ∧ fmt ≠ 0 ∧ fmt ≠ 2 ∧ fmt ≠ 3) ∨ (∃ d a b, o = .quadBin .div d a b) ∨
         (∃ d a, (o = .loadLocal d a ∨ o = .storeLocal d a) ∧ 2048 < a + 4) ∨
         (∃ d a, (o = .loadFrond d a ∨ o = .storeFrond d a) ∧ r.pageOk a 4 = false) ∨
         (∃ u, o = .issueShared u ∧ (n < 512 ∨ 3 ≤ u ∨ r.warden u ≠ n - 512)) ∨ (∃ k, o = .startSlot k ∧ (n < 512 ∨ r.slots ≤ k))) →
        exec (.pinnuleInstruction f n slot off o) s = .next ((s.setPc f n off).pinFault f n slot off)) ∧
      (∀ (cvt : Byte) (src d block : Nat), d < 32 →
        (pinConvOk r cvt src d block = true → isMx (cvtDst cvt) = false → ∃ t : State, exec (.pinnuleConversion f n slot off cvt src ⟨d, block⟩) s = .next t ∧
          FpWritten s t f n off d (BitVec.ofNat 32 (narrowIeee (cvtDst cvt) rne (x.fget n src)).code) ∧
          Converted s t p cvt 1 (b2n (narrowIeee (cvtDst cvt) rne (x.fget n src)).ovf) (b2n (narrowIeee (cvtDst cvt) rne (x.fget n src)).unf))) ∧
      (∀ (cvt : Byte) (src dst block : Nat),
        (pinConvOk r cvt src dst block = true → isMx (cvtDst cvt) = true → ∃ t : State, exec (.pinnuleConversion f n slot off cvt src ⟨dst, block⟩) s = .next t ∧
          BlocksNarrowed s t f p cvt dst (block % 64) 1
            ((List.range 32).map fun i => BitVec.ofNat 32 (leNat (s.localStore.readN (localKey f n (src + 4 * i)) 4))) ∧
          t.getFrond f = { x with pc := Tab.set 0 x.pc n off, counts := Tab.upd 0 x.counts 7 (satAdd 64 · (Config.conflictCycles s.free)) } ∧
          OtherFronds s t f ∧ t = { s with store := t.store, frond := t.frond, part := t.part, free := s.free + 1 }) ∧
        (pinConvOk r cvt src dst block = false →
          exec (.pinnuleConversion f n slot off cvt src ⟨dst, block⟩) s = .next ((s.setPc f n off).pinFault f n slot off)))) ∧
    (s.pinBusy f n = none → ∀ (a : FinArg) (cycle k0 k1 c0 c1 c2 c3 q k : Nat), exec (.finchk f n a) s = .next s ∧
      exec (.bob f n cycle k0 k1 c0 c1 c2 c3 q) s = .next s ∧ exec (.raise f n k) s = .next s) ∧
    (s.pinBusy f n = some (p, r) →
      (∀ cycle k0 k1 c0 c1 c2 c3 q, q < 8 → ∃ t : State, exec (.bob f n cycle k0 k1 c0 c1 c2 c3 q) s = .next t ∧
        (∀ i, i < 4 → (t.getFrond f).qget n q i =
          nth 0 (bobbin (x.iget n k0) (x.iget n k1) (x.iget n c0) (x.iget n c1) (x.iget n c2) (x.iget n c3)) i) ∧
        (∀ m e i, e < 8 → i < 4 → (m ≠ n ∨ e ≠ q) → (t.getFrond f).qget m e i = x.qget m e i) ∧
        (Tab.get 0 x.bob n = 0 → Tab.get 0 (t.getFrond f).bob n = cycle + 1) ∧
        (∀ k, Tab.get 0 x.bob n = k + 1 → Tab.get 0 (t.getFrond f).bob n = max cycle (k + 4) + 1) ∧
        (∀ m, m ≠ n → Tab.get 0 (t.getFrond f).bob m = Tab.get 0 x.bob m) ∧
        t.getFrond f = { x with qreg := (t.getFrond f).qreg, bob := (t.getFrond f).bob } ∧ OtherFronds s t f ∧ t = { s with frond := t.frond }) ∧
      (∀ k, (k < 4096 → ∃ t : State, exec (.raise f n k) s = .next t ∧ RaisedAfter s t f (some k)) ∧
        (4096 ≤ k → exec (.raise f n k) s = .next (s.pinFault f n (s.slotOf f (gangOf n)) (s.pcOf f n)))) ∧
      (∀ a : FinArg,
        ((finWords x n a).all isFinite = true → exec (.finchk f n a) s = .next s) ∧
        ((finWords x n a).all isFinite = false → ∃ t : State, exec (.finchk f n a) s = .next t ∧
          t.getPart p = { s.getPart p with
            arith := { (s.getPart p).arith with finchk := satAdd 64 (s.getPart p).arith.finchk 1 }
            arithNow := { (s.getPart p).arithNow with finchk := satAdd 64 (s.getPart p).arithNow.finchk 1 }
            run := { (s.getPart p).run with finite := false } } ∧
          (∀ q, q ≠ p → t.getPart q = s.getPart q) ∧ t = { s with part := t.part })))

/-- R64, R65, R66, R71, R77, R81, R127, R131, R402, R430: an undefined instruction, an access outside the pages, a token beyond 4,095, a combination or a descriptor out
of range and an operation of a warden that does not drive the unit are frond faults: the unit stops, INTERNAL falls due for the pattern, the PATTERN cause
is set, the fault log gets a HALT entry with the frond, the unit kind, the slot, the pinnule and the instruction offset, and the group's fault class counts.
The model's own choices in it: log entries 23 and 80. -/
def Obligations.FrondFaultsStopUnits : Prop :=
  ∀ (s s0 : State) (f w n p slot off cycle k unit source sl pin o : Nat) (r : FrondRec) (c : Instr),
    ((s.pinRuns f n slot = some (p, r) ∧ s0 = s.setPc f n off ∧ unit = 3 + n ∧ source = (if n < 512 then 3 else 4) ∧ sl = slot ∧ pin = n ∧ o = off ∧
        (c = .pinnuleInstruction f n slot off .undefined ∨
         (∃ d a, r.pageOk a 4 = false ∧ (c = .pinnuleInstruction f n slot off (.loadFrond d a) ∨ c = .pinnuleInstruction f n slot off (.storeFrond d a))) ∨
         ∃ cvt src dst b, cvtOk cvt = false ∧ c = .pinnuleConversion f n slot off cvt src ⟨dst, b⟩)) ∨
      (s.pinBusy f n = some (p, r) ∧ s0 = s ∧ unit = 3 + n ∧ source = (if n < 512 then 3 else 4) ∧ sl = s.slotOf f (gangOf n) ∧ pin = n ∧
        o = s.pcOf f n ∧ 4096 ≤ k ∧ c = .raise f n k) ∨
      (s.driven f k w = some (p, r, false) ∧ s0 = s ∧ unit = 515 + w ∧ source = 4 ∧ sl = s.slotOf f w ∧ pin = 512 + w ∧ o = s.pcOf f (512 + w) ∧
        (k = 0 ∧ ((∃ a, c = .aload f w cycle a) ∨ (∃ a, c = .astream f w cycle a) ∨ c = .swap f w cycle) ∨
         k = 1 ∧ ((∃ v tok, c = .vectorOperation f w v tok) ∨ (∃ b f19 d, c = .vectorReduction f w b f19 d) ∨
           ∃ cvt src dst b, c = .vectorConversion f w cvt src dst b) ∨
         k = 2 ∧ ∃ a, c = .spoolStreamIssue f w a)) ∨
      (s.driven f unit w = some (p, r, true) ∧ s0 = s ∧ source = unit ∧ sl = s.slotOf f w ∧ pin = 512 + w ∧ o = s.pcOf f (512 + w) ∧
        (unit = 0 ∧ ((∃ a, aloadOk a = false ∧ c = .aload f w cycle a) ∨ ∃ a, astreamPages r a = false ∧ c = .astream f w cycle a) ∨
         unit = 1 ∧ (∃ cvt src dst b, cvtOk cvt = false ∧ c = .vectorConversion f w cvt src dst b) ∨
         unit = 2 ∧ ∃ a, (r.pageOk a 32 = false ∨ (spoolBad (s.fsRead f a 32) r.pages).isSome = true) ∧ c = .spoolStreamIssue f w a))) →
    ∃ (t : State) (e : LogEntry), exec c s = .next t ∧ t.getFrond f = { s0.getFrond f with stopped := (s.getFrond f).stopped ++ [unit] } ∧
      OtherFronds s t f ∧ e ∈ t.faults.log ∧ e.seq = s.faults.next ∧ e.kind = 4 ∧ e.code = .internal ∧ e.part = p ∧ e.unitKind = 4 ∧ e.unit = f ∧
      fld e.detail 0 2 = f % 2 ^ 16 ∧ fld e.detail 2 1 = source % 2 ^ 8 ∧ fld e.detail 3 1 = sl % 2 ^ 8 ∧ fld e.detail 4 2 = pin % 2 ^ 16 ∧
      fld e.detail 6 2 = o % 2 ^ 16 ∧ (s.irq.status.length = 11 → t.caused .frond) ∧
      ((s.getPart p).run.halt = none →
        t.getPart p = { s.getPart p with run := { (s.getPart p).run with halt := some .internal, haltAt := s.sync.stitch } }) ∧
      ((s.getPart p).run.halt ≠ none → t.getPart p = s.getPart p) ∧ (∀ q, q ≠ p → t.getPart q = s.getPart q) ∧
      (s.unitHeld 2 (frondGroup f) = false → (Tab.get {} s.faults.unit (unitKey 2 (frondGroup f))).count = 0 → 1 < (s.policy 2).2 →
        (Tab.get {} t.faults.unit (unitKey 2 (frondGroup f))).count = 1 ∧
        ∃ v, t.newest = some v ∧ v.kind = 1 ∧ v.cls = 2 ∧ v.unitKind = classUnitKind 2 ∧ v.unit = frondGroup f ∧ v.seq = s.faults.next + 1) ∧
      t = { s with frond := t.frond, part := t.part, faults := t.faults, irq := t.irq, pcie := t.pcie, out := t.out }

/-- R65, R69, R71, R74, R77: a stream issued by the warden that drives the spool engine, with a descriptor that R71 allows, is one more stream; behind 64 the
warden stalls until one retires, and a bad one is a frond fault. R72, R73, R75, R78, R186, R198: a read burst starts while fewer than DEPTH are in use, a write burst once
its producer has raised its token; each counts and is offered to its regulator, and one whose far address lies outside the partition is a frond fault.
R70, R72, R76, R203: a read burst that has started lands as the bytes of far memory or their poison, and the tokens follow in burst order; a slot's release
counts, and the last one retires the stream. R73, R204: a write burst that far memory takes puts the slot's bytes there, those of a refused word
indeterminate, and its completion raises the token. R20, R205: no burst moves over a link or a channel that retrains.
The model's own choices in it: log entries 36, 37, 54 and 57. -/
def Obligations.SpoolStreamsRun : Prop :=
  (∀ (s : State) (f w p a : Nat) (r : FrondRec),
    (s.driven f unitSpool w = none → exec (.spoolStreamIssue f w a) s = .next s) ∧
    (s.driven f unitSpool w = some (p, r, false) → exec (.spoolStreamIssue f w a) s = .next (s.wardenFault f w)) ∧
    (s.driven f unitSpool w = some (p, r, true) →
      (r.pageOk a 32 = false ∨ (spoolBad (s.fsRead f a 32) r.pages).isSome = true →
        exec (.spoolStreamIssue f w a) s = .next (s.unitFault f unitSpool w)) ∧
      (r.pageOk a 32 = true → spoolBad (s.fsRead f a 32) r.pages = none →
        (64 ≤ (s.getFrond f).streams.length → exec (.spoolStreamIssue f w a) s = .next (s.setWait f w (some (.stream a)))) ∧
        ((s.getFrond f).streams.length < 64 → ∃ t : State, exec (.spoolStreamIssue f w a) s = .next t ∧
          t.getFrond f = { s.getFrond f with
            streams := (s.getFrond f).streams ++
              [{ streamParse (s.fsRead f a 32) with id := (s.getFrond f).nextStream, pc := s.pcOf f (wardenPinnule w) }]
            nextStream := (s.getFrond f).nextStream + 1 } ∧
          OtherFronds s t f ∧ t = { s with frond := t.frond })))) ∧
  (∀ (s : State) (f p id : Nat) (r : FrondRec) (x : Stream),
    (s.streamAt f id = none ∨ s.unitRuns f unitSpool = none → ∀ (j : Nat) (ue ce : List Nat), exec (.spoolBurstStart f id) s = .next s ∧
      exec (.spoolWriteBurst f id) s = .next s ∧ exec (.spoolBurstLanded f id j ue ce) s = .next s ∧ exec (.spoolSlotRelease f id) s = .next s ∧
      exec (.spoolWriteAccepted f id ue) s = .next s) ∧
    (s.unitRuns f unitSpool = some (p, r) → s.streamAt f id = some x →
      (∀ (c : Instr) (key : Nat),
        (c = .spoolBurstStart f id ∧ key = 8 ∧ x.write = false ∧ x.next < x.count ∧ x.next - x.released < x.depth ∨
          c = .spoolWriteBurst f id ∧ key = 10 ∧ x.write = true ∧ x.next < x.count ∧ s.producerRaised f x x.next = true) →
        (s.farOk p (x.farOf x.next) x.burst = true → ∃ t : State, exec c s = .next t ∧ BurstIssued s t f p key x) ∧
        (s.farOk p (x.farOf x.next) x.burst = false → exec c s =
          .next (s.frondFault f unitSpool 2 (s.slotOf f (r.warden unitSpool)) (wardenPinnule (r.warden unitSpool)) x.pc))) ∧
      (x.write = true ∨ x.count ≤ x.next ∨ x.depth ≤ x.next - x.released → exec (.spoolBurstStart f id) s = .next s) ∧
      (x.write = false ∨ x.count ≤ x.next ∨ s.producerRaised f x x.next = false → exec (.spoolWriteBurst f id) s = .next s) ∧
      (∀ (j a n : Nat) (ue ce : List Nat) (bs : List Byte), a = farAddr p (x.farOf j) → bs = s.far.readN a x.burst →
        n = (landing x.convert a ue bs).2 →
        (x.write = true ∨ s.burstOpen p f x j = false ∨ s.rangeOpen (some (frondDie f)) a x.burst = false →
          exec (.spoolBurstLanded f id j ue ce) s = .next s) ∧
        (x.write = false → s.burstOpen p f x j = true → s.rangeOpen (some (frondDie f)) a x.burst = true →
          ∃ t : State, exec (.spoolBurstLanded f id j ue ce) s = .next t ∧ BurstLanded t f (x.slotAt j) x.convert a ue bs ∧ BurstsRaised s t f j x ∧
            (∀ k, k < storeKey f (x.slotAt j) ∨ storeKey f (x.slotAt j) + (landing x.convert a ue bs).1.length ≤ k →
              t.store.read k = s.store.read k) ∧
            t.getFrond f = { s.getFrond f with
              streams := (t.getFrond f).streams, token := (t.getFrond f).token, wait := (t.getFrond f).wait
              counts := Tab.upd 0 (s.getFrond f).counts 5 (satAdd 64 · (Config.conflictCycles s.free)) } ∧
            (ue ≠ [] → (t.getPart p).run.mem = true) ∧ (t.getPart p).arith.scaleRange =
              (if n = 0 then (s.getPart p).arith.scaleRange else satAdd 64 (s.getPart p).arith.scaleRange n) ∧
            (ue = [] → n = 0 → (s.getFrond f).wait = [] → VoteNoted s t p) ∧
            (ue = [] → ce = [] → n = 0 → t = { s with store := t.store, frond := t.frond, part := t.part, free := s.free + 1 }) ∧
            (∀ q, q ≠ p → t.getPart q = s.getPart q) ∧ OtherFronds s t f ∧ t.far = s.far ∧ t.localStore = s.localStore)) ∧
      (x.write = true ∨ x.raised ≤ x.released → exec (.spoolSlotRelease f id) s = .next s) ∧
      (x.write = false → x.released < x.raised → ∃ t : State, exec (.spoolSlotRelease f id) s = .next t ∧
        ((∀ a, s.waitOf f (r.warden unitSpool) ≠ some (.stream a)) →
          (x.released + 1 < x.count → t.streamAt f id = some { x with released := x.released + 1 }) ∧
          (x.count ≤ x.released + 1 → ∀ y ∈ (t.getFrond f).streams, y.id = id → y.released < y.count) ∧
          (∀ k, k ≠ id → t.streamAt f k = s.streamAt f k) ∧ t.getFrond f = { s.getFrond f with streams := (t.getFrond f).streams }) ∧
        (∀ a, s.waitOf f (r.warden unitSpool) = some (.stream a) → spoolBad (s.fsRead f a 32) r.pages = none →
          (s.getFrond f).streams.length = 64 → x.count ≤ x.released + 1 → t.waitOf f (r.warden unitSpool) = none ∧
          (t.getFrond f).streams.getLast? = some { streamParse (s.fsRead f a 32) with
            id := (s.getFrond f).nextStream, pc := s.pcOf f (wardenPinnule (r.warden unitSpool)) }) ∧
        (t.getFrond f).token = (s.getFrond f).token ∧ t.store = s.store ∧ t.far = s.far ∧ OtherFronds s t f) ∧
      (∀ (a : Nat) (refused : List Nat), a = farAddr p (x.farOf x.released) →
        (x.write = false ∨ x.next ≤ x.released ∨ s.burstHeld p f id x.released = true ∨ s.rangeOpen (some (frondDie f)) a x.burst = false →
          exec (.spoolWriteAccepted f id refused) s = .next s) ∧
        (x.write = true → x.released < x.next → s.burstHeld p f id x.released = false → s.rangeOpen (some (frondDie f)) a x.burst = true →
          (∀ b, s.waitOf f (r.warden unitSpool) ≠ some (.stream b)) → ∃ t : State, exec (.spoolWriteAccepted f id refused) s = .next t ∧
            (∀ i, i < x.burst → t.far.read (a + i) = if refused.any (fun e => e / 64 == i / 64) then Config.freeByte (s.free + i)
              else s.store.read (storeKey f (x.slotAt x.released) + i)) ∧
            (∀ k, k < a ∨ a + x.burst ≤ k → t.far.read k = s.far.read k) ∧
            (x.released + 1 < x.count → t.streamAt f id = some { x with released := x.released + 1 }) ∧
            (x.count ≤ x.released + 1 → ∀ y ∈ (t.getFrond f).streams, y.id = id → y.released < y.count) ∧
            (∀ k, k ≠ id → t.streamAt f k = s.streamAt f k) ∧
            (∀ k, k = x.tokenOf x.released → Tab.get 0 (t.getFrond f).token k = (Tab.get 0 (s.getFrond f).token k + 1) % 2 ^ 32) ∧
            (∀ k, k ≠ x.tokenOf x.released → Tab.get 0 (t.getFrond f).token k = Tab.get 0 (s.getFrond f).token k) ∧
            t.getFrond f = { s.getFrond f with
              streams := (t.getFrond f).streams, token := (t.getFrond f).token, wait := (t.getFrond f).wait
              counts := Tab.upd 0 (s.getFrond f).counts 5 (satAdd 64 · (Config.conflictCycles t.free.pred)) } ∧
            (refused ≠ [] → (t.getPart p).run.mem = true) ∧ (refused = [] → (s.getFrond f).wait = [] → VoteNoted s t p) ∧
            (refused = [] → t = { s with far := t.far, frond := t.frond, part := t.part, free := s.free + 1 }) ∧
            (refused ≠ [] → t.free = s.free + x.burst + 1) ∧
            (∀ q, q ≠ p → t.getPart q = s.getPart q) ∧ OtherFronds s t f ∧ t.store = s.store ∧ t.localStore = s.localStore))))

/-! ### Steps -/

/-- R129, R130, R131, R133, R134, R138: an instruction with an ES issues once its stitch is reached and its tokens are there, and until then its warden stalls on it
and issues no other: the slip of the step is the greatest lateness, and a late issue is counted. STITCH.WAIT takes its offset from a register. A
raise that a stalled warden waited for lets its instruction issue. R162: STEP.COMMIT issues once by each warden, and the vote's ISSUE is the stitch at which
all of its conditions hold. R151, R152: the first stage reads an entry's TOKENS once in a step and passes it to pattern code, and the tokens of its
landing buffer from TOKENS up to MAX_TOKENS are zero; a count beyond MAX_TOKENS reads as none, makes the step void and is logged.
The model's own choices in it: log entry 85. -/
def Obligations.IssuesAndMicroBatches : Prop :=
  (∀ (s : State) (f w es p l : Nat) (r : FrondRec) (tokens : List (Nat × Nat)), l = s.sync.stitch - ((s.getPart p).run.base + es) →
    (s.issuer f w = none → exec (.wardenIssue f w es tokens) s = .next s) ∧
    (s.issuer f w = some (p, r) →
      ((s.getPart p).run.base + es ≤ s.sync.stitch → (∀ k ∈ tokens, s.tokenAt f k.1 k.2 = true) → ∃ t : State,
        exec (.wardenIssue f w es tokens) s = .next t ∧
        t.getPart p = { s.getPart p with run := { (s.getPart p).run with
          slip := min (max (s.getPart p).run.slip l) (2 ^ 32 - 1)
          lateIssues := if l = 0 then (s.getPart p).run.lateIssues else satAdd 64 (s.getPart p).run.lateIssues 1 } } ∧
        (∀ q, q ≠ p → t.getPart q = s.getPart q) ∧ t = { s with part := t.part }) ∧
      (s.sync.stitch < (s.getPart p).run.base + es ∨ (∃ k ∈ tokens, s.tokenAt f k.1 k.2 = false) → ∃ t : State,
        exec (.wardenIssue f w es tokens) s = .next t ∧
        t.getFrond f = { s.getFrond f with wait := Tab.set none (s.getFrond f).wait w (some (.issue es tokens)) } ∧ t.issuer f w = none ∧
        OtherFronds s t f ∧ t = { s with frond := t.frond })) ∧
    (∀ reg, exec (.stitchWait f w reg) s = exec (.wardenIssue f w ((s.getFrond f).iget (512 + w) reg).toNat []) s) ∧
    (∀ reg, es = ((s.getFrond f).iget (512 + w) reg).toNat → s.issuer f w = some (p, r) → (s.getPart p).run.base + es ≤ s.sync.stitch → ∃ t : State,
      exec (.stitchWait f w reg) s = .next t ∧
      t.getPart p = { s.getPart p with run := { (s.getPart p).run with
        slip := min (max (s.getPart p).run.slip l) (2 ^ 32 - 1)
        lateIssues := if l = 0 then (s.getPart p).run.lateIssues else satAdd 64 (s.getPart p).run.lateIssues 1 } } ∧ t = { s with part := t.part }) ∧
    (∀ (n k g : Nat), s.pinBusy f n = some (p, r) → k < 4096 → (s.getFrond f).wait = [(w, some (.issue es [(k, g)]))] →
      s.unitRuns f (unitPinnule (wardenPinnule w)) = some (p, r) → ∃ t : State, exec (.raise f n k) s = .next t ∧
        ((s.getPart p).run.base + es ≤ s.sync.stitch → t.tokenAt f k g = true → (t.getFrond f).wait = [] ∧
          t.getPart p = { s.getPart p with run := { (s.getPart p).run with
            slip := min (max (s.getPart p).run.slip l) (2 ^ 32 - 1)
            lateIssues := if l = 0 then (s.getPart p).run.lateIssues else satAdd 64 (s.getPart p).run.lateIssues 1 } }) ∧
        (s.sync.stitch < (s.getPart p).run.base + es ∨ t.tokenAt f k g = false → (t.getFrond f).wait = (s.getFrond f).wait ∧ t.part = s.part)) ∧
    (s.unitRuns f (unitPinnule (wardenPinnule w)) = none ∨ s.waitOf f w ≠ none → exec (.stepCommit f w es) s = .next s) ∧
    (s.unitRuns f (unitPinnule (wardenPinnule w)) = some (p, r) → s.waitOf f w = none →
      (16 * f + w ∈ (s.getPart p).run.committed → exec (.stepCommit f w es) s = .next s) ∧
      (16 * f + w ∉ (s.getPart p).run.committed → s.sync.stitch < (s.getPart p).run.base + es →
        exec (.stepCommit f w es) s = .next (s.setWait f w (some (.commit es)))) ∧
      (16 * f + w ∉ (s.getPart p).run.committed → (s.getPart p).run.base + es ≤ s.sync.stitch → ∃ t : State,
        exec (.stepCommit f w es) s = .next t ∧
        t.getPart p = { s.getPart p with run := { (s.getPart p).run with
          slip := min (max (s.getPart p).run.slip l) (2 ^ 32 - 1)
          lateIssues := if l = 0 then (s.getPart p).run.lateIssues else satAdd 64 (s.getPart p).run.lateIssues 1
          committed := (s.getPart p).run.committed ++ [16 * f + w]
          issue := if (s.getPart p).run.issue = none ∧ t.voteForms p = true then some s.sync.stitch else (s.getPart p).run.issue } } ∧
        (∀ q, q ≠ p → t.getPart q = s.getPart q) ∧ t = { s with part := t.part }))) ∧
  (∀ (s : State) (p e : Nat) (landing : List (Nat × Nat × Nat)) (places : List (Nat × Nat)),
    ((s.getPart p).image.slots[e]? = none ∨ (s.getPart p).pat ≠ .running ∨ bit (s.getPart p).image.slotFlags 0 = false ∨
      Tab.get 0 (s.getPart p).tokens e ≠ 0 → exec (.microBatchInputRead p e ⟨landing, places⟩) s = .next s)) ∧
  (∀ (s : State) (p e f a tb l f' b l' n v : Nat) (x : SlotEntry), (s.getPart p).image.slots[e]? = some x → (s.getPart p).pat = .running →
    bit (s.getPart p).image.slotFlags 0 = true → Tab.get 0 (s.getPart p).tokens e = 0 → s.physical p l = some f → s.physical p l' = some f' →
    a + tb * x.maxTokens ≤ 3670016 → b + 8 ≤ 3670016 → n = leNat (s.far.readN ((s.getPart p).hbmBase + x.input) 8) →
    v = (if n ≤ x.maxTokens then n else 0) → ∃ t : State, exec (.microBatchInputRead p e ⟨[(l, a, tb)], [(l', b)]⟩) s = .next t ∧
      Tab.get 0 (t.getPart p).tokens e = v + 1 ∧ (∀ k, k ≠ e → Tab.get 0 (t.getPart p).tokens k = Tab.get 0 (s.getPart p).tokens k) ∧
      t.fsRead f' b 8 = leBytes 8 v ∧
      (∀ y, storeKey f (a + tb * v) ≤ y → y < storeKey f (a + tb * x.maxTokens) → y < storeKey f' b ∨ storeKey f' b + 8 ≤ y → t.store.read y = 0) ∧
      (∀ y, y < storeKey f (a + tb * v) ∨ storeKey f (a + tb * x.maxTokens) ≤ y → y < storeKey f' b ∨ storeKey f' b + 8 ≤ y →
        t.store.read y = s.store.read y) ∧
      (n ≤ x.maxTokens → t.getPart p = { s.getPart p with tokens := (t.getPart p).tokens } ∧ t = { s with part := t.part, store := t.store }) ∧
      (x.maxTokens < n → t.getPart p = { s.getPart p with tokens := (t.getPart p).tokens, run := { (s.getPart p).run with void := true } } ∧
        ∃ d : LogEntry, t.newest = some d ∧ d.kind = 7 ∧ d.code = .stepSkipped ∧ d.part = p ∧ d.seq = s.faults.next ∧
          fld d.detail 0 2 = e % 2 ^ 16 ∧ fld d.detail 4 4 = x.maxTokens % 2 ^ 32 ∧ fld d.detail 8 8 = n % 2 ^ 64) ∧
      (∀ q, q ≠ p → t.getPart q = s.getPart q) ∧
      t = { s with part := t.part, store := t.store, faults := t.faults, irq := t.irq, pcie := t.pcie, out := t.out })

/-- R162, R164, R165, R166, R167, R168, R172, R297: when the conditions for it hold, a member forms its vote, with the marks and counts of its step, and sends it
once nothing holds it; it rises to the root of the job box, which combines all votes, and goes down again, and at each member it decides the step. A
record of another step is discarded. A vote that has not been combined COLL_TIMEOUT after it was sent makes COLL_ABORT fall due, with the first member in tree order
whose vote is missing. -/
def Obligations.VotesDecideSteps : Prop :=
  (∀ a b : Vote, a.join b = { step := a.step, issue := max a.issue b.issue, slip := max a.slip b.slip, finite := a.finite && b.finite
                              void := a.void || b.void, abort := a.abort || b.abort, mem := a.mem || b.mem, sig := a.sig || b.sig
                              gradConv := satAdd 64 a.gradConv b.gradConv, gradUnf := satAdd 64 a.gradUnf b.gradUnf }) ∧
  (∀ (s : State) (p : Nat) (q : Partition) (g : Group), q = s.getPart p → g = q.image.jobGroup →
    (q.pat ≠ .running ∨ q.run.decided = true ∨ q.run.sent ≠ none ∨ q.run.halt ≠ none ∨ s.voteForms p = false → exec (.voteSend p) s = .next s) ∧
    (q.pat = .running → q.run.decided = false → q.run.sent = none → q.run.halt = none → s.voteForms p = true → ∃ i, i = q.run.issue.getD s.sync.stitch ∧
      (q.voteHeld = true → ∃ t : State, exec (.voteSend p) s = .next t ∧ t.getPart p = { q with run := { q.run with issue := some i } } ∧
        (∀ k, k ≠ p → t.getPart k = s.getPart k) ∧ t = { s with part := t.part }) ∧
      (q.voteHeld = false → ∃ u t : State, exec (.voteSend p) s = .next t ∧
        u.getPart p = { q with run := { q.run with
          issue := some i, sig := false
          sent := some ({ step := q.run.step, issue := i, slip := q.run.slip, finite := q.run.finite, void := q.run.void, abort := q.run.abort
                          mem := q.run.mem, sig := q.run.sig, gradConv := q.run.gradConv, gradUnf := q.run.gradUnf }, s.sync.stitch) } } ∧
        (∀ k, k ≠ p → u.getPart k = s.getPart k) ∧ u = { s with part := u.part } ∧ VoteRises u t p)) ∧
    (∀ (port : Nat) (f : Frame) (v : Vote) (u : State), f.part = p → v = voteParse f.payload → u = s.takeRx port f →
      (f.kind ≠ 4 ∨ f.arg ≠ 0 ∨ f.dst ≠ s.here → exec (.voteFrame port f) s = .next s) ∧
      (f.kind = 4 → f.arg = 0 → f.dst = s.here → Deliverable s port f →
        (q.pat ≠ .running ∨ q.run.decided = true ∨ v.step ≠ q.run.step → exec (.voteFrame port f) s = .next u) ∧
        (q.pat = .running → q.run.decided = false → v.step = q.run.step →
          (g.parent s.here = some f.src →
            (q.run.passed = false ∨ q.run.sent = none → exec (.voteFrame port f) s = .next u) ∧
            (q.run.passed = true → q.run.sent ≠ none → ∃ t : State, exec (.voteFrame port f) s = .next t ∧
              StepDecided (u.votesTo p v (g.children s.here)) t p v)) ∧
          (g.parent s.here ≠ some f.src →
            (f.src ∉ g.children s.here ∨ (∃ c ∈ q.run.children, c.1 = f.src) → exec (.voteFrame port f) s = .next u) ∧
            (f.src ∈ g.children s.here → (∀ c ∈ q.run.children, c.1 ≠ f.src) → ∃ t : State, exec (.voteFrame port f) s = .next t ∧
              VoteRises (u.updRun p fun r => { r with children := r.children ++ [(f.src, v)] }) t p))))) ∧
    (q.run.sent = none ∨ q.pat ≠ .running ∨ q.run.decided = true ∨ (∃ v k, q.run.sent = some (v, k) ∧ s.sync.stitch < k + q.image.collTimeout) →
      exec (.voteTimeout p) s = .next s) ∧
    (∀ v k, q.run.sent = some (v, k) → q.pat = .running → q.run.decided = false → k + q.image.collTimeout ≤ s.sync.stitch →
      ∃ (t : State) (e : LogEntry) (d : Coord), exec (.voteTimeout p) s = .next t ∧
        ((∃ before after, g.children s.here = before ++ d :: after ∧ (∀ c ∈ q.run.children, c.1 ≠ d) ∧
            ∀ b ∈ before, ∃ c ∈ q.run.children, c.1 = b) ∨
         (∀ b ∈ g.children s.here, ∃ c ∈ q.run.children, c.1 = b) ∧ (g.parent s.here = some d ∨ g.parent s.here = none ∧ d = s.here)) ∧
        t.getPart p = { q with run := { q.run with
          sent := none, passed := true, halt := some (q.run.halt.getD .collAbort)
          haltAt := if q.run.halt = none then s.sync.stitch else q.run.haltAt, abortAt := (t.getPart p).run.abortAt } } ∧
        (q.run.abortAt = none → (t.getPart p).run.abortAt = some (d, g.rank d, q.run.step)) ∧
        t.newest = some e ∧ e.kind = 4 ∧ e.code = .collAbort ∧ e.part = p ∧ e.seq = s.faults.next ∧ fld e.detail 0 8 = q.run.step % 2 ^ 64 ∧
        fld e.detail 8 2 = 0xFFFF ∧ fld e.detail 0xB 1 = d.x % 2 ^ 8 ∧ fld e.detail 0xC 1 = d.y % 2 ^ 8 ∧ fld e.detail 0xD 1 = d.z % 2 ^ 8 ∧
        fld e.detail 0xE 2 = g.rank d % 2 ^ 16 ∧
        (∀ k, k ≠ p → t.getPart k = s.getPart k) ∧
        t = { s with part := t.part, faults := t.faults, irq := t.irq, pcie := t.pcie, out := t.out }))

/-! ### Collectives -/

/-- R55, R65, R77, R118, R130, R134, R147, R148, R155, R163, R287, R292, R294, R296: a fused instruction of the warden that drives its unit issues once its ES is reached and stalls
its warden until then; a record out of its ranges or pages is a frond fault. Issued, it joins the step's instructions with the next number of its group
and the deadline base + PLAN_DONE + SLIP_BUDGET + COLL_TIMEOUT, and its lateness counts. An abort record that came before it aborts it at once. Else RECV.MM, AG.MM,
and MM.SEND, MM.RS and MM.AR behind a pass that still enters, put their array part into the queue; where the array is free MM.SEND's rows are narrowed
and wait to be sent, and the contribution of a reduction, or the own part of AG.MM, begins its program.
The model's own choices in it: log entries 40, 42, 43, 57 and 64. -/
def Obligations.FusedInstructionsIssue : Prop :=
  ∀ (s : State) (c : Instr) (op unit f w record cycle p gid n l cyc : Nat) (r : FrondRec) (a : AstreamArgs) (x : Fused) (y : Coll) (e : Option Abort),
    gid = (if op ≤ 2 then 65536 + x.group else x.group) → n = Tab.get 0 (s.getPart p).collNext gid →
    (c = .mmSend f w record cycle a ∧ op = 1 ∧ unit = unitArray ∨ c = .recvMm f w record cycle a ∧ op = 2 ∧ unit = unitArray ∨
      c = .mmRs f w record cycle a ∧ op = 3 ∧ unit = unitArray ∨ c = .agMm f w record cycle a ∧ op = 4 ∧ unit = unitArray ∨
      c = .mmAr f w record cycle a ∧ op = 5 ∧ unit = unitArray ∨
      c = .vecAr f w record ∧ op = 6 ∧ unit = unitVector ∧ a = default ∧ cycle = 0) →
    x = fusedParse (s.fsRead f record 64) → cyc = max cycle (s.getFrond f).arr.stallTo → l = s.sync.stitch - ((s.getPart p).run.base + x.es) →
    y = { group := gid, inst := n, frond := f, record := record, what := x, step := (s.getPart p).run.step, progress := s.sync.stitch
          deadline := (s.getPart p).run.base + x.planDone + (s.getPart p).image.slipBudget + (s.getPart p).image.collTimeout } →
    e = (s.getPart p).earlyAborts.find? (fun (b : Abort) => b.group == gid && b.inst == n % 256 && b.step == (s.getPart p).run.step) →
    (s.driven f unit w = none → exec c s = .next s) ∧
    (s.driven f unit w = some (p, r, false) → exec c s = .next (s.wardenFault f w)) ∧
    (s.driven f unit w = some (p, r, true) →
      (r.pageOk record 64 = false → exec c s = .next (s.unitFault f unit w)) ∧
      (r.pageOk record 64 = true → s.sync.stitch < (s.getPart p).run.base + x.es →
        exec c s = .next (s.setWait f w (some (.fused op record cycle a)))) ∧
      (r.pageOk record 64 = true → (s.getPart p).run.base + x.es ≤ s.sync.stitch →
        (x.op ≠ op → 1 ≤ x.op → x.op ≤ 6 → exec c s = .next s) ∧
        (x.op = 0 ∨ 6 < x.op ∨ x.op = op ∧ s.fusedFaulty f p r (s.fsRead f record 64) a = true → exec c s = .next (s.unitFault f unit w)) ∧
        (x.op = op → s.fusedFaulty f p r (s.fsRead f record 64) a = false → (∀ z ∈ (s.getPart p).colls, z.key ≠ (gid, n)) → ∃ (t : State) (z : Coll),
          exec c s = .next t ∧ t.coll p (gid, n) = some z ∧
          (t.getPart p).colls.map (fun (z : Coll) => (z.group, z.inst, z.frond, z.record, z.what, z.step, z.deadline)) =
            ((s.getPart p).colls ++ [y]).map (fun (z : Coll) => (z.group, z.inst, z.frond, z.record, z.what, z.step, z.deadline)) ∧
          (t.getPart p).collNext = Tab.upd 0 (s.getPart p).collNext gid (· + 1) ∧
          ((s.getFrond f).wait = [] → (t.getPart p).run.slip = min (max (s.getPart p).run.slip l) (2 ^ 32 - 1) ∧
            (t.getPart p).run.lateIssues = (if l = 0 then (s.getPart p).run.lateIssues else satAdd 64 (s.getPart p).run.lateIssues 1)) ∧
          (∀ b, e = some b → z = { y with aborted := true, best := some b } ∧ (t.getPart p).run.abort = true ∧ (t.getPart p).run.discard = true ∧
            (t.getPart p).twin = { (s.getPart p).twin with collAborts := satAdd 64 (s.getPart p).twin.collAborts 1 } ∧
            t = { s with part := t.part, frond := t.frond }) ∧
          (e = none →
            (op = 1 ∨ op = 3 ∨ op = 5 → cyc < (s.getFrond f).arr.lastEnter ∨ (s.getFrond f).arr.queue ≠ [] → z = y ∧
              (t.getPart p).colls = (s.getPart p).colls ++ [y] ∧
              t.getFrond f = { s.getFrond f with arr := { (s.getFrond f).arr with
                queue := (s.getFrond f).arr.queue ++ [{ args := a, warden := w, fused := some (gid, n), cycle := cyc }] } } ∧
              OtherFronds s t f ∧ t = { s with part := t.part, frond := t.frond }) ∧
            (op = 2 → (∃ m, z = { y with chunks := m, vals := z.vals, progress := s.sync.stitch }) ∧
              t.getFrond f = { s.getFrond f with arr := { (s.getFrond f).arr with
                queue := (s.getFrond f).arr.queue ++ [{ args := a, warden := w, fused := some (gid, n), cycle := cyc }] } } ∧
              OtherFronds s t f ∧ t = { s with part := t.part, frond := t.frond }) ∧
            (∀ rc, op = 1 → (s.getFrond f).arr.lastEnter ≤ cyc → (s.getFrond f).arr.queue = [] →
              rc = (if nth 0 (s.getFrond f).arr.fmt (s.getFrond f).arr.active = 0 then 4 else 1) → PassEntered s t f cyc rc a ∧
              z = { y with
                ready := true
                vals := (sentRows x (s.f19Rne p) ((List.range a.m).flatMap fun m => (List.range a.nValid).map fun i => t.fsWord f (accAt a m + 4 * i))).codes } ∧
              OtherFronds s t f ∧ t = { s with part := t.part, frond := t.frond, store := t.store }) ∧
            (∀ (g : Group) (ax : Nat) (gt : Bool), s.collGroup p y = some g → (stagesOf op g).head? = some (ax, gt) →
              stageNeed g s.size s.here (y.total g) ax gt ≠ 0 →
              (op = 4 → z = { y with
                  ready := true
                  vals := putVals (List.replicate (y.total g) 0) (g.rank s.here * x.length) ((s.fsRead f x.src x.length).map (·.toNat)) } ∧
                (t.getFrond f).arr.queue = (s.getFrond f).arr.queue ++ [{ args := a, warden := w, fused := some (gid, n), cycle := cyc }] ∧
                t.store = s.store) ∧
              (∀ v : List Nat, op = 6 ∨ (op = 3 ∨ op = 5) ∧ (s.getFrond f).arr.lastEnter ≤ cyc ∧ (s.getFrond f).arr.queue = [] →
                v = (contribution x (s.f19Rne p) ((List.range (x.length / redSize x.redFmt)).map fun i => t.fsWord f (x.src + 4 * i))).codes →
                z = { y with ready := true, vals := v, flag := v.all (redFinite x.redFmt) } ∧ (op = 6 → t.store = s.store ∧ t.frond = s.frond) ∧
                (∀ rc, op ≠ 6 → rc = (if nth 0 (s.getFrond f).arr.fmt (s.getFrond f).arr.active = 0 then 4 else 1) →
                  PassEntered s t f cyc rc a)))) ∧
          (∀ q, q ≠ p → t.getPart q = s.getPart q) ∧ t.far = s.far ∧ t.chan = s.chan ∧ t.sync = s.sync ∧ t.ctx = s.ctx ∧ t.mem = s.mem ∧
          t.localStore = s.localStore)))

/-- R20, R132, R147, R148, R231, R232: the next chunk of an MM.SEND goes through its slot and leaves on its port in PDATA frames of at most 14,784 bytes, only the
last of which raises the token; the event after the last chunk raises DONE. A PDATA frame for a live pattern puts its bytes into the frond store and
raises its token behind them; one for another package or partition is discarded and counted; over a link that retrains it waits.
The model's own choices in it: log entries 39, 41 and 44. -/
def Obligations.PatternDataMoves : Prop :=
  (∀ (s : State) (f record i p : Nat) (r : FrondRec) (c : Coll),
    (s.unitRuns f unitArray = none → exec (.fusedChunkSend f record i) s = .next s) ∧
    (s.unitRuns f unitArray = some (p, r) →
      ((s.getPart p).colls.find? (fun (y : Coll) => y.frond == f && y.record == record && y.what.op == 1 && !y.done) = none →
        exec (.fusedChunkSend f record i) s = .next s) ∧
      ((s.getPart p).colls.find? (fun (y : Coll) => y.frond == f && y.record == record && y.what.op == 1 && !y.done) = some c →
        ((s.getPart p).run.discard = true ∨ c.ready = false ∨ i ≠ c.chunks ∨ s.dieOpen f = false →
          exec (.fusedChunkSend f record i) s = .next s) ∧
        ((s.getPart p).run.discard = false → s.coll p c.key = some c → c.ready = true → i = c.chunks → s.dieOpen f = true →
          (∀ bs, i < c.chunkCount → bs = ((c.vals.drop (i * c.what.chunk)).take (c.chunkLen i)).map (BitVec.ofNat 8) →
            s.isSelvage c.what.group = false → (s.getPort c.what.group).state = .up → ∃ (t : State) (frs : List Frame),
              exec (.fusedChunkSend f record i) s = .next t ∧ t.fsRead f (c.what.src + c.slotOff i) bs.length = bs ∧
              (∀ x, x < storeKey f (c.what.src + c.slotOff i) ∨ storeKey f (c.what.src + c.slotOff i) + bs.length ≤ x →
                t.store.read x = s.store.read x) ∧
              t.coll p c.key = some { c with chunks := i + 1, progress := s.sync.stitch } ∧ (∀ k, k ≠ c.key → t.coll p k = s.coll p k) ∧
              t.getPart p = { s.getPart p with colls := (t.getPart p).colls } ∧
              t.getPort c.what.group = { s.getPort c.what.group with tx := (s.getPort c.what.group).tx ++ frs } ∧
              frs.flatMap (·.payload) = bs ∧ frs.length = cdiv bs.length 14784 ∧
              (∀ j fr, frs[j]? = some fr → fr.kind = 1 ∧ fr.vl = 0 ∧ fr.part = p ∧ fr.src = s.here ∧ fr.payload.length ≤ 14784 ∧
                fr.dst = neighbour s.size s.here (s.dirOf c.what.group) ∧ (fr.raise = true ↔ j + 1 = frs.length) ∧
                fr.token = c.what.tokenOut + i % max c.what.slots 1 ∧ bits fr.arg 9 0 = c.what.peer % 1024 ∧
                bits fr.arg 25 10 = (c.what.dst + c.slotOff i + 14784 * j) / 64 % 65536) ∧
              (∀ q, q ≠ c.what.group → t.getPort q = s.getPort q) ∧ (∀ q, q ≠ p → t.getPart q = s.getPart q) ∧
              t = { s with store := t.store, part := t.part, links := { s.links with port := t.links.port } }) ∧
          (c.chunkCount ≤ i → ∃ t : State, exec (.fusedChunkSend f record i) s = .next t ∧ t.coll p c.key = some { c with done := true } ∧
            (∀ k, k ≠ c.key → t.coll p k = s.coll p k) ∧
            (∀ k, k = c.what.done → Tab.get 0 (t.getFrond c.frond).token k = (Tab.get 0 (s.getFrond c.frond).token k + 1) % 2 ^ 32) ∧
            (∀ k, k ≠ c.what.done → Tab.get 0 (t.getFrond c.frond).token k = Tab.get 0 (s.getFrond c.frond).token k) ∧
            ((s.getFrond c.frond).wait = [] → (t.getPart p).run.issue = (if (s.getPart p).run.issue = none ∧ t.voteForms p = true
                then some s.sync.stitch else (s.getPart p).run.issue) ∧
              t.getPart p = { s.getPart p with
                colls := (t.getPart p).colls, run := { (s.getPart p).run with issue := (t.getPart p).run.issue } }) ∧
            OtherFronds s t c.frond ∧ (∀ q, q ≠ p → s.owner c.frond ≠ some q → t.getPart q = s.getPart q) ∧
            t = { s with part := t.part, frond := t.frond }))))) ∧
  (∀ (s : State) (port : Nat) (f : Frame),
    (f.kind ≠ 1 → exec (.pdataFrame port f) s = .next s) ∧
    (f.kind = 1 → f.dst = s.here → (s.getPart f.part).live = true → s.pdataWaits f = true → exec (.pdataFrame port f) s = .next s) ∧
    (f.kind = 1 → Deliverable s port f → f.dst ≠ s.here → exec (.pdataFrame port f) s = .next ((s.takeRx port f).discardArrived port 5 f)) ∧
    (f.kind = 1 → Deliverable s port f → f.dst = s.here → (s.getPart f.part).live = false →
      exec (.pdataFrame port f) s = .next ((s.takeRx port f).discardArrived port 6 f)) ∧
    (f.kind = 1 → Deliverable s port f → f.dst = s.here → (s.getPart f.part).live = true → s.pdataWaits f = false →
      (s.physical f.part (bits f.arg 9 0) = none → exec (.pdataFrame port f) s = .next (s.takeRx port f)) ∧
      (∀ (fr : Nat), s.physical f.part (bits f.arg 9 0) = some fr →
        (3670016 < 64 * bits f.arg 25 10 + f.payload.length → exec (.pdataFrame port f) s = .next (s.takeRx port f)) ∧
        (64 * bits f.arg 25 10 + f.payload.length ≤ 3670016 → (s.getFrond fr).arr.queue = [] → ∃ u t : State,
          exec (.pdataFrame port f) s = .next t ∧ u.fsRead fr (64 * bits f.arg 25 10) f.payload.length = f.payload ∧
          (∀ x, x < storeKey fr (64 * bits f.arg 25 10) ∨ storeKey fr (64 * bits f.arg 25 10) + f.payload.length ≤ x →
            u.store.read x = s.store.read x) ∧
          u = { s.takeRx port f with store := u.store } ∧ RaisedAfter u t fr (if f.raise = true ∧ f.token < 4096 then some f.token else none)) ∧
        (∀ (x : Pass) (rest : List Pass) (k : Nat × Nat) (c : Coll) (i : Nat), 64 * bits f.arg 25 10 + f.payload.length ≤ 3670016 → f.raise = true →
          (s.getFrond fr).arr.queue = x :: rest → x.fused = some k → s.coll f.part k = some c → c.what.op = 2 → i = c.chunks → i + 1 = c.chunkCount →
          f.token = c.what.tokenIn + i % max c.what.slots 1 → f.token < 4096 → (s.getFrond fr).wait = [] → ∃ (t : State), exec (.pdataFrame port f) s = .next t ∧
          (t.tokenAt fr f.token (i / max c.what.slots 1) = true → t.coll f.part k = some { c with
            chunks := i + 1, progress := s.sync.stitch
            vals := c.vals ++ (t.fsRead fr (c.what.dst + c.slotOff i) (c.chunkLen i)).map (·.toNat) }) ∧
          (t.tokenAt fr f.token (i / max c.what.slots 1) = false → t.coll f.part k = some c) ∧
          t.fsRead fr (64 * bits f.arg 25 10) f.payload.length = f.payload ∧ (∀ q, q ≠ f.part → t.getPart q = s.getPart q) ∧
          t = { s.takeRx port f with store := t.store, part := t.part, frond := t.frond }))))

/-- R20, R132, R148, R156, R157, R231, R288, R289, R291, R292, R293, R295: a COLL frame of an issued instruction is progress. In the present stage a reduction
adds the own values to the partial sums: the own piece stays, another's goes on along the ring or the line; a gather places a piece and passes it on to the
last member that lacks it. A stage that lacks bytes goes on; one that has them ends, and the last one puts the result at DST and raises its chunks' tokens. In
the tree pass the flags of the children rise with the own one, and the final flag from the parent goes down and raises DONE. A frame that comes
early waits in the port, and one of an instruction that is over only counts as progress.
The model's own choices in it: log entries 39, 40 and 60. -/
def Obligations.CollectiveFramesAdvance : Prop :=
  (∀ (s : State) (port : Nat) (f : Frame) (pl : CollPlace),
    (f.kind ≠ 2 → exec (.collFrame port f pl) s = .next s) ∧
    (f.kind = 2 → f.dst = s.here → (s.getPart f.part).live = true → s.collWaits f pl = true → exec (.collFrame port f pl) s = .next s) ∧
    (f.kind = 2 → Deliverable s port f → f.dst ≠ s.here → exec (.collFrame port f pl) s = .next ((s.takeRx port f).discardArrived port 5 f)) ∧
    (f.kind = 2 → Deliverable s port f → f.dst = s.here → (s.getPart f.part).live = false →
      exec (.collFrame port f pl) s = .next ((s.takeRx port f).discardArrived port 6 f)) ∧
    (f.kind = 2 → Deliverable s port f → f.dst = s.here → (s.getPart f.part).live = true → s.collWaits f pl = false →
      (s.collNamed f = none → exec (.collFrame port f pl) s = .next (s.takeRx port f)) ∧
      (∀ c0 : Coll, s.collNamed f = some c0 → s.coll f.part c0.key = some c0 → ∃ (u : State) (c : Coll), c = { c0 with progress := s.sync.stitch } ∧
        u = (s.takeRx port f).updColl f.part c0.key (fun d => { d with progress := s.sync.stitch }) ∧ u.coll f.part c0.key = some c ∧
        (c0.done = true ∨ c0.aborted = true ∨ s.collGroup f.part c0 = none → exec (.collFrame port f pl) s = .next u) ∧
        (∀ g : Group, s.collGroup f.part c0 = some g → c0.done = false → c0.aborted = false →
          (bit f.arg 25 = false → stageIndex c.what.op g pl ≠ c.stage ∨ c.dataDone = true ∨ placeOk g s.here c pl f.payload.length = false →
            exec (.collFrame port f pl) s = .next u) ∧
          (∀ (vs ws : List Nat) (lo i need me n : Nat), bit f.arg 25 = false → stageIndex c.what.op g pl = c.stage → c.dataDone = false →
            placeOk g s.here c pl f.payload.length = true → vs = valsOf c.valSize f.payload →
            lo = g.pieceOff s.here (c.total g) pl.axis pl.piece + pl.off → i = lo / c.valSize → me = g.pos s.here pl.axis → n = g.span pl.axis →
            ws = (List.range vs.length).map (fun k => redAdd c.what.redFmt (nth 0 vs k) (nth 0 c.vals (i + k))) →
            need = stageNeed g s.size s.here (c.total g) pl.axis pl.gather →
            (pl.gather = false → g.ring s.size pl.axis = true → pl.piece = me → ∃ v : State,
              exec (.collFrame port f pl) s = .next (v.endStage f.part c.key need) ∧
              v = u.updColl f.part c.key (fun d => { d with
                vals := putVals d.vals i ws, got := d.got + ws.length * d.valSize, flag := d.flag && ws.all (redFinite d.what.redFmt) })) ∧
            (pl.gather = false → g.ring s.size pl.axis = false → pl.piece = me → ∃ v : State,
              exec (.collFrame port f pl) s = .next (v.endStage f.part c.key need) ∧
              v = u.updColl f.part c.key (fun d => (List.range vs.length).foldl
                (fun d k => d.lineElem (decide (0 < me)) (decide (me + 1 < n)) pl.fromBelow (i + k) (nth 0 vs k)) d)) ∧
            (pl.gather = false → pl.piece ≠ me → ∃ v : State, exec (.collFrame port f pl) s = .next (v.endStage f.part c.key need) ∧
              v = (u.updColl f.part c.key (fun d => { d with
                  flag := d.flag && ws.all (redFinite d.what.redFmt), got := d.got + ws.length * d.valSize })).sendValues f.part c
                (if g.ring s.size pl.axis = true ∨ pl.fromBelow = true then 2 * pl.axis else 2 * pl.axis + 1) lo ws) ∧
            (∀ b : State, pl.gather = true →
              b = u.updColl f.part c.key (fun d => { d with vals := putVals d.vals i vs, got := d.got + vs.length * d.valSize }) →
              (g.ring s.size pl.axis = true ∧ (me + 1) % n = pl.piece ∨
               g.ring s.size pl.axis = false ∧ (pl.fromBelow = true ∧ n ≤ me + 1 ∨ pl.fromBelow = false ∧ me = 0) →
                exec (.collFrame port f pl) s = .next (b.endStage f.part c.key need)) ∧
              (g.ring s.size pl.axis = true ∧ (me + 1) % n ≠ pl.piece ∨
               g.ring s.size pl.axis = false ∧ pl.fromBelow = true ∧ me + 1 < n →
                exec (.collFrame port f pl) s = .next ((b.sendValues f.part c (2 * pl.axis) lo vs).endStage f.part c.key need)) ∧
              (g.ring s.size pl.axis = false ∧ pl.fromBelow = false ∧ 0 < me →
                exec (.collFrame port f pl) s = .next ((b.sendValues f.part c (2 * pl.axis + 1) lo vs).endStage f.part c.key need)))) ∧
          (bit f.arg 25 = true →
            (g.parent s.here = some f.src → c.upSent = false → exec (.collFrame port f pl) s = .next u) ∧
            (g.parent s.here ≠ some f.src → f.src ∉ g.children s.here ∨ (∃ x ∈ c.up, x.1 = f.src) → exec (.collFrame port f pl) s = .next u) ∧
            (g.parent s.here = some f.src → c.upSent = true → ∃ v : State,
              v = (g.children s.here).foldl (fun v d => v.sendTree f.part c (bit f.arg 24) d)
                (u.updColl f.part c.key fun d => { d with flag := bit f.arg 24 }) ∧
              exec (.collFrame port f pl) s = .next (v.collDone f.part c.key)) ∧
            (g.parent s.here ≠ some f.src → f.src ∈ g.children s.here → (∀ x ∈ c.up, x.1 ≠ f.src) → ∃ (v : State) (d : Coll),
              v = u.updColl f.part c.key (fun d => { d with up := d.up ++ [(f.src, bit f.arg 24)] }) ∧
              d = { c with up := c.up ++ [(f.src, bit f.arg 24)] } ∧ v.coll f.part c.key = some d ∧
              (c.dataDone = false ∨ c.upSent = true ∨ (∃ b ∈ g.children s.here, ∀ x ∈ d.up, x.1 ≠ b) → exec (.collFrame port f pl) s = .next v) ∧
              (c.dataDone = true → c.upSent = false → (∀ b ∈ g.children s.here, ∃ x ∈ d.up, x.1 = b) → ∀ fl : Bool, fl = (c.flag && d.up.all (·.2)) →
                (∀ b, g.parent s.here = some b → exec (.collFrame port f pl) s =
                  .next ((v.updColl f.part c.key fun d => { d with upSent := true, flag := fl }).sendTree f.part d fl b)) ∧
                (g.parent s.here = none → exec (.collFrame port f pl) s =
                  .next (((g.children s.here).foldl (fun v b => v.sendTree f.part d fl b)
                    (v.updColl f.part c.key fun d => { d with flag := fl })).collDone f.part c.key)))))))) ∧
    (∀ (c : Coll) (g : Group) (p need : Nat) (k : Nat × Nat), s.coll p k = some c → c.key = k → s.collGroup p c = some g →
      (c.got < need → s.endStage p k need = s) ∧
      (need ≤ c.got → (stagesOf c.what.op g).length ≤ c.stage + 1 → s.endStage p k need =
        State.dataComplete p { c with stage := c.stage + 1, got := 0, left := [], right := [] } g
          (s.updColl p k fun d => { d with stage := d.stage + 1, got := 0, left := [], right := [] })) ∧
      (∀ ax gt, need ≤ c.got → (stagesOf c.what.op g)[c.stage + 1]? = some (ax, gt) → stageNeed g s.size s.here (c.total g) ax gt ≠ 0 →
        s.endStage p k need = State.openStage p g { c with stage := c.stage + 1, got := 0, left := [], right := [] } ax gt
          (s.updColl p k fun d => { d with stage := d.stage + 1, got := 0, left := [], right := [] })) ∧
      (c.what.op ≠ 4 → c.what.reduces = false → (s.getFrond c.frond).wait = [] → ∃ b : List Byte,
        (c.what.op ≠ 3 → b = valBytes c.valSize c.vals) ∧
        (c.what.op = 3 → b = valBytes c.valSize (c.slice (g.rank s.here * (c.what.length / max g.size 1)) (c.what.length / max g.size 1))) ∧
        (State.dataComplete p c g s).fsRead c.frond c.what.dst b.length = b ∧
        (∀ x, x < storeKey c.frond c.what.dst ∨ storeKey c.frond c.what.dst + b.length ≤ x →
          (State.dataComplete p c g s).store.read x = s.store.read x) ∧
        (State.dataComplete p c g s).coll p k = some { c with dataDone := true, done := true } ∧
        (∀ j n, n = ((List.range (cdiv b.length (max c.what.chunk 1))).filter fun i => c.what.tokenOut + i % max c.what.slots 1 == j).length +
            (if j = c.what.done then 1 else 0) → 0 < n →
          Tab.get 0 ((State.dataComplete p c g s).getFrond c.frond).token j = (Tab.get 0 (s.getFrond c.frond).token j + n) % 2 ^ 32) ∧
        State.dataComplete p c g s = { s with
          store := (State.dataComplete p c g s).store, frond := (State.dataComplete p c g s).frond, part := (State.dataComplete p c g s).part }) ∧
      (c.what.reduces = true → (s.getFrond c.frond).wait = [] → ∀ (t : State), t = s.collDone p k →
        t.coll p k = some { c with done := true } ∧ (t.getPart p).run.finite = ((s.getPart p).run.finite && c.flag) ∧
        (t.getPart p).arith.nonfinite = (if c.flag then (s.getPart p).arith.nonfinite else satAdd 64 (s.getPart p).arith.nonfinite 1) ∧
        Tab.get 0 (t.getFrond c.frond).token c.what.done = (Tab.get 0 (s.getFrond c.frond).token c.what.done + 1) % 2 ^ 32 ∧
        OtherFronds s t c.frond ∧ (∀ q, q ≠ p → t.getPart q = s.getPart q) ∧ t = { s with part := t.part, frond := t.frond })) ∧
    (∀ (p dir lo port : Nat) (c : Coll) (vs : List Nat) (b : List Byte), b = valBytes c.valSize vs → s.slotPort p dir = some port →
      s.isSelvage port = false → (s.getPort port).state = .up → ∃ (t : State) (frs : List Frame), s.sendValues p c dir lo vs = t ∧
        t.getPort port = { s.getPort port with tx := (s.getPort port).tx ++ frs } ∧ frs.flatMap (·.payload) = b ∧
        (∀ j fr, frs[j]? = some fr → fr.kind = 2 ∧ fr.vl = 1 ∧ fr.part = p ∧ fr.src = s.here ∧ fr.dst = neighbour s.size s.here dir ∧
          fr.arg = c.group % 65536 + 2 ^ 16 * (c.inst % 256) ∧ fr.payload.length ≤ dataStep c.what ∧
          fr.token = (lo + dataStep c.what * j) / max c.what.chunk 1 % 65536) ∧
        (∀ q, q ≠ port → t.getPort q = s.getPort q) ∧ t = { s with links := { s.links with port := t.links.port } }))

/-- R150, R163, R294, R295, R296, R297, R298, R430: at its deadline an instance that is not done is aborted here, with the member's own record; a record of another
member aborts it too. Of several records the best is held and goes on over the group's tree; one of an instance whose DONE was raised here only marks the
vote, and one of an instance that is not issued yet is kept for it. 1,024 stitches after the deadline the member in the best record is logged and, for
the step's first such instance, reported.
The model's own choices in it: log entry 42. -/
def Obligations.CollectivesAbort : Prop :=
  (∀ (s : State) (p group inst : Nat),
    (s.coll p (group, inst) = none → exec (.collectiveTimeout p group inst) s = .next s ∧ exec (.abortHoldExpiry p group inst) s = .next s) ∧
    (∀ c : Coll, s.coll p (group, inst) = some c →
      ((s.getPart p).pat ≠ .running ∨ c.what.op < 3 ∨ s.sync.stitch < c.deadline ∨ c.done = true ∨ c.timedOut = true →
        exec (.collectiveTimeout p group inst) s = .next s) ∧
      ((s.getPart p).pat = .running → 3 ≤ c.what.op → c.deadline ≤ s.sync.stitch → c.done = false → c.timedOut = false →
        ∃ (u v t : State) (a : Abort), exec (.collectiveTimeout p group inst) s = .next t ∧
          u = s.updColl p (group, inst) (fun d => { d with timedOut := true }) ∧
          (c.aborted = true → v = u) ∧ (c.aborted = false → InstanceAborted u v p (group, inst) { c with timedOut := true }) ∧
          a.step = c.step ∧ a.group = c.group ∧ a.inst = c.inst % 256 ∧ a.progress = c.progress ∧ a.member = s.here ∧
          (∀ g, s.collGroup p c = some g → a.rank = g.rank s.here) ∧ RecordKept v t p (group, inst) a none) ∧
      ((s.getPart p).pat ≠ .running ∨ c.aborted = false ∨ c.settled = true ∨ s.sync.stitch < c.deadline + 1024 →
        exec (.abortHoldExpiry p group inst) s = .next s) ∧
      ((s.getPart p).pat = .running → c.aborted = true → c.settled = false → c.deadline + 1024 ≤ s.sync.stitch → ∃ t : State,
        exec (.abortHoldExpiry p group inst) s = .next t ∧ t.coll p (group, inst) = some { c with settled := true } ∧
        (∀ k, k ≠ (group, inst) → t.coll p k = s.coll p k) ∧
        (∀ b, c.best = some b → ∃ e : LogEntry, t.newest = some e ∧ e.kind = 4 ∧ e.code = .collAbort ∧ e.part = p ∧ e.seq = s.faults.next ∧
          fld e.detail 0 8 = c.step % 2 ^ 64 ∧ fld e.detail 8 2 = group % 2 ^ 16 ∧ fld e.detail 0xA 1 = inst % 256 ∧
          fld e.detail 0xB 1 = b.member.x % 256 ∧ fld e.detail 0xC 1 = b.member.y % 256 ∧ fld e.detail 0xD 1 = b.member.z % 256 ∧
          fld e.detail 0xE 2 = b.rank % 65536) ∧
        (c.best = none → t.faults = s.faults) ∧
        (∀ b, c.best = some b →
          (∀ y ∈ (s.getPart p).colls, y.key = (group, inst) → y = c) →
          (∀ y ∈ (s.getPart p).colls, y.settled = true → c.deadline < y.deadline ∨ c.deadline = y.deadline ∧
            (c.group < y.group ∨ c.group = y.group ∧ c.inst < y.inst)) →
          (t.getPart p).run.abortAt = some (b.member, b.rank, c.step)) ∧
        t.getPart p = { s.getPart p with
          colls := (t.getPart p).colls, run := { (s.getPart p).run with abortAt := (t.getPart p).run.abortAt } } ∧
        (∀ q, q ≠ p → t.getPart q = s.getPart q) ∧
        t = { s with part := t.part, faults := t.faults, irq := t.irq, pcie := t.pcie, out := t.out }))) ∧
  (∀ (s : State) (port : Nat) (f : Frame) (a : Abort) (u : State) (q : Partition), a = abortParse f.payload → u = s.takeRx port f →
    q = s.getPart f.part →
    (f.kind ≠ 4 ∨ f.arg ≠ 1 ∨ f.dst ≠ s.here → exec (.abortRecord port f) s = .next s) ∧
    (f.kind = 4 → f.arg = 1 → f.dst = s.here → Deliverable s port f →
      (q.live = false → exec (.abortRecord port f) s = .next u) ∧
      (∀ c : Coll, q.live = true → q.collOf a.group a.inst = some c → c.step = a.step → s.coll f.part c.key = some c →
        ∃ v t : State, exec (.abortRecord port f) s = .next t ∧ RecordKept v t f.part c.key a (some f.src) ∧
          (c.done = true → v = u.updRun f.part fun r => { r with abort := true }) ∧ (c.done = false → c.aborted = true → v = u) ∧
          (c.done = false → c.aborted = false → InstanceAborted u v f.part c.key c)) ∧
      (q.live = true → (∀ c, q.collOf a.group a.inst = some c → c.step ≠ a.step) →
        (a.step < q.run.step → exec (.abortRecord port f) s = .next u) ∧
        (q.run.step ≤ a.step →
          (∀ b, q.earlyAborts.find? a.sameInstance = some b → b.progress < a.progress ∨ b.progress = a.progress ∧ b.rank ≤ a.rank →
            exec (.abortRecord port f) s = .next u) ∧
          ((∀ b, q.earlyAborts.find? a.sameInstance = some b → a.progress < b.progress ∨ a.progress = b.progress ∧ a.rank < b.rank) →
            ∃ v : State, v.getPart f.part = { q with earlyAborts := (q.earlyAborts.filter fun b => !a.sameInstance b) ++ [a] } ∧
              (∀ p, p ≠ f.part → v.getPart p = s.getPart p) ∧ v = { u with part := v.part } ∧
              (q.image.group a.group = none → exec (.abortRecord port f) s = .next v) ∧
              (∀ g, q.image.group a.group = some g → exec (.abortRecord port f) s =
                .next (v.recordsTo f.part a ((g.tree s.here).filter fun d => some d != some f.src))))))))

/-! ### Twins -/

/-- R301, R340, R354, R355, R356, R282, R406: TWIN_BIND of a LOADED pattern with the twin port UP and regions of at most 1 GiB binds, with 1 it unbinds a LOADED or
HALTED one, and what stands against it is its status; on a parked package it is acknowledged, the package wakes and the final OK waits for it. TWIN_SHED of a
bound or SOLO partition and TWIN_REJOIN of a SOLO one with a state ring hold the announcement with the next number, send it on every port that carries
broadcasts and answer OK; nearer than 50,000 stitches they are BAD_PARAM, a 65th is BUSY. -/
def Obligations.TwinCommandsAct : Prop :=
  ∀ (s : State) (ch : Nat) (h : Held) (b : List Byte) (q : Partition), q = s.getPart h.part →
    (Commanded s 0x0801 ch h b →
      (1 < fld b 0 4 → exec (.twinBind ch) s = .next (s.answer ch .badParam [])) ∧
      (fld b 0 4 = 1 → q.pat ≠ .loaded → q.pat ≠ .halted → exec (.twinBind ch) s = .next (s.answer ch .notPermitted [])) ∧
      (fld b 0 4 = 0 → q.pat ≠ .loaded → exec (.twinBind ch) s = .next (s.answer ch .notPermitted [])) ∧
      (fld b 0 4 = 0 → q.pat = .loaded → (s.getPort 12).state ≠ .up ∨ (s.getPort 12).marked = true →
        exec (.twinBind ch) s = .next (s.answer ch .linkAbsent [])) ∧
      (fld b 0 4 = 0 → q.pat = .loaded → (s.getPort 12).state = .up → (s.getPort 12).marked = false →
        q.image.regions = [] ∨ gib < (q.image.regions.map (·.length)).sum → exec (.twinBind ch) s = .next (s.answer ch .refusedShape [])) ∧
      (∀ st, fld b 0 4 = 1 ∧ (q.pat = .loaded ∨ q.pat = .halted) ∧ st = .unbound ∨
          fld b 0 4 = 0 ∧ q.pat = .loaded ∧ (s.getPort 12).state = .up ∧ (s.getPort 12).marked = false ∧ q.image.regions ≠ [] ∧
            (q.image.regions.map (·.length)).sum ≤ gib ∧ st = .bound → ∃ u : State,
        u.getPart h.part = { q with twin := { q.twin with
          state := st, own := [], peer := [], due := none, sentAt := none, waiting := false } } ∧
        (∀ p, p ≠ h.part → u.getPart p = s.getPart p) ∧ u = { s with part := u.part } ∧
        (s.aon.park = .no → exec (.twinBind ch) s = .next (u.answer ch .ok [])) ∧
        (s.aon.park = .waking → exec (.twinBind ch) s = .next { u.accept ch with waking := s.waking ++ [(ch, .ok)] }) ∧
        (s.aon.park = .parked → ∃ t : State, exec (.twinBind ch) s = .next t ∧ t.getPart h.part = u.getPart h.part ∧ t.aon.park = .waking ∧
          t.waking = s.waking ++ [(ch, .ok)] ∧ (t.getChan ch).held = some { h with stepped := true, acked := true } ∧
          (∀ p, p ≠ h.part → t.getPart p = s.getPart p) ∧ t.far = s.far))) ∧
    (∀ (c : Instr) (op hold index : Nat),
      (Commanded s 0x0802 ch h b ∧ c = .twinShed ch ∧ op = fld b 8 1 ∧ hold = 0 ∧ index = fld b 9 1 ∧ q.holds = true ∧ q.twin.state ≠ .unbound ∧
        1 ≤ op ∧ op ≤ 2 ∧ index = s.twinIndex ∧ zeros b 0xA 0x10 = true) ∨
      (Commanded s 0x0803 ch h b ∧ c = .twinRejoin ch ∧ op = 3 ∧ hold = fld b 8 4 ∧ index = s.twinIndex ∧ q.twin.state = .solo ∧ q.tcb.slotBytes ≠ 0 ∧
        1024 ≤ hold ∧ hold ≤ 2 ^ 31 ∧ zeros b 0xC 0x10 = true) →
      (s.sync.stitch + 50000 ≤ fld b 0 8 → s.anns.held.length < 64 → ∃ (t : State) (a : Ann), exec c s = .next (t.answer ch .ok []) ∧
        t.anns = { s.anns with
          held := s.anns.held ++ [a], known := s.anns.known ++ [(s.here, s.anns.seq, fld b 0 8)], seq := (s.anns.seq + 1) % 2 ^ 32 } ∧
        a.effective = fld b 0 8 ∧ a.due = fld b 0 8 ∧ a.seq = s.anns.seq ∧ a.origin = s.here ∧ a.atype = 2 ∧ a.body.length = 112 ∧
        fld a.body 0 1 = op ∧ fld a.body 1 1 = h.part % 256 ∧ fld a.body 2 1 = index % 256 ∧ fld a.body 4 4 = hold ∧ zeros a.body 8 112 = true ∧
        (∀ p, p < 12 → (s.getPort p).state = .up → s.isSelvage p = false → t.getPort p = { s.getPort p with
          tx := (s.getPort p).tx ++ [{ dst := neighbour s.size s.here (s.dirOf p), src := s.here, kind := 5, vl := 2, payload := a.bytes }] }) ∧
        (∀ p, 12 ≤ p ∨ (s.getPort p).state ≠ .up ∨ s.isSelvage p = true → t.getPort p = s.getPort p) ∧
        t = { s with anns := t.anns, links := { s.links with port := t.links.port } }) ∧
      (fld b 0 8 < s.sync.stitch + 50000 → exec c s = .next (s.answer ch .badParam [])) ∧
      (s.sync.stitch + 50000 ≤ fld b 0 8 → 64 ≤ s.anns.held.length → exec c s = .next (s.answer ch .busy []))) ∧
    (Commanded s 0x0802 ch h b →
      (q.holds = false ∨ q.twin.state = .unbound → exec (.twinShed ch) s = .next (s.answer ch .notPermitted [])) ∧
      (q.holds = true → q.twin.state ≠ .unbound → fld b 8 1 < 1 ∨ 2 < fld b 8 1 ∨ fld b 9 1 ≠ s.twinIndex ∨ zeros b 0xA 0x10 = false →
        exec (.twinShed ch) s = .next (s.answer ch .badParam []))) ∧
    (Commanded s 0x0803 ch h b →
      (q.twin.state ≠ .solo → exec (.twinRejoin ch) s = .next (s.answer ch .notPermitted [])) ∧
      (q.twin.state = .solo → q.tcb.slotBytes = 0 ∨ fld b 8 4 < 1024 ∨ 2 ^ 31 < fld b 8 4 ∨ zeros b 0xC 0x10 = false →
        exec (.twinRejoin ch) s = .next (s.answer ch .badParam [])))

/-- R302, R303, R304, R305, R430: after a commit a bound partition sends its record on the twin port; the peer's record of a step with an own one is compared, a later
one is held, and one of a lower step without an own record is a mismatch: equal records count as a match, others count as a mismatch, mark the next vote, set the cause and
are both logged. Without a record of the peer COLL_TIMEOUT after the own one the partition is SOLO. R357, R358, R359, R360: the data of a TWIN_COPY frame land
at their offset in a bound partition whose pattern is LOADED, and the end frame that agrees completes the copy; for any other partition the frame is discarded and counted. At
the base of the next step a copy still being sent fails: its frames leave the queue, and the failure is counted and set as a cause.
The model's own choices in it: log entry 52. -/
def Obligations.TwinComparisonAndCopy : Prop :=
  (∀ (s : State) (p : Nat) (w : Twin), w = (s.getPart p).twin →
    (w.due = none ∨ w.own = [] ∨ w.state ≠ .bound → exec (.signatureSend p) s = .next s) ∧
    (∀ k o rest, w.due = some k → w.own = o :: rest → w.state = .bound → ∃ u : State, u = s.enqueue 12
        { dst := s.here, src := s.here, part := p, kind := 0xA, vl := 2
          payload := record 48 [⟨0, 8, o.patternId⟩, ⟨8, 8, o.step⟩, ⟨16, 8, o.updates⟩, ⟨24, 16, o.sig⟩, ⟨40, 1, s.twinIndex⟩] } ∧
      ∃ t : State, exec (.signatureSend p) s = .next t ∧
        TwinChanged u t p { w with due := none, sentAt := if w.waiting = true then some s.sync.stitch else none } ∧ t = { u with part := t.part }) ∧
    (∀ (f : Frame) (r : SigRec) (u : State), f.kind = 0xA → f.arg = 0 → f.part = p → Deliverable s 12 f → r = sigParse f.payload → u = s.takeRx 12 f →
      (w.state ≠ .bound → exec (.twinSigFrame f) s = .next u) ∧
      (w.state = .bound →
        (w.own.find? (fun (y : SigRec) => y.step == r.step) = none →
          (s.getPart p).tcb.committedStep = 2 ^ 64 - 1 ∨ (s.getPart p).tcb.committedStep < r.step → ∃ t : State, exec (.twinSigFrame f) s = .next t ∧
            TwinChanged u t p { w with peer := w.peer ++ [r] } ∧ t = { u with part := t.part }) ∧
        (∀ o : SigRec, w.own.find? (fun (y : SigRec) => y.step == r.step) = some o → o.patternId = r.patternId → o.updates = r.updates → o.sig = r.sig →
          ∃ t : State, exec (.twinSigFrame f) s = .next t ∧ TwinChanged u t p { w with
            lastCompared := r.step, sentAt := none, waiting := false, comparedAt := some s.aon.ticks
            matches_ := satAdd 64 w.matches_ 1 } ∧ t = { u with part := t.part }) ∧
        ((∃ o : SigRec, w.own.find? (fun (y : SigRec) => y.step == r.step) = some o ∧ ¬ (o.patternId = r.patternId ∧ o.updates = r.updates ∧ o.sig = r.sig)) ∨
          w.own.find? (fun (y : SigRec) => y.step == r.step) = none ∧ (s.getPart p).tcb.committedStep ≠ 2 ^ 64 - 1 ∧
            r.step ≤ (s.getPart p).tcb.committedStep → ∃ (t : State) (e : LogEntry), exec (.twinSigFrame f) s = .next t ∧
          t.getPart p = { s.getPart p with
            twin := { w with lastCompared := r.step, sentAt := none, waiting := false, mismatches := satAdd 64 w.mismatches 1 }
            run := { (s.getPart p).run with sig := true } } ∧ (∀ q, q ≠ p → t.getPart q = s.getPart q) ∧
          (s.irq.status.length = 11 → t.caused .mismatch) ∧ t.newest = some e ∧ e.kind = 4 ∧ e.code = .signatureMismatch ∧ e.part = p ∧ e.unit = 1 ∧
          e.seq = s.faults.next + 1 ∧ fld e.detail 0 8 = r.step % 2 ^ 64 ∧ fld e.detail 8 8 = r.updates % 2 ^ 64 ∧
          (∃ d ∈ t.faults.log, d.seq = s.faults.next ∧ d.kind = 4 ∧ d.code = .signatureMismatch ∧ d.part = p ∧ d.unit = 0) ∧
          t = { u with part := t.part, faults := t.faults, irq := t.irq, pcie := t.pcie, out := t.out }))) ∧
    (∀ f : Frame, f.kind ≠ 0xA → exec (.twinSigFrame f) s = .next s) ∧
    (w.sentAt = none ∨ w.state ≠ .bound ∨ w.waiting = false ∨ (∃ k, w.sentAt = some k ∧ s.sync.stitch < k + (s.getPart p).image.collTimeout) →
      exec (.peerRecordDeadline p) s = .next s) ∧
    (∀ k, w.sentAt = some k → w.state = .bound → w.waiting = true → k + (s.getPart p).image.collTimeout ≤ s.sync.stitch → ∃ t : State,
      exec (.peerRecordDeadline p) s = .next t ∧
        TwinChanged s t p { w with
          state := .solo, due := none, sentAt := none, waiting := false, soloNext := false, timeouts := satAdd 64 w.timeouts 1 } ∧
        (s.irq.status.length = 11 → t.caused .solo) ∧ t = { s with part := t.part, irq := t.irq, pcie := t.pcie, out := t.out })) ∧
  (∀ (s : State) (p : Nat) (w : Twin), w = (s.getPart p).twin →
    (∀ f : Frame, f.kind ≠ 0xB → exec (.twinCopyFrame f) s = .next s) ∧
    (∀ (f : Frame) (space off seq : Nat) (d : List Byte) (u : State), f.kind = 0xB → f.part = p → Deliverable s 12 f → space = fld f.payload 8 1 →
      off = fld f.payload 0 8 → seq = fld f.payload 12 4 → d = f.payload.drop 16 → u = s.takeRx 12 f →
      (w.state ≠ .bound ∨ (s.getPart p).pat ≠ .loaded → ∃ t : State, exec (.twinCopyFrame f) s = .next t ∧
        TwinChanged u t p { w with discarded := satAdd 32 w.discarded 1 } ∧ t = { u with part := t.part }) ∧
      (w.state = .bound → (s.getPart p).pat = .loaded →
        (space ≠ 0xFE → ∃ (t : State) (had size : Nat), exec (.twinCopyFrame f) s = .next t ∧ had = (if seq = 0 then 0 else w.copyDone) ∧
          size = (if seq = 0 then 0 else w.copyBytes) ∧
          TwinChanged u t p { w with
            copy := .receiving, copyDone := satAdd 64 had d.length, copyBytes := satAdd 64 size d.length } ∧
          ((space = 1 ∨ space = 2) ∧ off + d.length ≤ (s.getPart p).spaceSize space →
            t.far.readN ((s.getPart p).spaceBase p space + off) d.length = d ∧
            ∀ a, a < (s.getPart p).spaceBase p space + off ∨ (s.getPart p).spaceBase p space + off + d.length ≤ a → t.far.read a = s.far.read a) ∧
          (space ≠ 1 ∧ space ≠ 2 ∨ (s.getPart p).spaceSize space < off + d.length → t.far = s.far) ∧ t = { u with far := t.far, part := t.part }) ∧
        (space = 0xFE → fld d 0 8 = (s.getPart p).image.patternId → fld d 8 8 = w.copyDone → ∃ t : State, exec (.twinCopyFrame f) s = .next t ∧
          TwinChanged u t p { w with copy := .complete } ∧ (s.irq.status.length = 11 → t.caused .copyDone) ∧
          t.far.readN ((s.getPart p).spaceBase p 1 + 0x40) 8 = leBytes 8 (fld d 16 8) ∧
          (∀ a, a < (s.getPart p).spaceBase p 1 + 0x40 ∨ (s.getPart p).spaceBase p 1 + 0x48 ≤ a → t.far.read a = s.far.read a) ∧
          t = { u with far := t.far, part := t.part, irq := t.irq, pcie := t.pcie, out := t.out }) ∧
        (space = 0xFE → fld d 0 8 ≠ (s.getPart p).image.patternId ∨ fld d 8 8 ≠ w.copyDone → ∃ t : State, exec (.twinCopyFrame f) s = .next t ∧
          TwinChanged u t p { w with copy := .failed } ∧ (s.irq.status.length = 11 → t.caused .copyFail) ∧
          t = { u with part := t.part, irq := t.irq, pcie := t.pcie, out := t.out }))) ∧
    (w.copy ≠ .sending ∨ (s.getPart p).run.next = none ∧ (s.getPart p).run.decided = true ∨
      (∃ b, (s.getPart p).run.next = some b ∧ s.sync.stitch < b) → exec (.donorCopyDeadline p) s = .next s) ∧
    (w.copy = .sending → (∃ b, (s.getPart p).run.next = some b ∧ b ≤ s.sync.stitch) ∨
        (s.getPart p).run.next = none ∧ (s.getPart p).run.decided = false → ∃ t : State, exec (.donorCopyDeadline p) s = .next t ∧
      t.getPort 12 = { s.getPort 12 with tx := (s.getPort 12).tx.filter fun (g : Frame) => !(g.kind == 0xB && g.part == p) } ∧
      TwinChanged s t p { w with copy := .failed, copyFails := satAdd 32 w.copyFails 1 } ∧
      (s.irq.status.length = 11 → t.caused .copyFail) ∧ (∀ q, q ≠ 12 → t.getPort q = s.getPort q) ∧
      t = { s with part := t.part, links := { s.links with port := t.links.port }, irq := t.irq, pcie := t.pcie, out := t.out }))

/-! ### What every step keeps -/

/-- Reset leaves every memory in its canonical form and every register file of its size.
The model's own choices in it: log entry 45. -/
def Obligations.ResetIsWellFormed : Prop := State.reset.wellFormed

/-- R210 and R211: whatever the command, a step from a state whose memories are in canonical form (no byte listed that an unlisted one would
read as, no address twice, in order), whose context table is, and whose register files have their sizes, leaves such a state.
The model's own choices in it: log entry 45. -/
def Obligations.StepKeepsWellFormed : Prop := ∀ s t : State, s.wellFormed → step s = .next t → t.wellFormed
end

