-- ==== Sys2Proof/Laws/Tab.lean ====
section
/-! SUPPORT. What the sparse tables and byte memories do: a read after a write, the other keys, and the canonical form kept. -/

namespace Sys2Proof.Machine

/-! ### One key -/

theorem Tab.get_ins_same {α : Type} (d v : α) (t : Tab α) (k : Nat) : Tab.get d (Tab.ins k v (Tab.del k t)) k = v := by
  have h : ∀ u : Tab α, (∀ c ∈ u, c.1 ≠ k) → Tab.get d (Tab.ins k v u) k = v := by
    intro u
    induction u with
    | nil => intro _; simp [Tab.ins, Tab.get]
    | cons c u ih =>
      intro hu
      have hc : c.1 ≠ k := hu c (by simp)
      have hr : ∀ x ∈ u, x.1 ≠ k := fun x hx => hu x (by simp [hx])
      by_cases hk : k < c.1
      · simp [Tab.ins, hk, Tab.get]
      · simp [Tab.ins, hk, Tab.get, hc, ih hr]
  apply h
  intro c hc
  simp [Tab.del, List.mem_filter] at hc
  exact hc.2

theorem Tab.get_ins_ne {α : Type} (d v : α) (t : Tab α) {k j : Nat} (h : j ≠ k) : Tab.get d (Tab.ins k v t) j = Tab.get d t j := by
  induction t with
  | nil => simp [Tab.ins, Tab.get, Ne.symm h]
  | cons c t ih =>
    by_cases hk : k < c.1
    · simp [Tab.ins, hk, Tab.get, Ne.symm h]
    · simp [Tab.ins, hk, Tab.get, ih]

theorem Tab.get_filter {α : Type} (d : α) (p : Nat → Bool) (t : Tab α) (j : Nat) :
    Tab.get d (t.filter fun c => p c.1) j = if p j then Tab.get d t j else d := by
  induction t with
  | nil => simp [Tab.get]
  | cons c t ih =>
    by_cases hp : p c.1 = true
    · rw [List.filter_cons_of_pos (by simpa using hp)]
      simp only [Tab.get]
      by_cases hc : c.1 = j
      · subst hc; simp [hp]
      · simp only [hc, if_false]; exact ih
    · rw [List.filter_cons_of_neg (by simpa using hp)]
      simp only [Tab.get]
      by_cases hc : c.1 = j
      · subst hc; simp [ih, hp]
      · simp only [hc, if_false]; exact ih

theorem Tab.get_del {α : Type} (d : α) (t : Tab α) (k j : Nat) : Tab.get d (Tab.del k t) j = if j = k then d else Tab.get d t j := by
  have h := Tab.get_filter d (fun x => x != k) t j
  unfold Tab.del
  rw [h]
  by_cases hj : j = k <;> simp [hj]

/-- A read after a write of one key gives the value; another key reads as before. -/
theorem Tab.get_set {α : Type} [DecidableEq α] (d : α) (t : Tab α) (k j : Nat) (v : α) :
    Tab.get d (Tab.set d t k v) j = if j = k then v else Tab.get d t j := by
  unfold Tab.set
  by_cases hv : v = d
  · subst hv; simp [Tab.get_del]
  · by_cases hj : j = k
    · subst hj; simp [hv, Tab.get_ins_same]
    · simp [hv, hj, Tab.get_ins_ne, Tab.get_del]

@[simp] theorem Tab.get_set_same {α : Type} [DecidableEq α] (d : α) (t : Tab α) (k : Nat) (v : α) : Tab.get d (Tab.set d t k v) k = v := by
  simp [Tab.get_set]

theorem Tab.get_set_ne {α : Type} [DecidableEq α] (d : α) (t : Tab α) {k j : Nat} (v : α) (h : j ≠ k) :
    Tab.get d (Tab.set d t k v) j = Tab.get d t j := by
  simp [Tab.get_set, h]

/-- A read after a change of one key. -/
theorem Tab.get_upd {α : Type} [DecidableEq α] (d : α) (t : Tab α) (k j : Nat) (f : α → α) :
    Tab.get d (Tab.upd d t k f) j = if j = k then f (Tab.get d t k) else Tab.get d t j := by
  simp [Tab.upd, Tab.get_set]

@[simp] theorem Tab.get_upd_same {α : Type} [DecidableEq α] (d : α) (t : Tab α) (k : Nat) (f : α → α) :
    Tab.get d (Tab.upd d t k f) k = f (Tab.get d t k) := by
  simp [Tab.get_upd]

theorem Tab.get_upd_ne {α : Type} [DecidableEq α] (d : α) (t : Tab α) {k j : Nat} (f : α → α) (h : j ≠ k) :
    Tab.get d (Tab.upd d t k f) j = Tab.get d t j := by
  simp [Tab.get_upd, h]

/-- A cleared range reads the default, and the keys outside it as before. -/
theorem Tab.get_clear {α : Type} (d : α) (lo n : Nat) (t : Tab α) (j : Nat) :
    Tab.get d (Tab.clear lo n t) j = if j < lo ∨ lo + n ≤ j then Tab.get d t j else d := by
  unfold Tab.clear
  rw [Tab.get_filter d (fun x => decide (x < lo ∨ lo + n ≤ x)) t j]
  by_cases h : j < lo ∨ lo + n ≤ j <;> simp [h]

/-- A map that keeps the keys and the default acts on every value read. -/
theorem Tab.get_map {α : Type} (d : α) (f : α → α) (t : Tab α) (j : Nat) (h : f d = d) :
    Tab.get d (t.map fun c => (c.1, f c.2)) j = f (Tab.get d t j) := by
  induction t with
  | nil => simp [Tab.get, h]
  | cons c t ih =>
    by_cases hc : c.1 = j
    · simp [Tab.get, hc]
    · simp [Tab.get, hc, ih]

/-! ### The canonical form -/

theorem Tab.wf_nil {α : Type} (d : α) : Tab.wf d ([] : Tab α) := by simp [Tab.wf]

theorem Tab.wf_filter {α : Type} {d : α} {t : Tab α} (p : Nat × α → Bool) (h : Tab.wf d t) : Tab.wf d (t.filter p) :=
  ⟨h.1.filter _, fun c hc => h.2 c (List.mem_filter.1 hc).1⟩

theorem Tab.mem_ins {α : Type} {k : Nat} {v : α} {t : Tab α} {x : Nat × α} (h : x ∈ Tab.ins k v t) : x = (k, v) ∨ x ∈ t := by
  induction t with
  | nil => simp [Tab.ins] at h; exact .inl h
  | cons c t ih =>
    by_cases hk : k < c.1
    · simp [Tab.ins, hk] at h; rcases h with h | h | h <;> simp [h]
    · simp [Tab.ins, hk] at h
      rcases h with h | h
      · simp [h]
      · rcases ih h with h | h <;> simp [h]

theorem Tab.wf_ins {α : Type} {d v : α} {t : Tab α} {k : Nat} (hv : v ≠ d) (h : Tab.wf d t) (hk : ∀ c ∈ t, c.1 ≠ k) :
    Tab.wf d (Tab.ins k v t) := by
  refine ⟨?_, fun c hc => ?_⟩
  · have h1 := h.1
    clear h
    induction t with
    | nil => simp [Tab.ins]
    | cons c t ih =>
      have hc : c.1 ≠ k := hk c (by simp)
      rw [List.pairwise_cons] at h1
      by_cases hlt : k < c.1
      · simp only [Tab.ins, hlt, if_true, List.pairwise_cons]
        refine ⟨fun x hx => ?_, h1⟩
        rcases List.mem_cons.1 hx with hx | hx
        · rw [hx]; exact hlt
        · exact Nat.lt_trans hlt (h1.1 x hx)
      · simp only [Tab.ins, hlt, if_false, List.pairwise_cons]
        refine ⟨fun x hx => ?_, ih (fun x hx => hk x (by simp [hx])) h1.2⟩
        rcases Tab.mem_ins hx with hx | hx
        · rw [hx]; show c.1 < k; omega
        · exact h1.1 x hx
  · rcases Tab.mem_ins hc with hx | hx
    · rw [hx]; exact hv
    · exact h.2 c hx

/-- Every write of a key keeps the canonical form. -/
theorem Tab.wf_set {α : Type} [DecidableEq α] {d : α} {t : Tab α} (k : Nat) (v : α) (h : Tab.wf d t) : Tab.wf d (Tab.set d t k v) := by
  unfold Tab.set
  split
  · exact Tab.wf_filter _ h
  · next hv =>
    refine Tab.wf_ins hv (Tab.wf_filter _ h) fun c hc => ?_
    simp [Tab.del, List.mem_filter] at hc
    exact hc.2

theorem Tab.wf_upd {α : Type} [DecidableEq α] {d : α} {t : Tab α} (k : Nat) (f : α → α) (h : Tab.wf d t) : Tab.wf d (Tab.upd d t k f) :=
  Tab.wf_set k _ h

theorem Tab.wf_clear {α : Type} {d : α} {t : Tab α} (lo n : Nat) (h : Tab.wf d t) : Tab.wf d (Tab.clear lo n t) := Tab.wf_filter _ h

/-! ### Byte memories -/

theorem Mem.read_write (m : Mem) (a b : Nat) (v : Byte) : Mem.read (Mem.write m a v) b = if b = a then v else Mem.read m b := by
  simp [Mem.read, Mem.write, Tab.get_set]

/-- A write of a list of bytes: each of its addresses reads its byte, every other address as before. -/
theorem Mem.read_writeN (m : Mem) (a : Nat) (bs : List Byte) (b : Nat) :
    Mem.read (Mem.writeN m a bs) b = if a ≤ b ∧ b < a + bs.length then bs.getD (b - a) 0 else Mem.read m b := by
  induction bs generalizing m a with
  | nil => simp [Mem.writeN]
  | cons x bs ih =>
    simp only [Mem.writeN, ih, Mem.read_write, List.length_cons]
    by_cases h0 : b = a
    · subst h0; simp
    · by_cases h1 : a + 1 ≤ b ∧ b < a + 1 + bs.length
      · have e : b - a = (b - (a + 1)) + 1 := by omega
        rw [if_pos h1, if_pos (by omega), e, List.getD_cons_succ]
      · rw [if_neg h1, if_neg h0, if_neg (by omega)]

theorem Mem.read_writeN_out (m : Mem) (a : Nat) (bs : List Byte) {b : Nat} (h : b < a ∨ a + bs.length ≤ b) :
    Mem.read (Mem.writeN m a bs) b = Mem.read m b := by
  rw [Mem.read_writeN, if_neg (by omega)]

theorem Mem.readN_eq (m : Mem) (a n : Nat) : Mem.readN m a n = (List.range n).map fun i => Mem.read m (a + i) := by
  induction n generalizing a with
  | zero => simp [Mem.readN]
  | succ n ih =>
    simp only [Mem.readN, ih, List.range_succ_eq_map, List.map_cons, List.map_map, Nat.add_zero]
    congr 1
    apply List.map_congr_left
    intro i _
    show Mem.read m (a + 1 + i) = Mem.read m (a + (i + 1))
    congr 1; omega

@[simp] theorem Mem.readN_length (m : Mem) (a n : Nat) : (Mem.readN m a n).length = n := by simp [Mem.readN_eq]

/-- What was written is read back. -/
@[simp] theorem Mem.readN_writeN (m : Mem) (a : Nat) (bs : List Byte) : Mem.readN (Mem.writeN m a bs) a bs.length = bs := by
  rw [Mem.readN_eq]
  apply List.ext_getElem
  · simp
  · intro i h1 h2
    simp only [List.getElem_map, List.getElem_range, Mem.read_writeN]
    simp at h1
    rw [if_pos (by omega)]
    simp [h1]

/-- Part of what was written is read back. -/
theorem Mem.readN_writeN_part (m : Mem) (a o n : Nat) (bs : List Byte) (h : o + n ≤ bs.length) :
    Mem.readN (Mem.writeN m a bs) (a + o) n = (bs.drop o).take n := by
  rw [Mem.readN_eq]
  apply List.ext_getElem
  · simp; omega
  · intro i h1 h2
    simp only [List.getElem_map, List.getElem_range, Mem.read_writeN]
    simp at h1
    rw [if_pos (by omega)]
    have e : a + o + i - a = o + i := by omega
    rw [e, List.getElem_take, List.getElem_drop, List.getD_eq_getElem _ _ (by omega)]

/-- A zero-fill reads zero in its range and leaves the rest. -/
theorem Mem.read_zero (m : Mem) (lo n b : Nat) : Mem.read (Mem.zero m lo n) b = if b < lo ∨ lo + n ≤ b then Mem.read m b else 0 := by
  simp [Mem.read, Mem.zero, Tab.get_clear]

theorem Mem.wf_write {m : Mem} (a : Nat) (v : Byte) (h : Memory.wf m) : Memory.wf (Mem.write m a v) := Tab.wf_set a v h

/-- Every write of bytes keeps the canonical form. -/
theorem Mem.wf_writeN {m : Mem} (a : Nat) (bs : List Byte) (h : Memory.wf m) : Memory.wf (Mem.writeN m a bs) := by
  induction bs generalizing m a with
  | nil => exact h
  | cons x bs ih => exact ih (a + 1) (Mem.wf_write a x h)

/-- Every zero-fill keeps the canonical form. -/
theorem Mem.wf_zero {m : Mem} (lo n : Nat) (h : Memory.wf m) : Memory.wf (Mem.zero m lo n) := Tab.wf_clear lo n h

end Sys2Proof.Machine
end

