-- ==== Sys2Proof/Laws/State.lean ====
section
/-! SUPPORT. One lemma per field and per update of the state: what an update of one table leaves of every other part, and what it puts in
its own. -/

namespace Sys2Proof.Machine

@[simp] theorem State.updPart_pending (i : Nat) (f : Partition → Partition) (s : State) : (State.updPart i f s).pending = s.pending := rfl
@[simp] theorem State.updPart_out (i : Nat) (f : Partition → Partition) (s : State) : (State.updPart i f s).out = s.out := rfl
@[simp] theorem State.updPart_free (i : Nat) (f : Partition → Partition) (s : State) : (State.updPart i f s).free = s.free := rfl
@[simp] theorem State.updPart_aon (i : Nat) (f : Partition → Partition) (s : State) : (State.updPart i f s).aon = s.aon := rfl
@[simp] theorem State.updPart_dies (i : Nat) (f : Partition → Partition) (s : State) : (State.updPart i f s).dies = s.dies := rfl
@[simp] theorem State.updPart_test (i : Nat) (f : Partition → Partition) (s : State) : (State.updPart i f s).test = s.test := rfl
@[simp] theorem State.updPart_tap (i : Nat) (f : Partition → Partition) (s : State) : (State.updPart i f s).tap = s.tap := rfl
@[simp] theorem State.updPart_irq (i : Nat) (f : Partition → Partition) (s : State) : (State.updPart i f s).irq = s.irq := rfl
@[simp] theorem State.updPart_pcie (i : Nat) (f : Partition → Partition) (s : State) : (State.updPart i f s).pcie = s.pcie := rfl
@[simp] theorem State.updPart_chan (i : Nat) (f : Partition → Partition) (s : State) : (State.updPart i f s).chan = s.chan := rfl
@[simp] theorem State.updPart_bulk (i : Nat) (f : Partition → Partition) (s : State) : (State.updPart i f s).bulk = s.bulk := rfl
@[simp] theorem State.updPart_admissions (i : Nat) (f : Partition → Partition) (s : State) : (State.updPart i f s).admissions = s.admissions := rfl
@[simp] theorem State.updPart_loading (i : Nat) (f : Partition → Partition) (s : State) : (State.updPart i f s).loading = s.loading := rfl
@[simp] theorem State.updPart_regulate (i : Nat) (f : Partition → Partition) (s : State) : (State.updPart i f s).regulate = s.regulate := rfl
@[simp] theorem State.updPart_waking (i : Nat) (f : Partition → Partition) (s : State) : (State.updPart i f s).waking = s.waking := rfl
@[simp] theorem State.updPart_ctxWaits (i : Nat) (f : Partition → Partition) (s : State) : (State.updPart i f s).ctxWaits = s.ctxWaits := rfl
@[simp] theorem State.updPart_far (i : Nat) (f : Partition → Partition) (s : State) : (State.updPart i f s).far = s.far := rfl
@[simp] theorem State.updPart_ctx (i : Nat) (f : Partition → Partition) (s : State) : (State.updPart i f s).ctx = s.ctx := rfl
@[simp] theorem State.updPart_frond (i : Nat) (f : Partition → Partition) (s : State) : (State.updPart i f s).frond = s.frond := rfl
@[simp] theorem State.updPart_store (i : Nat) (f : Partition → Partition) (s : State) : (State.updPart i f s).store = s.store := rfl
@[simp] theorem State.updPart_localStore (i : Nat) (f : Partition → Partition) (s : State) : (State.updPart i f s).localStore = s.localStore := rfl
@[simp] theorem State.updPart_links (i : Nat) (f : Partition → Partition) (s : State) : (State.updPart i f s).links = s.links := rfl
@[simp] theorem State.updPart_cmap (i : Nat) (f : Partition → Partition) (s : State) : (State.updPart i f s).cmap = s.cmap := rfl
@[simp] theorem State.updPart_reqId (i : Nat) (f : Partition → Partition) (s : State) : (State.updPart i f s).reqId = s.reqId := rfl
@[simp] theorem State.updPart_sync (i : Nat) (f : Partition → Partition) (s : State) : (State.updPart i f s).sync = s.sync := rfl
@[simp] theorem State.updPart_anns (i : Nat) (f : Partition → Partition) (s : State) : (State.updPart i f s).anns = s.anns := rfl
@[simp] theorem State.updPart_rate (i : Nat) (f : Partition → Partition) (s : State) : (State.updPart i f s).rate = s.rate := rfl
@[simp] theorem State.updPart_faults (i : Nat) (f : Partition → Partition) (s : State) : (State.updPart i f s).faults = s.faults := rfl
@[simp] theorem State.updPart_mem (i : Nat) (f : Partition → Partition) (s : State) : (State.updPart i f s).mem = s.mem := rfl
@[simp] theorem State.updPart_dom (i : Nat) (f : Partition → Partition) (s : State) : (State.updPart i f s).dom = s.dom := rfl
@[simp] theorem State.updPart_getChan (i : Nat) (f : Partition → Partition) (s : State) (c : Nat) : (State.updPart i f s).getChan c = s.getChan c := rfl
@[simp] theorem State.updPart_getPort (i : Nat) (f : Partition → Partition) (s : State) (q : Nat) : (State.updPart i f s).getPort q = s.getPort q := rfl
@[simp] theorem State.updPart_getFrond (i : Nat) (f : Partition → Partition) (s : State) (g : Nat) : (State.updPart i f s).getFrond g = s.getFrond g := rfl
@[simp] theorem State.updPart_getCtx (i : Nat) (f : Partition → Partition) (s : State) (j : Nat) : (State.updPart i f s).getCtx j = s.getCtx j := rfl
@[simp] theorem State.updPart_getWin (i : Nat) (f : Partition → Partition) (s : State) (v : Nat) : (State.updPart i f s).getWin v = s.getWin v := rfl
@[simp] theorem State.updPart_getDom (i : Nat) (f : Partition → Partition) (s : State) (e : Nat) : (State.updPart i f s).getDom e = s.getDom e := rfl

@[simp] theorem State.updChan_pending (i : Nat) (f : Channel → Channel) (s : State) : (State.updChan i f s).pending = s.pending := rfl
@[simp] theorem State.updChan_out (i : Nat) (f : Channel → Channel) (s : State) : (State.updChan i f s).out = s.out := rfl
@[simp] theorem State.updChan_free (i : Nat) (f : Channel → Channel) (s : State) : (State.updChan i f s).free = s.free := rfl
@[simp] theorem State.updChan_aon (i : Nat) (f : Channel → Channel) (s : State) : (State.updChan i f s).aon = s.aon := rfl
@[simp] theorem State.updChan_dies (i : Nat) (f : Channel → Channel) (s : State) : (State.updChan i f s).dies = s.dies := rfl
@[simp] theorem State.updChan_test (i : Nat) (f : Channel → Channel) (s : State) : (State.updChan i f s).test = s.test := rfl
@[simp] theorem State.updChan_tap (i : Nat) (f : Channel → Channel) (s : State) : (State.updChan i f s).tap = s.tap := rfl
@[simp] theorem State.updChan_irq (i : Nat) (f : Channel → Channel) (s : State) : (State.updChan i f s).irq = s.irq := rfl
@[simp] theorem State.updChan_pcie (i : Nat) (f : Channel → Channel) (s : State) : (State.updChan i f s).pcie = s.pcie := rfl
@[simp] theorem State.updChan_bulk (i : Nat) (f : Channel → Channel) (s : State) : (State.updChan i f s).bulk = s.bulk := rfl
@[simp] theorem State.updChan_admissions (i : Nat) (f : Channel → Channel) (s : State) : (State.updChan i f s).admissions = s.admissions := rfl
@[simp] theorem State.updChan_loading (i : Nat) (f : Channel → Channel) (s : State) : (State.updChan i f s).loading = s.loading := rfl
@[simp] theorem State.updChan_regulate (i : Nat) (f : Channel → Channel) (s : State) : (State.updChan i f s).regulate = s.regulate := rfl
@[simp] theorem State.updChan_waking (i : Nat) (f : Channel → Channel) (s : State) : (State.updChan i f s).waking = s.waking := rfl
@[simp] theorem State.updChan_ctxWaits (i : Nat) (f : Channel → Channel) (s : State) : (State.updChan i f s).ctxWaits = s.ctxWaits := rfl
@[simp] theorem State.updChan_part (i : Nat) (f : Channel → Channel) (s : State) : (State.updChan i f s).part = s.part := rfl
@[simp] theorem State.updChan_far (i : Nat) (f : Channel → Channel) (s : State) : (State.updChan i f s).far = s.far := rfl
@[simp] theorem State.updChan_ctx (i : Nat) (f : Channel → Channel) (s : State) : (State.updChan i f s).ctx = s.ctx := rfl
@[simp] theorem State.updChan_frond (i : Nat) (f : Channel → Channel) (s : State) : (State.updChan i f s).frond = s.frond := rfl
@[simp] theorem State.updChan_store (i : Nat) (f : Channel → Channel) (s : State) : (State.updChan i f s).store = s.store := rfl
@[simp] theorem State.updChan_localStore (i : Nat) (f : Channel → Channel) (s : State) : (State.updChan i f s).localStore = s.localStore := rfl
@[simp] theorem State.updChan_links (i : Nat) (f : Channel → Channel) (s : State) : (State.updChan i f s).links = s.links := rfl
@[simp] theorem State.updChan_cmap (i : Nat) (f : Channel → Channel) (s : State) : (State.updChan i f s).cmap = s.cmap := rfl
@[simp] theorem State.updChan_reqId (i : Nat) (f : Channel → Channel) (s : State) : (State.updChan i f s).reqId = s.reqId := rfl
@[simp] theorem State.updChan_sync (i : Nat) (f : Channel → Channel) (s : State) : (State.updChan i f s).sync = s.sync := rfl
@[simp] theorem State.updChan_anns (i : Nat) (f : Channel → Channel) (s : State) : (State.updChan i f s).anns = s.anns := rfl
@[simp] theorem State.updChan_rate (i : Nat) (f : Channel → Channel) (s : State) : (State.updChan i f s).rate = s.rate := rfl
@[simp] theorem State.updChan_faults (i : Nat) (f : Channel → Channel) (s : State) : (State.updChan i f s).faults = s.faults := rfl
@[simp] theorem State.updChan_mem (i : Nat) (f : Channel → Channel) (s : State) : (State.updChan i f s).mem = s.mem := rfl
@[simp] theorem State.updChan_dom (i : Nat) (f : Channel → Channel) (s : State) : (State.updChan i f s).dom = s.dom := rfl
@[simp] theorem State.updChan_getPart (i : Nat) (f : Channel → Channel) (s : State) (p : Nat) : (State.updChan i f s).getPart p = s.getPart p := rfl
@[simp] theorem State.updChan_getPort (i : Nat) (f : Channel → Channel) (s : State) (q : Nat) : (State.updChan i f s).getPort q = s.getPort q := rfl
@[simp] theorem State.updChan_getFrond (i : Nat) (f : Channel → Channel) (s : State) (g : Nat) : (State.updChan i f s).getFrond g = s.getFrond g := rfl
@[simp] theorem State.updChan_getCtx (i : Nat) (f : Channel → Channel) (s : State) (j : Nat) : (State.updChan i f s).getCtx j = s.getCtx j := rfl
@[simp] theorem State.updChan_getWin (i : Nat) (f : Channel → Channel) (s : State) (v : Nat) : (State.updChan i f s).getWin v = s.getWin v := rfl
@[simp] theorem State.updChan_getDom (i : Nat) (f : Channel → Channel) (s : State) (e : Nat) : (State.updChan i f s).getDom e = s.getDom e := rfl

@[simp] theorem State.updPort_pending (i : Nat) (f : Port → Port) (s : State) : (State.updPort i f s).pending = s.pending := rfl
@[simp] theorem State.updPort_out (i : Nat) (f : Port → Port) (s : State) : (State.updPort i f s).out = s.out := rfl
@[simp] theorem State.updPort_free (i : Nat) (f : Port → Port) (s : State) : (State.updPort i f s).free = s.free := rfl
@[simp] theorem State.updPort_aon (i : Nat) (f : Port → Port) (s : State) : (State.updPort i f s).aon = s.aon := rfl
@[simp] theorem State.updPort_dies (i : Nat) (f : Port → Port) (s : State) : (State.updPort i f s).dies = s.dies := rfl
@[simp] theorem State.updPort_test (i : Nat) (f : Port → Port) (s : State) : (State.updPort i f s).test = s.test := rfl
@[simp] theorem State.updPort_tap (i : Nat) (f : Port → Port) (s : State) : (State.updPort i f s).tap = s.tap := rfl
@[simp] theorem State.updPort_irq (i : Nat) (f : Port → Port) (s : State) : (State.updPort i f s).irq = s.irq := rfl
@[simp] theorem State.updPort_pcie (i : Nat) (f : Port → Port) (s : State) : (State.updPort i f s).pcie = s.pcie := rfl
@[simp] theorem State.updPort_chan (i : Nat) (f : Port → Port) (s : State) : (State.updPort i f s).chan = s.chan := rfl
@[simp] theorem State.updPort_bulk (i : Nat) (f : Port → Port) (s : State) : (State.updPort i f s).bulk = s.bulk := rfl
@[simp] theorem State.updPort_admissions (i : Nat) (f : Port → Port) (s : State) : (State.updPort i f s).admissions = s.admissions := rfl
@[simp] theorem State.updPort_loading (i : Nat) (f : Port → Port) (s : State) : (State.updPort i f s).loading = s.loading := rfl
@[simp] theorem State.updPort_regulate (i : Nat) (f : Port → Port) (s : State) : (State.updPort i f s).regulate = s.regulate := rfl
@[simp] theorem State.updPort_waking (i : Nat) (f : Port → Port) (s : State) : (State.updPort i f s).waking = s.waking := rfl
@[simp] theorem State.updPort_ctxWaits (i : Nat) (f : Port → Port) (s : State) : (State.updPort i f s).ctxWaits = s.ctxWaits := rfl
@[simp] theorem State.updPort_part (i : Nat) (f : Port → Port) (s : State) : (State.updPort i f s).part = s.part := rfl
@[simp] theorem State.updPort_far (i : Nat) (f : Port → Port) (s : State) : (State.updPort i f s).far = s.far := rfl
@[simp] theorem State.updPort_ctx (i : Nat) (f : Port → Port) (s : State) : (State.updPort i f s).ctx = s.ctx := rfl
@[simp] theorem State.updPort_frond (i : Nat) (f : Port → Port) (s : State) : (State.updPort i f s).frond = s.frond := rfl
@[simp] theorem State.updPort_store (i : Nat) (f : Port → Port) (s : State) : (State.updPort i f s).store = s.store := rfl
@[simp] theorem State.updPort_localStore (i : Nat) (f : Port → Port) (s : State) : (State.updPort i f s).localStore = s.localStore := rfl
@[simp] theorem State.updPort_cmap (i : Nat) (f : Port → Port) (s : State) : (State.updPort i f s).cmap = s.cmap := rfl
@[simp] theorem State.updPort_reqId (i : Nat) (f : Port → Port) (s : State) : (State.updPort i f s).reqId = s.reqId := rfl
@[simp] theorem State.updPort_sync (i : Nat) (f : Port → Port) (s : State) : (State.updPort i f s).sync = s.sync := rfl
@[simp] theorem State.updPort_anns (i : Nat) (f : Port → Port) (s : State) : (State.updPort i f s).anns = s.anns := rfl
@[simp] theorem State.updPort_rate (i : Nat) (f : Port → Port) (s : State) : (State.updPort i f s).rate = s.rate := rfl
@[simp] theorem State.updPort_faults (i : Nat) (f : Port → Port) (s : State) : (State.updPort i f s).faults = s.faults := rfl
@[simp] theorem State.updPort_mem (i : Nat) (f : Port → Port) (s : State) : (State.updPort i f s).mem = s.mem := rfl
@[simp] theorem State.updPort_dom (i : Nat) (f : Port → Port) (s : State) : (State.updPort i f s).dom = s.dom := rfl
@[simp] theorem State.updPort_links_profile (i : Nat) (f : Port → Port) (s : State) : (State.updPort i f s).links.profile = s.links.profile := rfl
@[simp] theorem State.updPort_links_custom (i : Nat) (f : Port → Port) (s : State) : (State.updPort i f s).links.custom = s.links.custom := rfl
@[simp] theorem State.updPort_links_planned (i : Nat) (f : Port → Port) (s : State) : (State.updPort i f s).links.planned = s.links.planned := rfl
@[simp] theorem State.updPort_links_plan (i : Nat) (f : Port → Port) (s : State) : (State.updPort i f s).links.plan = s.links.plan := rfl
@[simp] theorem State.updPort_links_planCh (i : Nat) (f : Port → Port) (s : State) : (State.updPort i f s).links.planCh = s.links.planCh := rfl
@[simp] theorem State.updPort_links_checking (i : Nat) (f : Port → Port) (s : State) : (State.updPort i f s).links.checking = s.links.checking := rfl
@[simp] theorem State.updPort_links_selvage (i : Nat) (f : Port → Port) (s : State) : (State.updPort i f s).links.selvage = s.links.selvage := rfl
@[simp] theorem State.updPort_links_noWrap (i : Nat) (f : Port → Port) (s : State) : (State.updPort i f s).links.noWrap = s.links.noWrap := rfl
@[simp] theorem State.updPort_links_selvNext (i : Nat) (f : Port → Port) (s : State) : (State.updPort i f s).links.selvNext = s.links.selvNext := rfl
@[simp] theorem State.updPort_links_boxes (i : Nat) (f : Port → Port) (s : State) : (State.updPort i f s).links.boxes = s.links.boxes := rfl
@[simp] theorem State.updPort_links_win (i : Nat) (f : Port → Port) (s : State) : (State.updPort i f s).links.win = s.links.win := rfl
@[simp] theorem State.updPort_links_credits (i : Nat) (f : Port → Port) (s : State) : (State.updPort i f s).links.credits = s.links.credits := rfl
@[simp] theorem State.updPort_links_binds (i : Nat) (f : Port → Port) (s : State) : (State.updPort i f s).links.binds = s.links.binds := rfl
@[simp] theorem State.updPort_links_timeouts (i : Nat) (f : Port → Port) (s : State) : (State.updPort i f s).links.timeouts = s.links.timeouts := rfl
@[simp] theorem State.updPort_links_mapSince (i : Nat) (f : Port → Port) (s : State) : (State.updPort i f s).links.mapSince = s.links.mapSince := rfl
@[simp] theorem State.updPort_links_mapBase (i : Nat) (f : Port → Port) (s : State) : (State.updPort i f s).links.mapBase = s.links.mapBase := rfl
@[simp] theorem State.updPort_links_mapPeak (i : Nat) (f : Port → Port) (s : State) : (State.updPort i f s).links.mapPeak = s.links.mapPeak := rfl
@[simp] theorem State.updPort_getPart (i : Nat) (f : Port → Port) (s : State) (p : Nat) : (State.updPort i f s).getPart p = s.getPart p := rfl
@[simp] theorem State.updPort_getChan (i : Nat) (f : Port → Port) (s : State) (c : Nat) : (State.updPort i f s).getChan c = s.getChan c := rfl
@[simp] theorem State.updPort_getFrond (i : Nat) (f : Port → Port) (s : State) (g : Nat) : (State.updPort i f s).getFrond g = s.getFrond g := rfl
@[simp] theorem State.updPort_getCtx (i : Nat) (f : Port → Port) (s : State) (j : Nat) : (State.updPort i f s).getCtx j = s.getCtx j := rfl
@[simp] theorem State.updPort_getWin (i : Nat) (f : Port → Port) (s : State) (v : Nat) : (State.updPort i f s).getWin v = s.getWin v := rfl
@[simp] theorem State.updPort_getDom (i : Nat) (f : Port → Port) (s : State) (e : Nat) : (State.updPort i f s).getDom e = s.getDom e := rfl

@[simp] theorem State.updFrond_pending (i : Nat) (f : Frond → Frond) (s : State) : (State.updFrond i f s).pending = s.pending := rfl
@[simp] theorem State.updFrond_out (i : Nat) (f : Frond → Frond) (s : State) : (State.updFrond i f s).out = s.out := rfl
@[simp] theorem State.updFrond_free (i : Nat) (f : Frond → Frond) (s : State) : (State.updFrond i f s).free = s.free := rfl
@[simp] theorem State.updFrond_aon (i : Nat) (f : Frond → Frond) (s : State) : (State.updFrond i f s).aon = s.aon := rfl
@[simp] theorem State.updFrond_dies (i : Nat) (f : Frond → Frond) (s : State) : (State.updFrond i f s).dies = s.dies := rfl
@[simp] theorem State.updFrond_test (i : Nat) (f : Frond → Frond) (s : State) : (State.updFrond i f s).test = s.test := rfl
@[simp] theorem State.updFrond_tap (i : Nat) (f : Frond → Frond) (s : State) : (State.updFrond i f s).tap = s.tap := rfl
@[simp] theorem State.updFrond_irq (i : Nat) (f : Frond → Frond) (s : State) : (State.updFrond i f s).irq = s.irq := rfl
@[simp] theorem State.updFrond_pcie (i : Nat) (f : Frond → Frond) (s : State) : (State.updFrond i f s).pcie = s.pcie := rfl
@[simp] theorem State.updFrond_chan (i : Nat) (f : Frond → Frond) (s : State) : (State.updFrond i f s).chan = s.chan := rfl
@[simp] theorem State.updFrond_bulk (i : Nat) (f : Frond → Frond) (s : State) : (State.updFrond i f s).bulk = s.bulk := rfl
@[simp] theorem State.updFrond_admissions (i : Nat) (f : Frond → Frond) (s : State) : (State.updFrond i f s).admissions = s.admissions := rfl
@[simp] theorem State.updFrond_loading (i : Nat) (f : Frond → Frond) (s : State) : (State.updFrond i f s).loading = s.loading := rfl
@[simp] theorem State.updFrond_regulate (i : Nat) (f : Frond → Frond) (s : State) : (State.updFrond i f s).regulate = s.regulate := rfl
@[simp] theorem State.updFrond_waking (i : Nat) (f : Frond → Frond) (s : State) : (State.updFrond i f s).waking = s.waking := rfl
@[simp] theorem State.updFrond_ctxWaits (i : Nat) (f : Frond → Frond) (s : State) : (State.updFrond i f s).ctxWaits = s.ctxWaits := rfl
@[simp] theorem State.updFrond_part (i : Nat) (f : Frond → Frond) (s : State) : (State.updFrond i f s).part = s.part := rfl
@[simp] theorem State.updFrond_far (i : Nat) (f : Frond → Frond) (s : State) : (State.updFrond i f s).far = s.far := rfl
@[simp] theorem State.updFrond_ctx (i : Nat) (f : Frond → Frond) (s : State) : (State.updFrond i f s).ctx = s.ctx := rfl
@[simp] theorem State.updFrond_store (i : Nat) (f : Frond → Frond) (s : State) : (State.updFrond i f s).store = s.store := rfl
@[simp] theorem State.updFrond_localStore (i : Nat) (f : Frond → Frond) (s : State) : (State.updFrond i f s).localStore = s.localStore := rfl
@[simp] theorem State.updFrond_links (i : Nat) (f : Frond → Frond) (s : State) : (State.updFrond i f s).links = s.links := rfl
@[simp] theorem State.updFrond_cmap (i : Nat) (f : Frond → Frond) (s : State) : (State.updFrond i f s).cmap = s.cmap := rfl
@[simp] theorem State.updFrond_reqId (i : Nat) (f : Frond → Frond) (s : State) : (State.updFrond i f s).reqId = s.reqId := rfl
@[simp] theorem State.updFrond_sync (i : Nat) (f : Frond → Frond) (s : State) : (State.updFrond i f s).sync = s.sync := rfl
@[simp] theorem State.updFrond_anns (i : Nat) (f : Frond → Frond) (s : State) : (State.updFrond i f s).anns = s.anns := rfl
@[simp] theorem State.updFrond_rate (i : Nat) (f : Frond → Frond) (s : State) : (State.updFrond i f s).rate = s.rate := rfl
@[simp] theorem State.updFrond_faults (i : Nat) (f : Frond → Frond) (s : State) : (State.updFrond i f s).faults = s.faults := rfl
@[simp] theorem State.updFrond_mem (i : Nat) (f : Frond → Frond) (s : State) : (State.updFrond i f s).mem = s.mem := rfl
@[simp] theorem State.updFrond_dom (i : Nat) (f : Frond → Frond) (s : State) : (State.updFrond i f s).dom = s.dom := rfl
@[simp] theorem State.updFrond_getPart (i : Nat) (f : Frond → Frond) (s : State) (p : Nat) : (State.updFrond i f s).getPart p = s.getPart p := rfl
@[simp] theorem State.updFrond_getChan (i : Nat) (f : Frond → Frond) (s : State) (c : Nat) : (State.updFrond i f s).getChan c = s.getChan c := rfl
@[simp] theorem State.updFrond_getPort (i : Nat) (f : Frond → Frond) (s : State) (q : Nat) : (State.updFrond i f s).getPort q = s.getPort q := rfl
@[simp] theorem State.updFrond_getCtx (i : Nat) (f : Frond → Frond) (s : State) (j : Nat) : (State.updFrond i f s).getCtx j = s.getCtx j := rfl
@[simp] theorem State.updFrond_getWin (i : Nat) (f : Frond → Frond) (s : State) (v : Nat) : (State.updFrond i f s).getWin v = s.getWin v := rfl
@[simp] theorem State.updFrond_getDom (i : Nat) (f : Frond → Frond) (s : State) (e : Nat) : (State.updFrond i f s).getDom e = s.getDom e := rfl

@[simp] theorem State.updCtx_pending (i : Nat) (f : Ctx → Ctx) (s : State) : (State.updCtx i f s).pending = s.pending := rfl
@[simp] theorem State.updCtx_out (i : Nat) (f : Ctx → Ctx) (s : State) : (State.updCtx i f s).out = s.out := rfl
@[simp] theorem State.updCtx_free (i : Nat) (f : Ctx → Ctx) (s : State) : (State.updCtx i f s).free = s.free := rfl
@[simp] theorem State.updCtx_aon (i : Nat) (f : Ctx → Ctx) (s : State) : (State.updCtx i f s).aon = s.aon := rfl
@[simp] theorem State.updCtx_dies (i : Nat) (f : Ctx → Ctx) (s : State) : (State.updCtx i f s).dies = s.dies := rfl
@[simp] theorem State.updCtx_test (i : Nat) (f : Ctx → Ctx) (s : State) : (State.updCtx i f s).test = s.test := rfl
@[simp] theorem State.updCtx_tap (i : Nat) (f : Ctx → Ctx) (s : State) : (State.updCtx i f s).tap = s.tap := rfl
@[simp] theorem State.updCtx_irq (i : Nat) (f : Ctx → Ctx) (s : State) : (State.updCtx i f s).irq = s.irq := rfl
@[simp] theorem State.updCtx_pcie (i : Nat) (f : Ctx → Ctx) (s : State) : (State.updCtx i f s).pcie = s.pcie := rfl
@[simp] theorem State.updCtx_chan (i : Nat) (f : Ctx → Ctx) (s : State) : (State.updCtx i f s).chan = s.chan := rfl
@[simp] theorem State.updCtx_bulk (i : Nat) (f : Ctx → Ctx) (s : State) : (State.updCtx i f s).bulk = s.bulk := rfl
@[simp] theorem State.updCtx_admissions (i : Nat) (f : Ctx → Ctx) (s : State) : (State.updCtx i f s).admissions = s.admissions := rfl
@[simp] theorem State.updCtx_loading (i : Nat) (f : Ctx → Ctx) (s : State) : (State.updCtx i f s).loading = s.loading := rfl
@[simp] theorem State.updCtx_regulate (i : Nat) (f : Ctx → Ctx) (s : State) : (State.updCtx i f s).regulate = s.regulate := rfl
@[simp] theorem State.updCtx_waking (i : Nat) (f : Ctx → Ctx) (s : State) : (State.updCtx i f s).waking = s.waking := rfl
@[simp] theorem State.updCtx_ctxWaits (i : Nat) (f : Ctx → Ctx) (s : State) : (State.updCtx i f s).ctxWaits = s.ctxWaits := rfl
@[simp] theorem State.updCtx_part (i : Nat) (f : Ctx → Ctx) (s : State) : (State.updCtx i f s).part = s.part := rfl
@[simp] theorem State.updCtx_far (i : Nat) (f : Ctx → Ctx) (s : State) : (State.updCtx i f s).far = s.far := rfl
@[simp] theorem State.updCtx_frond (i : Nat) (f : Ctx → Ctx) (s : State) : (State.updCtx i f s).frond = s.frond := rfl
@[simp] theorem State.updCtx_store (i : Nat) (f : Ctx → Ctx) (s : State) : (State.updCtx i f s).store = s.store := rfl
@[simp] theorem State.updCtx_localStore (i : Nat) (f : Ctx → Ctx) (s : State) : (State.updCtx i f s).localStore = s.localStore := rfl
@[simp] theorem State.updCtx_links (i : Nat) (f : Ctx → Ctx) (s : State) : (State.updCtx i f s).links = s.links := rfl
@[simp] theorem State.updCtx_cmap (i : Nat) (f : Ctx → Ctx) (s : State) : (State.updCtx i f s).cmap = s.cmap := rfl
@[simp] theorem State.updCtx_reqId (i : Nat) (f : Ctx → Ctx) (s : State) : (State.updCtx i f s).reqId = s.reqId := rfl
@[simp] theorem State.updCtx_sync (i : Nat) (f : Ctx → Ctx) (s : State) : (State.updCtx i f s).sync = s.sync := rfl
@[simp] theorem State.updCtx_anns (i : Nat) (f : Ctx → Ctx) (s : State) : (State.updCtx i f s).anns = s.anns := rfl
@[simp] theorem State.updCtx_rate (i : Nat) (f : Ctx → Ctx) (s : State) : (State.updCtx i f s).rate = s.rate := rfl
@[simp] theorem State.updCtx_faults (i : Nat) (f : Ctx → Ctx) (s : State) : (State.updCtx i f s).faults = s.faults := rfl
@[simp] theorem State.updCtx_mem (i : Nat) (f : Ctx → Ctx) (s : State) : (State.updCtx i f s).mem = s.mem := rfl
@[simp] theorem State.updCtx_dom (i : Nat) (f : Ctx → Ctx) (s : State) : (State.updCtx i f s).dom = s.dom := rfl
@[simp] theorem State.updCtx_getPart (i : Nat) (f : Ctx → Ctx) (s : State) (p : Nat) : (State.updCtx i f s).getPart p = s.getPart p := rfl
@[simp] theorem State.updCtx_getChan (i : Nat) (f : Ctx → Ctx) (s : State) (c : Nat) : (State.updCtx i f s).getChan c = s.getChan c := rfl
@[simp] theorem State.updCtx_getPort (i : Nat) (f : Ctx → Ctx) (s : State) (q : Nat) : (State.updCtx i f s).getPort q = s.getPort q := rfl
@[simp] theorem State.updCtx_getFrond (i : Nat) (f : Ctx → Ctx) (s : State) (g : Nat) : (State.updCtx i f s).getFrond g = s.getFrond g := rfl
@[simp] theorem State.updCtx_getWin (i : Nat) (f : Ctx → Ctx) (s : State) (v : Nat) : (State.updCtx i f s).getWin v = s.getWin v := rfl
@[simp] theorem State.updCtx_getDom (i : Nat) (f : Ctx → Ctx) (s : State) (e : Nat) : (State.updCtx i f s).getDom e = s.getDom e := rfl

@[simp] theorem State.updWin_pending (i : Nat) (f : Window → Window) (s : State) : (State.updWin i f s).pending = s.pending := rfl
@[simp] theorem State.updWin_out (i : Nat) (f : Window → Window) (s : State) : (State.updWin i f s).out = s.out := rfl
@[simp] theorem State.updWin_free (i : Nat) (f : Window → Window) (s : State) : (State.updWin i f s).free = s.free := rfl
@[simp] theorem State.updWin_aon (i : Nat) (f : Window → Window) (s : State) : (State.updWin i f s).aon = s.aon := rfl
@[simp] theorem State.updWin_dies (i : Nat) (f : Window → Window) (s : State) : (State.updWin i f s).dies = s.dies := rfl
@[simp] theorem State.updWin_test (i : Nat) (f : Window → Window) (s : State) : (State.updWin i f s).test = s.test := rfl
@[simp] theorem State.updWin_tap (i : Nat) (f : Window → Window) (s : State) : (State.updWin i f s).tap = s.tap := rfl
@[simp] theorem State.updWin_irq (i : Nat) (f : Window → Window) (s : State) : (State.updWin i f s).irq = s.irq := rfl
@[simp] theorem State.updWin_pcie (i : Nat) (f : Window → Window) (s : State) : (State.updWin i f s).pcie = s.pcie := rfl
@[simp] theorem State.updWin_chan (i : Nat) (f : Window → Window) (s : State) : (State.updWin i f s).chan = s.chan := rfl
@[simp] theorem State.updWin_bulk (i : Nat) (f : Window → Window) (s : State) : (State.updWin i f s).bulk = s.bulk := rfl
@[simp] theorem State.updWin_admissions (i : Nat) (f : Window → Window) (s : State) : (State.updWin i f s).admissions = s.admissions := rfl
@[simp] theorem State.updWin_loading (i : Nat) (f : Window → Window) (s : State) : (State.updWin i f s).loading = s.loading := rfl
@[simp] theorem State.updWin_regulate (i : Nat) (f : Window → Window) (s : State) : (State.updWin i f s).regulate = s.regulate := rfl
@[simp] theorem State.updWin_waking (i : Nat) (f : Window → Window) (s : State) : (State.updWin i f s).waking = s.waking := rfl
@[simp] theorem State.updWin_ctxWaits (i : Nat) (f : Window → Window) (s : State) : (State.updWin i f s).ctxWaits = s.ctxWaits := rfl
@[simp] theorem State.updWin_part (i : Nat) (f : Window → Window) (s : State) : (State.updWin i f s).part = s.part := rfl
@[simp] theorem State.updWin_far (i : Nat) (f : Window → Window) (s : State) : (State.updWin i f s).far = s.far := rfl
@[simp] theorem State.updWin_ctx (i : Nat) (f : Window → Window) (s : State) : (State.updWin i f s).ctx = s.ctx := rfl
@[simp] theorem State.updWin_frond (i : Nat) (f : Window → Window) (s : State) : (State.updWin i f s).frond = s.frond := rfl
@[simp] theorem State.updWin_store (i : Nat) (f : Window → Window) (s : State) : (State.updWin i f s).store = s.store := rfl
@[simp] theorem State.updWin_localStore (i : Nat) (f : Window → Window) (s : State) : (State.updWin i f s).localStore = s.localStore := rfl
@[simp] theorem State.updWin_cmap (i : Nat) (f : Window → Window) (s : State) : (State.updWin i f s).cmap = s.cmap := rfl
@[simp] theorem State.updWin_reqId (i : Nat) (f : Window → Window) (s : State) : (State.updWin i f s).reqId = s.reqId := rfl
@[simp] theorem State.updWin_sync (i : Nat) (f : Window → Window) (s : State) : (State.updWin i f s).sync = s.sync := rfl
@[simp] theorem State.updWin_anns (i : Nat) (f : Window → Window) (s : State) : (State.updWin i f s).anns = s.anns := rfl
@[simp] theorem State.updWin_rate (i : Nat) (f : Window → Window) (s : State) : (State.updWin i f s).rate = s.rate := rfl
@[simp] theorem State.updWin_faults (i : Nat) (f : Window → Window) (s : State) : (State.updWin i f s).faults = s.faults := rfl
@[simp] theorem State.updWin_mem (i : Nat) (f : Window → Window) (s : State) : (State.updWin i f s).mem = s.mem := rfl
@[simp] theorem State.updWin_dom (i : Nat) (f : Window → Window) (s : State) : (State.updWin i f s).dom = s.dom := rfl
@[simp] theorem State.updWin_links_profile (i : Nat) (f : Window → Window) (s : State) : (State.updWin i f s).links.profile = s.links.profile := rfl
@[simp] theorem State.updWin_links_custom (i : Nat) (f : Window → Window) (s : State) : (State.updWin i f s).links.custom = s.links.custom := rfl
@[simp] theorem State.updWin_links_planned (i : Nat) (f : Window → Window) (s : State) : (State.updWin i f s).links.planned = s.links.planned := rfl
@[simp] theorem State.updWin_links_plan (i : Nat) (f : Window → Window) (s : State) : (State.updWin i f s).links.plan = s.links.plan := rfl
@[simp] theorem State.updWin_links_planCh (i : Nat) (f : Window → Window) (s : State) : (State.updWin i f s).links.planCh = s.links.planCh := rfl
@[simp] theorem State.updWin_links_checking (i : Nat) (f : Window → Window) (s : State) : (State.updWin i f s).links.checking = s.links.checking := rfl
@[simp] theorem State.updWin_links_port (i : Nat) (f : Window → Window) (s : State) : (State.updWin i f s).links.port = s.links.port := rfl
@[simp] theorem State.updWin_links_selvage (i : Nat) (f : Window → Window) (s : State) : (State.updWin i f s).links.selvage = s.links.selvage := rfl
@[simp] theorem State.updWin_links_noWrap (i : Nat) (f : Window → Window) (s : State) : (State.updWin i f s).links.noWrap = s.links.noWrap := rfl
@[simp] theorem State.updWin_links_selvNext (i : Nat) (f : Window → Window) (s : State) : (State.updWin i f s).links.selvNext = s.links.selvNext := rfl
@[simp] theorem State.updWin_links_boxes (i : Nat) (f : Window → Window) (s : State) : (State.updWin i f s).links.boxes = s.links.boxes := rfl
@[simp] theorem State.updWin_links_credits (i : Nat) (f : Window → Window) (s : State) : (State.updWin i f s).links.credits = s.links.credits := rfl
@[simp] theorem State.updWin_links_binds (i : Nat) (f : Window → Window) (s : State) : (State.updWin i f s).links.binds = s.links.binds := rfl
@[simp] theorem State.updWin_links_timeouts (i : Nat) (f : Window → Window) (s : State) : (State.updWin i f s).links.timeouts = s.links.timeouts := rfl
@[simp] theorem State.updWin_links_mapSince (i : Nat) (f : Window → Window) (s : State) : (State.updWin i f s).links.mapSince = s.links.mapSince := rfl
@[simp] theorem State.updWin_links_mapBase (i : Nat) (f : Window → Window) (s : State) : (State.updWin i f s).links.mapBase = s.links.mapBase := rfl
@[simp] theorem State.updWin_links_mapPeak (i : Nat) (f : Window → Window) (s : State) : (State.updWin i f s).links.mapPeak = s.links.mapPeak := rfl
@[simp] theorem State.updWin_getPart (i : Nat) (f : Window → Window) (s : State) (p : Nat) : (State.updWin i f s).getPart p = s.getPart p := rfl
@[simp] theorem State.updWin_getChan (i : Nat) (f : Window → Window) (s : State) (c : Nat) : (State.updWin i f s).getChan c = s.getChan c := rfl
@[simp] theorem State.updWin_getPort (i : Nat) (f : Window → Window) (s : State) (q : Nat) : (State.updWin i f s).getPort q = s.getPort q := rfl
@[simp] theorem State.updWin_getFrond (i : Nat) (f : Window → Window) (s : State) (g : Nat) : (State.updWin i f s).getFrond g = s.getFrond g := rfl
@[simp] theorem State.updWin_getCtx (i : Nat) (f : Window → Window) (s : State) (j : Nat) : (State.updWin i f s).getCtx j = s.getCtx j := rfl
@[simp] theorem State.updWin_getDom (i : Nat) (f : Window → Window) (s : State) (e : Nat) : (State.updWin i f s).getDom e = s.getDom e := rfl

@[simp] theorem State.setDom_pending (i : Nat) (x : Dom) (s : State) : (State.setDom i x s).pending = s.pending := rfl
@[simp] theorem State.setDom_out (i : Nat) (x : Dom) (s : State) : (State.setDom i x s).out = s.out := rfl
@[simp] theorem State.setDom_free (i : Nat) (x : Dom) (s : State) : (State.setDom i x s).free = s.free := rfl
@[simp] theorem State.setDom_aon (i : Nat) (x : Dom) (s : State) : (State.setDom i x s).aon = s.aon := rfl
@[simp] theorem State.setDom_dies (i : Nat) (x : Dom) (s : State) : (State.setDom i x s).dies = s.dies := rfl
@[simp] theorem State.setDom_test (i : Nat) (x : Dom) (s : State) : (State.setDom i x s).test = s.test := rfl
@[simp] theorem State.setDom_tap (i : Nat) (x : Dom) (s : State) : (State.setDom i x s).tap = s.tap := rfl
@[simp] theorem State.setDom_irq (i : Nat) (x : Dom) (s : State) : (State.setDom i x s).irq = s.irq := rfl
@[simp] theorem State.setDom_pcie (i : Nat) (x : Dom) (s : State) : (State.setDom i x s).pcie = s.pcie := rfl
@[simp] theorem State.setDom_chan (i : Nat) (x : Dom) (s : State) : (State.setDom i x s).chan = s.chan := rfl
@[simp] theorem State.setDom_bulk (i : Nat) (x : Dom) (s : State) : (State.setDom i x s).bulk = s.bulk := rfl
@[simp] theorem State.setDom_admissions (i : Nat) (x : Dom) (s : State) : (State.setDom i x s).admissions = s.admissions := rfl
@[simp] theorem State.setDom_loading (i : Nat) (x : Dom) (s : State) : (State.setDom i x s).loading = s.loading := rfl
@[simp] theorem State.setDom_regulate (i : Nat) (x : Dom) (s : State) : (State.setDom i x s).regulate = s.regulate := rfl
@[simp] theorem State.setDom_waking (i : Nat) (x : Dom) (s : State) : (State.setDom i x s).waking = s.waking := rfl
@[simp] theorem State.setDom_ctxWaits (i : Nat) (x : Dom) (s : State) : (State.setDom i x s).ctxWaits = s.ctxWaits := rfl
@[simp] theorem State.setDom_part (i : Nat) (x : Dom) (s : State) : (State.setDom i x s).part = s.part := rfl
@[simp] theorem State.setDom_far (i : Nat) (x : Dom) (s : State) : (State.setDom i x s).far = s.far := rfl
@[simp] theorem State.setDom_ctx (i : Nat) (x : Dom) (s : State) : (State.setDom i x s).ctx = s.ctx := rfl
@[simp] theorem State.setDom_frond (i : Nat) (x : Dom) (s : State) : (State.setDom i x s).frond = s.frond := rfl
@[simp] theorem State.setDom_store (i : Nat) (x : Dom) (s : State) : (State.setDom i x s).store = s.store := rfl
@[simp] theorem State.setDom_localStore (i : Nat) (x : Dom) (s : State) : (State.setDom i x s).localStore = s.localStore := rfl
@[simp] theorem State.setDom_links (i : Nat) (x : Dom) (s : State) : (State.setDom i x s).links = s.links := rfl
@[simp] theorem State.setDom_cmap (i : Nat) (x : Dom) (s : State) : (State.setDom i x s).cmap = s.cmap := rfl
@[simp] theorem State.setDom_reqId (i : Nat) (x : Dom) (s : State) : (State.setDom i x s).reqId = s.reqId := rfl
@[simp] theorem State.setDom_sync (i : Nat) (x : Dom) (s : State) : (State.setDom i x s).sync = s.sync := rfl
@[simp] theorem State.setDom_anns (i : Nat) (x : Dom) (s : State) : (State.setDom i x s).anns = s.anns := rfl
@[simp] theorem State.setDom_rate (i : Nat) (x : Dom) (s : State) : (State.setDom i x s).rate = s.rate := rfl
@[simp] theorem State.setDom_faults (i : Nat) (x : Dom) (s : State) : (State.setDom i x s).faults = s.faults := rfl
@[simp] theorem State.setDom_mem (i : Nat) (x : Dom) (s : State) : (State.setDom i x s).mem = s.mem := rfl
@[simp] theorem State.setDom_getPart (i : Nat) (x : Dom) (s : State) (p : Nat) : (State.setDom i x s).getPart p = s.getPart p := rfl
@[simp] theorem State.setDom_getChan (i : Nat) (x : Dom) (s : State) (c : Nat) : (State.setDom i x s).getChan c = s.getChan c := rfl
@[simp] theorem State.setDom_getPort (i : Nat) (x : Dom) (s : State) (q : Nat) : (State.setDom i x s).getPort q = s.getPort q := rfl
@[simp] theorem State.setDom_getFrond (i : Nat) (x : Dom) (s : State) (g : Nat) : (State.setDom i x s).getFrond g = s.getFrond g := rfl
@[simp] theorem State.setDom_getCtx (i : Nat) (x : Dom) (s : State) (j : Nat) : (State.setDom i x s).getCtx j = s.getCtx j := rfl
@[simp] theorem State.setDom_getWin (i : Nat) (x : Dom) (s : State) (v : Nat) : (State.setDom i x s).getWin v = s.getWin v := rfl

@[simp] theorem State.emit_pending (o : Output) (s : State) : (State.emit o s).pending = s.pending := rfl
@[simp] theorem State.emit_free (o : Output) (s : State) : (State.emit o s).free = s.free := rfl
@[simp] theorem State.emit_aon (o : Output) (s : State) : (State.emit o s).aon = s.aon := rfl
@[simp] theorem State.emit_dies (o : Output) (s : State) : (State.emit o s).dies = s.dies := rfl
@[simp] theorem State.emit_test (o : Output) (s : State) : (State.emit o s).test = s.test := rfl
@[simp] theorem State.emit_tap (o : Output) (s : State) : (State.emit o s).tap = s.tap := rfl
@[simp] theorem State.emit_irq (o : Output) (s : State) : (State.emit o s).irq = s.irq := rfl
@[simp] theorem State.emit_pcie (o : Output) (s : State) : (State.emit o s).pcie = s.pcie := rfl
@[simp] theorem State.emit_chan (o : Output) (s : State) : (State.emit o s).chan = s.chan := rfl
@[simp] theorem State.emit_bulk (o : Output) (s : State) : (State.emit o s).bulk = s.bulk := rfl
@[simp] theorem State.emit_admissions (o : Output) (s : State) : (State.emit o s).admissions = s.admissions := rfl
@[simp] theorem State.emit_loading (o : Output) (s : State) : (State.emit o s).loading = s.loading := rfl
@[simp] theorem State.emit_regulate (o : Output) (s : State) : (State.emit o s).regulate = s.regulate := rfl
@[simp] theorem State.emit_waking (o : Output) (s : State) : (State.emit o s).waking = s.waking := rfl
@[simp] theorem State.emit_ctxWaits (o : Output) (s : State) : (State.emit o s).ctxWaits = s.ctxWaits := rfl
@[simp] theorem State.emit_part (o : Output) (s : State) : (State.emit o s).part = s.part := rfl
@[simp] theorem State.emit_far (o : Output) (s : State) : (State.emit o s).far = s.far := rfl
@[simp] theorem State.emit_ctx (o : Output) (s : State) : (State.emit o s).ctx = s.ctx := rfl
@[simp] theorem State.emit_frond (o : Output) (s : State) : (State.emit o s).frond = s.frond := rfl
@[simp] theorem State.emit_store (o : Output) (s : State) : (State.emit o s).store = s.store := rfl
@[simp] theorem State.emit_localStore (o : Output) (s : State) : (State.emit o s).localStore = s.localStore := rfl
@[simp] theorem State.emit_links (o : Output) (s : State) : (State.emit o s).links = s.links := rfl
@[simp] theorem State.emit_cmap (o : Output) (s : State) : (State.emit o s).cmap = s.cmap := rfl
@[simp] theorem State.emit_reqId (o : Output) (s : State) : (State.emit o s).reqId = s.reqId := rfl
@[simp] theorem State.emit_sync (o : Output) (s : State) : (State.emit o s).sync = s.sync := rfl
@[simp] theorem State.emit_anns (o : Output) (s : State) : (State.emit o s).anns = s.anns := rfl
@[simp] theorem State.emit_rate (o : Output) (s : State) : (State.emit o s).rate = s.rate := rfl
@[simp] theorem State.emit_faults (o : Output) (s : State) : (State.emit o s).faults = s.faults := rfl
@[simp] theorem State.emit_mem (o : Output) (s : State) : (State.emit o s).mem = s.mem := rfl
@[simp] theorem State.emit_dom (o : Output) (s : State) : (State.emit o s).dom = s.dom := rfl
@[simp] theorem State.emit_getPart (o : Output) (s : State) (p : Nat) : (State.emit o s).getPart p = s.getPart p := rfl
@[simp] theorem State.emit_getChan (o : Output) (s : State) (c : Nat) : (State.emit o s).getChan c = s.getChan c := rfl
@[simp] theorem State.emit_getPort (o : Output) (s : State) (q : Nat) : (State.emit o s).getPort q = s.getPort q := rfl
@[simp] theorem State.emit_getFrond (o : Output) (s : State) (g : Nat) : (State.emit o s).getFrond g = s.getFrond g := rfl
@[simp] theorem State.emit_getCtx (o : Output) (s : State) (j : Nat) : (State.emit o s).getCtx j = s.getCtx j := rfl
@[simp] theorem State.emit_getWin (o : Output) (s : State) (v : Nat) : (State.emit o s).getWin v = s.getWin v := rfl
@[simp] theorem State.emit_getDom (o : Output) (s : State) (e : Nat) : (State.emit o s).getDom e = s.getDom e := rfl

@[simp] theorem State.nextFree_pending (s : State) : (State.nextFree s).pending = s.pending := rfl
@[simp] theorem State.nextFree_out (s : State) : (State.nextFree s).out = s.out := rfl
@[simp] theorem State.nextFree_aon (s : State) : (State.nextFree s).aon = s.aon := rfl
@[simp] theorem State.nextFree_dies (s : State) : (State.nextFree s).dies = s.dies := rfl
@[simp] theorem State.nextFree_test (s : State) : (State.nextFree s).test = s.test := rfl
@[simp] theorem State.nextFree_tap (s : State) : (State.nextFree s).tap = s.tap := rfl
@[simp] theorem State.nextFree_irq (s : State) : (State.nextFree s).irq = s.irq := rfl
@[simp] theorem State.nextFree_pcie (s : State) : (State.nextFree s).pcie = s.pcie := rfl
@[simp] theorem State.nextFree_chan (s : State) : (State.nextFree s).chan = s.chan := rfl
@[simp] theorem State.nextFree_bulk (s : State) : (State.nextFree s).bulk = s.bulk := rfl
@[simp] theorem State.nextFree_admissions (s : State) : (State.nextFree s).admissions = s.admissions := rfl
@[simp] theorem State.nextFree_loading (s : State) : (State.nextFree s).loading = s.loading := rfl
@[simp] theorem State.nextFree_regulate (s : State) : (State.nextFree s).regulate = s.regulate := rfl
@[simp] theorem State.nextFree_waking (s : State) : (State.nextFree s).waking = s.waking := rfl
@[simp] theorem State.nextFree_ctxWaits (s : State) : (State.nextFree s).ctxWaits = s.ctxWaits := rfl
@[simp] theorem State.nextFree_part (s : State) : (State.nextFree s).part = s.part := rfl
@[simp] theorem State.nextFree_far (s : State) : (State.nextFree s).far = s.far := rfl
@[simp] theorem State.nextFree_ctx (s : State) : (State.nextFree s).ctx = s.ctx := rfl
@[simp] theorem State.nextFree_frond (s : State) : (State.nextFree s).frond = s.frond := rfl
@[simp] theorem State.nextFree_store (s : State) : (State.nextFree s).store = s.store := rfl
@[simp] theorem State.nextFree_localStore (s : State) : (State.nextFree s).localStore = s.localStore := rfl
@[simp] theorem State.nextFree_links (s : State) : (State.nextFree s).links = s.links := rfl
@[simp] theorem State.nextFree_cmap (s : State) : (State.nextFree s).cmap = s.cmap := rfl
@[simp] theorem State.nextFree_reqId (s : State) : (State.nextFree s).reqId = s.reqId := rfl
@[simp] theorem State.nextFree_sync (s : State) : (State.nextFree s).sync = s.sync := rfl
@[simp] theorem State.nextFree_anns (s : State) : (State.nextFree s).anns = s.anns := rfl
@[simp] theorem State.nextFree_rate (s : State) : (State.nextFree s).rate = s.rate := rfl
@[simp] theorem State.nextFree_faults (s : State) : (State.nextFree s).faults = s.faults := rfl
@[simp] theorem State.nextFree_mem (s : State) : (State.nextFree s).mem = s.mem := rfl
@[simp] theorem State.nextFree_dom (s : State) : (State.nextFree s).dom = s.dom := rfl
@[simp] theorem State.nextFree_getPart (s : State) (p : Nat) : (State.nextFree s).getPart p = s.getPart p := rfl
@[simp] theorem State.nextFree_getChan (s : State) (c : Nat) : (State.nextFree s).getChan c = s.getChan c := rfl
@[simp] theorem State.nextFree_getPort (s : State) (q : Nat) : (State.nextFree s).getPort q = s.getPort q := rfl
@[simp] theorem State.nextFree_getFrond (s : State) (g : Nat) : (State.nextFree s).getFrond g = s.getFrond g := rfl
@[simp] theorem State.nextFree_getCtx (s : State) (j : Nat) : (State.nextFree s).getCtx j = s.getCtx j := rfl
@[simp] theorem State.nextFree_getWin (s : State) (v : Nat) : (State.nextFree s).getWin v = s.getWin v := rfl
@[simp] theorem State.nextFree_getDom (s : State) (e : Nat) : (State.nextFree s).getDom e = s.getDom e := rfl

/-- What updPart puts in its own table. -/
theorem State.getPart_updPart (i j : Nat) (f : Partition → Partition) (s : State) : (s.updPart i f).getPart j = if j = i then f (s.getPart i) else s.getPart j :=
  Tab.get_upd _ _ i j f
@[simp] theorem State.getPart_updPart_same (i : Nat) (f : Partition → Partition) (s : State) : (s.updPart i f).getPart i = f (s.getPart i) := Tab.get_upd_same _ _ i f
theorem State.getPart_updPart_ne (i j : Nat) (f : Partition → Partition) (s : State) (h : j ≠ i) : (s.updPart i f).getPart j = s.getPart j := Tab.get_upd_ne _ _ f h

/-- What updChan puts in its own table. -/
theorem State.getChan_updChan (i j : Nat) (f : Channel → Channel) (s : State) : (s.updChan i f).getChan j = if j = i then f (s.getChan i) else s.getChan j :=
  Tab.get_upd _ _ i j f
@[simp] theorem State.getChan_updChan_same (i : Nat) (f : Channel → Channel) (s : State) : (s.updChan i f).getChan i = f (s.getChan i) := Tab.get_upd_same _ _ i f
theorem State.getChan_updChan_ne (i j : Nat) (f : Channel → Channel) (s : State) (h : j ≠ i) : (s.updChan i f).getChan j = s.getChan j := Tab.get_upd_ne _ _ f h

/-- What updPort puts in its own table. -/
theorem State.getPort_updPort (i j : Nat) (f : Port → Port) (s : State) : (s.updPort i f).getPort j = if j = i then f (s.getPort i) else s.getPort j :=
  Tab.get_upd _ _ i j f
@[simp] theorem State.getPort_updPort_same (i : Nat) (f : Port → Port) (s : State) : (s.updPort i f).getPort i = f (s.getPort i) := Tab.get_upd_same _ _ i f
theorem State.getPort_updPort_ne (i j : Nat) (f : Port → Port) (s : State) (h : j ≠ i) : (s.updPort i f).getPort j = s.getPort j := Tab.get_upd_ne _ _ f h

/-- What updFrond puts in its own table. -/
theorem State.getFrond_updFrond (i j : Nat) (f : Frond → Frond) (s : State) : (s.updFrond i f).getFrond j = if j = i then f (s.getFrond i) else s.getFrond j :=
  Tab.get_upd _ _ i j f
@[simp] theorem State.getFrond_updFrond_same (i : Nat) (f : Frond → Frond) (s : State) : (s.updFrond i f).getFrond i = f (s.getFrond i) := Tab.get_upd_same _ _ i f
theorem State.getFrond_updFrond_ne (i j : Nat) (f : Frond → Frond) (s : State) (h : j ≠ i) : (s.updFrond i f).getFrond j = s.getFrond j := Tab.get_upd_ne _ _ f h

/-- What updCtx puts in its own table. -/
theorem State.getCtx_updCtx (i j : Nat) (f : Ctx → Ctx) (s : State) : (s.updCtx i f).getCtx j = if j = i then f (s.getCtx i) else s.getCtx j :=
  Tab.get_upd _ _ i j f
@[simp] theorem State.getCtx_updCtx_same (i : Nat) (f : Ctx → Ctx) (s : State) : (s.updCtx i f).getCtx i = f (s.getCtx i) := Tab.get_upd_same _ _ i f
theorem State.getCtx_updCtx_ne (i j : Nat) (f : Ctx → Ctx) (s : State) (h : j ≠ i) : (s.updCtx i f).getCtx j = s.getCtx j := Tab.get_upd_ne _ _ f h

/-- What updWin puts in its own table. -/
theorem State.getWin_updWin (i j : Nat) (f : Window → Window) (s : State) : (s.updWin i f).getWin j = if j = i then f (s.getWin i) else s.getWin j :=
  Tab.get_upd _ _ i j f
@[simp] theorem State.getWin_updWin_same (i : Nat) (f : Window → Window) (s : State) : (s.updWin i f).getWin i = f (s.getWin i) := Tab.get_upd_same _ _ i f
theorem State.getWin_updWin_ne (i j : Nat) (f : Window → Window) (s : State) (h : j ≠ i) : (s.updWin i f).getWin j = s.getWin j := Tab.get_upd_ne _ _ f h

/-- What setDom puts in its own table. -/
theorem State.getDom_setDom (i j : Nat) (x : Dom) (s : State) : (s.setDom i x).getDom j = if j = i then x else s.getDom j :=
  Tab.get_set _ _ i j x
@[simp] theorem State.emit_out (o : Output) (s : State) : (s.emit o).out = s.out ++ [o] := rfl
@[simp] theorem State.nextFree_free (s : State) : s.nextFree.free = s.free + 1 := rfl

/-- A part of the state that no step of a sequence changes. -/
theorem forAll_keeps {α β : Type} (g : State → β) (l : List α) (f : α → State → State) (s : State)
    (h : ∀ x ∈ l, ∀ t : State, g (f x t) = g t) : g (forAll l f s) = g s := by
  unfold forAll
  induction l generalizing s with
  | nil => rfl
  | cons x l ih =>
    rw [List.foldl_cons, ih _ fun y hy t => h y (by simp [hy]) t]
    exact h x (by simp) s

/-- What every step of a sequence keeps, the sequence keeps. -/
theorem forAll_inv {α : Type} (P : State → Prop) (l : List α) (f : α → State → State) (s : State) (hs : P s)
    (h : ∀ x ∈ l, ∀ t : State, P t → P (f x t)) : P (forAll l f s) := by
  unfold forAll
  induction l generalizing s with
  | nil => exact hs
  | cons x l ih => exact ih _ (h x (by simp) s hs) fun y hy t => h y (by simp [hy]) t

@[simp] theorem forAll_nil {α : Type} (f : α → State → State) (s : State) : forAll [] f s = s := rfl
@[simp] theorem forAll_cons {α : Type} (x : α) (l : List α) (f : α → State → State) (s : State) : forAll (x :: l) f s = forAll l f (f x s) := rfl

end Sys2Proof.Machine
end

