-- ==== Sys2Proof/Laws/Frames.lean ====
section
/-! SUPPORT. What each shared operation may change: one frame equation for each, and from it one lemma for each part of the state that the
operation leaves as it is. -/

namespace Sys2Proof.Machine

/-- What holds of both branches holds of the choice. -/
theorem ite_holds {α : Type} {P : α → Prop} {c : Prop} [Decidable c] {a b : α} (ha : P a) (hb : P b) : P (if c then a else b) := by
  split <;> assumption

/-- All that sendMsix may change. -/
theorem State.sendMsix_frame (s : State) :
    State.sendMsix s = { s with out := (State.sendMsix s).out, pcie := (State.sendMsix s).pcie } := by
  unfold State.sendMsix; split
  · rfl
  · split <;> rfl

/-- All that settle may change. -/
theorem State.settle_frame (s : State) :
    State.settle s = { s with irq := (State.settle s).irq, pcie := (State.settle s).pcie, out := (State.settle s).out } := by
  unfold State.settle; dsimp only; split
  · rw [State.sendMsix_frame]
  · split <;> rfl
@[simp] theorem State.settle_aon (s : State) : (State.settle s).aon = s.aon := by rw [State.settle_frame]
@[simp] theorem State.settle_far (s : State) : (State.settle s).far = s.far := by rw [State.settle_frame]
@[simp] theorem State.settle_store (s : State) : (State.settle s).store = s.store := by rw [State.settle_frame]
@[simp] theorem State.settle_sync (s : State) : (State.settle s).sync = s.sync := by rw [State.settle_frame]
@[simp] theorem State.settle_faults (s : State) : (State.settle s).faults = s.faults := by rw [State.settle_frame]
@[simp] theorem State.settle_links (s : State) : (State.settle s).links = s.links := by rw [State.settle_frame]
@[simp] theorem State.settle_part (s : State) : (State.settle s).part = s.part := by rw [State.settle_frame]
@[simp] theorem State.settle_chan (s : State) : (State.settle s).chan = s.chan := by rw [State.settle_frame]
@[simp] theorem State.settle_getPart (s : State) (n : Nat) : (State.settle s).getPart n = s.getPart n := by rw [State.settle_frame]; rfl
@[simp] theorem State.settle_getChan (s : State) (n : Nat) : (State.settle s).getChan n = s.getChan n := by rw [State.settle_frame]; rfl
@[simp] theorem State.settle_getPort (s : State) (n : Nat) : (State.settle s).getPort n = s.getPort n := by rw [State.settle_frame]; rfl
@[simp] theorem State.settle_getFrond (s : State) (n : Nat) : (State.settle s).getFrond n = s.getFrond n := by rw [State.settle_frame]; rfl
@[simp] theorem State.settle_getCtx (s : State) (n : Nat) : (State.settle s).getCtx n = s.getCtx n := by rw [State.settle_frame]; rfl
@[simp] theorem State.settle_getWin (s : State) (n : Nat) : (State.settle s).getWin n = s.getWin n := by rw [State.settle_frame]; rfl
@[simp] theorem State.settle_getDom (s : State) (n : Nat) : (State.settle s).getDom n = s.getDom n := by rw [State.settle_frame]; rfl

/-- All that raise may change. -/
theorem State.raise_frame (c : Cause) (s : State) :
    State.raise c s = { s with irq := (State.raise c s).irq, pcie := (State.raise c s).pcie, out := (State.raise c s).out } := by
  unfold State.raise; rw [State.settle_frame]
@[simp] theorem State.raise_aon (c : Cause) (s : State) : (State.raise c s).aon = s.aon := by rw [State.raise_frame]
@[simp] theorem State.raise_far (c : Cause) (s : State) : (State.raise c s).far = s.far := by rw [State.raise_frame]
@[simp] theorem State.raise_store (c : Cause) (s : State) : (State.raise c s).store = s.store := by rw [State.raise_frame]
@[simp] theorem State.raise_sync (c : Cause) (s : State) : (State.raise c s).sync = s.sync := by rw [State.raise_frame]
@[simp] theorem State.raise_faults (c : Cause) (s : State) : (State.raise c s).faults = s.faults := by rw [State.raise_frame]
@[simp] theorem State.raise_links (c : Cause) (s : State) : (State.raise c s).links = s.links := by rw [State.raise_frame]
@[simp] theorem State.raise_part (c : Cause) (s : State) : (State.raise c s).part = s.part := by rw [State.raise_frame]
@[simp] theorem State.raise_chan (c : Cause) (s : State) : (State.raise c s).chan = s.chan := by rw [State.raise_frame]
@[simp] theorem State.raise_getPart (c : Cause) (s : State) (n : Nat) : (State.raise c s).getPart n = s.getPart n := by rw [State.raise_frame]; rfl
@[simp] theorem State.raise_getChan (c : Cause) (s : State) (n : Nat) : (State.raise c s).getChan n = s.getChan n := by rw [State.raise_frame]; rfl
@[simp] theorem State.raise_getPort (c : Cause) (s : State) (n : Nat) : (State.raise c s).getPort n = s.getPort n := by rw [State.raise_frame]; rfl
@[simp] theorem State.raise_getFrond (c : Cause) (s : State) (n : Nat) : (State.raise c s).getFrond n = s.getFrond n := by rw [State.raise_frame]; rfl
@[simp] theorem State.raise_getCtx (c : Cause) (s : State) (n : Nat) : (State.raise c s).getCtx n = s.getCtx n := by rw [State.raise_frame]; rfl
@[simp] theorem State.raise_getWin (c : Cause) (s : State) (n : Nat) : (State.raise c s).getWin n = s.getWin n := by rw [State.raise_frame]; rfl
@[simp] theorem State.raise_getDom (c : Cause) (s : State) (n : Nat) : (State.raise c s).getDom n = s.getDom n := by rw [State.raise_frame]; rfl

/-- All that ringHost may change. -/
theorem State.ringHost_frame (ch b : Nat) (s : State) :
    State.ringHost ch b s = { s with chan := (State.ringHost ch b s).chan, irq := (State.ringHost ch b s).irq, pcie := (State.ringHost ch b s).pcie, out := (State.ringHost ch b s).out } := by
  unfold State.ringHost; rw [State.settle_frame]; rfl
@[simp] theorem State.ringHost_aon (ch b : Nat) (s : State) : (State.ringHost ch b s).aon = s.aon := by rw [State.ringHost_frame]
@[simp] theorem State.ringHost_far (ch b : Nat) (s : State) : (State.ringHost ch b s).far = s.far := by rw [State.ringHost_frame]
@[simp] theorem State.ringHost_store (ch b : Nat) (s : State) : (State.ringHost ch b s).store = s.store := by rw [State.ringHost_frame]
@[simp] theorem State.ringHost_sync (ch b : Nat) (s : State) : (State.ringHost ch b s).sync = s.sync := by rw [State.ringHost_frame]
@[simp] theorem State.ringHost_faults (ch b : Nat) (s : State) : (State.ringHost ch b s).faults = s.faults := by rw [State.ringHost_frame]
@[simp] theorem State.ringHost_links (ch b : Nat) (s : State) : (State.ringHost ch b s).links = s.links := by rw [State.ringHost_frame]
@[simp] theorem State.ringHost_part (ch b : Nat) (s : State) : (State.ringHost ch b s).part = s.part := by rw [State.ringHost_frame]
@[simp] theorem State.ringHost_getPart (ch b : Nat) (s : State) (n : Nat) : (State.ringHost ch b s).getPart n = s.getPart n := by rw [State.ringHost_frame]; rfl
@[simp] theorem State.ringHost_getPort (ch b : Nat) (s : State) (n : Nat) : (State.ringHost ch b s).getPort n = s.getPort n := by rw [State.ringHost_frame]; rfl
@[simp] theorem State.ringHost_getFrond (ch b : Nat) (s : State) (n : Nat) : (State.ringHost ch b s).getFrond n = s.getFrond n := by rw [State.ringHost_frame]; rfl
@[simp] theorem State.ringHost_getCtx (ch b : Nat) (s : State) (n : Nat) : (State.ringHost ch b s).getCtx n = s.getCtx n := by rw [State.ringHost_frame]; rfl
@[simp] theorem State.ringHost_getWin (ch b : Nat) (s : State) (n : Nat) : (State.ringHost ch b s).getWin n = s.getWin n := by rw [State.ringHost_frame]; rfl
@[simp] theorem State.ringHost_getDom (ch b : Nat) (s : State) (n : Nat) : (State.ringHost ch b s).getDom n = s.getDom n := by rw [State.ringHost_frame]; rfl

/-- All that log may change. -/
theorem State.log_frame (a : LogArgs) (s : State) :
    State.log a s = { s with faults := (State.log a s).faults, irq := (State.log a s).irq, pcie := (State.log a s).pcie, out := (State.log a s).out } := by
  unfold State.log; dsimp only; split
  · rw [State.raise_frame]
  · rfl
@[simp] theorem State.log_aon (a : LogArgs) (s : State) : (State.log a s).aon = s.aon := by rw [State.log_frame]
@[simp] theorem State.log_far (a : LogArgs) (s : State) : (State.log a s).far = s.far := by rw [State.log_frame]
@[simp] theorem State.log_store (a : LogArgs) (s : State) : (State.log a s).store = s.store := by rw [State.log_frame]
@[simp] theorem State.log_sync (a : LogArgs) (s : State) : (State.log a s).sync = s.sync := by rw [State.log_frame]
@[simp] theorem State.log_links (a : LogArgs) (s : State) : (State.log a s).links = s.links := by rw [State.log_frame]
@[simp] theorem State.log_part (a : LogArgs) (s : State) : (State.log a s).part = s.part := by rw [State.log_frame]
@[simp] theorem State.log_chan (a : LogArgs) (s : State) : (State.log a s).chan = s.chan := by rw [State.log_frame]
@[simp] theorem State.log_getPart (a : LogArgs) (s : State) (n : Nat) : (State.log a s).getPart n = s.getPart n := by rw [State.log_frame]; rfl
@[simp] theorem State.log_getChan (a : LogArgs) (s : State) (n : Nat) : (State.log a s).getChan n = s.getChan n := by rw [State.log_frame]; rfl
@[simp] theorem State.log_getPort (a : LogArgs) (s : State) (n : Nat) : (State.log a s).getPort n = s.getPort n := by rw [State.log_frame]; rfl
@[simp] theorem State.log_getFrond (a : LogArgs) (s : State) (n : Nat) : (State.log a s).getFrond n = s.getFrond n := by rw [State.log_frame]; rfl
@[simp] theorem State.log_getCtx (a : LogArgs) (s : State) (n : Nat) : (State.log a s).getCtx n = s.getCtx n := by rw [State.log_frame]; rfl
@[simp] theorem State.log_getWin (a : LogArgs) (s : State) (n : Nat) : (State.log a s).getWin n = s.getWin n := by rw [State.log_frame]; rfl
@[simp] theorem State.log_getDom (a : LogArgs) (s : State) (n : Nat) : (State.log a s).getDom n = s.getDom n := by rw [State.log_frame]; rfl

/-- All that updUnit may change. -/
theorem State.updUnit_frame (c u : Nat) (f : FaultUnit → FaultUnit) (s : State) :
    State.updUnit c u f s = { s with faults := (State.updUnit c u f s).faults } := by
  rfl
@[simp] theorem State.updUnit_aon (c u : Nat) (f : FaultUnit → FaultUnit) (s : State) : (State.updUnit c u f s).aon = s.aon := by rw [State.updUnit_frame]
@[simp] theorem State.updUnit_far (c u : Nat) (f : FaultUnit → FaultUnit) (s : State) : (State.updUnit c u f s).far = s.far := by rw [State.updUnit_frame]
@[simp] theorem State.updUnit_store (c u : Nat) (f : FaultUnit → FaultUnit) (s : State) : (State.updUnit c u f s).store = s.store := by rw [State.updUnit_frame]
@[simp] theorem State.updUnit_sync (c u : Nat) (f : FaultUnit → FaultUnit) (s : State) : (State.updUnit c u f s).sync = s.sync := by rw [State.updUnit_frame]
@[simp] theorem State.updUnit_links (c u : Nat) (f : FaultUnit → FaultUnit) (s : State) : (State.updUnit c u f s).links = s.links := by rw [State.updUnit_frame]
@[simp] theorem State.updUnit_part (c u : Nat) (f : FaultUnit → FaultUnit) (s : State) : (State.updUnit c u f s).part = s.part := by rw [State.updUnit_frame]
@[simp] theorem State.updUnit_chan (c u : Nat) (f : FaultUnit → FaultUnit) (s : State) : (State.updUnit c u f s).chan = s.chan := by rw [State.updUnit_frame]
@[simp] theorem State.updUnit_irq (c u : Nat) (f : FaultUnit → FaultUnit) (s : State) : (State.updUnit c u f s).irq = s.irq := by rw [State.updUnit_frame]
@[simp] theorem State.updUnit_getPart (c u : Nat) (f : FaultUnit → FaultUnit) (s : State) (n : Nat) : (State.updUnit c u f s).getPart n = s.getPart n := by rw [State.updUnit_frame]; rfl
@[simp] theorem State.updUnit_getChan (c u : Nat) (f : FaultUnit → FaultUnit) (s : State) (n : Nat) : (State.updUnit c u f s).getChan n = s.getChan n := by rw [State.updUnit_frame]; rfl
@[simp] theorem State.updUnit_getPort (c u : Nat) (f : FaultUnit → FaultUnit) (s : State) (n : Nat) : (State.updUnit c u f s).getPort n = s.getPort n := by rw [State.updUnit_frame]; rfl
@[simp] theorem State.updUnit_getFrond (c u : Nat) (f : FaultUnit → FaultUnit) (s : State) (n : Nat) : (State.updUnit c u f s).getFrond n = s.getFrond n := by rw [State.updUnit_frame]; rfl
@[simp] theorem State.updUnit_getCtx (c u : Nat) (f : FaultUnit → FaultUnit) (s : State) (n : Nat) : (State.updUnit c u f s).getCtx n = s.getCtx n := by rw [State.updUnit_frame]; rfl
@[simp] theorem State.updUnit_getWin (c u : Nat) (f : FaultUnit → FaultUnit) (s : State) (n : Nat) : (State.updUnit c u f s).getWin n = s.getWin n := by rw [State.updUnit_frame]; rfl
@[simp] theorem State.updUnit_getDom (c u : Nat) (f : FaultUnit → FaultUnit) (s : State) (n : Nat) : (State.updUnit c u f s).getDom n = s.getDom n := by rw [State.updUnit_frame]; rfl

/-- All that portEv may change. -/
theorem State.portEv_frame (i k m : Nat) (s : State) :
    State.portEv i k m s = { s with links := { s.links with port := (State.portEv i k m s).links.port } } := by
  rfl
@[simp] theorem State.portEv_aon (i k m : Nat) (s : State) : (State.portEv i k m s).aon = s.aon := by rw [State.portEv_frame]
@[simp] theorem State.portEv_far (i k m : Nat) (s : State) : (State.portEv i k m s).far = s.far := by rw [State.portEv_frame]
@[simp] theorem State.portEv_store (i k m : Nat) (s : State) : (State.portEv i k m s).store = s.store := by rw [State.portEv_frame]
@[simp] theorem State.portEv_sync (i k m : Nat) (s : State) : (State.portEv i k m s).sync = s.sync := by rw [State.portEv_frame]
@[simp] theorem State.portEv_faults (i k m : Nat) (s : State) : (State.portEv i k m s).faults = s.faults := by rw [State.portEv_frame]
@[simp] theorem State.portEv_part (i k m : Nat) (s : State) : (State.portEv i k m s).part = s.part := by rw [State.portEv_frame]
@[simp] theorem State.portEv_chan (i k m : Nat) (s : State) : (State.portEv i k m s).chan = s.chan := by rw [State.portEv_frame]
@[simp] theorem State.portEv_irq (i k m : Nat) (s : State) : (State.portEv i k m s).irq = s.irq := by rw [State.portEv_frame]
@[simp] theorem State.portEv_links_plan (i k m : Nat) (s : State) : (State.portEv i k m s).links.plan = s.links.plan := by rw [State.portEv_frame]
@[simp] theorem State.portEv_links_win (i k m : Nat) (s : State) : (State.portEv i k m s).links.win = s.links.win := by rw [State.portEv_frame]
@[simp] theorem State.portEv_links_selvage (i k m : Nat) (s : State) : (State.portEv i k m s).links.selvage = s.links.selvage := by rw [State.portEv_frame]
@[simp] theorem State.portEv_getPart (i k m : Nat) (s : State) (n : Nat) : (State.portEv i k m s).getPart n = s.getPart n := by rw [State.portEv_frame]; rfl
@[simp] theorem State.portEv_getChan (i k m : Nat) (s : State) (n : Nat) : (State.portEv i k m s).getChan n = s.getChan n := by rw [State.portEv_frame]; rfl
@[simp] theorem State.portEv_getFrond (i k m : Nat) (s : State) (n : Nat) : (State.portEv i k m s).getFrond n = s.getFrond n := by rw [State.portEv_frame]; rfl
@[simp] theorem State.portEv_getCtx (i k m : Nat) (s : State) (n : Nat) : (State.portEv i k m s).getCtx n = s.getCtx n := by rw [State.portEv_frame]; rfl
@[simp] theorem State.portEv_getWin (i k m : Nat) (s : State) (n : Nat) : (State.portEv i k m s).getWin n = s.getWin n := by rw [State.portEv_frame]; rfl
@[simp] theorem State.portEv_getDom (i k m : Nat) (s : State) (n : Nat) : (State.portEv i k m s).getDom n = s.getDom n := by rw [State.portEv_frame]; rfl

/-- All that lastingOutcome may change. -/
theorem State.lastingOutcome_frame (c u lane : Nat) (s : State) :
    State.lastingOutcome c u lane s = { s with faults := (State.lastingOutcome c u lane s).faults, links := { s.links with port := (State.lastingOutcome c u lane s).links.port }, irq := (State.lastingOutcome c u lane s).irq, pcie := (State.lastingOutcome c u lane s).pcie, out := (State.lastingOutcome c u lane s).out, mem := (State.lastingOutcome c u lane s).mem } := by
  unfold State.lastingOutcome
  split
  · rfl
  split
  · rw [State.raise_frame]; rfl
  split
  · split
    · dsimp only; rw [State.raise_frame]
    · dsimp only; rw [State.raise_frame .noSpare, State.raise_frame .laneLasting]; rfl
  · rfl
@[simp] theorem State.lastingOutcome_aon (c u lane : Nat) (s : State) : (State.lastingOutcome c u lane s).aon = s.aon := by rw [State.lastingOutcome_frame]
@[simp] theorem State.lastingOutcome_far (c u lane : Nat) (s : State) : (State.lastingOutcome c u lane s).far = s.far := by rw [State.lastingOutcome_frame]
@[simp] theorem State.lastingOutcome_store (c u lane : Nat) (s : State) : (State.lastingOutcome c u lane s).store = s.store := by rw [State.lastingOutcome_frame]
@[simp] theorem State.lastingOutcome_sync (c u lane : Nat) (s : State) : (State.lastingOutcome c u lane s).sync = s.sync := by rw [State.lastingOutcome_frame]
@[simp] theorem State.lastingOutcome_part (c u lane : Nat) (s : State) : (State.lastingOutcome c u lane s).part = s.part := by rw [State.lastingOutcome_frame]
@[simp] theorem State.lastingOutcome_chan (c u lane : Nat) (s : State) : (State.lastingOutcome c u lane s).chan = s.chan := by rw [State.lastingOutcome_frame]
@[simp] theorem State.lastingOutcome_links_plan (c u lane : Nat) (s : State) : (State.lastingOutcome c u lane s).links.plan = s.links.plan := by rw [State.lastingOutcome_frame]
@[simp] theorem State.lastingOutcome_links_win (c u lane : Nat) (s : State) : (State.lastingOutcome c u lane s).links.win = s.links.win := by rw [State.lastingOutcome_frame]
@[simp] theorem State.lastingOutcome_links_selvage (c u lane : Nat) (s : State) : (State.lastingOutcome c u lane s).links.selvage = s.links.selvage := by rw [State.lastingOutcome_frame]
@[simp] theorem State.lastingOutcome_getPart (c u lane : Nat) (s : State) (n : Nat) : (State.lastingOutcome c u lane s).getPart n = s.getPart n := by rw [State.lastingOutcome_frame]; rfl
@[simp] theorem State.lastingOutcome_getChan (c u lane : Nat) (s : State) (n : Nat) : (State.lastingOutcome c u lane s).getChan n = s.getChan n := by rw [State.lastingOutcome_frame]; rfl
@[simp] theorem State.lastingOutcome_getFrond (c u lane : Nat) (s : State) (n : Nat) : (State.lastingOutcome c u lane s).getFrond n = s.getFrond n := by rw [State.lastingOutcome_frame]; rfl
@[simp] theorem State.lastingOutcome_getCtx (c u lane : Nat) (s : State) (n : Nat) : (State.lastingOutcome c u lane s).getCtx n = s.getCtx n := by rw [State.lastingOutcome_frame]; rfl
@[simp] theorem State.lastingOutcome_getWin (c u lane : Nat) (s : State) (n : Nat) : (State.lastingOutcome c u lane s).getWin n = s.getWin n := by rw [State.lastingOutcome_frame]; rfl
@[simp] theorem State.lastingOutcome_getDom (c u lane : Nat) (s : State) (n : Nat) : (State.lastingOutcome c u lane s).getDom n = s.getDom n := by rw [State.lastingOutcome_frame]; rfl

/-- All that trainRepair may change. -/
theorem State.trainRepair_frame (u : Nat) (s : State) :
    s.trainRepair u = { s with faults := (s.trainRepair u).faults, mem := (s.trainRepair u).mem, test := (s.trainRepair u).test } := by
  unfold State.trainRepair; split <;> rfl

/-- All that faultEvent may change. -/
theorem State.faultEvent_frame (c u lane addr : Nat) (s : State) :
    State.faultEvent c u lane addr s = { s with faults := (State.faultEvent c u lane addr s).faults, links := { s.links with port := (State.faultEvent c u lane addr s).links.port }, irq := (State.faultEvent c u lane addr s).irq, pcie := (State.faultEvent c u lane addr s).pcie, out := (State.faultEvent c u lane addr s).out, mem := (State.faultEvent c u lane addr s).mem, test := (State.faultEvent c u lane addr s).test } := by
  have h : (fun t : State => t = { s with faults := t.faults, links := { s.links with port := t.links.port }, irq := t.irq, pcie := t.pcie, out := t.out, mem := t.mem, test := t.test })
      (State.faultEvent c u lane addr s) := by
    unfold State.faultEvent
    refine @ite_holds _ (fun t : State => t = { s with faults := t.faults, links := { s.links with port := t.links.port }, irq := t.irq, pcie := t.pcie, out := t.out, mem := t.mem, test := t.test }) _ _ _ _ ?_ (@ite_holds _ (fun t : State => t = { s with faults := t.faults, links := { s.links with port := t.links.port }, irq := t.irq, pcie := t.pcie, out := t.out, mem := t.mem, test := t.test }) _ _ _ _ ?_ (@ite_holds _ (fun t : State => t = { s with faults := t.faults, links := { s.links with port := t.links.port }, irq := t.irq, pcie := t.pcie, out := t.out, mem := t.mem, test := t.test }) _ _ _ _ ?_ (@ite_holds _ (fun t : State => t = { s with faults := t.faults, links := { s.links with port := t.links.port }, irq := t.irq, pcie := t.pcie, out := t.out, mem := t.mem, test := t.test }) _ _ _ _ ?_ ?_)))
    · rfl
    · show _ = _; rw [State.trainRepair_frame]; rfl
    · show _ = _; rw [State.lastingOutcome_frame, State.raise_frame, State.log_frame]; rfl
    · show _ = _; rw [State.log_frame]; rfl
    · rfl
  exact h
@[simp] theorem State.faultEvent_aon (c u lane addr : Nat) (s : State) : (State.faultEvent c u lane addr s).aon = s.aon := by rw [State.faultEvent_frame]
@[simp] theorem State.faultEvent_far (c u lane addr : Nat) (s : State) : (State.faultEvent c u lane addr s).far = s.far := by rw [State.faultEvent_frame]
@[simp] theorem State.faultEvent_store (c u lane addr : Nat) (s : State) : (State.faultEvent c u lane addr s).store = s.store := by rw [State.faultEvent_frame]
@[simp] theorem State.faultEvent_sync (c u lane addr : Nat) (s : State) : (State.faultEvent c u lane addr s).sync = s.sync := by rw [State.faultEvent_frame]
@[simp] theorem State.faultEvent_part (c u lane addr : Nat) (s : State) : (State.faultEvent c u lane addr s).part = s.part := by rw [State.faultEvent_frame]
@[simp] theorem State.faultEvent_chan (c u lane addr : Nat) (s : State) : (State.faultEvent c u lane addr s).chan = s.chan := by rw [State.faultEvent_frame]
@[simp] theorem State.faultEvent_links_plan (c u lane addr : Nat) (s : State) : (State.faultEvent c u lane addr s).links.plan = s.links.plan := by rw [State.faultEvent_frame]
@[simp] theorem State.faultEvent_links_win (c u lane addr : Nat) (s : State) : (State.faultEvent c u lane addr s).links.win = s.links.win := by rw [State.faultEvent_frame]
@[simp] theorem State.faultEvent_links_selvage (c u lane addr : Nat) (s : State) : (State.faultEvent c u lane addr s).links.selvage = s.links.selvage := by rw [State.faultEvent_frame]
@[simp] theorem State.faultEvent_getPart (c u lane addr : Nat) (s : State) (n : Nat) : (State.faultEvent c u lane addr s).getPart n = s.getPart n := by rw [State.faultEvent_frame]; rfl
@[simp] theorem State.faultEvent_getChan (c u lane addr : Nat) (s : State) (n : Nat) : (State.faultEvent c u lane addr s).getChan n = s.getChan n := by rw [State.faultEvent_frame]; rfl
@[simp] theorem State.faultEvent_getFrond (c u lane addr : Nat) (s : State) (n : Nat) : (State.faultEvent c u lane addr s).getFrond n = s.getFrond n := by rw [State.faultEvent_frame]; rfl
@[simp] theorem State.faultEvent_getCtx (c u lane addr : Nat) (s : State) (n : Nat) : (State.faultEvent c u lane addr s).getCtx n = s.getCtx n := by rw [State.faultEvent_frame]; rfl
@[simp] theorem State.faultEvent_getWin (c u lane addr : Nat) (s : State) (n : Nat) : (State.faultEvent c u lane addr s).getWin n = s.getWin n := by rw [State.faultEvent_frame]; rfl
@[simp] theorem State.faultEvent_getDom (c u lane addr : Nat) (s : State) (n : Nat) : (State.faultEvent c u lane addr s).getDom n = s.getDom n := by rw [State.faultEvent_frame]; rfl

/-- All that flowCheck may change. -/
theorem State.flowCheck_frame (i k : Nat) (s : State) :
    State.flowCheck i k s = { s with links := { s.links with port := (State.flowCheck i k s).links.port } } := by
  unfold State.flowCheck; dsimp only; split
  · rfl
  split <;> rfl
@[simp] theorem State.flowCheck_aon (i k : Nat) (s : State) : (State.flowCheck i k s).aon = s.aon := by rw [State.flowCheck_frame]
@[simp] theorem State.flowCheck_far (i k : Nat) (s : State) : (State.flowCheck i k s).far = s.far := by rw [State.flowCheck_frame]
@[simp] theorem State.flowCheck_store (i k : Nat) (s : State) : (State.flowCheck i k s).store = s.store := by rw [State.flowCheck_frame]
@[simp] theorem State.flowCheck_sync (i k : Nat) (s : State) : (State.flowCheck i k s).sync = s.sync := by rw [State.flowCheck_frame]
@[simp] theorem State.flowCheck_faults (i k : Nat) (s : State) : (State.flowCheck i k s).faults = s.faults := by rw [State.flowCheck_frame]
@[simp] theorem State.flowCheck_part (i k : Nat) (s : State) : (State.flowCheck i k s).part = s.part := by rw [State.flowCheck_frame]
@[simp] theorem State.flowCheck_chan (i k : Nat) (s : State) : (State.flowCheck i k s).chan = s.chan := by rw [State.flowCheck_frame]
@[simp] theorem State.flowCheck_irq (i k : Nat) (s : State) : (State.flowCheck i k s).irq = s.irq := by rw [State.flowCheck_frame]
@[simp] theorem State.flowCheck_links_plan (i k : Nat) (s : State) : (State.flowCheck i k s).links.plan = s.links.plan := by rw [State.flowCheck_frame]
@[simp] theorem State.flowCheck_links_win (i k : Nat) (s : State) : (State.flowCheck i k s).links.win = s.links.win := by rw [State.flowCheck_frame]
@[simp] theorem State.flowCheck_links_selvage (i k : Nat) (s : State) : (State.flowCheck i k s).links.selvage = s.links.selvage := by rw [State.flowCheck_frame]
@[simp] theorem State.flowCheck_getPart (i k : Nat) (s : State) (n : Nat) : (State.flowCheck i k s).getPart n = s.getPart n := by rw [State.flowCheck_frame]; rfl
@[simp] theorem State.flowCheck_getChan (i k : Nat) (s : State) (n : Nat) : (State.flowCheck i k s).getChan n = s.getChan n := by rw [State.flowCheck_frame]; rfl
@[simp] theorem State.flowCheck_getFrond (i k : Nat) (s : State) (n : Nat) : (State.flowCheck i k s).getFrond n = s.getFrond n := by rw [State.flowCheck_frame]; rfl
@[simp] theorem State.flowCheck_getCtx (i k : Nat) (s : State) (n : Nat) : (State.flowCheck i k s).getCtx n = s.getCtx n := by rw [State.flowCheck_frame]; rfl
@[simp] theorem State.flowCheck_getWin (i k : Nat) (s : State) (n : Nat) : (State.flowCheck i k s).getWin n = s.getWin n := by rw [State.flowCheck_frame]; rfl
@[simp] theorem State.flowCheck_getDom (i k : Nat) (s : State) (n : Nat) : (State.flowCheck i k s).getDom n = s.getDom n := by rw [State.flowCheck_frame]; rfl

/-- All that takeRx may change. -/
theorem State.takeRx_frame (i : Nat) (f : Frame) (s : State) :
    State.takeRx i f s = { s with links := { s.links with port := (State.takeRx i f s).links.port } } := by
  unfold State.takeRx; split
  · rw [State.flowCheck_frame]; rfl
  · rfl
@[simp] theorem State.takeRx_aon (i : Nat) (f : Frame) (s : State) : (State.takeRx i f s).aon = s.aon := by rw [State.takeRx_frame]
@[simp] theorem State.takeRx_far (i : Nat) (f : Frame) (s : State) : (State.takeRx i f s).far = s.far := by rw [State.takeRx_frame]
@[simp] theorem State.takeRx_store (i : Nat) (f : Frame) (s : State) : (State.takeRx i f s).store = s.store := by rw [State.takeRx_frame]
@[simp] theorem State.takeRx_sync (i : Nat) (f : Frame) (s : State) : (State.takeRx i f s).sync = s.sync := by rw [State.takeRx_frame]
@[simp] theorem State.takeRx_faults (i : Nat) (f : Frame) (s : State) : (State.takeRx i f s).faults = s.faults := by rw [State.takeRx_frame]
@[simp] theorem State.takeRx_part (i : Nat) (f : Frame) (s : State) : (State.takeRx i f s).part = s.part := by rw [State.takeRx_frame]
@[simp] theorem State.takeRx_chan (i : Nat) (f : Frame) (s : State) : (State.takeRx i f s).chan = s.chan := by rw [State.takeRx_frame]
@[simp] theorem State.takeRx_irq (i : Nat) (f : Frame) (s : State) : (State.takeRx i f s).irq = s.irq := by rw [State.takeRx_frame]
@[simp] theorem State.takeRx_links_plan (i : Nat) (f : Frame) (s : State) : (State.takeRx i f s).links.plan = s.links.plan := by rw [State.takeRx_frame]
@[simp] theorem State.takeRx_links_win (i : Nat) (f : Frame) (s : State) : (State.takeRx i f s).links.win = s.links.win := by rw [State.takeRx_frame]
@[simp] theorem State.takeRx_links_selvage (i : Nat) (f : Frame) (s : State) : (State.takeRx i f s).links.selvage = s.links.selvage := by rw [State.takeRx_frame]
@[simp] theorem State.takeRx_getPart (i : Nat) (f : Frame) (s : State) (n : Nat) : (State.takeRx i f s).getPart n = s.getPart n := by rw [State.takeRx_frame]; rfl
@[simp] theorem State.takeRx_getChan (i : Nat) (f : Frame) (s : State) (n : Nat) : (State.takeRx i f s).getChan n = s.getChan n := by rw [State.takeRx_frame]; rfl
@[simp] theorem State.takeRx_getFrond (i : Nat) (f : Frame) (s : State) (n : Nat) : (State.takeRx i f s).getFrond n = s.getFrond n := by rw [State.takeRx_frame]; rfl
@[simp] theorem State.takeRx_getCtx (i : Nat) (f : Frame) (s : State) (n : Nat) : (State.takeRx i f s).getCtx n = s.getCtx n := by rw [State.takeRx_frame]; rfl
@[simp] theorem State.takeRx_getWin (i : Nat) (f : Frame) (s : State) (n : Nat) : (State.takeRx i f s).getWin n = s.getWin n := by rw [State.takeRx_frame]; rfl
@[simp] theorem State.takeRx_getDom (i : Nat) (f : Frame) (s : State) (n : Nat) : (State.takeRx i f s).getDom n = s.getDom n := by rw [State.takeRx_frame]; rfl

/-- All that sendFlit may change. -/
theorem State.sendFlit_frame (i ft vl dl : Nat) (fi la : Bool) (pl : List Byte) (s : State) :
    State.sendFlit i ft vl dl fi la pl s = { s with links := { s.links with port := (State.sendFlit i ft vl dl fi la pl s).links.port }, out := (State.sendFlit i ft vl dl fi la pl s).out } := by
  rfl
@[simp] theorem State.sendFlit_aon (i ft vl dl : Nat) (fi la : Bool) (pl : List Byte) (s : State) : (State.sendFlit i ft vl dl fi la pl s).aon = s.aon := by rw [State.sendFlit_frame]
@[simp] theorem State.sendFlit_far (i ft vl dl : Nat) (fi la : Bool) (pl : List Byte) (s : State) : (State.sendFlit i ft vl dl fi la pl s).far = s.far := by rw [State.sendFlit_frame]
@[simp] theorem State.sendFlit_store (i ft vl dl : Nat) (fi la : Bool) (pl : List Byte) (s : State) : (State.sendFlit i ft vl dl fi la pl s).store = s.store := by rw [State.sendFlit_frame]
@[simp] theorem State.sendFlit_sync (i ft vl dl : Nat) (fi la : Bool) (pl : List Byte) (s : State) : (State.sendFlit i ft vl dl fi la pl s).sync = s.sync := by rw [State.sendFlit_frame]
@[simp] theorem State.sendFlit_faults (i ft vl dl : Nat) (fi la : Bool) (pl : List Byte) (s : State) : (State.sendFlit i ft vl dl fi la pl s).faults = s.faults := by rw [State.sendFlit_frame]
@[simp] theorem State.sendFlit_part (i ft vl dl : Nat) (fi la : Bool) (pl : List Byte) (s : State) : (State.sendFlit i ft vl dl fi la pl s).part = s.part := by rw [State.sendFlit_frame]
@[simp] theorem State.sendFlit_chan (i ft vl dl : Nat) (fi la : Bool) (pl : List Byte) (s : State) : (State.sendFlit i ft vl dl fi la pl s).chan = s.chan := by rw [State.sendFlit_frame]
@[simp] theorem State.sendFlit_irq (i ft vl dl : Nat) (fi la : Bool) (pl : List Byte) (s : State) : (State.sendFlit i ft vl dl fi la pl s).irq = s.irq := by rw [State.sendFlit_frame]
@[simp] theorem State.sendFlit_links_plan (i ft vl dl : Nat) (fi la : Bool) (pl : List Byte) (s : State) : (State.sendFlit i ft vl dl fi la pl s).links.plan = s.links.plan := by rw [State.sendFlit_frame]
@[simp] theorem State.sendFlit_links_win (i ft vl dl : Nat) (fi la : Bool) (pl : List Byte) (s : State) : (State.sendFlit i ft vl dl fi la pl s).links.win = s.links.win := by rw [State.sendFlit_frame]
@[simp] theorem State.sendFlit_links_selvage (i ft vl dl : Nat) (fi la : Bool) (pl : List Byte) (s : State) : (State.sendFlit i ft vl dl fi la pl s).links.selvage = s.links.selvage := by rw [State.sendFlit_frame]
@[simp] theorem State.sendFlit_getPart (i ft vl dl : Nat) (fi la : Bool) (pl : List Byte) (s : State) (n : Nat) : (State.sendFlit i ft vl dl fi la pl s).getPart n = s.getPart n := by rw [State.sendFlit_frame]; rfl
@[simp] theorem State.sendFlit_getChan (i ft vl dl : Nat) (fi la : Bool) (pl : List Byte) (s : State) (n : Nat) : (State.sendFlit i ft vl dl fi la pl s).getChan n = s.getChan n := by rw [State.sendFlit_frame]; rfl
@[simp] theorem State.sendFlit_getFrond (i ft vl dl : Nat) (fi la : Bool) (pl : List Byte) (s : State) (n : Nat) : (State.sendFlit i ft vl dl fi la pl s).getFrond n = s.getFrond n := by rw [State.sendFlit_frame]; rfl
@[simp] theorem State.sendFlit_getCtx (i ft vl dl : Nat) (fi la : Bool) (pl : List Byte) (s : State) (n : Nat) : (State.sendFlit i ft vl dl fi la pl s).getCtx n = s.getCtx n := by rw [State.sendFlit_frame]; rfl
@[simp] theorem State.sendFlit_getWin (i ft vl dl : Nat) (fi la : Bool) (pl : List Byte) (s : State) (n : Nat) : (State.sendFlit i ft vl dl fi la pl s).getWin n = s.getWin n := by rw [State.sendFlit_frame]; rfl
@[simp] theorem State.sendFlit_getDom (i ft vl dl : Nat) (fi la : Bool) (pl : List Byte) (s : State) (n : Nat) : (State.sendFlit i ft vl dl fi la pl s).getDom n = s.getDom n := by rw [State.sendFlit_frame]; rfl

/-- All that enqueue may change. -/
theorem State.enqueue_frame (i : Nat) (f : Frame) (s : State) :
    State.enqueue i f s = { s with links := { s.links with port := (State.enqueue i f s).links.port }, out := (State.enqueue i f s).out } := by
  unfold State.enqueue; split
  · rfl
  split <;> rfl
@[simp] theorem State.enqueue_aon (i : Nat) (f : Frame) (s : State) : (State.enqueue i f s).aon = s.aon := by rw [State.enqueue_frame]
@[simp] theorem State.enqueue_far (i : Nat) (f : Frame) (s : State) : (State.enqueue i f s).far = s.far := by rw [State.enqueue_frame]
@[simp] theorem State.enqueue_store (i : Nat) (f : Frame) (s : State) : (State.enqueue i f s).store = s.store := by rw [State.enqueue_frame]
@[simp] theorem State.enqueue_sync (i : Nat) (f : Frame) (s : State) : (State.enqueue i f s).sync = s.sync := by rw [State.enqueue_frame]
@[simp] theorem State.enqueue_faults (i : Nat) (f : Frame) (s : State) : (State.enqueue i f s).faults = s.faults := by rw [State.enqueue_frame]
@[simp] theorem State.enqueue_part (i : Nat) (f : Frame) (s : State) : (State.enqueue i f s).part = s.part := by rw [State.enqueue_frame]
@[simp] theorem State.enqueue_chan (i : Nat) (f : Frame) (s : State) : (State.enqueue i f s).chan = s.chan := by rw [State.enqueue_frame]
@[simp] theorem State.enqueue_irq (i : Nat) (f : Frame) (s : State) : (State.enqueue i f s).irq = s.irq := by rw [State.enqueue_frame]
@[simp] theorem State.enqueue_links_plan (i : Nat) (f : Frame) (s : State) : (State.enqueue i f s).links.plan = s.links.plan := by rw [State.enqueue_frame]
@[simp] theorem State.enqueue_links_win (i : Nat) (f : Frame) (s : State) : (State.enqueue i f s).links.win = s.links.win := by rw [State.enqueue_frame]
@[simp] theorem State.enqueue_links_selvage (i : Nat) (f : Frame) (s : State) : (State.enqueue i f s).links.selvage = s.links.selvage := by rw [State.enqueue_frame]
@[simp] theorem State.enqueue_getPart (i : Nat) (f : Frame) (s : State) (n : Nat) : (State.enqueue i f s).getPart n = s.getPart n := by rw [State.enqueue_frame]; rfl
@[simp] theorem State.enqueue_getChan (i : Nat) (f : Frame) (s : State) (n : Nat) : (State.enqueue i f s).getChan n = s.getChan n := by rw [State.enqueue_frame]; rfl
@[simp] theorem State.enqueue_getFrond (i : Nat) (f : Frame) (s : State) (n : Nat) : (State.enqueue i f s).getFrond n = s.getFrond n := by rw [State.enqueue_frame]; rfl
@[simp] theorem State.enqueue_getCtx (i : Nat) (f : Frame) (s : State) (n : Nat) : (State.enqueue i f s).getCtx n = s.getCtx n := by rw [State.enqueue_frame]; rfl
@[simp] theorem State.enqueue_getWin (i : Nat) (f : Frame) (s : State) (n : Nat) : (State.enqueue i f s).getWin n = s.getWin n := by rw [State.enqueue_frame]; rfl
@[simp] theorem State.enqueue_getDom (i : Nat) (f : Frame) (s : State) (n : Nat) : (State.enqueue i f s).getDom n = s.getDom n := by rw [State.enqueue_frame]; rfl

/-- All that inject may change. -/
theorem State.inject_frame (f : Frame) (s : State) :
    State.inject f s = { s with links := { s.links with port := (State.inject f s).links.port }, out := (State.inject f s).out } := by
  unfold State.inject; split
  · rfl
  split
  · split
    · rw [State.enqueue_frame]
    · rfl
  · rfl
@[simp] theorem State.inject_aon (f : Frame) (s : State) : (State.inject f s).aon = s.aon := by rw [State.inject_frame]
@[simp] theorem State.inject_far (f : Frame) (s : State) : (State.inject f s).far = s.far := by rw [State.inject_frame]
@[simp] theorem State.inject_store (f : Frame) (s : State) : (State.inject f s).store = s.store := by rw [State.inject_frame]
@[simp] theorem State.inject_sync (f : Frame) (s : State) : (State.inject f s).sync = s.sync := by rw [State.inject_frame]
@[simp] theorem State.inject_faults (f : Frame) (s : State) : (State.inject f s).faults = s.faults := by rw [State.inject_frame]
@[simp] theorem State.inject_part (f : Frame) (s : State) : (State.inject f s).part = s.part := by rw [State.inject_frame]
@[simp] theorem State.inject_chan (f : Frame) (s : State) : (State.inject f s).chan = s.chan := by rw [State.inject_frame]
@[simp] theorem State.inject_irq (f : Frame) (s : State) : (State.inject f s).irq = s.irq := by rw [State.inject_frame]
@[simp] theorem State.inject_links_plan (f : Frame) (s : State) : (State.inject f s).links.plan = s.links.plan := by rw [State.inject_frame]
@[simp] theorem State.inject_links_win (f : Frame) (s : State) : (State.inject f s).links.win = s.links.win := by rw [State.inject_frame]
@[simp] theorem State.inject_links_selvage (f : Frame) (s : State) : (State.inject f s).links.selvage = s.links.selvage := by rw [State.inject_frame]
@[simp] theorem State.inject_getPart (f : Frame) (s : State) (n : Nat) : (State.inject f s).getPart n = s.getPart n := by rw [State.inject_frame]; rfl
@[simp] theorem State.inject_getChan (f : Frame) (s : State) (n : Nat) : (State.inject f s).getChan n = s.getChan n := by rw [State.inject_frame]; rfl
@[simp] theorem State.inject_getFrond (f : Frame) (s : State) (n : Nat) : (State.inject f s).getFrond n = s.getFrond n := by rw [State.inject_frame]; rfl
@[simp] theorem State.inject_getCtx (f : Frame) (s : State) (n : Nat) : (State.inject f s).getCtx n = s.getCtx n := by rw [State.inject_frame]; rfl
@[simp] theorem State.inject_getWin (f : Frame) (s : State) (n : Nat) : (State.inject f s).getWin n = s.getWin n := by rw [State.inject_frame]; rfl
@[simp] theorem State.inject_getDom (f : Frame) (s : State) (n : Nat) : (State.inject f s).getDom n = s.getDom n := by rw [State.inject_frame]; rfl

/-- All that forward may change. -/
theorem State.forward_frame (i : Nat) (f : Frame) (s : State) :
    State.forward i f s = { s with links := { s.links with port := (State.forward i f s).links.port }, out := (State.forward i f s).out } := by
  unfold State.forward; split
  · rw [State.enqueue_frame]
  · rfl
@[simp] theorem State.forward_aon (i : Nat) (f : Frame) (s : State) : (State.forward i f s).aon = s.aon := by rw [State.forward_frame]
@[simp] theorem State.forward_far (i : Nat) (f : Frame) (s : State) : (State.forward i f s).far = s.far := by rw [State.forward_frame]
@[simp] theorem State.forward_store (i : Nat) (f : Frame) (s : State) : (State.forward i f s).store = s.store := by rw [State.forward_frame]
@[simp] theorem State.forward_sync (i : Nat) (f : Frame) (s : State) : (State.forward i f s).sync = s.sync := by rw [State.forward_frame]
@[simp] theorem State.forward_faults (i : Nat) (f : Frame) (s : State) : (State.forward i f s).faults = s.faults := by rw [State.forward_frame]
@[simp] theorem State.forward_part (i : Nat) (f : Frame) (s : State) : (State.forward i f s).part = s.part := by rw [State.forward_frame]
@[simp] theorem State.forward_chan (i : Nat) (f : Frame) (s : State) : (State.forward i f s).chan = s.chan := by rw [State.forward_frame]
@[simp] theorem State.forward_irq (i : Nat) (f : Frame) (s : State) : (State.forward i f s).irq = s.irq := by rw [State.forward_frame]
@[simp] theorem State.forward_links_plan (i : Nat) (f : Frame) (s : State) : (State.forward i f s).links.plan = s.links.plan := by rw [State.forward_frame]
@[simp] theorem State.forward_links_win (i : Nat) (f : Frame) (s : State) : (State.forward i f s).links.win = s.links.win := by rw [State.forward_frame]
@[simp] theorem State.forward_links_selvage (i : Nat) (f : Frame) (s : State) : (State.forward i f s).links.selvage = s.links.selvage := by rw [State.forward_frame]
@[simp] theorem State.forward_getPart (i : Nat) (f : Frame) (s : State) (n : Nat) : (State.forward i f s).getPart n = s.getPart n := by rw [State.forward_frame]; rfl
@[simp] theorem State.forward_getChan (i : Nat) (f : Frame) (s : State) (n : Nat) : (State.forward i f s).getChan n = s.getChan n := by rw [State.forward_frame]; rfl
@[simp] theorem State.forward_getFrond (i : Nat) (f : Frame) (s : State) (n : Nat) : (State.forward i f s).getFrond n = s.getFrond n := by rw [State.forward_frame]; rfl
@[simp] theorem State.forward_getCtx (i : Nat) (f : Frame) (s : State) (n : Nat) : (State.forward i f s).getCtx n = s.getCtx n := by rw [State.forward_frame]; rfl
@[simp] theorem State.forward_getWin (i : Nat) (f : Frame) (s : State) (n : Nat) : (State.forward i f s).getWin n = s.getWin n := by rw [State.forward_frame]; rfl
@[simp] theorem State.forward_getDom (i : Nat) (f : Frame) (s : State) (n : Nat) : (State.forward i f s).getDom n = s.getDom n := by rw [State.forward_frame]; rfl

/-- All that sendTwin may change. -/
theorem State.sendTwin_frame (f : Frame) (s : State) :
    State.sendTwin f s = { s with links := { s.links with port := (State.sendTwin f s).links.port }, out := (State.sendTwin f s).out } := by
  unfold State.sendTwin; rw [State.enqueue_frame]
@[simp] theorem State.sendTwin_aon (f : Frame) (s : State) : (State.sendTwin f s).aon = s.aon := by rw [State.sendTwin_frame]
@[simp] theorem State.sendTwin_far (f : Frame) (s : State) : (State.sendTwin f s).far = s.far := by rw [State.sendTwin_frame]
@[simp] theorem State.sendTwin_store (f : Frame) (s : State) : (State.sendTwin f s).store = s.store := by rw [State.sendTwin_frame]
@[simp] theorem State.sendTwin_sync (f : Frame) (s : State) : (State.sendTwin f s).sync = s.sync := by rw [State.sendTwin_frame]
@[simp] theorem State.sendTwin_faults (f : Frame) (s : State) : (State.sendTwin f s).faults = s.faults := by rw [State.sendTwin_frame]
@[simp] theorem State.sendTwin_part (f : Frame) (s : State) : (State.sendTwin f s).part = s.part := by rw [State.sendTwin_frame]
@[simp] theorem State.sendTwin_chan (f : Frame) (s : State) : (State.sendTwin f s).chan = s.chan := by rw [State.sendTwin_frame]
@[simp] theorem State.sendTwin_irq (f : Frame) (s : State) : (State.sendTwin f s).irq = s.irq := by rw [State.sendTwin_frame]
@[simp] theorem State.sendTwin_links_plan (f : Frame) (s : State) : (State.sendTwin f s).links.plan = s.links.plan := by rw [State.sendTwin_frame]
@[simp] theorem State.sendTwin_links_win (f : Frame) (s : State) : (State.sendTwin f s).links.win = s.links.win := by rw [State.sendTwin_frame]
@[simp] theorem State.sendTwin_links_selvage (f : Frame) (s : State) : (State.sendTwin f s).links.selvage = s.links.selvage := by rw [State.sendTwin_frame]
@[simp] theorem State.sendTwin_getPart (f : Frame) (s : State) (n : Nat) : (State.sendTwin f s).getPart n = s.getPart n := by rw [State.sendTwin_frame]; rfl
@[simp] theorem State.sendTwin_getChan (f : Frame) (s : State) (n : Nat) : (State.sendTwin f s).getChan n = s.getChan n := by rw [State.sendTwin_frame]; rfl
@[simp] theorem State.sendTwin_getFrond (f : Frame) (s : State) (n : Nat) : (State.sendTwin f s).getFrond n = s.getFrond n := by rw [State.sendTwin_frame]; rfl
@[simp] theorem State.sendTwin_getCtx (f : Frame) (s : State) (n : Nat) : (State.sendTwin f s).getCtx n = s.getCtx n := by rw [State.sendTwin_frame]; rfl
@[simp] theorem State.sendTwin_getWin (f : Frame) (s : State) (n : Nat) : (State.sendTwin f s).getWin n = s.getWin n := by rw [State.sendTwin_frame]; rfl
@[simp] theorem State.sendTwin_getDom (f : Frame) (s : State) (n : Nat) : (State.sendTwin f s).getDom n = s.getDom n := by rw [State.sendTwin_frame]; rfl

/-- All that sendHop may change. -/
theorem State.sendHop_frame (i : Nat) (f : Frame) (s : State) :
    State.sendHop i f s = { s with links := { s.links with port := (State.sendHop i f s).links.port }, out := (State.sendHop i f s).out } := by
  unfold State.sendHop; rw [State.enqueue_frame]
@[simp] theorem State.sendHop_aon (i : Nat) (f : Frame) (s : State) : (State.sendHop i f s).aon = s.aon := by rw [State.sendHop_frame]
@[simp] theorem State.sendHop_far (i : Nat) (f : Frame) (s : State) : (State.sendHop i f s).far = s.far := by rw [State.sendHop_frame]
@[simp] theorem State.sendHop_store (i : Nat) (f : Frame) (s : State) : (State.sendHop i f s).store = s.store := by rw [State.sendHop_frame]
@[simp] theorem State.sendHop_sync (i : Nat) (f : Frame) (s : State) : (State.sendHop i f s).sync = s.sync := by rw [State.sendHop_frame]
@[simp] theorem State.sendHop_faults (i : Nat) (f : Frame) (s : State) : (State.sendHop i f s).faults = s.faults := by rw [State.sendHop_frame]
@[simp] theorem State.sendHop_part (i : Nat) (f : Frame) (s : State) : (State.sendHop i f s).part = s.part := by rw [State.sendHop_frame]
@[simp] theorem State.sendHop_chan (i : Nat) (f : Frame) (s : State) : (State.sendHop i f s).chan = s.chan := by rw [State.sendHop_frame]
@[simp] theorem State.sendHop_irq (i : Nat) (f : Frame) (s : State) : (State.sendHop i f s).irq = s.irq := by rw [State.sendHop_frame]
@[simp] theorem State.sendHop_links_plan (i : Nat) (f : Frame) (s : State) : (State.sendHop i f s).links.plan = s.links.plan := by rw [State.sendHop_frame]
@[simp] theorem State.sendHop_links_win (i : Nat) (f : Frame) (s : State) : (State.sendHop i f s).links.win = s.links.win := by rw [State.sendHop_frame]
@[simp] theorem State.sendHop_links_selvage (i : Nat) (f : Frame) (s : State) : (State.sendHop i f s).links.selvage = s.links.selvage := by rw [State.sendHop_frame]
@[simp] theorem State.sendHop_getPart (i : Nat) (f : Frame) (s : State) (n : Nat) : (State.sendHop i f s).getPart n = s.getPart n := by rw [State.sendHop_frame]; rfl
@[simp] theorem State.sendHop_getChan (i : Nat) (f : Frame) (s : State) (n : Nat) : (State.sendHop i f s).getChan n = s.getChan n := by rw [State.sendHop_frame]; rfl
@[simp] theorem State.sendHop_getFrond (i : Nat) (f : Frame) (s : State) (n : Nat) : (State.sendHop i f s).getFrond n = s.getFrond n := by rw [State.sendHop_frame]; rfl
@[simp] theorem State.sendHop_getCtx (i : Nat) (f : Frame) (s : State) (n : Nat) : (State.sendHop i f s).getCtx n = s.getCtx n := by rw [State.sendHop_frame]; rfl
@[simp] theorem State.sendHop_getWin (i : Nat) (f : Frame) (s : State) (n : Nat) : (State.sendHop i f s).getWin n = s.getWin n := by rw [State.sendHop_frame]; rfl
@[simp] theorem State.sendHop_getDom (i : Nat) (f : Frame) (s : State) (n : Nat) : (State.sendHop i f s).getDom n = s.getDom n := by rw [State.sendHop_frame]; rfl

/-- All that emits may change. -/
theorem State.emits_frame (os : List Output) (s : State) :
    State.emits os s = { s with out := (State.emits os s).out } := by
  rfl
@[simp] theorem State.emits_aon (os : List Output) (s : State) : (State.emits os s).aon = s.aon := by rw [State.emits_frame]
@[simp] theorem State.emits_far (os : List Output) (s : State) : (State.emits os s).far = s.far := by rw [State.emits_frame]
@[simp] theorem State.emits_store (os : List Output) (s : State) : (State.emits os s).store = s.store := by rw [State.emits_frame]
@[simp] theorem State.emits_sync (os : List Output) (s : State) : (State.emits os s).sync = s.sync := by rw [State.emits_frame]
@[simp] theorem State.emits_faults (os : List Output) (s : State) : (State.emits os s).faults = s.faults := by rw [State.emits_frame]
@[simp] theorem State.emits_links (os : List Output) (s : State) : (State.emits os s).links = s.links := by rw [State.emits_frame]
@[simp] theorem State.emits_part (os : List Output) (s : State) : (State.emits os s).part = s.part := by rw [State.emits_frame]
@[simp] theorem State.emits_chan (os : List Output) (s : State) : (State.emits os s).chan = s.chan := by rw [State.emits_frame]
@[simp] theorem State.emits_irq (os : List Output) (s : State) : (State.emits os s).irq = s.irq := by rw [State.emits_frame]
@[simp] theorem State.emits_getPart (os : List Output) (s : State) (n : Nat) : (State.emits os s).getPart n = s.getPart n := by rw [State.emits_frame]; rfl
@[simp] theorem State.emits_getChan (os : List Output) (s : State) (n : Nat) : (State.emits os s).getChan n = s.getChan n := by rw [State.emits_frame]; rfl
@[simp] theorem State.emits_getPort (os : List Output) (s : State) (n : Nat) : (State.emits os s).getPort n = s.getPort n := by rw [State.emits_frame]; rfl
@[simp] theorem State.emits_getFrond (os : List Output) (s : State) (n : Nat) : (State.emits os s).getFrond n = s.getFrond n := by rw [State.emits_frame]; rfl
@[simp] theorem State.emits_getCtx (os : List Output) (s : State) (n : Nat) : (State.emits os s).getCtx n = s.getCtx n := by rw [State.emits_frame]; rfl
@[simp] theorem State.emits_getWin (os : List Output) (s : State) (n : Nat) : (State.emits os s).getWin n = s.getWin n := by rw [State.emits_frame]; rfl
@[simp] theorem State.emits_getDom (os : List Output) (s : State) (n : Nat) : (State.emits os s).getDom n = s.getDom n := by rw [State.emits_frame]; rfl

/-- All that ringRecord may change. -/
theorem State.ringRecord_frame (ch rt : Nat) (src : Coord) (sp : Nat) (pl : List Byte) (s : State) :
    State.ringRecord ch rt src sp pl s = { s with chan := (State.ringRecord ch rt src sp pl s).chan, irq := (State.ringRecord ch rt src sp pl s).irq, pcie := (State.ringRecord ch rt src sp pl s).pcie, out := (State.ringRecord ch rt src sp pl s).out } := by
  unfold State.ringRecord; dsimp only; split
  · rw [State.ringHost_frame]; rfl
  · rw [State.raise_frame, State.ringHost_frame]; split <;> rfl
@[simp] theorem State.ringRecord_aon (ch rt : Nat) (src : Coord) (sp : Nat) (pl : List Byte) (s : State) : (State.ringRecord ch rt src sp pl s).aon = s.aon := by rw [State.ringRecord_frame]
@[simp] theorem State.ringRecord_far (ch rt : Nat) (src : Coord) (sp : Nat) (pl : List Byte) (s : State) : (State.ringRecord ch rt src sp pl s).far = s.far := by rw [State.ringRecord_frame]
@[simp] theorem State.ringRecord_store (ch rt : Nat) (src : Coord) (sp : Nat) (pl : List Byte) (s : State) : (State.ringRecord ch rt src sp pl s).store = s.store := by rw [State.ringRecord_frame]
@[simp] theorem State.ringRecord_sync (ch rt : Nat) (src : Coord) (sp : Nat) (pl : List Byte) (s : State) : (State.ringRecord ch rt src sp pl s).sync = s.sync := by rw [State.ringRecord_frame]
@[simp] theorem State.ringRecord_faults (ch rt : Nat) (src : Coord) (sp : Nat) (pl : List Byte) (s : State) : (State.ringRecord ch rt src sp pl s).faults = s.faults := by rw [State.ringRecord_frame]
@[simp] theorem State.ringRecord_links (ch rt : Nat) (src : Coord) (sp : Nat) (pl : List Byte) (s : State) : (State.ringRecord ch rt src sp pl s).links = s.links := by rw [State.ringRecord_frame]
@[simp] theorem State.ringRecord_part (ch rt : Nat) (src : Coord) (sp : Nat) (pl : List Byte) (s : State) : (State.ringRecord ch rt src sp pl s).part = s.part := by rw [State.ringRecord_frame]
@[simp] theorem State.ringRecord_getPart (ch rt : Nat) (src : Coord) (sp : Nat) (pl : List Byte) (s : State) (n : Nat) : (State.ringRecord ch rt src sp pl s).getPart n = s.getPart n := by rw [State.ringRecord_frame]; rfl
@[simp] theorem State.ringRecord_getPort (ch rt : Nat) (src : Coord) (sp : Nat) (pl : List Byte) (s : State) (n : Nat) : (State.ringRecord ch rt src sp pl s).getPort n = s.getPort n := by rw [State.ringRecord_frame]; rfl
@[simp] theorem State.ringRecord_getFrond (ch rt : Nat) (src : Coord) (sp : Nat) (pl : List Byte) (s : State) (n : Nat) : (State.ringRecord ch rt src sp pl s).getFrond n = s.getFrond n := by rw [State.ringRecord_frame]; rfl
@[simp] theorem State.ringRecord_getCtx (ch rt : Nat) (src : Coord) (sp : Nat) (pl : List Byte) (s : State) (n : Nat) : (State.ringRecord ch rt src sp pl s).getCtx n = s.getCtx n := by rw [State.ringRecord_frame]; rfl
@[simp] theorem State.ringRecord_getWin (ch rt : Nat) (src : Coord) (sp : Nat) (pl : List Byte) (s : State) (n : Nat) : (State.ringRecord ch rt src sp pl s).getWin n = s.getWin n := by rw [State.ringRecord_frame]; rfl
@[simp] theorem State.ringRecord_getDom (ch rt : Nat) (src : Coord) (sp : Nat) (pl : List Byte) (s : State) (n : Nat) : (State.ringRecord ch rt src sp pl s).getDom n = s.getDom n := by rw [State.ringRecord_frame]; rfl

/-- All that replyFrame may change. -/
theorem State.replyFrame_frame (h : Held) (st : Status) (fin : Bool) (ws : List Nat) (r : List Byte) (s : State) :
    State.replyFrame h st fin ws r s = { s with links := { s.links with port := (State.replyFrame h st fin ws r s).links.port }, out := (State.replyFrame h st fin ws r s).out } := by
  unfold State.replyFrame; dsimp only; split
  · rfl
  · rw [State.inject_frame]
  · rw [State.sendTwin_frame]
@[simp] theorem State.replyFrame_aon (h : Held) (st : Status) (fin : Bool) (ws : List Nat) (r : List Byte) (s : State) : (State.replyFrame h st fin ws r s).aon = s.aon := by rw [State.replyFrame_frame]
@[simp] theorem State.replyFrame_far (h : Held) (st : Status) (fin : Bool) (ws : List Nat) (r : List Byte) (s : State) : (State.replyFrame h st fin ws r s).far = s.far := by rw [State.replyFrame_frame]
@[simp] theorem State.replyFrame_store (h : Held) (st : Status) (fin : Bool) (ws : List Nat) (r : List Byte) (s : State) : (State.replyFrame h st fin ws r s).store = s.store := by rw [State.replyFrame_frame]
@[simp] theorem State.replyFrame_sync (h : Held) (st : Status) (fin : Bool) (ws : List Nat) (r : List Byte) (s : State) : (State.replyFrame h st fin ws r s).sync = s.sync := by rw [State.replyFrame_frame]
@[simp] theorem State.replyFrame_faults (h : Held) (st : Status) (fin : Bool) (ws : List Nat) (r : List Byte) (s : State) : (State.replyFrame h st fin ws r s).faults = s.faults := by rw [State.replyFrame_frame]
@[simp] theorem State.replyFrame_part (h : Held) (st : Status) (fin : Bool) (ws : List Nat) (r : List Byte) (s : State) : (State.replyFrame h st fin ws r s).part = s.part := by rw [State.replyFrame_frame]
@[simp] theorem State.replyFrame_chan (h : Held) (st : Status) (fin : Bool) (ws : List Nat) (r : List Byte) (s : State) : (State.replyFrame h st fin ws r s).chan = s.chan := by rw [State.replyFrame_frame]
@[simp] theorem State.replyFrame_irq (h : Held) (st : Status) (fin : Bool) (ws : List Nat) (r : List Byte) (s : State) : (State.replyFrame h st fin ws r s).irq = s.irq := by rw [State.replyFrame_frame]
@[simp] theorem State.replyFrame_links_plan (h : Held) (st : Status) (fin : Bool) (ws : List Nat) (r : List Byte) (s : State) : (State.replyFrame h st fin ws r s).links.plan = s.links.plan := by rw [State.replyFrame_frame]
@[simp] theorem State.replyFrame_links_win (h : Held) (st : Status) (fin : Bool) (ws : List Nat) (r : List Byte) (s : State) : (State.replyFrame h st fin ws r s).links.win = s.links.win := by rw [State.replyFrame_frame]
@[simp] theorem State.replyFrame_links_selvage (h : Held) (st : Status) (fin : Bool) (ws : List Nat) (r : List Byte) (s : State) : (State.replyFrame h st fin ws r s).links.selvage = s.links.selvage := by rw [State.replyFrame_frame]
@[simp] theorem State.replyFrame_getPart (h : Held) (st : Status) (fin : Bool) (ws : List Nat) (r : List Byte) (s : State) (n : Nat) : (State.replyFrame h st fin ws r s).getPart n = s.getPart n := by rw [State.replyFrame_frame]; rfl
@[simp] theorem State.replyFrame_getChan (h : Held) (st : Status) (fin : Bool) (ws : List Nat) (r : List Byte) (s : State) (n : Nat) : (State.replyFrame h st fin ws r s).getChan n = s.getChan n := by rw [State.replyFrame_frame]; rfl
@[simp] theorem State.replyFrame_getFrond (h : Held) (st : Status) (fin : Bool) (ws : List Nat) (r : List Byte) (s : State) (n : Nat) : (State.replyFrame h st fin ws r s).getFrond n = s.getFrond n := by rw [State.replyFrame_frame]; rfl
@[simp] theorem State.replyFrame_getCtx (h : Held) (st : Status) (fin : Bool) (ws : List Nat) (r : List Byte) (s : State) (n : Nat) : (State.replyFrame h st fin ws r s).getCtx n = s.getCtx n := by rw [State.replyFrame_frame]; rfl
@[simp] theorem State.replyFrame_getWin (h : Held) (st : Status) (fin : Bool) (ws : List Nat) (r : List Byte) (s : State) (n : Nat) : (State.replyFrame h st fin ws r s).getWin n = s.getWin n := by rw [State.replyFrame_frame]; rfl
@[simp] theorem State.replyFrame_getDom (h : Held) (st : Status) (fin : Bool) (ws : List Nat) (r : List Byte) (s : State) (n : Nat) : (State.replyFrame h st fin ws r s).getDom n = s.getDom n := by rw [State.replyFrame_frame]; rfl

/-- All that writeRecord may change. -/
theorem State.writeRecord_frame (ch : Nat) (h : Held) (r : List Byte) (s : State) :
    State.writeRecord ch h r s = { s with out := (State.writeRecord ch h r s).out, bulk := (State.writeRecord ch h r s).bulk } := by
  unfold State.writeRecord; split
  · rfl
  split <;> rfl
@[simp] theorem State.writeRecord_aon (ch : Nat) (h : Held) (r : List Byte) (s : State) : (State.writeRecord ch h r s).aon = s.aon := by rw [State.writeRecord_frame]
@[simp] theorem State.writeRecord_far (ch : Nat) (h : Held) (r : List Byte) (s : State) : (State.writeRecord ch h r s).far = s.far := by rw [State.writeRecord_frame]
@[simp] theorem State.writeRecord_store (ch : Nat) (h : Held) (r : List Byte) (s : State) : (State.writeRecord ch h r s).store = s.store := by rw [State.writeRecord_frame]
@[simp] theorem State.writeRecord_sync (ch : Nat) (h : Held) (r : List Byte) (s : State) : (State.writeRecord ch h r s).sync = s.sync := by rw [State.writeRecord_frame]
@[simp] theorem State.writeRecord_faults (ch : Nat) (h : Held) (r : List Byte) (s : State) : (State.writeRecord ch h r s).faults = s.faults := by rw [State.writeRecord_frame]
@[simp] theorem State.writeRecord_links (ch : Nat) (h : Held) (r : List Byte) (s : State) : (State.writeRecord ch h r s).links = s.links := by rw [State.writeRecord_frame]
@[simp] theorem State.writeRecord_part (ch : Nat) (h : Held) (r : List Byte) (s : State) : (State.writeRecord ch h r s).part = s.part := by rw [State.writeRecord_frame]
@[simp] theorem State.writeRecord_chan (ch : Nat) (h : Held) (r : List Byte) (s : State) : (State.writeRecord ch h r s).chan = s.chan := by rw [State.writeRecord_frame]
@[simp] theorem State.writeRecord_irq (ch : Nat) (h : Held) (r : List Byte) (s : State) : (State.writeRecord ch h r s).irq = s.irq := by rw [State.writeRecord_frame]
@[simp] theorem State.writeRecord_getPart (ch : Nat) (h : Held) (r : List Byte) (s : State) (n : Nat) : (State.writeRecord ch h r s).getPart n = s.getPart n := by rw [State.writeRecord_frame]; rfl
@[simp] theorem State.writeRecord_getChan (ch : Nat) (h : Held) (r : List Byte) (s : State) (n : Nat) : (State.writeRecord ch h r s).getChan n = s.getChan n := by rw [State.writeRecord_frame]; rfl
@[simp] theorem State.writeRecord_getPort (ch : Nat) (h : Held) (r : List Byte) (s : State) (n : Nat) : (State.writeRecord ch h r s).getPort n = s.getPort n := by rw [State.writeRecord_frame]; rfl
@[simp] theorem State.writeRecord_getFrond (ch : Nat) (h : Held) (r : List Byte) (s : State) (n : Nat) : (State.writeRecord ch h r s).getFrond n = s.getFrond n := by rw [State.writeRecord_frame]; rfl
@[simp] theorem State.writeRecord_getCtx (ch : Nat) (h : Held) (r : List Byte) (s : State) (n : Nat) : (State.writeRecord ch h r s).getCtx n = s.getCtx n := by rw [State.writeRecord_frame]; rfl
@[simp] theorem State.writeRecord_getWin (ch : Nat) (h : Held) (r : List Byte) (s : State) (n : Nat) : (State.writeRecord ch h r s).getWin n = s.getWin n := by rw [State.writeRecord_frame]; rfl
@[simp] theorem State.writeRecord_getDom (ch : Nat) (h : Held) (r : List Byte) (s : State) (n : Nat) : (State.writeRecord ch h r s).getDom n = s.getDom n := by rw [State.writeRecord_frame]; rfl

/-- All that finish may change. -/
theorem State.finish_frame (ch : Nat) (st : Status) (ws : List Nat) (r : List Byte) (s : State) :
    State.finish ch st ws r s = { s with chan := (State.finish ch st ws r s).chan, irq := (State.finish ch st ws r s).irq, pcie := (State.finish ch st ws r s).pcie, out := (State.finish ch st ws r s).out, bulk := (State.finish ch st ws r s).bulk, links := { s.links with port := (State.finish ch st ws r s).links.port } } := by
  unfold State.finish; split
  · rfl
  · dsimp only; split
    · rw [State.ringHost_frame]; rw [State.writeRecord_frame]; split
      · rw [State.raise_frame]; rfl
      · rfl
    · rw [State.replyFrame_frame]; split
      · rw [State.raise_frame]; rfl
      · rfl
@[simp] theorem State.finish_aon (ch : Nat) (st : Status) (ws : List Nat) (r : List Byte) (s : State) : (State.finish ch st ws r s).aon = s.aon := by rw [State.finish_frame]
@[simp] theorem State.finish_far (ch : Nat) (st : Status) (ws : List Nat) (r : List Byte) (s : State) : (State.finish ch st ws r s).far = s.far := by rw [State.finish_frame]
@[simp] theorem State.finish_store (ch : Nat) (st : Status) (ws : List Nat) (r : List Byte) (s : State) : (State.finish ch st ws r s).store = s.store := by rw [State.finish_frame]
@[simp] theorem State.finish_sync (ch : Nat) (st : Status) (ws : List Nat) (r : List Byte) (s : State) : (State.finish ch st ws r s).sync = s.sync := by rw [State.finish_frame]
@[simp] theorem State.finish_faults (ch : Nat) (st : Status) (ws : List Nat) (r : List Byte) (s : State) : (State.finish ch st ws r s).faults = s.faults := by rw [State.finish_frame]
@[simp] theorem State.finish_part (ch : Nat) (st : Status) (ws : List Nat) (r : List Byte) (s : State) : (State.finish ch st ws r s).part = s.part := by rw [State.finish_frame]
@[simp] theorem State.finish_links_plan (ch : Nat) (st : Status) (ws : List Nat) (r : List Byte) (s : State) : (State.finish ch st ws r s).links.plan = s.links.plan := by rw [State.finish_frame]
@[simp] theorem State.finish_links_win (ch : Nat) (st : Status) (ws : List Nat) (r : List Byte) (s : State) : (State.finish ch st ws r s).links.win = s.links.win := by rw [State.finish_frame]
@[simp] theorem State.finish_links_selvage (ch : Nat) (st : Status) (ws : List Nat) (r : List Byte) (s : State) : (State.finish ch st ws r s).links.selvage = s.links.selvage := by rw [State.finish_frame]
@[simp] theorem State.finish_getPart (ch : Nat) (st : Status) (ws : List Nat) (r : List Byte) (s : State) (n : Nat) : (State.finish ch st ws r s).getPart n = s.getPart n := by rw [State.finish_frame]; rfl
@[simp] theorem State.finish_getFrond (ch : Nat) (st : Status) (ws : List Nat) (r : List Byte) (s : State) (n : Nat) : (State.finish ch st ws r s).getFrond n = s.getFrond n := by rw [State.finish_frame]; rfl
@[simp] theorem State.finish_getCtx (ch : Nat) (st : Status) (ws : List Nat) (r : List Byte) (s : State) (n : Nat) : (State.finish ch st ws r s).getCtx n = s.getCtx n := by rw [State.finish_frame]; rfl
@[simp] theorem State.finish_getWin (ch : Nat) (st : Status) (ws : List Nat) (r : List Byte) (s : State) (n : Nat) : (State.finish ch st ws r s).getWin n = s.getWin n := by rw [State.finish_frame]; rfl
@[simp] theorem State.finish_getDom (ch : Nat) (st : Status) (ws : List Nat) (r : List Byte) (s : State) (n : Nat) : (State.finish ch st ws r s).getDom n = s.getDom n := by rw [State.finish_frame]; rfl

/-- All that answer may change. -/
theorem State.answer_frame (ch : Nat) (st : Status) (ws : List Nat) (s : State) :
    State.answer ch st ws s = { s with chan := (State.answer ch st ws s).chan, irq := (State.answer ch st ws s).irq, pcie := (State.answer ch st ws s).pcie, out := (State.answer ch st ws s).out, bulk := (State.answer ch st ws s).bulk, links := { s.links with port := (State.answer ch st ws s).links.port } } := by
  unfold State.answer; rw [State.finish_frame]
@[simp] theorem State.answer_aon (ch : Nat) (st : Status) (ws : List Nat) (s : State) : (State.answer ch st ws s).aon = s.aon := by rw [State.answer_frame]
@[simp] theorem State.answer_far (ch : Nat) (st : Status) (ws : List Nat) (s : State) : (State.answer ch st ws s).far = s.far := by rw [State.answer_frame]
@[simp] theorem State.answer_store (ch : Nat) (st : Status) (ws : List Nat) (s : State) : (State.answer ch st ws s).store = s.store := by rw [State.answer_frame]
@[simp] theorem State.answer_sync (ch : Nat) (st : Status) (ws : List Nat) (s : State) : (State.answer ch st ws s).sync = s.sync := by rw [State.answer_frame]
@[simp] theorem State.answer_faults (ch : Nat) (st : Status) (ws : List Nat) (s : State) : (State.answer ch st ws s).faults = s.faults := by rw [State.answer_frame]
@[simp] theorem State.answer_part (ch : Nat) (st : Status) (ws : List Nat) (s : State) : (State.answer ch st ws s).part = s.part := by rw [State.answer_frame]
@[simp] theorem State.answer_links_plan (ch : Nat) (st : Status) (ws : List Nat) (s : State) : (State.answer ch st ws s).links.plan = s.links.plan := by rw [State.answer_frame]
@[simp] theorem State.answer_links_win (ch : Nat) (st : Status) (ws : List Nat) (s : State) : (State.answer ch st ws s).links.win = s.links.win := by rw [State.answer_frame]
@[simp] theorem State.answer_links_selvage (ch : Nat) (st : Status) (ws : List Nat) (s : State) : (State.answer ch st ws s).links.selvage = s.links.selvage := by rw [State.answer_frame]
@[simp] theorem State.answer_getPart (ch : Nat) (st : Status) (ws : List Nat) (s : State) (n : Nat) : (State.answer ch st ws s).getPart n = s.getPart n := by rw [State.answer_frame]; rfl
@[simp] theorem State.answer_getFrond (ch : Nat) (st : Status) (ws : List Nat) (s : State) (n : Nat) : (State.answer ch st ws s).getFrond n = s.getFrond n := by rw [State.answer_frame]; rfl
@[simp] theorem State.answer_getCtx (ch : Nat) (st : Status) (ws : List Nat) (s : State) (n : Nat) : (State.answer ch st ws s).getCtx n = s.getCtx n := by rw [State.answer_frame]; rfl
@[simp] theorem State.answer_getWin (ch : Nat) (st : Status) (ws : List Nat) (s : State) (n : Nat) : (State.answer ch st ws s).getWin n = s.getWin n := by rw [State.answer_frame]; rfl
@[simp] theorem State.answer_getDom (ch : Nat) (st : Status) (ws : List Nat) (s : State) (n : Nat) : (State.answer ch st ws s).getDom n = s.getDom n := by rw [State.answer_frame]; rfl

/-- All that accept may change. -/
theorem State.accept_frame (ch : Nat) (s : State) :
    State.accept ch s = { s with chan := (State.accept ch s).chan, irq := (State.accept ch s).irq, pcie := (State.accept ch s).pcie, out := (State.accept ch s).out, links := { s.links with port := (State.accept ch s).links.port } } := by
  unfold State.accept; split
  · rfl
  · dsimp only; split
    · rw [State.ringHost_frame]; rfl
    · rw [State.replyFrame_frame]; rfl
@[simp] theorem State.accept_aon (ch : Nat) (s : State) : (State.accept ch s).aon = s.aon := by rw [State.accept_frame]
@[simp] theorem State.accept_far (ch : Nat) (s : State) : (State.accept ch s).far = s.far := by rw [State.accept_frame]
@[simp] theorem State.accept_store (ch : Nat) (s : State) : (State.accept ch s).store = s.store := by rw [State.accept_frame]
@[simp] theorem State.accept_sync (ch : Nat) (s : State) : (State.accept ch s).sync = s.sync := by rw [State.accept_frame]
@[simp] theorem State.accept_faults (ch : Nat) (s : State) : (State.accept ch s).faults = s.faults := by rw [State.accept_frame]
@[simp] theorem State.accept_part (ch : Nat) (s : State) : (State.accept ch s).part = s.part := by rw [State.accept_frame]
@[simp] theorem State.accept_links_plan (ch : Nat) (s : State) : (State.accept ch s).links.plan = s.links.plan := by rw [State.accept_frame]
@[simp] theorem State.accept_links_win (ch : Nat) (s : State) : (State.accept ch s).links.win = s.links.win := by rw [State.accept_frame]
@[simp] theorem State.accept_links_selvage (ch : Nat) (s : State) : (State.accept ch s).links.selvage = s.links.selvage := by rw [State.accept_frame]
@[simp] theorem State.accept_getPart (ch : Nat) (s : State) (n : Nat) : (State.accept ch s).getPart n = s.getPart n := by rw [State.accept_frame]; rfl
@[simp] theorem State.accept_getFrond (ch : Nat) (s : State) (n : Nat) : (State.accept ch s).getFrond n = s.getFrond n := by rw [State.accept_frame]; rfl
@[simp] theorem State.accept_getCtx (ch : Nat) (s : State) (n : Nat) : (State.accept ch s).getCtx n = s.getCtx n := by rw [State.accept_frame]; rfl
@[simp] theorem State.accept_getWin (ch : Nat) (s : State) (n : Nat) : (State.accept ch s).getWin n = s.getWin n := by rw [State.accept_frame]; rfl
@[simp] theorem State.accept_getDom (ch : Nat) (s : State) (n : Nat) : (State.accept ch s).getDom n = s.getDom n := by rw [State.accept_frame]; rfl

/-- All that markStepped may change. -/
theorem State.markStepped_frame (ch : Nat) (s : State) :
    State.markStepped ch s = { s with chan := (State.markStepped ch s).chan } := by
  rfl
@[simp] theorem State.markStepped_aon (ch : Nat) (s : State) : (State.markStepped ch s).aon = s.aon := by rw [State.markStepped_frame]
@[simp] theorem State.markStepped_far (ch : Nat) (s : State) : (State.markStepped ch s).far = s.far := by rw [State.markStepped_frame]
@[simp] theorem State.markStepped_store (ch : Nat) (s : State) : (State.markStepped ch s).store = s.store := by rw [State.markStepped_frame]
@[simp] theorem State.markStepped_sync (ch : Nat) (s : State) : (State.markStepped ch s).sync = s.sync := by rw [State.markStepped_frame]
@[simp] theorem State.markStepped_faults (ch : Nat) (s : State) : (State.markStepped ch s).faults = s.faults := by rw [State.markStepped_frame]
@[simp] theorem State.markStepped_links (ch : Nat) (s : State) : (State.markStepped ch s).links = s.links := by rw [State.markStepped_frame]
@[simp] theorem State.markStepped_part (ch : Nat) (s : State) : (State.markStepped ch s).part = s.part := by rw [State.markStepped_frame]
@[simp] theorem State.markStepped_irq (ch : Nat) (s : State) : (State.markStepped ch s).irq = s.irq := by rw [State.markStepped_frame]
@[simp] theorem State.markStepped_getPart (ch : Nat) (s : State) (n : Nat) : (State.markStepped ch s).getPart n = s.getPart n := by rw [State.markStepped_frame]; rfl
@[simp] theorem State.markStepped_getPort (ch : Nat) (s : State) (n : Nat) : (State.markStepped ch s).getPort n = s.getPort n := by rw [State.markStepped_frame]; rfl
@[simp] theorem State.markStepped_getFrond (ch : Nat) (s : State) (n : Nat) : (State.markStepped ch s).getFrond n = s.getFrond n := by rw [State.markStepped_frame]; rfl
@[simp] theorem State.markStepped_getCtx (ch : Nat) (s : State) (n : Nat) : (State.markStepped ch s).getCtx n = s.getCtx n := by rw [State.markStepped_frame]; rfl
@[simp] theorem State.markStepped_getWin (ch : Nat) (s : State) (n : Nat) : (State.markStepped ch s).getWin n = s.getWin n := by rw [State.markStepped_frame]; rfl
@[simp] theorem State.markStepped_getDom (ch : Nat) (s : State) (n : Nat) : (State.markStepped ch s).getDom n = s.getDom n := by rw [State.markStepped_frame]; rfl

/-- A state that differs from another in its fronds and partitions only. -/
def State.Pattern (s t : State) : Prop := t = { s with frond := t.frond, part := t.part }

theorem State.Pattern.refl (s : State) : s.Pattern s := rfl
theorem State.Pattern.trans {s t u : State} (h : s.Pattern t) (k : t.Pattern u) : s.Pattern u := by
  unfold State.Pattern at *; rw [k, h]

/-- What a warden's issue records is in its frond and its partition. -/
theorem State.noteVote_pattern (p : Nat) (s : State) : s.Pattern (s.noteVote p) := by
  unfold State.noteVote State.Pattern; split <;> rfl

/-- A stalled warden that goes on changes its frond and its partition only. -/
theorem State.wakeWarden_pattern (f w : Nat) (s : State) : s.Pattern (s.wakeWarden f w) := by
  unfold State.wakeWarden
  split
  · exact ite_holds rfl (.refl s)
  · exact ite_holds (State.Pattern.trans (t := ((s.setWait f w none).recordIssue _ _).updRun _ _) rfl (State.noteVote_pattern _ _)) (.refl s)
  · exact .refl s

/-- All that raiseToken may change. -/
theorem State.raiseToken_frame (f k : Nat) (s : State) :
    State.raiseToken f k s = { s with frond := (State.raiseToken f k s).frond, part := (State.raiseToken f k s).part } :=
  forAll_inv (fun t => s.Pattern t) _ _ _ (show s.Pattern (s.countToken f k) from rfl)
    fun w _ t ht => ht.trans (State.wakeWarden_pattern f w t)
@[simp] theorem State.raiseToken_aon (f k : Nat) (s : State) : (State.raiseToken f k s).aon = s.aon := by rw [State.raiseToken_frame]
@[simp] theorem State.raiseToken_far (f k : Nat) (s : State) : (State.raiseToken f k s).far = s.far := by rw [State.raiseToken_frame]
@[simp] theorem State.raiseToken_store (f k : Nat) (s : State) : (State.raiseToken f k s).store = s.store := by rw [State.raiseToken_frame]
@[simp] theorem State.raiseToken_sync (f k : Nat) (s : State) : (State.raiseToken f k s).sync = s.sync := by rw [State.raiseToken_frame]
@[simp] theorem State.raiseToken_faults (f k : Nat) (s : State) : (State.raiseToken f k s).faults = s.faults := by rw [State.raiseToken_frame]
@[simp] theorem State.raiseToken_links (f k : Nat) (s : State) : (State.raiseToken f k s).links = s.links := by rw [State.raiseToken_frame]
@[simp] theorem State.raiseToken_chan (f k : Nat) (s : State) : (State.raiseToken f k s).chan = s.chan := by rw [State.raiseToken_frame]
@[simp] theorem State.raiseToken_irq (f k : Nat) (s : State) : (State.raiseToken f k s).irq = s.irq := by rw [State.raiseToken_frame]
@[simp] theorem State.raiseToken_getChan (f k : Nat) (s : State) (n : Nat) : (State.raiseToken f k s).getChan n = s.getChan n := by rw [State.raiseToken_frame]; rfl
@[simp] theorem State.raiseToken_getPort (f k : Nat) (s : State) (n : Nat) : (State.raiseToken f k s).getPort n = s.getPort n := by rw [State.raiseToken_frame]; rfl
@[simp] theorem State.raiseToken_getCtx (f k : Nat) (s : State) (n : Nat) : (State.raiseToken f k s).getCtx n = s.getCtx n := by rw [State.raiseToken_frame]; rfl
@[simp] theorem State.raiseToken_getWin (f k : Nat) (s : State) (n : Nat) : (State.raiseToken f k s).getWin n = s.getWin n := by rw [State.raiseToken_frame]; rfl
@[simp] theorem State.raiseToken_getDom (f k : Nat) (s : State) (n : Nat) : (State.raiseToken f k s).getDom n = s.getDom n := by rw [State.raiseToken_frame]; rfl

/-- All that raiseOpt may change. -/
theorem State.raiseOpt_frame (f : Nat) (k : Option Nat) (s : State) :
    State.raiseOpt f k s = { s with frond := (State.raiseOpt f k s).frond, part := (State.raiseOpt f k s).part } := by
  cases k
  · rfl
  · exact State.raiseToken_frame f _ s
@[simp] theorem State.raiseOpt_aon (f : Nat) (k : Option Nat) (s : State) : (State.raiseOpt f k s).aon = s.aon := by rw [State.raiseOpt_frame]
@[simp] theorem State.raiseOpt_far (f : Nat) (k : Option Nat) (s : State) : (State.raiseOpt f k s).far = s.far := by rw [State.raiseOpt_frame]
@[simp] theorem State.raiseOpt_store (f : Nat) (k : Option Nat) (s : State) : (State.raiseOpt f k s).store = s.store := by rw [State.raiseOpt_frame]
@[simp] theorem State.raiseOpt_sync (f : Nat) (k : Option Nat) (s : State) : (State.raiseOpt f k s).sync = s.sync := by rw [State.raiseOpt_frame]
@[simp] theorem State.raiseOpt_faults (f : Nat) (k : Option Nat) (s : State) : (State.raiseOpt f k s).faults = s.faults := by rw [State.raiseOpt_frame]
@[simp] theorem State.raiseOpt_links (f : Nat) (k : Option Nat) (s : State) : (State.raiseOpt f k s).links = s.links := by rw [State.raiseOpt_frame]
@[simp] theorem State.raiseOpt_chan (f : Nat) (k : Option Nat) (s : State) : (State.raiseOpt f k s).chan = s.chan := by rw [State.raiseOpt_frame]
@[simp] theorem State.raiseOpt_irq (f : Nat) (k : Option Nat) (s : State) : (State.raiseOpt f k s).irq = s.irq := by rw [State.raiseOpt_frame]
@[simp] theorem State.raiseOpt_getChan (f : Nat) (k : Option Nat) (s : State) (n : Nat) : (State.raiseOpt f k s).getChan n = s.getChan n := by rw [State.raiseOpt_frame]; rfl
@[simp] theorem State.raiseOpt_getPort (f : Nat) (k : Option Nat) (s : State) (n : Nat) : (State.raiseOpt f k s).getPort n = s.getPort n := by rw [State.raiseOpt_frame]; rfl
@[simp] theorem State.raiseOpt_getCtx (f : Nat) (k : Option Nat) (s : State) (n : Nat) : (State.raiseOpt f k s).getCtx n = s.getCtx n := by rw [State.raiseOpt_frame]; rfl
@[simp] theorem State.raiseOpt_getWin (f : Nat) (k : Option Nat) (s : State) (n : Nat) : (State.raiseOpt f k s).getWin n = s.getWin n := by rw [State.raiseOpt_frame]; rfl
@[simp] theorem State.raiseOpt_getDom (f : Nat) (k : Option Nat) (s : State) (n : Nat) : (State.raiseOpt f k s).getDom n = s.getDom n := by rw [State.raiseOpt_frame]; rfl

/-- All that frondCount may change. -/
theorem State.frondCount_frame (f k m : Nat) (s : State) :
    State.frondCount f k m s = { s with frond := (State.frondCount f k m s).frond } := by
  rfl
@[simp] theorem State.frondCount_aon (f k m : Nat) (s : State) : (State.frondCount f k m s).aon = s.aon := by rw [State.frondCount_frame]
@[simp] theorem State.frondCount_far (f k m : Nat) (s : State) : (State.frondCount f k m s).far = s.far := by rw [State.frondCount_frame]
@[simp] theorem State.frondCount_store (f k m : Nat) (s : State) : (State.frondCount f k m s).store = s.store := by rw [State.frondCount_frame]
@[simp] theorem State.frondCount_sync (f k m : Nat) (s : State) : (State.frondCount f k m s).sync = s.sync := by rw [State.frondCount_frame]
@[simp] theorem State.frondCount_faults (f k m : Nat) (s : State) : (State.frondCount f k m s).faults = s.faults := by rw [State.frondCount_frame]
@[simp] theorem State.frondCount_links (f k m : Nat) (s : State) : (State.frondCount f k m s).links = s.links := by rw [State.frondCount_frame]
@[simp] theorem State.frondCount_part (f k m : Nat) (s : State) : (State.frondCount f k m s).part = s.part := by rw [State.frondCount_frame]
@[simp] theorem State.frondCount_chan (f k m : Nat) (s : State) : (State.frondCount f k m s).chan = s.chan := by rw [State.frondCount_frame]
@[simp] theorem State.frondCount_irq (f k m : Nat) (s : State) : (State.frondCount f k m s).irq = s.irq := by rw [State.frondCount_frame]
@[simp] theorem State.frondCount_getPart (f k m : Nat) (s : State) (n : Nat) : (State.frondCount f k m s).getPart n = s.getPart n := by rw [State.frondCount_frame]; rfl
@[simp] theorem State.frondCount_getChan (f k m : Nat) (s : State) (n : Nat) : (State.frondCount f k m s).getChan n = s.getChan n := by rw [State.frondCount_frame]; rfl
@[simp] theorem State.frondCount_getPort (f k m : Nat) (s : State) (n : Nat) : (State.frondCount f k m s).getPort n = s.getPort n := by rw [State.frondCount_frame]; rfl
@[simp] theorem State.frondCount_getCtx (f k m : Nat) (s : State) (n : Nat) : (State.frondCount f k m s).getCtx n = s.getCtx n := by rw [State.frondCount_frame]; rfl
@[simp] theorem State.frondCount_getWin (f k m : Nat) (s : State) (n : Nat) : (State.frondCount f k m s).getWin n = s.getWin n := by rw [State.frondCount_frame]; rfl
@[simp] theorem State.frondCount_getDom (f k m : Nat) (s : State) (n : Nat) : (State.frondCount f k m s).getDom n = s.getDom n := by rw [State.frondCount_frame]; rfl

/-- All that fsWrite may change. -/
theorem State.fsWrite_frame (f a : Nat) (bs : List Byte) (s : State) :
    State.fsWrite f a bs s = { s with store := (State.fsWrite f a bs s).store } := by
  rfl
@[simp] theorem State.fsWrite_aon (f a : Nat) (bs : List Byte) (s : State) : (State.fsWrite f a bs s).aon = s.aon := by rw [State.fsWrite_frame]
@[simp] theorem State.fsWrite_far (f a : Nat) (bs : List Byte) (s : State) : (State.fsWrite f a bs s).far = s.far := by rw [State.fsWrite_frame]
@[simp] theorem State.fsWrite_sync (f a : Nat) (bs : List Byte) (s : State) : (State.fsWrite f a bs s).sync = s.sync := by rw [State.fsWrite_frame]
@[simp] theorem State.fsWrite_faults (f a : Nat) (bs : List Byte) (s : State) : (State.fsWrite f a bs s).faults = s.faults := by rw [State.fsWrite_frame]
@[simp] theorem State.fsWrite_links (f a : Nat) (bs : List Byte) (s : State) : (State.fsWrite f a bs s).links = s.links := by rw [State.fsWrite_frame]
@[simp] theorem State.fsWrite_part (f a : Nat) (bs : List Byte) (s : State) : (State.fsWrite f a bs s).part = s.part := by rw [State.fsWrite_frame]
@[simp] theorem State.fsWrite_chan (f a : Nat) (bs : List Byte) (s : State) : (State.fsWrite f a bs s).chan = s.chan := by rw [State.fsWrite_frame]
@[simp] theorem State.fsWrite_irq (f a : Nat) (bs : List Byte) (s : State) : (State.fsWrite f a bs s).irq = s.irq := by rw [State.fsWrite_frame]
@[simp] theorem State.fsWrite_getPart (f a : Nat) (bs : List Byte) (s : State) (n : Nat) : (State.fsWrite f a bs s).getPart n = s.getPart n := by rw [State.fsWrite_frame]; rfl
@[simp] theorem State.fsWrite_getChan (f a : Nat) (bs : List Byte) (s : State) (n : Nat) : (State.fsWrite f a bs s).getChan n = s.getChan n := by rw [State.fsWrite_frame]; rfl
@[simp] theorem State.fsWrite_getPort (f a : Nat) (bs : List Byte) (s : State) (n : Nat) : (State.fsWrite f a bs s).getPort n = s.getPort n := by rw [State.fsWrite_frame]; rfl
@[simp] theorem State.fsWrite_getFrond (f a : Nat) (bs : List Byte) (s : State) (n : Nat) : (State.fsWrite f a bs s).getFrond n = s.getFrond n := by rw [State.fsWrite_frame]; rfl
@[simp] theorem State.fsWrite_getCtx (f a : Nat) (bs : List Byte) (s : State) (n : Nat) : (State.fsWrite f a bs s).getCtx n = s.getCtx n := by rw [State.fsWrite_frame]; rfl
@[simp] theorem State.fsWrite_getWin (f a : Nat) (bs : List Byte) (s : State) (n : Nat) : (State.fsWrite f a bs s).getWin n = s.getWin n := by rw [State.fsWrite_frame]; rfl
@[simp] theorem State.fsWrite_getDom (f a : Nat) (bs : List Byte) (s : State) (n : Nat) : (State.fsWrite f a bs s).getDom n = s.getDom n := by rw [State.fsWrite_frame]; rfl

/-- All that updRun may change. -/
theorem State.updRun_frame (i : Nat) (f : Run → Run) (s : State) :
    State.updRun i f s = { s with part := (State.updRun i f s).part } := by
  rfl
@[simp] theorem State.updRun_aon (i : Nat) (f : Run → Run) (s : State) : (State.updRun i f s).aon = s.aon := by rw [State.updRun_frame]
@[simp] theorem State.updRun_far (i : Nat) (f : Run → Run) (s : State) : (State.updRun i f s).far = s.far := by rw [State.updRun_frame]
@[simp] theorem State.updRun_store (i : Nat) (f : Run → Run) (s : State) : (State.updRun i f s).store = s.store := by rw [State.updRun_frame]
@[simp] theorem State.updRun_sync (i : Nat) (f : Run → Run) (s : State) : (State.updRun i f s).sync = s.sync := by rw [State.updRun_frame]
@[simp] theorem State.updRun_faults (i : Nat) (f : Run → Run) (s : State) : (State.updRun i f s).faults = s.faults := by rw [State.updRun_frame]
@[simp] theorem State.updRun_links (i : Nat) (f : Run → Run) (s : State) : (State.updRun i f s).links = s.links := by rw [State.updRun_frame]
@[simp] theorem State.updRun_chan (i : Nat) (f : Run → Run) (s : State) : (State.updRun i f s).chan = s.chan := by rw [State.updRun_frame]
@[simp] theorem State.updRun_irq (i : Nat) (f : Run → Run) (s : State) : (State.updRun i f s).irq = s.irq := by rw [State.updRun_frame]
@[simp] theorem State.updRun_getChan (i : Nat) (f : Run → Run) (s : State) (n : Nat) : (State.updRun i f s).getChan n = s.getChan n := by rw [State.updRun_frame]; rfl
@[simp] theorem State.updRun_getPort (i : Nat) (f : Run → Run) (s : State) (n : Nat) : (State.updRun i f s).getPort n = s.getPort n := by rw [State.updRun_frame]; rfl
@[simp] theorem State.updRun_getFrond (i : Nat) (f : Run → Run) (s : State) (n : Nat) : (State.updRun i f s).getFrond n = s.getFrond n := by rw [State.updRun_frame]; rfl
@[simp] theorem State.updRun_getCtx (i : Nat) (f : Run → Run) (s : State) (n : Nat) : (State.updRun i f s).getCtx n = s.getCtx n := by rw [State.updRun_frame]; rfl
@[simp] theorem State.updRun_getWin (i : Nat) (f : Run → Run) (s : State) (n : Nat) : (State.updRun i f s).getWin n = s.getWin n := by rw [State.updRun_frame]; rfl
@[simp] theorem State.updRun_getDom (i : Nat) (f : Run → Run) (s : State) (n : Nat) : (State.updRun i f s).getDom n = s.getDom n := by rw [State.updRun_frame]; rfl

/-- All that updTwin may change. -/
theorem State.updTwin_frame (i : Nat) (f : Twin → Twin) (s : State) :
    State.updTwin i f s = { s with part := (State.updTwin i f s).part } := by
  rfl
@[simp] theorem State.updTwin_aon (i : Nat) (f : Twin → Twin) (s : State) : (State.updTwin i f s).aon = s.aon := by rw [State.updTwin_frame]
@[simp] theorem State.updTwin_far (i : Nat) (f : Twin → Twin) (s : State) : (State.updTwin i f s).far = s.far := by rw [State.updTwin_frame]
@[simp] theorem State.updTwin_store (i : Nat) (f : Twin → Twin) (s : State) : (State.updTwin i f s).store = s.store := by rw [State.updTwin_frame]
@[simp] theorem State.updTwin_sync (i : Nat) (f : Twin → Twin) (s : State) : (State.updTwin i f s).sync = s.sync := by rw [State.updTwin_frame]
@[simp] theorem State.updTwin_faults (i : Nat) (f : Twin → Twin) (s : State) : (State.updTwin i f s).faults = s.faults := by rw [State.updTwin_frame]
@[simp] theorem State.updTwin_links (i : Nat) (f : Twin → Twin) (s : State) : (State.updTwin i f s).links = s.links := by rw [State.updTwin_frame]
@[simp] theorem State.updTwin_chan (i : Nat) (f : Twin → Twin) (s : State) : (State.updTwin i f s).chan = s.chan := by rw [State.updTwin_frame]
@[simp] theorem State.updTwin_irq (i : Nat) (f : Twin → Twin) (s : State) : (State.updTwin i f s).irq = s.irq := by rw [State.updTwin_frame]
@[simp] theorem State.updTwin_getChan (i : Nat) (f : Twin → Twin) (s : State) (n : Nat) : (State.updTwin i f s).getChan n = s.getChan n := by rw [State.updTwin_frame]; rfl
@[simp] theorem State.updTwin_getPort (i : Nat) (f : Twin → Twin) (s : State) (n : Nat) : (State.updTwin i f s).getPort n = s.getPort n := by rw [State.updTwin_frame]; rfl
@[simp] theorem State.updTwin_getFrond (i : Nat) (f : Twin → Twin) (s : State) (n : Nat) : (State.updTwin i f s).getFrond n = s.getFrond n := by rw [State.updTwin_frame]; rfl
@[simp] theorem State.updTwin_getCtx (i : Nat) (f : Twin → Twin) (s : State) (n : Nat) : (State.updTwin i f s).getCtx n = s.getCtx n := by rw [State.updTwin_frame]; rfl
@[simp] theorem State.updTwin_getWin (i : Nat) (f : Twin → Twin) (s : State) (n : Nat) : (State.updTwin i f s).getWin n = s.getWin n := by rw [State.updTwin_frame]; rfl
@[simp] theorem State.updTwin_getDom (i : Nat) (f : Twin → Twin) (s : State) (n : Nat) : (State.updTwin i f s).getDom n = s.getDom n := by rw [State.updTwin_frame]; rfl

/-- All that updServe may change. -/
theorem State.updServe_frame (i : Nat) (f : Serve → Serve) (s : State) :
    State.updServe i f s = { s with part := (State.updServe i f s).part } := by
  rfl
@[simp] theorem State.updServe_aon (i : Nat) (f : Serve → Serve) (s : State) : (State.updServe i f s).aon = s.aon := by rw [State.updServe_frame]
@[simp] theorem State.updServe_far (i : Nat) (f : Serve → Serve) (s : State) : (State.updServe i f s).far = s.far := by rw [State.updServe_frame]
@[simp] theorem State.updServe_store (i : Nat) (f : Serve → Serve) (s : State) : (State.updServe i f s).store = s.store := by rw [State.updServe_frame]
@[simp] theorem State.updServe_sync (i : Nat) (f : Serve → Serve) (s : State) : (State.updServe i f s).sync = s.sync := by rw [State.updServe_frame]
@[simp] theorem State.updServe_faults (i : Nat) (f : Serve → Serve) (s : State) : (State.updServe i f s).faults = s.faults := by rw [State.updServe_frame]
@[simp] theorem State.updServe_links (i : Nat) (f : Serve → Serve) (s : State) : (State.updServe i f s).links = s.links := by rw [State.updServe_frame]
@[simp] theorem State.updServe_chan (i : Nat) (f : Serve → Serve) (s : State) : (State.updServe i f s).chan = s.chan := by rw [State.updServe_frame]
@[simp] theorem State.updServe_irq (i : Nat) (f : Serve → Serve) (s : State) : (State.updServe i f s).irq = s.irq := by rw [State.updServe_frame]
@[simp] theorem State.updServe_getChan (i : Nat) (f : Serve → Serve) (s : State) (n : Nat) : (State.updServe i f s).getChan n = s.getChan n := by rw [State.updServe_frame]; rfl
@[simp] theorem State.updServe_getPort (i : Nat) (f : Serve → Serve) (s : State) (n : Nat) : (State.updServe i f s).getPort n = s.getPort n := by rw [State.updServe_frame]; rfl
@[simp] theorem State.updServe_getFrond (i : Nat) (f : Serve → Serve) (s : State) (n : Nat) : (State.updServe i f s).getFrond n = s.getFrond n := by rw [State.updServe_frame]; rfl
@[simp] theorem State.updServe_getCtx (i : Nat) (f : Serve → Serve) (s : State) (n : Nat) : (State.updServe i f s).getCtx n = s.getCtx n := by rw [State.updServe_frame]; rfl
@[simp] theorem State.updServe_getWin (i : Nat) (f : Serve → Serve) (s : State) (n : Nat) : (State.updServe i f s).getWin n = s.getWin n := by rw [State.updServe_frame]; rfl
@[simp] theorem State.updServe_getDom (i : Nat) (f : Serve → Serve) (s : State) (n : Nat) : (State.updServe i f s).getDom n = s.getDom n := by rw [State.updServe_frame]; rfl

/-- All that updArith may change. -/
theorem State.updArith_frame (i : Nat) (f : Arith → Arith) (s : State) :
    State.updArith i f s = { s with part := (State.updArith i f s).part } := by
  rfl
@[simp] theorem State.updArith_aon (i : Nat) (f : Arith → Arith) (s : State) : (State.updArith i f s).aon = s.aon := by rw [State.updArith_frame]
@[simp] theorem State.updArith_far (i : Nat) (f : Arith → Arith) (s : State) : (State.updArith i f s).far = s.far := by rw [State.updArith_frame]
@[simp] theorem State.updArith_store (i : Nat) (f : Arith → Arith) (s : State) : (State.updArith i f s).store = s.store := by rw [State.updArith_frame]
@[simp] theorem State.updArith_sync (i : Nat) (f : Arith → Arith) (s : State) : (State.updArith i f s).sync = s.sync := by rw [State.updArith_frame]
@[simp] theorem State.updArith_faults (i : Nat) (f : Arith → Arith) (s : State) : (State.updArith i f s).faults = s.faults := by rw [State.updArith_frame]
@[simp] theorem State.updArith_links (i : Nat) (f : Arith → Arith) (s : State) : (State.updArith i f s).links = s.links := by rw [State.updArith_frame]
@[simp] theorem State.updArith_chan (i : Nat) (f : Arith → Arith) (s : State) : (State.updArith i f s).chan = s.chan := by rw [State.updArith_frame]
@[simp] theorem State.updArith_irq (i : Nat) (f : Arith → Arith) (s : State) : (State.updArith i f s).irq = s.irq := by rw [State.updArith_frame]
@[simp] theorem State.updArith_getChan (i : Nat) (f : Arith → Arith) (s : State) (n : Nat) : (State.updArith i f s).getChan n = s.getChan n := by rw [State.updArith_frame]; rfl
@[simp] theorem State.updArith_getPort (i : Nat) (f : Arith → Arith) (s : State) (n : Nat) : (State.updArith i f s).getPort n = s.getPort n := by rw [State.updArith_frame]; rfl
@[simp] theorem State.updArith_getFrond (i : Nat) (f : Arith → Arith) (s : State) (n : Nat) : (State.updArith i f s).getFrond n = s.getFrond n := by rw [State.updArith_frame]; rfl
@[simp] theorem State.updArith_getCtx (i : Nat) (f : Arith → Arith) (s : State) (n : Nat) : (State.updArith i f s).getCtx n = s.getCtx n := by rw [State.updArith_frame]; rfl
@[simp] theorem State.updArith_getWin (i : Nat) (f : Arith → Arith) (s : State) (n : Nat) : (State.updArith i f s).getWin n = s.getWin n := by rw [State.updArith_frame]; rfl
@[simp] theorem State.updArith_getDom (i : Nat) (f : Arith → Arith) (s : State) (n : Nat) : (State.updArith i f s).getDom n = s.getDom n := by rw [State.updArith_frame]; rfl

/-- All that countConv may change. -/
theorem State.countConv_frame (i : Nat) (cvt : Byte) (a b d : Nat) (s : State) :
    State.countConv i cvt a b d s = { s with part := (State.countConv i cvt a b d s).part } := by
  unfold State.countConv; dsimp only; split <;> rfl
@[simp] theorem State.countConv_aon (i : Nat) (cvt : Byte) (a b d : Nat) (s : State) : (State.countConv i cvt a b d s).aon = s.aon := by rw [State.countConv_frame]
@[simp] theorem State.countConv_far (i : Nat) (cvt : Byte) (a b d : Nat) (s : State) : (State.countConv i cvt a b d s).far = s.far := by rw [State.countConv_frame]
@[simp] theorem State.countConv_store (i : Nat) (cvt : Byte) (a b d : Nat) (s : State) : (State.countConv i cvt a b d s).store = s.store := by rw [State.countConv_frame]
@[simp] theorem State.countConv_sync (i : Nat) (cvt : Byte) (a b d : Nat) (s : State) : (State.countConv i cvt a b d s).sync = s.sync := by rw [State.countConv_frame]
@[simp] theorem State.countConv_faults (i : Nat) (cvt : Byte) (a b d : Nat) (s : State) : (State.countConv i cvt a b d s).faults = s.faults := by rw [State.countConv_frame]
@[simp] theorem State.countConv_links (i : Nat) (cvt : Byte) (a b d : Nat) (s : State) : (State.countConv i cvt a b d s).links = s.links := by rw [State.countConv_frame]
@[simp] theorem State.countConv_chan (i : Nat) (cvt : Byte) (a b d : Nat) (s : State) : (State.countConv i cvt a b d s).chan = s.chan := by rw [State.countConv_frame]
@[simp] theorem State.countConv_irq (i : Nat) (cvt : Byte) (a b d : Nat) (s : State) : (State.countConv i cvt a b d s).irq = s.irq := by rw [State.countConv_frame]
@[simp] theorem State.countConv_getChan (i : Nat) (cvt : Byte) (a b d : Nat) (s : State) (n : Nat) : (State.countConv i cvt a b d s).getChan n = s.getChan n := by rw [State.countConv_frame]; rfl
@[simp] theorem State.countConv_getPort (i : Nat) (cvt : Byte) (a b d : Nat) (s : State) (n : Nat) : (State.countConv i cvt a b d s).getPort n = s.getPort n := by rw [State.countConv_frame]; rfl
@[simp] theorem State.countConv_getFrond (i : Nat) (cvt : Byte) (a b d : Nat) (s : State) (n : Nat) : (State.countConv i cvt a b d s).getFrond n = s.getFrond n := by rw [State.countConv_frame]; rfl
@[simp] theorem State.countConv_getCtx (i : Nat) (cvt : Byte) (a b d : Nat) (s : State) (n : Nat) : (State.countConv i cvt a b d s).getCtx n = s.getCtx n := by rw [State.countConv_frame]; rfl
@[simp] theorem State.countConv_getWin (i : Nat) (cvt : Byte) (a b d : Nat) (s : State) (n : Nat) : (State.countConv i cvt a b d s).getWin n = s.getWin n := by rw [State.countConv_frame]; rfl
@[simp] theorem State.countConv_getDom (i : Nat) (cvt : Byte) (a b d : Nat) (s : State) (n : Nat) : (State.countConv i cvt a b d s).getDom n = s.getDom n := by rw [State.countConv_frame]; rfl

/-- All that haltDue may change. -/
theorem State.haltDue_frame (i : Nat) (st : Status) (s : State) :
    State.haltDue i st s = { s with part := (State.haltDue i st s).part } := by
  unfold State.haltDue; split <;> rfl
@[simp] theorem State.haltDue_aon (i : Nat) (st : Status) (s : State) : (State.haltDue i st s).aon = s.aon := by rw [State.haltDue_frame]
@[simp] theorem State.haltDue_far (i : Nat) (st : Status) (s : State) : (State.haltDue i st s).far = s.far := by rw [State.haltDue_frame]
@[simp] theorem State.haltDue_store (i : Nat) (st : Status) (s : State) : (State.haltDue i st s).store = s.store := by rw [State.haltDue_frame]
@[simp] theorem State.haltDue_sync (i : Nat) (st : Status) (s : State) : (State.haltDue i st s).sync = s.sync := by rw [State.haltDue_frame]
@[simp] theorem State.haltDue_faults (i : Nat) (st : Status) (s : State) : (State.haltDue i st s).faults = s.faults := by rw [State.haltDue_frame]
@[simp] theorem State.haltDue_links (i : Nat) (st : Status) (s : State) : (State.haltDue i st s).links = s.links := by rw [State.haltDue_frame]
@[simp] theorem State.haltDue_chan (i : Nat) (st : Status) (s : State) : (State.haltDue i st s).chan = s.chan := by rw [State.haltDue_frame]
@[simp] theorem State.haltDue_irq (i : Nat) (st : Status) (s : State) : (State.haltDue i st s).irq = s.irq := by rw [State.haltDue_frame]
@[simp] theorem State.haltDue_getChan (i : Nat) (st : Status) (s : State) (n : Nat) : (State.haltDue i st s).getChan n = s.getChan n := by rw [State.haltDue_frame]; rfl
@[simp] theorem State.haltDue_getPort (i : Nat) (st : Status) (s : State) (n : Nat) : (State.haltDue i st s).getPort n = s.getPort n := by rw [State.haltDue_frame]; rfl
@[simp] theorem State.haltDue_getFrond (i : Nat) (st : Status) (s : State) (n : Nat) : (State.haltDue i st s).getFrond n = s.getFrond n := by rw [State.haltDue_frame]; rfl
@[simp] theorem State.haltDue_getCtx (i : Nat) (st : Status) (s : State) (n : Nat) : (State.haltDue i st s).getCtx n = s.getCtx n := by rw [State.haltDue_frame]; rfl
@[simp] theorem State.haltDue_getWin (i : Nat) (st : Status) (s : State) (n : Nat) : (State.haltDue i st s).getWin n = s.getWin n := by rw [State.haltDue_frame]; rfl
@[simp] theorem State.haltDue_getDom (i : Nat) (st : Status) (s : State) (n : Nat) : (State.haltDue i st s).getDom n = s.getDom n := by rw [State.haltDue_frame]; rfl

/-- All that discardArrived may change. -/
theorem State.discardArrived_frame (i k : Nat) (f : Frame) (s : State) :
    State.discardArrived i k f s = { s with links := (State.discardArrived i k f s).links } := by
  unfold State.discardArrived; dsimp only; split <;> rfl
@[simp] theorem State.discardArrived_aon (i k : Nat) (f : Frame) (s : State) : (State.discardArrived i k f s).aon = s.aon := by rw [State.discardArrived_frame]
@[simp] theorem State.discardArrived_far (i k : Nat) (f : Frame) (s : State) : (State.discardArrived i k f s).far = s.far := by rw [State.discardArrived_frame]
@[simp] theorem State.discardArrived_store (i k : Nat) (f : Frame) (s : State) : (State.discardArrived i k f s).store = s.store := by rw [State.discardArrived_frame]
@[simp] theorem State.discardArrived_sync (i k : Nat) (f : Frame) (s : State) : (State.discardArrived i k f s).sync = s.sync := by rw [State.discardArrived_frame]
@[simp] theorem State.discardArrived_faults (i k : Nat) (f : Frame) (s : State) : (State.discardArrived i k f s).faults = s.faults := by rw [State.discardArrived_frame]
@[simp] theorem State.discardArrived_part (i k : Nat) (f : Frame) (s : State) : (State.discardArrived i k f s).part = s.part := by rw [State.discardArrived_frame]
@[simp] theorem State.discardArrived_chan (i k : Nat) (f : Frame) (s : State) : (State.discardArrived i k f s).chan = s.chan := by rw [State.discardArrived_frame]
@[simp] theorem State.discardArrived_irq (i k : Nat) (f : Frame) (s : State) : (State.discardArrived i k f s).irq = s.irq := by rw [State.discardArrived_frame]
@[simp] theorem State.discardArrived_getPart (i k : Nat) (f : Frame) (s : State) (n : Nat) : (State.discardArrived i k f s).getPart n = s.getPart n := by rw [State.discardArrived_frame]; rfl
@[simp] theorem State.discardArrived_getChan (i k : Nat) (f : Frame) (s : State) (n : Nat) : (State.discardArrived i k f s).getChan n = s.getChan n := by rw [State.discardArrived_frame]; rfl
@[simp] theorem State.discardArrived_getFrond (i k : Nat) (f : Frame) (s : State) (n : Nat) : (State.discardArrived i k f s).getFrond n = s.getFrond n := by rw [State.discardArrived_frame]; rfl
@[simp] theorem State.discardArrived_getCtx (i k : Nat) (f : Frame) (s : State) (n : Nat) : (State.discardArrived i k f s).getCtx n = s.getCtx n := by rw [State.discardArrived_frame]; rfl
@[simp] theorem State.discardArrived_getDom (i k : Nat) (f : Frame) (s : State) (n : Nat) : (State.discardArrived i k f s).getDom n = s.getDom n := by rw [State.discardArrived_frame]; rfl

end Sys2Proof.Machine
end

