-- ==== Sys2Proof/Laws/Commands.lean ====
section
/-! SUPPORT. The two gates that most steps pass: a held command that reaches its own part, and a frame that may be delivered. -/

namespace Sys2Proof.Machine

/-- A command ready for its own part runs it. -/
theorem State.runCommand_commanded {s : State} {op ch : Nat} {h : Held} {b : List Byte} (hc : Commanded s op ch h b)
    (own : Held → List Byte → State → State) : s.runCommand op ch own = own h b s := by
  obtain ⟨hh, ho, hs, ht, hf, ⟨i, hi, hp⟩, hb⟩ := hc
  have hw : s.waiting op ch = some h := by simp [State.waiting, hh, ho, hs, ht]
  simp [State.runCommand, hw, hi, hp, hb, hf]

/-- The channel of a command ready for its own part holds it. -/
theorem Commanded.held {s : State} {op ch : Nat} {h : Held} {b : List Byte} (hc : Commanded s op ch h b) : (s.getChan ch).held = some h := hc.1

/-- A frame that may be delivered is taken from the port's input and reaches its unit. -/
theorem State.arrives_deliverable {s : State} {p : Nat} {f : Frame} (h : Deliverable s p f) : s.arrives p f = (true, s.takeRx p f) := by
  obtain ⟨h1, h2, h3⟩ := h
  have h4 : ((s.getPort p).state == PortState.lost) = false := by simpa using h3
  simp [State.arrives, h1, h2, h4]

/-- A command answered without reply words or record changes its channel, the interrupt registers, the outputs, and nothing else but what a
reply frame does. -/
theorem State.answer_getChan_ne (ch c : Nat) (st : Status) (ws : List Nat) (s : State) (h : c ≠ ch) :
    (s.answer ch st ws).getChan c = s.getChan c := by
  unfold State.answer State.finish
  split
  · rfl
  · dsimp only
    split
    · unfold State.ringHost State.updChan
      rw [State.settle_frame, State.writeRecord_frame]
      simp only [State.getChan]
      rw [Tab.get_upd_ne _ _ _ h, Tab.get_upd_ne _ _ _ h]
      split
      · rw [State.raise_frame]
      · rfl
    · rw [State.getChan_updChan_ne _ _ _ _ h, State.replyFrame_getChan]
      split
      · exact State.raise_getChan _ _ _
      · rfl

end Sys2Proof.Machine
end

