-- ==== Sys2Proof/WellFormed.lean ====
section
/-! DEFINITION. Well-formed commands: every operand that names a unit of the package, a field of a fixed width or a record of a fixed
length is in the range the spec gives it. The meanings are total: they do not rest on this. -/

namespace Sys2Proof

/-- A number below a bound. -/
def below (n b : Nat) : Bool := decide (n < b)

/-- A coordinate's fields are bytes (R229). -/
def coordOk (c : Coord) : Bool := below c.x 256 && below c.y 256 && below c.z 256

/-- A register access is one that a path can make: a 32-bit offset, 1, 2, 4 or 8 bytes (R4, R361). -/
def accessOk (a : RegAccess) : Bool := below a.off (2 ^ 32) && (a.width == 1 || a.width == 2 || a.width == 4 || a.width == 8)

/-- A frame's fields fit the frame header and its payload is at most 14,832 bytes (R228, R229). -/
def frameOk (f : Frame) : Bool :=
  coordOk f.dst && coordOk f.src && below f.part 64 && below f.kind 16 && below f.token (2 ^ 16) && below f.arg (2 ^ 32)
    && below f.vl 4 && below f.dl 2 && decide (f.payload.length ≤ 14832)

/-- A flit carries payload bytes 8 to 239 (R223). -/
def flitOk (f : Flit) : Bool := f.payload.length == 232

/-- The parameters of an ALOAD (R54): 1 to 128 valid rows and columns, a format code of R52. -/
def aloadArgsOk (a : AloadArgs) : Bool :=
  below a.src (2 ^ 32) && below a.wfmt 256 && below a.expand 2 && below (a.kValid - 1) 128 && below (a.nValid - 1) 128
    && a.kValid != 0 && a.nValid != 0

/-- The parameters of an ASTREAM (R54). -/
def astreamArgsOk (a : AstreamArgs) : Bool :=
  below a.src (2 ^ 32) && below a.acc (2 ^ 32) && below a.afmt 256 && below a.mode 256 && a.m != 0
    && below (a.kValid - 1) 128 && below (a.nValid - 1) 128 && a.kValid != 0 && a.nValid != 0

/-- The word of a frame or management flit has 232 bytes at most (R223, R249, R272). -/
def mgmtOk (p : List Byte) : Bool := decide (p.length ≤ 232)

/-- A vector operation names registers 0 to 15, a block position 0 to 7 and arithmetic that a lane has (R60, R96). -/
def vecOpOk : VecOp → Bool
  | .bin o _ d a b => o != .div && below d 16 && below a 16 && below b 16
  | .fma _ d a b c => below d 16 && below a 16 && below b 16 && below c 16
  | .cmp _ _ _ d a b => below d 16 && below a 16 && below b 16
  | .load d addr => below d 16 && below addr (2 ^ 32)
  | .store r addr => below r 16 && below addr (2 ^ 32)
  | .rank (.topk k) _ d a => below (k - 1) 256 && k != 0 && below d 16 && below a 16
  | .rank _ _ d a => below d 16 && below a 16
  | .widen _ d a => below d 16 && below a 16
  | .widenMx _ _ d addr block => below d 16 && below addr (2 ^ 32) && below block 8

/-- A pinnule instruction names integer and scalar registers 0 to 31 and quad registers 0 to 7 (02 *Pinnule resources*). -/
def pinOpOk : PinOp → Bool
  | .undefined => true
  | .int _ d a b | .fpBin _ _ d a b | .fpCmp _ _ _ d a b | .fp16Add d a b => below d 32 && below a 32 && below b 32
  | .fpFma _ d a b c => below d 32 && below a 32 && below b 32 && below c 32
  | .fpSqrt _ d a | .fpWiden _ d a | .moveFpInt d a | .moveIntFp d a | .intFp _ d a => below d 32 && below a 32
  | .quadFma d a b c => below d 8 && below a 8 && below b 8 && below c 8
  | .quadBin o d a b => o != .div && below d 8 && below a 8 && below b 8
  | .loadLocal d addr | .storeLocal d addr | .loadFrond d addr | .storeFrond d addr => below d 32 && below addr (2 ^ 32)
  | .issueShared unit => below unit 3
  | .startSlot slot => below slot 64
  | .dropMask d q dropT => below d 32 && below q 8 && below dropT (2 ^ 32)

/-- FINCHK names a scalar register 0 to 31 or a quad register 0 to 7 (R157). -/
def finArgOk : FinArg → Bool
  | .fp r => below r 32
  | .quad r => below r 8

/-- A bring-up step names a ring position or a half (R29, R30). -/
def bringupStepOk : BringupStep → Bool
  | .release r | .pll r | .hubLink r | .firmware r => below r 4
  | .half h => below h 2
  | .admission | .aligned | .phase => true

/-- There are four core rails (R411). -/
def railOk : Rail → Bool
  | .vcomp d => below d 4
  | _ => true

/-- Whether every operand of a command is in range. -/
def Instr.wf : Instr → Bool
  | .vaonRise => true
  | .vaonFall => true
  | .pwrOkFall => true
  | .pkgResetNAssert => true
  | .pkgResetNRelease _ _ => true
  | .perstNAssert => true
  | .functionLevelReset => true
  | .railFault rail => railOk rail.rail
  | .avsbusSettleTimeout rail => below rail 5
  | .tapOperation _ => true
  | .thermalSample _ => true
  | .thermalComparatorTrip _ => true
  | .lThermRise => true
  | .selftestPhaseEnd _ => true
  | .selftestPhaseTimeout => true
  | .dieRelease => true
  | .diePllLock ring => below ring 4
  | .hubLinkUp ring => below ring 4
  | .capabilityReply ring tag block => below ring 4 && below tag 256 && block.length == 64
  | .capabilityQueryTimeout ring => below ring 4
  | .dieFirmwareLoaded ring => below ring 4
  | .halfPartnerLinkUp half => below half 2
  | .bringupTimeout which => bringupStepOk which
  | .ucieFlitCrcRetry link => below link 6
  | .dieLinkTrainingLoss link => below link 6
  | .dieLinkRetrainDone link => below link 6
  | .dieLinkLost link => below link 6
  | .partCreate ch => below ch 72
  | .partCreateFillDone part => below part 64
  | .partDestroy ch => below ch 72
  | .partQuery ch => below ch 72
  | .patternLoad ch => below ch 72
  | .patternAdmit ch => below ch 72
  | .admissionTurn _ _ => true
  | .patternStart ch => below ch 72
  | .patternHalt ch => below ch 72
  | .patternStatus ch => below ch 72
  | .powerTarget ch => below ch 72
  | .rateSet ch => below ch 72
  | .powerReport ch => below ch 72
  | .domainQuery ch => below ch 72
  | .linkProfile ch => below ch 72
  | .linkPlan ch => below ch 72
  | .linkReport ch => below ch 72
  | .selvageSet ch => below ch 72
  | .selvageApply => true
  | .routeTableLoad ch => below ch 72
  | .statsRead ch => below ch 72
  | .congestionMap ch => below ch 72
  | .congestionMapTimeout => true
  | .faultLogRead ch => below ch 72
  | .ctxOpen ch => below ch 72
  | .ctxClose ch => below ch 72
  | .ctxQuota ch => below ch 72
  | .batchPolicy ch => below ch 72
  | .selftestReport ch => below ch 72
  | .selftestRun ch => below ch 72
  | .twinBind ch => below ch 72
  | .twinShed ch => below ch 72
  | .twinRejoin ch => below ch 72
  | .twinStatus ch => below ch 72
  | .memRegulate ch => below ch 72
  | .memRegulateApply => true
  | .memFill ch => below ch 72
  | .memFillPieceDone part _ _ => below part 64
  | .faultPolicy ch => below ch 72
  | .fwInfo ch => below ch 72
  | .parkedWakeDone => true
  | .parkedEntry => true
  | .registerWrite a _ _ => accessOk a
  | .dbRingSubmit a _ _ => accessOk a
  | .dbRingRxpost a _ => accessOk a
  | .dbClear a _ => accessOk a
  | .rxTailWrite a _ _ => accessOk a
  | .rxCtrlWrite a _ => accessOk a
  | .rxringDropRead a => accessOk a
  | .stitchBoundary => true
  | .patternRunStart part => below part 64
  | .patternHaltEffect part => below part 64
  | .stepBegin part => below part 64
  | .announcementApply => true
  | .localRateApply => true
  | .announcementForget origin seq => coordOk origin && below seq (2 ^ 32)
  | .rateStep => true
  | .rateWakeLead => true
  | .syncRound _ => true
  | .syncReceive port payload _ => below port 13 && mgmtOk payload
  | .followReceive port payload => below port 13 && mgmtOk payload
  | .counterRaise => true
  | .bringupAttempt port => below port 13
  | .laneLock port lane => below port 13 && below lane 8
  | .trainTimeout port => below port 13
  | .alignFlit port lane payload _ _ => below port 13 && below lane 8 && mgmtOk payload
  | .alignTimeout port => below port 13
  | .identFlit port lane payload => below port 13 && below lane 8 && mgmtOk payload
  | .identTimeout port => below port 13
  | .laneSignalLoss port lane => below port 13 && below lane 8
  | .planCheck => true
  | .flitReceive port lane _ flit => below port 13 && below lane 8 && flitOk flit
  | .flowHoldExpiry port sch => below port 13 && below sch 6
  | .flowOffResend port sch => below port 13 && below sch 6
  | .frameSend port => below port 13
  | .linkEvent port _ => below port 13
  | .portRetrainDone port => below port 13
  | .portLost port => below port 13
  | .lostPortBringup port => below port 13
  | .routedForward port frame => below port 14 && frameOk frame
  | .pdataFrame port frame => below port 14 && frameOk frame
  | .collFrame port frame _ => below port 14 && frameOk frame
  | .commandFrame port frame => below port 14 && frameOk frame
  | .voteFrame port frame => below port 14 && frameOk frame
  | .abortRecord port frame => below port 14 && frameOk frame
  | .voteTimeout part => below part 64
  | .broadcastFrame port frame => below port 14 && frameOk frame
  | .creditFrame port frame => below port 14 && frameOk frame
  | .creditSend source => coordOk source
  | .windowTimeout part window => below part 64 && below window 4096
  | .fallbackFrame port frame => below port 14 && frameOk frame
  | .serveFrame port frame => below port 14 && frameOk frame
  | .batchSealDeadline part => below part 64
  | .telemetryRequest port frame => below port 14 && frameOk frame
  | .telemetryReply port frame => below port 14 && frameOk frame
  | .twinSigFrame frame => frameOk frame
  | .twinCopyFrame frame => frameOk frame
  | .signatureSend part => below part 64
  | .peerRecordDeadline part => below part 64
  | .donorCopyDeadline part => below part 64
  | .wardenIssue frond warden es _ => below frond 576 && below warden 16 && below es (2 ^ 32)
  | .stitchWait frond warden reg => below frond 576 && below warden 16 && below reg 32
  | .aload frond warden _ args => below frond 576 && below warden 16 && aloadArgsOk args
  | .aloadRowResume frond _ => below frond 576
  | .swap frond warden _ => below frond 576 && below warden 16
  | .astream frond warden _ args => below frond 576 && below warden 16 && astreamArgsOk args
  | .astreamEnter frond _ => below frond 576
  | .vectorOperation frond warden op _ => below frond 576 && below warden 16 && vecOpOk op
  | .vectorReduction frond warden op _ reg => below frond 576 && below warden 16 && below reg 16 && op != .div
  | .vectorConversion frond warden _ src dst block => below frond 576 && below warden 16 && below src 16 && below dst (2 ^ 32) && below block 8
  | .pinnuleInstruction frond pinnule slot offset op => below frond 576 && below pinnule 528 && below slot 64 && below offset 4096 && pinOpOk op
  | .pinnuleConversion frond pinnule slot offset _ src dst => below frond 576 && below pinnule 528 && below slot 64 && below offset 4096 && below src (2 ^ 32) && below dst.place (2 ^ 32) && below dst.block 8
  | .finchk frond pinnule arg => below frond 576 && below pinnule 528 && finArgOk arg
  | .bob frond pinnule _ key0 key1 c0 c1 c2 c3 q => below frond 576 && below pinnule 528 && below key0 32 && below key1 32 && below c0 32 && below c1 32 && below c2 32 && below c3 32 && below q 8
  | .raise frond pinnule token => below frond 576 && below pinnule 528 && below token (2 ^ 32)
  | .stepCommit frond warden es => below frond 576 && below warden 16 && below es (2 ^ 32)
  | .voteSend part => below part 64
  | .svRecv frond warden addr token => below frond 576 && below warden 16 && below addr (2 ^ 32) && below token 4096
  | .svSend frond warden dest destPart addr => below frond 576 && below warden 16 && coordOk dest && below destPart 64 && below addr (2 ^ 32)
  | .batchTake frond warden addr token => below frond 576 && below warden 16 && below addr (2 ^ 32) && below token 4096
  | .batchDone frond warden seq addr => below frond 576 && below warden 16 && below seq (2 ^ 32) && below addr (2 ^ 32)
  | .fbSend frond warden dest destPart addr length => below frond 576 && below warden 16 && coordOk dest && below destPart 64 && below addr (2 ^ 32) && below length (2 ^ 32)
  | .mmSend frond warden record _ args => below frond 576 && below warden 16 && below record (2 ^ 32) && astreamArgsOk args
  | .recvMm frond warden record _ args => below frond 576 && below warden 16 && below record (2 ^ 32) && astreamArgsOk args
  | .mmRs frond warden record _ args => below frond 576 && below warden 16 && below record (2 ^ 32) && astreamArgsOk args
  | .agMm frond warden record _ args => below frond 576 && below warden 16 && below record (2 ^ 32) && astreamArgsOk args
  | .mmAr frond warden record _ args => below frond 576 && below warden 16 && below record (2 ^ 32) && astreamArgsOk args
  | .vecAr frond warden record => below frond 576 && below warden 16 && below record (2 ^ 32)
  | .fusedChunkSend frond record _ => below frond 576 && below record (2 ^ 32)
  | .collectiveTimeout part group inst => below part 64 && below group 65536 && below inst (2 ^ 64)
  | .abortHoldExpiry part group inst => below part 64 && below group 65536 && below inst (2 ^ 64)
  | .spoolStreamIssue frond warden addr => below frond 576 && below warden 16 && below addr (2 ^ 32)
  | .spoolBurstStart frond _ => below frond 576
  | .spoolBurstLanded frond _ burst _ _ => below frond 576 && below burst (2 ^ 32)
  | .spoolSlotRelease frond _ => below frond 576
  | .spoolWriteBurst frond _ => below frond 576
  | .spoolWriteAccepted frond _ _ => below frond 576
  | .regulatorPiecePass part tier die bytes => below part 64 && below tier 3 && below die 4 && below bytes 2049
  | .microBatchInputRead part entry landing => below part 64 && below entry 1024 && landing.places.all (fun p => below p.1 576 && below p.2 (2 ^ 32))
  | .hbmLaneFault channel lane _ => below channel 384 && below lane 256
  | .hbmLaneRetrain channel => below channel 384
  | .hbmLaneRetrainDone channel => below channel 384
  | .hbmRefresh stack pc => below stack 12 && below pc 64
  | .pwrOkRise => true
  | .perstNRelease => true
  | .domainWakeDone domain => below domain 184
  | .entdaa address => below address 128

end Sys2Proof
end

