-- ==== Sys2Proof/Tests/Slice0.lean ====
section
/-! SUPPORT. Own tests: well-formed and ill-formed commands, the worked examples of the spec, and for every statement with hypotheses states
and operands that meet them, clause by clause. -/

open Sys2Proof Sys2Proof.Machine

set_option Elab.async false

namespace Sys2Proof.Tests

/-! ### States -/

/-- A package that runs: every pin high, the monitors armed. -/
def up : State :=
  { State.reset with aon := { State.reset.aon with phase := .up, pwrOk := true, pkgResetN := true, perstN := true, armed := true,
                                                   ticks := 1000000000 } }
/-- A self-test in a phase. -/
def testing (k : Nat) : State :=
  { up with aon := { up.aon with phase := .selfTest }, test := { State.reset.test with active := true, phase := k, began := 900000000 } }
/-- A self-test in phase 3 whose dies hold d. -/
def dies3 (d : List Die) (half : List Bool) : State := { testing 3 with dies := { State.reset.dies with die := d, half := half } }
/-- A command of a mailbox with its parameter block. -/
def cmd (op part : Nat) (b : List Byte) : Held :=
  { opcode := op, part := part, flags := if 48 < b.length then 1 else 0, tag := 7, length := b.length, addr := 0, reserved := false, params := .ok b, via := .mailbox }
/-- A command held on a channel. -/
def held (ch : Nat) (h : Held) (s : State) : State := s.updChan ch fun c => { c with held := some h, busy := true }
/-- A partition put in its place. -/
def part (p : Nat) (u : Partition) (s : State) : State := s.updPart p fun _ => u

/-- Decides Commanded. -/
def commandedB (s : State) (op ch : Nat) (h : Held) (b : List Byte) : Bool :=
  decide ((s.getChan ch).held = some h) && decide (h.opcode = op) && decide (h.stepped = false) && decide (s.turnOf ch h.tick = true) &&
    decide (h.forwards ch = false) &&
    (match opInfo op with | some i => decide (s.checks i ch h = .pass) | none => false) && decide (h.block = some b)

/-- The decision is right. -/
theorem commanded_of {s : State} {op ch : Nat} {h : Held} {b : List Byte} (w : commandedB s op ch h b = true) : Commanded s op ch h b := by
  unfold commandedB at w
  simp only [Bool.and_eq_true, decide_eq_true_eq] at w
  obtain ⟨⟨⟨⟨⟨⟨h1, h2⟩, h3⟩, h4⟩, h5⟩, h6⟩, h7⟩ := w
  refine ⟨h1, h2, h3, h4, h5, ?_, h7⟩
  split at h6
  · exact ⟨_, by assumption, of_decide_eq_true h6⟩
  · cases h6

/-- Decides Deliverable. -/
def deliverableB (s : State) (p : Nat) (f : Frame) : Bool :=
  kindOk p f && !s.isSelvage p && decide ((s.getPort p).state ≠ .lost)

/-- The decision is right. -/
theorem deliverable_of {s : State} {p : Nat} {f : Frame} (w : deliverableB s p f = true) : Deliverable s p f := by
  unfold deliverableB at w
  simp only [Bool.and_eq_true, decide_eq_true_eq, Bool.not_eq_true'] at w
  exact ⟨w.1.1, w.1.2, w.2⟩

/-- The record of a frond whose gang 0 is warden of every unit; program slot 0. -/
def rec0 : FrondRec :=
  { lfrond := 0, wardens := 0, pages := 896, slots := 1, entry := [], constOffset := 0, constLength := 0, constDest := 0, relocFirst := 0,
    relocCount := 0, slotBody := [4096] }
/-- An image with every level of the rate table enabled, windows, context entries, link slots and tokens. -/
def img0 : Image :=
  { patternId := 9, size := [3, 3, 3], fronds := 4, stepStitches := 100, slipBudget := 50, realignLead := 10, collTimeout := 200, steps := 0,
    box := [0, 2, 0, 2, 0, 2], job := [0, 0, 0, 0, 0, 2], fabricPackages := 27,
    resources := [⟨1, 0, 4⟩, ⟨2, 0, 1⟩, ⟨3, 0, 1⟩, ⟨4, 0, 8⟩, ⟨5, 0, 4⟩, ⟨7, 0, 2⟩, ⟨8, 0, 4⟩],
    records := [rec0, rec0, rec0, rec0], groups := [{ id := 5, axes := 1, box := [0, 2, 0, 0, 0, 0], members := 3 }],
    rate := List.replicate 16 { watts := 1000, enabled := true, lead := 10 } }
/-- A RUNNING partition of group 0. -/
def part0 : Partition :=
  { life := .exists_, pat := .running, groups := 1, hbmGib := 1, peatBase := 0x010000000000, peatGib := 1, image := img0,
    run := { base := 900 }, serve := { quota := 4, submitOn := true } }
/-- A link plan of a fabric of three packages along each axis; the own package in the middle. -/
def plan0 : Plan := { fabric := 1, size := ⟨3, 3, 3⟩, twin := 0, peer := 2, chassis := 0, here := ⟨1, 1, 1⟩, ports := 0x1FFF }
/-- A package of a running fabric with a RUNNING partition 0, at stitch 1,000. -/
def running : State :=
  part 0 part0
    { up with
      dom := [(0, .on), (173, .on)], dies := { up.dies with die := List.replicate 4 { hubUp := true }, half := [true, true] },
      sync := { up.sync with stitch := 1000 },
      links := { up.links with planned := true, plan := some plan0, planCh := none,
                               port := (List.range 13).map fun p => (p, { state := .up, result := .ok }) } }
/-- An open context of partition 0. -/
def ctx0 : Ctx := { state := .open_, part := 0, gen := 1, maxLength := 10, kvBytes := 4096, wset := 3 }
/-- The capability block that the small image asks of every die: VENDOR 1, DIE_CLASS 2, GEN 3, a grid of 12 by 12. -/
def cap0 : List Byte := record 64 [⟨0, 2, 0x0102⟩, ⟨2, 2, 1⟩, ⟨4, 2, 2⟩, ⟨6, 1, 3⟩, ⟨8, 1, 12⟩, ⟨9, 1, 12⟩]
/-- Directory entries of the small image: TYPE, COUNT, OFFSET and LENGTH. -/
def dir0 : List (Nat × Nat × Nat × Nat) :=
  [(1, 1, 0x180, 16), (2, 4, 0x1C0, 1024), (3, 0, 0x180, 0), (4, 0, 0x180, 0), (5, 0, 0x180, 0), (6, 0, 0x180, 0), (7, 1, 0x5C0, 160),
   (8, 0, 0x680, 16), (9, 1, 0x6C0, 32)]
/-- The smallest image that passes every check: four fronds without pages, one rate level, one micro-batch slot. -/
def imageBytes : List Byte :=
  record 0x80 [⟨0, 4, 0x54504734⟩, ⟨5, 1, 1⟩, ⟨6, 2, 0x180⟩, ⟨8, 4, 1792⟩, ⟨0xC, 4, 1920930689⟩, ⟨0x10, 8, 77⟩, ⟨0x18, 2, 1⟩, ⟨0x1A, 2, 2⟩,
    ⟨0x1C, 1, 3⟩, ⟨0x1D, 1, 12⟩, ⟨0x1E, 1, 12⟩, ⟨0x20, 2, 3⟩, ⟨0x22, 2, 3⟩, ⟨0x24, 2, 3⟩, ⟨0x28, 2, 4⟩, ⟨0x2C, 4, 4096⟩, ⟨0x34, 2, 16⟩,
    ⟨0x4A, 2, 2⟩, ⟨0x4E, 2, 2⟩, ⟨0x52, 2, 2⟩, ⟨0x56, 2, 2⟩, ⟨0x5A, 2, 2⟩, ⟨0x5E, 2, 2⟩]
  ++ dir0.flatMap (fun e => record 16 [⟨0, 2, e.1⟩, ⟨2, 2, e.2.1⟩, ⟨8, 4, e.2.2.1⟩, ⟨0xC, 4, e.2.2.2⟩]) ++ record 112 []
  ++ record 64 [⟨0, 1, 3⟩, ⟨8, 8, 4096⟩]
  ++ (List.range 4).flatMap (fun l => record 24 [⟨0, 2, l⟩, ⟨8, 16, 256 ^ 16 - 1⟩] ++ record 40 [] ++ List.replicate 128 255 ++ record 64 [])
  ++ record 192 [⟨0, 4, 27⟩, ⟨0x20, 2, 1000⟩, ⟨0x22, 1, 1⟩, ⟨0x24, 2, 100⟩] ++ record 64 []
  ++ record 64 [⟨0, 2, 1⟩, ⟨2, 2, 1⟩, ⟨4, 4, 1⟩, ⟨0x12, 1, 1⟩, ⟨0x14, 4, 1⟩]
/-- A package whose dies and plan are those of the small image, with an existing partition 0 and an admission queued. -/
def admitting (load : Bool) : State :=
  part 0 { life := .exists_, groups := 1, hbmGib := 1, serve := { quota := 4 } }
    { held 1 { cmd (if load then 0x0201 else 0x0202) 0 [] with stepped := true, acked := true } up with
      dom := [(174, .on)], dies := { up.dies with die := List.replicate 4 { cap := some cap0 } },
      links := { up.links with planned := true, plan := some { fabric := 1, size := ⟨3, 3, 3⟩, twin := 0, peer := 2, chassis := 0, here := ⟨1, 1, 1⟩,
                                                               ports := 1 } },
      admissions := [{ load := load, ch := 1, tag := 7, part := 0, source := 1, size := 1792, addr := 0 }] }

/-- The CRC register as a number, which each step evaluates. -/
def crcS : List Byte → Nat → Nat
  | [], c => c
  | b :: t, 0 => crcS t (crcByte (BitVec.ofNat 32 0) b).toNat
  | b :: t, n + 1 => crcS t (crcByte (BitVec.ofNat 32 (n + 1)) b).toNat

/-- It is the CRC register. -/
theorem crcS_eq (bs : List Byte) : ∀ c : BitVec 32, crcS bs c.toNat = (bs.foldl crcByte c).toNat := by
  induction bs with
  | nil => intro c; cases h : c.toNat <;> simp [crcS, h]
  | cons b t ih =>
    intro c
    have hc : BitVec.ofNat 32 c.toNat = c := by simp
    cases h : c.toNat with
    | zero => rw [h] at hc; simp only [crcS, List.foldl_cons, ← hc, ih]
    | succ n => rw [h] at hc; simp only [crcS, List.foldl_cons, ← hc, ih]

/-- The CRC-32 computed step by step. -/
theorem crc32_strict (bs : List Byte) : (crc32 bs).toNat = 2 ^ 32 - 1 - crcS bs 0xFFFFFFFF := by
  have h := crcS_eq bs 0xFFFFFFFF#32
  rw [show (0xFFFFFFFF#32).toNat = 0xFFFFFFFF from rfl] at h
  rw [h, crc32, BitVec.toNat_not]

/-- A whole payload slice is itself. -/
theorem slice_slice (p : List Byte) (n : Nat) : slice (slice p 0 n) 0 n = slice p 0 n := by
  have h : (slice p 0 n).length = n := by simp [slice]
  have e : slice (slice p 0 n) 0 n = (slice p 0 n).take n ++ List.replicate (n - ((slice p 0 n).take n).length) 0 := by simp [slice]
  rw [e, List.take_of_length_le (by omega), h]; simp

/-- A flit as it is made has its CRC. -/
theorem flit_ok (h : BitVec 64) (p : List Byte) : flCrcOk (mkFlit h p) = true := by
  simp only [flCrcOk, mkFlit, slice_slice, beq_self_eq_true]

/-! ### Well-formed commands -/

/-- A frame in range. -/
def frame0 : Frame := { kind := 4, vl := 2, payload := [] }
/-- ALOAD parameters in range. -/
def aload0 : AloadArgs := ⟨0, 4, 0, 128, 128⟩
/-- ASTREAM parameters in range. -/
def astream0 : AstreamArgs := ⟨0, 512, 0, 1, 0, 512, true, 0, 128, 128, none⟩

/-- Commands in range are well-formed. -/
theorem test_wellFormed_0 : (([
    .railFault ⟨.vhub, 0⟩, .avsbusSettleTimeout 0, .diePllLock 0, .hubLinkUp 0, .capabilityReply 0 0 (List.replicate 64 0), .capabilityQueryTimeout 0,
    .dieFirmwareLoaded 0, .halfPartnerLinkUp 0, .ucieFlitCrcRetry 0, .dieLinkTrainingLoss 0, .dieLinkRetrainDone 0, .dieLinkLost 0, .partCreate 0,
    .partCreateFillDone 0, .partDestroy 0, .partQuery 0, .patternLoad 0, .patternAdmit 0, .patternStart 0, .patternHalt 0, .patternStatus 0,
    .powerTarget 0, .rateSet 0, .powerReport 0, .domainQuery 0, .linkProfile 0, .linkPlan 0, .linkReport 0, .selvageSet 0, .routeTableLoad 0,
    .statsRead 0, .congestionMap 0, .faultLogRead 0, .ctxOpen 0, .ctxClose 0, .ctxQuota 0, .batchPolicy 0, .selftestReport 0, .selftestRun 0,
    .twinBind 0, .twinShed 0, .twinRejoin 0, .twinStatus 0, .memRegulate 0, .memFill 0, .memFillPieceDone 0 0 default, .faultPolicy 0, .fwInfo 0,
    .registerWrite ⟨.bar0, 0, 4⟩ default default, .dbRingSubmit ⟨.bar0, 0, 4⟩ default default, .dbRingRxpost ⟨.bar0, 0, 4⟩ default,
    .dbClear ⟨.bar0, 0, 4⟩ default, .rxTailWrite ⟨.bar0, 0, 4⟩ default default, .rxCtrlWrite ⟨.bar0, 0, 4⟩ default, .rxringDropRead ⟨.bar0, 0, 4⟩,
    .patternRunStart 0, .patternHaltEffect 0, .stepBegin 0, .announcementForget {} 0, .syncReceive 0 default default] : List Instr).all Instr.wf) = true := by decide +kernel

/-- Commands in range are well-formed. -/
theorem test_wellFormed_1 : (([
    .followReceive 0 default, .bringupAttempt 0, .laneLock 0 0, .trainTimeout 0, .alignFlit 0 0 default 0 0, .alignTimeout 0,
    .identFlit 0 0 default, .identTimeout 0, .laneSignalLoss 0 0, .flitReceive 0 0 default ⟨0, List.replicate 232 0, 0⟩, .flowHoldExpiry 0 0,
    .flowOffResend 0 0, .frameSend 0, .linkEvent 0 default, .portRetrainDone 0, .portLost 0, .lostPortBringup 0, .routedForward 0 frame0,
    .pdataFrame 0 frame0, .collFrame 0 frame0 default, .commandFrame 0 frame0, .voteFrame 0 frame0, .abortRecord 0 frame0, .voteTimeout 0,
    .broadcastFrame 0 frame0, .creditFrame 0 frame0, .creditSend {}, .windowTimeout 0 0, .fallbackFrame 0 frame0, .serveFrame 0 frame0,
    .batchSealDeadline 0, .telemetryRequest 0 frame0, .telemetryReply 0 frame0, .twinSigFrame frame0, .twinCopyFrame frame0, .signatureSend 0,
    .peerRecordDeadline 0, .donorCopyDeadline 0, .wardenIssue 0 0 0 default, .stitchWait 0 0 0, .aload 0 0 0 aload0, .aloadRowResume 0 0,
    .swap 0 0 0, .astream 0 0 0 astream0, .astreamEnter 0 0, .vectorOperation 0 0 default default, .vectorReduction 0 0 default default 0,
    .vectorConversion 0 0 default 0 0 0, .pinnuleInstruction 0 0 0 0 default, .pinnuleConversion 0 0 0 0 default 0 ⟨0, 0⟩, .finchk 0 0 default,
    .bob 0 0 0 0 0 0 0 0 0 0, .raise 0 0 0, .stepCommit 0 0 0, .voteSend 0, .svRecv 0 0 0 0, .svSend 0 0 {} 0 0, .batchTake 0 0 0 0,
    .batchDone 0 0 0 0, .fbSend 0 0 {} 0 0 0] : List Instr).all Instr.wf) = true := by decide +kernel

/-- Commands in range are well-formed. -/
theorem test_wellFormed_2 : (([
    .mmSend 0 0 0 0 astream0, .recvMm 0 0 0 0 astream0, .mmRs 0 0 0 0 astream0, .agMm 0 0 0 0 astream0, .mmAr 0 0 0 0 astream0, .vecAr 0 0 0,
    .fusedChunkSend 0 0 0, .collectiveTimeout 0 0 0, .abortHoldExpiry 0 0 0, .spoolStreamIssue 0 0 0, .spoolBurstStart 0 0,
    .spoolBurstLanded 0 0 0 default default, .spoolSlotRelease 0 0, .spoolWriteBurst 0 0, .spoolWriteAccepted 0 0 default,
    .regulatorPiecePass 0 0 0 0, .microBatchInputRead 0 0 default, .hbmLaneFault 0 0 default, .hbmLaneRetrain 0, .hbmLaneRetrainDone 0,
    .hbmRefresh 0 0, .domainWakeDone 0, .entdaa 0] : List Instr).all Instr.wf) = true := by decide +kernel

/-- A command with one operand out of range is refused. -/
theorem test_illFormed_0 : (([
    .railFault ⟨.vcomp 4, 0⟩, .avsbusSettleTimeout 5, .diePllLock 4, .hubLinkUp 4, .capabilityReply 4 0 (List.replicate 64 0),
    .capabilityReply 0 256 (List.replicate 64 0), .capabilityReply 0 0 [], .capabilityQueryTimeout 4, .dieFirmwareLoaded 4, .halfPartnerLinkUp 2,
    .ucieFlitCrcRetry 6, .dieLinkTrainingLoss 6, .dieLinkRetrainDone 6, .dieLinkLost 6, .partCreate 72, .partCreateFillDone 64, .partDestroy 72,
    .partQuery 72, .patternLoad 72, .patternAdmit 72, .patternStart 72, .patternHalt 72, .patternStatus 72, .powerTarget 72, .rateSet 72,
    .powerReport 72, .domainQuery 72, .linkProfile 72, .linkPlan 72, .linkReport 72, .selvageSet 72, .routeTableLoad 72, .statsRead 72,
    .congestionMap 72, .faultLogRead 72, .ctxOpen 72, .ctxClose 72, .ctxQuota 72, .batchPolicy 72, .selftestReport 72, .selftestRun 72,
    .twinBind 72, .twinShed 72, .twinRejoin 72, .twinStatus 72, .memRegulate 72, .memFill 72, .memFillPieceDone 64 0 default, .faultPolicy 72,
    .fwInfo 72, .registerWrite ⟨.bar0, 0, 3⟩ default default, .dbRingSubmit ⟨.bar0, 0, 3⟩ default default, .dbRingRxpost ⟨.bar0, 0, 3⟩ default,
    .dbClear ⟨.bar0, 0, 3⟩ default, .rxTailWrite ⟨.bar0, 0, 3⟩ default default, .rxCtrlWrite ⟨.bar0, 0, 3⟩ default, .rxringDropRead ⟨.bar0, 0, 3⟩,
    .patternRunStart 64, .patternHaltEffect 64, .stepBegin 64] : List Instr).all fun i => !i.wf) = true := by decide +kernel

/-- A command with one operand out of range is refused. -/
theorem test_illFormed_1 : (([
    .announcementForget { x := 256 } 0, .announcementForget {} (2 ^ 32), .syncReceive 13 default default,
    .syncReceive 0 (List.replicate 233 0) default, .followReceive 13 default, .followReceive 0 (List.replicate 233 0), .bringupAttempt 13,
    .laneLock 13 0, .laneLock 0 8, .trainTimeout 13, .alignFlit 13 0 default 0 0, .alignFlit 0 8 default 0 0,
    .alignFlit 0 0 (List.replicate 233 0) 0 0, .alignTimeout 13, .identFlit 13 0 default, .identFlit 0 8 default,
    .identFlit 0 0 (List.replicate 233 0), .identTimeout 13, .laneSignalLoss 13 0, .laneSignalLoss 0 8,
    .flitReceive 13 0 default ⟨0, List.replicate 232 0, 0⟩, .flitReceive 0 8 default ⟨0, List.replicate 232 0, 0⟩,
    .flitReceive 0 0 default ⟨0, [], 0⟩, .flowHoldExpiry 13 0, .flowHoldExpiry 0 6, .flowOffResend 13 0, .flowOffResend 0 6, .frameSend 13,
    .linkEvent 13 default, .portRetrainDone 13, .portLost 13, .lostPortBringup 13, .routedForward 14 frame0,
    .routedForward 0 { frame0 with vl := 4 }, .pdataFrame 14 frame0, .pdataFrame 0 { frame0 with vl := 4 }, .collFrame 14 frame0 default,
    .collFrame 0 { frame0 with vl := 4 } default, .commandFrame 14 frame0, .commandFrame 0 { frame0 with vl := 4 }, .voteFrame 14 frame0,
    .voteFrame 0 { frame0 with vl := 4 }, .abortRecord 14 frame0, .abortRecord 0 { frame0 with vl := 4 }, .voteTimeout 64,
    .broadcastFrame 14 frame0, .broadcastFrame 0 { frame0 with vl := 4 }, .creditFrame 14 frame0, .creditFrame 0 { frame0 with vl := 4 },
    .creditSend { x := 256 }, .windowTimeout 64 0, .windowTimeout 0 4096, .fallbackFrame 14 frame0, .fallbackFrame 0 { frame0 with vl := 4 },
    .serveFrame 14 frame0, .serveFrame 0 { frame0 with vl := 4 }, .batchSealDeadline 64, .telemetryRequest 14 frame0,
    .telemetryRequest 0 { frame0 with vl := 4 }, .telemetryReply 14 frame0] : List Instr).all fun i => !i.wf) = true := by decide +kernel

/-- A command with one operand out of range is refused. -/
theorem test_illFormed_2 : (([
    .telemetryReply 0 { frame0 with vl := 4 }, .twinSigFrame { frame0 with vl := 4 }, .twinCopyFrame { frame0 with vl := 4 }, .signatureSend 64,
    .peerRecordDeadline 64, .donorCopyDeadline 64, .wardenIssue 576 0 0 default, .wardenIssue 0 16 0 default, .wardenIssue 0 0 (2 ^ 32) default,
    .stitchWait 576 0 0, .stitchWait 0 16 0, .stitchWait 0 0 32, .aload 576 0 0 aload0, .aload 0 16 0 aload0,
    .aload 0 0 0 { aload0 with kValid := 0 }, .aloadRowResume 576 0, .swap 576 0 0, .swap 0 16 0, .astream 576 0 0 astream0,
    .astream 0 16 0 astream0, .astream 0 0 0 { astream0 with m := 0 }, .astreamEnter 576 0, .vectorOperation 576 0 default default,
    .vectorOperation 0 16 default default, .vectorReduction 576 0 default default 0, .vectorReduction 0 16 default default 0,
    .vectorReduction 0 0 default default 16, .vectorConversion 576 0 default 0 0 0, .vectorConversion 0 16 default 0 0 0,
    .vectorConversion 0 0 default 16 0 0, .vectorConversion 0 0 default 0 (2 ^ 32) 0, .vectorConversion 0 0 default 0 0 8,
    .pinnuleInstruction 576 0 0 0 default, .pinnuleInstruction 0 528 0 0 default, .pinnuleInstruction 0 0 64 0 default,
    .pinnuleInstruction 0 0 0 4096 default, .pinnuleConversion 576 0 0 0 default 0 ⟨0, 0⟩, .pinnuleConversion 0 528 0 0 default 0 ⟨0, 0⟩,
    .pinnuleConversion 0 0 64 0 default 0 ⟨0, 0⟩, .pinnuleConversion 0 0 0 4096 default 0 ⟨0, 0⟩, .pinnuleConversion 0 0 0 0 default (2 ^ 32) ⟨0, 0⟩,
    .pinnuleConversion 0 0 0 0 default 0 ⟨(2 ^ 32), 0⟩, .pinnuleConversion 0 0 0 0 default 0 ⟨0, 8⟩, .finchk 576 0 default, .finchk 0 528 default, .bob 576 0 0 0 0 0 0 0 0 0,
    .bob 0 528 0 0 0 0 0 0 0 0, .bob 0 0 0 (2 ^ 32) 0 0 0 0 0 0, .bob 0 0 0 0 (2 ^ 32) 0 0 0 0 0, .bob 0 0 0 0 0 (2 ^ 32) 0 0 0 0,
    .bob 0 0 0 0 0 0 (2 ^ 32) 0 0 0, .bob 0 0 0 0 0 0 0 (2 ^ 32) 0 0, .bob 0 0 0 0 0 0 0 0 (2 ^ 32) 0, .bob 0 0 0 0 0 0 0 0 0 8, .raise 576 0 0,
    .raise 0 528 0, .raise 0 0 (2 ^ 32), .stepCommit 576 0 0, .stepCommit 0 16 0, .stepCommit 0 0 (2 ^ 32), .voteSend 64] : List Instr).all fun i => !i.wf) = true := by decide +kernel

/-- A command with one operand out of range is refused. -/
theorem test_illFormed_3 : (([
    .svRecv 576 0 0 0, .svRecv 0 16 0 0, .svRecv 0 0 (2 ^ 32) 0, .svRecv 0 0 0 4096, .svSend 576 0 {} 0 0, .svSend 0 16 {} 0 0,
    .svSend 0 0 { x := 256 } 0 0, .svSend 0 0 {} 64 0, .svSend 0 0 {} 0 (2 ^ 32), .batchTake 576 0 0 0, .batchTake 0 16 0 0,
    .batchTake 0 0 (2 ^ 32) 0, .batchTake 0 0 0 4096, .batchDone 576 0 0 0, .batchDone 0 16 0 0, .batchDone 0 0 (2 ^ 32) 0,
    .batchDone 0 0 0 (2 ^ 32), .fbSend 576 0 {} 0 0 0, .fbSend 0 16 {} 0 0 0, .fbSend 0 0 { x := 256 } 0 0 0, .fbSend 0 0 {} 64 0 0,
    .fbSend 0 0 {} 0 (2 ^ 32) 0, .fbSend 0 0 {} 0 0 (2 ^ 32), .mmSend 576 0 0 0 astream0, .mmSend 0 16 0 0 astream0,
    .mmSend 0 0 (2 ^ 32) 0 astream0, .mmSend 0 0 0 0 { astream0 with m := 0 }, .recvMm 576 0 0 0 astream0, .recvMm 0 16 0 0 astream0,
    .recvMm 0 0 (2 ^ 32) 0 astream0, .recvMm 0 0 0 0 { astream0 with m := 0 }, .mmRs 576 0 0 0 astream0, .mmRs 0 16 0 0 astream0,
    .mmRs 0 0 (2 ^ 32) 0 astream0, .mmRs 0 0 0 0 { astream0 with m := 0 }, .agMm 576 0 0 0 astream0, .agMm 0 16 0 0 astream0,
    .agMm 0 0 (2 ^ 32) 0 astream0, .agMm 0 0 0 0 { astream0 with m := 0 }, .mmAr 576 0 0 0 astream0, .mmAr 0 16 0 0 astream0,
    .mmAr 0 0 (2 ^ 32) 0 astream0, .mmAr 0 0 0 0 { astream0 with m := 0 }, .vecAr 576 0 0, .vecAr 0 16 0, .vecAr 0 0 (2 ^ 32),
    .fusedChunkSend 576 0 0, .fusedChunkSend 0 (2 ^ 32) 0, .collectiveTimeout 64 0 0, .collectiveTimeout 0 65536 0, .collectiveTimeout 0 0 (2 ^ 64),
    .abortHoldExpiry 64 0 0, .abortHoldExpiry 0 65536 0, .abortHoldExpiry 0 0 (2 ^ 64), .spoolStreamIssue 576 0 0, .spoolStreamIssue 0 16 0,
    .spoolStreamIssue 0 0 (2 ^ 32), .spoolBurstStart 576 0, .spoolBurstLanded 576 0 0 default default,
    .spoolBurstLanded 0 0 (2 ^ 32) default default] : List Instr).all fun i => !i.wf) = true := by decide +kernel

/-- A command with one operand out of range is refused. -/
theorem test_illFormed_4 : (([
    .spoolSlotRelease 576 0, .spoolWriteBurst 576 0, .spoolWriteAccepted 576 0 default, .regulatorPiecePass 64 0 0 0, .regulatorPiecePass 0 3 0 0,
    .regulatorPiecePass 0 0 4 0, .regulatorPiecePass 0 0 0 2049, .microBatchInputRead 64 0 default, .microBatchInputRead 0 1024 default, .microBatchInputRead 0 0 ⟨[], [(576, 0)]⟩,
    .hbmLaneFault 384 0 default, .hbmLaneFault 0 256 default, .hbmLaneRetrain 384, .hbmLaneRetrainDone 384, .hbmRefresh 12 0, .hbmRefresh 0 64,
    .domainWakeDone 184, .entdaa 128] : List Instr).all fun i => !i.wf) = true := by decide +kernel

/-- Each field of a frame, of an access and of array parameters is checked. -/
theorem test_illFormed_fields :
    ([{ frame0 with dst := { y := 256 } }, { frame0 with src := { z := 256 } }, { frame0 with part := 64 }, { frame0 with kind := 16 },
      { frame0 with token := 65536 }, { frame0 with arg := 2 ^ 32 }, { frame0 with dl := 2 },
      { frame0 with payload := List.replicate 14833 0 }].all fun f => !frameOk f) = true ∧
    accessOk ⟨.i3c, 2 ^ 32, 4⟩ = false ∧
    ([{ aload0 with src := 2 ^ 32 }, { aload0 with wfmt := 256 }, { aload0 with expand := 2 }, { aload0 with kValid := 129 },
      { aload0 with nValid := 129 }, { aload0 with nValid := 0 }].all fun a => !aloadArgsOk a) = true ∧
    ([{ astream0 with src := 2 ^ 32 }, { astream0 with acc := 2 ^ 32 }, { astream0 with afmt := 256 }, { astream0 with mode := 256 },
      { astream0 with kValid := 129 }, { astream0 with kValid := 0 }, { astream0 with nValid := 129 },
      { astream0 with nValid := 0 }].all fun a => !astreamArgsOk a) = true := by decide +kernel

/-! ### The spec's worked examples and tables -/

/-- 01 *Dies*: frond 421 lies on C2, in package group 102. -/
theorem test_frond_421 : frondDie 421 = 2 ∧ frondGroup 421 = 102 := by decide

/-- 02 *Weight expander*: E2M1 0b1111 (-6.0) becomes E4M3 0xCC. -/
theorem test_expand_minus_six : expandE2m1 0xF = 0xCC := by decide

/-- 03: FP32 0x3F80_3000 into F19 is a tie: truncated with F19_RNE 0, to the even neighbour with 1, and not counted. -/
theorem test_narrow_f19_tie :
    narrowIeee 0 false 0x3F803000#32 = { code := 0x3F802000 } ∧ narrowIeee 0 true 0x3F803000#32 = { code := 0x3F804000 } := by decide +kernel

/-- 03: the FP16 subnormal 0x0001 widens to the F19 container 0x3380_0000. -/
theorem test_widen_fp16_subnormal : widenWord 2 0x0001#32 = 0x33800000#32 := by decide +kernel

/-- The block of 03 *Worked example: one block into MXFP8 E4M3*. -/
def block0 : List Word :=
  [0x41E80000#32, 0x3F980000#32, 0xC1E40000#32, 0x7F800000#32, 0x38800000#32, 0x80000000#32, 0x38C00000#32] ++ List.replicate 25 0x3F000000#32
/-- It narrows to the codes of the table, one overflow and two underflows. -/
theorem test_block_e4m3 :
    mxBlock 4 false block0 = { scale := 0x7B, elems := [0x7E, 0x5A, 0xFE, 0x7F, 0, 0x80, 0] ++ List.replicate 25 0x50, ovf := 1, unf := 2 } := by
  decide +kernel
/-- With NAN_ON_OVERFLOW 1 element 0 is NaN; into E5M2 the infinity stays and the scale is 0x74; into E2M1 the infinity is 6.0. -/
theorem test_block_others :
    nth 0 (mxBlock 4 true block0).elems 0 = 0x7F ∧ (mxBlock 5 false block0).scale = 0x74 ∧ nth 0 (mxBlock 5 false block0).elems 3 = 0x7C ∧
      nth 0 (mxBlock 8 false block0).elems 3 = 7 := by decide +kernel

/-- 06 *HBM interleave*: address 0x2_4300_5A40 lies on C3, stack 11, pseudo-channel 3, offset 0xC0_0240. -/
theorem test_hbm_locate : hbmLocate 0x243005A40 = (3, 11, 3, 0xC00240) := by decide

/-- 07: the FALLBACK frame from (5, 9, 3) to (40, 30, 11) leaves by X-; from (40, 9, 3) by Y-, from (40, 30, 3) by Z+; the hop from 0 crosses
the wrap link. -/
theorem test_route_directions :
    nextDir 0 ⟨64, 32, 16⟩ ⟨5, 9, 3⟩ ⟨40, 30, 11⟩ = some 1 ∧ nextDir 0 ⟨64, 32, 16⟩ ⟨40, 9, 3⟩ ⟨40, 30, 11⟩ = some 3 ∧
      nextDir 0 ⟨64, 32, 16⟩ ⟨40, 30, 3⟩ ⟨40, 30, 11⟩ = some 4 ∧ hopClass ⟨64, 32, 16⟩ ⟨0, 9, 3⟩ (some 1) 0 1 = 1 ∧
      hopClass ⟨64, 32, 16⟩ ⟨40, 9, 3⟩ (some 1) 1 3 = 0 := by decide

/-- 05: the loss scale at step 104 of the example grows early, at step 101 it does not, and step 102 halves it. -/
theorem test_loss_scale :
    let t : Tcb := { growth := 4, earlyRun := 2, earlyShareExp := 7, scaleExp := 15, cleanRun := 1, skipHalt := 0 }
    let v (unf : Nat) : Vote := { gradConv := 67108864, gradUnf := unf }
    ((t.commit (v 131072) 1).scaleExp, (t.commit (v 131072) 1).cleanRun) = (15, 2) ∧
      ((t.commit (v 1048576) 1).scaleExp, (t.commit (v 1048576) 1).cleanRun) = (16, 0) ∧
      (t.skipNonfinite.scaleExp, t.skipNonfinite.cleanRun, t.skipNonfinite.updates) = (14, 0, 0) := by decide +kernel

/-- 06: RATE 245,760 and DEPTH 491,520 add 61,440 units to a die share at a boundary, up to 122,880. -/
theorem test_regulator_example :
    (Regulator.refill { on := true, rate := 245760, depth := 491520, tokens := [0, 61440, 100000, 122880] }).tokens =
      [61440, 122880, 122880, 122880] := by decide

/-- R181, computed by hand from its procedure: key 0x0123_4567_89AB_CDEF, counter 1, 2, 3, 0x8000_0000. -/
theorem test_bobbin :
    bobbin 0x89ABCDEF#32 0x01234567#32 1#32 2#32 3#32 0x80000000#32 = [0xE7CF066F#32, 0x007884C2#32, 0x9F6DF916#32, 0x20007836#32] := by
  decide +kernel

/-- FIPS 180-4: SHA-256 of the three bytes "abc". -/
theorem test_sha256 : (sha256 [0x61, 0x62, 0x63]).take 4 = [0xBA, 0x78, 0x16, 0xBF] := by decide +kernel

/-- The CRC-32 of the nine digits. -/
theorem test_crc32 : crc32 [0x31, 0x32, 0x33, 0x34, 0x35, 0x36, 0x37, 0x38, 0x39] = 0xCBF43926#32 := by decide +kernel

/-- The ring of channel 12 in 11 *Receive rings*: 2 KiB buffers, 64 descriptors, RX_HEAD 60. -/
def ring12 (tail : Nat) : State := up.updChan 12 fun c => { c with rxOn := true, bufUnits := 32, sizeLog2 := 6, rxHead := 60, rxTail := tail }
/-- A record of 6,032 bytes finds two free buffers and is dropped; with 10 free ones a record of 48 bytes takes one. -/
theorem test_ring_drop :
    (((ring12 62).ringRecord 12 1 ⟨5, 9, 3⟩ 0 (List.replicate 6000 0)).getChan 12).rxHead = 60 ∧
      (((ring12 62).ringRecord 12 1 ⟨5, 9, 3⟩ 0 (List.replicate 6000 0)).getChan 12).rxDrop = 1 ∧
      (((ring12 6).ringRecord 12 2 ⟨5, 9, 3⟩ 0 (List.replicate 32 0)).getChan 12).rxHead = 61 := by decide +kernel

/-- 11 *Conflicts*: PATTERN_START of the destroyed partition 5 returns CONFLICT with 0x0001_0031 and 0x0000_0102. -/
theorem test_conflict :
    (match exec (.patternStart 9) (held 9 (cmd 0x0203 5 (record 8 []))
        (part 5 { life := .destroyed, destroyedBy := { ch := 1, tag := 0x31, opcode := 0x0102 } } up)) with
      | .next t => (t.getChan 9).reply.take 2
      | _ => []) = [0x00010031#32, 0x00000102#32] := by decide +kernel

/-! ### An image that passes admission -/

/-- The CRC in the header is that of the image. -/
theorem image_crc : imageCrc imageBytes = fld imageBytes 0xC 4 := by
  rw [imageCrc, crc32_strict]; decide +kernel
/-- The first checks pass. -/
theorem image_firstChecks : firstFail (firstChecks imageBytes 1792) = none := by decide +kernel
/-- The header checks pass. -/
theorem image_headerChecks : firstFail (headerChecks imageBytes) = none := by decide +kernel
/-- The directory checks pass. -/
theorem image_directoryChecks : firstFail (directoryChecks imageBytes) = none := by decide +kernel
/-- The section checks pass. -/
theorem image_sectionChecks : firstFail (sectionChecks imageBytes) = none := by decide +kernel
/-- Every check on the image itself passes. -/
theorem image_passes : imageFailure imageBytes 1792 = none := by
  simp only [imageFailure, image_firstChecks, image_headerChecks, image_directoryChecks, image_sectionChecks, image_crc, ne_eq, not_true_eq_false, if_false, Option.map_none]
/-- The image declares 4,096 entries of one resource. -/
theorem image_resources : imgResources imageBytes = [⟨3, 0, 4096⟩] := by decide +kernel
/-- What it declares of each resource. -/
theorem image_amount (r i : Nat) : (imageParse imageBytes).amount r i = if r = 3 ∧ i = 0 then 4096 else 0 := by
  simp only [Image.amount, imageParse, image_resources, List.find?]
  by_cases h : r = 3 ∧ i = 0
  · obtain ⟨rfl, rfl⟩ := h; rfl
  · have : ((3 : Nat) == r && (0 : Nat) == i) = false := by
      simp only [Bool.and_eq_false_iff, beq_eq_false_iff_ne]
      by_cases hr : r = 3
      · exact .inr fun hi => h ⟨hr, hi.symm⟩
      · exact .inl fun e => hr e.symm
    rw [this, if_neg h]

/-- An image that fails nothing is admitted. -/
theorem judge_of {s : State} {p n : Nat} {b : List Byte} (h0 : imageFailure b n = none) (h1 : s.shapeFailure p b (imageParse b) = none)
    (h2 : s.portFailure (imageParse b) = none) (h3 : s.resourceFailure p (imageParse b) = none) : (s.judge p n b).st = .ok := by
  simp [State.judge, h0, h1, h2, h3]

/-- The image passes admission. -/
theorem judge_passes (load : Bool) :
    (State.judge { admitting load with admissions := [] } 0 1792 imageBytes).st = .ok := by
  have h1 : State.shapeFailure { admitting load with admissions := [] } 0 imageBytes (imageParse imageBytes) = none := by
    cases load <;> decide +kernel
  have h2 : State.portFailure { admitting load with admissions := [] } (imageParse imageBytes) = none := by
    rw [State.portFailure, List.findSome?_eq_none_iff]
    intro p _
    exact if_pos (by rw [image_amount]; exact if_neg fun h => absurd h.1 (by decide))
  have h3 : State.resourceFailure { admitting load with admissions := [] } 0 (imageParse imageBytes) = none := by
    rw [State.resourceFailure, List.findSome?_eq_none_iff]
    intro r _
    rw [List.findSome?_eq_none_iff]
    intro i _
    rw [image_amount]
    by_cases h : r = 3 ∧ i = 0
    · obtain ⟨rfl, rfl⟩ := h
      cases load <;> decide +kernel
    · rw [if_neg h, if_neg (Nat.not_lt_zero _)]
  exact judge_of image_passes h1 h2 h3

/-! ### Hypotheses that can be met -/

/-- The package before VAON rises. -/
def off0 : State := { State.reset with aon := { phase := .off } }
/-- A self-test whose phase has not overrun its bound. -/
def phaseK (k : Nat) : State :=
  { testing k with
    aon := { (testing k).aon with ticks := 900000010 }, irq := { up.irq with status := List.replicate 11 0 } }
/-- States and operands that meet the hypotheses of StepRunsFrontCommand, clause by clause. -/
theorem witness_StepRunsFrontCommand :
    (∃ (c : Instr) (rest : List Instr) (s : State), s.pending = c :: rest) ∧
    (∃ (s : State), s.pending = [] ∧ s.aon.phase ≠ .off) ∧
    (∃ (s : State), s.pending = [] ∧ s.aon.phase = .off) :=
  ⟨⟨.vaonRise, [.vaonFall], { up with pending := [.vaonRise, .vaonFall] }, by decide +kernel⟩,
    ⟨up, by decide +kernel⟩,
    ⟨off0, by decide +kernel⟩⟩

/-- States and operands that meet the hypotheses of VaonFallAndRise, clause by clause. -/
theorem witness_VaonFallAndRise :
    (∃ (s : State), s.aon.phase = .off) ∧
    (∃ (s : State), s.aon.phase ≠ .off) :=
  ⟨⟨off0, by decide +kernel⟩,
    ⟨up, by decide +kernel⟩⟩

/-- States and operands that meet the hypotheses of PackageResetKeepsAonBank, clause by clause. -/
theorem witness_PackageResetKeepsAonBank :
    (∃ (s : State) (a : Aon) (r : State), a =
      { s.aon with phase := .held, park := .no, parkDue := false, thermTrip := false, tripped := false, railsOut := 0, railsLow := 0, listenDue := none, i3cAddr := none }
      ∧ r =
      { State.reset with pending := s.pending, out := s.out, free := s.free, tap := s.tap, bulk := s.bulk, test := { s.test with active := false, byCommand := none }, faults := { log := s.faults.log, next := s.faults.next }, mem := { noSpare := s.mem.noSpare }, rate := { tj := s.rate.tj } }
      ∧ s.aon.phase ≠ .off ∧ s.aon.pkgResetN = true) ∧
    (∃ (s : State) (a : Aon) (r : State), a =
      { s.aon with phase := .held, park := .no, parkDue := false, thermTrip := false, tripped := false, railsOut := 0, railsLow := 0, listenDue := none, i3cAddr := none }
      ∧ r =
      { State.reset with pending := s.pending, out := s.out, free := s.free, tap := s.tap, bulk := s.bulk, test := { s.test with active := false, byCommand := none }, faults := { log := s.faults.log, next := s.faults.next }, mem := { noSpare := s.mem.noSpare }, rate := { tj := s.rate.tj } }
      ∧ s.aon.phase ≠ .off ∧ s.aon.pwrOk = true) ∧
    (∃ (s : State) (a : Aon) (r : State), a =
      { s.aon with phase := .held, park := .no, parkDue := false, thermTrip := false, tripped := false, railsOut := 0, railsLow := 0, listenDue := none, i3cAddr := none }
      ∧ r =
      { State.reset with pending := s.pending, out := s.out, free := s.free, tap := s.tap, bulk := s.bulk, test := { s.test with active := false, byCommand := none }, faults := { log := s.faults.log, next := s.faults.next }, mem := { noSpare := s.mem.noSpare }, rate := { tj := s.rate.tj } }
      ∧ s.aon.phase ≠ .off ∧ s.aon.pkgResetN = false) ∧
    (∃ (s : State) (a : Aon) (r : State), a =
      { s.aon with phase := .held, park := .no, parkDue := false, thermTrip := false, tripped := false, railsOut := 0, railsLow := 0, listenDue := none, i3cAddr := none }
      ∧ r =
      { State.reset with pending := s.pending, out := s.out, free := s.free, tap := s.tap, bulk := s.bulk, test := { s.test with active := false, byCommand := none }, faults := { log := s.faults.log, next := s.faults.next }, mem := { noSpare := s.mem.noSpare }, rate := { tj := s.rate.tj } }
      ∧ s.aon.phase ≠ .off ∧ s.aon.pwrOk = false) :=
  ⟨⟨running, _, _, rfl, rfl, by decide +kernel⟩,
    ⟨running, _, _, rfl, rfl, by decide +kernel⟩,
    ⟨State.reset, _, _, rfl, rfl, by decide +kernel⟩,
    ⟨State.reset, _, _, rfl, rfl, by decide +kernel⟩⟩

/-- States and operands that meet the hypotheses of ReleaseBeginsSelfTest, clause by clause. -/
theorem witness_ReleaseBeginsSelfTest :
    (∃ (s : State) (tj : Int), s.aon.phase = .held ∧ s.aon.pkgResetN = false ∧ s.aon.pwrOk = true ∧ tj < 1760) ∧
    (∃ (s : State) (tj : Int), s.aon.phase = .held ∧ s.aon.pkgResetN = false ∧ s.aon.pwrOk = true ∧ 1760 ≤ tj) ∧
    (∃ (s : State), s.aon.phase = .held ∧ s.aon.pkgResetN = false ∧ s.aon.pwrOk = false) ∧
    (∃ (s : State), s.aon.phase = .held ∧ s.aon.pwrOk = false ∧ s.aon.pkgResetN = true ∧ s.rate.tj < 1760) :=
  ⟨⟨{ State.reset with aon := { pwrOk := true } }, 1759, by decide +kernel⟩,
    ⟨{ State.reset with aon := { pwrOk := true } }, 1760, by decide +kernel⟩,
    ⟨State.reset, by decide +kernel⟩,
    ⟨{ State.reset with aon := { pkgResetN := true } }, by decide +kernel⟩⟩

/-- States and operands that meet the hypotheses of SelfTestPhasesRunInOrder, clause by clause. -/
theorem witness_SelfTestPhasesRunInOrder :
    (∃ (s : State) (r : PhaseReport), s.test.active = true ∧ s.test.byCommand = none ∧ s.aon.ticks ≤ s.test.began + phaseBound s.test.phase ∧
      r.reason = 0 ∧ r.groupFail = 0 ∧ r.dieFail = 0 ∧ (∀ i, i < 12 → nth 0 r.stack i &&& 0x1FF00#32 = 0) ∧ (∀ k, k < 8 → nth 0 r.peat k &&& 7#32 = 0)
      ∧ s.mem.noSpare = [] ∧ (s.test.phase = 1 ∨ s.test.phase = 2 ∨ s.test.phase = 4 ∨ s.test.phase = 5 ∨ s.test.phase = 6)) ∧
    (∃ (s : State) (r : PhaseReport), s.test.active = true ∧ s.test.phase = 7 ∧ s.aon.ticks ≤ s.test.began + phaseBound 7 ∧ s.lanesFailed r = 0) ∧
    (∃ (s : State) (r : PhaseReport) (reason : Nat) (kind : Nat) (unit : Nat), s.test.active = true ∧ s.aon.ticks ≤ s.test.began + phaseBound
      s.test.phase ∧ ((s.test.phase = 1 ∨ s.test.phase = 2) ∧ r.reason ≠ 0 ∧ reason = r.reason ∧ kind = r.unitKind ∧ unit = r.unit ∨ s.test.phase = 4
      ∧ unit < 144 ∧ r.groupFail.getLsbD unit = true ∧ (∀ g, g < unit → r.groupFail.getLsbD g = false) ∧ reason = (if r.reason = 0x41 then 0x41 else
      0x40) ∧ kind = 3 ∨ s.test.phase = 4 ∧ r.groupFail = 0 ∧ unit < 4 ∧ r.dieFail.getLsbD unit = true ∧ (∀ d, d < unit → r.dieFail.getLsbD d = false)
      ∧ reason = 0x42 ∧ kind = 1 ∨ s.test.phase = 5 ∧ unit < 12 ∧ nth 0 r.stack unit &&& 0x1FF00#32 ≠ 0 ∧ (∀ i, i < unit → nth 0 r.stack i &&&
      0x1FF00#32 = 0) ∧ reason = (if (nth 0 r.stack unit).getLsbD 16 then 0x50 else 0x52) ∧ kind = 7 ∨ s.test.phase = 5 ∧ (∀ i, i < 12 → nth 0 r.stack
      i &&& 0x1FF00#32 = 0) ∧ unit ∈ s.mem.noSpare ∧ (∀ c ∈ s.mem.noSpare, unit ≤ c) ∧ reason = 0x51 ∧ kind = 6 ∨ s.test.phase = 6 ∧ unit < 8 ∧ nth 0
      r.peat unit &&& 7#32 ≠ 0 ∧ (∀ k, k < unit → nth 0 r.peat k &&& 7#32 = 0) ∧ reason = (if (nth 0 r.peat unit).getLsbD 0 then 0x60 else if (nth 0
      r.peat unit).getLsbD 1 then 0x61 else 0x62) ∧ kind = 8 ∨ s.test.phase = 7 ∧ unit < 28 ∧ (s.lanesFailed r).getLsbD unit = true ∧ (∀ l, l < unit →
      (s.lanesFailed r).getLsbD l = false) ∧ reason = 0x70 ∧ kind = 0xB)) ∧
    (∃ (s : State), s.test.active = true ∧ s.test.began + phaseBound s.test.phase < s.aon.ticks ∧ s.test.phase ≠ 3) :=
  ⟨⟨phaseK 5, { repaired := [383] }, by decide +kernel⟩,
    ⟨{ phaseK 7 with far := [(5, 1)] }, {}, by decide +kernel⟩,
    ⟨phaseK 6, { peat := List.replicate 7 0 ++ [6] }, 0x61, 8, 7, by decide +kernel⟩,
    ⟨testing 1, by decide +kernel⟩⟩

/-- States and operands that meet the hypotheses of HostPortResetClearsEnables, clause by clause. -/
theorem witness_HostPortResetClearsEnables :
    (∃ (s : State) (c : Instr) (a : Aon), (c = .perstNAssert ∧ a = { s.aon with perstN := false } ∨ c = .functionLevelReset ∧ s.configReady = true ∧
      a = s.aon)) ∧
    (∃ (s : State), s.configReady = false) ∧
    (∃ (s : State), s.aon.perstN = false) ∧
    (∃ (s : State), s.aon.perstN = true) :=
  ⟨⟨part 63 { serve := { submitOn := true } } (up.updChan 71 fun c => { c with rxOn := true }), .perstNAssert, { up.aon with perstN := false },
      by decide +kernel⟩,
    ⟨{ up with aon := { up.aon with perstN := false } }, by decide +kernel⟩,
    ⟨{ up with aon := { up.aon with perstN := false } }, by decide +kernel⟩,
    ⟨up, by decide +kernel⟩⟩


/-- What an unset entry of a table reads as. -/
theorem tab_default {α : Type} {d : α} {t : Tab α} {k : Nat} (h : t.all (fun e => e.1 != k) = true) : Tab.get d t k = d := by
  have e := Tab.get_filter d (fun j => j != k) t k
  rw [List.filter_eq_self.mpr fun x hx => List.all_eq_true.mp h x hx] at e
  simpa using e

/-- A state whose listed partitions all have numbers below 64 has none live from 64 on. -/
theorem quiet_of {s : State} (h : s.part.all (fun e => decide (e.1 < 64)) = true) (p : Nat) (hp : 64 ≤ p) : (s.getPart p).live = false := by
  have e : s.getPart p = {} := tab_default (List.all_eq_true.mpr fun x hx => by
    have := of_decide_eq_true (List.all_eq_true.mp h x hx)
    simp only [bne_iff_ne, ne_eq]; omega)
  rw [e]; rfl

/-- What holds of the default and of every entry of a table holds of whatever is read from it. -/
theorem tab_all {α : Type} {d : α} {P : α → Prop} (hd : P d) {t : Tab α} (h : ∀ e ∈ t, P e.2) (k : Nat) : P (Tab.get d t k) := by
  induction t with
  | nil => exact hd
  | cons e t ih =>
    simp only [Tab.get]
    split
    · exact h e (List.mem_cons_self ..)
    · exact ih fun x hx => h x (List.mem_cons_of_mem _ hx)

/-- A state in whose frond table no warden stalls. -/
theorem noneStalls_of {s : State} (h : s.frond.all (fun e => e.2.wait.isEmpty) = true) (p : Nat) : s.noneStalls p := fun f _ _ =>
  tab_all (P := fun x : Frond => x.wait = []) rfl (fun e he => by simpa using List.all_eq_true.mp h e he) f

/-- Whether a channel holds no CTX_CLOSE or BATCH_POLICY of a partition. -/
def firstB (s : State) (p ch : Nat) : Bool :=
  match (s.getChan ch).held with
  | some h => !(h.part == p && (h.opcode == 0x0602 || h.opcode == 0x0604))
  | none => true

/-- The decision is right. -/
theorem noneFirst_of {s : State} {p : Nat} (w : (firstB s p 1 && firstB s p (4 + p)) = true) : s.noneFirst p := by
  simp only [Bool.and_eq_true] at w
  intro ch h hc hh ⟨e, o⟩
  have : firstB s p ch = true := by rcases hc with rfl | rfl <;> simp [w]
  rw [firstB, hh] at this
  rcases o with o | o <;> simp [e, o] at this

/-- The hub links of every ring position carry traffic and no control message waits. -/
theorem ctlGo_of {s : State} (w : ((List.range 4).all fun r => decide (s.dieLink r = .up) && decide (Tab.get [] s.dies.odp (4 * r + 2) = [])) = true)
    (r : Nat) (h : r < 4) : s.ctlGoes r := by
  have := List.all_eq_true.mp w r (List.mem_range.mpr h)
  simp only [Bool.and_eq_true, decide_eq_true_eq] at this
  exact this

/-- A property of the value that an option holds. -/
theorem all_some {α : Type} {o : Option α} {p : α → Prop} (v : α) (e : o = some v) (h : p v) (x : α) (hx : o = some x) : p x := by
  rw [e] at hx; cases hx; exact h

/-- Every property holds of the value of an empty option. -/
theorem all_none {α : Type} {o : Option α} {p : α → Prop} (e : o = none) (x : α) (hx : o = some x) : p x := by
  rw [e] at hx; cases hx

/-- An access beside the management space reaches the function 120 ms after the release. -/
theorem reaches_of {s : State} {a : RegAccess}
    (h : (pathBeside a.path && a.width == 4 && a.off % 4 == 0 && s.hostUp && s.outOfReset && !s.pcie.d3hot) = true)
    (t : s.aon.hostRelease + ms 120 ≤ s.now) : s.reachesFunction a = true := by
  have r : s.readyAt ≤ s.now := Nat.le_trans (Nat.add_le_add_left (Nat.min_le_right _ _) _) t
  cases hp : a.path <;> simp_all [State.reachesFunction, State.pathUp, State.configReady, pathBeside]

/-- The capability block of a die that is admitted. -/
def capOk : List Byte :=
  record 64 [⟨0, 2, 0x0102⟩, ⟨2, 2, 1⟩, ⟨4, 2, 1⟩, ⟨6, 1, 3⟩, ⟨8, 1, 12⟩, ⟨9, 1, 12⟩, ⟨0xA, 1, 3⟩, ⟨0xB, 1, 0x84⟩, ⟨0xC, 4, 0x1FF⟩, ⟨0x10, 4, 0x1FF⟩,
    ⟨0x15, 1, 16⟩]
/-- Dies that have answered, the first with block b. -/
def answered (b : List Byte) (n : Nat) : List Die :=
  (List.range 4).map fun k => { released := some 999990000, pll := true, hubUp := true, tag := 1, queries := 1, queryAt := 999999999, cap := if k = n then none else some b }
/-- A package whose clock has just changed the core voltage. -/
def settling (w : Nat) : State := { up with rate := { up.rate with mv := 600, mvOld := 550, mvAt := some w } }
/-- A package whose die links have trained. -/
def linked : State := { up with dies := { up.dies with die := List.replicate 4 { hubUp := true }, half := [true, true] } }
/-- A package of which a die link retrains. -/
def retrains : State := { linked with dies := { linked.dies with link := [(2, .retraining 5)] } }
/-- States and operands that meet the hypotheses of RailFaultsAndThermalTrips, clause by clause. -/
theorem witness_RailFaultsAndThermalTrips :
    (∃ (s : State) (rail : Rail) (uv : Nat) (lo : Nat) (hi : Nat), (rail = .vaux18 ∧ lo = 1800 ∧ hi = 1800 ∨ rail = .vlink ∧ lo = 900 ∧ hi = 900 ∨
      rail = .vpeat ∧ lo = 1050 ∧ hi = 1050 ∨ (rail = .vhub ∨ ∃ d, rail = .vcomp d) ∧ lo = min s.rate.mvOld s.rate.mv ∧ hi = max s.rate.mvOld
      s.rate.mv ∧ (∃ w, s.rate.mvAt = some w ∧ s.aon.ticks < w + 5000) ∨ (rail = .vhub ∨ ∃ d, rail = .vcomp d) ∧ lo = s.rate.mv ∧ hi = s.rate.mv ∧
      (s.rate.mvAt = none ∨ ∃ w, s.rate.mvAt = some w ∧ w + 30000 ≤ s.aon.ticks)) ∧ s.aon.armed = true ∧ s.aon.phase = .up ∧ s.test.active = false ∧
      rail ≠ .vaon ∧ railReal rail = true ∧ 970 * lo ≤ uv ∧ uv ≤ 1030 * hi) ∧
    (∃ (s : State) (rail : Rail) (uv : Nat) (lo : Nat) (hi : Nat), (rail = .vaux18 ∧ lo = 1800 ∧ hi = 1800 ∨ rail = .vlink ∧ lo = 900 ∧ hi = 900 ∨
      rail = .vpeat ∧ lo = 1050 ∧ hi = 1050 ∨ (rail = .vhub ∨ ∃ d, rail = .vcomp d) ∧ lo = min s.rate.mvOld s.rate.mv ∧ hi = max s.rate.mvOld
      s.rate.mv ∧ (∃ w, s.rate.mvAt = some w ∧ s.aon.ticks < w + 5000) ∨ (rail = .vhub ∨ ∃ d, rail = .vcomp d) ∧ lo = s.rate.mv ∧ hi = s.rate.mv ∧
      (s.rate.mvAt = none ∨ ∃ w, s.rate.mvAt = some w ∧ w + 30000 ≤ s.aon.ticks)) ∧ s.aon.armed = true ∧ s.aon.phase = .up ∧ s.test.active = false ∧
      rail ≠ .vaon ∧ railReal rail = true ∧ (uv < 970 * lo ∨ 1030 * hi < uv) ∧ (∀ p, p < 64 → (s.getPart p).live = false)) ∧
    (∃ (s : State) (rail : Rail) (uv : Nat) (lo : Nat) (hi : Nat), (rail = .vaux18 ∧ lo = 1800 ∧ hi = 1800 ∨ rail = .vlink ∧ lo = 900 ∧ hi = 900 ∨
      rail = .vpeat ∧ lo = 1050 ∧ hi = 1050 ∨ (rail = .vhub ∨ ∃ d, rail = .vcomp d) ∧ lo = min s.rate.mvOld s.rate.mv ∧ hi = max s.rate.mvOld
      s.rate.mv ∧ (∃ w, s.rate.mvAt = some w ∧ s.aon.ticks < w + 5000) ∨ (rail = .vhub ∨ ∃ d, rail = .vcomp d) ∧ lo = s.rate.mv ∧ hi = s.rate.mv ∧
      (s.rate.mvAt = none ∨ ∃ w, s.rate.mvAt = some w ∧ w + 30000 ≤ s.aon.ticks)) ∧ (∃ p, p < 64 ∧ (s.getPart p).live = true) ∧ s.aon.armed = true ∧
      s.aon.phase = .up ∧ s.test.active = false ∧ rail ≠ .vaon ∧ railReal rail = true ∧ (uv < 970 * lo ∨ 1030 * hi < uv)) ∧
    (∃ (s : State) (sel : Nat) (w : Nat), s.aon.armed = true ∧ s.aon.phase = .up ∧ s.test.active = false ∧ sel ≤ 4 ∧ s.rate.mvAt = some w ∧
      s.aon.ticks < w + 25000) ∧
    (∃ (s : State) (sel : Nat) (w : Nat), s.aon.armed = true ∧ s.aon.phase = .up ∧ s.test.active = false ∧ sel ≤ 4 ∧ s.rate.mvAt = some w ∧ w +
      25000 ≤ s.aon.ticks ∧ (∀ p, p < 64 → (s.getPart p).live = false)) ∧
    (∃ (s : State), s.aon.phase = .up ∧ s.aon.listenDue.isSome = true) ∧
    (∃ (s : State) (r : Int) (rs : List Int), s.awake = true ∧ (∀ x ∈ r :: rs, x < 1520)) ∧
    (∃ (s : State) (r : Int) (rs : List Int), s.awake = true ∧ (∀ x ∈ r :: rs, x < 1760) ∧ (∃ x ∈ r :: rs, 1520 ≤ x) ∧ s.irq.status.length = 11) ∧
    (∃ (s : State) (r : Int) (rs : List Int), s.awake = true ∧ s.aon.phase = .up ∧ s.aon.tripped = false ∧ (∃ x ∈ r :: rs, 1760 ≤ x) ∧
      s.irq.status.length = 11) ∧
    (∃ (s : State) (r : Int), s.awake = true ∧ 1840 ≤ r) ∧
    (∃ (s : State) (r : Int), s.awake = true ∧ r < 1840) ∧
    (∃ (s : State) (since : Nat), s.awake = true ∧ s.rate.coolSince = some since ∧ since + 2500000 ≤ s.aon.ticks) ∧
    (∃ (s : State) (since : Nat), s.awake = true ∧ s.rate.coolSince = some since ∧ s.aon.ticks < since + 2500000) :=
  ⟨⟨settling 999999000, .vcomp 3, 618000, 550, 600, (by exact .inr (.inr (.inr (.inl ⟨.inr ⟨3, rfl⟩, rfl, rfl, ⟨999999000, by decide +kernel⟩⟩)))),
      by decide +kernel⟩,
    ⟨up, .vpeat, 1018499, 1050, 1050, (by exact .inr (.inr (.inl ⟨rfl, rfl, rfl⟩))), by decide +kernel⟩,
    ⟨running, .vhub, 566501, 550, 550, (by exact .inr (.inr (.inr (.inr ⟨.inl rfl, rfl, rfl, .inl rfl⟩)))), (by exact ⟨0, by decide +kernel⟩),
      by decide +kernel⟩,
    ⟨settling 999999999, 4, 999999999, by decide +kernel⟩,
    ⟨settling 999975000, 0, 999975000, by decide +kernel⟩,
    ⟨{ running with aon := { running.aon with listenDue := some 3 } }, by decide +kernel⟩,
    ⟨up, 1472, [1200, -40], by decide +kernel⟩,
    ⟨up, 1000, [1520], by decide +kernel⟩,
    ⟨running, 1000, [1760], by decide +kernel⟩,
    ⟨running, 1840, by decide +kernel⟩,
    ⟨running, 1839, by decide +kernel⟩,
    ⟨{ up with rate := { up.rate with therm := 9, coolSince := some 997500000 } }, 997500000, by decide +kernel⟩,
    ⟨{ up with rate := { up.rate with therm := 9, coolSince := some 997500001 } }, 997500001, by decide +kernel⟩⟩

/-- States and operands that meet the hypotheses of TestPortAndI3cAddress, clause by clause. -/
theorem witness_TestPortAndI3cAddress :
    (∃ (s : State) (i : List TapInstr), s.aon.phase ≠ .off ∧ i.length = 5) ∧
    (∃ (s : State), s.aon.phase ≠ .off) ∧
    (∃ (s : State) (pos : Nat) (i : TapInstr), pos < 5 ∧ nth .idcode s.tap.ir pos = i ∧ (i = .extest ∨ i = .clamp ∨ i = .highz) ∧ s.aon.pkgResetN =
      true ∧ s.aon.pwrOk = true ∧ s.aon.phase ≠ .safeListen) ∧
    (∃ (s : State) (pos : Nat) (i : TapInstr), pos < 5 ∧ nth .idcode s.tap.ir pos = i ∧ (i = .extest ∨ i = .clamp ∨ i = .highz) ∧ (s.aon.pkgResetN =
      false ∨ s.aon.pwrOk = false ∨ s.aon.phase = .safeListen) ∧ s.tapAbsent pos = false) ∧
    (∃ (s : State), s.visible = true ∧ s.aon.i3cAddr = none) ∧
    (∃ (s : State), s.visible = true ∧ s.aon.i3cAddr ≠ none) :=
  ⟨⟨dies3 [{ released := some 5 }, {}, {}, {}] [false, false], [.extest, .clamp, .highz, .bypass, .idcode], by decide +kernel⟩,
    ⟨dies3 [{ released := some 5 }, {}, {}, {}] [false, false], by decide +kernel⟩,
    ⟨{ up with tap := { up.tap with ir := List.replicate 5 .clamp }, dies := { up.dies with die := List.replicate 4 { released := some 5 } } }, 4,
      .clamp, by decide +kernel⟩,
    ⟨{ up with aon := { up.aon with phase := .safeListen }, tap := { up.tap with ir := List.replicate 5 .extest } }, 0, .extest, by decide +kernel⟩,
    ⟨up, by decide +kernel⟩,
    ⟨{ up with aon := { up.aon with i3cAddr := some 9 } }, by decide +kernel⟩⟩

/-- States and operands that meet the hypotheses of DieBringupRunsInOrder, clause by clause. -/
theorem witness_DieBringupRunsInOrder :
    (∃ (s : State) (r : Nat), (∀ k, k < r → ∃ at_, (s.getDie k).released = some at_ ∧ at_ + 250 ≤ s.aon.ticks) ∧ (∀ at_, (s.getDie 0).released =
      some at_ → s.aon.ticks ≤ at_ + 250 * r) ∧ s.test.active = true ∧ s.test.phase = 3 ∧ r < 4 ∧ s.dies.die.length = 4 ∧ (s.getDie r).released =
      none) ∧
    (∃ (s : State) (r : Nat) (first : Nat), s.test.active = true ∧ s.test.phase = 3 ∧ r < 4 ∧ s.dies.die.length = 4 ∧ (s.getDie 0).released = some
      first ∧ (s.getDie r).released.isSome = true ∧ s.aon.ticks ≤ first + 500 + 250 * r) ∧
    (∃ (s : State) (r : Nat) (first : Nat), s.test.active = true ∧ s.test.phase = 3 ∧ r < 4 ∧ s.dies.die.length = 4 ∧ (s.getDie 0).released = some
      first ∧ (s.getDie r).pll = true ∧ (s.getDie r).hubUp = false ∧ s.aon.ticks ≤ first + 25500 + 250 * r ∧ Tab.get .up s.dies.link r = .up ∧ Tab.get
      [] s.dies.odp (4 * r + 3) = []) ∧
    (∃ (s : State) (r : Nat) (first : Nat), s.test.active = true ∧ s.test.phase = 3 ∧ r < 4 ∧ s.dies.die.length = 4 ∧ (s.getDie 0).released = some
      first ∧ (∀ k, k < 4 → (s.getDie k).cap.isSome = true) ∧ s.aon.ticks ≤ first + 58750) ∧
    (∃ (s : State) (r : Nat) (first : Nat), s.test.active = true ∧ s.test.phase = 3 ∧ r < 4 ∧ s.dies.die.length = 4 ∧ (s.getDie 0).released = some
      first ∧ (s.getDie r).released.isSome = true ∧ (s.getDie r).pll = false ∧ first + 500 + 250 * r < s.aon.ticks) ∧
    (∃ (s : State) (h : Nat) (first : Nat), s.test.active = true ∧ s.test.phase = 3 ∧ s.test.byCommand = none ∧ s.dies.die.length = 4 ∧
      s.dies.half.length = 2 ∧ h < 2 ∧ (s.getDie (2 * h)).firmware = true ∧ (s.getDie (2 * h + 1)).firmware = true ∧ (s.getDie 0).released = some
      first ∧ s.aon.ticks ≤ first + 83750 ∧ nth false s.dies.half (1 - h) = true) ∧
    (∃ (s : State) (h : Nat) (first : Nat), s.test.active = true ∧ s.test.phase = 3 ∧ s.test.byCommand = none ∧ s.dies.die.length = 4 ∧
      s.dies.half.length = 2 ∧ h < 2 ∧ (s.getDie (2 * h)).firmware = true ∧ (s.getDie (2 * h + 1)).firmware = true ∧ (s.getDie 0).released = some
      first ∧ s.aon.ticks ≤ first + 83750 ∧ nth false s.dies.half (1 - h) = false) ∧
    (∃ (s : State) (w : BringupStep) (first : Nat), s.test.active = true ∧ s.test.phase = 3 ∧ (s.getDie 0).released = some first ∧ s.stepDone w =
      false ∧ first + bringupBound w < s.aon.ticks) :=
  ⟨⟨dies3 [{ released := some 999999750 }, {}, {}, {}] [false, false], 1,
      (by exact fun k hk => by interval_cases k; exact ⟨999999750, by decide +kernel⟩),
      (by exact all_some 999999750 (by decide +kernel) (by decide +kernel)), by decide +kernel⟩,
    ⟨dies3 [{ released := some 999999500 }, {}, {}, {}] [false, false], 0, 999999500, by decide +kernel⟩,
    ⟨dies3 [{ released := some 999999500, pll := true }, {}, {}, {}] [false, false], 0, 999999500, by decide +kernel⟩,
    ⟨dies3 (answered (record 64 []) 9) [false, false], 3, 999990000, by decide +kernel⟩,
    ⟨dies3 [{ released := some 5 }, {}, {}, {}] [false, false], 0, 5, by decide +kernel⟩,
    ⟨dies3 (List.replicate 4 { firmware := true, released := some 999990000 }) [false, true], 0, 999990000, by decide +kernel⟩,
    ⟨dies3 (List.replicate 4 { firmware := true, released := some 999990000 }) [false, false], 1, 999990000, by decide +kernel⟩,
    ⟨dies3 [{ released := some 5 }, {}, {}, {}] [false, false], .phase, 5, by decide +kernel⟩⟩

/-- States and operands that meet the hypotheses of CapabilityExchange, clause by clause. -/
theorem witness_CapabilityExchange :
    (∃ (s : State) (r : Nat) (tag : Nat) (b : List Byte), tag = (s.getDie r).tag ∧ (∀ at_, (s.getDie 0).released = some at_ → s.aon.ticks ≤ at_ +
      33750) ∧ s.test.active = true ∧ s.test.phase = 3 ∧ r < 4 ∧ s.dies.die.length = 4 ∧ (s.getDie r).hubUp = true ∧ (s.getDie r).cap = none ∧
      b.length = 64 ∧ (∃ k, k < 4 ∧ k ≠ r ∧ (s.getDie k).cap = none)) ∧
    (∃ (s : State) (r : Nat) (tag : Nat) (b : List Byte) (base : List Byte), tag = (s.getDie r).tag ∧ (∀ at_, (s.getDie 0).released = some at_ →
      s.aon.ticks ≤ at_ + 33750) ∧ (∀ k, k < 4 → k ≠ r → ∃ c, (s.getDie k).cap = some c ∧ dieCheck base c = 0) ∧ s.test.active = true ∧ s.test.phase =
      3 ∧ r < 4 ∧ s.dies.die.length = 4 ∧ (s.getDie r).hubUp = true ∧ (s.getDie r).cap = none ∧ b.length = 64 ∧ (r = 0 → base = b) ∧ (r ≠ 0 →
      (s.getDie 0).cap = some base) ∧ base ≠ [] ∧ dieCheck base b = 0) ∧
    (∃ (s : State) (r : Nat) (tag : Nat) (b : List Byte) (base : List Byte), tag = (s.getDie r).tag ∧ (∀ at_, (s.getDie 0).released = some at_ →
      s.aon.ticks ≤ at_ + 33750) ∧ (∀ k, k < 4 → k ≠ r → ∃ c, (s.getDie k).cap = some c ∧ dieCheck base c = 0) ∧ s.test.active = true ∧ s.test.phase =
      3 ∧ r < 4 ∧ s.dies.die.length = 4 ∧ (s.getDie r).hubUp = true ∧ (s.getDie r).cap = none ∧ b.length = 64 ∧ (r = 0 → base = b) ∧ (r ≠ 0 →
      (s.getDie 0).cap = some base) ∧ base ≠ [] ∧ dieCheck base b ≠ 0) ∧
    (∃ (s : State) (r : Nat) (tag : Nat), s.test.active = true ∧ s.test.phase = 3 ∧ r < 4 ∧ s.dies.die.length = 4 ∧ (s.getDie r).hubUp = true ∧
      (s.getDie r).cap = none ∧ tag ≠ (s.getDie r).tag) ∧
    (∃ (s : State) (r : Nat), s.test.active = true ∧ s.test.phase = 3 ∧ r < 4 ∧ s.dies.die.length = 4 ∧ (s.getDie r).hubUp = true ∧ (s.getDie r).cap
      = none ∧ s.aon.ticks < (s.getDie r).queryAt + 2500) ∧
    (∃ (s : State) (r : Nat), s.test.active = true ∧ s.test.phase = 3 ∧ r < 4 ∧ s.dies.die.length = 4 ∧ (s.getDie r).hubUp = true ∧ (s.getDie r).cap
      = none ∧ (s.getDie r).queryAt + 2500 ≤ s.aon.ticks ∧ (s.getDie r).queries < 3 ∧ Tab.get .up s.dies.link r = .up ∧ Tab.get [] s.dies.odp (4 * r +
      3) = []) ∧
    (∃ (s : State) (r : Nat), s.test.active = true ∧ s.test.phase = 3 ∧ r < 4 ∧ s.dies.die.length = 4 ∧ (s.getDie r).hubUp = true ∧ (s.getDie r).cap
      = none ∧ (s.getDie r).queryAt + 2500 ≤ s.aon.ticks ∧ 3 ≤ (s.getDie r).queries ∧ (∀ k, k < r → (s.getDie k).cap = none)) :=
  ⟨⟨dies3 [{ hubUp := true, tag := 1, queries := 1, queryAt := 999999000 }, {}, {}, {}] [false, false], 0, _, record 64 [⟨0, 2, 0x0100⟩], rfl,
      (by exact all_none (by decide +kernel)), by decide +kernel⟩,
    ⟨dies3 (answered capOk 0) [false, false], 0, _, capOk, capOk, rfl, (by exact all_some 999990000 (by decide +kernel) (by decide +kernel)),
      (by exact fun k hk _ => by interval_cases k <;> first | contradiction | exact ⟨capOk, by decide +kernel⟩), by decide +kernel⟩,
    ⟨dies3 (answered capOk 3) [false, false], 3, _, record 64 [⟨0, 2, 0x0102⟩, ⟨2, 2, 1⟩, ⟨4, 2, 9⟩], capOk, rfl,
      (by exact all_some 999990000 (by decide +kernel) (by decide +kernel)),
      (by exact fun k hk _ => by interval_cases k <;> first | contradiction | exact ⟨capOk, by decide +kernel⟩), by decide +kernel⟩,
    ⟨dies3 [{ hubUp := true, tag := 1, queries := 1, queryAt := 999999000 }, {}, {}, {}] [false, false], 0, 9, by decide +kernel⟩,
    ⟨dies3 [{ hubUp := true, tag := 1, queries := 1, queryAt := 999999000 }, {}, {}, {}] [false, false], 0, by decide +kernel⟩,
    ⟨dies3 [{ hubUp := true, tag := 255, queries := 2, queryAt := 999997500 }, {}, {}, {}] [false, false], 0, by decide +kernel⟩,
    ⟨dies3 [{ hubUp := true, tag := 1, queries := 3, queryAt := 999997500 }, {}, {}, {}] [false, false], 0, by decide +kernel⟩⟩

/-- States and operands that meet the hypotheses of DieLinkLossAndRetrain, clause by clause. -/
theorem witness_DieLinkLossAndRetrain :
    (∃ (s : State) (l : Nat) (x : FaultUnit) (w : Nat) (h : Nat), x = Tab.get {} s.faults.unit (unitKey 1 l) ∧ l < 6 ∧ s.policy 1 = (w, h) ∧ x.held
      = false ∧ s.aon.phase = .up ∧ s.dieLink l = .up ∧ (x.count = 0 ∨ x.start + w * 25000000 ≤ s.aon.ticks) ∧ 1 < h) ∧
    (∃ (s : State) (l : Nat) (x : FaultUnit) (w : Nat) (h : Nat), x = Tab.get {} s.faults.unit (unitKey 1 l) ∧ l < 6 ∧ s.policy 1 = (w, h) ∧ x.held
      = false ∧ s.aon.phase = .up ∧ s.dieLink l = .up ∧ 0 < x.count ∧ s.aon.ticks < x.start + w * 25000000 ∧ x.count + 1 < h) ∧
    (∃ (s : State) (l : Nat) (x : FaultUnit) (w : Nat) (h : Nat), x = Tab.get {} s.faults.unit (unitKey 1 l) ∧ l < 6 ∧ s.policy 1 = (w, h) ∧ x.held
      = false ∧ s.aon.phase = .up ∧ s.dieLink l = .up ∧ 0 < x.count ∧ s.aon.ticks < x.start + w * 25000000 ∧ h ≤ x.count + 1 ∧ s.irq.status.length =
      11) ∧
    (∃ (s : State) (l : Nat) (since : _), (∀ p, 64 ≤ p → (s.getPart p).live = false) ∧ l < 6 ∧ s.dieLink l = .retraining since ∧ since + 25000 ≤
      s.aon.ticks ∧ s.irq.status.length = 11) :=
  ⟨⟨linked, 5, _, (up.policy 1).1, (up.policy 1).2, rfl, by decide +kernel⟩,
    ⟨{ linked with faults := { up.faults with unit := [(unitKey 1 5, { start := 999999999, count := 1 })] } }, 5, _, (up.policy 1).1, (up.policy
      1).2, rfl, by decide +kernel⟩,
    ⟨{ linked with faults := { up.faults with unit := [(unitKey 1 5, { start := 999999999, count := (up.policy 1).2 - 1 })] } }, 5, _, (up.policy
      1).1, (up.policy 1).2, rfl, by decide +kernel⟩,
    ⟨part 0 part0 retrains, 2, 5, quiet_of (by decide +kernel), by decide +kernel⟩⟩

/-- States and operands that meet the hypotheses of StatusesAndCausesSignal, clause by clause. -/
theorem witness_StatusesAndCausesSignal :
    (∃ (s : State) (ch : Nat) (h : Held) (st : Status), (s.getChan ch).held = some h ∧ h.via = .mailbox ∧ st ≠ .internal) ∧
    (∃ (s : State) (ch : Nat) (h : Held) (r : List Byte), (s.getChan ch).held = some h ∧ h.via = .mailbox ∧ r ≠ [] ∧ h.host = false) ∧
    (∃ (s : State) (c : Cause) (t : State) (n : _) (i : _), t = s.raise c ∧ s.irq.status.length = 11 ∧ ¬ (n = c.group ∧ i = c.bit)) ∧
    (∃ (s : State) (c : Cause) (t : State), t = s.raise c ∧ s.irq.status.length = 11 ∧ t.irq.msiSet = true ∧ s.irq.msiSet = false ∧ s.msixLive =
      true ∧ (s.pcie.funcMask || s.pcie.vecMask || s.pcie.d3hot) = false) ∧
    (∃ (s : State) (c : Cause) (t : State), t = s.raise c ∧ s.irq.status.length = 11 ∧ t.irq.msiSet = true ∧ s.irq.msiSet = false ∧ s.msixLive =
      true ∧ (s.pcie.funcMask || s.pcie.vecMask || s.pcie.d3hot) = true) ∧
    (∃ (s : State) (c : Cause) (t : State), t = s.raise c ∧ s.irq.status.length = 11 ∧ t.irq.msiSet = true ∧ s.irq.msiSet = false ∧ s.msixLive =
      false) ∧
    (∃ (s : State) (c : Cause) (t : State), t = s.raise c ∧ s.irq.status.length = 11 ∧ t.irq.msiSet = true ∧ s.irq.msiSet = true) ∧
    (∃ (s : State) (c : Cause) (t : State), t = s.raise c ∧ s.irq.status.length = 11 ∧ t.irq.msiSet = false) :=
  ⟨⟨held 4 (cmd 0x0103 0 []) up, 4, cmd 0x0103 0 [], .badParam, by decide +kernel⟩,
    ⟨held 4 (cmd 0x0103 0 []) up, 4, cmd 0x0103 0 [], [1, 2, 3], by decide +kernel⟩,
    ⟨up, .warn, _, 2, 1, rfl, by decide +kernel⟩,
    ⟨{ up with pcie := { up.pcie with msixOn := true, vecMask := false, msgAddr := 4096, msgData := 7 } }, .warn, _, rfl, by decide +kernel⟩,
    ⟨{ up with pcie := { up.pcie with msixOn := true } }, .warn, _, rfl, by decide +kernel⟩,
    ⟨{ up with aon := { up.aon with perstN := false } }, .warn, _, rfl, by decide +kernel⟩,
    ⟨{ up with irq := { up.irq with msiSet := true } }, .warn, _, rfl, by decide +kernel⟩,
    ⟨{ up with irq := { up.irq with mask := List.replicate 11 0xFFFFFFFF#32, topMask := 0x7FF#32 } }, .warn, _, rfl, by decide +kernel⟩⟩

/-- A package with one partition, which takes a command. -/
def creating (p : Nat) : State :=
  held 1 (cmd 0x0101 p (record 24 [⟨0, 1, 3⟩, ⟨0x12, 2, 2⟩, ⟨0x14, 2, 1⟩]))
    (part 7 { life := .exists_, groups := 4, hbmGib := 3, peatBase := 0x010000000000, peatGib := 1, createdBy := ⟨5, 6, 0x0101⟩ }
      { up with dies := { up.dies with die := List.replicate 4 { hubUp := true } } })

/-- States and operands that meet the hypotheses of PartCreateTakesLowestRanges, clause by clause. -/
theorem witness_PartCreateTakesLowestRanges :
    (∃ (s : State) (ch : Nat) (h : Held) (b : List Byte) (x : Nat) (y : Nat), Commanded s 0x0101 ch h b ∧ (∀ r, r < 4 → s.ctlGoes r) ∧ s.aon.park =
      .no ∧ (s.getPart h.part).alive = false ∧ BitVec.ofNat 144 (fld b 0 18) ≠ 0 ∧ fld b 0x12 2 ≤ 576 ∧ fld b 0x14 2 ≤ 512 ∧ zeros b 0x16 0x18 = true
      ∧ (∀ g, g < 144 → (BitVec.ofNat 144 (fld b 0 18)).getLsbD g = true → s.faults.retired.getLsbD g = false ∧ s.groupAbsent g = false) ∧ (∀ q, q <
      64 → (s.getPart q).alive = true → (s.getPart q).groups &&& BitVec.ofNat 144 (fld b 0 18) = 0) ∧ lowestFree (s.taken false) 576 (fld b 0x12 2) =
      some x ∧ lowestFree (s.taken true) 512 (fld b 0x14 2) = some y) ∧
    (∃ (s : State) (ch : Nat) (h : Held) (b : List Byte), Commanded s 0x0101 ch h b ∧ (s.getPart h.part).alive = true) ∧
    (∃ (g : Nat) (k : _), k < g) :=
  ⟨⟨creating 0, 1, cmd 0x0101 0 (record 24 [⟨0, 1, 3⟩, ⟨0x12, 2, 2⟩, ⟨0x14, 2, 1⟩]), record 24 [⟨0, 1, 3⟩, ⟨0x12, 2, 2⟩, ⟨0x14, 2, 1⟩], 3, 1,
      commanded_of (by decide +kernel), ctlGo_of (by decide +kernel), by decide +kernel⟩,
    ⟨creating 7, 1, cmd 0x0101 7 (record 24 [⟨0, 1, 3⟩, ⟨0x12, 2, 2⟩, ⟨0x14, 2, 1⟩]), record 24 [⟨0, 1, 3⟩, ⟨0x12, 2, 2⟩, ⟨0x14, 2, 1⟩],
      commanded_of (by decide +kernel), by decide +kernel⟩,
    ⟨6, 5, by decide +kernel⟩⟩

/-- States and operands that meet the hypotheses of PartitionFillsAndDestroy, clause by clause. -/
theorem witness_PartitionFillsAndDestroy :
    (∃ (s : State) (p : Nat), (s.getPart p).life = .filling ∧ s.aon.park = .no ∧ s.mem.retraining = [] ∧ (∀ l, l < 4 → Tab.get .up s.dies.link l =
      .up)) ∧
    (∃ (s : State) (ch : Nat) (h : Held) (b : List Byte), Commanded s 0x0102 ch h b ∧ s.aon.park = .no ∧ (s.getPart h.part).live = false) ∧
    (∃ (s : State) (ch : Nat) (h : Held) (b : List Byte), Commanded s 0x0102 ch h b ∧ s.aon.park = .no ∧ (s.getPart h.part).live = true) :=
  ⟨⟨{ held 1 { cmd 0x0101 0 [] with stepped := true, acked := true } (part 0 { life := .filling, createdBy := { ch := 1, tag := 7, opcode := 0x0101 }, groups := 1, hbmGib := 1, peatBase := 0x010000000000, peatGib := 1 } up) with far := [(5, 1), (1073741824, 2)], store := [(7, 9), (25165824, 3)] },
      0, by decide +kernel⟩,
    ⟨held 1 (cmd 0x0102 0 []) (part 0 { part0 with pat := .empty } up), 1, cmd 0x0102 0 [], [], commanded_of (by decide +kernel), by decide +kernel⟩,
    ⟨held 1 (cmd 0x0102 0 []) (part 0 part0 up), 1, cmd 0x0102 0 [], [], commanded_of (by decide +kernel), by decide +kernel⟩⟩


/-- A running package whose partition 0 has another state of its pattern. -/
def ranks (q : PatState) : State := part 0 { part0 with pat := q } running
/-- A power announcement of the run. -/
def annLevel (eff seq l : Nat) (o : Coord) : Ann := { effective := eff, seq := seq, origin := o, atype := 1, body := [2, 0, BitVec.ofNat 8 l], due := eff }
/-- A running package that holds announcements. -/
def announced (l : List Ann) : State := { running with anns := { running.anns with held := l } }
/-- The broadcast frame of an announcement. -/
def annFrame (a : Ann) : Frame := { kind := 5, vl := 2, payload := a.bytes }
/-- States and operands that meet the hypotheses of QueriesAnswerInWords, clause by clause. -/
theorem witness_QueriesAnswerInWords :
    (∃ (s : State) (ch : Nat) (h : Held) (b : List Byte) (q : Partition), Commanded s 0x0103 ch h b ∧ q = s.getPart h.part) ∧
    (∃ (s : State) (ch : Nat) (h : Held) (b : List Byte) (q : Partition), Commanded s 0x0205 ch h b ∧ q = s.getPart h.part) ∧
    (∃ (s : State) (ch : Nat) (h : Held) (b : List Byte) (q : Partition), Commanded s 0x0804 ch h b ∧ q = s.getPart h.part) ∧
    (∃ (s : State) (ch : Nat) (h : Held) (b : List Byte) (q : Partition), Commanded s 0x0303 ch h b ∧ q = s.getPart h.part) :=
  ⟨⟨held 1 (cmd 0x0103 0 ([])) (running), 1, cmd 0x0103 0 ([]), [], _, commanded_of (by decide +kernel), rfl⟩,
    ⟨held 1 (cmd 0x0205 0 ([])) (part 0 { part0 with run := { part0.run with abortAt := some (⟨1, 2, 3⟩, 4, 5), last := some .collAbort } }
      running), 1, cmd 0x0205 0 ([]), [], _, commanded_of (by decide +kernel), rfl⟩,
    ⟨held 1 (cmd 0x0804 0 ([])) (part 0 { part0 with twin := { part0.twin with state := .solo, copy := .sending } } running), 1, cmd 0x0804 0 ([]),
      [], _, commanded_of (by decide +kernel), rfl⟩,
    ⟨held 1 (cmd 0x0303 0 ([])) (running), 1, cmd 0x0303 0 ([]), [], _, commanded_of (by decide +kernel), rfl⟩⟩

/-- States and operands that meet the hypotheses of ReportsAndSelfTestRun, clause by clause. -/
theorem witness_ReportsAndSelfTestRun :
    (∃ (s : State) (ch : Nat) (h : Held) (b : List Byte), Commanded s 0x0304 ch h b) ∧
    (∃ (s : State) (ch : Nat) (h : Held) (b : List Byte), Commanded s 0x0403 ch h b) ∧
    (∃ (s : State) (ch : Nat) (h : Held) (b : List Byte), Commanded s 0x0701 ch h b) ∧
    (∃ (s : State) (ch : Nat) (h : Held) (b : List Byte), Commanded s 0x0A01 ch h b) ∧
    (∃ (s : State) (ch : Nat) (h : Held) (b : List Byte), Commanded s 0x0702 ch h b ∧ s.aon.park = .no ∧ fld b 0 1 ≤ 1 ∧ zeros b 1 4 = true ∧ (∀ p,
      p < 64 → (s.getPart p).alive = false)) ∧
    (∃ (s : State) (ch : Nat) (h : Held) (b : List Byte), Commanded s 0x0702 ch h b ∧ s.aon.park = .no ∧ fld b 0 1 ≤ 1 ∧ zeros b 1 4 = true ∧ (∃ p,
      p < 64 ∧ (s.getPart p).alive = true)) :=
  ⟨⟨held 1 (cmd 0x0304 0 ([])) (running), 1, cmd 0x0304 0 ([]), [], commanded_of (by decide +kernel)⟩,
    ⟨held 1 (cmd 0x0403 0 ([])) (running), 1, cmd 0x0403 0 ([]), [], commanded_of (by decide +kernel)⟩,
    ⟨held 1 (cmd 0x0701 0 ([])) (up), 1, cmd 0x0701 0 ([]), [], commanded_of (by decide +kernel)⟩,
    ⟨held 1 (cmd 0x0A01 0 ([])) (up), 1, cmd 0x0A01 0 ([]), [], commanded_of (by decide +kernel)⟩,
    ⟨held 1 (cmd 0x0702 0 ([1, 0, 0, 0])) (up), 1, cmd 0x0702 0 ([1, 0, 0, 0]), [1, 0, 0, 0], commanded_of (by decide +kernel), by decide +kernel⟩,
    ⟨held 1 (cmd 0x0702 0 ([1, 0, 0, 0])) (running), 1, cmd 0x0702 0 ([1, 0, 0, 0]), [1, 0, 0, 0], commanded_of (by decide +kernel),
      by decide +kernel⟩⟩

/-- States and operands that meet the hypotheses of FaultLogAndStatistics, clause by clause. -/
theorem witness_FaultLogAndStatistics :
    (∃ (s : State) (ch : Nat) (h : Held) (b : List Byte), Commanded s 0x0903 ch h b ∧ 1 ≤ fld b 0 1 ∧ fld b 0 1 ≤ 13 ∧ zeros b 1 4 = true ∧ fld b 4
      4 ≤ 3600 ∧ fld b 8 4 ≤ 65535 ∧ zeros b 0xC 0x10 = true) ∧
    (∃ (s : State) (ch : Nat) (h : Held) (b : List Byte) (oldest : Nat) (lo : Nat) (es : List LogEntry), Commanded s 0x0503 ch h b ∧ oldest = (match
      s.faults.log with | e :: _ => e.seq | [] => s.faults.next) ∧ lo = (if fld b 0 8 = 2 ^ 64 - 1 ∨ fld b 0 8 < oldest then oldest else fld b 0 8) ∧
      es = (s.faults.log.filter fun e => decide (lo ≤ e.seq)).take (fld b 8 2) ∧ 1 ≤ fld b 8 2 ∧ fld b 8 2 ≤ 1023 ∧ zeros b 0xA 0x10 = true) ∧
    (∃ (s : State) (ch : Nat) (h : Held) (b : List Byte), Commanded s 0x0501 ch h b ∧ s.aon.phase = .up ∧ (s.getPart h.part).life = .exists_ ∧ 1 ≤
      fld b 0 1 ∧ fld b 0 1 ≤ 9 ∧ zeros b 1 2 = true ∧ zeros b 6 8 = true ∧ (fld b 0 1 ≠ 4 → fld b 2 2 = 0 ∧ fld b 4 2 = 0) ∧ (fld b 0 1 = 4 → 1 ≤ fld
      b 4 2 ∧ fld b 4 2 ≤ 576 ∧ fld b 2 2 + fld b 4 2 ≤ (s.getPart h.part).image.fronds)) :=
  ⟨⟨held 1 (cmd 0x0903 0 (record 16 [⟨0, 1, 5⟩, ⟨4, 4, 60⟩, ⟨8, 4, 3⟩])) (up), 1, cmd 0x0903 0 (record 16 [⟨0, 1, 5⟩, ⟨4, 4, 60⟩, ⟨8, 4, 3⟩]),
      record 16 [⟨0, 1, 5⟩, ⟨4, 4, 60⟩, ⟨8, 4, 3⟩], commanded_of (by decide +kernel), by decide +kernel⟩,
    ⟨held 1 (cmd 0x0503 0 (record 16 [⟨0, 8, 0⟩, ⟨8, 2, 4⟩])) (up.log { kind := 1, code := .ok }), 1, cmd 0x0503 0 (record 16 [⟨0, 8, 0⟩, ⟨8, 2,
      4⟩]), record 16 [⟨0, 8, 0⟩, ⟨8, 2, 4⟩], _, _, _, commanded_of (by decide +kernel), rfl, rfl, rfl, by decide +kernel⟩,
    ⟨held 1 (cmd 0x0501 0 (record 8 [⟨0, 1, 4⟩, ⟨2, 2, 2⟩, ⟨4, 2, 2⟩])) (running), 1, cmd 0x0501 0 (record 8 [⟨0, 1, 4⟩, ⟨2, 2, 2⟩, ⟨4, 2, 2⟩]),
      record 8 [⟨0, 1, 4⟩, ⟨2, 2, 2⟩, ⟨4, 2, 2⟩], commanded_of (by decide +kernel), by decide +kernel⟩⟩

/-- States and operands that meet the hypotheses of ParkAndWakeDomains, clause by clause. -/
theorem witness_ParkAndWakeDomains :
    (∃ (s : State), s.aon.phase = .up ∧ s.aon.parkDue = true ∧ s.aon.park = .no ∧ (∀ p, p < 64 → (s.getPart p).live = false)) ∧
    (∃ (s : State) (ws : List (Nat × Status)), s.aon.park = .waking ∧ s.waking = ws ∧ s.loading = none ∧ s.ctxWaits = []) ∧
    (∃ (s : State) (d : _), (s.getDom d = .wakingOff ∨ s.getDom d = .wakingRetain) ∧ s.loading = none ∧ s.ctxWaits = []) :=
  ⟨⟨{ up with aon := { up.aon with parkDue := true }, dom := [(3, .on), (144, .on), (171, .on), (173, .on)] }, by decide +kernel⟩,
    ⟨{ up with aon := { up.aon with park := .waking }, dom := [(3, .wakingOff), (144, .wakingRetain), (171, .on)] }, [], by decide +kernel⟩,
    ⟨{ up with dom := [(3, .wakingOff), (144, .wakingRetain), (171, .on)] }, 144, by decide +kernel⟩⟩

/-- States and operands that meet the hypotheses of RegisterWritesFollowAccessCodes, clause by clause. -/
theorem witness_RegisterWritesFollowAccessCodes :
    (∃ (s : State) (a : RegAccess), s.reaches a = false ∧ s.reachesFunction a = false) ∧
    (∃ (s : State) (a : RegAccess) (c : _) (o : _), s.reaches a = true ∧ accBlock a = some (c, o) ∧ o < 0x40) ∧
    (∃ (s : State) (a : RegAccess) (c : _), s.reaches a = true ∧ accBlock a = some (c, 0x88)) ∧
    (∃ (s : State) (a : RegAccess) (v : Word) (c : _), s.reaches a = true ∧ accBlock a = some (c, 0x90) ∧ (v.getLsbD 31 = true ∨ (s.getChan
      c).ring.getLsbD 31 = false ∨ c < 4)) ∧
    (∃ (s : State) (a : RegAccess) (n : _), s.reaches a = true ∧ accBlock a = none ∧ accBulk a = none ∧ accGroup a = some (n, 0) ∧ n < 11 ∧
      s.irq.status.length = 11) ∧
    (∃ (s : State) (a : RegAccess) (n : _), s.reaches a = true ∧ accBlock a = none ∧ accBulk a = none ∧ accGroup a = some (n, 1) ∧ n < 11 ∧
      s.irq.mask.length = 11) ∧
    (∃ (s : State) (a : RegAccess) (n : _), s.reaches a = true ∧ accBlock a = none ∧ accBulk a = none ∧ accGroup a = some (n, 1) ∧ (n = 16 ∨ n = 17)
      ∧ s.irq.maskExt.length = 2) ∧
    (∃ (s : State) (a : RegAccess), s.reaches a = true ∧ a.off = 0x44) ∧
    (∃ (s : State) (a : RegAccess), s.reaches a = true ∧ a.off = 0x48) ∧
    (∃ (s : State) (a : RegAccess) (c : _) (x : _), s.reaches a = true ∧ accBlock a = none ∧ accBulk a = some (c, x) ∧ (s.getChan c).busy = true) ∧
    (∃ (s : State) (a : RegAccess) (c : _) (x : _), s.reaches a = true ∧ accBlock a = none ∧ accBulk a = some (c, x) ∧ (s.getChan c).busy = false) ∧
    (∃ (s : State) (a : RegAccess) (v : Word) (c : _), v = 4 ∧ s.reaches a = true ∧ accBlock a = some (c, 0x40)) ∧
    (∃ (s : State) (a : RegAccess) (v : Word) (c : _) (h : _), v = 1 ∧ s.reaches a = true ∧ accBlock a = some (c, 0x40) ∧ (s.getChan c).busy = true
      ∧ (s.getChan c).held = some h ∧ (h.via = .mailbox ∨ h.stepped = true ∨ h.tick ≠ s.aon.ticks)) ∧
    (∃ (s : State) (a : RegAccess) (v : Word) (c : _) (w0 : Word) (w1 : Word) (bytes : List Byte), v = 1 ∧ w0 = nth 0 (s.getChan c).data 0 ∧ w1 =
      nth 0 (s.getChan c).data 1 ∧ bytes = (s.getChan c).data.flatMap (fun w => leBytes 4 w.toNat) ∧ s.reaches a = true ∧ accBlock a = some (c, 0x40)
      ∧ (s.getChan c).busy = false ∧ (s.getChan c).data.length = 16 ∧ (opInfo (w0.toNat % 2 ^ 16)).isSome = true) ∧
    (∃ (s : State) (a : RegAccess) (v : Word) (c : _) (w0 : Word) (w1 : Word) (bytes : List Byte), v = 1 ∧ w0 = nth 0 (s.getChan c).data 0 ∧ w1 =
      nth 0 (s.getChan c).data 1 ∧ bytes = (s.getChan c).data.flatMap (fun w => leBytes 4 w.toNat) ∧ s.reaches a = true ∧ accBlock a = some (c, 0x40)
      ∧ (s.getChan c).busy = false ∧ (s.getChan c).data.length = 16 ∧ (opInfo (w0.toNat % 2 ^ 16)).isSome = false) ∧
    (∃ (s : State) (a : RegAccess) (v : Word) (p : Pcie), s.reachesFunction a = true ∧ (a.path = .bar2 ∧ p = s.pcie.bar2Write a.off v ∨ a.path =
      .config ∧ p = s.pcie.configWrite a.off v)) :=
  ⟨⟨up, ⟨.bar0, 0x100200, 2⟩, by decide +kernel⟩,
    ⟨up, ⟨.bar0, 0x100A3C, 4⟩, 5, 0x3C, by decide +kernel⟩,
    ⟨up, ⟨.bar0, 0x100A88, 4⟩, 5, by decide +kernel⟩,
    ⟨up.updChan 5 fun c => { c with ring := 1 }, ⟨.bar0, 0x100A90, 4⟩, 0x12345678#32, 5, by decide +kernel⟩,
    ⟨{ up with irq := { up.irq with status := [0, 0xF, 3, 0, 0, 0, 0, 0, 0, 0, 0] } }, ⟨.bar0, 0x110, 4⟩, 1, by decide +kernel⟩,
    ⟨up, ⟨.bar0, 0x1A4, 4⟩, 10, by decide +kernel⟩,
    ⟨up, ⟨.bar0, 0x214, 4⟩, 17, by decide +kernel⟩,
    ⟨up, ⟨.bar0, 0x44, 4⟩, by decide +kernel⟩,
    ⟨up, ⟨.bar0, 0x48, 4⟩, by decide +kernel⟩,
    ⟨up.updChan 5 fun c => { c with busy := true }, ⟨.bar0, 0x850008, 4⟩, 5, 0x50008, by decide +kernel⟩,
    ⟨up, ⟨.bar0, 0x850008, 4⟩, 5, 0x50008, by decide +kernel⟩,
    ⟨up, ⟨.bar0, 0x100A40, 4⟩, _, 5, rfl, by decide +kernel⟩,
    ⟨held 5 (cmd 0x0103 0 []) up, ⟨.bar0, 0x100A40, 4⟩, _, 5, cmd 0x0103 0 [], rfl, by decide +kernel⟩,
    ⟨up.updChan 5 fun c => { c with data := [0x00010103#32, 0x00000007#32] ++ List.replicate 14 0 }, ⟨.bar0, 0x100A40, 4⟩, _, 5, _, _, _, rfl, rfl,
      rfl, rfl, by decide +kernel⟩,
    ⟨up.updChan 5 fun c => { c with data := [0x0001FF03#32, 0x00000007#32] ++ List.replicate 14 0 }, ⟨.bar0, 0x100A40, 4⟩, _, 5, _, _, _, rfl, rfl,
      rfl, rfl, by decide +kernel⟩,
    ⟨running, ⟨.bar2, 0xC, 4⟩, 0, running.pcie.bar2Write 0xC 0, (by exact reaches_of (by decide +kernel) (by decide +kernel)), by decide +kernel⟩⟩

/-- States and operands that meet the hypotheses of DoorbellsAndReceiveRing, clause by clause. -/
theorem witness_DoorbellsAndReceiveRing :
    (∃ (s : State) (a : RegAccess) (v : Word) (c : Nat), s.atReg a 0x80 = some c ∧ v.getLsbD 0 = true) ∧
    (∃ (s : State) (a : RegAccess) (v : Word) (c : Nat), s.atReg a 0x80 = some c ∧ v.getLsbD 0 = false) ∧
    (∃ (s : State) (a : RegAccess) (c : Nat), s.atReg a 0x8C = some c) ∧
    (∃ (s : State) (a : RegAccess) (c : Nat), s.atReg a 0x14C = some c ∧ ringChannel c = true) ∧
    (∃ (s : State) (a : RegAccess) (v : Word) (c : Nat) (units : Nat) (log2 : Nat) (t : State), units = bits v.toNat 31 16 ∧ log2 = bits v.toNat 11
      8 ∧ t = s.updChan c (fun x => { x with bufUnits := units, sizeLog2 := log2, rxOn := true, rxHead := 0, rseq := 0 }) ∧ s.atReg a 0x148 = some c ∧
      ringChannel c = true ∧ (s.getChan c).rxOn = false ∧ v.getLsbD 0 = true ∧ 4 ≤ units ∧ units ≤ 1024 ∧ 6 ≤ log2 ∧ log2 ≤ 15) ∧
    (∃ (s : State) (a : RegAccess) (v : Word) (c : Nat) (units : Nat) (log2 : Nat) (t : State), units = bits v.toNat 31 16 ∧ log2 = bits v.toNat 11
      8 ∧ t = s.updChan c (fun x => { x with bufUnits := units, sizeLog2 := log2 }) ∧ s.atReg a 0x148 = some c ∧ ringChannel c = true ∧ (s.getChan
      c).rxOn = false ∧ (v.getLsbD 0 = false ∨ units < 4 ∨ 1024 < units ∨ log2 < 6 ∨ 15 < log2)) ∧
    (∃ (s : State) (a : RegAccess) (v : Word) (c : Nat) (units : Nat) (log2 : Nat) (t : State), units = bits v.toNat 31 16 ∧ log2 = bits v.toNat 11
      8 ∧ t = s.updChan c (fun x => { x with rxOn := v.getLsbD 0 }) ∧ s.atReg a 0x148 = some c ∧ ringChannel c = true ∧ (s.getChan c).rxOn = true) ∧
    (∃ (s : State) (a : RegAccess) (c : Nat), s.atReg a 0x154 = some c ∧ ringChannel c = true) ∧
    (∃ (s : State) (a : RegAccess), s.atReg a 0x80 = none) ∧
    (∃ (s : State) (a : RegAccess), s.atReg a 0x8C = none) ∧
    (∃ (s : State) (a : RegAccess), s.atReg a 0x14C = none) ∧
    (∃ (s : State) (a : RegAccess), s.atReg a 0x148 = none) ∧
    (∃ (s : State) (a : RegAccess), s.atReg a 0x154 = none) :=
  ⟨⟨up, ⟨.bar0, 0x100A80, 4⟩, 1, 5, by decide +kernel⟩,
    ⟨up, ⟨.bar0, 0x100A80, 4⟩, 2, 5, by decide +kernel⟩,
    ⟨up.updChan 5 fun c => { c with db := 7 }, ⟨.bar0, 0x100A8C, 4⟩, 5, by decide +kernel⟩,
    ⟨up, ⟨.bar0, 0x100B4C, 4⟩, 5, by decide +kernel⟩,
    ⟨up, ⟨.bar0, 0x100B48, 4⟩, 0x04000F01#32, 5, _, _, _, rfl, rfl, rfl, by decide +kernel⟩,
    ⟨up, ⟨.bar0, 0x100B48, 4⟩, 0x00030F01#32, 5, _, _, _, rfl, rfl, rfl, by decide +kernel⟩,
    ⟨up.updChan 5 fun c => { c with rxOn := true }, ⟨.bar0, 0x100B48, 4⟩, 0x00030F01#32, 5, _, _, _, rfl, rfl, rfl, by decide +kernel⟩,
    ⟨up.updChan 5 fun c => { c with rxDrop := 3 }, ⟨.bar0, 0x100B54, 4⟩, 5, by decide +kernel⟩,
    ⟨up.updChan 5 fun c => { c with rxDrop := 3 }, ⟨.bar0, 0x100B54, 2⟩, by decide +kernel⟩,
    ⟨up.updChan 5 fun c => { c with rxDrop := 3 }, ⟨.bar0, 0x100B54, 2⟩, by decide +kernel⟩,
    ⟨up.updChan 5 fun c => { c with rxDrop := 3 }, ⟨.bar0, 0x100B54, 2⟩, by decide +kernel⟩,
    ⟨up.updChan 5 fun c => { c with rxDrop := 3 }, ⟨.bar0, 0x100B54, 2⟩, by decide +kernel⟩,
    ⟨up.updChan 5 fun c => { c with rxDrop := 3 }, ⟨.bar0, 0x100B54, 2⟩, by decide +kernel⟩⟩

/-- States and operands that meet the hypotheses of AnnouncementsHeldAndApplied, clause by clause. -/
theorem witness_AnnouncementsHeldAndApplied :
    (∃ (s : State) (p : Nat) (f : Frame) (a : Ann), Deliverable s p f ∧ a = annParse f.payload s.sync.stitch ∧ f.kind = 5 ∧ ((∃ e ∈ s.anns.known,
      e.1 = a.origin ∧ e.2.1 = a.seq) ∨ (∃ e ∈ s.anns.held, e.origin = a.origin ∧ e.seq = a.seq))) ∧
    (∃ (s : State) (p : Nat) (f : Frame) (a : Ann), Deliverable s p f ∧ a = annParse f.payload s.sync.stitch ∧ f.kind = 5 ∧ (∀ e ∈ s.anns.known, e.1
      = a.origin → e.2.1 ≠ a.seq) ∧ (∀ e ∈ s.anns.held, e.origin = a.origin → e.seq ≠ a.seq) ∧ s.sync.stitch ≤ a.effective + 65536 ∧
      s.anns.held.length < 64) ∧
    (∃ (s : State) (p : Nat) (f : Frame) (a : Ann), Deliverable s p f ∧ a = annParse f.payload s.sync.stitch ∧ f.kind = 5 ∧ (∀ e ∈ s.anns.known, e.1
      = a.origin → e.2.1 ≠ a.seq) ∧ (∀ e ∈ s.anns.held, e.origin = a.origin → e.seq ≠ a.seq) ∧ (a.effective + 65536 < s.sync.stitch ∨ 64 ≤
      s.anns.held.length)) ∧
    (∃ (s : State) (a : Ann) (q : Partition), q = s.getPart (fld a.body 1 1) ∧ s.anns.held = [a] ∧ a.due ≤ s.sync.stitch ∧ a.atype = 1 ∧ fld a.body
      0 1 = 2 ∧ fld a.body 1 1 < 64 ∧ q.holds = true ∧ enables q.image.rate (fld a.body 2 1) = true) ∧
    (∃ (s : State) (a : Ann) (q : Partition) (l : _), q = s.getPart (fld a.body 1 1) ∧ (∀ k, l < k → k < 16 → enables q.image.rate k = true → fld
      a.body 4 4 * 1000 / max q.image.fabricPackages 1 < (nth {} q.image.rate k).watts) ∧ s.anns.held = [a] ∧ a.due ≤ s.sync.stitch ∧ a.atype = 1 ∧
      fld a.body 0 1 = 1 ∧ fld a.body 1 1 < 64 ∧ q.holds = true ∧ l < 16 ∧ enables q.image.rate l = true ∧ (nth {} q.image.rate l).watts ≤ fld a.body
      4 4 * 1000 / max q.image.fabricPackages 1) ∧
    (∃ (s : State) (a : Ann) (q : Partition), q = s.getPart (fld a.body 1 1) ∧ s.anns.held = [a] ∧ a.due ≤ s.sync.stitch ∧ a.atype = 1 ∧ (64 ≤ fld
      a.body 1 1 ∨ q.holds = false ∨ (fld a.body 0 1 = 2 ∧ enables q.image.rate (fld a.body 2 1) = false))) ∧
    (∃ (s : State) (a : Ann) (b : Ann), (∀ x, x = a ∨ x = b → x.due ≤ s.sync.stitch ∧ x.atype = 1 ∧ fld x.body 0 1 = 2 ∧ fld x.body 1 1 < 64 ∧
      (s.getPart (fld x.body 1 1)).holds = true ∧ enables (s.getPart (fld x.body 1 1)).image.rate (fld x.body 2 1) = true) ∧ (s.anns.held = [a, b] ∨
      s.anns.held = [b, a]) ∧ (a.effective < b.effective ∨ (a.effective = b.effective ∧ rankOf s.size a.origin < rankOf s.size b.origin) ∨
      (a.effective = b.effective ∧ a.origin = b.origin ∧ a.seq < b.seq))) ∧
    (∃ (s : State) (a : Ann) (pl : Plan), s.anns.held = [a] ∧ a.due ≤ s.sync.stitch ∧ a.atype = 2 ∧ s.links.plan = some pl ∧ fld a.body 2 1 =
      pl.twin ∧ fld a.body 1 1 < 64) ∧
    (∃ (s : State) (a : Ann) (pl : Plan), s.anns.held = [a] ∧ a.due ≤ s.sync.stitch ∧ a.atype = 2 ∧ s.links.plan = some pl ∧ fld a.body 2 1 ≠
      pl.twin) ∧
    (∃ (s : State), (∀ a ∈ s.anns.held, s.sync.stitch < a.due)) :=
  ⟨⟨announced [annLevel 5000 3 3 ⟨1, 0, 0⟩], 0, annFrame (annLevel 5000 3 3 ⟨1, 0, 0⟩), _, deliverable_of (by decide +kernel), rfl,
      by decide +kernel⟩,
    ⟨running, 0, annFrame (annLevel 5000 3 3 ⟨1, 0, 0⟩), _, deliverable_of (by decide +kernel), rfl, by decide +kernel⟩,
    ⟨{ running with sync := { running.sync with stitch := 70537 } }, 0, annFrame (annLevel 5000 3 3 ⟨1, 0, 0⟩), _, deliverable_of
      (by decide +kernel), rfl, by decide +kernel⟩,
    ⟨announced [annLevel 900 3 3 ⟨1, 0, 0⟩], annLevel 900 3 3 ⟨1, 0, 0⟩, _, rfl, by decide +kernel⟩,
    ⟨announced [{ effective := 900, seq := 3, origin := ⟨1, 0, 0⟩, atype := 1, body := [1, 0, 0, 0, 100, 0, 0, 0], due := 900 }],
      { effective := 900, seq := 3, origin := ⟨1, 0, 0⟩, atype := 1, body := [1, 0, 0, 0, 100, 0, 0, 0], due := 900 }, _, 15, rfl,
      (by exact fun k h1 h2 => absurd h1 (by omega)), by decide +kernel⟩,
    ⟨announced [{ effective := 900, seq := 3, origin := ⟨1, 0, 0⟩, atype := 1, body := [2, 9, 3], due := 900 }],
      { effective := 900, seq := 3, origin := ⟨1, 0, 0⟩, atype := 1, body := [2, 9, 3], due := 900 }, _, rfl, by decide +kernel⟩,
    ⟨announced [annLevel 900 2 5 ⟨0, 1, 0⟩, annLevel 900 3 3 ⟨1, 0, 0⟩], annLevel 900 3 3 ⟨1, 0, 0⟩, annLevel 900 2 5 ⟨0, 1, 0⟩,
      (by exact by rintro x (rfl | rfl) <;> decide +kernel), by decide +kernel⟩,
    ⟨announced [{ effective := 900, seq := 3, origin := ⟨1, 0, 0⟩, atype := 2, body := [1, 0, 0], due := 900 }],
      { effective := 900, seq := 3, origin := ⟨1, 0, 0⟩, atype := 2, body := [1, 0, 0], due := 900 }, plan0, by decide +kernel⟩,
    ⟨announced [{ effective := 900, seq := 3, origin := ⟨1, 0, 0⟩, atype := 2, body := [1, 0, 1], due := 900 }],
      { effective := 900, seq := 3, origin := ⟨1, 0, 0⟩, atype := 2, body := [1, 0, 1], due := 900 }, plan0, by decide +kernel⟩,
    ⟨announced [annLevel 1001 3 3 ⟨1, 0, 0⟩], by decide +kernel⟩⟩


/-- A running package whose goal is one level above the run level, its voltage and PLL ready. -/
def readied (l k : Nat) : State := { running with rate := { running.rate with sched := 9, ready := some (l, k) } }
/-- A running package with contexts. -/
def withCtx (c : List (Nat × Ctx)) : State := { running with ctx := c }
/-- A running package whose partition 0 serves so. -/
def serving (v : Serve) (s : State) : State := s.updPart 0 fun q => { q with serve := v }
/-- A SERVE frame for the package. -/
def serveFrame0 (b : List Byte) : Frame := { dst := ⟨1, 1, 1⟩, src := ⟨0, 1, 1⟩, kind := 8, vl := 3, arg := 5 * 2 ^ 20, payload := b }
/-- A step request of a context handle. -/
def request (h : Nat) : List Byte := record 32 [⟨0, 1, 1⟩, ⟨2, 1, 1⟩, ⟨4, 4, h⟩, ⟨8, 4, 55⟩, ⟨0x10, 8, 77⟩]
/-- A running package whose partition 1 reserves every context. -/
def crowded : State := part 1 { part0 with image := { part0.image with resources := [⟨8, 0, 1048576⟩] } } (part 0 { part0 with image := {} } running)
/-- States and operands that meet the hypotheses of PowerCommandsAndRunLevel, clause by clause. -/
theorem witness_PowerCommandsAndRunLevel :
    (∃ (s : State) (ch : Nat) (h : Held) (b : List Byte) (mode : Nat) (level : Nat) (kw : Nat) (c : Instr), ((Commanded s 0x0301 ch h b ∧ c =
      .powerTarget ch ∧ mode = 1 ∧ level = 0 ∧ kw = fld b 8 4 ∧ 1 ≤ kw ∧ zeros b 0xC 0x10 = true) ∨ (Commanded s 0x0302 ch h b ∧ c = .rateSet ch ∧
      mode = 2 ∧ level = fld b 8 1 ∧ kw = 0 ∧ level ≤ 15 ∧ fld b 9 1 = 1 ∧ zeros b 0xA 0x10 = true ∧ enables (s.getPart h.part).image.rate level =
      true)) ∧ (s.getPart h.part).holds = true ∧ s.sync.stitch + 50000 ≤ fld b 0 8 ∧ s.anns.held.length < 64) ∧
    (∃ (s : State) (ch : Nat) (h : Held) (b : List Byte) (mode : Nat) (level : Nat) (kw : Nat) (c : Instr), ((Commanded s 0x0301 ch h b ∧ c =
      .powerTarget ch ∧ mode = 1 ∧ level = 0 ∧ kw = fld b 8 4 ∧ 1 ≤ kw ∧ zeros b 0xC 0x10 = true) ∨ (Commanded s 0x0302 ch h b ∧ c = .rateSet ch ∧
      mode = 2 ∧ level = fld b 8 1 ∧ kw = 0 ∧ level ≤ 15 ∧ fld b 9 1 = 1 ∧ zeros b 0xA 0x10 = true ∧ enables (s.getPart h.part).image.rate level =
      true)) ∧ (s.getPart h.part).holds = true ∧ fld b 0 8 < s.sync.stitch + 50000) ∧
    (∃ (s : State) (ch : Nat) (h : Held) (b : List Byte) (mode : Nat) (level : Nat) (kw : Nat) (c : Instr), ((Commanded s 0x0301 ch h b ∧ c =
      .powerTarget ch ∧ mode = 1 ∧ level = 0 ∧ kw = fld b 8 4 ∧ 1 ≤ kw ∧ zeros b 0xC 0x10 = true) ∨ (Commanded s 0x0302 ch h b ∧ c = .rateSet ch ∧
      mode = 2 ∧ level = fld b 8 1 ∧ kw = 0 ∧ level ≤ 15 ∧ fld b 9 1 = 1 ∧ zeros b 0xA 0x10 = true ∧ enables (s.getPart h.part).image.rate level =
      true)) ∧ (s.getPart h.part).holds = true ∧ s.sync.stitch + 50000 ≤ fld b 0 8 ∧ 64 ≤ s.anns.held.length) ∧
    (∃ (s : State) (ch : Nat) (h : Held) (b : List Byte) (mode : Nat) (level : Nat) (kw : Nat) (c : Instr), ((Commanded s 0x0301 ch h b ∧ c =
      .powerTarget ch ∧ mode = 1 ∧ level = 0 ∧ kw = fld b 8 4 ∧ 1 ≤ kw ∧ zeros b 0xC 0x10 = true) ∨ (Commanded s 0x0302 ch h b ∧ c = .rateSet ch ∧
      mode = 2 ∧ level = fld b 8 1 ∧ kw = 0 ∧ level ≤ 15 ∧ fld b 9 1 = 1 ∧ zeros b 0xA 0x10 = true ∧ enables (s.getPart h.part).image.rate level =
      true)) ∧ (s.getPart h.part).holds = false) ∧
    (∃ (s : State) (ch : Nat) (h : Held) (b : List Byte), Commanded s 0x0302 ch h b ∧ fld b 8 1 ≤ 15 ∧ fld b 9 1 = 0 ∧ zeros b 0xA 0x10 = true ∧
      (s.getPart h.part).holds = true ∧ enables (s.getPart h.part).image.rate (fld b 8 1) = true ∧ (fld b 0 8 = 0 ∨ s.sync.stitch < fld b 0 8)) ∧
    (∃ (s : State) (ch : Nat) (h : Held) (b : List Byte), Commanded s 0x0302 ch h b ∧ fld b 8 1 ≤ 15 ∧ fld b 9 1 = 0 ∧ zeros b 0xA 0x10 = true ∧
      (s.getPart h.part).holds = true ∧ enables (s.getPart h.part).image.rate (fld b 8 1) = true ∧ fld b 0 8 ≠ 0 ∧ fld b 0 8 ≤ s.sync.stitch) ∧
    (∃ (s : State) (pre : List (Nat × Nat)) (later : List (Nat × Nat)) (k : Nat) (l : Nat), (∀ a ∈ s.anns.held, s.sync.stitch < a.due) ∧
      s.rate.locals = pre ++ (k, l) :: later ∧ k ≤ s.sync.stitch ∧ (∀ e ∈ later, s.sync.stitch < e.1)) ∧
    (∃ (s : State), ((∃ a ∈ s.anns.held, a.due ≤ s.sync.stitch) ∨ (∀ e ∈ s.rate.locals, s.sync.stitch < e.1))) ∧
    (∃ (s : State) (g : Nat) (l : _), g = s.goal s.rate.sched s.rate.therm ∧ l = max g (s.rate.run - 4) ∧ (∀ r, r < 4 → s.ctlGoes r) ∧ (∀ a ∈
      s.anns.held, s.sync.stitch < a.due) ∧ (∀ e ∈ s.rate.locals, s.sync.stitch < e.1) ∧ s.aon.phase = .up ∧ s.mayStep s.sync.stitch = true ∧
      s.rate.tj < 1600 ∧ g < s.rate.run) ∧
    (∃ (s : State) (g : Nat), g = s.goal s.rate.sched s.rate.therm ∧ (∀ a ∈ s.anns.held, s.sync.stitch < a.due) ∧ (∀ e ∈ s.rate.locals,
      s.sync.stitch < e.1) ∧ s.aon.phase = .up ∧ s.mayStep s.sync.stitch = true ∧ s.rate.tj < 1600 ∧ g = s.rate.run) ∧
    (∃ (s : State) (g : Nat) (l : _), g = s.goal s.rate.sched s.rate.therm ∧ l = min g (s.rate.run + 4) ∧ (∀ k, s.rate.ready = some (l, k) →
      s.sync.stitch < k + s.leadTo l) ∧ (∀ a ∈ s.anns.held, s.sync.stitch < a.due) ∧ (∀ e ∈ s.rate.locals, s.sync.stitch < e.1) ∧ s.aon.phase = .up ∧
      s.mayStep s.sync.stitch = true ∧ s.rate.tj < 1600 ∧ s.rate.run < g) ∧
    (∃ (s : State) (g : Nat) (l : _) (k : _), g = s.goal s.rate.sched s.rate.therm ∧ l = min g (s.rate.run + 4) ∧ (∀ r, r < 4 → s.ctlGoes r) ∧ (∀ a
      ∈ s.anns.held, s.sync.stitch < a.due) ∧ (∀ e ∈ s.rate.locals, s.sync.stitch < e.1) ∧ s.aon.phase = .up ∧ s.mayStep s.sync.stitch = true ∧
      s.rate.tj < 1600 ∧ s.rate.run < g ∧ s.rate.ready = some (l, k) ∧ k + s.leadTo l ≤ s.sync.stitch) ∧
    (∃ (s : State), (∀ a ∈ s.anns.held, s.sync.stitch < a.due) ∧ (∀ e ∈ s.rate.locals, s.sync.stitch < e.1) ∧ s.aon.phase = .up ∧ s.mayStep
      s.sync.stitch = true ∧ 1600 ≤ s.rate.tj) ∧
    (∃ (s : State), (s.aon.phase ≠ .up ∨ (∃ a ∈ s.anns.held, a.due ≤ s.sync.stitch) ∨ (∃ e ∈ s.rate.locals, e.1 ≤ s.sync.stitch) ∨ s.mayStep
      s.sync.stitch = false)) ∧
    (∃ (s : State) (l : Nat), l = min (s.goal s.rate.sched s.rate.therm) (s.rate.run + 4) ∧ (∀ k, s.rate.ready ≠ some (l, k)) ∧ s.aon.phase = .up ∧
      s.anns.held = [] ∧ s.rate.locals = [] ∧ s.rate.run < s.goal s.rate.sched s.rate.therm ∧ s.wakeLead l ≤ 1000 ∧ s.mayStep (s.sync.stitch +
      leadStitches s.rate.run (s.wakeLead l)) = true) ∧
    (∃ (s : State) (l : Nat) (k : _), l = min (s.goal s.rate.sched s.rate.therm) (s.rate.run + 4) ∧ s.aon.phase = .up ∧ s.anns.held = [] ∧
      s.rate.locals = [] ∧ s.rate.run < s.goal s.rate.sched s.rate.therm ∧ s.wakeLead l ≤ 1000 ∧ s.mayStep (s.sync.stitch + leadStitches s.rate.run
      (s.wakeLead l)) = true ∧ s.rate.ready = some (l, k)) ∧
    (∃ (s : State), (s.aon.phase ≠ .up ∨ (s.anns.held = [] ∧ s.rate.locals = [] ∧ s.goal s.rate.sched s.rate.therm ≤ s.rate.run))) :=
  ⟨⟨held 1 (cmd 0x0301 0 (record 16 [⟨0, 8, 51000⟩, ⟨8, 4, 700⟩])) (running), 1, cmd 0x0301 0 (record 16 [⟨0, 8, 51000⟩, ⟨8, 4, 700⟩]), record 16
      [⟨0, 8, 51000⟩, ⟨8, 4, 700⟩], 1, 0, 700, .powerTarget 1, (by exact .inl ⟨commanded_of (by decide +kernel), by decide +kernel⟩),
      by decide +kernel⟩,
    ⟨held 1 (cmd 0x0302 0 (record 16 [⟨0, 8, 50999⟩, ⟨8, 1, 15⟩, ⟨9, 1, 1⟩])) (running), 1, cmd 0x0302 0 (record 16 [⟨0, 8, 50999⟩, ⟨8, 1, 15⟩, ⟨9,
      1, 1⟩]), record 16 [⟨0, 8, 50999⟩, ⟨8, 1, 15⟩, ⟨9, 1, 1⟩], 2, 15, 0, .rateSet 1,
      (by exact .inr ⟨commanded_of (by decide +kernel), by decide +kernel⟩), by decide +kernel⟩,
    ⟨held 1 (cmd 0x0302 0 (record 16 [⟨0, 8, 51000⟩, ⟨8, 1, 15⟩, ⟨9, 1, 1⟩])) (announced (List.replicate 64 (annLevel 5000 3 3 ⟨1, 0, 0⟩))), 1, cmd
      0x0302 0 (record 16 [⟨0, 8, 51000⟩, ⟨8, 1, 15⟩, ⟨9, 1, 1⟩]), record 16 [⟨0, 8, 51000⟩, ⟨8, 1, 15⟩, ⟨9, 1, 1⟩], 2, 15, 0, .rateSet 1,
      (by exact .inr ⟨commanded_of (by decide +kernel), by decide +kernel⟩), by decide +kernel⟩,
    ⟨held 1 (cmd 0x0301 0 (record 16 [⟨0, 8, 51000⟩, ⟨8, 4, 700⟩])) (ranks .empty), 1, cmd 0x0301 0 (record 16 [⟨0, 8, 51000⟩, ⟨8, 4, 700⟩]), record
      16 [⟨0, 8, 51000⟩, ⟨8, 4, 700⟩], 1, 0, 700, .powerTarget 1, (by exact .inl ⟨commanded_of (by decide +kernel), by decide +kernel⟩),
      by decide +kernel⟩,
    ⟨held 1 (cmd 0x0302 0 (record 16 [⟨0, 8, 1001⟩, ⟨8, 1, 15⟩])) (running), 1, cmd 0x0302 0 (record 16 [⟨0, 8, 1001⟩, ⟨8, 1, 15⟩]), record 16 [⟨0,
      8, 1001⟩, ⟨8, 1, 15⟩], commanded_of (by decide +kernel), by decide +kernel⟩,
    ⟨held 1 (cmd 0x0302 0 (record 16 [⟨0, 8, 1000⟩, ⟨8, 1, 15⟩])) (running), 1, cmd 0x0302 0 (record 16 [⟨0, 8, 1000⟩, ⟨8, 1, 15⟩]), record 16 [⟨0,
      8, 1000⟩, ⟨8, 1, 15⟩], commanded_of (by decide +kernel), by decide +kernel⟩,
    ⟨{ running with rate := { running.rate with locals := [(999, 2), (1000, 5), (1001, 7)] } }, [(999, 2)], [(1001, 7)], 1000, 5, by decide +kernel⟩,
    ⟨running, by decide +kernel⟩,
    ⟨{ running with rate := { running.rate with run := 9 } }, _, _, rfl, rfl, ctlGo_of (by decide +kernel), by decide +kernel⟩,
    ⟨running, _, rfl, by decide +kernel⟩,
    ⟨readied 4 1000, _, _, rfl, rfl, (by exact fun k hk => by cases hk; decide +kernel), by decide +kernel⟩,
    ⟨readied 4 1, _, _, 1, rfl, rfl, ctlGo_of (by decide +kernel), by decide +kernel⟩,
    ⟨{ running with rate := { running.rate with run := 3, tj := 1600 } }, by decide +kernel⟩,
    ⟨announced [annLevel 1000 3 3 ⟨1, 0, 0⟩], by decide +kernel⟩,
    ⟨{ running with rate := { running.rate with sched := 3 } }, _, rfl,
      (by exact fun _ h => nomatch (show (none : Option (Nat × Nat)) = some _ from h)), by decide +kernel⟩,
    ⟨readied 4 999, _, 999, rfl, by decide +kernel⟩,
    ⟨running, by decide +kernel⟩⟩

/-- States and operands that meet the hypotheses of ContextOpenTakesLowestFree, clause by clause. -/
theorem witness_ContextOpenTakesLowestFree :
    (∃ (s : State) (ch : Nat) (h : Held) (b : List Byte) (q : Partition), Commanded s 0x0601 ch h b ∧ q = s.getPart h.part ∧ (q.pat = .empty ∨ q.pat
      = .halted)) ∧
    (∃ (s : State) (ch : Nat) (h : Held) (b : List Byte) (q : Partition), Commanded s 0x0601 ch h b ∧ q = s.getPart h.part ∧ q.pat ≠ .empty ∧ q.pat
      ≠ .halted ∧ ctxOpenOk q b = false) ∧
    (∃ (s : State) (ch : Nat) (h : Held) (b : List Byte) (q : Partition), Commanded s 0x0601 ch h b ∧ q = s.getPart h.part ∧ q.pat ≠ .empty ∧ q.pat
      ≠ .halted ∧ ctxOpenOk q b = true ∧ s.ctxOpenCount h.part = q.serve.quota) ∧
    (∃ (s : State) (ch : Nat) (h : Held) (b : List Byte) (q : Partition), Commanded s 0x0601 ch h b ∧ q = s.getPart h.part ∧ q.pat ≠ .empty ∧ q.pat
      ≠ .halted ∧ ctxOpenOk q b = true ∧ s.ctxOpenCount h.part ≠ q.serve.quota ∧ s.ctxReserved h.part ≤ s.ctxOpenCount h.part ∧ s.ctxFree = 0) ∧
    (∃ (s : State) (ch : Nat) (h : Held) (b : List Byte) (q : Partition), Commanded s 0x0601 ch h b ∧ q = s.getPart h.part ∧ q.pat ≠ .empty ∧ q.pat
      ≠ .halted ∧ ctxOpenOk q b = true ∧ s.ctxOpenCount h.part ≠ q.serve.quota ∧ (s.ctxOpenCount h.part < s.ctxReserved h.part ∨ s.ctxFree ≠ 0) ∧
      s.getDom 173 = .on ∧ Tab.wf {} s.ctx) ∧
    (∃ (s : State) (ch : Nat) (h : Held) (b : List Byte) (q : Partition), Commanded s 0x0601 ch h b ∧ q = s.getPart h.part ∧ q.pat ≠ .empty ∧ q.pat
      ≠ .halted ∧ ctxOpenOk q b = true ∧ s.ctxOpenCount h.part ≠ q.serve.quota ∧ (s.ctxOpenCount h.part < s.ctxReserved h.part ∨ s.ctxFree ≠ 0) ∧
      s.getDom 173 ≠ .on) ∧
    (∃ (s : State) (ch : Nat) (h : Held) (b : List Byte) (q : Partition), q = s.getPart h.part ∧ (s.getDom 173 = .wakingOff ∨ s.getDom 173 =
      .wakingRetain) ∧ s.ctxWaits = [ch] ∧ (s.getChan ch).held = some h ∧ h.opcode = 0x0601 ∧ h.block = some b ∧ s.aon.phase = .up ∧ s.aon.park = .no
      ∧ s.loading = none ∧ q.pat ≠ .empty ∧ q.pat ≠ .halted ∧ ctxOpenOk q b = true ∧ s.ctxOpenCount h.part ≠ q.serve.quota ∧ (s.ctxOpenCount h.part <
      s.ctxReserved h.part ∨ s.ctxFree ≠ 0) ∧ Tab.wf {} s.ctx ∧ h.via = .mailbox) :=
  ⟨⟨held 4 (cmd 0x0601 0 (record 40 [⟨0, 1, 3⟩, ⟨4, 4, 100⟩, ⟨0x10, 8, 4096⟩, ⟨0x18, 8, 4096⟩])) (ranks .halted), 4, cmd 0x0601 0 (record 40 [⟨0,
      1, 3⟩, ⟨4, 4, 100⟩, ⟨0x10, 8, 4096⟩, ⟨0x18, 8, 4096⟩]), record 40 [⟨0, 1, 3⟩, ⟨4, 4, 100⟩, ⟨0x10, 8, 4096⟩, ⟨0x18, 8, 4096⟩], _, commanded_of
      (by decide +kernel), rfl, by decide +kernel⟩,
    ⟨held 4 (cmd 0x0601 0 (record 40 [⟨0, 1, 3⟩, ⟨0x10, 8, 4096⟩, ⟨0x18, 8, 4096⟩])) (running), 4, cmd 0x0601 0 (record 40 [⟨0, 1, 3⟩, ⟨0x10, 8,
      4096⟩, ⟨0x18, 8, 4096⟩]), record 40 [⟨0, 1, 3⟩, ⟨0x10, 8, 4096⟩, ⟨0x18, 8, 4096⟩], _, commanded_of (by decide +kernel), rfl, by decide +kernel⟩,
    ⟨held 4 (cmd 0x0601 0 (record 40 [⟨0, 1, 3⟩, ⟨4, 4, 100⟩, ⟨0x10, 8, 4096⟩, ⟨0x18, 8, 4096⟩])) (serving { quota := 1 } (withCtx [(0, ctx0)])), 4,
      cmd 0x0601 0 (record 40 [⟨0, 1, 3⟩, ⟨4, 4, 100⟩, ⟨0x10, 8, 4096⟩, ⟨0x18, 8, 4096⟩]), record 40 [⟨0, 1, 3⟩, ⟨4, 4, 100⟩, ⟨0x10, 8, 4096⟩, ⟨0x18,
      8, 4096⟩], _, commanded_of (by decide +kernel), rfl, by decide +kernel⟩,
    ⟨held 4 (cmd 0x0601 0 (record 40 [⟨0, 1, 3⟩, ⟨4, 4, 100⟩, ⟨0x10, 8, 4096⟩, ⟨0x18, 8, 4096⟩])) (crowded), 4, cmd 0x0601 0 (record 40 [⟨0, 1, 3⟩,
      ⟨4, 4, 100⟩, ⟨0x10, 8, 4096⟩, ⟨0x18, 8, 4096⟩]), record 40 [⟨0, 1, 3⟩, ⟨4, 4, 100⟩, ⟨0x10, 8, 4096⟩, ⟨0x18, 8, 4096⟩], _, commanded_of
      (by decide +kernel), rfl, by decide +kernel⟩,
    ⟨held 4 (cmd 0x0601 0 (record 40 [⟨0, 1, 3⟩, ⟨4, 4, 100⟩, ⟨0x10, 8, 4096⟩, ⟨0x18, 8, 4096⟩])) (withCtx [(0, ctx0), (1, { gen := 4095 })]), 4,
      cmd 0x0601 0 (record 40 [⟨0, 1, 3⟩, ⟨4, 4, 100⟩, ⟨0x10, 8, 4096⟩, ⟨0x18, 8, 4096⟩]), record 40 [⟨0, 1, 3⟩, ⟨4, 4, 100⟩, ⟨0x10, 8, 4096⟩, ⟨0x18,
      8, 4096⟩], _, commanded_of (by decide +kernel), rfl, by decide +kernel⟩,
    ⟨held 4 (cmd 0x0601 0 (record 40 [⟨0, 1, 3⟩, ⟨4, 4, 100⟩, ⟨0x10, 8, 4096⟩, ⟨0x18, 8, 4096⟩]))
      ({ withCtx [(0, ctx0)] with dom := [(0, .on), (173, .retain)] }), 4, cmd 0x0601 0 (record 40 [⟨0, 1, 3⟩, ⟨4, 4, 100⟩, ⟨0x10, 8, 4096⟩, ⟨0x18, 8,
      4096⟩]), record 40 [⟨0, 1, 3⟩, ⟨4, 4, 100⟩, ⟨0x10, 8, 4096⟩, ⟨0x18, 8, 4096⟩], _, commanded_of (by decide +kernel), rfl, by decide +kernel⟩,
    ⟨held 4 { cmd 0x0601 0 (record 40 [⟨0, 1, 3⟩, ⟨4, 4, 100⟩, ⟨0x10, 8, 4096⟩, ⟨0x18, 8, 4096⟩]) with stepped := true, acked := true }
      { withCtx [(0, ctx0)] with dom := [(0, .on), (173, .wakingRetain)], ctxWaits := [4] }, 4,
      { cmd 0x0601 0 (record 40 [⟨0, 1, 3⟩, ⟨4, 4, 100⟩, ⟨0x10, 8, 4096⟩, ⟨0x18, 8, 4096⟩]) with stepped := true, acked := true }, record 40 [⟨0, 1,
      3⟩, ⟨4, 4, 100⟩, ⟨0x10, 8, 4096⟩, ⟨0x18, 8, 4096⟩], _, rfl, by decide +kernel⟩⟩

/-- States and operands that meet the hypotheses of ContextCloseAndPolicies, clause by clause. -/
theorem witness_ContextCloseAndPolicies :
    (∃ (s : State) (ch : Nat) (h : Held) (b : List Byte), Commanded s 0x0602 ch h b ∧ s.aon.phase = .up ∧ s.aon.park = .no ∧ s.tableWaits = false ∧
      (zeros b 4 8 = false ∨ s.ctxOf h.part (fld b 0 4) = none)) ∧
    (∃ (s : State) (ch : Nat) (h : Held) (b : List Byte) (i : _), Commanded s 0x0602 ch h b ∧ s.aon.phase = .up ∧ s.aon.park = .no ∧ s.tableWaits =
      false ∧ zeros b 4 8 = true ∧ s.ctxOf h.part (fld b 0 4) = some i ∧ (s.getCtx i).state = .open_) ∧
    (∃ (s : State) (ch : Nat) (h : Held) (b : List Byte) (i : _), Commanded s 0x0602 ch h b ∧ s.aon.phase = .up ∧ s.aon.park = .no ∧ s.tableWaits =
      false ∧ zeros b 4 8 = true ∧ s.ctxOf h.part (fld b 0 4) = some i ∧ (s.getCtx i).state = .batched) ∧
    (∃ (s : State) (ch : Nat) (h : Held) (b : List Byte) (i : _), Commanded s 0x0602 ch h b ∧ s.aon.phase = .up ∧ s.aon.park = .no ∧ s.tableWaits =
      false ∧ zeros b 4 8 = true ∧ s.ctxOf h.part (fld b 0 4) = some i ∧ (s.getCtx i).state = .closing) ∧
    (∃ (s : State) (ch : Nat) (h : Held) (b : List Byte) (i : _) (now : Bool) (u : State), Commanded s 0x0602 ch h b ∧ u = s.serveTo h.part
      (s.getCtx i).hostReq (s.getCtx i).req (s.getCtx i).reqPart (serveRecord 3 (if now then 1 else 6) 0 (handleOf i (s.getCtx i)) (s.getCtx
      i).tokenIn 0 (s.getCtx i).cookie) ∧ s.aon.phase = .up ∧ s.aon.park = .no ∧ s.tableWaits = false ∧ zeros b 4 8 = true ∧ s.ctxOf h.part (fld b 0
      4) = some i ∧ (s.getCtx i).state = .ready ∧ (now = true ↔ (s.getCtx i).reqTick = s.aon.ticks % 2 ^ 32)) ∧
    (∃ (s : State) (ch : Nat) (h : Held) (b : List Byte), Commanded s 0x0603 ch h b ∧ zeros b 4 8 = true ∧ fld b 0 4 ≤ 1048576 ∧ s.ctxHeld h.part ≤
      fld b 0 4) ∧
    (∃ (s : State) (ch : Nat) (h : Held) (b : List Byte), Commanded s 0x0603 ch h b ∧ (1048576 < fld b 0 4 ∨ fld b 0 4 < s.ctxHeld h.part)) ∧
    (∃ (s : State) (ch : Nat) (h : Held) (b : List Byte), Commanded s 0x0604 ch h b ∧ batchPolicyOk b = false) ∧
    (∃ (s : State) (ch : Nat) (h : Held) (b : List Byte), Commanded s 0x0604 ch h b ∧ batchPolicyOk b = true ∧ (s.getPart h.part).serve.forming =
      []) ∧
    (∃ (s : State) (ch : Nat) (h : Held) (b : List Byte) (w : _) (rows : _), Commanded s 0x0604 ch h b ∧ s.noneStalls h.part ∧ batchPolicyOk b =
      true ∧ (s.getPart h.part).serve.forming = [(w, rows)] ∧ rows.length = fld b 4 1 ∧ (∀ x ∈ (s.getPart h.part).serve.sealed_, x.at_ ≠ s.aon.ticks)) :=
  ⟨⟨held 4 (cmd 0x0602 0 (record 8 [⟨0, 4, 1048578⟩])) (withCtx [(0, ctx0), (1, ctx0)]), 4, cmd 0x0602 0 (record 8 [⟨0, 4, 1048578⟩]), record 8
      [⟨0, 4, 1048578⟩], commanded_of (by decide +kernel), by decide +kernel⟩,
    ⟨held 4 (cmd 0x0602 0 (record 8 [⟨0, 4, 1048577⟩])) (withCtx [(0, ctx0), (1, ctx0)]), 4, cmd 0x0602 0 (record 8 [⟨0, 4, 1048577⟩]), record 8
      [⟨0, 4, 1048577⟩], 1, commanded_of (by decide +kernel), by decide +kernel⟩,
    ⟨held 4 (cmd 0x0602 0 (record 8 [⟨0, 4, 1048577⟩])) (withCtx [(0, ctx0), (1, { ctx0 with state := .batched })]), 4, cmd 0x0602 0 (record 8 [⟨0,
      4, 1048577⟩]), record 8 [⟨0, 4, 1048577⟩], 1, commanded_of (by decide +kernel), by decide +kernel⟩,
    ⟨held 4 (cmd 0x0602 0 (record 8 [⟨0, 4, 1048577⟩])) (withCtx [(0, ctx0), (1, { ctx0 with state := .closing })]), 4, cmd 0x0602 0 (record 8 [⟨0,
      4, 1048577⟩]), record 8 [⟨0, 4, 1048577⟩], 1, commanded_of (by decide +kernel), by decide +kernel⟩,
    ⟨held 4 (cmd 0x0602 0 (record 8 [⟨0, 4, 1048577⟩])) (serving { part0.serve with forming := [(3, [1])] } (withCtx [(0, ctx0), (1,
      { ctx0 with state := .ready, reqTick := 5 })])), 4, cmd 0x0602 0 (record 8 [⟨0, 4, 1048577⟩]), record 8 [⟨0, 4, 1048577⟩], 1, false, _,
      commanded_of (by decide +kernel), rfl, by decide +kernel⟩,
    ⟨held 1 (cmd 0x0603 0 (record 8 [⟨0, 4, 6⟩])) (running), 1, cmd 0x0603 0 (record 8 [⟨0, 4, 6⟩]), record 8 [⟨0, 4, 6⟩], commanded_of
      (by decide +kernel), by decide +kernel⟩,
    ⟨held 1 (cmd 0x0603 0 (record 8 [⟨0, 4, 1048577⟩])) (running), 1, cmd 0x0603 0 (record 8 [⟨0, 4, 1048577⟩]), record 8 [⟨0, 4, 1048577⟩],
      commanded_of (by decide +kernel), by decide +kernel⟩,
    ⟨held 4 (cmd 0x0604 0 (record 24 [⟨0, 4, 500⟩, ⟨4, 1, 129⟩])) (running), 4, cmd 0x0604 0 (record 24 [⟨0, 4, 500⟩, ⟨4, 1, 129⟩]), record 24 [⟨0,
      4, 500⟩, ⟨4, 1, 129⟩], commanded_of (by decide +kernel), by decide +kernel⟩,
    ⟨held 4 (cmd 0x0604 0 (record 24 [⟨0, 4, 500⟩, ⟨4, 1, 16⟩, ⟨5, 1, 1⟩, ⟨8, 8, 4096⟩, ⟨0x10, 4, 64⟩])) (running), 4, cmd 0x0604 0 (record 24 [⟨0,
      4, 500⟩, ⟨4, 1, 16⟩, ⟨5, 1, 1⟩, ⟨8, 8, 4096⟩, ⟨0x10, 4, 64⟩]), record 24 [⟨0, 4, 500⟩, ⟨4, 1, 16⟩, ⟨5, 1, 1⟩, ⟨8, 8, 4096⟩, ⟨0x10, 4, 64⟩],
      commanded_of (by decide +kernel), by decide +kernel⟩,
    ⟨held 4 (cmd 0x0604 0 (record 24 [⟨0, 4, 500⟩, ⟨4, 1, 1⟩, ⟨5, 1, 1⟩, ⟨8, 8, 4096⟩, ⟨0x10, 4, 64⟩])) (serving
      { part0.serve with forming := [(3, [1])] } (withCtx [(1, { ctx0 with state := .ready, reqTick := 5 })])), 4, cmd 0x0604 0 (record 24 [⟨0, 4,
      500⟩, ⟨4, 1, 1⟩, ⟨5, 1, 1⟩, ⟨8, 8, 4096⟩, ⟨0x10, 4, 64⟩]), record 24 [⟨0, 4, 500⟩, ⟨4, 1, 1⟩, ⟨5, 1, 1⟩, ⟨8, 8, 4096⟩, ⟨0x10, 4, 64⟩], 3, [1],
      commanded_of (by decide +kernel), noneStalls_of (by decide +kernel) _, by decide +kernel⟩⟩

/-- States and operands that meet the hypotheses of BatchesFormAndSeal, clause by clause. -/
theorem witness_BatchesFormAndSeal :
    (∃ (s : State) (p : Nat) (f : Frame) (q : Partition) (i : _) (w : _), Deliverable s p f ∧ q = s.getPart f.part ∧ w = (s.getCtx i).wset ∧
      s.noneFirst f.part ∧ (∀ k, s.pastDeadline q.serve.deadlineUs (s.formingOf f.part k) = false) ∧ f.kind = 8 ∧ f.dst = s.here ∧ s.tableWaits =
      false ∧ fld f.payload 0 1 = 1 ∧ s.ctxOf f.part (fld f.payload 4 4) = some i ∧ q.pat = .running ∧ (s.getCtx i).state = .open_ ∧ (s.getCtx
      i).length ≠ (s.getCtx i).maxLength ∧ (s.formingOf f.part w).length + 1 < q.serve.maxRows) ∧
    (∃ (s : State) (p : Nat) (f : Frame) (q : Partition) (i : Nat) (code : Nat), Deliverable s p f ∧ q = s.getPart f.part ∧ i = fld f.payload 4 4 %
      2 ^ 20 ∧ s.noneFirst f.part ∧ f.kind = 8 ∧ f.dst = s.here ∧ s.tableWaits = false ∧ fld f.payload 0 1 = 1 ∧ (s.ctxOf f.part (fld f.payload 4 4) =
      none ∧ code = 1 ∨ s.ctxOf f.part (fld f.payload 4 4) = some i ∧ (q.pat ≠ .running ∧ code = 4 ∨ q.pat = .running ∧ ((s.getCtx i).state ≠ .open_ ∧
      code = 2 ∨ (s.getCtx i).state = .open_ ∧ (s.getCtx i).length = (s.getCtx i).maxLength ∧ code = 3)))) ∧
    (∃ (s : State) (p : Nat) (f : Frame) (q : Partition), Deliverable s p f ∧ q = s.getPart f.part ∧ s.noneFirst f.part ∧ s.noneStalls f.part ∧
      f.kind = 8 ∧ f.dst = s.here ∧ s.tableWaits = false ∧ (fld f.payload 0 1 = 2 ∨ fld f.payload 0 1 = 3)) ∧
    (∃ (s : State) (p : Nat) (f : Frame) (q : Partition), Deliverable s p f ∧ q = s.getPart f.part ∧ s.noneFirst f.part ∧ f.kind = 8 ∧ f.dst =
      s.here ∧ s.tableWaits = false ∧ (fld f.payload 0 1 = 0 ∨ 3 < fld f.payload 0 1)) ∧
    (∃ (s : State) (a : RegAccess) (c : Nat), s.atReg a 0x80 = some c ∧ 4 ≤ c ∧ (s.getChan c).ringMask.getLsbD 31 = true) ∧
    (∃ (s : State) (a : RegAccess) (c : Nat), s.atReg a 0x80 = some c ∧ 4 ≤ c ∧ (s.getChan c).ringMask.getLsbD 31 = false ∧ s.tableWaits = false ∧
      (s.getPart (c - 4)).serve.submitOn = false) ∧
    (∃ (s : State) (a : RegAccess) (c : Nat) (i : Nat) (w : Nat) (r : List Byte), w = (s.getCtx i).wset ∧ s.noneFirst (c - 4) ∧ (∀ k, s.pastDeadline
      (s.getPart (c - 4)).serve.deadlineUs (s.formingOf (c - 4) k) = false) ∧ s.atReg a 0x80 = some c ∧ 4 ≤ c ∧ (s.getChan c).ringMask.getLsbD 31 =
      false ∧ s.tableWaits = false ∧ (s.getPart (c - 4)).serve.submitOn = true ∧ (s.getChan c).subIndex + 1 ≠ (s.getPart (c - 4)).serve.submitEntries
      ∧ bit (fld r 2 1) 0 = (s.getChan c).subPhase ∧ fld r 0 1 = 1 ∧ s.ctxOf (c - 4) (fld r 4 4) = some i ∧ (s.getPart (c - 4)).pat = .running ∧
      (s.getCtx i).state = .open_ ∧ (s.getCtx i).length ≠ (s.getCtx i).maxLength ∧ (s.formingOf (c - 4) w).length + 1 < (s.getPart (c -
      4)).serve.maxRows) ∧
    (∃ (s : State) (a : RegAccess) (c : Nat) (r : List Byte), s.noneFirst (c - 4) ∧ s.atReg a 0x80 = some c ∧ 4 ≤ c ∧ (s.getChan c).ringMask.getLsbD
      31 = false ∧ s.tableWaits = false ∧ (s.getPart (c - 4)).serve.submitOn = true ∧ (s.getChan c).subIndex + 1 ≠ (s.getPart (c -
      4)).serve.submitEntries ∧ bit (fld r 2 1) 0 ≠ (s.getChan c).subPhase) ∧
    (∃ (s : State) (p : Nat) (w : Nat) (rows : List Nat) (v : Serve), v = (s.getPart p).serve ∧ s.noneFirst p ∧ s.noneStalls p ∧ v.forming = [(w,
      rows)] ∧ (∀ x ∈ v.sealed_, x.at_ ≠ s.aon.ticks) ∧ s.pastDeadline v.deadlineUs rows = true) ∧
    (∃ (s : State) (p : Nat) (w : Nat) (rows : List Nat) (v : Serve), v = (s.getPart p).serve ∧ s.noneFirst p ∧ s.noneStalls p ∧ v.forming = [(w,
      rows)] ∧ (∀ x ∈ v.sealed_, x.at_ ≠ s.aon.ticks) ∧ s.pastDeadline v.deadlineUs rows = false) :=
  ⟨⟨withCtx [(0, ctx0), (1, ctx0)], 0, serveFrame0 (request 1048577), _, 1, _, deliverable_of (by decide +kernel), rfl, rfl,
      noneFirst_of (by decide +kernel), fun _ => rfl, by decide +kernel⟩,
    ⟨withCtx [(0, ctx0), (1, ctx0)], 0, serveFrame0 (request 1048579), _, _, 1, deliverable_of (by decide +kernel), rfl, rfl,
      noneFirst_of (by decide +kernel), by decide +kernel⟩,
    ⟨withCtx [(0, ctx0), (1, ctx0)], 0, serveFrame0 (record 32 [⟨0, 1, 2⟩]), _, deliverable_of (by decide +kernel), rfl,
      noneFirst_of (by decide +kernel), noneStalls_of (by decide +kernel) _, by decide +kernel⟩,
    ⟨withCtx [(0, ctx0), (1, ctx0)], 0, serveFrame0 (record 32 [⟨0, 1, 4⟩]), _, deliverable_of (by decide +kernel), rfl,
      noneFirst_of (by decide +kernel), by decide +kernel⟩,
    ⟨(withCtx [(0, ctx0), (1, ctx0)]).updChan 4 fun c => { c with ringMask := 0x80000000#32 }, ⟨.bar0, 0x100880, 4⟩, 4, by decide +kernel⟩,
    ⟨serving { part0.serve with submitOn := false } (withCtx [(0, ctx0), (1, ctx0)]), ⟨.bar0, 0x100880, 4⟩, 4, by decide +kernel⟩,
    ⟨withCtx [(0, ctx0), (1, ctx0)], ⟨.bar0, 0x100880, 4⟩, 4, 1, _, request 1048577, rfl, noneFirst_of (by decide +kernel), fun _ => rfl,
      by decide +kernel⟩,
    ⟨withCtx [(0, ctx0), (1, ctx0)], ⟨.bar0, 0x100880, 4⟩, 4, record 32 [⟨0, 1, 1⟩, ⟨4, 4, 1048577⟩], noneFirst_of (by decide +kernel),
      by decide +kernel⟩,
    ⟨serving { part0.serve with forming := [(3, [1])] } (withCtx [(1, { ctx0 with state := .ready, reqTick := 5 })]), 0, 3, [1], _, rfl,
      noneFirst_of (by decide +kernel), noneStalls_of (by decide +kernel) _, by decide +kernel⟩,
    ⟨serving { part0.serve with forming := [(3, [1])] } (withCtx [(1, { ctx0 with state := .ready, reqTick := 1000000000 % 2 ^ 32 })]), 0, 3, [1],
      _, rfl, noneFirst_of (by decide +kernel), noneStalls_of (by decide +kernel) _, by decide +kernel⟩⟩


/-- A row of a batch of context entry 1. -/
def row1 : BatchRow := { entry := 1, handle := 1048577, tokenIn := 5, length := 0, tier := false, kvAddr := 0, kvBytes := 4096 }
/-- A sealed batch of one row. -/
def batch1 : Batch := { seq := 0, wset := 3, rows := [row1] }
/-- A running package whose partition 0 has the batch in service, its context as given. -/
def inService (c : Ctx) : State := serving { part0.serve with sealed_ := [batch1] } (withCtx [(1, c)])
/-- A running package whose window 3 is bound so. -/
def windowed (w : Window) : State := running.updWin 3 fun _ => w
/-- A window of partition 0 bound to a partner with two frames in flight. -/
def win0 : Window := { owner := 1, partner := ⟨0, 1, 1⟩, inflight := 2, epoch := 258 }
/-- A frame that waits for a window. -/
def waitingFrame : Frame := { dst := ⟨0, 1, 1⟩, src := ⟨1, 1, 1⟩, kind := 7, vl := 3, payload := [1] }
/-- A FALLBACK frame for the package. -/
def fallback0 : Frame := { dst := ⟨1, 1, 1⟩, src := ⟨0, 1, 1⟩, kind := 7, vl := 3, payload := [1, 2, 3] }
/-- States and operands that meet the hypotheses of WardenServingInstructions, clause by clause. -/
theorem witness_WardenServingInstructions :
    (∃ (s : State) (f : Nat) (w : Nat) (a : Nat) (p : Nat) (r : FrondRec), s.issuer f w = some (p, r) ∧ (s.logical p f ≠ 0 ∨ r.warden unitArray ≠ w
      ∨ r.pageOk a 32 = false)) ∧
    (∃ (s : State) (f : Nat) (w : Nat) (a : Nat) (p : Nat) (r : FrondRec), s.issuer f w = some (p, r) ∧ s.logical p f = 0 ∧ r.warden unitArray = w ∧
      r.pageOk a 32 = true ∧ (s.getPart p).serve.inbox = []) ∧
    (∃ (s : State) (f : Nat) (w : Nat) (a : Nat) (p : Nat) (r : FrondRec) (rcd : _) (rest : _), s.issuer f w = some (p, r) ∧ s.logical p f = 0 ∧
      r.warden unitArray = w ∧ r.pageOk a 32 = true ∧ (s.getPart p).serve.inbox = rcd :: rest ∧ rcd.length = 32 ∧ (s.getFrond f).wait = []) ∧
    (∃ (s : State) (f : Nat) (w : Nat) (a : Nat) (p : Nat) (r : FrondRec), s.issuer f w = some (p, r) ∧ (r.warden unitArray ≠ w ∨ r.pageOk a 4160 =
      false)) ∧
    (∃ (s : State) (f : Nat) (w : Nat) (a : Nat) (p : Nat) (r : FrondRec) (n : _) (v : _), v = (s.getPart p).serve ∧ n = Tab.get 0 v.takes f ∧
      s.issuer f w = some (p, r) ∧ r.warden unitArray = w ∧ r.pageOk a 4160 = true ∧ ((∀ b ∈ v.sealed_, b.seq ≠ n) ∨ v.completed + 4 ≤ n)) ∧
    (∃ (s : State) (f : Nat) (w : Nat) (a : Nat) (p : Nat) (r : FrondRec) (n : _) (v : _) (b : _), v = (s.getPart p).serve ∧ n = Tab.get 0 v.takes f
      ∧ s.issuer f w = some (p, r) ∧ r.warden unitArray = w ∧ r.pageOk a 4160 = true ∧ v.sealed_.find? (fun b => b.seq == n) = some b ∧ n <
      v.completed + 4 ∧ (s.getFrond f).wait = []) ∧
    (∃ (s : State) (f : Nat) (w : Nat) (a : Nat) (p : Nat) (seq : Nat) (r : FrondRec), s.noneFirst p ∧ s.issuer f w = some (p, r) ∧ ((s.getPart
      p).serve.sealed_ = [] ∨ s.logical p f ≠ 0 ∨ r.warden unitArray ≠ w ∨ seq ≠ (s.getPart p).serve.completed ∨ r.pageOk a 1024 = false)) ∧
    (∃ (s : State) (f : Nat) (w : Nat) (a : Nat) (p : Nat) (seq : Nat) (r : FrondRec) (b : Batch) (row : BatchRow) (c : Ctx) (res : Nat) (u :
      State), seq = (s.getPart p).serve.completed ∧ c = s.getCtx row.entry ∧ res = leNat (s.fsRead f a 8) ∧ u = s.serveTo p c.hostReq c.req c.reqPart
      (serveRecord 2 0 (2 * b2n (bit res 32)) row.handle (res % 2 ^ 32) (c.length + 1) c.cookie) ∧ s.noneFirst p ∧ s.noneStalls p ∧ s.issuer f w =
      some (p, r) ∧ s.aon.phase = .up ∧ s.aon.park = .no ∧ s.logical p f = 0 ∧ r.warden unitArray = w ∧ r.pageOk a 1024 = true ∧ (s.getPart
      p).serve.sealed_.find? (fun b => b.seq == seq) = some b ∧ b.rows = [row] ∧ (c.hostReq = true ∨ (s.getPart p).windows ≠ 0) ∧ ¬ (bit res 33 = true
      ∧ c.kvPeat = 2 ^ 64 - 1) ∧ c.state = .batched) ∧
    (∃ (s : State) (f : Nat) (w : Nat) (a : Nat) (p : Nat) (seq : Nat) (r : FrondRec) (b : Batch) (row : BatchRow) (c : Ctx) (res : Nat) (u :
      State), seq = (s.getPart p).serve.completed ∧ c = s.getCtx row.entry ∧ res = leNat (s.fsRead f a 8) ∧ u = s.serveTo p c.hostReq c.req c.reqPart
      (serveRecord 3 6 0 (handleOf row.entry c) c.tokenIn 0 c.cookie) ∧ s.noneFirst p ∧ s.noneStalls p ∧ s.issuer f w = some (p, r) ∧ s.aon.phase =
      .up ∧ s.aon.park = .no ∧ s.logical p f = 0 ∧ r.warden unitArray = w ∧ r.pageOk a 1024 = true ∧ (s.getPart p).serve.sealed_.find? (fun b => b.seq
      == seq) = some b ∧ b.rows = [row] ∧ (c.hostReq = true ∨ (s.getPart p).windows ≠ 0) ∧ ¬ (bit res 33 = true ∧ c.kvPeat = 2 ^ 64 - 1) ∧ c.state =
      .closing) :=
  ⟨⟨running, 1, 0, 64, 0, rec0, by decide +kernel⟩,
    ⟨running, 0, 0, 64, 0, rec0, by decide +kernel⟩,
    ⟨serving { part0.serve with inbox := [record 32 [⟨0, 1, 2⟩, ⟨4, 4, 9⟩], [1]] } running, 0, 0, 64, 0, rec0, record 32 [⟨0, 1, 2⟩, ⟨4, 4, 9⟩],
      ([[1]] : List (List Byte)), by decide +kernel⟩,
    ⟨running, 0, 0, 3670000, 0, rec0, by decide +kernel⟩,
    ⟨running, 0, 0, 64, 0, rec0, _, _, rfl, rfl, by decide +kernel⟩,
    ⟨inService { ctx0 with state := .batched, hostReq := true }, 0, 0, 64, 0, rec0, _, _, batch1, rfl, rfl, by decide +kernel⟩,
    ⟨inService { ctx0 with state := .batched, hostReq := true }, 0, 0, 64, 0, 1, rec0, noneFirst_of (by decide +kernel), by decide +kernel⟩,
    ⟨inService { ctx0 with state := .batched, hostReq := true }, 0, 0, 64, 0, _, rec0, batch1, row1, _, _, _, rfl, rfl, rfl, rfl,
      noneFirst_of (by decide +kernel), noneStalls_of (by decide +kernel) _, by decide +kernel⟩,
    ⟨inService { ctx0 with state := .closing, hostReq := true }, 0, 0, 64, 0, _, rec0, batch1, row1, _, _, _, rfl, rfl, rfl, rfl,
      noneFirst_of (by decide +kernel), noneStalls_of (by decide +kernel) _, by decide +kernel⟩⟩

/-- States and operands that meet the hypotheses of WindowsAndCredits, clause by clause. -/
theorem witness_WindowsAndCredits :
    (∃ (s : State) (f : Nat) (w : Nat) (a : Nat) (n : Nat) (p : Nat) (dp : Nat) (r : FrondRec) (d : Coord) (c : Instr) (fr : Frame), s.issuer f w =
      some (p, r) ∧ ((c = .svSend f w d dp a ∧ r.pageOk a 32 = true ∧ svSendOk (s.fsRead f a 32) = true ∧ fr =
      { dst := d, src := s.here, part := dp, kind := 8, vl := 3, arg := 2 ^ 20 * p, payload := s.fsRead f a 32 }) ∨ (c = .fbSend f w d dp a n ∧
      r.pageOk a n = true ∧ 1 ≤ n ∧ n ≤ 14832 ∧ fr =
      { dst := d, src := s.here, part := dp, kind := 7, vl := 3, arg := 0, payload := s.fsRead f a n })) ∧ (s.getPart p).windows = 0) ∧
    (∃ (s : State) (f : Nat) (w : Nat) (a : Nat) (n : Nat) (p : Nat) (dp : Nat) (r : FrondRec) (d : Coord) (c : Instr) (fr : Frame) (i : _),
      s.issuer f w = some (p, r) ∧ ((c = .svSend f w d dp a ∧ r.pageOk a 32 = true ∧ svSendOk (s.fsRead f a 32) = true ∧ fr =
      { dst := d, src := s.here, part := dp, kind := 8, vl := 3, arg := 2 ^ 20 * p, payload := s.fsRead f a 32 }) ∨ (c = .fbSend f w d dp a n ∧
      r.pageOk a n = true ∧ 1 ≤ n ∧ n ≤ 14832 ∧ fr =
      { dst := d, src := s.here, part := dp, kind := 7, vl := 3, arg := 0, payload := s.fsRead f a n })) ∧ (s.getPart p).windows ≠ 0 ∧ (∀ g ∈
      (s.getPart p).serve.waiting, g.dst ≠ d) ∧ (s.boundWins p).find? (fun j => (s.getWin j).partner == d) = some i ∧ (s.getWin i).inflight < 16) ∧
    (∃ (s : State) (f : Nat) (w : Nat) (a : Nat) (n : Nat) (p : Nat) (dp : Nat) (r : FrondRec) (d : Coord) (c : Instr) (fr : Frame) (i : _),
      s.issuer f w = some (p, r) ∧ ((c = .svSend f w d dp a ∧ r.pageOk a 32 = true ∧ svSendOk (s.fsRead f a 32) = true ∧ fr =
      { dst := d, src := s.here, part := dp, kind := 8, vl := 3, arg := 2 ^ 20 * p, payload := s.fsRead f a 32 }) ∨ (c = .fbSend f w d dp a n ∧
      r.pageOk a n = true ∧ 1 ≤ n ∧ n ≤ 14832 ∧ fr =
      { dst := d, src := s.here, part := dp, kind := 7, vl := 3, arg := 0, payload := s.fsRead f a n })) ∧ (s.getPart p).windows ≠ 0 ∧ (∀ g ∈
      (s.getPart p).serve.waiting, g.dst ≠ d) ∧ (∀ j ∈ s.boundWins p, (s.getWin j).partner ≠ d) ∧ (s.boundWins p).length < (s.getPart p).windows ∧
      (s.getWin i).owner = 0 ∧ (∀ j, j < i → (s.getWin j).owner ≠ 0) ∧ i ≤ 4096) ∧
    (∃ (s : State) (f : Nat) (w : Nat) (a : Nat) (n : Nat) (p : Nat) (dp : Nat) (r : FrondRec) (d : Coord) (c : Instr) (fr : Frame) (i : _),
      s.issuer f w = some (p, r) ∧ ((c = .svSend f w d dp a ∧ r.pageOk a 32 = true ∧ svSendOk (s.fsRead f a 32) = true ∧ fr =
      { dst := d, src := s.here, part := dp, kind := 8, vl := 3, arg := 2 ^ 20 * p, payload := s.fsRead f a 32 }) ∨ (c = .fbSend f w d dp a n ∧
      r.pageOk a n = true ∧ 1 ≤ n ∧ n ≤ 14832 ∧ fr =
      { dst := d, src := s.here, part := dp, kind := 7, vl := 3, arg := 0, payload := s.fsRead f a n })) ∧ (s.getPart p).windows ≠ 0 ∧ (∀ g ∈
      (s.getPart p).serve.waiting, g.dst ≠ d) ∧ (s.boundWins p).find? (fun j => (s.getWin j).partner == d) = some i ∧ 16 ≤ (s.getWin i).inflight) ∧
    (∃ (s : State) (f : Nat) (w : Nat) (a : Nat) (n : Nat) (p : Nat) (dp : Nat) (r : FrondRec) (d : Coord) (c : Instr) (fr : Frame), s.issuer f w =
      some (p, r) ∧ ((c = .svSend f w d dp a ∧ r.pageOk a 32 = true ∧ svSendOk (s.fsRead f a 32) = true ∧ fr =
      { dst := d, src := s.here, part := dp, kind := 8, vl := 3, arg := 2 ^ 20 * p, payload := s.fsRead f a 32 }) ∨ (c = .fbSend f w d dp a n ∧
      r.pageOk a n = true ∧ 1 ≤ n ∧ n ≤ 14832 ∧ fr =
      { dst := d, src := s.here, part := dp, kind := 7, vl := 3, arg := 0, payload := s.fsRead f a n })) ∧ (∃ g ∈ (s.getPart p).serve.waiting, g.dst =
      d) ∧ (s.getPart p).windows ≠ 0) ∧
    (∃ (s : State) (f : Nat) (w : Nat) (a : Nat) (p : Nat) (r : FrondRec), s.issuer f w = some (p, r) ∧ (r.pageOk a 32 = false ∨ svSendOk (s.fsRead
      f a 32) = false)) ∧
    (∃ (s : State) (f : Nat) (w : Nat) (a : Nat) (n : Nat) (p : Nat) (r : FrondRec), s.issuer f w = some (p, r) ∧ (r.pageOk a n = false ∨ n = 0 ∨
      14832 < n)) ∧
    (∃ (s : State) (d : Coord) (c : Credits), s.links.credits.find? (fun c => c.source == d) = some c ∧ (8 ≤ (c.entries.map (·.2)).sum ∨ c.first +
      250 ≤ s.aon.ticks)) ∧
    (∃ (s : State) (d : Coord) (c : Credits), s.links.credits.find? (fun c => c.source == d) = some c ∧ (c.entries.map (·.2)).sum < 8 ∧ s.aon.ticks
      < c.first + 250) ∧
    (∃ (s : State) (d : Coord), (∀ c ∈ s.links.credits, c.source ≠ d)) ∧
    (∃ (s : State) (p : Nat) (i : Nat) (e : Nat) (n : Nat) (f : Frame), Deliverable s p f ∧ f.kind = 6 ∧ f.dst = s.here ∧ i < 4096 ∧ e < 256 ∧ n <
      256 ∧ f.payload = leBytes 4 (i + 2 ^ 12 * e + 2 ^ 20 * n) ∧ (s.getWin i).owner ≠ 0 ∧ (∀ q, q < 64 → (s.getPart q).serve.waiting = [])) ∧
    (∃ (s : State) (p : Nat) (i : Nat), (s.getWin i).owner = p + 1 ∧ 0 < (s.getWin i).inflight ∧ (s.getWin i).credit + 25000 ≤ s.aon.ticks ∧
      (s.getPart p).serve.waiting = []) ∧
    (∃ (s : State) (p : Nat) (i : Nat), ((s.getWin i).owner ≠ p + 1 ∨ (s.getWin i).inflight = 0 ∨ s.aon.ticks < (s.getWin i).credit + 25000)) ∧
    (∃ (s : State) (p : Nat) (k : Nat) (f : Frame) (c : Channel) (rcd : List Byte), Deliverable s p f ∧ k = 4 + f.part ∧ c = s.getChan k ∧ rcd =
      record 16 [⟨0, 1, 2⟩, ⟨4, 4, 16 + f.payload.length⟩, ⟨8, 1, f.src.x⟩, ⟨9, 1, f.src.y⟩, ⟨10, 1, f.src.z⟩, ⟨11, 1, f.part⟩] ++ (frameHeader f ++
      f.payload) ∧ f.kind = 7 ∧ f.dst = s.here ∧ f.part < 64 ∧ (c.rxOn = false ∨ c.freeBufs < cdiv rcd.length (64 * c.bufUnits))) ∧
    (∃ (s : State) (p : Nat) (k : Nat) (f : Frame) (c : Channel) (rcd : List Byte), Deliverable s p f ∧ k = 4 + f.part ∧ c = s.getChan k ∧ rcd =
      record 16 [⟨0, 1, 2⟩, ⟨4, 4, 16 + f.payload.length⟩, ⟨8, 1, f.src.x⟩, ⟨9, 1, f.src.y⟩, ⟨10, 1, f.src.z⟩, ⟨11, 1, f.part⟩] ++ (frameHeader f ++
      f.payload) ∧ f.kind = 7 ∧ f.dst = s.here ∧ f.part < 64 ∧ c.rxOn = true ∧ cdiv rcd.length (64 * c.bufUnits) ≤ c.freeBufs) :=
  ⟨⟨part 0 { part0 with image := { img0 with resources := [] } } running, 0, 0, 64, 33, 0, 63, rec0, ⟨0, 1, 1⟩, .fbSend 0 0 ⟨0, 1, 1⟩ 63 64 33,
      { dst := ⟨0, 1, 1⟩, src := ⟨1, 1, 1⟩, part := 63, kind := 7, vl := 3, arg := 0, payload := List.replicate 33 0 }, by decide +kernel⟩,
    ⟨State.fsWrite 0 64 (record 32 [⟨0, 1, 1⟩, ⟨4, 4, 1048577⟩, ⟨8, 4, 55⟩, ⟨0x10, 8, 77⟩]) (windowed { win0 with inflight := 15 }), 0, 0, 64, 33,
      0, 63, rec0, ⟨0, 1, 1⟩, .svSend 0 0 ⟨0, 1, 1⟩ 63 64,
      { dst := ⟨0, 1, 1⟩, src := ⟨1, 1, 1⟩, part := 63, kind := 8, vl := 3, arg := 0, payload := record 32 [⟨0, 1, 1⟩, ⟨4, 4, 1048577⟩, ⟨8, 4, 55⟩, ⟨0x10, 8, 77⟩] },
      3, by decide +kernel⟩,
    ⟨State.fsWrite 0 64 (record 32 [⟨0, 1, 1⟩, ⟨4, 4, 1048577⟩, ⟨8, 4, 55⟩, ⟨0x10, 8, 77⟩]) running, 0, 0, 64, 33, 0, 63, rec0, ⟨0, 1, 1⟩, .svSend 0
      0 ⟨0, 1, 1⟩ 63 64,
      { dst := ⟨0, 1, 1⟩, src := ⟨1, 1, 1⟩, part := 63, kind := 8, vl := 3, arg := 0, payload := record 32 [⟨0, 1, 1⟩, ⟨4, 4, 1048577⟩, ⟨8, 4, 55⟩, ⟨0x10, 8, 77⟩] },
      0, by decide +kernel⟩,
    ⟨State.fsWrite 0 64 (record 32 [⟨0, 1, 1⟩, ⟨4, 4, 1048577⟩, ⟨8, 4, 55⟩, ⟨0x10, 8, 77⟩]) (windowed { win0 with inflight := 16 }), 0, 0, 64, 33,
      0, 63, rec0, ⟨0, 1, 1⟩, .svSend 0 0 ⟨0, 1, 1⟩ 63 64,
      { dst := ⟨0, 1, 1⟩, src := ⟨1, 1, 1⟩, part := 63, kind := 8, vl := 3, arg := 0, payload := record 32 [⟨0, 1, 1⟩, ⟨4, 4, 1048577⟩, ⟨8, 4, 55⟩, ⟨0x10, 8, 77⟩] },
      3, by decide +kernel⟩,
    ⟨State.fsWrite 0 64 (record 32 [⟨0, 1, 1⟩, ⟨4, 4, 1048577⟩, ⟨8, 4, 55⟩, ⟨0x10, 8, 77⟩]) (serving { part0.serve with waiting := [waitingFrame] }
      (windowed win0)), 0, 0, 64, 33, 0, 63, rec0, ⟨0, 1, 1⟩, .svSend 0 0 ⟨0, 1, 1⟩ 63 64,
      { dst := ⟨0, 1, 1⟩, src := ⟨1, 1, 1⟩, part := 63, kind := 8, vl := 3, arg := 0, payload := record 32 [⟨0, 1, 1⟩, ⟨4, 4, 1048577⟩, ⟨8, 4, 55⟩, ⟨0x10, 8, 77⟩] },
      by decide +kernel⟩,
    ⟨running, 0, 0, 3670000, 0, rec0, by decide +kernel⟩,
    ⟨running, 0, 0, 3670000, 14833, 0, rec0, by decide +kernel⟩,
    ⟨{ running with links := { running.links with credits := [{ source := ⟨0, 1, 1⟩, first := 5, entries := [(3, 2)] }] } }, ⟨0, 1, 1⟩,
      { source := ⟨0, 1, 1⟩, first := 5, entries := [(3, 2)] }, by decide +kernel⟩,
    ⟨{ running with links := { running.links with credits := [{ source := ⟨0, 1, 1⟩, first := running.aon.ticks, entries := [(3, 7)] }] } }, ⟨0, 1,
      1⟩, { source := ⟨0, 1, 1⟩, first := running.aon.ticks, entries := [(3, 7)] }, by decide +kernel⟩,
    ⟨running, ⟨0, 1, 1⟩, by decide +kernel⟩,
    ⟨windowed win0, 0, 3, 2, 2, { dst := ⟨1, 1, 1⟩, kind := 6, vl := 2, payload := leBytes 4 (3 + 2 ^ 12 * 2 + 2 ^ 20 * 2) }, deliverable_of
      (by decide +kernel), by decide +kernel⟩,
    ⟨windowed win0, 0, 3, by decide +kernel⟩,
    ⟨windowed win0, 0, 4, by decide +kernel⟩,
    ⟨running, 0, _, fallback0, _, _, deliverable_of (by decide +kernel), rfl, rfl, rfl, by decide +kernel⟩,
    ⟨running.updChan 4 fun c => { c with rxOn := true, bufUnits := 1, sizeLog2 := 4, rxTail := 3, bufAddr := [(0, 64)] }, 0, _, fallback0, _, _,
      deliverable_of (by decide +kernel), rfl, rfl, rfl, by decide +kernel⟩⟩


/-- The small image with one link slot of port 0 declared as well. -/
def linkImage : List Byte :=
  imageBytes.take 12 ++ leBytes 4 379109308 ++ slice imageBytes 16 112 ++ record 16 [⟨0, 2, 1⟩, ⟨2, 2, 2⟩, ⟨8, 4, 0x180⟩, ⟨12, 4, 32⟩]
    ++ slice imageBytes 0x90 0x100 ++ record 16 [⟨0, 1, 5⟩, ⟨8, 8, 1⟩] ++ imageBytes.drop 0x1A0
/-- Its CRC is right. -/
theorem linkImage_crc : imageCrc linkImage = fld linkImage 0xC 4 := by
  rw [imageCrc, crc32_strict]; decide +kernel
/-- Its other checks pass. -/
theorem linkImage_checks : firstFail (firstChecks linkImage 1792) = none ∧ firstFail (headerChecks linkImage) = none ∧
    firstFail (directoryChecks linkImage) = none ∧ firstFail (sectionChecks linkImage) = none := by decide +kernel
/-- It passes every check on the image itself. -/
theorem linkImage_passes : imageFailure linkImage 1792 = none := by
  obtain ⟨h1, h2, h3, h4⟩ := linkImage_checks
  simp only [imageFailure, h1, h2, h3, h4, linkImage_crc, ne_eq, not_true_eq_false, if_false, Option.map_none]
/-- What every resource of the small image needs lies within what this state has. -/
theorem fits_of {s : State} (h : 4096 ≤ s.capacity 0 (imageParse imageBytes) 3 0) (r x : Nat) :
    (imageParse imageBytes).amount r x ≤ s.capacity 0 (imageParse imageBytes) r x := by
  rw [image_amount]
  split
  · next e => rw [e.1, e.2]; exact h
  · exact Nat.zero_le _
/-- No resource before the HBM of the small image is short, since none is declared. -/
theorem fits_before {s : State} (r k : Nat) (h : r < 3 ∨ r = 3 ∧ k < 0) :
    (imageParse imageBytes).amount r k ≤ s.capacity 0 (imageParse imageBytes) r k := by
  rw [image_amount, if_neg (by omega)]; exact Nat.zero_le _
/-- The small image uses no port. -/
theorem image_ports (s : State) (p : Nat) (_ : p < 12) (h : (imageParse imageBytes).amount 5 p ≠ 0) :
    (s.getPort p).marked = false ∧ (s.getPort p).state = .up ∧ s.isSelvage p = false := by
  rw [image_amount, if_neg (by omega)] at h; exact absurd rfl h
/-- The small image is admitted where its shape and its HBM fit. -/
theorem judge_image {s : State} (h1 : s.shapeFailure 0 imageBytes (imageParse imageBytes) = none)
    (h : 4096 ≤ s.capacity 0 (imageParse imageBytes) 3 0) : (s.judge 0 1792 imageBytes).st = .ok := by
  refine judge_of image_passes h1 ?_ ?_
  · rw [State.portFailure, List.findSome?_eq_none_iff]
    intro p _
    exact if_pos (by rw [image_amount]; exact if_neg fun e => absurd e.1 (by decide))
  · rw [State.resourceFailure, List.findSome?_eq_none_iff]
    intro r _
    rw [List.findSome?_eq_none_iff]
    intro x _
    exact if_neg (Nat.not_lt.mpr (fits_of h r x))
/-- The turn that waits in it. -/
def turn (load : Bool) : Admission := { load := load, ch := 1, tag := 7, part := 0, source := 1, size := 1792, addr := 0 }
/-- A package in which partition 0 is empty and commands come. -/
def emptied : State := part 0 { part0 with pat := .empty } running
/-- The parameters of a load from host memory or from HBM. -/
def loadFrom (src size addr : Nat) : List Byte := record 16 [⟨0, 1, src⟩, ⟨4, 4, size⟩, ⟨8, 8, addr⟩]
/-- The dies and links of a state replaced. -/
def planned (s : State) (p : Plan) : State := { s with links := { s.links with plan := some p } }
/-- The plan of the small image's fabric with one port. -/
def plan1 : Plan := { fabric := 1, size := ⟨3, 3, 3⟩, twin := 0, peer := 2, chassis := 0, here := ⟨1, 1, 1⟩, ports := 1 }
/-- The admitting package with its first port in a state. -/
def portIn (l : Bool) (x : Port) : State := (admitting l).updPort 0 fun _ => x
/-- The admitting package with the groups of the small image ON and the hub links up. -/
def awake : State :=
  { admitting true with dom := [(0, .on), (174, .on)],
                        dies := { (admitting true).dies with die := List.replicate 4 { cap := some cap0, hubUp := true }, half := [true, true] } }
/-- What holds of the default and of every entry of a table but those at one key holds of whatever is read elsewhere. -/
theorem tab_others {α : Type} {d : α} {P : α → Prop} {p : Nat} (hd : P d) {t : Tab α} (h : ∀ e ∈ t, e.1 = p ∨ P e.2) (k : Nat) (hk : k ≠ p) :
    P (Tab.get d t k) := by
  induction t with
  | nil => exact hd
  | cons e t ih =>
    simp only [Tab.get]
    split
    · next e1 => exact (h e (List.mem_cons_self ..)).resolve_left fun e2 => hk (by rw [← e2]; exact (by simpa using e1 : e.1 = k).symm)
    · exact ih fun x hx => h x (List.mem_cons_of_mem _ hx)
/-- A load that waits for its groups. -/
def loading0 : Loading := { adm := turn true, bytes := imageBytes, fronds := 4 }
/-- States and operands that meet the hypotheses of AdmissionsQueueAndJudge, clause by clause. -/
theorem witness_AdmissionsQueueAndJudge :
    (∃ (s : State) (ch : Nat) (h : Held) (b : List Byte) (load : Bool) (c : Instr) (a : Admission), a =
      { load := load, ch := ch, tag := h.tag, part := h.part, source := fld b 0 1, size := fld b 4 4, addr := fld b 8 8 } ∧ (load = true ∧ c =
      .patternLoad ch ∧ Commanded s 0x0201 ch h b ∨ load = false ∧ c = .patternAdmit ch ∧ Commanded s 0x0202 ch h b) ∧ s.linkDead = true) ∧
    (∃ (s : State) (ch : Nat) (h : Held) (b : List Byte) (load : Bool) (c : Instr) (a : Admission), a =
      { load := load, ch := ch, tag := h.tag, part := h.part, source := fld b 0 1, size := fld b 4 4, addr := fld b 8 8 } ∧ (load = true ∧ c =
      .patternLoad ch ∧ Commanded s 0x0201 ch h b ∨ load = false ∧ c = .patternAdmit ch ∧ Commanded s 0x0202 ch h b) ∧ s.linkDead = false ∧
      loadParamsOk b = false) ∧
    (∃ (s : State) (ch : Nat) (h : Held) (b : List Byte) (load : Bool) (c : Instr) (a : Admission), a =
      { load := load, ch := ch, tag := h.tag, part := h.part, source := fld b 0 1, size := fld b 4 4, addr := fld b 8 8 } ∧ (load = true ∧ c =
      .patternLoad ch ∧ Commanded s 0x0201 ch h b ∨ load = false ∧ c = .patternAdmit ch ∧ Commanded s 0x0202 ch h b) ∧ s.linkDead = false ∧
      loadParamsOk b = true ∧ fld b 0 1 = 1 ∧ ch < 4 ∧ (ch ≠ 1 ∨ h.via ≠ .mailbox)) ∧
    (∃ (s : State) (ch : Nat) (h : Held) (b : List Byte) (load : Bool) (c : Instr) (a : Admission), a =
      { load := load, ch := ch, tag := h.tag, part := h.part, source := fld b 0 1, size := fld b 4 4, addr := fld b 8 8 } ∧ (load = true ∧ c =
      .patternLoad ch ∧ Commanded s 0x0201 ch h b ∨ load = false ∧ c = .patternAdmit ch ∧ Commanded s 0x0202 ch h b) ∧ s.linkDead = false ∧
      loadParamsOk b = true ∧ fld b 0 1 = 2 ∧ (s.getPart h.part).hbmGib * 1073741824 < fld b 8 8 + fld b 4 4) ∧
    (∃ (s : State) (ch : Nat) (h : Held) (b : List Byte) (load : Bool) (c : Instr) (a : Admission), a =
      { load := load, ch := ch, tag := h.tag, part := h.part, source := fld b 0 1, size := fld b 4 4, addr := fld b 8 8 } ∧ (load = true ∧ c =
      .patternLoad ch ∧ Commanded s 0x0201 ch h b ∨ load = false ∧ c = .patternAdmit ch ∧ Commanded s 0x0202 ch h b) ∧ s.linkDead = false ∧
      loadParamsOk b = true ∧ (fld b 0 1 = 1 → 4 ≤ ch ∨ (ch = 1 ∧ h.via = .mailbox)) ∧ (fld b 0 1 = 2 → fld b 8 8 + fld b 4 4 ≤ (s.getPart
      h.part).hbmGib * 1073741824) ∧ 8 ≤ s.admissions.length) ∧
    (∃ (s : State) (ch : Nat) (h : Held) (b : List Byte) (load : Bool) (c : Instr) (a : Admission), a =
      { load := load, ch := ch, tag := h.tag, part := h.part, source := fld b 0 1, size := fld b 4 4, addr := fld b 8 8 } ∧ (load = true ∧ c =
      .patternLoad ch ∧ Commanded s 0x0201 ch h b ∨ load = false ∧ c = .patternAdmit ch ∧ Commanded s 0x0202 ch h b) ∧ s.linkDead = false ∧
      loadParamsOk b = true ∧ (fld b 0 1 = 1 → 4 ≤ ch ∨ (ch = 1 ∧ h.via = .mailbox)) ∧ (fld b 0 1 = 2 → fld b 8 8 + fld b 4 4 ≤ (s.getPart
      h.part).hbmGib * 1073741824) ∧ s.admissions.length < 8 ∧ (load = false ∨ s.aon.park ≠ .parked)) ∧
    (∃ (s : State) (ch : Nat) (h : Held) (b : List Byte) (load : Bool) (c : Instr) (a : Admission), a =
      { load := load, ch := ch, tag := h.tag, part := h.part, source := fld b 0 1, size := fld b 4 4, addr := fld b 8 8 } ∧ load = true ∧ (load = true
      ∧ c = .patternLoad ch ∧ Commanded s 0x0201 ch h b ∨ load = false ∧ c = .patternAdmit ch ∧ Commanded s 0x0202 ch h b) ∧ s.linkDead = false ∧
      loadParamsOk b = true ∧ (fld b 0 1 = 1 → 4 ≤ ch ∨ (ch = 1 ∧ h.via = .mailbox)) ∧ (fld b 0 1 = 2 → fld b 8 8 + fld b 4 4 ≤ (s.getPart
      h.part).hbmGib * 1073741824) ∧ s.admissions.length < 8 ∧ s.aon.park = .parked) ∧
    (∃ (s : State), (s.admissions = [] ∨ s.loading ≠ none ∨ (∃ a rest, s.admissions = a :: rest ∧ (a.load = true ∧ s.aon.park ≠ .no ∨ s.sourceOpen a
      = false)))) ∧
    (∃ (s : State) (a : Admission) (rest : List Admission) (u : State), u = { s with admissions := rest } ∧ s.admissions = a :: rest ∧ s.loading =
      none ∧ (a.load = true → s.aon.park = .no) ∧ s.sourceOpen a = true ∧ s.linkDead = true) ∧
    (∃ (s : State) (a : Admission) (rest : List Admission) (u : State), u = { s with admissions := rest } ∧ s.admissions = a :: rest ∧ s.loading =
      none ∧ (a.load = true → s.aon.park = .no) ∧ s.sourceOpen a = true ∧ s.linkDead = false ∧ (s.getPart a.part).life = .never) ∧
    (∃ (s : State) (a : Admission) (rest : List Admission) (u : State), u = { s with admissions := rest } ∧ s.admissions = a :: rest ∧ s.loading =
      none ∧ (a.load = true → s.aon.park = .no) ∧ s.sourceOpen a = true ∧ s.linkDead = false ∧ (s.getPart a.part).life = .destroyed) ∧
    (∃ (s : State) (a : Admission) (rest : List Admission) (u : State), u = { s with admissions := rest } ∧ s.admissions = a :: rest ∧ s.loading =
      none ∧ (a.load = true → s.aon.park = .no) ∧ s.sourceOpen a = true ∧ s.linkDead = false ∧ (s.getPart a.part).life = .exists_ ∧ (a.load = false ∨
      s.faults.marked = 0#144 ∧ (∀ p, p < 13 → (s.getPort p).marked = false)) ∧ a.load = true ∧ (s.getPart a.part).live = true) ∧
    (∃ (s : State) (a : Admission) (rest : List Admission) (host : HostRead) (u : State), u = { s with admissions := rest } ∧ host = .pcieError ∧
      s.admissions = a :: rest ∧ s.loading = none ∧ (a.load = true → s.aon.park = .no) ∧ s.sourceOpen a = true ∧ s.linkDead = false ∧ (s.getPart
      a.part).life = .exists_ ∧ (a.load = false ∨ s.faults.marked = 0#144 ∧ (∀ p, p < 13 → (s.getPort p).marked = false)) ∧ (a.load = false ∨
      (s.getPart a.part).live = false) ∧ a.source = 1) ∧
    (∃ (s : State) (a : Admission) (rest : List Admission) (he : Option MemUnit) (u : State) (m : _), u = { s with admissions := rest } ∧ he = some
      m ∧ s.admissions = a :: rest ∧ s.loading = none ∧ (a.load = true → s.aon.park = .no) ∧ s.sourceOpen a = true ∧ s.linkDead = false ∧ (s.getPart
      a.part).life = .exists_ ∧ (a.load = false ∨ s.faults.marked = 0#144 ∧ (∀ p, p < 13 → (s.getPort p).marked = false)) ∧ (a.load = false ∨
      (s.getPart a.part).live = false) ∧ a.source ≠ 1) ∧
    (∃ (s : State) (a : Admission) (rest : List Admission) (host : HostRead) (he : Option MemUnit) (ce : List MemUnit) (u : State) (img : List Byte)
      (i : Image) (v : Verdict141) (r : _) (ix : _) (n : _) (av : _), u = { s with admissions := rest } ∧ i = imageParse img ∧ v = s.judge a.part
      a.size img ∧ (a.source = 1 ∧ (∃ x, host = .ok x ∧ img = slice x 0 a.size) ∨ a.source ≠ 1 ∧ he = none ∧ ce = [] ∧ img = s.far.readN ((s.getPart
      a.part).hbmBase + a.addr) a.size) ∧ s.admissions = a :: rest ∧ s.loading = none ∧ (a.load = true → s.aon.park = .no) ∧ s.sourceOpen a = true ∧
      s.linkDead = false ∧ (s.getPart a.part).life = .exists_ ∧ (a.load = false ∨ s.faults.marked = 0#144 ∧ (∀ p, p < 13 → (s.getPort p).marked =
      false)) ∧ (a.load = false ∨ (s.getPart a.part).live = false) ∧ imageFailure img a.size = some (r, ix, n, av)) ∧
    (∃ (s : State) (a : Admission) (rest : List Admission) (host : HostRead) (he : Option MemUnit) (ce : List MemUnit) (u : State) (img : List Byte)
      (i : Image) (v : Verdict141) (r : _), u = { s with admissions := rest } ∧ i = imageParse img ∧ v = s.judge a.part a.size img ∧ (a.source = 1 ∧
      (∃ x, host = .ok x ∧ img = slice x 0 a.size) ∨ a.source ≠ 1 ∧ he = none ∧ ce = [] ∧ img = s.far.readN ((s.getPart a.part).hbmBase + a.addr)
      a.size) ∧ imageFailure img a.size = none ∧ s.admissions = a :: rest ∧ s.loading = none ∧ (a.load = true → s.aon.park = .no) ∧ s.sourceOpen a =
      true ∧ s.linkDead = false ∧ (s.getPart a.part).life = .exists_ ∧ (a.load = false ∨ s.faults.marked = 0#144 ∧ (∀ p, p < 13 → (s.getPort p).marked
      = false)) ∧ (a.load = false ∨ (s.getPart a.part).live = false) ∧ s.otherDie img = some r) ∧
    (∃ (s : State) (a : Admission) (rest : List Admission) (host : HostRead) (he : Option MemUnit) (ce : List MemUnit) (u : State) (img : List Byte)
      (i : Image) (v : Verdict141), u = { s with admissions := rest } ∧ i = imageParse img ∧ v = s.judge a.part a.size img ∧ (a.source = 1 ∧ (∃ x,
      host = .ok x ∧ img = slice x 0 a.size) ∨ a.source ≠ 1 ∧ he = none ∧ ce = [] ∧ img = s.far.readN ((s.getPart a.part).hbmBase + a.addr) a.size) ∧
      imageFailure img a.size = none ∧ s.admissions = a :: rest ∧ s.loading = none ∧ (a.load = true → s.aon.park = .no) ∧ s.sourceOpen a = true ∧
      s.linkDead = false ∧ (s.getPart a.part).life = .exists_ ∧ (a.load = false ∨ s.faults.marked = 0#144 ∧ (∀ p, p < 13 → (s.getPort p).marked =
      false)) ∧ (a.load = false ∨ (s.getPart a.part).live = false) ∧ s.otherDie img = none ∧ s.links.plan = none) ∧
    (∃ (s : State) (a : Admission) (rest : List Admission) (host : HostRead) (he : Option MemUnit) (ce : List MemUnit) (u : State) (img : List Byte)
      (i : Image) (v : Verdict141) (pl : _), u = { s with admissions := rest } ∧ i = imageParse img ∧ v = s.judge a.part a.size img ∧ (a.source = 1 ∧
      (∃ x, host = .ok x ∧ img = slice x 0 a.size) ∨ a.source ≠ 1 ∧ he = none ∧ ce = [] ∧ img = s.far.readN ((s.getPart a.part).hbmBase + a.addr)
      a.size) ∧ imageFailure img a.size = none ∧ s.admissions = a :: rest ∧ s.loading = none ∧ (a.load = true → s.aon.park = .no) ∧ s.sourceOpen a =
      true ∧ s.linkDead = false ∧ (s.getPart a.part).life = .exists_ ∧ (a.load = false ∨ s.faults.marked = 0#144 ∧ (∀ p, p < 13 → (s.getPort p).marked
      = false)) ∧ (a.load = false ∨ (s.getPart a.part).live = false) ∧ s.otherDie img = none ∧ s.links.plan = some pl ∧ [pl.size.x, pl.size.y,
      pl.size.z] ≠ i.size) ∧
    (∃ (s : State) (a : Admission) (rest : List Admission) (host : HostRead) (he : Option MemUnit) (ce : List MemUnit) (u : State) (img : List Byte)
      (i : Image) (v : Verdict141) (pl : _), u = { s with admissions := rest } ∧ i = imageParse img ∧ v = s.judge a.part a.size img ∧ (a.source = 1 ∧
      (∃ x, host = .ok x ∧ img = slice x 0 a.size) ∨ a.source ≠ 1 ∧ he = none ∧ ce = [] ∧ img = s.far.readN ((s.getPart a.part).hbmBase + a.addr)
      a.size) ∧ imageFailure img a.size = none ∧ s.admissions = a :: rest ∧ s.loading = none ∧ (a.load = true → s.aon.park = .no) ∧ s.sourceOpen a =
      true ∧ s.linkDead = false ∧ (s.getPart a.part).life = .exists_ ∧ (a.load = false ∨ s.faults.marked = 0#144 ∧ (∀ p, p < 13 → (s.getPort p).marked
      = false)) ∧ (a.load = false ∨ (s.getPart a.part).live = false) ∧ s.otherDie img = none ∧ s.links.plan = some pl ∧ [pl.size.x, pl.size.y,
      pl.size.z] = i.size ∧ inBox i.box pl.here = false) ∧
    (∃ (s : State) (a : Admission) (rest : List Admission) (host : HostRead) (he : Option MemUnit) (ce : List MemUnit) (u : State) (img : List Byte)
      (i : Image) (v : Verdict141) (pl : _), u = { s with admissions := rest } ∧ i = imageParse img ∧ v = s.judge a.part a.size img ∧ (a.source = 1 ∧
      (∃ x, host = .ok x ∧ img = slice x 0 a.size) ∨ a.source ≠ 1 ∧ he = none ∧ ce = [] ∧ img = s.far.readN ((s.getPart a.part).hbmBase + a.addr)
      a.size) ∧ imageFailure img a.size = none ∧ s.admissions = a :: rest ∧ s.loading = none ∧ (a.load = true → s.aon.park = .no) ∧ s.sourceOpen a =
      true ∧ s.linkDead = false ∧ (s.getPart a.part).life = .exists_ ∧ (a.load = false ∨ s.faults.marked = 0#144 ∧ (∀ p, p < 13 → (s.getPort p).marked
      = false)) ∧ (a.load = false ∨ (s.getPart a.part).live = false) ∧ s.otherDie img = none ∧ s.links.plan = some pl ∧ [pl.size.x, pl.size.y,
      pl.size.z] = i.size ∧ inBox i.box pl.here = true ∧ s.links.profile ≠ i.profile) ∧
    (∃ (s : State) (a : Admission) (rest : List Admission) (host : HostRead) (he : Option MemUnit) (ce : List MemUnit) (u : State) (img : List Byte)
      (i : Image) (v : Verdict141) (pl : _), u = { s with admissions := rest } ∧ i = imageParse img ∧ v = s.judge a.part a.size img ∧ (a.source = 1 ∧
      (∃ x, host = .ok x ∧ img = slice x 0 a.size) ∨ a.source ≠ 1 ∧ he = none ∧ ce = [] ∧ img = s.far.readN ((s.getPart a.part).hbmBase + a.addr)
      a.size) ∧ imageFailure img a.size = none ∧ s.admissions = a :: rest ∧ s.loading = none ∧ (a.load = true → s.aon.park = .no) ∧ s.sourceOpen a =
      true ∧ s.linkDead = false ∧ (s.getPart a.part).life = .exists_ ∧ (a.load = false ∨ s.faults.marked = 0#144 ∧ (∀ p, p < 13 → (s.getPort p).marked
      = false)) ∧ (a.load = false ∨ (s.getPart a.part).live = false) ∧ s.otherDie img = none ∧ s.links.plan = some pl ∧ [pl.size.x, pl.size.y,
      pl.size.z] = i.size ∧ inBox i.box pl.here = true ∧ s.links.profile = i.profile ∧ (s.sound a.part).length < i.fronds) ∧
    (∃ (s : State) (a : Admission) (rest : List Admission) (host : HostRead) (he : Option MemUnit) (ce : List MemUnit) (u : State) (img : List Byte)
      (i : Image) (v : Verdict141) (pl : _) (p : _), u = { s with admissions := rest } ∧ i = imageParse img ∧ v = s.judge a.part a.size img ∧
      (a.source = 1 ∧ (∃ x, host = .ok x ∧ img = slice x 0 a.size) ∨ a.source ≠ 1 ∧ he = none ∧ ce = [] ∧ img = s.far.readN ((s.getPart
      a.part).hbmBase + a.addr) a.size) ∧ imageFailure img a.size = none ∧ s.admissions = a :: rest ∧ s.loading = none ∧ (a.load = true → s.aon.park =
      .no) ∧ s.sourceOpen a = true ∧ s.linkDead = false ∧ (s.getPart a.part).life = .exists_ ∧ (a.load = false ∨ s.faults.marked = 0#144 ∧ (∀ p, p <
      13 → (s.getPort p).marked = false)) ∧ (a.load = false ∨ (s.getPart a.part).live = false) ∧ s.otherDie img = none ∧ s.links.plan = some pl ∧
      [pl.size.x, pl.size.y, pl.size.z] = i.size ∧ inBox i.box pl.here = true ∧ s.links.profile = i.profile ∧ i.fronds ≤ (s.sound a.part).length ∧ p <
      12 ∧ i.amount 5 p ≠ 0 ∧ (∀ k, k < p → i.amount 5 k ≠ 0 → (s.getPort k).marked = false ∧ (s.getPort k).state = .up ∧ s.isSelvage k = false) ∧
      ((s.getPort p).marked = true ∨ (s.getPort p).state = .retired)) ∧
    (∃ (s : State) (a : Admission) (rest : List Admission) (host : HostRead) (he : Option MemUnit) (ce : List MemUnit) (u : State) (img : List Byte)
      (i : Image) (v : Verdict141) (pl : _) (p : _), u = { s with admissions := rest } ∧ i = imageParse img ∧ v = s.judge a.part a.size img ∧
      (a.source = 1 ∧ (∃ x, host = .ok x ∧ img = slice x 0 a.size) ∨ a.source ≠ 1 ∧ he = none ∧ ce = [] ∧ img = s.far.readN ((s.getPart
      a.part).hbmBase + a.addr) a.size) ∧ imageFailure img a.size = none ∧ s.admissions = a :: rest ∧ s.loading = none ∧ (a.load = true → s.aon.park =
      .no) ∧ s.sourceOpen a = true ∧ s.linkDead = false ∧ (s.getPart a.part).life = .exists_ ∧ (a.load = false ∨ s.faults.marked = 0#144 ∧ (∀ p, p <
      13 → (s.getPort p).marked = false)) ∧ (a.load = false ∨ (s.getPart a.part).live = false) ∧ s.otherDie img = none ∧ s.links.plan = some pl ∧
      [pl.size.x, pl.size.y, pl.size.z] = i.size ∧ inBox i.box pl.here = true ∧ s.links.profile = i.profile ∧ i.fronds ≤ (s.sound a.part).length ∧ p <
      12 ∧ i.amount 5 p ≠ 0 ∧ (∀ k, k < p → i.amount 5 k ≠ 0 → (s.getPort k).marked = false ∧ (s.getPort k).state = .up ∧ s.isSelvage k = false) ∧
      (s.getPort p).marked = false ∧ (s.getPort p).state = .held) ∧
    (∃ (s : State) (a : Admission) (rest : List Admission) (host : HostRead) (he : Option MemUnit) (ce : List MemUnit) (u : State) (img : List Byte)
      (i : Image) (v : Verdict141) (pl : _) (p : _), u = { s with admissions := rest } ∧ i = imageParse img ∧ v = s.judge a.part a.size img ∧
      (a.source = 1 ∧ (∃ x, host = .ok x ∧ img = slice x 0 a.size) ∨ a.source ≠ 1 ∧ he = none ∧ ce = [] ∧ img = s.far.readN ((s.getPart
      a.part).hbmBase + a.addr) a.size) ∧ imageFailure img a.size = none ∧ s.admissions = a :: rest ∧ s.loading = none ∧ (a.load = true → s.aon.park =
      .no) ∧ s.sourceOpen a = true ∧ s.linkDead = false ∧ (s.getPart a.part).life = .exists_ ∧ (a.load = false ∨ s.faults.marked = 0#144 ∧ (∀ p, p <
      13 → (s.getPort p).marked = false)) ∧ (a.load = false ∨ (s.getPart a.part).live = false) ∧ s.otherDie img = none ∧ s.links.plan = some pl ∧
      [pl.size.x, pl.size.y, pl.size.z] = i.size ∧ inBox i.box pl.here = true ∧ s.links.profile = i.profile ∧ i.fronds ≤ (s.sound a.part).length ∧ p <
      12 ∧ i.amount 5 p ≠ 0 ∧ (∀ k, k < p → i.amount 5 k ≠ 0 → (s.getPort k).marked = false ∧ (s.getPort k).state = .up ∧ s.isSelvage k = false) ∧
      (s.getPort p).marked = false ∧ (s.getPort p).state ≠ .held ∧ ((s.getPort p).state ≠ .up ∨ s.isSelvage p = true)) ∧
    (∃ (s : State) (a : Admission) (rest : List Admission) (host : HostRead) (he : Option MemUnit) (ce : List MemUnit) (u : State) (img : List Byte)
      (i : Image) (v : Verdict141) (pl : _) (res : _) (idx : _), u = { s with admissions := rest } ∧ i = imageParse img ∧ v = s.judge a.part a.size
      img ∧ (a.source = 1 ∧ (∃ x, host = .ok x ∧ img = slice x 0 a.size) ∨ a.source ≠ 1 ∧ he = none ∧ ce = [] ∧ img = s.far.readN ((s.getPart
      a.part).hbmBase + a.addr) a.size) ∧ imageFailure img a.size = none ∧ (∀ p, p < 12 → i.amount 5 p ≠ 0 → (s.getPort p).marked = false ∧ (s.getPort
      p).state = .up ∧ s.isSelvage p = false) ∧ (∀ r k, k < 576 → r < res ∨ r = res ∧ k < idx → i.amount r k ≤ s.capacity a.part i r k) ∧ s.admissions
      = a :: rest ∧ s.loading = none ∧ (a.load = true → s.aon.park = .no) ∧ s.sourceOpen a = true ∧ s.linkDead = false ∧ (s.getPart a.part).life =
      .exists_ ∧ (a.load = false ∨ s.faults.marked = 0#144 ∧ (∀ p, p < 13 → (s.getPort p).marked = false)) ∧ (a.load = false ∨ (s.getPart a.part).live
      = false) ∧ s.otherDie img = none ∧ s.links.plan = some pl ∧ [pl.size.x, pl.size.y, pl.size.z] = i.size ∧ inBox i.box pl.here = true ∧
      s.links.profile = i.profile ∧ i.fronds ≤ (s.sound a.part).length ∧ res < 9 ∧ idx < 576 ∧ s.capacity a.part i res idx < i.amount res idx) ∧
    (∃ (s : State) (a : Admission) (rest : List Admission) (host : HostRead) (he : Option MemUnit) (ce : List MemUnit) (u : State) (img : List Byte)
      (i : Image) (v : Verdict141) (pl : _), u = { s with admissions := rest } ∧ i = imageParse img ∧ v = s.judge a.part a.size img ∧ (a.source = 1 ∧
      (∃ x, host = .ok x ∧ img = slice x 0 a.size) ∨ a.source ≠ 1 ∧ he = none ∧ ce = [] ∧ img = s.far.readN ((s.getPart a.part).hbmBase + a.addr)
      a.size) ∧ imageFailure img a.size = none ∧ (∀ p, p < 12 → i.amount 5 p ≠ 0 → (s.getPort p).marked = false ∧ (s.getPort p).state = .up ∧
      s.isSelvage p = false) ∧ (∀ res idx, res < 9 → idx < 576 → i.amount res idx ≤ s.capacity a.part i res idx) ∧ s.admissions = a :: rest ∧
      s.loading = none ∧ (a.load = true → s.aon.park = .no) ∧ s.sourceOpen a = true ∧ s.linkDead = false ∧ (s.getPart a.part).life = .exists_ ∧
      (a.load = false ∨ s.faults.marked = 0#144 ∧ (∀ p, p < 13 → (s.getPort p).marked = false)) ∧ (a.load = false ∨ (s.getPart a.part).live = false) ∧
      s.otherDie img = none ∧ s.links.plan = some pl ∧ [pl.size.x, pl.size.y, pl.size.z] = i.size ∧ inBox i.box pl.here = true ∧ s.links.profile =
      i.profile ∧ i.fronds ≤ (s.sound a.part).length) ∧
    (∃ (s : State) (a : Admission) (rest : List Admission) (host : HostRead) (he : Option MemUnit) (ce : List MemUnit) (u : State) (img : List Byte)
      (i : Image) (v : Verdict141), u = { s with admissions := rest } ∧ i = imageParse img ∧ v = s.judge a.part a.size img ∧ (a.source = 1 ∧ (∃ x,
      host = .ok x ∧ img = slice x 0 a.size) ∨ a.source ≠ 1 ∧ he = none ∧ ce = [] ∧ img = s.far.readN ((s.getPart a.part).hbmBase + a.addr) a.size) ∧
      s.admissions = a :: rest ∧ s.loading = none ∧ (a.load = true → s.aon.park = .no) ∧ s.sourceOpen a = true ∧ s.linkDead = false ∧ (s.getPart
      a.part).life = .exists_ ∧ (a.load = false ∨ s.faults.marked = 0#144 ∧ (∀ p, p < 13 → (s.getPort p).marked = false)) ∧ (a.load = false ∨
      (s.getPart a.part).live = false) ∧ (a.load = false ∨ v.st ≠ .ok)) ∧
    (∃ (s : State) (a : Admission) (rest : List Admission) (host : HostRead) (he : Option MemUnit) (ce : List MemUnit) (u : State) (img : List Byte)
      (i : Image) (v : Verdict141), u = { s with admissions := rest } ∧ i = imageParse img ∧ v = s.judge a.part a.size img ∧ (a.source = 1 ∧ (∃ x,
      host = .ok x ∧ img = slice x 0 a.size) ∨ a.source ≠ 1 ∧ he = none ∧ ce = [] ∧ img = s.far.readN ((s.getPart a.part).hbmBase + a.addr) a.size) ∧
      v.st = .ok ∧ s.admissions = a :: rest ∧ s.loading = none ∧ (a.load = true → s.aon.park = .no) ∧ s.sourceOpen a = true ∧ s.linkDead = false ∧
      (s.getPart a.part).life = .exists_ ∧ (a.load = false ∨ s.faults.marked = 0#144 ∧ (∀ p, p < 13 → (s.getPort p).marked = false)) ∧ (a.load = false
      ∨ (s.getPart a.part).live = false) ∧ a.load = true ∧ (∃ f ∈ (s.fronds a.part).take i.fronds, s.getDom (frondGroup f) ≠ .on) ∧ s.aon.phase = .up) ∧
    (∃ (s : State) (a : Admission) (rest : List Admission) (host : HostRead) (he : Option MemUnit) (ce : List MemUnit) (u : State) (img : List Byte)
      (i : Image) (v : Verdict141), u = { s with admissions := rest } ∧ i = imageParse img ∧ v = s.judge a.part a.size img ∧ (a.source = 1 ∧ (∃ x,
      host = .ok x ∧ img = slice x 0 a.size) ∨ a.source ≠ 1 ∧ he = none ∧ ce = [] ∧ img = s.far.readN ((s.getPart a.part).hbmBase + a.addr) a.size) ∧
      v.st = .ok ∧ (∀ r, r < 4 → s.ctlGoes r) ∧ s.admissions = a :: rest ∧ s.loading = none ∧ (a.load = true → s.aon.park = .no) ∧ s.sourceOpen a =
      true ∧ s.linkDead = false ∧ (s.getPart a.part).life = .exists_ ∧ (a.load = false ∨ s.faults.marked = 0#144 ∧ (∀ p, p < 13 → (s.getPort p).marked
      = false)) ∧ (a.load = false ∨ (s.getPart a.part).live = false) ∧ a.load = true ∧ (∀ f ∈ (s.fronds a.part).take i.fronds, s.getDom (frondGroup f)
      = .on) ∧ s.aon.phase = .up ∧ (s.getPart a.part).serve.waiting = [] ∧ Memory.wf s.store) ∧
    (∃ (s : State) (g : Nat) (l : Loading), s.loading = some l ∧ (s.getDom g = .wakingOff ∨ s.getDom g = .wakingRetain) ∧ s.ctxWaits = [] ∧
      (s.aon.park ≠ .no ∨ ∃ f ∈ (s.fronds l.adm.part).take l.fronds, frondGroup f ≠ g ∧ s.getDom (frondGroup f) ≠ .on)) ∧
    (∃ (s : State) (g : Nat) (l : Loading), (∀ r, r < 4 → s.ctlGoes r) ∧ s.loading = some l ∧ (s.getDom g = .wakingOff ∨ s.getDom g = .wakingRetain)
      ∧ s.ctxWaits = [] ∧ s.aon.park = .no ∧ (∀ f ∈ (s.fronds l.adm.part).take l.fronds, frondGroup f ≠ g → s.getDom (frondGroup f) = .on) ∧
      (s.getPart l.adm.part).serve.waiting = []) ∧
    (∃ (s : State) (a : Admission) (rest : List Admission) (g : _), s.admissions = a :: rest ∧ s.loading = none ∧ a.load = true ∧ a.source = 1 ∧
      s.aon.park = .no ∧ s.sourceOpen a = true ∧ s.linkDead = false ∧ (s.getPart a.part).life = .exists_ ∧ (s.getPart a.part).live = false ∧ g < 144 ∧
      s.faults.marked = 1#144 <<< g ∧ s.faults.retired.getLsbD g = false ∧ (∀ p, p < 13 → (s.getPort p).marked = false)) ∧
    (∃ (s : State) (a : Admission) (rest : List Admission) (p : _), (∀ k, k ≠ p → (s.getPort k).marked = false) ∧ s.admissions = a :: rest ∧
      s.loading = none ∧ a.load = true ∧ a.source = 1 ∧ s.aon.park = .no ∧ s.sourceOpen a = true ∧ s.linkDead = false ∧ (s.getPart a.part).life =
      .exists_ ∧ (s.getPart a.part).live = false ∧ p < 13 ∧ s.faults.marked = 0#144 ∧ (s.getPort p).marked = true ∧ (s.getPort p).state ≠ .retired ∧
      (∀ q, q < 64 → (s.getPart q).live = true → (s.getPart q).image.amount 5 p = 0)) :=
  ⟨⟨held 1 (cmd 0x0201 0 (loadFrom 1 1792 4096)) ({ emptied with dies := { emptied.dies with link := [(0, .lost)] } }), 1, cmd 0x0201 0 (loadFrom 1
      1792 4096), loadFrom 1 1792 4096, true, .patternLoad 1, _, rfl, (by exact .inl ⟨rfl, rfl, commanded_of (by decide +kernel)⟩), by decide +kernel⟩,
    ⟨held 4 (cmd 0x0202 0 (loadFrom 3 1792 4096)) (emptied), 4, cmd 0x0202 0 (loadFrom 3 1792 4096), loadFrom 3 1792 4096, false, .patternAdmit 4,
      _, rfl, (by exact .inr ⟨rfl, rfl, commanded_of (by decide +kernel)⟩), by decide +kernel⟩,
    ⟨held 1 { cmd 0x0202 0 (loadFrom 1 1792 4096) with via := .frame ⟨0, 1, 1⟩ } emptied, 1,
      { cmd 0x0202 0 (loadFrom 1 1792 4096) with via := .frame ⟨0, 1, 1⟩ }, loadFrom 1 1792 4096, false, .patternAdmit 1, _, rfl,
      (by exact .inr ⟨rfl, rfl, commanded_of (by decide +kernel)⟩), by decide +kernel⟩,
    ⟨held 4 (cmd 0x0202 0 (loadFrom 2 1792 1073740096)) (emptied), 4, cmd 0x0202 0 (loadFrom 2 1792 1073740096), loadFrom 2 1792 1073740096, false,
      .patternAdmit 4, _, rfl, (by exact .inr ⟨rfl, rfl, commanded_of (by decide +kernel)⟩), by decide +kernel⟩,
    ⟨held 4 (cmd 0x0202 0 (loadFrom 2 1792 1073740032)) ({ emptied with admissions := List.replicate 8 (turn true) }), 4, cmd 0x0202 0 (loadFrom 2
      1792 1073740032), loadFrom 2 1792 1073740032, false, .patternAdmit 4, _, rfl, (by exact .inr ⟨rfl, rfl, commanded_of (by decide +kernel)⟩),
      by decide +kernel⟩,
    ⟨held 1 (cmd 0x0201 0 (loadFrom 1 1792 4096)) ({ emptied with admissions := List.replicate 7 (turn true) }), 1, cmd 0x0201 0 (loadFrom 1 1792
      4096), loadFrom 1 1792 4096, true, .patternLoad 1, _, rfl, (by exact .inl ⟨rfl, rfl, commanded_of (by decide +kernel)⟩), by decide +kernel⟩,
    ⟨held 1 (cmd 0x0201 0 (loadFrom 1 1792 4096)) ({ emptied with aon := { emptied.aon with park := .parked } }), 1, cmd 0x0201 0 (loadFrom 1 1792
      4096), loadFrom 1 1792 4096, _, .patternLoad 1, _, rfl, rfl, (by exact .inl ⟨rfl, rfl, commanded_of (by decide +kernel)⟩), by decide +kernel⟩,
    ⟨running, (by exact .inl rfl)⟩,
    ⟨{ awake with dies := { awake.dies with link := [(5, .lost)] } }, turn true, [], _, rfl, by decide +kernel⟩,
    ⟨part 0 { life := .never } (admitting true), turn true, [], _, rfl, by decide +kernel⟩,
    ⟨part 0 { life := .destroyed, destroyedBy := { ch := 1, tag := 3, opcode := 0x0102 } } (admitting true), turn true, [], _, rfl,
      by decide +kernel⟩,
    ⟨part 0 part0 (admitting true), turn true, [], _, rfl, by decide +kernel⟩,
    ⟨admitting false, turn false, [], _, _, rfl, rfl, by decide +kernel⟩,
    ⟨{ part 0 { part0 with pat := .empty } awake with admissions := [{ turn false with source := 2 }], dom := (List.range 12).map (fun k => (144 + k, .on)) ++ [(174, .on)] },
      { turn false with source := 2 }, [], _, _, .hbm 5 0, rfl, rfl, by decide +kernel⟩,
    ⟨admitting false, turn false, [], .ok (1 :: List.replicate 1791 0), none, [], _, 1 :: List.replicate 1791 0, _, _, 0x0101, 0, 0, 0, rfl, rfl,
      rfl, (by exact .inl ⟨rfl, _, rfl, by decide +kernel⟩), by decide +kernel⟩,
    ⟨{ admitting true with dies := State.reset.dies }, turn true, [], .ok imageBytes, none, [], _, imageBytes, _, _, 0, rfl, rfl, rfl,
      (by exact .inl ⟨rfl, imageBytes, rfl, by decide +kernel⟩), (by exact image_passes), by decide +kernel⟩,
    ⟨{ admitting true with links := { (admitting true).links with plan := none } }, turn true, [], .ok imageBytes, none, [], _, imageBytes, _, _,
      rfl, rfl, rfl, (by exact .inl ⟨rfl, imageBytes, rfl, by decide +kernel⟩), (by exact image_passes), by decide +kernel⟩,
    ⟨planned (admitting true) { plan1 with size := ⟨3, 3, 4⟩ }, turn true, [], .ok imageBytes, none, [], _, imageBytes, _, _,
      { plan1 with size := ⟨3, 3, 4⟩ }, rfl, rfl, rfl, (by exact .inl ⟨rfl, imageBytes, rfl, by decide +kernel⟩), (by exact image_passes),
      by decide +kernel⟩,
    ⟨planned (admitting true) { plan1 with here := ⟨1, 3, 1⟩ }, turn true, [], .ok imageBytes, none, [], _, imageBytes, _, _,
      { plan1 with here := ⟨1, 3, 1⟩ }, rfl, rfl, rfl, (by exact .inl ⟨rfl, imageBytes, rfl, by decide +kernel⟩), (by exact image_passes),
      by decide +kernel⟩,
    ⟨{ admitting true with links := { (admitting true).links with profile := 1 } }, turn true, [], .ok imageBytes, none, [], _, imageBytes, _, _,
      plan1, rfl, rfl, rfl, (by exact .inl ⟨rfl, imageBytes, rfl, by decide +kernel⟩), (by exact image_passes), by decide +kernel⟩,
    ⟨part 0 { life := .exists_, groups := 0, hbmGib := 1 } (admitting true), turn true, [], .ok imageBytes, none, [], _, imageBytes, _, _, plan1,
      rfl, rfl, rfl, (by exact .inl ⟨rfl, imageBytes, rfl, by decide +kernel⟩), (by exact image_passes), by decide +kernel⟩,
    ⟨portIn false { state := .up, marked := true }, turn false, [], .ok linkImage, none, [], _, linkImage, _, _, plan1, 0, rfl, rfl, rfl,
      (by exact .inl ⟨rfl, linkImage, rfl, by decide +kernel⟩), (by exact linkImage_passes), by decide +kernel⟩,
    ⟨portIn true { state := .held }, turn true, [], .ok linkImage, none, [], _, linkImage, _, _, plan1, 0, rfl, rfl, rfl,
      (by exact .inl ⟨rfl, linkImage, rfl, by decide +kernel⟩), (by exact linkImage_passes), by decide +kernel⟩,
    ⟨portIn true { state := .lost }, turn true, [], .ok linkImage, none, [], _, linkImage, _, _, plan1, 0, rfl, rfl, rfl,
      (by exact .inl ⟨rfl, linkImage, rfl, by decide +kernel⟩), (by exact linkImage_passes), by decide +kernel⟩,
    ⟨part 0 { life := .exists_, groups := 1, hbmGib := 0 } (admitting true), turn true, [], .ok imageBytes, none, [], _, imageBytes, _, _, plan1, 3,
      0, rfl, rfl, rfl, (by exact .inl ⟨rfl, imageBytes, rfl, by decide +kernel⟩), (by exact image_passes), (by exact image_ports _),
      (by exact fun r k _ => fits_before r k), by decide +kernel⟩,
    ⟨admitting true, turn true, [], .ok imageBytes, none, [], _, imageBytes, _, _, plan1, rfl, rfl, rfl,
      (by exact .inl ⟨rfl, imageBytes, rfl, by decide +kernel⟩), (by exact image_passes), (by exact image_ports _),
      (by exact fun r k _ _ => fits_of (by decide +kernel) r k), by decide +kernel⟩,
    ⟨admitting false, turn false, [], .ok imageBytes, none, [], _, imageBytes, _, _, rfl, rfl, rfl,
      (by exact .inl ⟨rfl, imageBytes, rfl, by decide +kernel⟩), by decide +kernel⟩,
    ⟨admitting true, turn true, [], .ok imageBytes, none, [], _, imageBytes, _, _, rfl, rfl, rfl,
      (by exact .inl ⟨rfl, imageBytes, rfl, by decide +kernel⟩), (by exact judge_image (by decide +kernel) (by decide +kernel)), by decide +kernel⟩,
    ⟨awake, turn true, [], .ok imageBytes, none, [], _, imageBytes, _, _, rfl, rfl, rfl, (by exact .inl ⟨rfl, imageBytes, rfl, by decide +kernel⟩),
      (by exact judge_image (by decide +kernel) (by decide +kernel)), ctlGo_of (by decide +kernel), by decide +kernel⟩,
    ⟨{ awake with admissions := [], loading := some loading0, dom := [(0, .wakingOff), (173, .off)], aon := { awake.aon with park := .waking } }, 0,
      loading0, by decide +kernel⟩,
    ⟨{ awake with admissions := [], loading := some loading0, dom := [(0, .wakingOff), (173, .off)] }, 0, loading0, ctlGo_of (by decide +kernel),
      by decide +kernel⟩,
    ⟨{ admitting true with faults := { up.faults with marked := 1 } }, turn true, [], 0, by decide +kernel⟩,
    ⟨portIn true { state := .up, marked := true }, turn true, [], 0,
      (by exact tab_others (P := fun x : Port => x.marked = false) rfl (by decide +kernel)), by decide +kernel⟩⟩


/-- A running package whose partition 0 halts. -/
def halting (v : Serve) (c : List (Nat × Ctx)) : State :=
  part 0 { part0 with run := { part0.run with halt := some .collAbort, haltAt := 999, step := 4 }, serve := v } (withCtx c)
/-- Bytes of a TCB. -/
def tcb0 : Tcb := { cfgVer := 1, scaleMin := -32, seed := 2 ^ 64 - 1, updates := 3, b1Pow := 0x3F000000#32, b2Pow := 0x3F800000#32 }
/-- States and operands that meet the hypotheses of PatternStartAndHalt, clause by clause. -/
theorem witness_PatternStartAndHalt :
    (∃ (s : State) (ch : Nat) (h : Held) (b : List Byte) (q : Partition), Commanded s 0x0203 ch h b ∧ q = s.getPart h.part ∧ s.linkDead = true) ∧
    (∃ (s : State) (ch : Nat) (h : Held) (b : List Byte) (q : Partition), Commanded s 0x0203 ch h b ∧ q = s.getPart h.part ∧ s.linkDead = false ∧
      q.pat ≠ .loaded) ∧
    (∃ (s : State) (ch : Nat) (h : Held) (b : List Byte) (q : Partition), Commanded s 0x0203 ch h b ∧ q = s.getPart h.part ∧ s.linkDead = false ∧
      q.pat = .loaded ∧ (q.twin.copy = .receiving ∨ q.twin.copy = .failed)) ∧
    (∃ (s : State) (ch : Nat) (h : Held) (b : List Byte) (q : Partition), Commanded s 0x0203 ch h b ∧ q = s.getPart h.part ∧ s.linkDead = false ∧
      q.pat = .loaded ∧ q.twin.landing = false ∧ (fld b 0 8 < s.sync.stitch + 1024 ∨ tcbOk (s.tcbBytes h.part) (q.image.amount 4 0) = false)) ∧
    (∃ (s : State) (ch : Nat) (h : Held) (b : List Byte) (q : Partition), Commanded s 0x0203 ch h b ∧ q = s.getPart h.part ∧ s.linkDead = false ∧
      q.pat = .loaded ∧ q.twin.landing = false ∧ s.sync.stitch + 1024 ≤ fld b 0 8 ∧ tcbOk (s.tcbBytes h.part) (q.image.amount 4 0) = true ∧
      q.image.fronds ≤ (s.fronds h.part).length) ∧
    (∃ (b : List Byte) (t : Tcb), t = Tcb.parse b ∧ t.updates = 0 ∧ b.length = 256) ∧
    (∃ (b : List Byte) (t : Tcb), t = Tcb.parse b ∧ b.length = 256 ∧ t.updates ≠ 0) ∧
    (∃ (s : State) (ch : Nat) (h : Held) (b : List Byte), Commanded s 0x0204 ch h b ∧ ((s.getPart h.part).live = false ∨ (s.getPart h.part).run.halt
      ≠ none)) ∧
    (∃ (s : State) (ch : Nat) (h : Held) (b : List Byte), Commanded s 0x0204 ch h b ∧ (s.getPart h.part).live = true ∧ (s.getPart h.part).run.halt =
      none) ∧
    (∃ (s : State) (p : Nat) (st : Status) (q : Partition), q = s.getPart p ∧ q.run.halt = some st ∧ q.live = true ∧ q.run.haltAt < s.sync.stitch ∧
      q.run.committing = false ∧ q.serve.sealed_ = [] ∧ q.serve.forming = []) ∧
    (∃ (s : State) (p : Nat) (st : Status) (q : Partition) (bt : Batch) (row : BatchRow) (c : Ctx) (u : State), q = s.getPart p ∧ c = s.getCtx
      row.entry ∧ u = s.serveTo p c.hostReq c.req c.reqPart (serveRecord 3 5 0 (handleOf row.entry c) c.tokenIn 0 c.cookie) ∧ q.run.halt = some st ∧
      q.live = true ∧ q.run.haltAt < s.sync.stitch ∧ q.run.committing = false ∧ q.serve.sealed_ = [bt] ∧ bt.rows = [row] ∧ q.serve.completed ≤ bt.seq
      ∧ q.serve.forming = [] ∧ c.state = .batched) ∧
    (∃ (s : State) (p : Nat) (st : Status) (q : Partition) (w : Nat) (i : Nat) (c : Ctx) (u : State), q = s.getPart p ∧ c = s.getCtx i ∧ u =
      s.serveTo p c.hostReq c.req c.reqPart (serveRecord 3 4 0 (handleOf i c) c.tokenIn 0 c.cookie) ∧ q.run.halt = some st ∧ q.live = true ∧
      q.run.haltAt < s.sync.stitch ∧ q.run.committing = false ∧ q.serve.sealed_ = [] ∧ q.serve.forming = [(w, [i])]) ∧
    (∃ (s : State) (p : Nat), ((s.getPart p).run.halt = none ∨ (s.getPart p).live = false ∨ s.sync.stitch ≤ (s.getPart p).run.haltAt ∨ (s.getPart
      p).run.committing = true)) :=
  ⟨⟨held 4 (cmd 0x0203 0 (record 8 [⟨0, 8, 3000⟩])) ({ ranks .loaded with dies := { running.dies with link := [(5, .lost)] } }), 4, cmd 0x0203 0
      (record 8 [⟨0, 8, 3000⟩]), record 8 [⟨0, 8, 3000⟩], _, commanded_of (by decide +kernel), rfl, by decide +kernel⟩,
    ⟨held 4 (cmd 0x0203 0 (record 8 [⟨0, 8, 3000⟩])) (running), 4, cmd 0x0203 0 (record 8 [⟨0, 8, 3000⟩]), record 8 [⟨0, 8, 3000⟩], _, commanded_of
      (by decide +kernel), rfl, by decide +kernel⟩,
    ⟨held 4 (cmd 0x0203 0 (record 8 [⟨0, 8, 3000⟩])) (part 0 { part0 with pat := .loaded, twin := { part0.twin with copy := .receiving } } running),
      4, cmd 0x0203 0 (record 8 [⟨0, 8, 3000⟩]), record 8 [⟨0, 8, 3000⟩], _, commanded_of (by decide +kernel), rfl, by decide +kernel⟩,
    ⟨held 4 (cmd 0x0203 0 (record 8 [⟨0, 8, 2023⟩])) (ranks .loaded), 4, cmd 0x0203 0 (record 8 [⟨0, 8, 2023⟩]), record 8 [⟨0, 8, 2023⟩], _,
      commanded_of (by decide +kernel), rfl, by decide +kernel⟩,
    ⟨held 4 (cmd 0x0203 0 (record 8 [⟨0, 8, 2024⟩])) (ranks .loaded), 4, cmd 0x0203 0 (record 8 [⟨0, 8, 2024⟩]), record 8 [⟨0, 8, 2024⟩], _,
      commanded_of (by decide +kernel), rfl, by decide +kernel⟩,
    ⟨leBytes 256 1, _, rfl, (by exact by decide +kernel), by decide +kernel⟩,
    ⟨tcb0.bytes, _, rfl, by decide +kernel⟩,
    ⟨held 4 (cmd 0x0204 0 ([])) (ranks .loaded), 4, cmd 0x0204 0 ([]), [], commanded_of (by decide +kernel), by decide +kernel⟩,
    ⟨held 4 (cmd 0x0204 0 ([])) (running), 4, cmd 0x0204 0 ([]), [], commanded_of (by decide +kernel), by decide +kernel⟩,
    ⟨halting { quota := 4 } [], 0, .collAbort, _, rfl, by decide +kernel⟩,
    ⟨halting { quota := 4, sealed_ := [batch1] } [(1, { ctx0 with state := .batched, hostReq := true })], 0, .collAbort, _, batch1, row1, _, _, rfl,
      rfl, rfl, by decide +kernel⟩,
    ⟨halting { quota := 4, forming := [(3, [1])] } [(1, { ctx0 with state := .ready, req := ⟨0, 1, 1⟩ })], 0, .collAbort, _, 3, 1, _, _, rfl, rfl,
      rfl, by decide +kernel⟩,
    ⟨running, 0, by decide +kernel⟩⟩

/-- States and operands that meet the hypotheses of StepsBeginAtTheirBase, clause by clause. -/
theorem witness_StepsBeginAtTheirBase :
    (∃ (s : State) (p : Nat) (n : Nat) (base : Nat) (c : Instr) (q : Partition), q = s.getPart p ∧ ((c = .patternRunStart p ∧ q.pat = .armed ∧
      q.run.start ≤ s.sync.stitch ∧ n = 0 ∧ base = q.run.start) ∨ (c = .stepBegin p ∧ q.pat = .running ∧ q.run.decided = true ∧ q.run.next = some base
      ∧ base ≤ s.sync.stitch ∧ n = q.run.step + 1)) ∧ q.twin.soloNext = false) ∧
    (∃ (s : State) (p : Nat) (n : Nat) (base : Nat) (c : Instr) (q : Partition), q = s.getPart p ∧ ((c = .patternRunStart p ∧ q.pat = .armed ∧
      q.run.start ≤ s.sync.stitch ∧ n = 0 ∧ base = q.run.start) ∨ (c = .stepBegin p ∧ q.pat = .running ∧ q.run.decided = true ∧ q.run.next = some base
      ∧ base ≤ s.sync.stitch ∧ n = q.run.step + 1)) ∧ q.twin.soloNext = true) ∧
    (∃ (s : State) (p : Nat) (q : Partition), q = s.getPart p ∧ (q.pat ≠ .armed ∨ s.sync.stitch < q.run.start)) ∧
    (∃ (s : State) (p : Nat) (q : Partition), q = s.getPart p ∧ (q.pat ≠ .running ∨ q.run.decided = false ∨ q.run.next = none ∨ (∃ b, q.run.next =
      some b ∧ s.sync.stitch < b))) :=
  ⟨⟨part 0 { part0 with run := { part0.run with decided := true, next := some 1000, step := 4, slip := 3, maxSlip := 3 } } running, 0, 5, 1000,
      .stepBegin 0, _, rfl, by decide +kernel⟩,
    ⟨part 0 { part0 with pat := .armed, run := { start := 1000 }, twin := { part0.twin with soloNext := true } } running, 0, 0, 1000,
      .patternRunStart 0, _, rfl, by decide +kernel⟩,
    ⟨part 0 { part0 with pat := .armed, run := { start := 1001 } } running, 0, _, rfl, by decide +kernel⟩,
    ⟨running, 0, _, rfl, (by exact .inr (.inl (by decide +kernel)))⟩⟩

/-- States and operands that meet the hypotheses of RecordsRoundTrip, clause by clause. -/
theorem witness_RecordsRoundTrip :
    (∃ (t : Tcb), t.cfgVer = 1 ∧ -128 ≤ t.scaleInit ∧ t.scaleInit ≤ 127 ∧ -128 ≤ t.scaleMin ∧ t.scaleMin ≤ 127 ∧ -128 ≤ t.scaleMax ∧ t.scaleMax ≤
      127 ∧ -128 ≤ t.scaleExp ∧ t.scaleExp ≤ 127 ∧ t.skipHalt < 2 ^ 8 ∧ t.earlyShareExp < 2 ^ 8 ∧ t.growth < 2 ^ 32 ∧ t.earlyRun < 2 ^ 32 ∧ t.warmup <
      2 ^ 32 ∧ t.decayEnd < 2 ^ 32 ∧ t.seed < 2 ^ 64 ∧ t.stepBase < 2 ^ 64 ∧ t.ringOffset < 2 ^ 64 ∧ t.slotBytes < 2 ^ 64 ∧ t.skipRun < 2 ^ 8 ∧
      t.cleanRun < 2 ^ 32 ∧ t.updates < 2 ^ 64 ∧ t.committedStep < 2 ^ 64 ∧ t.commits < 2 ^ 64 ∧ t.skipsNonfinite < 2 ^ 64 ∧ t.skipsVoid < 2 ^ 64 ∧
      t.lastOutcome < 2 ^ 8) ∧
    (∃ (a : Ann) (k : Nat), a.effective < 2 ^ 64 ∧ a.seq < 2 ^ 32 ∧ a.origin.x < 256 ∧ a.origin.y < 256 ∧ a.origin.z < 256 ∧ a.atype < 256 ∧
      a.body.length = 112 ∧ k < a.effective ∧ a.due = a.effective) :=
  ⟨⟨{ cfgVer := 1, scaleMin := -128, scaleMax := 127, seed := 2 ^ 64 - 1, updates := 2 ^ 64 - 1, skipHalt := 255 }, by decide +kernel⟩,
    ⟨{ effective := 2 ^ 64 - 1, seq := 2 ^ 32 - 1, origin := ⟨255, 255, 255⟩, atype := 255, body := List.replicate 112 7, due := 2 ^ 64 - 1 }, 2 ^
      64 - 2, by decide +kernel⟩⟩


/-- The parameters of a regulator of HBM. -/
def regulate0 (rate depth : Nat) : List Byte := record 16 [⟨0, 1, 1⟩, ⟨1, 1, 1⟩, ⟨4, 4, rate⟩, ⟨8, 4, depth⟩]
/-- A running package with regulator settings that wait. -/
def waitingSets (l : List RegSet) : State := { held 1 { cmd 0x0901 0 [] with stepped := true } running with regulate := l }
/-- A setting of partition 0's regulator. -/
def set0 : RegSet := { ch := 1, at_ := 999, part := 0, tier := 1, on := true, rate := 8, depth := 128 }
/-- A piece that waits for the HBM regulator. -/
def piece0 : HeldPiece := { tier := 1, die := 2, frond := 0, stream := 1, burst := 0, units := 32 }
/-- A running package whose partition 0 holds a piece before this regulator. -/
def regulated (r : Regulator) : State := part 0 { part0 with heldPieces := [piece0], regHbm := r } running
/-- A package whose memories are ON. -/
def memory : State := { running with dom := (0, .on) :: (List.range 30).map fun k => (144 + k, .on) }
/-- A MEM_FILL of 8 KiB in progress. -/
def fill0 : Fill := { ch := 4, mode := 0, dstSpace := 1, srcSpace := 0, poison := 0, value := 0x12345678, dst := 4096, src := 0, length := 8192 }
/-- A package that runs it. -/
def filling (f : Fill) : State :=
  part 0 { part0 with fill := some f } (held 4 { cmd 0x0902 0 [] with stepped := true, acked := true } { memory with far := [(4095, 9), (7000, 4)] })
/-- A package whose pseudo-channel 40 has this fault record. -/
def faulty (x : FaultUnit) : State := { running with faults := { running.faults with unit := [(unitKey 5 40, x)], policy := [(5, (60, 3))] } }
/-- States and operands that meet the hypotheses of RegulatorsApplyAndRelease, clause by clause. -/
theorem witness_RegulatorsApplyAndRelease :
    (∃ (s : State) (ch : Nat) (h : Held) (b : List Byte), Commanded s 0x0901 ch h b ∧ regulateOk b = false) ∧
    (∃ (s : State) (ch : Nat) (h : Held) (b : List Byte), Commanded s 0x0901 ch h b ∧ regulateOk b = true) ∧
    (∃ (s : State) (e : RegSet) (later : List RegSet) (q : Partition) (r : Regulator) (r' : Regulator), q = s.getPart e.part ∧ r = (if e.tier = 1
      then q.regHbm else q.regPeat) ∧ (r' =
      { on := e.on, rate := e.rate, depth := e.depth, tokens := if r.on = true then r.tokens.map (fun t => min t (e.depth / 4)) else List.replicate 4 (e.depth / 4) })
      ∧ s.regulate = e :: later ∧ e.at_ < s.sync.stitch ∧ (∀ x ∈ later, s.sync.stitch ≤ x.at_) ∧ q.life = .exists_) ∧
    (∃ (s : State) (e : RegSet) (later : List RegSet) (q : Partition) (r : Regulator) (r' : Regulator), q = s.getPart e.part ∧ r = (if e.tier = 1
      then q.regHbm else q.regPeat) ∧ (r' =
      { on := e.on, rate := e.rate, depth := e.depth, tokens := if r.on = true then r.tokens.map (fun t => min t (e.depth / 4)) else List.replicate 4 (e.depth / 4) })
      ∧ s.regulate = e :: later ∧ e.at_ < s.sync.stitch ∧ (∀ x ∈ later, s.sync.stitch ≤ x.at_) ∧ (q.life = .never ∨ q.life = .destroyed)) ∧
    (∃ (s : State) (e : RegSet) (e' : RegSet) (q : Partition), q = s.getPart e.part ∧ s.regulate = [e, e'] ∧ e.at_ < s.sync.stitch ∧ e'.at_ <
      s.sync.stitch ∧ e.part = e'.part ∧ e.tier = 2 ∧ e'.tier = 2 ∧ q.life = .exists_ ∧ e.on = true ∧ e'.on = true ∧ q.regPeat.on = false) ∧
    (∃ (s : State), (∀ e ∈ s.regulate, s.sync.stitch ≤ e.at_)) ∧
    (∃ (s : State) (p : Nat) (tier : Nat) (die : Nat) (x : HeldPiece) (q : Partition) (r : Regulator), q = s.getPart p ∧ r = (if tier = 1 then
      q.regHbm else q.regPeat) ∧ q.heldPieces.find? (fun y => y.tier == tier && y.die == die) = some x ∧ r.on = true ∧ x.units ≤ nth 0 r.tokens die ∧
      die < r.tokens.length) ∧
    (∃ (s : State) (p : Nat) (tier : Nat) (die : Nat) (x : HeldPiece) (q : Partition) (r : Regulator), q = s.getPart p ∧ r = (if tier = 1 then
      q.regHbm else q.regPeat) ∧ q.heldPieces.find? (fun y => y.tier == tier && y.die == die) = some x ∧ r.on = false) ∧
    (∃ (s : State) (p : Nat) (tier : Nat) (die : Nat) (x : HeldPiece) (q : Partition) (r : Regulator) (bytes : _), q = s.getPart p ∧ r = (if tier =
      1 then q.regHbm else q.regPeat) ∧ q.heldPieces.find? (fun y => y.tier == tier && y.die == die) = some x ∧ (r.on = true ∧ nth 0 r.tokens die <
      x.units ∨ bytes / 64 ≠ x.units)) ∧
    (∃ (s : State) (p : Nat) (tier : Nat) (die : Nat), (∀ x ∈ (s.getPart p).heldPieces, x.tier ≠ tier ∨ x.die ≠ die)) :=
  ⟨⟨held 1 (cmd 0x0901 0 (regulate0 3 128)) (running), 1, cmd 0x0901 0 (regulate0 3 128), regulate0 3 128, commanded_of (by decide +kernel),
      by decide +kernel⟩,
    ⟨held 1 (cmd 0x0901 0 (regulate0 4 128)) (running), 1, cmd 0x0901 0 (regulate0 4 128), regulate0 4 128, commanded_of (by decide +kernel),
      by decide +kernel⟩,
    ⟨waitingSets [set0], set0, [], _, _, _, rfl, rfl, rfl, by decide +kernel⟩,
    ⟨part 0 { life := .destroyed, destroyedBy := { ch := 1, tag := 3, opcode := 0x0102 } } (waitingSets [set0]), set0, [], _, _, _, rfl, rfl, rfl,
      by decide +kernel⟩,
    ⟨waitingSets [{ set0 with tier := 2 }, { set0 with tier := 2, ch := 4, rate := 9, depth := 64 }], { set0 with tier := 2 },
      { set0 with tier := 2, ch := 4, rate := 9, depth := 64 }, _, rfl, by decide +kernel⟩,
    ⟨waitingSets [{ set0 with at_ := 1000 }], by decide +kernel⟩,
    ⟨regulated { on := true, rate := 8, depth := 128, tokens := [1, 2, 32, 4] }, 0, 1, 2, piece0, _, _, rfl, rfl, by decide +kernel⟩,
    ⟨regulated { on := false, rate := 8, depth := 128, tokens := [1, 2, 0, 4] }, 0, 1, 2, piece0, _, _, rfl, rfl, by decide +kernel⟩,
    ⟨regulated { on := true, rate := 8, depth := 128, tokens := [1, 2, 31, 4] }, 0, 1, 2, piece0, _, _, 2048, rfl, rfl, by decide +kernel⟩,
    ⟨regulated { on := true, rate := 8, depth := 128, tokens := [1, 2, 31, 4] }, 0, 1, 3, by decide +kernel⟩⟩

/-- States and operands that meet the hypotheses of MemFillPieces, clause by clause. -/
theorem witness_MemFillPieces :
    (∃ (s : State) (ch : Nat) (h : Held) (b : List Byte) (f : Fill), Commanded s 0x0902 ch h b ∧ f = fillParse ch b ∧ (f.fieldsOk = false ∨
      f.rangesOk (s.getPart h.part) = false)) ∧
    (∃ (s : State) (ch : Nat) (h : Held) (b : List Byte) (f : Fill), Commanded s 0x0902 ch h b ∧ f = fillParse ch b ∧ f.fieldsOk = true ∧ f.rangesOk
      (s.getPart h.part) = true) ∧
    (∃ (s : State) (p : Nat) (i : Nat), ((s.getPart p).fill = none ∨ s.aon.park ≠ .no ∨ (∃ f, (s.getPart p).fill = some f ∧ (f.pieces ≤ i ∨ i ∈
      f.ended ∨ s.pieceOpen p f i = false)))) ∧
    (∃ (s : State) (p : Nat) (i : Nat) (n : Nat) (f : Fill) (q : Partition) (dst : Nat) (ce : List MemUnit) (v : State), q = s.getPart p ∧ n =
      f.pieceBytes i ∧ dst = q.spaceBase p f.dstSpace + f.dst + 2048 * i ∧ v = s.memEvents (corrected ce) ∧ q.fill = some f ∧ s.aon.park = .no ∧ i <
      f.pieces ∧ i ∉ f.ended ∧ s.pieceOpen p f i = true ∧ f.mode ≤ 2 ∧ (f.mode = 2 → s.aon.perstN = true ∧ f.hostLost = false) ∧ (f.failed = [] ∨
      f.poison < 4 ∨ 8 < f.poison)) ∧
    (∃ (s : State) (p : Nat) (i : Nat) (n : Nat) (f : Fill) (q : Partition) (dst : Nat) (ce : List MemUnit) (v : State) (k : _), q = s.getPart p ∧ n
      = f.pieceBytes i ∧ dst = q.spaceBase p f.dstSpace + f.dst + 2048 * i ∧ v = s.memEvents (corrected ce) ∧ q.fill = some f ∧ s.aon.park = .no ∧ i <
      f.pieces ∧ i ∉ f.ended ∧ s.pieceOpen p f i = true ∧ f.mode ≤ 2 ∧ (f.mode = 2 → s.aon.perstN = true ∧ f.hostLost = false) ∧ f.failed = [k] ∧ k ≠
      i ∧ 4 ≤ f.poison ∧ f.poison ≤ 8 ∧ f.ended.length + 1 < f.pieces) ∧
    (∃ (s : State) (p : Nat) (i : Nat) (n : Nat) (f : Fill) (q : Partition), q = s.getPart p ∧ n = f.pieceBytes i ∧ q.fill = some f ∧ s.aon.park =
      .no ∧ i < f.pieces ∧ i ∉ f.ended ∧ s.pieceOpen p f i = true ∧ f.mode = 3 ∧ s.aon.perstN = true ∧ f.hostLost = false ∧ (f.poison < 4 ∨ 8 <
      f.poison) ∧ f.ended.length + 1 < f.pieces) ∧
    (∃ (s : State) (p : Nat) (i : Nat) (n : Nat) (f : Fill) (q : Partition) (dst : Nat) (lo : Nat) (len : Nat) (ub : Nat) (u : MemUnit) (ce : List
      MemUnit) (r : PieceEnd) (word : Nat) (width : Nat) (v : State), q = s.getPart p ∧ n = f.pieceBytes i ∧ dst = q.spaceBase p f.dstSpace + f.dst ∧
      ub = (match u with | .hbm st _ => 2 ^ st | .peat k => 2 ^ (16 + k) | .hub => 2 ^ 28 | .host => 2 ^ 29) ∧ (word = if f.poison = 2 then 0x7E00
      else if f.poison = 3 then 0x7FC0 else if f.poison = 15 then 0xDEADF00D else 0x7FC00000) ∧ (width = if f.poison = 2 ∨ f.poison = 3 then 2 else 4)
      ∧ (r = .readFailed u ce none ∧ v = s.memEvents (⟨u, some 0⟩ :: corrected ce) ∨ ∃ o, r = .writeFailed u o ce none ∧ v = s.memEvents (⟨u, some
      (dst + 2048 * i + o)⟩ :: corrected ce)) ∧ q.fill = some f ∧ s.aon.park = .no ∧ i < f.pieces ∧ i ∉ f.ended ∧ s.pieceOpen p f i = true ∧ f.mode ≤
      2 ∧ if 4 ≤ f.poison ∧ f.poison ≤ 8 then lo = 2048 * i / blockGroup f.poison * blockGroup f.poison ∧ lo + len = ((2048 * i + n - 1) / blockGroup
      f.poison + 1) * blockGroup f.poison else lo = 2048 * i ∧ len = n) ∧
    (∃ (s : State) (p : Nat) (i : Nat) (n : Nat) (f : Fill) (q : Partition) (u : MemUnit) (w : MemUnit) (ub : Nat) (wb : Nat) (dst : Nat), q =
      s.getPart p ∧ n = f.pieceBytes i ∧ dst = q.spaceBase p f.dstSpace + f.dst + 2048 * i ∧ ub = unitBit u ∧ wb = unitBit w ∧ q.fill = some f ∧
      s.aon.park = .no ∧ i < f.pieces ∧ i ∉ f.ended ∧ s.pieceOpen p f i = true ∧ f.mode ≤ 2 ∧ (f.poison < 4 ∨ 8 < f.poison) ∧ f.ended.length + 1 <
      f.pieces) ∧
    (∃ (s : State) (p : Nat) (i : Nat) (n : Nat) (f : Fill) (q : Partition), q = s.getPart p ∧ n = f.pieceBytes i ∧ q.fill = some f ∧ s.aon.park =
      .no ∧ i < f.pieces ∧ i ∉ f.ended ∧ s.pieceOpen p f i = true ∧ (s.aon.perstN = false ∨ f.hostLost = true) ∧ f.mode = 2) ∧
    (∃ (s : State) (p : Nat) (i : Nat) (n : Nat) (f : Fill) (q : Partition) (ce : List MemUnit), q = s.getPart p ∧ n = f.pieceBytes i ∧ ce = [] ∧
      q.fill = some f ∧ s.aon.park = .no ∧ i < f.pieces ∧ i ∉ f.ended ∧ s.pieceOpen p f i = true ∧ (s.aon.perstN = false ∨ f.hostLost = true) ∧ f.mode
      = 3 ∧ f.ended.length + 1 < f.pieces) ∧
    (∃ (s : State), s.irq.status.length = 11) ∧
    (∃ (s : State) (k : Nat), Tab.get {} s.faults.unit (unitKey 7 k) = {} ∧ 1 < (s.policy 7).2) ∧
    (∃ (k : Nat) (st : Nat) (pc : Nat) (e : _), e ∈ [(⟨.peat k, none⟩ : MemEvent), ⟨.hub, none⟩, ⟨.hbm st pc, none⟩, ⟨.peat k, some 0⟩, ⟨.hub, some
      0⟩, ⟨.hbm st pc, some 0⟩]) :=
  ⟨⟨held 4 (cmd 0x0902 0 (record 32 [⟨1, 1, 1⟩, ⟨4, 4, 0x12345678⟩, ⟨8, 8, 4096⟩, ⟨0x18, 8, 8193⟩])) (running), 4, cmd 0x0902 0 (record 32 [⟨1, 1,
      1⟩, ⟨4, 4, 0x12345678⟩, ⟨8, 8, 4096⟩, ⟨0x18, 8, 8193⟩]), record 32 [⟨1, 1, 1⟩, ⟨4, 4, 0x12345678⟩, ⟨8, 8, 4096⟩, ⟨0x18, 8, 8193⟩], _,
      commanded_of (by decide +kernel), rfl, by decide +kernel⟩,
    ⟨held 4 (cmd 0x0902 0 (record 32 [⟨1, 1, 1⟩, ⟨4, 4, 0x12345678⟩, ⟨8, 8, 4096⟩, ⟨0x18, 8, 8192⟩])) (running), 4, cmd 0x0902 0 (record 32 [⟨1, 1,
      1⟩, ⟨4, 4, 0x12345678⟩, ⟨8, 8, 4096⟩, ⟨0x18, 8, 8192⟩]), record 32 [⟨1, 1, 1⟩, ⟨4, 4, 0x12345678⟩, ⟨8, 8, 4096⟩, ⟨0x18, 8, 8192⟩], _,
      commanded_of (by decide +kernel), rfl, by decide +kernel⟩,
    ⟨running, 0, 1, (by exact .inl rfl)⟩,
    ⟨filling { fill0 with hostLost := true }, 0, 1, _, { fill0 with hostLost := true }, _, _, [], _, rfl, rfl, rfl, rfl, by decide +kernel⟩,
    ⟨filling { fill0 with poison := 8, failed := [0], ended := [0] }, 0, 1, _, { fill0 with poison := 8, failed := [0], ended := [0] }, _, _, [], _,
      0, rfl, rfl, rfl, rfl, by decide +kernel⟩,
    ⟨filling { fill0 with mode := 3, dstSpace := 0, srcSpace := 1, src := 4096, dst := 64, value := 0 }, 0, 1, _,
      { fill0 with mode := 3, dstSpace := 0, srcSpace := 1, src := 4096, dst := 64, value := 0 }, _, rfl, rfl, by decide +kernel⟩,
    ⟨filling { fill0 with poison := 8 }, 0, 1, _, { fill0 with poison := 8 }, _, _, 1088, 3264, _, .peat 0, [], .readFailed (.peat 0) [] none, _, _,
      _, rfl, rfl, rfl, rfl, rfl, rfl, (by exact .inl ⟨rfl, rfl⟩), by decide +kernel⟩,
    ⟨filling { fill0 with poison := 1 }, 0, 1, _, { fill0 with poison := 1 }, _, .peat 0, .hub, _, _, _, rfl, rfl, rfl, rfl, rfl, by decide +kernel⟩,
    ⟨filling { fill0 with mode := 2, hostLost := true }, 0, 1, _, { fill0 with mode := 2, hostLost := true }, _, rfl, rfl, by decide +kernel⟩,
    ⟨filling { fill0 with mode := 3, dstSpace := 0, srcSpace := 1, hostLost := true }, 0, 1, _,
      { fill0 with mode := 3, dstSpace := 0, srcSpace := 1, hostLost := true }, _, _, rfl, rfl, rfl, by decide +kernel⟩,
    ⟨running, by decide +kernel⟩,
    ⟨running, 3, by decide +kernel⟩,
    ⟨3, 11, 63, ⟨.hub, none⟩, (by exact .tail _ (.head _))⟩⟩

/-- States and operands that meet the hypotheses of LaneFaultsAndSparing, clause by clause. -/
theorem witness_LaneFaultsAndSparing :
    (∃ (s : State) (c : Nat) (w : Nat) (h : Nat) (n : Nat) (x : FaultUnit), x = Tab.get {} s.faults.unit (unitKey 5 c) ∧ n = (if x.count = 0 ∨
      x.start + w * 25000000 ≤ s.aon.ticks then 1 else x.count + 1) ∧ c < 384 ∧ s.policy 5 = (w, h) ∧ x.held = true) ∧
    (∃ (s : State) (c : Nat) (w : Nat) (h : Nat) (n : Nat) (x : FaultUnit), x = Tab.get {} s.faults.unit (unitKey 5 c) ∧ n = (if x.count = 0 ∨
      x.start + w * 25000000 ≤ s.aon.ticks then 1 else x.count + 1) ∧ c < 384 ∧ s.policy 5 = (w, h) ∧ x.held = false ∧ (x.count = 0 ∨ x.start + w *
      25000000 ≤ s.aon.ticks) ∧ 1 < h) ∧
    (∃ (s : State) (c : Nat) (w : Nat) (h : Nat) (n : Nat) (x : FaultUnit), x = Tab.get {} s.faults.unit (unitKey 5 c) ∧ n = (if x.count = 0 ∨
      x.start + w * 25000000 ≤ s.aon.ticks then 1 else x.count + 1) ∧ c < 384 ∧ s.policy 5 = (w, h) ∧ x.held = false ∧ 0 < x.count ∧ s.aon.ticks <
      x.start + w * 25000000 ∧ x.count + 1 < h) ∧
    (∃ (s : State) (c : Nat) (w : Nat) (h : Nat) (n : Nat) (x : FaultUnit), x = Tab.get {} s.faults.unit (unitKey 5 c) ∧ n = (if x.count = 0 ∨
      x.start + w * 25000000 ≤ s.aon.ticks then 1 else x.count + 1) ∧ c < 384 ∧ s.policy 5 = (w, h) ∧ x.held = false ∧ h ≤ n ∧ Tab.get 0 s.mem.repairs
      c < 2 ∧ (s.test.active = false ∨ 5 < s.test.phase)) ∧
    (∃ (s : State) (c : Nat) (w : Nat) (h : Nat) (n : Nat) (x : FaultUnit), x = Tab.get {} s.faults.unit (unitKey 5 c) ∧ n = (if x.count = 0 ∨
      x.start + w * 25000000 ≤ s.aon.ticks then 1 else x.count + 1) ∧ c < 384 ∧ s.policy 5 = (w, h) ∧ x.held = false ∧ h ≤ n ∧ 2 ≤ Tab.get 0
      s.mem.repairs c) ∧
    (∃ (s : State) (c : Nat) (w : Nat) (h : Nat) (n : Nat) (x : FaultUnit), x = Tab.get {} s.faults.unit (unitKey 5 c) ∧ n = (if x.count = 0 ∨
      x.start + w * 25000000 ≤ s.aon.ticks then 1 else x.count + 1) ∧ c < 384 ∧ s.policy 5 = (w, h) ∧ x.held = false ∧ h ≤ n ∧ Tab.get 0 s.mem.repairs
      c < 2 ∧ s.test.active = true ∧ s.test.phase ≤ 5) ∧
    (∃ (c : Nat), 384 ≤ c) ∧
    (∃ (s : State) (c : Nat), (∃ d ∈ s.mem.due, d.1 = c ∧ d.2.2 < s.sync.stitch)) ∧
    (∃ (s : State) (c : Nat), (∀ d ∈ s.mem.due, d.1 = c → s.sync.stitch ≤ d.2.2)) ∧
    (∃ (s : State) (c : Nat), c ∈ s.mem.retraining) ∧
    (∃ (s : State) (c : Nat), c ∉ s.mem.retraining) ∧
    (∃ (s : State) (st : Nat) (pc : Nat), st < 12 ∧ pc < 64 ∧ s.getDom (144 + st) = .on) ∧
    (∃ (s : State) (st : Nat) (pc : Nat), (12 ≤ st ∨ 64 ≤ pc ∨ s.getDom (144 + st) ≠ .on)) :=
  ⟨⟨faulty { start := 999000000, count := 2, held := true }, 40, 60, 3, _, _, rfl, rfl, by decide +kernel⟩,
    ⟨faulty { start := 1, count := 0 }, 40, 60, 3, _, _, rfl, rfl, by decide +kernel⟩,
    ⟨faulty { start := 999000000, count := 1 }, 40, 60, 3, _, _, rfl, rfl, by decide +kernel⟩,
    ⟨faulty { start := 999000000, count := 2 }, 40, 60, 3, _, _, rfl, rfl, by decide +kernel⟩,
    ⟨{ faulty { start := 999000000, count := 2 } with mem := { running.mem with repairs := [(40, 2)] } }, 40, 60, 3, _, _, rfl, rfl,
      by decide +kernel⟩,
    ⟨{ faulty { start := 999000000, count := 2 } with test := { running.test with active := true, phase := 5 } }, 40, 60, 3, _, _, rfl, rfl,
      by decide +kernel⟩,
    ⟨384, by decide +kernel⟩,
    ⟨{ running with mem := { running.mem with due := [(40, 3, 999)] } }, 40, by decide +kernel⟩,
    ⟨{ running with mem := { running.mem with due := [(40, 3, 1000)] } }, 40, by decide +kernel⟩,
    ⟨{ running with mem := { running.mem with retraining := [40] } }, 40, by decide +kernel⟩,
    ⟨running, 40, by decide +kernel⟩,
    ⟨memory, 11, 63, by decide +kernel⟩,
    ⟨memory, 12, 63, by decide +kernel⟩⟩


/-- A LINK_PLAN of one entry, of the package in strap slot 0. -/
def planBytes (slot : Nat) : List Byte :=
  record 40 [⟨0, 8, 1⟩, ⟨8, 2, 3⟩, ⟨0xA, 2, 3⟩, ⟨0xC, 2, 3⟩, ⟨0x10, 8, 2⟩, ⟨0x1C, 2, 1⟩, ⟨0x20, 1, slot⟩, ⟨0x22, 1, 1⟩, ⟨0x23, 1, 1⟩, ⟨0x24, 1, 1⟩,
    ⟨0x25, 2, 3⟩]
/-- A LINK_PLAN command of such a block, which it takes from the bulk buffer. -/
def planCmd (b : List Byte) : Held := { cmd 0x0402 0 b with flags := 1 }
/-- A running package whose port 2 is as given. -/
def port2 (x : Port) : State := running.updPort 2 fun _ => x
/-- A running package whose plan covers only its X+ port, with that port as given, while the plan is checked for channel 1. -/
def checked (x : Port) : State :=
  held 1 { cmd 0x0402 0 [] with stepped := true, acked := true }
    { running with links := { running.links with plan := some { plan0 with peer := 0, ports := 1 }, planCh := some 1, checking := true, port := [(0, x)] } }
/-- The identity of the neighbour beyond the X+ port. -/
def ident0 : Ident := { lane := 0, lanes := 4, port := 1, dir := 1, twin := 0, fabric := 1, at_ := ⟨2, 1, 1⟩, chassis := 0, slot := 0 }
/-- A running package whose X+ and X- ports are swapped, while its plan is checked. -/
def swapped : State :=
  held 1 { cmd 0x0402 0 [] with stepped := true, acked := true }
    { running with links := { running.links with
        plan := some { plan0 with peer := 0, ports := 3 }, planCh := some 1, checking := true,
        port := [(0, { state := .bringup, stage := .finished, obs := some { ident0 with port := 0, at_ := ⟨0, 1, 1⟩ } }),
                 (1, { state := .bringup, stage := .finished, obs := some ident0 })] } }
/-- States and operands that meet the hypotheses of LinkCommandsConfigure, clause by clause. -/
theorem witness_LinkCommandsConfigure :
    (∃ (s : State) (ch : Nat) (h : Held) (b : List Byte), Commanded s 0x0401 ch h b ∧ s.links.planned = true) ∧
    (∃ (s : State) (ch : Nat) (h : Held) (b : List Byte), Commanded s 0x0401 ch h b ∧ s.links.planned = false ∧ profileOk b = false) ∧
    (∃ (s : State) (ch : Nat) (h : Held) (b : List Byte), Commanded s 0x0401 ch h b ∧ s.links.planned = false ∧ profileOk b = true) ∧
    (∃ (s : State) (ch : Nat) (h : Held) (b : List Byte), Commanded s 0x0402 ch h b ∧ (∃ p, p < 64 ∧ (s.getPart p).live = true)) ∧
    (∃ (s : State) (ch : Nat) (h : Held) (b : List Byte), Commanded s 0x0402 ch h b ∧ (planHeadOk b = false ∨ (∀ i, i < fld b 0x1C 2 → entrySlot
      (planEntry b i) ≠ s.aon.strap.toNat)) ∧ (∀ p, p < 64 → (s.getPart p).live = false)) ∧
    (∃ (s : State) (ch : Nat) (h : Held) (b : List Byte), Commanded s 0x0402 ch h b ∧ (∀ p, p < 64 → (s.getPart p).live = false) ∧ s.planOf b =
      none) ∧
    (∃ (s : State) (ch : Nat) (h : Held) (b : List Byte) (pl : _), Commanded s 0x0402 ch h b ∧ (∀ p, p < 64 → (s.getPart p).live = false) ∧ s.planOf
      b = some pl) ∧
    (∃ (s : State) (ch : Nat) (h : Held) (b : List Byte), Commanded s 0x0404 ch h b ∧ (∃ p, p < 64 ∧ (s.getPart p).live = true)) ∧
    (∃ (s : State) (ch : Nat) (h : Held) (b : List Byte), Commanded s 0x0404 ch h b ∧ (∀ p, p < 64 → (s.getPart p).live = false) ∧ (bits (fld b 0 2)
      15 12 ≠ 0 ∨ bits (fld b 2 2) 15 3 ≠ 0 ∨ zeros b 4 8 = false)) ∧
    (∃ (s : State) (ch : Nat) (h : Held) (b : List Byte), Commanded s 0x0404 ch h b ∧ (∀ p, p < 64 → (s.getPart p).live = false) ∧ bits (fld b 0 2)
      15 12 = 0 ∧ bits (fld b 2 2) 15 3 = 0 ∧ zeros b 4 8 = true) ∧
    (∃ (s : State) (ch : Nat) (h : Held) (b : List Byte), Commanded s 0x0405 ch h b ∧ (16 < fld b 0 2 ∨ zeros b 2 8 = false ∨ (∃ i, i < fld b 0 2 ∧
      zeros b (14 + 8 * i) (16 + 8 * i) = false))) ∧
    (∃ (s : State) (ch : Nat) (h : Held) (b : List Byte), Commanded s 0x0405 ch h b ∧ fld b 0 2 ≤ 16 ∧ zeros b 2 8 = true ∧ (∀ i, i < fld b 0 2 →
      zeros b (14 + 8 * i) (16 + 8 * i) = true)) ∧
    (∃ (s : State) (mask : _) (nw : _) (k : _), s.links.selvNext = some (mask, nw, k) ∧ k ≤ s.sync.stitch) ∧
    (∃ (s : State), (s.links.selvNext = none ∨ (∃ mask nw k, s.links.selvNext = some (mask, nw, k) ∧ s.sync.stitch < k))) :=
  ⟨⟨held 1 (cmd 0x0401 0 (record 52 [⟨0, 1, 0xF⟩, ⟨1, 1, 1⟩, ⟨4, 4, 0x00020204⟩])) (running), 1, cmd 0x0401 0 (record 52 [⟨0, 1, 0xF⟩, ⟨1, 1, 1⟩,
      ⟨4, 4, 0x00020204⟩]), record 52 [⟨0, 1, 0xF⟩, ⟨1, 1, 1⟩, ⟨4, 4, 0x00020204⟩], commanded_of (by decide +kernel), by decide +kernel⟩,
    ⟨held 1 (cmd 0x0401 0 (record 52 [⟨0, 1, 0xF⟩, ⟨1, 1, 14⟩, ⟨4, 4, 0x00020204⟩])) (up), 1, cmd 0x0401 0 (record 52 [⟨0, 1, 0xF⟩, ⟨1, 1, 14⟩, ⟨4,
      4, 0x00020204⟩]), record 52 [⟨0, 1, 0xF⟩, ⟨1, 1, 14⟩, ⟨4, 4, 0x00020204⟩], commanded_of (by decide +kernel), by decide +kernel⟩,
    ⟨held 1 (cmd 0x0401 0 (record 52 [⟨0, 1, 0xF⟩, ⟨1, 1, 1⟩, ⟨4, 4, 0x00020204⟩])) (up), 1, cmd 0x0401 0 (record 52 [⟨0, 1, 0xF⟩, ⟨1, 1, 1⟩, ⟨4, 4,
      0x00020204⟩]), record 52 [⟨0, 1, 0xF⟩, ⟨1, 1, 1⟩, ⟨4, 4, 0x00020204⟩], commanded_of (by decide +kernel), by decide +kernel⟩,
    ⟨held 1 (planCmd (planBytes 0)) running, 1, planCmd (planBytes 0), planBytes 0, commanded_of (by decide +kernel),
      (by exact ⟨0, by decide +kernel⟩)⟩,
    ⟨held 1 (planCmd (planBytes 1)) up, 1, planCmd (planBytes 1), planBytes 1, commanded_of (by decide +kernel),
      (by exact .inr (by decide +kernel)), by decide +kernel⟩,
    ⟨held 1 (planCmd (planBytes 1)) up, 1, planCmd (planBytes 1), planBytes 1, commanded_of (by decide +kernel), by decide +kernel⟩,
    ⟨held 1 (planCmd (planBytes 0)) up, 1, planCmd (planBytes 0), planBytes 0,
      ({ fabric := 1, size := ⟨3, 3, 3⟩, twin := 0, peer := 2, chassis := 0, here := ⟨1, 1, 1⟩, ports := 3 } : Plan), commanded_of
      (by decide +kernel), by decide +kernel⟩,
    ⟨held 1 (cmd 0x0404 0 (record 8 [⟨0, 2, 5⟩, ⟨2, 2, 1⟩])) (running), 1, cmd 0x0404 0 (record 8 [⟨0, 2, 5⟩, ⟨2, 2, 1⟩]), record 8 [⟨0, 2, 5⟩, ⟨2,
      2, 1⟩], commanded_of (by decide +kernel), (by exact ⟨0, by decide +kernel⟩)⟩,
    ⟨held 1 (cmd 0x0404 0 (record 8 [⟨0, 2, 0x1000⟩, ⟨2, 2, 1⟩])) (up), 1, cmd 0x0404 0 (record 8 [⟨0, 2, 0x1000⟩, ⟨2, 2, 1⟩]), record 8 [⟨0, 2,
      0x1000⟩, ⟨2, 2, 1⟩], commanded_of (by decide +kernel), by decide +kernel⟩,
    ⟨held 1 (cmd 0x0404 0 (record 8 [⟨0, 2, 0xFFF⟩, ⟨2, 2, 7⟩])) (up), 1, cmd 0x0404 0 (record 8 [⟨0, 2, 0xFFF⟩, ⟨2, 2, 7⟩]), record 8 [⟨0, 2,
      0xFFF⟩, ⟨2, 2, 7⟩], commanded_of (by decide +kernel), by decide +kernel⟩,
    ⟨held 1 (cmd 0x0405 0 (record 136 [⟨0, 2, 17⟩, ⟨9, 1, 2⟩])) (up), 1, cmd 0x0405 0 (record 136 [⟨0, 2, 17⟩, ⟨9, 1, 2⟩]), record 136 [⟨0, 2, 17⟩,
      ⟨9, 1, 2⟩], commanded_of (by decide +kernel), (by exact .inl (by decide +kernel))⟩,
    ⟨held 1 (cmd 0x0405 0 (record 136 [⟨0, 2, 16⟩, ⟨9, 1, 2⟩])) (up), 1, cmd 0x0405 0 (record 136 [⟨0, 2, 16⟩, ⟨9, 1, 2⟩]), record 136 [⟨0, 2, 16⟩,
      ⟨9, 1, 2⟩], commanded_of (by decide +kernel), by decide +kernel⟩,
    ⟨{ running with links := { running.links with selvNext := some (1, 2, 1000) } }, 1, 2, 1000, by decide +kernel⟩,
    ⟨running, (by exact .inl rfl)⟩⟩

/-- States and operands that meet the hypotheses of PortBringupRuns, clause by clause. -/
theorem witness_PortBringupRuns :
    (∃ (s : State) (p : Nat) (x : Port), x = s.getPort p ∧ x.state = .bringup ∧ x.stage = .waiting ∧ x.since + 1250000 ≤ s.aon.ticks) ∧
    (∃ (s : State) (p : Nat) (x : Port), x = s.getPort p ∧ (x.state ≠ .bringup ∨ x.stage ≠ .waiting ∨ s.aon.ticks < x.since + 1250000)) ∧
    (∃ (s : State) (p : Nat) (x : Port) (lane : _), x = s.getPort p ∧ x.stage = .train ∧ lane < s.lanesOf p) ∧
    (∃ (s : State) (p : Nat) (x : Port) (lane : _), x = s.getPort p ∧ (x.stage ≠ .train ∨ s.lanesOf p ≤ lane)) ∧
    (∃ (s : State) (p : Nat) (x : Port) (c : Instr), x = s.getPort p ∧ (x.retrain = none ∧ (x.stage = .train ∧ c = .trainTimeout p ∧ x.since +
      7500000 ≤ s.aon.ticks ∨ x.stage = .align ∧ c = .alignTimeout p ∧ x.since + 8750000 ≤ s.aon.ticks ∨ x.stage = .ident ∧ c = .identTimeout p ∧
      x.since + 11250000 ≤ s.aon.ticks) ∨ (x.stage = .train ∨ x.stage = .align ∨ x.stage = .ident) ∧ (∃ lane, lane < s.lanesOf p ∧ c = .laneSignalLoss
      p lane))) ∧
    (∃ (s : State) (p : Nat) (x : Port), x = s.getPort p ∧ (x.retrain ≠ none ∨ x.stage ≠ .train ∨ s.aon.ticks < x.since + 7500000)) ∧
    (∃ (s : State) (p : Nat) (x : Port), x = s.getPort p ∧ (x.retrain ≠ none ∨ x.stage ≠ .align ∨ s.aon.ticks < x.since + 8750000)) ∧
    (∃ (s : State) (p : Nat) (x : Port), x = s.getPort p ∧ (x.retrain ≠ none ∨ x.stage ≠ .ident ∨ s.aon.ticks < x.since + 11250000)) ∧
    (∃ (s : State) (p : Nat) (x : Port) (lane : _), x = s.getPort p ∧ ((x.stage ≠ .train ∧ x.stage ≠ .align ∧ x.stage ≠ .ident) ∨ s.lanesOf p ≤
      lane)) ∧
    (∃ (s : State) (p : Nat) (lane : Nat) (n : Nat) (b : List Byte) (x : Port), x = s.getPort p ∧ n = s.lanesOf p ∧ (x.stage ≠ .align ∨ n ≤ lane ∨
      fld b 0 1 ≠ 1)) ∧
    (∃ (s : State) (p : Nat) (lane : Nat) (n : Nat) (b : List Byte) (x : Port), x = s.getPort p ∧ n = s.lanesOf p ∧ x.stage = .align ∧ lane < n ∧
      fld b 0 1 = 1) ∧
    (∃ (s : State) (p : Nat) (lane : Nat) (n : Nat) (b : List Byte) (x : Port), x = s.getPort p ∧ n = s.lanesOf p ∧ (x.stage ≠ .ident ∨ n ≤ lane ∨
      fld b 0 1 ≠ 2)) ∧
    (∃ (s : State) (p : Nat) (lane : Nat) (n : Nat) (b : List Byte) (x : Port), x = s.getPort p ∧ n = s.lanesOf p ∧ x.stage = .ident ∧ lane < n ∧
      fld b 0 1 = 2) :=
  ⟨⟨port2 { state := .bringup, stage := .waiting, attempts := 2, since := 998750000 }, 2, _, rfl, by decide +kernel⟩,
    ⟨port2 { state := .bringup, stage := .waiting, attempts := 2, since := 998750001 }, 2, _, rfl, by decide +kernel⟩,
    ⟨port2
      { state := .bringup, stage := .train, attempts := 2, since := 5, lane := [(0, { locked := true }), (1, { locked := true }), (3, { locked := true })] },
      2, _, 2, rfl, by decide +kernel⟩,
    ⟨port2
      { state := .bringup, stage := .train, attempts := 2, since := 5, lane := [(0, { locked := true }), (1, { locked := true }), (3, { locked := true })] },
      2, _, 4, rfl, by decide +kernel⟩,
    ⟨port2 { state := .bringup, stage := .align, attempts := 4, since := 991250000 }, 2, _, .alignTimeout 2, rfl,
      (by exact .inl (by decide +kernel))⟩,
    ⟨port2 { state := .bringup, stage := .train, since := 992500001 }, 2, _, rfl, by decide +kernel⟩,
    ⟨port2 { state := .bringup, stage := .align, since := 991250001 }, 2, _, rfl, by decide +kernel⟩,
    ⟨port2 { state := .bringup, stage := .ident, since := 988750001 }, 2, _, rfl, by decide +kernel⟩,
    ⟨running, 2, _, 0, rfl, by decide +kernel⟩,
    ⟨port2 { state := .bringup, stage := .align, attempts := 2, since := 5 }, 2, 4, _, record 232 [⟨0, 1, 1⟩, ⟨1, 1, 1⟩, ⟨2, 1, 4⟩, ⟨3, 1, 3⟩, ⟨4,
      4, 9⟩, ⟨0x10, 1, 1⟩], _, rfl, rfl, by decide +kernel⟩,
    ⟨port2 { state := .bringup, stage := .align, attempts := 2, since := 5 }, 2, 3, _, record 232 [⟨0, 1, 1⟩, ⟨1, 1, 1⟩, ⟨2, 1, 4⟩, ⟨3, 1, 3⟩, ⟨4,
      4, 9⟩, ⟨0x10, 1, 1⟩], _, rfl, rfl, by decide +kernel⟩,
    ⟨port2 { state := .bringup, stage := .ident, attempts := 2, since := 5 }, 2, 3, _, record 232 [⟨0, 1, 1⟩, ⟨1, 1, 1⟩, ⟨2, 1, 4⟩, ⟨3, 1, 3⟩, ⟨4,
      4, 9⟩, ⟨0x10, 1, 1⟩], _, rfl, rfl, by decide +kernel⟩,
    ⟨port2 { state := .bringup, stage := .ident, attempts := 2, since := 5 }, 2, 3, _, record 232 [⟨0, 1, 2⟩, ⟨1, 1, 1⟩, ⟨2, 1, 4⟩, ⟨3, 1, 3⟩, ⟨6,
      1, 1⟩], _, rfl, rfl, by decide +kernel⟩⟩

/-- States and operands that meet the hypotheses of PlanCheckAndRetrain, clause by clause. -/
theorem witness_PlanCheckAndRetrain :
    (∃ (s : State) (p : Nat) (ch : Nat) (x : Port), x = s.getPort p ∧ (∃ o e, x.obs = some o ∧ s.expected p = some e ∧ o.who = e) ∧ s.plannedPorts =
      [p] ∧ x.result = .none ∧ s.links.checking = true ∧ s.links.planCh = some ch ∧ x.state = .bringup ∧ x.stage = .finished ∧ x.mixed = false) ∧
    (∃ (s : State) (p : Nat) (ch : Nat) (x : Port), x = s.getPort p ∧ s.plannedPorts = [p] ∧ x.result = .none ∧ s.links.checking = true ∧
      s.links.planCh = some ch ∧ (x.state = .bringup ∧ x.stage = .finished ∧ x.obs = none ∨ x.state = .absent ∧ x.obs = none)) ∧
    (∃ (s : State) (p : Nat) (ch : Nat) (x : Port), x = s.getPort p ∧ s.plannedPorts = [p] ∧ x.result = .none ∧ s.links.checking = true ∧
      s.links.planCh = some ch ∧ x.state = .retired) ∧
    (∃ (s : State) (p : Nat) (ch : Nat) (x : Port) (o : _), x = s.getPort p ∧ s.plannedPorts = [p] ∧ x.result = .none ∧ s.links.checking = true ∧
      s.links.planCh = some ch ∧ x.state = .bringup ∧ x.stage = .finished ∧ x.obs = some o ∧ (x.mixed = true ∨ s.expected p ≠ some o.who)) ∧
    (∃ (s : State) (p : Nat) (ch : Nat) (x : Port), x = s.getPort p ∧ s.plannedPorts = [p] ∧ x.result = .none ∧ s.links.checking = true ∧
      s.links.planCh = some ch ∧ x.stage ≠ .finished ∧ x.state ≠ .absent ∧ x.state ≠ .retired) ∧
    (∃ (s : State) (p : Nat) (q : Nat) (ch : Nat) (o : Ident) (o' : Ident), s.plannedPorts = [p, q] ∧ p ≠ q ∧ s.links.checking = true ∧
      s.links.planCh = some ch ∧ (s.getPort p).result = .none ∧ (s.getPort q).result = .none ∧ (s.getPort p).state = .bringup ∧ (s.getPort q).state =
      .bringup ∧ (s.getPort p).stage = .finished ∧ (s.getPort q).stage = .finished ∧ (s.getPort p).mixed = false ∧ (s.getPort q).mixed = false ∧
      (s.getPort p).obs = some o ∧ (s.getPort q).obs = some o' ∧ s.expected q = some o.who ∧ s.expected p = some o'.who ∧ s.expected p ≠ s.expected q) ∧
    (∃ (s : State) (p : Nat) (c : LinkEventCause) (x : Port) (y : FaultUnit), x = s.getPort p ∧ y = Tab.get {} s.faults.unit (unitKey 11 p) ∧
      (x.state ≠ .up ∨ x.retrain ≠ none ∨ (∃ l, c = .laneLoss l ∧ s.lanesOf p ≤ l) ∨ (c = .replays ∧ ∀ n ∈ x.tries, n < 8) ∨ (c = .noAccept ∧
      s.aon.ticks < x.lastAccept + 2500))) ∧
    (∃ (s : State) (p : Nat) (c : LinkEventCause) (x : Port) (y : FaultUnit), x = s.getPort p ∧ y = Tab.get {} s.faults.unit (unitKey 11 p) ∧ ((∃ l,
      c = .laneLoss l ∧ l < s.lanesOf p) ∨ (c = .replays ∧ ∃ n ∈ x.tries, 8 ≤ n) ∨ (c = .noAccept ∧ x.lastAccept + 2500 ≤ s.aon.ticks)) ∧ x.state =
      .up ∧ x.retrain = none) ∧
    (∃ (s : State) (p : Nat) (x : Port), x = s.getPort p ∧ x.retrain ≠ none ∧ x.stage = .finished ∧ x.mixed = false) ∧
    (∃ (s : State) (p : Nat) (x : Port), x = s.getPort p ∧ (x.retrain = none ∨ x.stage ≠ .finished ∨ x.mixed = true)) ∧
    (∃ (s : State) (p : Nat) (x : Port) (since : _), x = s.getPort p ∧ (∀ q, 64 ≤ q → (s.getPart q).live = false) ∧ x.retrain = some since ∧
      ((x.stage ≠ .finished ∧ since + 25000 ≤ s.aon.ticks) ∨ (x.stage = .finished ∧ x.mixed = true))) ∧
    (∃ (s : State) (p : Nat) (x : Port), x = s.getPort p ∧ (x.retrain = none ∨ (∃ since, x.retrain = some since ∧ s.aon.ticks < since + 25000 ∧
      x.stage ≠ .finished) ∨ (x.stage = .finished ∧ x.mixed = false))) ∧
    (∃ (s : State) (p : Nat) (x : Port) (since : _), x = s.getPort p ∧ x.lostAt = some since ∧ x.state = .lost ∧ since + 2500000 ≤ s.aon.ticks ∧ p ∈
      s.plannedPorts) ∧
    (∃ (s : State) (p : Nat) (x : Port), x = s.getPort p ∧ (x.lostAt = none ∨ x.state ≠ .lost ∨ p ∉ s.plannedPorts ∨ (∃ since, x.lostAt = some since
      ∧ s.aon.ticks < since + 2500000))) :=
  ⟨⟨checked { state := .bringup, stage := .finished, obs := some ident0 }, 0, 1, _, rfl, (by exact ⟨ident0, _, rfl, rfl, by decide +kernel⟩),
      by decide +kernel⟩,
    ⟨checked { state := .bringup, stage := .finished }, 0, 1, _, rfl, by decide +kernel⟩,
    ⟨checked { state := .retired }, 0, 1, _, rfl, by decide +kernel⟩,
    ⟨checked { state := .bringup, stage := .finished, obs := some { ident0 with port := 0 } }, 0, 1, _, ({ ident0 with port := 0 } : Ident), rfl,
      by decide +kernel⟩,
    ⟨checked { state := .bringup, stage := .train }, 0, 1, _, rfl, by decide +kernel⟩,
    ⟨swapped, 0, 1, 1, ({ ident0 with port := 0, at_ := ⟨0, 1, 1⟩ } : Ident), ident0, by decide +kernel⟩,
    ⟨port2 { state := .up, tries := [7] }, 2, .replays, _, _, rfl, rfl, (by exact .inr (.inr (.inr (.inl (by decide +kernel)))))⟩,
    ⟨port2 { state := .up, tries := [1, 8] }, 2, .replays, _, _, rfl, rfl, (by exact .inr (.inl (by decide +kernel))), by decide +kernel⟩,
    ⟨port2 { state := .up, retrain := some 999999000, stage := .finished, replay := [{ hdr := 5, payload := [], crc := 3 }] }, 2, _, rfl,
      by decide +kernel⟩,
    ⟨port2 { state := .up, retrain := some 999999000, stage := .align, replay := [{ hdr := 5, payload := [], crc := 3 }] }, 2, _, rfl,
      by decide +kernel⟩,
    ⟨port2
      { state := .up, retrain := some 999975000, stage := .train, tx := [{ kind := 4, vl := 2, payload := [] }], replay := [{ hdr := 5, payload := [], crc := 3 }] },
      2, _, 999975000, rfl, quiet_of (by decide +kernel), by decide +kernel⟩,
    ⟨port2 { state := .up, retrain := some 999975001, stage := .train }, 2, _, rfl, (by exact .inr (.inl ⟨_, rfl, by decide +kernel⟩))⟩,
    ⟨port2 { state := .lost, lostAt := some 997500000 }, 2, _, 997500000, rfl, by decide +kernel⟩,
    ⟨port2 { state := .lost, lostAt := some 997500001 }, 2, _, rfl, (by exact .inr (.inr (.inr ⟨_, rfl, by decide +kernel⟩)))⟩⟩


/-- A flit of a link symbol. -/
def idle0 (seq ack : Nat) (nak : Bool) (y : Nat × Nat × Nat) : Flit := mkFlit (flitHeader 0 2 0 false false nak seq ack y) []
/-- The frame of the port tests: a broadcast of two bytes. -/
def txFrame (vl part : Nat) : Frame := { dst := ⟨2, 1, 1⟩, src := ⟨1, 1, 1⟩, part := part, kind := if vl = 2 then 4 else if vl = 3 then 7 else 1, vl := vl, payload := [1, 2] }
/-- The last flit of a frame of two flits. -/
def lastFlit (seq : Nat) : Flit := mkFlit (flitHeader 1 2 0 false true false seq 4095 (0, 0, 0)) [7, 8]
/-- The payload of its first flit. -/
def firstPart : List Byte := frameHeader { dst := ⟨1, 1, 1⟩, kind := 4, vl := 2, payload := List.replicate 218 5 } ++ List.replicate 216 5
/-- A running package whose X+ port is as given. -/
def port0 (x : Port) : State := running.updPort 0 fun _ => x
/-- States and operands that meet the hypotheses of FlitsAndFramesRoundTrip, clause by clause. -/
theorem witness_FlitsAndFramesRoundTrip :
    (∃ (ftype : Nat) (vl : Nat) (dl : Nat) (seq : Nat) (ack : Nat) (skind : Nat) (sch : Nat) (hold : Nat), ftype < 16 ∧ vl < 4 ∧ dl < 2 ∧ seq < 4096
      ∧ ack < 4096 ∧ skind < 4 ∧ sch < 8 ∧ hold < 65536) ∧
    (∃ (f : Frame), f.dst.x < 256 ∧ f.dst.y < 256 ∧ f.dst.z < 256 ∧ f.src.x < 256 ∧ f.src.y < 256 ∧ f.src.z < 256 ∧ f.part < 64 ∧ f.kind < 16 ∧
      f.token < 65536 ∧ f.arg < 2 ^ 32 ∧ f.payload.length < 65536) :=
  ⟨⟨15, 3, 1, 4095, 0, 3, 7, 65535, by decide +kernel⟩,
    ⟨{ dst := ⟨255, 0, 1⟩, src := ⟨1, 255, 0⟩, part := 63, kind := 15, raise := true, token := 65535, arg := 2 ^ 32 - 1, vl := 1, payload := [1, 2] },
      by decide +kernel⟩⟩

/-- States and operands that meet the hypotheses of FlitsAcceptedAndFlow, clause by clause. -/
theorem witness_FlitsAcceptedAndFlow :
    (∃ (s : State) (p : Nat) (lane : Nat) (fl : Flit) (x : Port) (y : Port) (fec : Fec) (u : FaultUnit), x = s.getPort p ∧ lane = (if Tab.get 0
      x.order (x.rxIndex % max (s.lanesOf p) 1) = 0 then x.rxIndex % max (s.lanesOf p) 1 else Tab.get 0 x.order (x.rxIndex % max (s.lanesOf p) 1) - 1)
      ∧ y = { x with rxIndex := x.rxIndex + 1 } ∧ u = Tab.get {} s.faults.unit (unitKey 10 p) ∧ (fec = .failed ∨ flCrcOk fl = false) ∧ s.carries p =
      true ∧ lane < s.lanesOf p ∧ x.laneRx = []) ∧
    (∃ (s : State) (p : Nat) (lane : Nat) (fl : Flit) (x : Port) (y : Port) (fec : Fec), x = s.getPort p ∧ lane = (if Tab.get 0 x.order (x.rxIndex %
      max (s.lanesOf p) 1) = 0 then x.rxIndex % max (s.lanesOf p) 1 else Tab.get 0 x.order (x.rxIndex % max (s.lanesOf p) 1) - 1) ∧ y =
      { x with rxIndex := x.rxIndex + 1 } ∧ flCrcOk fl = true ∧ s.carries p = true ∧ lane < s.lanesOf p ∧ x.laneRx = [] ∧ flSeq fl ≠ x.rxSeq ∧ (fec =
      .clean ∨ fec = .corrected)) ∧
    (∃ (s : State) (p : Nat) (lane : Nat) (fl : Flit) (x : Port) (y : Port) (a : Nat) (keep : Bool), x = s.getPort p ∧ lane = (if Tab.get 0 x.order
      (x.rxIndex % max (s.lanesOf p) 1) = 0 then x.rxIndex % max (s.lanesOf p) 1 else Tab.get 0 x.order (x.rxIndex % max (s.lanesOf p) 1) - 1) ∧ y =
      { x with rxIndex := x.rxIndex + 1 } ∧ a = (flAck fl + 1 + 4096 - x.txAcked % 4096) % 4096 ∧ flCrcOk fl = true ∧ s.carries p = true ∧ lane <
      s.lanesOf p ∧ x.laneRx = [] ∧ flSeq fl = x.rxSeq ∧ flFtype fl = 0 ∧ (keep = true ↔ a = 0 ∨ x.replay.length < a)) ∧
    (∃ (s : State) (p : Nat) (lane : Nat) (fl : Flit) (x : Port) (y : Port) (vl : Nat) (dl : Nat) (k : Nat) (whole : List Byte) (f : Frame), x =
      s.getPort p ∧ lane = (if Tab.get 0 x.order (x.rxIndex % max (s.lanesOf p) 1) = 0 then x.rxIndex % max (s.lanesOf p) 1 else Tab.get 0 x.order
      (x.rxIndex % max (s.lanesOf p) 1) - 1) ∧ y = { x with rxIndex := x.rxIndex + 1 } ∧ vl = flVl fl ∧ dl = (if flFirst fl then flDl fl else Tab.get
      0 x.partialDl vl - 1) ∧ k = schOf vl dl ∧ whole = (if flFirst fl then [] else Tab.get [] x.partialRx vl) ++ slice fl.payload 0 232 ∧ f =
      frameParse vl dl whole ∧ flCrcOk fl = true ∧ s.carries p = true ∧ lane < s.lanesOf p ∧ x.laneRx = [] ∧ flSeq fl = x.rxSeq ∧ flFtype fl = 1 ∧
      flNak fl = false ∧ flSkind fl = 0) ∧
    (∃ (s : State) (p : Nat) (lane : Nat) (next : Nat) (x : Port), x = s.getPort p ∧ next = (if Tab.get 0 x.order (x.rxIndex % max (s.lanesOf p) 1)
      = 0 then x.rxIndex % max (s.lanesOf p) 1 else Tab.get 0 x.order (x.rxIndex % max (s.lanesOf p) 1) - 1) ∧ s.carries p = true ∧ lane < s.lanesOf p
      ∧ lane ≠ next ∧ Tab.get [] x.laneRx next = []) ∧
    (∃ (s : State) (p : Nat) (lane : Nat) (next : Nat) (fec : Fec) (fl : Flit) (x : Port) (gl : _) (other : _), x = s.getPort p ∧ next = (if Tab.get
      0 x.order (x.rxIndex % max (s.lanesOf p) 1) = 0 then x.rxIndex % max (s.lanesOf p) 1 else Tab.get 0 x.order (x.rxIndex % max (s.lanesOf p) 1) -
      1) ∧ lane = next ∧ fec = .clean ∧ other = (if Tab.get 0 x.order ((x.rxIndex + 1) % max (s.lanesOf p) 1) = 0 then (x.rxIndex + 1) % max
      (s.lanesOf p) 1 else Tab.get 0 x.order ((x.rxIndex + 1) % max (s.lanesOf p) 1) - 1) ∧ x.laneRx = [(other, [(.clean, gl)])] ∧ flCrcOk fl = true ∧
      flCrcOk gl = true ∧ s.carries p = true ∧ lane < s.lanesOf p ∧ other ≠ lane ∧ flSeq fl = x.rxSeq ∧ flSeq gl = (x.rxSeq + 1) % 4096 ∧ flFtype fl =
      0 ∧ flFtype gl = 0 ∧ flNak fl = false ∧ flNak gl = false) ∧
    (∃ (s : State) (p : Nat) (lane : Nat) (x : Port), x = s.getPort p ∧ s.lanesOf p ≤ lane) ∧
    (∃ (s : State) (p : Nat) (lane : Nat) (x : Port), x = s.getPort p ∧ lane < s.lanesOf p ∧ s.carries p = false ∧ x.stage ≠ .align ∧ x.stage ≠
      .ident) ∧
    (∃ (s : State) (p : Nat) (lane : Nat) (fec : Fec) (fl : Flit) (x : Port), x = s.getPort p ∧ fec = .clean ∧ flCrcOk fl = true ∧ lane < s.lanesOf
      p ∧ s.carries p = false ∧ (x.stage = .align ∨ x.stage = .ident)) ∧
    (∃ (s : State) (p : Nat) (lane : Nat) (fec : Fec) (fl : Flit) (x : Port), x = s.getPort p ∧ fec = .corrected ∧ flCrcOk fl = true ∧ lane <
      s.lanesOf p ∧ s.carries p = false ∧ (x.stage = .align ∨ x.stage = .ident)) ∧
    (∃ (s : State) (p : Nat) (lane : Nat) (fec : Fec) (fl : Flit) (x : Port), x = s.getPort p ∧ (flCrcOk fl = false ∨ fec = .failed) ∧ lane <
      s.lanesOf p ∧ s.carries p = false ∧ (x.stage = .align ∨ x.stage = .ident)) ∧
    (∃ (s : State) (p : Nat) (k : Nat) (c : Flow) (at_ : _), c = (s.getPort p).chan k ∧ c.heldUntil = some at_ ∧ at_ ≤ s.aon.ticks) ∧
    (∃ (s : State) (p : Nat) (k : Nat) (c : Flow), c = (s.getPort p).chan k ∧ (c.heldUntil = none ∨ (∃ at_, c.heldUntil = some at_ ∧ s.aon.ticks <
      at_))) ∧
    (∃ (s : State) (p : Nat) (k : Nat) (c : Flow) (at_ : _), c = (s.getPort p).chan k ∧ c.offAt = some at_ ∧ 2048 - c.taken ≤ s.onAbove p ∧
      s.offHold p ≤ 2 * (s.aon.ticks - at_)) ∧
    (∃ (s : State) (p : Nat) (k : Nat) (c : Flow), c = (s.getPort p).chan k ∧ (c.offAt = none ∨ s.onAbove p < 2048 - c.taken ∨ (∃ at_, c.offAt =
      some at_ ∧ 2 * (s.aon.ticks - at_) < s.offHold p))) :=
  ⟨⟨port2 { state := .up, rxIndex := 5, order := [(1, 3)] }, 2, _, lastFlit 0, _, _, (.failed : Fec), _, rfl, rfl, rfl, rfl, (by exact .inl rfl),
      by decide +kernel⟩,
    ⟨port2 { state := .up, rxIndex := 5, order := [(1, 3)] }, 2, _, idle0 7 0 false (0, 0, 0), _, _, (.corrected : Fec), rfl, rfl, rfl,
      (by exact flit_ok _ _), by decide +kernel⟩,
    ⟨port2
      { state := .up, rxIndex := 3, rxSeq := 7, txAcked := 4095, txIndex := 9, replay := [lastFlit 4095, lastFlit 0, lastFlit 1], tries := [1, 2, 3], chunks := [(0, 5, 0, 0), (0, 5, 1, 1)] },
      2, _, idle0 7 0 true (2, 2, 100), _, _, _, false, rfl, rfl, rfl, rfl, (by exact flit_ok _ _), by decide +kernel⟩,
    ⟨port2 { state := .up, rxIndex := 3, rxSeq := 7, partialRx := [(2, firstPart)], partialDl := [(2, 1)] }, 2, _, lastFlit 7, _, _, _, _, _, _, _,
      rfl, rfl, rfl, rfl, rfl, rfl, rfl, rfl, (by exact flit_ok _ _), by decide +kernel⟩,
    ⟨port2 { state := .up, rxIndex := 3 }, 2, 2, _, _, rfl, rfl, by decide +kernel⟩,
    ⟨port2 { state := .up, rxSeq := 4095, laneRx := [(1, [((.clean : Fec), idle0 0 4095 false (0, 0, 0))])] }, 2, _, _, _, idle0 4095 4095 false (0,
      0, 0), _, idle0 0 4095 false (0, 0, 0), _, rfl, rfl, rfl, rfl, rfl, (by exact rfl), (by exact flit_ok _ _), (by exact flit_ok _ _),
      by decide +kernel⟩,
    ⟨running, 2, 4, _, rfl, by decide +kernel⟩,
    ⟨port2 { state := .absent }, 2, 3, _, rfl, by decide +kernel⟩,
    ⟨port2 { state := .bringup, stage := .align }, 2, 3, _, idle0 4095 4095 false (0, 0, 0), _, rfl, rfl, (by exact flit_ok _ _), by decide +kernel⟩,
    ⟨port2 { state := .bringup, stage := .align }, 2, 3, _, idle0 4095 4095 false (0, 0, 0), _, rfl, rfl, (by exact flit_ok _ _), by decide +kernel⟩,
    ⟨port2 { state := .bringup, stage := .align }, 2, 3, (.failed : Fec), idle0 4095 4095 false (0, 0, 0), _, rfl, (by exact .inr rfl),
      by decide +kernel⟩,
    ⟨port2 { state := .up, flow := [(2, { heldUntil := some 1000000000, taken := 3 })] }, 2, 2, _, 1000000000, rfl, by decide +kernel⟩,
    ⟨port2 { state := .up }, 2, 2, _, rfl, by decide +kernel⟩,
    ⟨port2 { state := .up, flow := [(2, { offAt := some 9, taken := 1728 })] }, 2, 2, _, 9, rfl, by decide +kernel⟩,
    ⟨port2 { state := .up, flow := [(2, { offAt := some 9, taken := 1727 })] }, 2, 2, _, rfl, by decide +kernel⟩⟩

/-- States and operands that meet the hypotheses of PortsSendByPriority, clause by clause. -/
theorem witness_PortsSendByPriority :
    (∃ (s : State) (p : Nat), s.carries p = false) ∧
    (∃ (s : State) (p : Nat) (b : List Byte) (more : List (List Byte)) (x : Port), x = s.getPort p ∧ s.carries p = true ∧ x.mgmt = b :: more ∧
      x.replay.length < 1024) ∧
    (∃ (s : State) (p : Nat) (n : Nat) (f : Frame) (key : Option Nat) (x : Port), x = s.getPort p ∧ n = frameFlits f ∧ s.carries p = true ∧ (x.mgmt
      = [] ∨ 1024 ≤ x.replay.length) ∧ s.pickFrame p = some (f, key) ∧ f.vl < 4 ∧ f.dl < 2) ∧
    (∃ (s : State) (p : Nat) (f : Frame) (key : Option Nat) (x : Port) (k : _), x = s.getPort p ∧ s.pickFrame p = some (f, key) ∧ k < 6 ∧ vlOfSch k
      = f.vl) ∧
    (∃ (s : State) (p : Nat) (f : Frame) (key : Option Nat) (x : Port), x = s.getPort p ∧ key = some 64 ∧ s.pickFrame p = some (f, key)) ∧
    (∃ (s : State) (p : Nat) (f : Frame) (key : Option Nat) (x : Port) (k : _), x = s.getPort p ∧ key = some k ∧ s.pickFrame p = some (f, key) ∧ k ≠
      64) ∧
    (∃ (s : State) (p : Nat) (f : Frame) (key : Option Nat) (x : Port) (g : _), x = s.getPort p ∧ s.pickFrame p = some (f, key) ∧ key ≠ some 64 ∧
      Tab.get 0 x.used 64 < 4 * s.lanesOf p ∧ g ∈ x.heads ∧ g.vl = 2) ∧
    (∃ (s : State) (p : Nat) (f : Frame) (key : Option Nat) (x : Port) (g : _), x = s.getPort p ∧ key = none ∧ s.pickFrame p = some (f, key) ∧ g ∈
      x.heads ∧ g.vl < 2 ∧ Tab.get 0 x.used g.part < s.slotsOn g.part p) ∧
    (∃ (s : State) (p : Nat) (f : Frame) (key : Option Nat) (x : Port) (g : _), x = s.getPort p ∧ key = none ∧ s.pickFrame p = some (f, key) ∧
      x.lastRest = true ∧ f.vl = 2 ∧ g ∈ x.heads ∧ g.vl = 3) ∧
    (∃ (s : State) (p : Nat) (f : Frame) (key : Option Nat) (x : Port) (g : _), x = s.getPort p ∧ key = none ∧ s.pickFrame p = some (f, key) ∧
      x.lastRest = false ∧ f.vl = 3 ∧ g ∈ x.heads ∧ g.vl = 2) ∧
    (∃ (s : State) (p : Nat) (x : Port), x = s.getPort p ∧ s.carries p = true ∧ s.pickFrame p = none ∧ x.mgmt = [] ∧ (∀ k, k < 6 → (x.chan
      k).frameEnd ≤ s.aon.ticks) ∧ x.replay.length < 1024) ∧
    (∃ (s : State) (p : Nat) (x : Port), x = s.getPort p ∧ (1024 ≤ x.replay.length ∨ x.mgmt = [] ∧ (∃ k, k < 6 ∧ s.aon.ticks < (x.chan k).frameEnd))
      ∧ s.carries p = true ∧ s.pickFrame p = none) :=
  ⟨⟨port0 { state := .lost }, 0, by decide +kernel⟩,
    ⟨port0 { state := .up, mgmt := [[1, 2], [3]], nak := true, symbols := [(1, 2, 3)], txSeq := 4095, txIndex := 6 }, 0, [1, 2], [[3]], _, rfl,
      by decide +kernel⟩,
    ⟨port0 { state := .up, mgmt := [], nak := true, tx := [txFrame 0 0], symbols := [(1, 2, 3)], txSeq := 4095, txIndex := 6, used := [(0, 3)] }, 0,
      _, txFrame 0 0, some 0, _, rfl, rfl, by decide +kernel⟩,
    ⟨port0 { state := .up, tx := [txFrame 2 0] }, 0, txFrame 2 0, some 64, _, 3, rfl, by decide +kernel⟩,
    ⟨port0 { state := .up, tx := [txFrame 2 0] }, 0, txFrame 2 0, _, _, rfl, rfl, by decide +kernel⟩,
    ⟨port0 { state := .up, tx := [txFrame 1 0], used := [(0, 3)] }, 0, txFrame 1 0, _, _, 0, rfl, rfl, by decide +kernel⟩,
    ⟨port0 { state := .up, tx := [txFrame 2 0, txFrame 3 0], flow := [(2, { heldUntil := some 2000000000 })] }, 0, txFrame 3 0, none, _, txFrame 2
      0, rfl, by decide +kernel⟩,
    ⟨port0 { state := .up, tx := [txFrame 1 0, txFrame 3 0], flow := [(1, { heldUntil := some 2000000000 })] }, 0, txFrame 3 0, _, _, txFrame 1 0,
      rfl, rfl, by decide +kernel⟩,
    ⟨port0
      { state := .up, lastRest := true, used := [(64, 16)], tx := [txFrame 3 0, txFrame 2 0], flow := [(4, { heldUntil := some 2000000000 })] }, 0,
      txFrame 2 0, _, _, txFrame 3 0, rfl, rfl, by decide +kernel⟩,
    ⟨port0 { state := .up, used := [(64, 16)], tx := [txFrame 2 0, txFrame 3 0], flow := [(2, { heldUntil := some 2000000000 })] }, 0, txFrame 3 0,
      _, _, txFrame 2 0, rfl, rfl, by decide +kernel⟩,
    ⟨port0 { state := .up, symbols := [(2, 3, 100)], txSeq := 4095 }, 0, _, rfl, by decide +kernel⟩,
    ⟨port0 { state := .up, flow := [(4, { frameEnd := 1000000001 })] }, 0, _, rfl, (by exact .inr ⟨rfl, 4, by decide +kernel⟩), by decide +kernel⟩⟩


/-- A forwarded MEM_REGULATE with flags. -/
def fwdCmd (flags : Nat) (b : List Byte) (addr : Nat) : Held := { cmd 0x0901 3 b with flags := flags, addr := addr }
/-- A broadcast frame that passes through to the X+ port. -/
def through0 : Frame := { dst := ⟨2, 1, 1⟩, src := ⟨0, 1, 1⟩, kind := 4, vl := 2, payload := [1] }
/-- A COMMAND frame. -/
def cmdFrame (op arg : Nat) : Frame :=
  { dst := ⟨1, 1, 1⟩, src := ⟨0, 1, 1⟩, kind := 3, vl := 2, arg := arg, payload := record 16 [⟨0, 2, op⟩, ⟨2, 1, 5⟩, ⟨3, 1, 1⟩, ⟨4, 2, 7⟩, ⟨6, 2, 4⟩] ++ [1, 0, 0, 0] }
/-- A telemetry frame of request 7. -/
def teleFrame (ty : Nat) (b : List Byte) : Frame := { dst := ⟨1, 1, 1⟩, src := ⟨0, 0, 0⟩, kind := 9, vl := 3, arg := ty + 256 * 7, payload := b }
/-- A congestion map of a box in progress. -/
def map0 (box : List Nat) (sent : Nat) (ask : List Coord) (e : List (Coord × List Byte)) : CMap :=
  { ch := 1, reqId := 7, box := box, lastSent := sent, toAsk := ask, entries := e }
/-- A package that makes it. -/
def mapping (m : CMap) : State := { held 1 { cmd 0x0502 0 [] with stepped := true, acked := true } running with cmap := some m }
/-- A package whose ports have counted flits since its last map. -/
def counted : State :=
  { (running.updPort 3 fun x => { x with count := { x.count with vl := [(0, 9000), (1, 200), (6, 50)] } }) with
    links := { (running.updPort 3 fun x => { x with count := { x.count with vl := [(0, 9000), (1, 200), (6, 50)] } }).links with
      mapSince := 300, mapLevels := [(5, 700)], mapPeak := [(3, 1024)], mapBase := [(24, 1000)] } }
/-- States and operands that meet the hypotheses of RoutingCommandsAndMaps, clause by clause. -/
theorem witness_RoutingCommandsAndMaps :
    (∃ (s : State) (p : Nat) (q : Nat) (dir : Nat) (f : Frame) (u : State), Deliverable s p f ∧ u = s.takeRx p f ∧ f.dst ≠ s.here ∧ kindRouted
      f.kind = true ∧ nextDir s.links.noWrap s.size s.here f.dst = some dir ∧ s.outPort f.dst = some q ∧ s.isSelvage q = false ∧ (s.getPort q).state =
      .up) ∧
    (∃ (s : State) (p : Nat) (q : Nat) (dir : Nat) (f : Frame) (u : State) (k : _), Deliverable s p f ∧ u = s.takeRx p f ∧ f.dst ≠ s.here ∧
      kindRouted f.kind = true ∧ nextDir s.links.noWrap s.size s.here f.dst = some dir ∧ s.outPort f.dst = some q ∧ (s.isSelvage q = true ∧ k = 8 ∨
      s.isSelvage q = false ∧ (s.getPort q).state = .lost ∧ k = 10)) ∧
    (∃ (s : State) (f : Frame), (f.dst = s.here ∨ kindRouted f.kind = false)) ∧
    (∃ (s : State) (p : Nat) (f : Frame), f ∉ (s.getPort p).rx) ∧
    (∃ (s : State) (p : Nat) (f : Frame) (q : _), f ∈ (s.getPort p).rx ∧ q ≠ p) ∧
    (∃ (nw : Nat) (n : Nat) (k : Nat) (size : Coord) (a : Coord) (b : Coord), coordOn size k = n ∧ coordOn a k < n ∧ coordOn b k < n ∧ k < 3 ∧
      coordOn a k ≠ coordOn b k ∧ (∀ j, j < k → coordOn a j = coordOn b j) ∧ bit nw k = true) ∧
    (∃ (nw : Nat) (n : Nat) (k : Nat) (size : Coord) (a : Coord) (b : Coord), coordOn size k = n ∧ coordOn a k < n ∧ coordOn b k < n ∧ k < 3 ∧
      coordOn a k ≠ coordOn b k ∧ (∀ j, j < k → coordOn a j = coordOn b j) ∧ bit nw k = false) ∧
    (∃ (s : State) (op : Nat) (c : Instr) (h : Held) (i : OpInfo) (b : List Byte) (hdr : List Byte), hdr = record 16 [⟨0, 2, op⟩, ⟨2, 1, h.part⟩,
      ⟨3, 1, b2n h.long + 2 * b2n h.host⟩, ⟨4, 2, h.tag⟩, ⟨6, 2, h.length⟩] ∧ (op, c) ∈ [(0x0201, Instr.patternLoad 1), (0x0203, Instr.patternStart
      1), (0x0204, Instr.patternHalt 1), (0x0401, Instr.linkProfile 1), (0x0901, Instr.memRegulate 1), (0x0902, Instr.memFill 1), (0x0A01,
      Instr.fwInfo 1)] ∧ (s.getChan 1).held = some h ∧ opInfo op = some i ∧ h.opcode = op ∧ h.stepped = false ∧ s.turnOf 1 h.tick = true ∧ (h.fwd =
      true ∨ h.twinFwd = true) ∧ s.checks i 1 h = .pass ∧ h.block = some b ∧ (h.long = true ∧ h.host = true ∨ 14816 < b.length)) ∧
    (∃ (s : State) (op : Nat) (c : Instr) (h : Held) (i : OpInfo) (b : List Byte) (hdr : List Byte), hdr = record 16 [⟨0, 2, op⟩, ⟨2, 1, h.part⟩,
      ⟨3, 1, b2n h.long + 2 * b2n h.host⟩, ⟨4, 2, h.tag⟩, ⟨6, 2, h.length⟩] ∧ (op, c) ∈ [(0x0201, Instr.patternLoad 1), (0x0203, Instr.patternStart
      1), (0x0204, Instr.patternHalt 1), (0x0401, Instr.linkProfile 1), (0x0901, Instr.memRegulate 1), (0x0902, Instr.memFill 1), (0x0A01,
      Instr.fwInfo 1)] ∧ opInfo op = some i ∧ (s.getChan 1).held = some h ∧ h.opcode = op ∧ h.stepped = false ∧ s.turnOf 1 h.tick = true ∧ (h.fwd =
      true ∨ h.twinFwd = true) ∧ s.checks i 1 h = .pass ∧ h.block = some b ∧ (h.long = false ∨ h.host = false) ∧ b.length ≤ 14816 ∧ s.links.plan =
      none) ∧
    (∃ (s : State) (op : Nat) (c : Instr) (h : Held) (i : OpInfo) (b : List Byte) (hdr : List Byte), hdr = record 16 [⟨0, 2, op⟩, ⟨2, 1, h.part⟩,
      ⟨3, 1, b2n h.long + 2 * b2n h.host⟩, ⟨4, 2, h.tag⟩, ⟨6, 2, h.length⟩] ∧ (op, c) ∈ [(0x0201, Instr.patternLoad 1), (0x0203, Instr.patternStart
      1), (0x0204, Instr.patternHalt 1), (0x0401, Instr.linkProfile 1), (0x0901, Instr.memRegulate 1), (0x0902, Instr.memFill 1), (0x0A01,
      Instr.fwInfo 1)] ∧ opInfo op = some i ∧ (s.getChan 1).held = some h ∧ h.opcode = op ∧ h.stepped = false ∧ s.turnOf 1 h.tick = true ∧ (h.fwd =
      true ∨ h.twinFwd = true) ∧ s.checks i 1 h = .pass ∧ h.block = some b ∧ (h.long = false ∨ h.host = false) ∧ b.length ≤ 14816 ∧ s.links.plan ≠
      none ∧ h.twinFwd = false) ∧
    (∃ (s : State) (op : Nat) (c : Instr) (h : Held) (i : OpInfo) (b : List Byte) (hdr : List Byte), hdr = record 16 [⟨0, 2, op⟩, ⟨2, 1, h.part⟩,
      ⟨3, 1, b2n h.long + 2 * b2n h.host⟩, ⟨4, 2, h.tag⟩, ⟨6, 2, h.length⟩] ∧ (op, c) ∈ [(0x0201, Instr.patternLoad 1), (0x0203, Instr.patternStart
      1), (0x0204, Instr.patternHalt 1), (0x0401, Instr.linkProfile 1), (0x0901, Instr.memRegulate 1), (0x0902, Instr.memFill 1), (0x0A01,
      Instr.fwInfo 1)] ∧ opInfo op = some i ∧ (s.getChan 1).held = some h ∧ h.opcode = op ∧ h.stepped = false ∧ s.turnOf 1 h.tick = true ∧ (h.fwd =
      true ∨ h.twinFwd = true) ∧ s.checks i 1 h = .pass ∧ h.block = some b ∧ (h.long = false ∨ h.host = false) ∧ b.length ≤ 14816 ∧ s.links.plan ≠
      none ∧ h.twinFwd = true) ∧
    (∃ (s : State) (p : Nat) (f : Frame) (u : State), Deliverable s p f ∧ u = s.takeRx p f ∧ f.kind = 3 ∧ f.dst = s.here ∧ bit f.arg 0 = true) ∧
    (∃ (s : State) (p : Nat) (f : Frame) (u : State) (h : Held), Deliverable s p f ∧ u = s.takeRx p f ∧ h =
      { opcode := fld f.payload 0 2, part := bits (fld f.payload 2 1) 5 0, flags := bits (fld f.payload 3 1) 3 0, tag := fld f.payload 4 2, length := fld f.payload 6 2, addr := fld f.payload 8 8, reserved := bits (fld f.payload 2 1) 7 6 != 0 || bits (fld f.payload 3 1) 7 4 != 0, params := .ok (f.payload.drop 16), via := .frame f.src, tick := s.aon.ticks, at_ := s.sync.stitch }
      ∧ f.kind = 3 ∧ f.dst = s.here ∧ bit f.arg 0 = false ∧ 16 ≤ f.payload.length ∧ (s.getChan 1).held ≠ none) ∧
    (∃ (s : State) (p : Nat) (f : Frame) (u : State) (h : Held), Deliverable s p f ∧ u = s.takeRx p f ∧ h =
      { opcode := fld f.payload 0 2, part := bits (fld f.payload 2 1) 5 0, flags := bits (fld f.payload 3 1) 3 0, tag := fld f.payload 4 2, length := fld f.payload 6 2, addr := fld f.payload 8 8, reserved := bits (fld f.payload 2 1) 7 6 != 0 || bits (fld f.payload 3 1) 7 4 != 0, params := .ok (f.payload.drop 16), via := .frame f.src, tick := s.aon.ticks, at_ := s.sync.stitch }
      ∧ f.kind = 3 ∧ f.dst = s.here ∧ bit f.arg 0 = false ∧ 16 ≤ f.payload.length ∧ (s.getChan 1).held = none ∧ opInfo h.opcode = none) ∧
    (∃ (s : State) (p : Nat) (f : Frame) (u : State) (h : Held), Deliverable s p f ∧ u = s.takeRx p f ∧ h =
      { opcode := fld f.payload 0 2, part := bits (fld f.payload 2 1) 5 0, flags := bits (fld f.payload 3 1) 3 0, tag := fld f.payload 4 2, length := fld f.payload 6 2, addr := fld f.payload 8 8, reserved := bits (fld f.payload 2 1) 7 6 != 0 || bits (fld f.payload 3 1) 7 4 != 0, params := .ok (f.payload.drop 16), via := .frame f.src, tick := s.aon.ticks, at_ := s.sync.stitch }
      ∧ f.kind = 3 ∧ f.dst = s.here ∧ bit f.arg 0 = false ∧ 16 ≤ f.payload.length ∧ (s.getChan 1).held = none ∧ (opInfo h.opcode).isSome = true ∧
      h.opcode ≠ 0x0903 ∧ (∀ e ∈ s.faults.policyPend, e.ch ≠ 1)) ∧
    (∃ (s : State) (f : Frame), (f.kind ≠ 3 ∨ f.dst ≠ s.here)) ∧
    (∃ (s : State) (ch : Nat) (h : Held) (b : List Byte) (box : List Nat) (m : CMap) (all : List Coord), Commanded s 0x0502 ch h b ∧ box =
      (List.range 6).map (fun i => fld b i 1) ∧ all = (boxCoords box).filter (fun c => decide (c.x < s.size.x) && decide (c.y < s.size.y) && decide
      (c.z < s.size.z)) ∧ m = { ch := ch, reqId := (s.reqId + 1) % 2 ^ 16, box := box, lastSent := s.aon.ticks, toAsk := all.drop 256, entries := [] }
      ∧ (zeros b 6 8 = false ∨ h.host = false ∧ 65536 < 32 + 80 * boxCount box)) ∧
    (∃ (s : State) (ch : Nat) (h : Held) (b : List Byte) (box : List Nat) (m : CMap) (all : List Coord), Commanded s 0x0502 ch h b ∧ box =
      (List.range 6).map (fun i => fld b i 1) ∧ all = (boxCoords box).filter (fun c => decide (c.x < s.size.x) && decide (c.y < s.size.y) && decide
      (c.z < s.size.z)) ∧ m = { ch := ch, reqId := (s.reqId + 1) % 2 ^ 16, box := box, lastSent := s.aon.ticks, toAsk := all.drop 256, entries := [] }
      ∧ zeros b 6 8 = true ∧ (h.host = true ∨ 32 + 80 * boxCount box ≤ 65536) ∧ 0 < boxCount box) ∧
    (∃ (s : State) (m : CMap), s.cmap = some m ∧ m.lastSent + 250000 ≤ s.aon.ticks) ∧
    (∃ (s : State) (m : CMap), (s.cmap = none ∨ s.cmap = some m ∧ s.aon.ticks < m.lastSent + 250000)) ∧
    (∃ (s : State) (p : Nat) (f : Frame), Deliverable s p f ∧ f.kind = 9 ∧ f.dst = s.here ∧ ttype f = 1) ∧
    (∃ (s : State) (p : Nat) (f : Frame), Deliverable s p f ∧ f.kind = 9 ∧ f.dst = s.here ∧ ttype f ≠ 1 ∧ ttype f ≠ 2) ∧
    (∃ (s : State) (p : Nat) (f : Frame) (m : _), Deliverable s p f ∧ f.kind = 9 ∧ f.dst = s.here ∧ ttype f = 2 ∧ s.cmap = some m ∧ m.takes f = true
      ∧ m.toAsk = [] ∧ m.entries.length + 1 ≠ boxCount m.box) ∧
    (∃ (s : State) (p : Nat) (f : Frame) (m : _), Deliverable s p f ∧ f.kind = 9 ∧ f.dst = s.here ∧ ttype f = 2 ∧ s.cmap = some m ∧ m.takes f = true
      ∧ m.toAsk = [] ∧ m.entries.length + 1 = boxCount m.box) ∧
    (∃ (s : State) (p : Nat) (f : Frame) (m : _) (d : _) (rest : _), Deliverable s p f ∧ f.kind = 9 ∧ f.dst = s.here ∧ ttype f = 2 ∧ s.cmap = some m
      ∧ m.takes f = true ∧ m.toAsk = d :: rest ∧ m.entries.length + 1 < boxCount m.box ∧ m.entries.length + 1 + m.toAsk.length + 255 = ((boxCoords
      m.box).filter (inside s.size)).length) ∧
    (∃ (s : State) (p : Nat) (f : Frame), Deliverable s p f ∧ f.kind = 9 ∧ f.dst = s.here ∧ ttype f = 2 ∧ (s.cmap = none ∨ ∃ m, s.cmap = some m ∧
      m.takes f = false)) ∧
    (∃ (s : State) (f : Frame), (f.kind ≠ 9 ∨ f.dst ≠ s.here ∨ ttype f = 2)) ∧
    (∃ (s : State) (f : Frame), (f.kind ≠ 9 ∨ f.dst ≠ s.here ∨ ttype f ≠ 2)) :=
  ⟨⟨running, 1, 0, 0, through0, _, deliverable_of (by decide +kernel), rfl, by decide +kernel⟩,
    ⟨port0 { state := .lost }, 1, 0, 0, through0, _, 10, deliverable_of (by decide +kernel), rfl, by decide +kernel⟩,
    ⟨running, cmdFrame 0x0103 0, by decide +kernel⟩,
    ⟨running, 1, cmdFrame 0x0103 0, by decide +kernel⟩,
    ⟨(running.updPort 1 fun x => { x with rx := [cmdFrame 0x0103 0] }), 1, cmdFrame 0x0103 0, 12, by decide +kernel⟩,
    ⟨7, 64, 1, ⟨3, 64, 2⟩, ⟨1, 63, 0⟩, ⟨1, 0, 1⟩, by decide +kernel⟩,
    ⟨5, 64, 1, ⟨3, 64, 2⟩, ⟨1, 63, 0⟩, ⟨1, 0, 1⟩, by decide +kernel⟩,
    ⟨held 1 (fwdCmd 7 (regulate0 4 128) 0x020100) running, 0x0901, .memRegulate 1, fwdCmd 7 (regulate0 4 128) 0x020100, _, regulate0 4 128, _, rfl,
      (by exact .tail _ (.tail _ (.tail _ (.tail _ (.head _))))), (by exact rfl), (by exact rfl), by decide +kernel⟩,
    ⟨held 1 (fwdCmd 4 (regulate0 4 128) 0x020101) up, 0x0901, .memRegulate 1, fwdCmd 4 (regulate0 4 128) 0x020101, _, regulate0 4 128, _, rfl,
      (by exact .tail _ (.tail _ (.tail _ (.tail _ (.head _))))), (by exact rfl), by decide +kernel⟩,
    ⟨held 1 (fwdCmd 4 (regulate0 4 128) 0x020101) running, 0x0901, .memRegulate 1, fwdCmd 4 (regulate0 4 128) 0x020101, _, regulate0 4 128, _, rfl,
      (by exact .tail _ (.tail _ (.tail _ (.tail _ (.head _))))), (by exact rfl), by decide +kernel⟩,
    ⟨held 1 (fwdCmd 8 (regulate0 4 128) 0) running, 0x0901, .memRegulate 1, fwdCmd 8 (regulate0 4 128) 0, _, regulate0 4 128, _, rfl,
      (by exact .tail _ (.tail _ (.tail _ (.tail _ (.head _))))), (by exact rfl), by decide +kernel⟩,
    ⟨running, 1, cmdFrame 0x0103 1, _, deliverable_of (by decide +kernel), rfl, by decide +kernel⟩,
    ⟨held 1 (cmd 0x0103 0 []) running, 1, cmdFrame 0x0103 0, _, _, deliverable_of (by decide +kernel), rfl, rfl, by decide +kernel⟩,
    ⟨running, 1, cmdFrame 0x1103 0, _, _, deliverable_of (by decide +kernel), rfl, rfl, by decide +kernel⟩,
    ⟨running, 1, cmdFrame 0x0103 0, _, _, deliverable_of (by decide +kernel), rfl, rfl, by decide +kernel⟩,
    ⟨running, through0, by decide +kernel⟩,
    ⟨held 1 (cmd 0x0502 0 (record 8 [⟨1, 1, 1⟩, ⟨6, 1, 1⟩])) (running), 1, cmd 0x0502 0 (record 8 [⟨1, 1, 1⟩, ⟨6, 1, 1⟩]), record 8 [⟨1, 1, 1⟩, ⟨6,
      1, 1⟩], _, _, _, commanded_of (by decide +kernel), rfl, rfl, rfl, by decide +kernel⟩,
    ⟨held 1 (cmd 0x0502 0 (record 8 [⟨1, 1, 2⟩, ⟨3, 1, 1⟩])) (running), 1, cmd 0x0502 0 (record 8 [⟨1, 1, 2⟩, ⟨3, 1, 1⟩]), record 8 [⟨1, 1, 2⟩, ⟨3,
      1, 1⟩], _, _, _, commanded_of (by decide +kernel), rfl, rfl, rfl, by decide +kernel⟩,
    ⟨mapping (map0 [0, 1, 0, 0, 0, 0] 999750000 [] []), map0 [0, 1, 0, 0, 0, 0] 999750000 [] [], by decide +kernel⟩,
    ⟨mapping (map0 [0, 1, 0, 0, 0, 0] 999750001 [] []), map0 [0, 1, 0, 0, 0, 0] 999750001 [] [], by decide +kernel⟩,
    ⟨counted, 1, teleFrame 1 [], deliverable_of (by decide +kernel), by decide +kernel⟩,
    ⟨counted, 1, teleFrame 3 [], deliverable_of (by decide +kernel), by decide +kernel⟩,
    ⟨mapping (map0 [0, 1, 0, 0, 0, 0] 5 [] []), 1, teleFrame 2 [4, 5], map0 [0, 1, 0, 0, 0, 0] 5 [] [], deliverable_of (by decide +kernel),
      by decide +kernel⟩,
    ⟨mapping (map0 [0, 1, 0, 0, 0, 0] 5 [] [(⟨1, 0, 0⟩, [7])]), 1, teleFrame 2 [4, 5], map0 [0, 1, 0, 0, 0, 0] 5 [] [(⟨1, 0, 0⟩, [7])],
      deliverable_of (by decide +kernel), by decide +kernel⟩,
    ⟨planned (mapping (map0 [0, 2, 0, 63, 0, 1] 5 (List.replicate 127 ⟨2, 63, 1⟩) [(⟨1, 0, 0⟩, [7])])) { plan0 with size := ⟨3, 64, 2⟩ }, 1,
      teleFrame 2 [4, 5], map0 [0, 2, 0, 63, 0, 1] 5 (List.replicate 127 ⟨2, 63, 1⟩) [(⟨1, 0, 0⟩, [7])], (⟨2, 63, 1⟩ : Coord), List.replicate 126 (⟨2,
      63, 1⟩ : Coord), deliverable_of (by decide +kernel), by decide +kernel⟩,
    ⟨running, 1, teleFrame 2 [4, 5], deliverable_of (by decide +kernel), by decide +kernel⟩,
    ⟨running, through0, by decide +kernel⟩,
    ⟨running, through0, by decide +kernel⟩⟩


/-- The synchronization state after a command. -/
def afterSync (c : Instr) (s : State) : Sync := match exec c s with | .next t => t.sync | _ => s.sync
/-- A running package at a round with one fabric port up. -/
def roundAt (y : Sync) : State := { running with sync := { y with stitch := 1024 }, links := { running.links with port := [(0, { state := .up })] } }
/-- A neighbour whose SYNC of the round is in. -/
def near : Neighbour := { root := 2, depth := 3, depK := 1025, arrK := 1025, dep := 5, arr := 10, heard := true }
/-- The weights of slab order lie in the pages of the frond, whatever the order is. -/
theorem slab_pages : aloadPages rec0 { src := 4096, wfmt := 0, expand := 0, kValid := 3, nValid := 2 } = true := by
  simp only [aloadPages, if_pos, List.all_eq_true]
  intro k _ n _
  exact decide_eq_true (Nat.le_trans (Nat.add_le_add_right (Nat.add_le_add_left (Nat.mul_le_mul_left 4 (Nat.le_of_lt (Nat.mod_lt _ (by decide)))) 4096) 4) (by decide))
/-- A load of a slab. -/
def load0 : AloadArgs := { src := 4096, wfmt := 0, expand := 0, kValid := 3, nValid := 2 }
/-- A running package whose frond 0 is as given. -/
def fronded (g : Frond → Frond) : State := running.updFrond 0 g
/-- The record of a frond whose gang 1 is warden of every unit. -/
def rec1 : FrondRec := { rec0 with wardens := 0x111 }
/-- A running package whose records are of gang 1. -/
def gang1 : State := part 0 { part0 with image := { img0 with records := [rec1, rec1, rec1, rec1] } } running
/-- A stream of one row. -/
def stream1 : AstreamArgs :=
  { src := 4096, stride := 512, afmt := 0, m := 1, acc := 65536, accStride := 1024, initAcc := true, mode := 0, kValid := 3, nValid := 2, token := some 7 }
/-- A package whose operands of it are in the frond store. -/
def streaming (g : Arr → Arr) : State :=
  { running with store := (running.store.writeN 4096 (leBytes 4 0x3F800000 ++ leBytes 4 0x40000000)).writeN 65536 (leBytes 4 0x3F000000) }.updFrond 0
    fun x => { x with arr := g { x.arr with weight := [(0, 0x10000#19), (1, 0x20800#19), (128, 0x1FC00#19)] } }
/-- States and operands that meet the hypotheses of StitchBoundaryAdvances, clause by clause. -/
theorem witness_StitchBoundaryAdvances :
    (∃ (s : State), s.aon.phase ≠ .up) ∧
    (∃ (s : State) (k : Nat), k = (s.sync.stitch + 1) % 2 ^ 64 ∧ s.aon.phase = .up ∧ s.aon.listenDue = none ∧ (∀ e ∈ s.regulate, s.sync.stitch <
      e.at_) ∧ (∀ e ∈ s.frond, e.2.wait = []) ∧ (∀ p, p < 64 → (s.getPart p).heldPieces = [])) ∧
    (∃ (s : State) (e : RegSet), s.aon.phase = .up ∧ s.aon.listenDue = none ∧ s.regulate = [e] ∧ e.at_ ≤ s.sync.stitch ∧ (s.getPart e.part).life =
      .exists_ ∧ e.tier = 1 ∧ e.on = true ∧ (s.getPart e.part).regHbm.on = false ∧ (∀ x ∈ s.frond, x.2.wait = [])) ∧
    (∃ (s : State) (p : Nat) (x : HeldPiece), s.aon.phase = .up ∧ s.aon.listenDue = none ∧ s.regulate = [] ∧ (∀ e ∈ s.frond, e.2.wait = []) ∧ p < 64
      ∧ x ∈ (s.getPart p).heldPieces) ∧
    (∃ (s : State) (p : Nat) (f : Nat) (w : Nat) (es : Nat) (r : FrondRec), s.aon.phase = .up ∧ s.aon.listenDue = none ∧ s.regulate = [] ∧ (∀ q, q <
      64 → (s.getPart q).heldPieces = []) ∧ s.frond = [(f, s.getFrond f)] ∧ (s.getFrond f).wait = [(w, some (.issue es []))] ∧ s.unitRuns f
      (unitPinnule (wardenPinnule w)) = some (p, r) ∧ s.sync.stitch + 1 < 2 ^ 64) ∧
    (∃ (s : State), s.aon.phase = .up ∧ s.aon.listenDue ≠ none) :=
  ⟨⟨testing 3, by decide +kernel⟩,
    ⟨part 0 { part0 with regHbm := { on := true, rate := 8, depth := 128, tokens := [1, 2, 32, 31] } } (running.updPort 0 fun _ =>
      { state := .up, used := [(0, 5), (64, 2), (67, 1)] }), _, rfl, by decide +kernel⟩,
    ⟨waitingSets [{ set0 with at_ := 1000 }], { set0 with at_ := 1000 }, by decide +kernel⟩,
    ⟨regulated { on := true, rate := 8, depth := 128, tokens := [1, 2, 31, 4] }, 0, piece0, by decide +kernel⟩,
    ⟨fronded fun x => { x with wait := [(0, some (.issue 101 []))] }, 0, 0, 0, 101, rec0, by decide +kernel⟩,
    ⟨{ running with aon := { running.aon with listenDue := some 5 } }, by decide +kernel⟩⟩

/-- States and operands that meet the hypotheses of SyncRoundsAndOffsets, clause by clause. -/
theorem witness_SyncRoundsAndOffsets :
    (∃ (s : State), (s.aon.phase ≠ .up ∨ s.sync.stitch % 1024 ≠ 0 ∨ s.links.plan = none)) ∧
    (∃ (s : State) (p : Nat) (k : Nat) (ds : List (Nat × Int)) (n : Neighbour) (n' : Neighbour) (root : Nat) (depth : Nat) (parent : Option Nat) (y
      : Sync) (b : List Byte), k = s.sync.stitch ∧ n = s.neighbourAt p ∧ (n' =
      { n with missed := if n.heard then 0 else n.missed + 1, heard := n.arrK == k + 1, depK := k + 1, dep := match ds.find? fun d => d.1 == p with | some d => d.2 | none => 0 })
      ∧ b = record 232 [⟨0, 1, 0x10⟩, ⟨1, 1, depth⟩, ⟨2, 1, b2n (!s.idle)⟩, ⟨4, 4, root⟩, ⟨8, 8, k⟩] ∧ s.aon.phase = .up ∧ k % 1024 = 0 ∧ s.links.plan
      ≠ none ∧ s.syncPorts = [p] ∧ (n'.depth < 64 ∧ n'.missed < 2 ∧ n.differs = false ∧ n'.root < s.ownRank ∧ parent = some p ∧ root = n.root ∧ depth
      = n.depth + 1 ∨ (64 ≤ n'.depth ∨ 2 ≤ n'.missed ∨ n.differs = true ∨ s.ownRank ≤ n'.root) ∧ parent = none ∧ root = s.ownRank ∧ depth = 0) ∧ (y =
      { s.sync with nb := y.nb, parent := parent, root := root, depth := depth, locked := s.sync.locked && parent == s.sync.parent, zeros := if parent = s.sync.parent then s.sync.zeros else 0, lastRound := if parent = s.sync.parent then s.sync.lastRound else none })
      ∧ y.nb = Tab.upd {} s.sync.nb p (fun _ => n') ∧ n.arrK ≠ k + 1) ∧
    (∃ (s : State) (p : Nat) (k : Nat) (ds : List (Nat × Int)) (n : Neighbour) (n' : Neighbour) (root : Nat) (depth : Nat) (parent : Option Nat) (y
      : Sync) (b : List Byte), k = s.sync.stitch ∧ n = s.neighbourAt p ∧ (n' =
      { n with missed := if n.heard then 0 else n.missed + 1, heard := n.arrK == k + 1, depK := k + 1, dep := match ds.find? fun d => d.1 == p with | some d => d.2 | none => 0 })
      ∧ b = record 232 [⟨0, 1, 0x10⟩, ⟨1, 1, depth⟩, ⟨2, 1, b2n (!s.idle)⟩, ⟨4, 4, root⟩, ⟨8, 8, k⟩] ∧ s.aon.phase = .up ∧ k % 1024 = 0 ∧ s.links.plan
      ≠ none ∧ s.syncPorts = [p] ∧ (n'.depth < 64 ∧ n'.missed < 2 ∧ n.differs = false ∧ n'.root < s.ownRank ∧ parent = some p ∧ root = n.root ∧ depth
      = n.depth + 1 ∨ (64 ≤ n'.depth ∨ 2 ≤ n'.missed ∨ n.differs = true ∨ s.ownRank ≤ n'.root) ∧ parent = none ∧ root = s.ownRank ∧ depth = 0) ∧ (y =
      { s.sync with nb := y.nb, parent := parent, root := root, depth := depth, locked := s.sync.locked && parent == s.sync.parent, zeros := if parent = s.sync.parent then s.sync.zeros else 0, lastRound := if parent = s.sync.parent then s.sync.lastRound else none })
      ∧ y.nb = Tab.upd {} s.sync.nb p (fun _ => n') ∧ n.arrK = k + 1) ∧
    (∃ (s : State) (p : Nat) (q : Nat), (∀ r, r = p ∨ r = q → (s.neighbourAt r).depth < 64 ∧ (s.neighbourAt r).heard = true ∧ (s.neighbourAt
      r).differs = false ∧ (s.neighbourAt r).root < s.ownRank) ∧ s.aon.phase = .up ∧ s.sync.stitch % 1024 = 0 ∧ s.links.plan ≠ none ∧ s.syncPorts =
      [p, q]) ∧
    (∃ (s : State) (p : Nat) (x : Port), x = s.getPort p ∧ x.state = .up ∧ x.retrain = none ∧ x.mgmt = [] ∧ x.replay.length < 1024) ∧
    (∃ (s : State) (p : Nat) (x : Port), x = s.getPort p ∧ x.state = .up ∧ (x.retrain ≠ none ∨ x.mgmt ≠ [] ∨ 1024 ≤ x.replay.length)) ∧
    (∃ (s : State) (p : Nat) (x : Port), x = s.getPort p ∧ x.state ≠ .up) ∧
    (∃ (s : State) (p : Nat) (b : List Byte), (p ∉ s.syncPorts ∨ fld b 0 1 ≠ 0x10)) ∧
    (∃ (s : State) (p : Nat) (k : Nat) (b : List Byte) (arrival : Int) (n : Neighbour) (n' : Neighbour), k = fld b 8 8 ∧ n = s.neighbourAt p ∧ n' =
      { n with root := fld b 4 4, depth := fld b 1 1, counter := k, active := bit (fld b 2 1) 0, heard := true, missed := 0, arr := arrival, arrK := k + 1, differs := false }
      ∧ p ∈ s.syncPorts ∧ fld b 0 1 = 0x10 ∧ k ≤ s.sync.stitch + 1 ∧ s.sync.stitch ≤ k + 1) ∧
    (∃ (s : State) (p : Nat) (k : Nat) (b : List Byte) (arrival : Int) (n : Neighbour) (n' : Neighbour), k = fld b 8 8 ∧ n = s.neighbourAt p ∧ n' =
      { n with root := fld b 4 4, depth := fld b 1 1, counter := k, active := bit (fld b 2 1) 0, heard := true, missed := 0, arr := arrival, arrK := k + 1, differs := false }
      ∧ p ∈ s.syncPorts ∧ fld b 0 1 = 0x10 ∧ s.sync.stitch + 1 < k ∧ (∀ q, q < 64 → (s.getPart q).live = false)) ∧
    (∃ (s : State) (p : Nat) (k : Nat) (b : List Byte) (arrival : Int) (n : Neighbour) (n' : Neighbour), k = fld b 8 8 ∧ n = s.neighbourAt p ∧ n' =
      { n with root := fld b 4 4, depth := fld b 1 1, counter := k, active := bit (fld b 2 1) 0, heard := true, missed := 0, arr := arrival, arrK := k + 1, differs := false }
      ∧ (k + 1 < s.sync.stitch ∨ s.sync.stitch + 1 < k ∧ (∃ q, q < 64 ∧ (s.getPart q).live = true)) ∧ p ∈ s.syncPorts ∧ fld b 0 1 = 0x10) ∧
    (∃ (s : State) (p : Nat) (k : Nat) (b : List Byte) (n : Neighbour), n = s.neighbourAt p ∧ k = fld b 8 8 ∧ (fld b 0 1 ≠ 0x11 ∨ p ∉ s.syncPorts ∨
      s.sync.parent ≠ some p ∨ s.sync.lastRound = some k ∨ n.depK ≠ k + 1 ∨ n.arrK ≠ k + 1 ∨ n.differs = true)) ∧
    (∃ (s : State) (p : Nat) (k : Nat) (b : List Byte) (n : Neighbour) (t2 : Int) (uses : Bool) (step : Bool) (zeros : Nat) (lim : Int) (y : Sync),
      n = s.neighbourAt p ∧ k = fld b 8 8 ∧ t2 = (signed 4 (fld b 0x14 4) - n.dep) - (n.arr - signed 4 (fld b 0x10 4)) ∧ (zeros = (if t2 ≠ 0 then 0
      else if s.sync.lastRound.map (· + 1024) = some k then min 4 (s.sync.zeros + 1) else 1)) ∧ lim = ((402653184 / (100 * (30 + 14 * s.rate.run)) :
      Nat) : Int) ∧ (y =
      { s.sync with lastRound := some k, rounds := satAdd 64 s.sync.rounds 1, theta2 := t2, moved2 := if step then s.sync.moved2 - t2 else s.sync.moved2, trim2 := if uses then (if step then 0 else max (-lim) (min lim t2)) else s.sync.trim2, zeros := zeros, locked := s.sync.locked || zeros == 4, maxTheta2 := if s.sync.locked = false ∧ zeros = 4 then 0 else max s.sync.maxTheta2 t2.natAbs })
      ∧ (uses = true ↔ ∀ c, s.rate.lastStep = some c → c + 16 < k) ∧ fld b 0 1 = 0x11 ∧ p ∈ s.syncPorts ∧ s.sync.parent = some p ∧ s.sync.lastRound ≠
      some k ∧ n.depK = k + 1 ∧ n.arrK = k + 1 ∧ n.differs = false ∧ (step = true ↔ uses = true ∧ (∀ q, q < 64 → (s.getPart q).live = false) ∧ 4096 <
      t2.natAbs) ∧ (s.sync.locked = false ∨ t2.natAbs ≤ 4)) ∧
    (∃ (s : State) (p : Nat) (k : Nat) (b : List Byte) (n : Neighbour) (t2 : Int) (uses : Bool) (step : Bool) (zeros : Nat) (lim : Int) (y : Sync),
      n = s.neighbourAt p ∧ k = fld b 8 8 ∧ t2 = (signed 4 (fld b 0x14 4) - n.dep) - (n.arr - signed 4 (fld b 0x10 4)) ∧ (zeros = (if t2 ≠ 0 then 0
      else if s.sync.lastRound.map (· + 1024) = some k then min 4 (s.sync.zeros + 1) else 1)) ∧ lim = ((402653184 / (100 * (30 + 14 * s.rate.run)) :
      Nat) : Int) ∧ (y =
      { s.sync with lastRound := some k, rounds := satAdd 64 s.sync.rounds 1, theta2 := t2, moved2 := if step then s.sync.moved2 - t2 else s.sync.moved2, trim2 := if uses then (if step then 0 else max (-lim) (min lim t2)) else s.sync.trim2, zeros := zeros, locked := s.sync.locked || zeros == 4, maxTheta2 := if s.sync.locked = false ∧ zeros = 4 then 0 else max s.sync.maxTheta2 t2.natAbs })
      ∧ (uses = true ↔ ∀ c, s.rate.lastStep = some c → c + 16 < k) ∧ fld b 0 1 = 0x11 ∧ p ∈ s.syncPorts ∧ s.sync.parent = some p ∧ s.sync.lastRound ≠
      some k ∧ n.depK = k + 1 ∧ n.arrK = k + 1 ∧ n.differs = false ∧ (step = true ↔ uses = true ∧ (∀ q, q < 64 → (s.getPart q).live = false) ∧ 4096 <
      t2.natAbs) ∧ s.sync.locked = true ∧ 4 < t2.natAbs) ∧
    (∃ (s : State) (v : _) (k : _), s.sync.raiseTo = some (v, k) ∧ k < s.sync.stitch ∧ s.sync.stitch < v ∧ (∀ p, p < 64 → (s.getPart p).live =
      false)) ∧
    (∃ (s : State) (v : _) (k : _), (v ≤ s.sync.stitch ∨ (∃ p, p < 64 ∧ (s.getPart p).live = true)) ∧ s.sync.raiseTo = some (v, k) ∧ k <
      s.sync.stitch) ∧
    (∃ (s : State), (s.sync.raiseTo = none ∨ (∃ v k, s.sync.raiseTo = some (v, k) ∧ s.sync.stitch ≤ k))) :=
  ⟨⟨running, (by exact .inr (.inl (by decide +kernel)))⟩,
    ⟨roundAt { running.sync with nb := [(0, { near with depth := 64, arrK := 7 })], parent := some 0, locked := true }, 0, _, [(0, 7)], _, _,
      (roundAt running.sync).ownRank, 0, none, afterSync (.syncRound [(0, 7)]) (roundAt
      { running.sync with nb := [(0, { near with depth := 64, arrK := 7 })], parent := some 0, locked := true }), _, rfl, rfl, rfl, rfl,
      by decide +kernel⟩,
    ⟨roundAt { running.sync with nb := [(0, near)], parent := some 0, locked := true }, 0, _, [(0, 7)], _, _, 2, 4, some 0, afterSync (.syncRound
      [(0, 7)]) (roundAt { running.sync with nb := [(0, near)], parent := some 0, locked := true }), _, rfl, rfl, rfl, rfl, by decide +kernel⟩,
    ⟨{ roundAt { running.sync with nb := [(0, near), (1, { near with root := 1, depth := 60 })] } with links := { running.links with port := [(0, { state := .up }), (1, { state := .up })] } },
      0, 1, (by exact fun r h => by rcases h with rfl | rfl <;> decide +kernel), by decide +kernel⟩,
    ⟨port2 { state := .up }, 2, _, rfl, by decide +kernel⟩,
    ⟨port2 { state := .up, retrain := some 7 }, 2, _, rfl, by decide +kernel⟩,
    ⟨port2 { state := .lost }, 2, _, rfl, by decide +kernel⟩,
    ⟨running, 12, [1], by decide +kernel⟩,
    ⟨roundAt { running.sync with nb := [(0, { near with depK := 1025 })] }, 0, _, record 232 [⟨0, 1, 0x10⟩, ⟨1, 1, 3⟩, ⟨2, 1, 1⟩, ⟨4, 4, 2⟩, ⟨8, 8,
      1024⟩], -5, _, _, rfl, rfl, rfl, by decide +kernel⟩,
    ⟨{ up with sync := { up.sync with stitch := 1000, raiseTo := some (2000, 1000) }, links := (roundAt running.sync).links }, 0, _, record 232 [⟨0,
      1, 0x10⟩, ⟨1, 1, 3⟩, ⟨4, 4, 2⟩, ⟨8, 8, 3072⟩], -5, _, _, rfl, rfl, rfl, by decide +kernel⟩,
    ⟨roundAt running.sync, 0, _, record 232 [⟨0, 1, 0x10⟩, ⟨1, 1, 3⟩, ⟨4, 4, 2⟩, ⟨8, 8, 1022⟩], -5, _, _, rfl, rfl, rfl,
      (by exact .inl (by decide +kernel)), by decide +kernel⟩,
    ⟨roundAt { running.sync with nb := [(0, near)], parent := some 0, lastRound := some 1024 }, 0, _, record 232 [⟨0, 1, 0x11⟩, ⟨8, 8, 1024⟩, ⟨0x10,
      4, 5⟩, ⟨0x14, 4, 10⟩], _, rfl, rfl, by decide +kernel⟩,
    ⟨roundAt { running.sync with nb := [(0, near)], parent := some 0, lastRound := some 0, zeros := 3, trim2 := 9 }, 0, _, record 232 [⟨0, 1, 0x11⟩,
      ⟨8, 8, 1024⟩, ⟨0x10, 4, 5⟩, ⟨0x14, 4, 10⟩], _, _, true, false, _, _, _, rfl, rfl, rfl, rfl, rfl, rfl, (by exact iff_of_true rfl (all_none rfl)),
      by decide +kernel⟩,
    ⟨roundAt { running.sync with nb := [(0, near)], parent := some 0, lastRound := some 0, zeros := 4, locked := true }, 0, _, record 232 [⟨0, 1,
      0x11⟩, ⟨8, 8, 1024⟩, ⟨0x10, 4, 5⟩, ⟨0x14, 4, 20⟩], _, _, true, false, _, _, _, rfl, rfl, rfl, rfl, rfl, rfl,
      (by exact iff_of_true rfl (all_none rfl)), by decide +kernel⟩,
    ⟨{ up with sync := { up.sync with stitch := 1000, raiseTo := some (2000, 999) } }, 2000, 999, by decide +kernel⟩,
    ⟨{ up with sync := { up.sync with stitch := 1000, raiseTo := some (1000, 999) } }, 1000, 999, (by exact .inl (by decide +kernel)),
      by decide +kernel⟩,
    ⟨up, (by exact .inl rfl)⟩⟩

/-- States and operands that meet the hypotheses of ArrayLoadsAndSwaps, clause by clause. -/
theorem witness_ArrayLoadsAndSwaps :
    (∃ (c : _), c < 16) ∧
    (∃ (s : State) (f : Nat) (w : Nat) (x : Arr), x = (s.getFrond f).arr ∧ s.driven f unitArray w = none) ∧
    (∃ (s : State) (f : Nat) (w : Nat) (p : Nat) (r : FrondRec) (x : Arr), x = (s.getFrond f).arr ∧ s.driven f unitArray w = some (p, r, false)) ∧
    (∃ (s : State) (f : Nat) (w : Nat) (p : Nat) (r : FrondRec) (x : Arr) (a : AloadArgs), x = (s.getFrond f).arr ∧ (aloadOk a = false ∨ aloadPages
      r a = false) ∧ s.driven f unitArray w = some (p, r, true)) ∧
    (∃ (s : State) (f : Nat) (w : Nat) (p : Nat) (r : FrondRec) (x : Arr) (a : AloadArgs), x = (s.getFrond f).arr ∧ aloadPages r a = true ∧ s.driven
      f unitArray w = some (p, r, true) ∧ aloadOk a = true ∧ x.stalled ≠ none) ∧
    (∃ (s : State) (f : Nat) (w : Nat) (cycle : Nat) (p : Nat) (c : Nat) (r : FrondRec) (x : Arr) (a : AloadArgs), x = (s.getFrond f).arr ∧ c = max
      (max cycle x.stallTo) x.loadEnd ∧ aloadPages r a = true ∧ s.driven f unitArray w = some (p, r, true) ∧ aloadOk a = true ∧ x.stalled = none ∧ c <
      nth 0 x.bankFree x.shadow) ∧
    (∃ (s : State) (f : Nat) (w : Nat) (cycle : Nat) (p : Nat) (c : Nat) (r : FrondRec) (x : Arr) (a : AloadArgs), x = (s.getFrond f).arr ∧ c = max
      (max cycle x.stallTo) x.loadEnd ∧ aloadPages r a = true ∧ s.driven f unitArray w = some (p, r, true) ∧ aloadOk a = true ∧ x.stalled = none ∧ nth
      0 x.bankFree x.shadow ≤ c) ∧
    (∃ (s : State) (f : Nat) (cycle : Nat) (x : Arr), x = (s.getFrond f).arr ∧ (x.stalled = none ∨ s.unitRuns f unitArray = none ∨ cycle < nth 0
      x.bankFree x.shadow)) ∧
    (∃ (s : State) (f : Nat) (cycle : Nat) (p : Nat) (r : FrondRec) (x : Arr) (a : AloadArgs) (e : Nat), x = (s.getFrond f).arr ∧ e = max (cycle +
      127 * rowCycles a.wfmt) (nth 0 x.bankDrain x.shadow) + rowCycles a.wfmt ∧ x.stalled = some a ∧ s.unitRuns f unitArray = some (p, r) ∧ nth 0
      x.bankFree x.shadow ≤ cycle ∧ s.waitOf f (r.warden unitArray) = none) ∧
    (∃ (s : State) (f : Nat) (cycle : Nat) (p : Nat) (r : FrondRec) (x : Arr) (a : AloadArgs) (e : Nat) (k : _), x = (s.getFrond f).arr ∧ e = max
      (cycle + 127 * rowCycles a.wfmt) (nth 0 x.bankDrain x.shadow) + rowCycles a.wfmt ∧ x.stalled = some a ∧ s.unitRuns f unitArray = some (p, r) ∧
      nth 0 x.bankFree x.shadow ≤ cycle ∧ s.waitOf f (r.warden unitArray) = some (.swap k) ∧ x.queue = []) ∧
    (∃ (s : State) (f : Nat) (cycle : Nat) (p : Nat) (c : Nat) (r : FrondRec) (x : Arr) (a : AloadArgs) (e : Nat) (k : Nat) (b : AloadArgs), x =
      (s.getFrond f).arr ∧ e = max (cycle + 127 * rowCycles a.wfmt) (nth 0 x.bankDrain x.shadow) + rowCycles a.wfmt ∧ c = max (max (max k cycle) (max
      x.stallTo cycle)) e ∧ x.stalled = some a ∧ s.unitRuns f unitArray = some (p, r) ∧ nth 0 x.bankFree x.shadow ≤ cycle ∧ s.waitOf f (r.warden
      unitArray) = some (.load k b)) ∧
    (∃ (s : State) (f : Nat) (w : Nat) (cycle : Nat) (p : Nat) (c : Nat) (r : FrondRec) (x : Arr), x = (s.getFrond f).arr ∧ c = max cycle x.stallTo
      ∧ s.driven f unitArray w = some (p, r, true) ∧ x.queue = [] ∧ x.stalled = none) ∧
    (∃ (s : State) (f : Nat) (w : Nat) (cycle : Nat) (p : Nat) (c : Nat) (r : FrondRec) (x : Arr), x = (s.getFrond f).arr ∧ c = max cycle x.stallTo
      ∧ s.driven f unitArray w = some (p, r, true) ∧ (x.queue ≠ [] ∨ x.stalled ≠ none)) :=
  ⟨⟨15, by decide +kernel⟩,
    ⟨up, 0, 0, _, rfl, by decide +kernel⟩,
    ⟨gang1, 0, 0, 0, rec1, _, rfl, by decide +kernel⟩,
    ⟨running, 0, 0, 0, rec0, _, { load0 with kValid := 129 }, rfl, (by exact .inl (by decide +kernel)), by decide +kernel⟩,
    ⟨fronded fun x => { x with arr := { x.arr with bankFree := [0, 9], stalled := some load0 } }, 0, 0, 0, rec0, _, load0, rfl,
      (by exact slab_pages), by decide +kernel⟩,
    ⟨fronded fun x => { x with arr := { x.arr with bankFree := [0, 9], stallTo := 8 } }, 0, 0, 5, 0, _, rec0, _, load0, rfl, rfl,
      (by exact slab_pages), by decide +kernel⟩,
    ⟨fronded fun x => { x with arr := { x.arr with bankFree := [0, 9], loadEnd := 9, bankDrain := [0, 40] } }, 0, 0, 5, 0, _, rec0, _, load0, rfl,
      rfl, (by exact slab_pages), by decide +kernel⟩,
    ⟨running, 0, 5, _, rfl, by decide +kernel⟩,
    ⟨fronded fun x => { x with arr := { x.arr with bankFree := [0, 9], bankDrain := [0, 40], stalled := some load0 } }, 0, 9, 0, rec0, _, load0, _,
      rfl, rfl, by decide +kernel⟩,
    ⟨fronded fun x => { x with arr := { x.arr with bankFree := [0, 9], stalled := some load0 }, wait := [(0, some (.swap 3))] }, 0, 9, 0, rec0, _,
      load0, _, 3, rfl, rfl, by decide +kernel⟩,
    ⟨fronded fun x =>
      { x with arr := { x.arr with bankFree := [0, 9], stalled := some load0 }, wait := [(0, some (.load 3 { load0 with src := 8192 }))] }, 0, 9, 0,
      _, rec0, _, load0, _, 3, { load0 with src := 8192 }, rfl, rfl, rfl, by decide +kernel⟩,
    ⟨fronded fun x => { x with arr := { x.arr with lastEnter := 9, loadEnd := 10 } }, 0, 0, 9, 0, _, rec0, _, rfl, rfl, by decide +kernel⟩,
    ⟨fronded fun x => { x with arr := { x.arr with stalled := some load0 } }, 0, 0, 9, 0, _, rec0, _, rfl, rfl, by decide +kernel⟩⟩

/-- States and operands that meet the hypotheses of ArrayPassesEnter, clause by clause. -/
theorem witness_ArrayPassesEnter :
    (∃ (s : State) (f : Nat) (k : Nat) (cycle : Nat) (addr : Nat) (old : List Byte), (s.getFrond f).arr.inflight = [(k, addr, old)] ∧ cycle < k) ∧
    (∃ (s : State) (f : Nat) (k : Nat) (cycle : Nat) (addr : Nat) (old : List Byte), (s.getFrond f).arr.inflight = [(k, addr, old)] ∧ k ≤ cycle) ∧
    (∃ (s : State) (f : Nat) (w : Nat) (rc : Nat) (x : Arr), x = (s.getFrond f).arr ∧ rc = (if nth 0 x.fmt x.active = 0 then 4 else 1) ∧ s.driven f
      unitArray w = none) ∧
    (∃ (s : State) (f : Nat) (w : Nat) (p : Nat) (rc : Nat) (r : FrondRec) (x : Arr), x = (s.getFrond f).arr ∧ rc = (if nth 0 x.fmt x.active = 0
      then 4 else 1) ∧ s.driven f unitArray w = some (p, r, false)) ∧
    (∃ (s : State) (f : Nat) (w : Nat) (p : Nat) (rc : Nat) (r : FrondRec) (a : AstreamArgs) (x : Arr), x = (s.getFrond f).arr ∧ rc = (if nth 0
      x.fmt x.active = 0 then 4 else 1) ∧ s.driven f unitArray w = some (p, r, true) ∧ (astreamOk a (nth 0 x.fmt x.active) = false ∨ astreamPages r a
      = false)) ∧
    (∃ (s : State) (f : Nat) (w : Nat) (cycle : Nat) (p : Nat) (c : Nat) (rc : Nat) (r : FrondRec) (a : AstreamArgs) (x : Arr), x = (s.getFrond
      f).arr ∧ rc = (if nth 0 x.fmt x.active = 0 then 4 else 1) ∧ c = max cycle x.stallTo ∧ s.driven f unitArray w = some (p, r, true) ∧ astreamOk a
      (nth 0 x.fmt x.active) = true ∧ astreamPages r a = true ∧ (c < x.lastEnter ∨ x.queue ≠ [])) ∧
    (∃ (s : State) (f : Nat) (w : Nat) (cycle : Nat) (p : Nat) (c : Nat) (rc : Nat) (r : FrondRec) (a : AstreamArgs) (x : Arr), x = (s.getFrond
      f).arr ∧ rc = (if nth 0 x.fmt x.active = 0 then 4 else 1) ∧ c = max cycle x.stallTo ∧ s.driven f unitArray w = some (p, r, true) ∧ astreamOk a
      (nth 0 x.fmt x.active) = true ∧ astreamPages r a = true ∧ x.lastEnter ≤ c ∧ x.queue = []) ∧
    (∃ (s : State) (f : Nat) (cycle : Nat) (rc : Nat) (x : Arr), x = (s.getFrond f).arr ∧ rc = (if nth 0 x.fmt x.active = 0 then 4 else 1) ∧
      (x.queue = [] ∨ s.unitRuns f unitArray = none ∨ cycle < x.lastEnter)) ∧
    (∃ (s : State) (f : Nat) (cycle : Nat) (p : Nat) (rc : Nat) (r : FrondRec) (x : Arr) (y : Pass) (rest : List Pass), x = (s.getFrond f).arr ∧ rc
      = (if nth 0 x.fmt x.active = 0 then 4 else 1) ∧ s.unitRuns f unitArray = some (p, r) ∧ x.queue = y :: rest ∧ y.fused = none ∧ x.lastEnter ≤
      cycle) :=
  ⟨⟨fronded fun x => { x with arr := { x.arr with inflight := [(6, 65536, [1])] } }, 0, 6, 5, 65536, [1], by decide +kernel⟩,
    ⟨fronded fun x => { x with arr := { x.arr with inflight := [(6, 65536, [1])] } }, 0, 6, 6, 65536, [1], by decide +kernel⟩,
    ⟨up, 0, 0, _, _, rfl, rfl, by decide +kernel⟩,
    ⟨gang1, 0, 0, 0, _, rec1, _, rfl, rfl, by decide +kernel⟩,
    ⟨running, 0, 0, 0, _, rec0, { stream1 with kValid := 129 }, _, rfl, rfl, by decide +kernel⟩,
    ⟨streaming fun x => { x with lastEnter := 7 }, 0, 0, 6, 0, _, _, rec0, stream1, _, rfl, rfl, rfl, by decide +kernel⟩,
    ⟨streaming fun x => { x with lastEnter := 6, stallTo := 6 }, 0, 0, 6, 0, _, _, rec0, stream1, _, rfl, rfl, rfl, by decide +kernel⟩,
    ⟨running, 0, 6, _, _, rfl, rfl, by decide +kernel⟩,
    ⟨streaming fun x => { x with lastEnter := 6, queue := [{ args := stream1, warden := 0, fused := none, cycle := 3 }] }, 0, 6, 0, _, rec0, _,
      { args := stream1, warden := 0, fused := none, cycle := 3 }, [], rfl, rfl, by decide +kernel⟩⟩


/-- A package whose frond 0 holds operands in its vector registers and in its store. -/
def vectors : State :=
  { running with store := (running.store.writeN 4096 (leBytes 4 0x3F800000 ++ leBytes 4 0x40000000)).writeN 65536 (leBytes 4 0x3F000000) }.updFrond 0
    fun x => { x with vreg := (List.range 512).map fun i => (i, BitVec.ofNat 32 (0x3F800000 + 0x10000 * i)) }
/-- A package whose gang 0 of frond 0 runs program slot 2, with operands in its registers. -/
def pinnules : State :=
  fronded fun x => { x with gang := [(0, 3)], freg := [(161, 0x3F800000#32), (162, 0x40000000#32)], ireg := [(161, 7#32), (162, 9#32)],
                            qreg := [(161, 0x3F800000#32)] }
/-- The record of a frond with three program slots. -/
def rec3 : FrondRec := { rec0 with slots := 3, slotBody := [4096, 8192, 12288] }
/-- The same with records of three program slots. -/
def pinnules3 : State := part 0 { part0 with image := { img0 with records := [rec3, rec3, rec3, rec3] } } pinnules
/-- A read stream in progress. -/
def stream0 : Stream :=
  { id := 3, far := 64, stride := 128, count := 4, burst := 64, convert := 0, ring := 4096, slots := 2, depth := 2, token := 10, write := false,
    next := 1, raised := 0, released := 0 }
/-- A package in which frond 0 runs it; its memories are ON. -/
def streams (x : Stream) (tok : List (Nat × Nat)) : State :=
  { memory with far := memory.far.writeN 256 [1, 2, 3], store := memory.store.writeN 4096 [9, 8, 7] }.updFrond 0 fun y => { y with streams := [x], token := tok }
/-- A descriptor of a write stream of FP32 bursts. -/
def descriptor (dir : Nat) : List Byte :=
  record 32 [⟨0, 8, 0⟩, ⟨8, 4, 128⟩, ⟨0xC, 4, 4⟩, ⟨0x10, 3, 64⟩, ⟨0x14, 2, 64⟩, ⟨0x16, 1, 2⟩, ⟨0x17, 1, 2⟩, ⟨0x18, 2, 10⟩, ⟨0x1A, 1, dir⟩]
/-- A package with it in the frond store and n streams in progress. -/
def described (n : Nat) : State := { running with store := running.store.writeN 8192 (descriptor 1) }.updFrond 0 fun y => { y with streams := List.replicate n stream0 }
/-- States and operands that meet the hypotheses of VectorUnitOperates, clause by clause. -/
theorem witness_VectorUnitOperates :
    (∃ (s : State) (f : Nat) (w : Nat) (p : Nat) (x : Frond) (rne : Bool), x = s.getFrond f ∧ rne = s.f19Rne p ∧ s.driven f unitVector w = none) ∧
    (∃ (s : State) (f : Nat) (w : Nat) (p : Nat) (r : FrondRec) (x : Frond) (rne : Bool), x = s.getFrond f ∧ rne = s.f19Rne p ∧ s.driven f
      unitVector w = some (p, r, false)) ∧
    (∃ (s : State) (f : Nat) (w : Nat) (p : Nat) (r : FrondRec) (x : Frond) (rne : Bool) (o : VecOp) (d : Nat) (v : Nat → Word), x = s.getFrond f ∧
      rne = s.f19Rne p ∧ ((∃ b f19 i j, o = .bin b f19 d i j ∧ b ≠ .div ∧ ∀ k, v k = fpBin b f19 rne (x.vget i k) (x.vget j k)) ∨ (∃ f19 i j l, o =
      .fma f19 d i j l ∧ ∀ k, v k = fpFma f19 rne (x.vget i k) (x.vget j k) (x.vget l k)) ∨ (∃ c fa fb i j, o = .cmp c fa fb d i j ∧ ∀ k, v k =
      Config.cmpWord (fpCompare c (operand fa (x.vget i k)) (operand fb (x.vget j k)))) ∨ (∃ fmt i, o = .widen fmt d i ∧ (fmt = 0 ∨ fmt = 2 ∨ fmt = 3)
      ∧ ∀ k, v k = widenWord fmt (x.vget i k))) ∧ s.driven f unitVector w = some (p, r, true) ∧ d < 16) ∧
    (∃ (s : State) (f : Nat) (w : Nat) (p : Nat) (r : FrondRec) (x : Frond) (rne : Bool) (o : VecOp) (d : Nat) (k : Rank) (f19 : Bool) (a : Nat) (ws
      : List Word), x = s.getFrond f ∧ rne = s.f19Rne p ∧ o = .rank k f19 d a ∧ ws = (x.vlanes a).map (operand f19) ∧ s.driven f unitVector w = some
      (p, r, true) ∧ d < 16) ∧
    (∃ (s : State) (f : Nat) (w : Nat) (p : Nat) (r : FrondRec) (x : Frond) (rne : Bool) (o : VecOp) (d : Nat) (a : _), x = s.getFrond f ∧ rne =
      s.f19Rne p ∧ o = .load d a ∧ s.driven f unitVector w = some (p, r, true) ∧ d < 16 ∧ r.pageOk a 1024 = true) ∧
    (∃ (s : State) (f : Nat) (w : Nat) (p : Nat) (r : FrondRec) (x : Frond) (rne : Bool) (o : VecOp) (d : Nat) (a : _), x = s.getFrond f ∧ rne =
      s.f19Rne p ∧ o = .store d a ∧ s.driven f unitVector w = some (p, r, true) ∧ d < 16 ∧ r.pageOk a 1024 = true) ∧
    (∃ (s : State) (f : Nat) (w : Nat) (p : Nat) (r : FrondRec) (x : Frond) (rne : Bool) (o : VecOp) (d : Nat) (fmt : _) (f19 : _) (addr : _) (block
      : _) (n : _), x = s.getFrond f ∧ rne = s.f19Rne p ∧ o = .widenMx fmt f19 d addr block ∧ n = ((List.range 8).filter fun j => (s.widenAt f fmt f19
      addr (8 * (block % 8) + j)).2).length ∧ s.driven f unitVector w = some (p, r, true) ∧ d < 16 ∧ isMx fmt = true ∧ groupPages r fmt addr (8 *
      (block % 8)) = true) ∧
    (∃ (s : State) (f : Nat) (w : Nat) (p : Nat) (r : FrondRec) (x : Frond) (rne : Bool) (o : VecOp), x = s.getFrond f ∧ rne = s.f19Rne p ∧ ((∃ f19
      d i j, o = .bin .div f19 d i j) ∨ (∃ fmt d i, o = .widen fmt d i ∧ fmt ≠ 0 ∧ fmt ≠ 2 ∧ fmt ≠ 3) ∨ (∃ d a, (o = .load d a ∨ o = .store d a) ∧
      r.pageOk a 1024 = false) ∨ (∃ fmt f19 d addr block, o = .widenMx fmt f19 d addr block ∧ (isMx fmt = false ∨ groupPages r fmt addr (8 * (block %
      8)) = false))) ∧ s.driven f unitVector w = some (p, r, true)) ∧
    (∃ (s : State) (f : Nat) (w : Nat) (p : Nat) (r : FrondRec) (x : Frond) (rne : Bool) (o : FpBin) (d : Nat), x = s.getFrond f ∧ rne = s.f19Rne p
      ∧ o = .div ∧ s.driven f unitVector w = some (p, r, true) ∧ d < 16) ∧
    (∃ (s : State) (f : Nat) (w : Nat) (p : Nat) (r : FrondRec) (x : Frond) (rne : Bool) (o : FpBin) (d : Nat), x = s.getFrond f ∧ rne = s.f19Rne p
      ∧ s.driven f unitVector w = some (p, r, true) ∧ d < 16 ∧ o ≠ .div) ∧
    (∃ (s : State) (f : Nat) (w : Nat) (p : Nat) (r : FrondRec) (x : Frond) (rne : Bool) (cvt : Byte) (dst : Nat) (block : Nat) (n : Nat), x =
      s.getFrond f ∧ rne = s.f19Rne p ∧ n = (if cvtDst cvt = 0 then 4 else 2) ∧ s.driven f unitVector w = some (p, r, true) ∧ (cvtOk cvt = false ∨
      convPages r cvt dst block = false)) ∧
    (∃ (s : State) (f : Nat) (w : Nat) (p : Nat) (r : FrondRec) (x : Frond) (rne : Bool) (cvt : Byte) (dst : Nat) (block : Nat) (n : Nat), x =
      s.getFrond f ∧ rne = s.f19Rne p ∧ n = (if cvtDst cvt = 0 then 4 else 2) ∧ s.driven f unitVector w = some (p, r, true) ∧ cvtOk cvt = true ∧
      convPages r cvt dst block = true ∧ isMx (cvtDst cvt) = false) ∧
    (∃ (s : State) (f : Nat) (w : Nat) (p : Nat) (r : FrondRec) (x : Frond) (rne : Bool) (cvt : Byte) (dst : Nat) (block : Nat) (n : Nat), x =
      s.getFrond f ∧ rne = s.f19Rne p ∧ n = (if cvtDst cvt = 0 then 4 else 2) ∧ s.driven f unitVector w = some (p, r, true) ∧ cvtOk cvt = true ∧
      convPages r cvt dst block = true ∧ isMx (cvtDst cvt) = true) :=
  ⟨⟨up, 0, 0, 0, _, _, rfl, rfl, by decide +kernel⟩,
    ⟨gang1, 0, 0, 0, rec1, _, _, rfl, rfl, by decide +kernel⟩,
    ⟨vectors, 0, 0, 0, rec0, _, _, VecOp.bin .add true 15 0 1, 15, _, rfl, rfl, (by exact .inl ⟨.add, true, 0, 1, rfl, by decide, fun _ => rfl⟩),
      by decide +kernel⟩,
    ⟨vectors, 0, 0, 0, rec0, _, _, _, 15, .topk 3, true, 1, _, rfl, rfl, rfl, rfl, by decide +kernel⟩,
    ⟨vectors, 0, 0, 0, rec0, _, _, _, 15, 3668992, rfl, rfl, rfl, by decide +kernel⟩,
    ⟨vectors, 0, 0, 0, rec0, _, _, _, 15, 3668992, rfl, rfl, rfl, by decide +kernel⟩,
    ⟨vectors, 0, 0, 0, rec0, _, _, _, 15, 4, true, 65536, 9, _, rfl, rfl, rfl, rfl, by decide +kernel⟩,
    ⟨vectors, 0, 0, 0, rec0, _, _, VecOp.load 15 3668993, rfl, rfl, (by exact .inr (.inr (.inl ⟨_, _, .inl rfl, by decide +kernel⟩))),
      by decide +kernel⟩,
    ⟨vectors, 0, 0, 0, rec0, _, _, _, 15, rfl, rfl, rfl, by decide +kernel⟩,
    ⟨vectors, 0, 0, 0, rec0, _, _, FpBin.max, 15, rfl, rfl, by decide +kernel⟩,
    ⟨vectors, 0, 0, 0, rec0, _, _, 0x21#8, 4096, 9, _, rfl, rfl, rfl, by decide +kernel⟩,
    ⟨vectors, 0, 0, 0, rec0, _, _, 0x02#8, 4096, 9, _, rfl, rfl, rfl, by decide +kernel⟩,
    ⟨vectors, 0, 0, 0, rec0, _, _, 0x24#8, 4096, 9, _, rfl, rfl, rfl, by decide +kernel⟩⟩

/-- States and operands that meet the hypotheses of PinnulesExecute, clause by clause. -/
theorem witness_PinnulesExecute :
    (∃ (s : State) (f : Nat) (n : Nat) (p : Nat) (x : Frond) (rne : Bool) (slot : _), x = s.getFrond f ∧ rne = s.f19Rne p ∧ s.pinRuns f n slot =
      none) ∧
    (∃ (s : State) (f : Nat) (n : Nat) (p : Nat) (r : FrondRec) (x : Frond) (rne : Bool) (slot : _) (o : PinOp) (d : Nat) (v : Word), x = s.getFrond
      f ∧ rne = s.f19Rne p ∧ ((∃ code a b, o = .int code d a b ∧ v = Config.intResult code (x.iget n a) (x.iget n b)) ∨ (∃ c fa fb a b, o = .fpCmp c
      fa fb d a b ∧ v = Config.cmpWord (fpCompare c (operand fa (x.fget n a)) (operand fb (x.fget n b)))) ∨ (∃ a, o = .moveFpInt d a ∧ v = x.fget n a)
      ∨ (∃ q k, o = .dropMask d q k ∧ ∀ i, v.getLsbD i = (decide (i < 4) && decide ((x.qget n q i).toNat < k))) ∨ (∃ a, o = .loadLocal d a ∧ a + 4 ≤
      2048 ∧ v = BitVec.ofNat 32 (leNat (s.localStore.readN (localKey f n a) 4)))) ∧ s.pinRuns f n slot = some (p, r) ∧ d < 32) ∧
    (∃ (s : State) (f : Nat) (n : Nat) (p : Nat) (r : FrondRec) (x : Frond) (rne : Bool) (slot : _) (o : PinOp) (d : Nat) (v : Word), x = s.getFrond
      f ∧ rne = s.f19Rne p ∧ ((∃ b f19 i j, o = .fpBin b f19 d i j ∧ v = fpBin b f19 rne (x.fget n i) (x.fget n j)) ∨ (∃ f19 a b c, o = .fpFma f19 d a
      b c ∧ v = fpFma f19 rne (x.fget n a) (x.fget n b) (x.fget n c)) ∨ (∃ f19 a, o = .fpSqrt f19 d a ∧ v = fpWrite f19 rne (fpRead f19 (x.fget n
      a)).sqrt) ∨ (∃ fmt a, o = .fpWiden fmt d a ∧ (fmt = 0 ∨ fmt = 2 ∨ fmt = 3) ∧ v = widenWord fmt (x.fget n a)) ∨ (∃ a b, o = .fp16Add d a b ∧ v =
      BitVec.ofNat 32 (fp16Add ((x.fget n a).toNat % 2 ^ 16) ((x.fget n b).toNat % 2 ^ 16))) ∨ (∃ a, o = .moveIntFp d a ∧ v = x.iget n a) ∨ (∃ a, o =
      .intFp true d a ∧ v = fpOfInt (x.iget n a).toInt) ∨ (∃ a, o = .intFp false d a ∧ v = fpOfInt (x.iget n a).toNat)) ∧ s.pinRuns f n slot = some
      (p, r) ∧ d < 32) ∧
    (∃ (s : State) (f : Nat) (n : Nat) (p : Nat) (r : FrondRec) (x : Frond) (rne : Bool) (slot : _) (o : PinOp) (d : Nat) (v : Nat → Word), x =
      s.getFrond f ∧ rne = s.f19Rne p ∧ ((∃ a b c, o = .quadFma d a b c ∧ ∀ i, v i = fpFma true rne (x.qget n a i) (x.qget n b i) (x.qget n c i)) ∨ (∃
      b i j, o = .quadBin b d i j ∧ b ≠ .div ∧ ∀ k, v k = fpBin b true rne (x.qget n i k) (x.qget n j k))) ∧ s.pinRuns f n slot = some (p, r) ∧ d < 8) ∧
    (∃ (s : State) (f : Nat) (n : Nat) (p : Nat) (r : FrondRec) (x : Frond) (rne : Bool) (slot : _) (d : _) (a : _), x = s.getFrond f ∧ rne =
      s.f19Rne p ∧ s.pinRuns f n slot = some (p, r) ∧ d < 32 ∧ a + 4 ≤ 2048) ∧
    (∃ (s : State) (f : Nat) (n : Nat) (p : Nat) (r : FrondRec) (x : Frond) (rne : Bool) (slot : _) (d : _) (a : _), x = s.getFrond f ∧ rne =
      s.f19Rne p ∧ s.pinRuns f n slot = some (p, r) ∧ d < 32 ∧ r.pageOk a 4 = true) ∧
    (∃ (s : State) (f : Nat) (n : Nat) (p : Nat) (r : FrondRec) (x : Frond) (rne : Bool) (slot : _) (u : _), x = s.getFrond f ∧ rne = s.f19Rne p ∧
      s.pinRuns f n slot = some (p, r) ∧ 512 ≤ n ∧ u < 3 ∧ r.warden u = n - 512) ∧
    (∃ (s : State) (f : Nat) (n : Nat) (p : Nat) (r : FrondRec) (x : Frond) (rne : Bool) (slot : _) (k : _), x = s.getFrond f ∧ rne = s.f19Rne p ∧
      s.pinRuns f n slot = some (p, r) ∧ 512 ≤ n ∧ k < r.slots) ∧
    (∃ (s : State) (f : Nat) (n : Nat) (p : Nat) (r : FrondRec) (x : Frond) (rne : Bool) (slot : _) (o : PinOp), x = s.getFrond f ∧ rne = s.f19Rne p
      ∧ (o = .undefined ∨ (∃ fmt d a, o = .fpWiden fmt d a ∧ fmt ≠ 0 ∧ fmt ≠ 2 ∧ fmt ≠ 3) ∨ (∃ d a b, o = .quadBin .div d a b) ∨ (∃ d a, (o =
      .loadLocal d a ∨ o = .storeLocal d a) ∧ 2048 < a + 4) ∨ (∃ d a, (o = .loadFrond d a ∨ o = .storeFrond d a) ∧ r.pageOk a 4 = false) ∨ (∃ u, o =
      .issueShared u ∧ (n < 512 ∨ 3 ≤ u ∨ r.warden u ≠ n - 512)) ∨ (∃ k, o = .startSlot k ∧ (n < 512 ∨ r.slots ≤ k))) ∧ s.pinRuns f n slot = some (p,
      r)) ∧
    (∃ (s : State) (f : Nat) (n : Nat) (p : Nat) (r : FrondRec) (x : Frond) (rne : Bool) (slot : _) (cvt : Byte) (src : Nat) (d : Nat) (block :
      Nat), x = s.getFrond f ∧ rne = s.f19Rne p ∧ s.pinRuns f n slot = some (p, r) ∧ d < 32 ∧ pinConvOk r cvt src d block = true ∧ isMx (cvtDst cvt) =
      false) ∧
    (∃ (s : State) (f : Nat) (n : Nat) (p : Nat) (r : FrondRec) (x : Frond) (rne : Bool) (slot : _) (cvt : Byte) (src : Nat) (dst : Nat) (block :
      Nat), x = s.getFrond f ∧ rne = s.f19Rne p ∧ s.pinRuns f n slot = some (p, r) ∧ pinConvOk r cvt src dst block = true ∧ isMx (cvtDst cvt) = true) ∧
    (∃ (s : State) (f : Nat) (n : Nat) (p : Nat) (r : FrondRec) (x : Frond) (rne : Bool) (slot : _) (cvt : Byte) (src : Nat) (dst : Nat) (block :
      Nat), x = s.getFrond f ∧ rne = s.f19Rne p ∧ s.pinRuns f n slot = some (p, r) ∧ pinConvOk r cvt src dst block = false) ∧
    (∃ (s : State) (f : Nat) (n : Nat) (p : Nat) (x : Frond) (rne : Bool), x = s.getFrond f ∧ rne = s.f19Rne p ∧ s.pinBusy f n = none) ∧
    (∃ (s : State) (f : Nat) (n : Nat) (p : Nat) (r : FrondRec) (x : Frond) (rne : Bool) (q : _), x = s.getFrond f ∧ rne = s.f19Rne p ∧ s.pinBusy f
      n = some (p, r) ∧ q < 8) ∧
    (∃ (s : State) (f : Nat) (n : Nat) (p : Nat) (r : FrondRec) (x : Frond) (rne : Bool) (k : _), x = s.getFrond f ∧ rne = s.f19Rne p ∧ s.pinBusy f
      n = some (p, r) ∧ k < 4096) ∧
    (∃ (s : State) (f : Nat) (n : Nat) (p : Nat) (r : FrondRec) (x : Frond) (rne : Bool) (k : _), x = s.getFrond f ∧ rne = s.f19Rne p ∧ s.pinBusy f
      n = some (p, r) ∧ 4096 ≤ k) ∧
    (∃ (s : State) (f : Nat) (n : Nat) (p : Nat) (r : FrondRec) (x : Frond) (rne : Bool) (a : FinArg), x = s.getFrond f ∧ rne = s.f19Rne p ∧
      s.pinBusy f n = some (p, r) ∧ (finWords x n a).all isFinite = true) ∧
    (∃ (s : State) (f : Nat) (n : Nat) (p : Nat) (r : FrondRec) (x : Frond) (rne : Bool) (a : FinArg), x = s.getFrond f ∧ rne = s.f19Rne p ∧
      s.pinBusy f n = some (p, r) ∧ (finWords x n a).all isFinite = false) :=
  ⟨⟨up, 0, 5, 0, _, _, 2, rfl, rfl, by decide +kernel⟩,
    ⟨pinnules, 0, 5, 0, rec0, _, _, 2, PinOp.moveFpInt 31 1, 31, (pinnules.getFrond 0).fget 5 1, rfl, rfl,
      (by exact .inr (.inr (.inl ⟨1, rfl, rfl⟩))), by decide +kernel⟩,
    ⟨pinnules, 0, 5, 0, rec0, _, _, 2, PinOp.intFp true 31 1, 31, fpOfInt ((pinnules.getFrond 0).iget 5 1).toInt, rfl, rfl,
      (by exact .inr (.inr (.inr (.inr (.inr (.inr (.inl ⟨1, rfl, rfl⟩))))))), by decide +kernel⟩,
    ⟨pinnules, 0, 5, 0, rec0, _, _, 2, PinOp.quadBin .mul 7 0 0, 7, fun k => fpBin .mul true (pinnules.f19Rne 0) ((pinnules.getFrond 0).qget 5 0 k)
      ((pinnules.getFrond 0).qget 5 0 k), rfl, rfl, (by exact .inr ⟨.mul, 0, 0, rfl, by decide, fun _ => rfl⟩), by decide +kernel⟩,
    ⟨pinnules, 0, 5, 0, rec0, _, _, 2, 31, 2044, rfl, rfl, by decide +kernel⟩,
    ⟨pinnules, 0, 5, 0, rec0, _, _, 2, 31, 3670012, rfl, rfl, by decide +kernel⟩,
    ⟨pinnules3, 0, 512, 0, rec3, _, _, 2, 2, rfl, rfl, by decide +kernel⟩,
    ⟨pinnules3, 0, 512, 0, rec3, _, _, 2, 2, rfl, rfl, by decide +kernel⟩,
    ⟨pinnules, 0, 5, 0, rec0, _, _, 2, PinOp.loadLocal 3 2045, rfl, rfl, (by exact .inr (.inr (.inr (.inl ⟨3, 2045, .inl rfl, by decide⟩)))),
      by decide +kernel⟩,
    ⟨pinnules, 0, 5, 0, rec0, _, _, 2, 0x12#8, 1, 31, 9, rfl, rfl, by decide +kernel⟩,
    ⟨pinnules, 0, 5, 0, rec0, _, _, 2, 0x24#8, 1920, 65536, 65, rfl, rfl, by decide +kernel⟩,
    ⟨pinnules, 0, 5, 0, rec0, _, _, 2, 0x24#8, 1921, 65536, 65, rfl, rfl, by decide +kernel⟩,
    ⟨up, 0, 5, 0, _, _, rfl, rfl, by decide +kernel⟩,
    ⟨fronded fun x => { x with gang := [(0, 3)], ireg := [(161, 7#32), (162, 9#32)], bob := [(5, 3)] }, 0, 5, 0, rec0, _, _, 7, rfl, rfl,
      by decide +kernel⟩,
    ⟨pinnules, 0, 5, 0, rec0, _, _, 4095, rfl, rfl, by decide +kernel⟩,
    ⟨pinnules, 0, 5, 0, rec0, _, _, 4096, rfl, rfl, by decide +kernel⟩,
    ⟨pinnules, 0, 5, 0, rec0, _, _, FinArg.quad 2, rfl, rfl, by decide +kernel⟩,
    ⟨fronded fun x => { x with gang := [(0, 3)], freg := [(161, 0x7F800000#32)] }, 0, 5, 0, rec0, _, _, FinArg.fp 1, rfl, rfl, by decide +kernel⟩⟩

/-- States and operands that meet the hypotheses of FrondFaultsStopUnits, clause by clause. -/
theorem witness_FrondFaultsStopUnits :
    (∃ (s : State) (s0 : State) (f : Nat) (w : Nat) (n : Nat) (p : Nat) (slot : Nat) (off : Nat) (cycle : Nat) (k : Nat) (unit : Nat) (source : Nat)
      (sl : Nat) (pin : Nat) (o : Nat) (r : FrondRec) (c : Instr), ((s.pinRuns f n slot = some (p, r) ∧ s0 = s.setPc f n off ∧ unit = 3 + n ∧ source =
      (if n < 512 then 3 else 4) ∧ sl = slot ∧ pin = n ∧ o = off ∧ (c = .pinnuleInstruction f n slot off .undefined ∨ (∃ d a, r.pageOk a 4 = false ∧
      (c = .pinnuleInstruction f n slot off (.loadFrond d a) ∨ c = .pinnuleInstruction f n slot off (.storeFrond d a))) ∨ ∃ cvt src dst b, cvtOk cvt =
      false ∧ c = .pinnuleConversion f n slot off cvt src ⟨dst, b⟩)) ∨ (s.pinBusy f n = some (p, r) ∧ s0 = s ∧ unit = 3 + n ∧ source = (if n < 512
      then 3 else 4) ∧ sl = s.slotOf f (gangOf n) ∧ pin = n ∧ o = s.pcOf f n ∧ 4096 ≤ k ∧ c = .raise f n k) ∨ (s.driven f k w = some (p, r, false) ∧
      s0 = s ∧ unit = 515 + w ∧ source = 4 ∧ sl = s.slotOf f w ∧ pin = 512 + w ∧ o = s.pcOf f (512 + w) ∧ (k = 0 ∧ ((∃ a, c = .aload f w cycle a) ∨ (∃
      a, c = .astream f w cycle a) ∨ c = .swap f w cycle) ∨ k = 1 ∧ ((∃ v tok, c = .vectorOperation f w v tok) ∨ (∃ b f19 d, c = .vectorReduction f w
      b f19 d) ∨ ∃ cvt src dst b, c = .vectorConversion f w cvt src dst b) ∨ k = 2 ∧ ∃ a, c = .spoolStreamIssue f w a)) ∨ (s.driven f unit w = some
      (p, r, true) ∧ s0 = s ∧ source = unit ∧ sl = s.slotOf f w ∧ pin = 512 + w ∧ o = s.pcOf f (512 + w) ∧ (unit = 0 ∧ ((∃ a, aloadOk a = false ∧ c =
      .aload f w cycle a) ∨ ∃ a, astreamPages r a = false ∧ c = .astream f w cycle a) ∨ unit = 1 ∧ (∃ cvt src dst b, cvtOk cvt = false ∧ c =
      .vectorConversion f w cvt src dst b) ∨ unit = 2 ∧ ∃ a, (r.pageOk a 32 = false ∨ (spoolBad (s.fsRead f a 32) r.pages).isSome = true) ∧ c =
      .spoolStreamIssue f w a)))) ∧
    (∃ (s : State) (s0 : State) (f : Nat) (w : Nat) (n : Nat) (p : Nat) (slot : Nat) (off : Nat) (cycle : Nat) (k : Nat) (unit : Nat) (source : Nat)
      (sl : Nat) (pin : Nat) (o : Nat) (r : FrondRec) (c : Instr), ((s.pinRuns f n slot = some (p, r) ∧ s0 = s.setPc f n off ∧ unit = 3 + n ∧ source =
      (if n < 512 then 3 else 4) ∧ sl = slot ∧ pin = n ∧ o = off ∧ (c = .pinnuleInstruction f n slot off .undefined ∨ (∃ d a, r.pageOk a 4 = false ∧
      (c = .pinnuleInstruction f n slot off (.loadFrond d a) ∨ c = .pinnuleInstruction f n slot off (.storeFrond d a))) ∨ ∃ cvt src dst b, cvtOk cvt =
      false ∧ c = .pinnuleConversion f n slot off cvt src ⟨dst, b⟩)) ∨ (s.pinBusy f n = some (p, r) ∧ s0 = s ∧ unit = 3 + n ∧ source = (if n < 512
      then 3 else 4) ∧ sl = s.slotOf f (gangOf n) ∧ pin = n ∧ o = s.pcOf f n ∧ 4096 ≤ k ∧ c = .raise f n k) ∨ (s.driven f k w = some (p, r, false) ∧
      s0 = s ∧ unit = 515 + w ∧ source = 4 ∧ sl = s.slotOf f w ∧ pin = 512 + w ∧ o = s.pcOf f (512 + w) ∧ (k = 0 ∧ ((∃ a, c = .aload f w cycle a) ∨ (∃
      a, c = .astream f w cycle a) ∨ c = .swap f w cycle) ∨ k = 1 ∧ ((∃ v tok, c = .vectorOperation f w v tok) ∨ (∃ b f19 d, c = .vectorReduction f w
      b f19 d) ∨ ∃ cvt src dst b, c = .vectorConversion f w cvt src dst b) ∨ k = 2 ∧ ∃ a, c = .spoolStreamIssue f w a)) ∨ (s.driven f unit w = some
      (p, r, true) ∧ s0 = s ∧ source = unit ∧ sl = s.slotOf f w ∧ pin = 512 + w ∧ o = s.pcOf f (512 + w) ∧ (unit = 0 ∧ ((∃ a, aloadOk a = false ∧ c =
      .aload f w cycle a) ∨ ∃ a, astreamPages r a = false ∧ c = .astream f w cycle a) ∨ unit = 1 ∧ (∃ cvt src dst b, cvtOk cvt = false ∧ c =
      .vectorConversion f w cvt src dst b) ∨ unit = 2 ∧ ∃ a, (r.pageOk a 32 = false ∨ (spoolBad (s.fsRead f a 32) r.pages).isSome = true) ∧ c =
      .spoolStreamIssue f w a)))) ∧
    (∃ (s : State) (s0 : State) (f : Nat) (w : Nat) (n : Nat) (p : Nat) (slot : Nat) (off : Nat) (cycle : Nat) (k : Nat) (unit : Nat) (source : Nat)
      (sl : Nat) (pin : Nat) (o : Nat) (r : FrondRec) (c : Instr), ((s.pinRuns f n slot = some (p, r) ∧ s0 = s.setPc f n off ∧ unit = 3 + n ∧ source =
      (if n < 512 then 3 else 4) ∧ sl = slot ∧ pin = n ∧ o = off ∧ (c = .pinnuleInstruction f n slot off .undefined ∨ (∃ d a, r.pageOk a 4 = false ∧
      (c = .pinnuleInstruction f n slot off (.loadFrond d a) ∨ c = .pinnuleInstruction f n slot off (.storeFrond d a))) ∨ ∃ cvt src dst b, cvtOk cvt =
      false ∧ c = .pinnuleConversion f n slot off cvt src ⟨dst, b⟩)) ∨ (s.pinBusy f n = some (p, r) ∧ s0 = s ∧ unit = 3 + n ∧ source = (if n < 512
      then 3 else 4) ∧ sl = s.slotOf f (gangOf n) ∧ pin = n ∧ o = s.pcOf f n ∧ 4096 ≤ k ∧ c = .raise f n k) ∨ (s.driven f k w = some (p, r, false) ∧
      s0 = s ∧ unit = 515 + w ∧ source = 4 ∧ sl = s.slotOf f w ∧ pin = 512 + w ∧ o = s.pcOf f (512 + w) ∧ (k = 0 ∧ ((∃ a, c = .aload f w cycle a) ∨ (∃
      a, c = .astream f w cycle a) ∨ c = .swap f w cycle) ∨ k = 1 ∧ ((∃ v tok, c = .vectorOperation f w v tok) ∨ (∃ b f19 d, c = .vectorReduction f w
      b f19 d) ∨ ∃ cvt src dst b, c = .vectorConversion f w cvt src dst b) ∨ k = 2 ∧ ∃ a, c = .spoolStreamIssue f w a)) ∨ (s.driven f unit w = some
      (p, r, true) ∧ s0 = s ∧ source = unit ∧ sl = s.slotOf f w ∧ pin = 512 + w ∧ o = s.pcOf f (512 + w) ∧ (unit = 0 ∧ ((∃ a, aloadOk a = false ∧ c =
      .aload f w cycle a) ∨ ∃ a, astreamPages r a = false ∧ c = .astream f w cycle a) ∨ unit = 1 ∧ (∃ cvt src dst b, cvtOk cvt = false ∧ c =
      .vectorConversion f w cvt src dst b) ∨ unit = 2 ∧ ∃ a, (r.pageOk a 32 = false ∨ (spoolBad (s.fsRead f a 32) r.pages).isSome = true) ∧ c =
      .spoolStreamIssue f w a)))) ∧
    (∃ (s : State) (s0 : State) (f : Nat) (w : Nat) (n : Nat) (p : Nat) (slot : Nat) (off : Nat) (cycle : Nat) (k : Nat) (unit : Nat) (source : Nat)
      (sl : Nat) (pin : Nat) (o : Nat) (r : FrondRec) (c : Instr), ((s.pinRuns f n slot = some (p, r) ∧ s0 = s.setPc f n off ∧ unit = 3 + n ∧ source =
      (if n < 512 then 3 else 4) ∧ sl = slot ∧ pin = n ∧ o = off ∧ (c = .pinnuleInstruction f n slot off .undefined ∨ (∃ d a, r.pageOk a 4 = false ∧
      (c = .pinnuleInstruction f n slot off (.loadFrond d a) ∨ c = .pinnuleInstruction f n slot off (.storeFrond d a))) ∨ ∃ cvt src dst b, cvtOk cvt =
      false ∧ c = .pinnuleConversion f n slot off cvt src ⟨dst, b⟩)) ∨ (s.pinBusy f n = some (p, r) ∧ s0 = s ∧ unit = 3 + n ∧ source = (if n < 512
      then 3 else 4) ∧ sl = s.slotOf f (gangOf n) ∧ pin = n ∧ o = s.pcOf f n ∧ 4096 ≤ k ∧ c = .raise f n k) ∨ (s.driven f k w = some (p, r, false) ∧
      s0 = s ∧ unit = 515 + w ∧ source = 4 ∧ sl = s.slotOf f w ∧ pin = 512 + w ∧ o = s.pcOf f (512 + w) ∧ (k = 0 ∧ ((∃ a, c = .aload f w cycle a) ∨ (∃
      a, c = .astream f w cycle a) ∨ c = .swap f w cycle) ∨ k = 1 ∧ ((∃ v tok, c = .vectorOperation f w v tok) ∨ (∃ b f19 d, c = .vectorReduction f w
      b f19 d) ∨ ∃ cvt src dst b, c = .vectorConversion f w cvt src dst b) ∨ k = 2 ∧ ∃ a, c = .spoolStreamIssue f w a)) ∨ (s.driven f unit w = some
      (p, r, true) ∧ s0 = s ∧ source = unit ∧ sl = s.slotOf f w ∧ pin = 512 + w ∧ o = s.pcOf f (512 + w) ∧ (unit = 0 ∧ ((∃ a, aloadOk a = false ∧ c =
      .aload f w cycle a) ∨ ∃ a, astreamPages r a = false ∧ c = .astream f w cycle a) ∨ unit = 1 ∧ (∃ cvt src dst b, cvtOk cvt = false ∧ c =
      .vectorConversion f w cvt src dst b) ∨ unit = 2 ∧ ∃ a, (r.pageOk a 32 = false ∨ (spoolBad (s.fsRead f a 32) r.pages).isSome = true) ∧ c =
      .spoolStreamIssue f w a)))) :=
  ⟨⟨pinnules, _, 0, 0, 5, 0, 2, 64, 0, 0, _, _, _, _, _, rec0, Instr.pinnuleInstruction 0 5 2 64 .undefined,
      (by exact .inl ⟨by decide +kernel, rfl, rfl, rfl, rfl, rfl, rfl, .inl rfl⟩)⟩,
    ⟨pinnules, _, 0, 0, 512, 0, 2, 64, 0, 4096, _, _, _, _, _, rec0, Instr.raise 0 512 4096,
      (by exact .inr (.inl ⟨by decide +kernel, rfl, rfl, rfl, rfl, rfl, rfl, by decide, rfl⟩))⟩,
    ⟨gang1, _, 0, 0, 512, 0, 2, 64, 0, 1, _, _, _, _, _, rec1, Instr.vectorReduction 0 0 .add true 3,
      (by exact .inr (.inr (.inl ⟨by decide +kernel, rfl, rfl, rfl, rfl, rfl, rfl, .inr (.inl ⟨rfl, .inr (.inl ⟨_, _, _, rfl⟩)⟩)⟩)))⟩,
    ⟨pinnules, _, 0, 0, 512, 0, 2, 64, 0, 1, 0, _, _, _, _, rec0, Instr.aload 0 0 0 { load0 with expand := 1 },
      (by exact .inr (.inr (.inr ⟨by decide +kernel, rfl, rfl, rfl, rfl, rfl, .inl ⟨rfl, .inl ⟨_, by decide +kernel, rfl⟩⟩⟩)))⟩⟩

/-- States and operands that meet the hypotheses of SpoolStreamsRun, clause by clause. -/
theorem witness_SpoolStreamsRun :
    (∃ (s : State) (f : Nat) (w : Nat), s.driven f unitSpool w = none) ∧
    (∃ (s : State) (f : Nat) (w : Nat) (p : Nat) (r : FrondRec), s.driven f unitSpool w = some (p, r, false)) ∧
    (∃ (s : State) (f : Nat) (w : Nat) (p : Nat) (a : Nat) (r : FrondRec), s.driven f unitSpool w = some (p, r, true) ∧ (r.pageOk a 32 = false ∨
      (spoolBad (s.fsRead f a 32) r.pages).isSome = true)) ∧
    (∃ (s : State) (f : Nat) (w : Nat) (p : Nat) (a : Nat) (r : FrondRec), s.driven f unitSpool w = some (p, r, true) ∧ r.pageOk a 32 = true ∧
      spoolBad (s.fsRead f a 32) r.pages = none ∧ 64 ≤ (s.getFrond f).streams.length) ∧
    (∃ (s : State) (f : Nat) (w : Nat) (p : Nat) (a : Nat) (r : FrondRec), s.driven f unitSpool w = some (p, r, true) ∧ r.pageOk a 32 = true ∧
      spoolBad (s.fsRead f a 32) r.pages = none ∧ (s.getFrond f).streams.length < 64) ∧
    (∃ (s : State) (f : Nat) (id : Nat), (s.streamAt f id = none ∨ s.unitRuns f unitSpool = none)) ∧
    (∃ (s : State) (f : Nat) (p : Nat) (id : Nat) (r : FrondRec) (x : Stream) (c : Instr) (key : Nat), (c = .spoolBurstStart f id ∧ key = 8 ∧
      x.write = false ∧ x.next < x.count ∧ x.next - x.released < x.depth ∨ c = .spoolWriteBurst f id ∧ key = 10 ∧ x.write = true ∧ x.next < x.count ∧
      s.producerRaised f x x.next = true) ∧ s.unitRuns f unitSpool = some (p, r) ∧ s.streamAt f id = some x ∧ s.farOk p (x.farOf x.next) x.burst =
      true) ∧
    (∃ (s : State) (f : Nat) (p : Nat) (id : Nat) (r : FrondRec) (x : Stream) (c : Instr) (key : Nat), (c = .spoolBurstStart f id ∧ key = 8 ∧
      x.write = false ∧ x.next < x.count ∧ x.next - x.released < x.depth ∨ c = .spoolWriteBurst f id ∧ key = 10 ∧ x.write = true ∧ x.next < x.count ∧
      s.producerRaised f x x.next = true) ∧ s.unitRuns f unitSpool = some (p, r) ∧ s.streamAt f id = some x ∧ s.farOk p (x.farOf x.next) x.burst =
      false) ∧
    (∃ (s : State) (f : Nat) (p : Nat) (id : Nat) (r : FrondRec) (x : Stream), s.unitRuns f unitSpool = some (p, r) ∧ s.streamAt f id = some x ∧
      (x.write = true ∨ x.count ≤ x.next ∨ x.depth ≤ x.next - x.released)) ∧
    (∃ (s : State) (f : Nat) (p : Nat) (id : Nat) (r : FrondRec) (x : Stream), s.unitRuns f unitSpool = some (p, r) ∧ s.streamAt f id = some x ∧
      (x.write = false ∨ x.count ≤ x.next ∨ s.producerRaised f x x.next = false)) ∧
    (∃ (s : State) (f : Nat) (p : Nat) (id : Nat) (r : FrondRec) (x : Stream) (j : Nat) (a : Nat) (n : Nat) (ue : List Nat) (bs : List Byte), a =
      farAddr p (x.farOf j) ∧ bs = s.far.readN a x.burst ∧ n = (landing x.convert a ue bs).2 ∧ s.unitRuns f unitSpool = some (p, r) ∧ s.streamAt f id
      = some x ∧ (x.write = true ∨ s.burstOpen p f x j = false ∨ s.rangeOpen (some (frondDie f)) a x.burst = false)) ∧
    (∃ (s : State) (f : Nat) (p : Nat) (id : Nat) (r : FrondRec) (x : Stream) (j : Nat) (a : Nat) (n : Nat) (ue : List Nat) (bs : List Byte), a =
      farAddr p (x.farOf j) ∧ bs = s.far.readN a x.burst ∧ n = (landing x.convert a ue bs).2 ∧ s.unitRuns f unitSpool = some (p, r) ∧ s.streamAt f id
      = some x ∧ x.write = false ∧ s.burstOpen p f x j = true ∧ s.rangeOpen (some (frondDie f)) a x.burst = true) ∧
    (∃ (s : State) (f : Nat) (p : Nat) (id : Nat) (r : FrondRec) (x : Stream), s.unitRuns f unitSpool = some (p, r) ∧ s.streamAt f id = some x ∧
      (x.write = true ∨ x.raised ≤ x.released)) ∧
    (∃ (s : State) (f : Nat) (p : Nat) (id : Nat) (r : FrondRec) (x : Stream), s.unitRuns f unitSpool = some (p, r) ∧ s.streamAt f id = some x ∧
      x.write = false ∧ x.released < x.raised) ∧
    (∃ (s : State) (f : Nat) (p : Nat) (id : Nat) (r : FrondRec) (x : Stream) (a : Nat), a = farAddr p (x.farOf x.released) ∧ s.unitRuns f unitSpool
      = some (p, r) ∧ s.streamAt f id = some x ∧ (x.write = false ∨ x.next ≤ x.released ∨ s.burstHeld p f id x.released = true ∨ s.rangeOpen (some
      (frondDie f)) a x.burst = false)) ∧
    (∃ (s : State) (f : Nat) (p : Nat) (id : Nat) (r : FrondRec) (x : Stream) (a : Nat), a = farAddr p (x.farOf x.released) ∧ (∀ b, s.waitOf f
      (r.warden unitSpool) ≠ some (.stream b)) ∧ s.unitRuns f unitSpool = some (p, r) ∧ s.streamAt f id = some x ∧ x.write = true ∧ x.released <
      x.next ∧ s.burstHeld p f id x.released = false ∧ s.rangeOpen (some (frondDie f)) a x.burst = true) :=
  ⟨⟨up, 0, 0, by decide +kernel⟩,
    ⟨gang1, 0, 0, 0, rec1, by decide +kernel⟩,
    ⟨running, 0, 0, 0, 3670000, rec0, by decide +kernel⟩,
    ⟨described 64, 0, 0, 0, 8192, rec0, by decide +kernel⟩,
    ⟨described 63, 0, 0, 0, 8192, rec0, by decide +kernel⟩,
    ⟨running, 0, 3, by decide +kernel⟩,
    ⟨streams { stream0 with write := true } [(11, 1)], 0, 0, 3, rec0, { stream0 with write := true }, .spoolWriteBurst 0 3, 10,
      (by exact .inr (by decide +kernel)), by decide +kernel⟩,
    ⟨streams { stream0 with far := 1073741696 } [], 0, 0, 3, rec0, { stream0 with far := 1073741696 }, .spoolBurstStart 0 3, 8,
      (by exact .inl (by decide +kernel)), by decide +kernel⟩,
    ⟨streams { stream0 with next := 2 } [], 0, 0, 3, rec0, { stream0 with next := 2 }, by decide +kernel⟩,
    ⟨streams { stream0 with write := true } [], 0, 0, 3, rec0, { stream0 with write := true }, by decide +kernel⟩,
    ⟨streams { stream0 with next := 2, write := true } [], 0, 0, 3, rec0, { stream0 with next := 2, write := true }, 0, _, _, [5], _, rfl, rfl, rfl,
      by decide +kernel⟩,
    ⟨streams { stream0 with next := 2 } [], 0, 0, 3, rec0, { stream0 with next := 2 }, 0, _, _, [5], _, rfl, rfl, rfl, by decide +kernel⟩,
    ⟨streams stream0 [], 0, 0, 3, rec0, stream0, by decide +kernel⟩,
    ⟨streams { stream0 with next := 4, raised := 4, released := 3 } [], 0, 0, 3, rec0, { stream0 with next := 4, raised := 4, released := 3 },
      by decide +kernel⟩,
    ⟨streams stream0 [], 0, 0, 3, rec0, stream0, _, rfl, by decide +kernel⟩,
    ⟨streams { stream0 with write := true, next := 4, released := 3 } [], 0, 0, 3, rec0, { stream0 with write := true, next := 4, released := 3 },
      _, rfl, (by exact fun _ h => nomatch (show (none : Option Wait) = some _ from h)), by decide +kernel⟩⟩


/-- A package with a micro-batch slot whose token count stands in its memory, and a frond store that is not clear. -/
def inputs (n : Nat) : State :=
  part 0 { part0 with image := { img0 with slots := [{ first := 0, width := 1, maxTokens := 16, input := 128 }], slotFlags := 1 } }
    { running with far := running.far.writeN 128 (leBytes 8 n), store := running.store.writeN 4096 (List.replicate 16 7) }
/-- A package of a job group of two, below its root. -/
def voter (r : Run) : State :=
  part 0 { part0 with image := { img0 with job := [1, 1, 1, 1, 0, 1], slipBudget := 50 }, run := r, tcb := { skipHalt := 0, scaleExp := 4, stepBase := 100, b1Pow := 0x3F800000#32 } }
    running
/-- A run whose wardens have all committed. -/
def committed0 : Run := { base := 900, committed := (List.range 4).flatMap fun f => (List.range 16).map fun g => 16 * f + g, slip := 9, gradConv := 5 }
/-- A run whose vote is sent and whose own part is complete. -/
def sent0 : Run := { base := 900, sent := some ({ step := 0 }, 990), passed := true }
/-- A vote of the group's other member. -/
def voteOf (v : Vote) : Frame := { dst := ⟨1, 1, 1⟩, src := ⟨1, 1, 0⟩, kind := 4, vl := 2, payload := v.bytes }
/-- The vote of a run. -/
def vote0 : Vote := { step := 0, slip := 3, issue := 1200, finite := true }
/-- A fused record of an operation in a group, with LENGTH. -/
def fusedRec (op group len : Nat) : List Byte :=
  record 64 [⟨0, 1, op⟩, ⟨2, 2, group⟩, ⟨4, 4, 90⟩, ⟨8, 4, 20⟩, ⟨0xD, 1, if op = 3 ∨ 5 ≤ op then 1 else 0⟩, ⟨0x14, 4, 8192⟩, ⟨0x18, 4, 16384⟩,
    ⟨0x1C, 4, 256⟩, ⟨0x20, 8, len⟩, ⟨0x28, 2, 20⟩, ⟨0x2A, 2, 30⟩, ⟨0x2C, 2, 40⟩, ⟨0x30, 1, 2⟩]
/-- A running package with that record in the store of frond 0, and an earlier entry of a pass. -/
def fusing (op group len last : Nat) : State :=
  { running with store := running.store.writeN 24576 (fusedRec op group len) }.updFrond 0 fun x => { x with arr := { x.arr with lastEnter := last } }
/-- The stream of its array part. -/
def pass0 : AstreamArgs :=
  { src := 4096, stride := 512, afmt := 0, m := 1, acc := 8192, accStride := 1024, initAcc := false, mode := 0, kValid := 3, nValid := 64 }
/-- The instruction of an operation at its first issue. -/
def coll0 (op group len g : Nat) : Coll :=
  { group := g, inst := 0, frond := 0, record := 24576, what := fusedParse (fusedRec op group len), step := 0, progress := 1000, deadline := 1170 }
/-- States and operands that meet the hypotheses of IssuesAndMicroBatches, clause by clause. -/
theorem witness_IssuesAndMicroBatches :
    (∃ (s : State) (f : Nat) (w : Nat) (es : Nat) (p : Nat) (l : Nat), l = s.sync.stitch - ((s.getPart p).run.base + es) ∧ s.issuer f w = none) ∧
    (∃ (s : State) (f : Nat) (w : Nat) (es : Nat) (p : Nat) (l : Nat) (r : FrondRec) (tokens : List (Nat × Nat)), l = s.sync.stitch - ((s.getPart
      p).run.base + es) ∧ s.issuer f w = some (p, r) ∧ (s.getPart p).run.base + es ≤ s.sync.stitch ∧ (∀ k ∈ tokens, s.tokenAt f k.1 k.2 = true)) ∧
    (∃ (s : State) (f : Nat) (w : Nat) (es : Nat) (p : Nat) (l : Nat) (r : FrondRec) (tokens : List (Nat × Nat)), l = s.sync.stitch - ((s.getPart
      p).run.base + es) ∧ s.issuer f w = some (p, r) ∧ (s.sync.stitch < (s.getPart p).run.base + es ∨ (∃ k ∈ tokens, s.tokenAt f k.1 k.2 = false))) ∧
    (∃ (s : State) (es : Nat) (p : Nat) (l : Nat), l = s.sync.stitch - ((s.getPart p).run.base + es)) ∧
    (∃ (s : State) (f : Nat) (w : Nat) (es : Nat) (p : Nat) (l : Nat) (r : FrondRec) (reg : Nat), l = s.sync.stitch - ((s.getPart p).run.base + es) ∧
      es = ((s.getFrond f).iget (512 + w) reg).toNat ∧ s.issuer f w = some (p, r) ∧ (s.getPart p).run.base + es ≤ s.sync.stitch) ∧
    (∃ (s : State) (f : Nat) (w : Nat) (es : Nat) (p : Nat) (l : Nat) (r : FrondRec) (n : Nat) (k : Nat) (g : Nat), l = s.sync.stitch - ((s.getPart
      p).run.base + es) ∧ s.pinBusy f n = some (p, r) ∧ k < 4096 ∧ (s.getFrond f).wait = [(w, some (.issue es [(k, g)]))] ∧ s.unitRuns f (unitPinnule
      (wardenPinnule w)) = some (p, r)) ∧
    (∃ (s : State) (f : Nat) (w : Nat) (es : Nat) (p : Nat) (l : Nat), l = s.sync.stitch - ((s.getPart p).run.base + es) ∧ (s.unitRuns f
      (unitPinnule (wardenPinnule w)) = none ∨ s.waitOf f w ≠ none)) ∧
    (∃ (s : State) (f : Nat) (w : Nat) (es : Nat) (p : Nat) (l : Nat) (r : FrondRec), l = s.sync.stitch - ((s.getPart p).run.base + es) ∧ s.unitRuns
      f (unitPinnule (wardenPinnule w)) = some (p, r) ∧ s.waitOf f w = none ∧ 16 * f + w ∈ (s.getPart p).run.committed) ∧
    (∃ (s : State) (f : Nat) (w : Nat) (es : Nat) (p : Nat) (l : Nat) (r : FrondRec), l = s.sync.stitch - ((s.getPart p).run.base + es) ∧ s.unitRuns
      f (unitPinnule (wardenPinnule w)) = some (p, r) ∧ s.waitOf f w = none ∧ 16 * f + w ∉ (s.getPart p).run.committed ∧ s.sync.stitch < (s.getPart
      p).run.base + es) ∧
    (∃ (s : State) (f : Nat) (w : Nat) (es : Nat) (p : Nat) (l : Nat) (r : FrondRec), l = s.sync.stitch - ((s.getPart p).run.base + es) ∧ s.unitRuns
      f (unitPinnule (wardenPinnule w)) = some (p, r) ∧ s.waitOf f w = none ∧ 16 * f + w ∉ (s.getPart p).run.committed ∧ (s.getPart p).run.base + es ≤
      s.sync.stitch) ∧
    (∃ (s : State) (p : Nat) (e : Nat), ((s.getPart p).image.slots[e]? = none ∨ (s.getPart p).pat ≠ .running ∨ bit (s.getPart p).image.slotFlags 0 =
      false ∨ Tab.get 0 (s.getPart p).tokens e ≠ 0)) ∧
    (∃ (s : State) (p : Nat) (e : Nat) (f : Nat) (a : Nat) (tb : Nat) (l : Nat) (f' : Nat) (b : Nat) (l' : Nat) (n : Nat) (v : Nat) (x : SlotEntry),
      n = leNat (s.far.readN ((s.getPart p).hbmBase + x.input) 8) ∧ v = (if n ≤ x.maxTokens then n else 0) ∧ (s.getPart p).image.slots[e]? = some x ∧
      (s.getPart p).pat = .running ∧ bit (s.getPart p).image.slotFlags 0 = true ∧ Tab.get 0 (s.getPart p).tokens e = 0 ∧ s.physical p l = some f ∧
      s.physical p l' = some f' ∧ a + tb * x.maxTokens ≤ 3670016 ∧ b + 8 ≤ 3670016) ∧
    (∃ (s : State) (f : Nat) (w : Nat) (es : Nat) (p : Nat) (l : Nat) (r : FrondRec) (tokens : List (Nat × Nat)), l = s.sync.stitch - ((s.getPart
      p).run.base + es) ∧ s.issuer f w = some (p, r) ∧ (s.getPart p).run.base + es ≤ s.sync.stitch ∧ (∀ k ∈ tokens, s.tokenAt f k.1 k.2 = true)) ∧
    (∃ (s : State) (f : Nat) (w : Nat) (es : Nat) (p : Nat) (l : Nat) (r : FrondRec) (tokens : List (Nat × Nat)), l = s.sync.stitch - ((s.getPart
      p).run.base + es) ∧ (s.sync.stitch < (s.getPart p).run.base + es ∨ (∃ k ∈ tokens, s.tokenAt f k.1 k.2 = false)) ∧ s.issuer f w = some (p, r)) ∧
    (∃ (s : State) (f : Nat) (w : Nat) (es : Nat) (p : Nat) (l : Nat) (r : FrondRec) (n : Nat) (k : Nat) (g : Nat), l = s.sync.stitch - ((s.getPart
      p).run.base + es) ∧ s.pinBusy f n = some (p, r) ∧ k < 4096 ∧ (s.getFrond f).wait = [(w, some (.issue es [(k, g)]))] ∧ s.unitRuns f (unitPinnule
      (wardenPinnule w)) = some (p, r)) ∧
    (∃ (s : State) (f : Nat) (w : Nat) (es : Nat) (p : Nat) (l : Nat), l = s.sync.stitch - ((s.getPart p).run.base + es) ∧ (s.unitRuns f
      (unitPinnule (wardenPinnule w)) = none ∨ s.waitOf f w ≠ none)) ∧
    (∃ (s : State) (p : Nat) (e : Nat) (f : Nat) (a : Nat) (tb : Nat) (l : Nat) (f' : Nat) (b : Nat) (l' : Nat) (n : Nat) (v : Nat) (x : SlotEntry),
      n = leNat (s.far.readN ((s.getPart p).hbmBase + x.input) 8) ∧ v = (if n ≤ x.maxTokens then n else 0) ∧ (s.getPart p).image.slots[e]? = some x ∧
      (s.getPart p).pat = .running ∧ bit (s.getPart p).image.slotFlags 0 = true ∧ Tab.get 0 (s.getPart p).tokens e = 0 ∧ s.physical p l = some f ∧
      s.physical p l' = some f' ∧ a + tb * x.maxTokens ≤ 3670016 ∧ b + 8 ≤ 3670016) :=
  ⟨⟨up, 0, 0, 90, 0, _, rfl, by decide +kernel⟩,
    ⟨fronded fun x => { x with token := [(9, 1)] }, 0, 0, 90, 0, _, rec0, [(9, 0)], rfl, by decide +kernel⟩,
    ⟨fronded fun x => { x with token := [(9, 1)] }, 0, 0, 101, 0, _, rec0, [(9, 0)], rfl, by decide +kernel⟩,
    ⟨fronded fun x => { x with token := [(9, 1)] }, 90, 0, _, rfl⟩,
    ⟨fronded fun x => { x with ireg := [(512 * 32 + 3, 100)] }, 0, 0, 100, 0, _, rec0, 3, rfl, by decide +kernel⟩,
    ⟨fronded fun x => { x with gang := [(0, 1)], wait := [(0, some (.issue 90 [(4095, 0)]))] }, 0, 0, 90, 0, _, rec0, 0, 4095, 0, rfl,
      by decide +kernel⟩,
    ⟨up, 0, 0, 90, 0, _, rfl, by decide +kernel⟩,
    ⟨part 0 { part0 with run := { base := 900, committed := [0] } } running, 0, 0, 90, 0, _, rec0, rfl, by decide +kernel⟩,
    ⟨running, 0, 0, 101, 0, _, rec0, rfl, by decide +kernel⟩,
    ⟨running, 0, 0, 90, 0, _, rec0, rfl, by decide +kernel⟩,
    ⟨running, 0, 0, by decide +kernel⟩,
    ⟨inputs 3, 0, 0, 0, 4096, 1, 0, 1, 3670008, 1, _, _, { first := 0, width := 1, maxTokens := 16, input := 128 }, rfl, rfl, by decide +kernel⟩,
    ⟨inputs 3, 0, 0, 100, 0, _, rec0, [], rfl, by decide +kernel⟩,
    ⟨fronded fun x => { x with token := [(9, 1)] }, 0, 0, 90, 0, _, rec0, [(9, 1)], rfl, (by exact .inr ⟨(9, 1), by decide, by decide +kernel⟩),
      by decide +kernel⟩,
    ⟨fronded fun x => { x with gang := [(0, 1)], wait := [(0, some (.issue 101 [(4095, 0)]))] }, 0, 0, 101, 0, _, rec0, 0, 4095, 0, rfl,
      by decide +kernel⟩,
    ⟨fronded fun x => { x with wait := [(0, some (.issue 101 []))] }, 0, 0, 101, 0, _, rfl, (by exact .inr (by decide +kernel))⟩,
    ⟨inputs 17, 0, 0, 0, 4096, 1, 0, 1, 3670008, 1, _, _, { first := 0, width := 1, maxTokens := 16, input := 128 }, rfl, rfl, by decide +kernel⟩⟩

/-- States and operands that meet the hypotheses of VotesDecideSteps, clause by clause. -/
theorem witness_VotesDecideSteps :
    (∃ (s : State) (p : Nat) (q : Partition) (g : Group), q = s.getPart p ∧ g = q.image.jobGroup ∧ (q.pat ≠ .running ∨ q.run.decided = true ∨
      q.run.sent ≠ none ∨ q.run.halt ≠ none ∨ s.voteForms p = false)) ∧
    (∃ (s : State) (p : Nat) (q : Partition) (g : Group), q = s.getPart p ∧ g = q.image.jobGroup ∧ q.pat = .running ∧ q.run.decided = false ∧
      q.run.sent = none ∧ q.run.halt = none ∧ s.voteForms p = true) ∧
    (∃ (s : State) (p : Nat) (q : Partition) (g : Group) (port : Nat) (f : Frame) (v : Vote) (u : State), q = s.getPart p ∧ g = q.image.jobGroup ∧ v
      = voteParse f.payload ∧ u = s.takeRx port f ∧ (f.kind ≠ 4 ∨ f.arg ≠ 0 ∨ f.dst ≠ s.here) ∧ f.part = p) ∧
    (∃ (s : State) (p : Nat) (q : Partition) (g : Group) (port : Nat) (f : Frame) (v : Vote) (u : State), Deliverable s port f ∧ q = s.getPart p ∧ g
      = q.image.jobGroup ∧ v = voteParse f.payload ∧ u = s.takeRx port f ∧ (q.pat ≠ .running ∨ q.run.decided = true ∨ v.step ≠ q.run.step) ∧ f.part =
      p ∧ f.kind = 4 ∧ f.arg = 0 ∧ f.dst = s.here) ∧
    (∃ (s : State) (p : Nat) (q : Partition) (g : Group) (port : Nat) (f : Frame) (v : Vote) (u : State), Deliverable s port f ∧ q = s.getPart p ∧ g
      = q.image.jobGroup ∧ v = voteParse f.payload ∧ u = s.takeRx port f ∧ f.part = p ∧ f.kind = 4 ∧ f.arg = 0 ∧ f.dst = s.here ∧ q.pat = .running ∧
      q.run.decided = false ∧ v.step = q.run.step ∧ g.parent s.here = some f.src ∧ (q.run.passed = false ∨ q.run.sent = none)) ∧
    (∃ (s : State) (p : Nat) (q : Partition) (g : Group) (port : Nat) (f : Frame) (v : Vote) (u : State), Deliverable s port f ∧ q = s.getPart p ∧ g
      = q.image.jobGroup ∧ v = voteParse f.payload ∧ u = s.takeRx port f ∧ f.part = p ∧ f.kind = 4 ∧ f.arg = 0 ∧ f.dst = s.here ∧ q.pat = .running ∧
      q.run.decided = false ∧ v.step = q.run.step ∧ g.parent s.here = some f.src ∧ q.run.passed = true ∧ q.run.sent ≠ none) ∧
    (∃ (s : State) (p : Nat) (q : Partition) (g : Group) (port : Nat) (f : Frame) (v : Vote) (u : State), Deliverable s port f ∧ q = s.getPart p ∧ g
      = q.image.jobGroup ∧ v = voteParse f.payload ∧ u = s.takeRx port f ∧ f.part = p ∧ f.kind = 4 ∧ f.arg = 0 ∧ f.dst = s.here ∧ q.pat = .running ∧
      q.run.decided = false ∧ v.step = q.run.step ∧ g.parent s.here ≠ some f.src ∧ (f.src ∉ g.children s.here ∨ (∃ c ∈ q.run.children, c.1 = f.src))) ∧
    (∃ (s : State) (p : Nat) (q : Partition) (g : Group) (port : Nat) (f : Frame) (v : Vote) (u : State), Deliverable s port f ∧ q = s.getPart p ∧ g
      = q.image.jobGroup ∧ v = voteParse f.payload ∧ u = s.takeRx port f ∧ f.part = p ∧ f.kind = 4 ∧ f.arg = 0 ∧ f.dst = s.here ∧ q.pat = .running ∧
      q.run.decided = false ∧ v.step = q.run.step ∧ g.parent s.here ≠ some f.src ∧ f.src ∈ g.children s.here ∧ (∀ c ∈ q.run.children, c.1 ≠ f.src)) ∧
    (∃ (s : State) (p : Nat) (q : Partition) (g : Group), q = s.getPart p ∧ g = q.image.jobGroup ∧ (q.run.sent = none ∨ q.pat ≠ .running ∨
      q.run.decided = true ∨ (∃ v k, q.run.sent = some (v, k) ∧ s.sync.stitch < k + q.image.collTimeout))) ∧
    (∃ (s : State) (p : Nat) (q : Partition) (g : Group) (v : Vote) (k : _), q = s.getPart p ∧ g = q.image.jobGroup ∧ q.run.sent = some (v, k) ∧
      q.pat = .running ∧ q.run.decided = false ∧ k + q.image.collTimeout ≤ s.sync.stitch) ∧
    (∃ (s : State) (p : Nat) (q : Partition) (g : Group), q = s.getPart p ∧ g = q.image.jobGroup ∧ (q.pat ≠ .running ∨ q.run.decided = true ∨
      q.run.sent ≠ none ∨ q.run.halt ≠ none ∨ s.voteForms p = false)) ∧
    (∃ (s : State) (p : Nat) (q : Partition) (g : Group) (port : Nat) (f : Frame) (v : Vote) (u : State), Deliverable s port f ∧ q = s.getPart p ∧ g
      = q.image.jobGroup ∧ v = voteParse f.payload ∧ u = s.takeRx port f ∧ (f.src ∉ g.children s.here ∨ (∃ c ∈ q.run.children, c.1 = f.src)) ∧ f.part
      = p ∧ f.kind = 4 ∧ f.arg = 0 ∧ f.dst = s.here ∧ q.pat = .running ∧ q.run.decided = false ∧ v.step = q.run.step ∧ g.parent s.here ≠ some f.src) :=
  ⟨⟨part 0 part0 (fronded fun x => { x with arr := { x.arr with queue := [{ args := pass0, warden := 0, fused := none, cycle := 5 }] } }), 0, _, _,
      rfl, rfl, (by exact .inr (.inr (.inr (.inr (by decide +kernel)))))⟩,
    ⟨voter committed0, 0, _, _, rfl, rfl, by decide +kernel⟩,
    ⟨voter sent0, 0, _, _, 0, { voteOf vote0 with arg := 1 }, _, _, rfl, rfl, rfl, rfl, (by exact .inr (.inl (by decide))), by decide +kernel⟩,
    ⟨voter sent0, 0, _, _, 0, voteOf { vote0 with step := 1 }, _, _, deliverable_of (by decide +kernel), rfl, rfl, rfl, rfl,
      (by exact .inr (.inr (by decide +kernel))), by decide +kernel⟩,
    ⟨voter { sent0 with passed := false }, 0, _, _, 0, voteOf vote0, _, _, deliverable_of (by decide +kernel), rfl, rfl, rfl, rfl,
      by decide +kernel⟩,
    ⟨voter sent0, 0, _, _, 0, voteOf vote0, _, _, deliverable_of (by decide +kernel), rfl, rfl, rfl, rfl, by decide +kernel⟩,
    ⟨part 0 { part0 with image := { img0 with job := [1, 1, 1, 1, 1, 2] }, run := sent0 } running, 0, _, _, 0, voteOf vote0, _, _, deliverable_of
      (by decide +kernel), rfl, rfl, rfl, rfl, by decide +kernel⟩,
    ⟨part 0 { part0 with image := { img0 with job := [1, 1, 1, 1, 1, 2] }, run := sent0 } running, 0, _, _, 0,
      { voteOf vote0 with src := ⟨1, 1, 2⟩ }, _, _, deliverable_of (by decide +kernel), rfl, rfl, rfl, rfl, by decide +kernel⟩,
    ⟨voter sent0, 0, _, _, rfl, rfl, (by exact .inr (.inr (.inr ⟨{ step := 0 }, 990, by decide +kernel, by decide +kernel⟩)))⟩,
    ⟨voter { sent0 with sent := some ({ step := 0 }, 800) }, 0, _, _, { step := 0 }, 800, rfl, rfl, by decide +kernel⟩,
    ⟨voter sent0, 0, _, _, rfl, rfl, (by exact .inr (.inr (.inl (by decide +kernel))))⟩,
    ⟨part 0 { part0 with image := { img0 with job := [1, 1, 1, 1, 1, 2] }, run := { sent0 with children := [(⟨1, 1, 2⟩, vote0)] } } running, 0, _,
      _, 0, { voteOf vote0 with src := ⟨1, 1, 2⟩ }, _, _, deliverable_of (by decide +kernel), rfl, rfl, rfl, rfl, (by exact .inr ⟨_, .head _, rfl⟩),
      by decide +kernel⟩⟩

/-- States and operands that meet the hypotheses of FusedInstructionsIssue, clause by clause. -/
theorem witness_FusedInstructionsIssue :
    (∃ (s : State) (c : Instr) (op : Nat) (unit : Nat) (f : Nat) (w : Nat) (record : Nat) (cycle : Nat) (p : Nat) (gid : Nat) (n : Nat) (l : Nat)
      (cyc : Nat) (a : AstreamArgs) (x : Fused) (y : Coll) (e : Option Abort), gid = (if op ≤ 2 then 65536 + x.group else x.group) ∧ n = Tab.get 0
      (s.getPart p).collNext gid ∧ x = fusedParse (s.fsRead f record 64) ∧ cyc = max cycle (s.getFrond f).arr.stallTo ∧ l = s.sync.stitch -
      ((s.getPart p).run.base + x.es) ∧ y =
      { group := gid, inst := n, frond := f, record := record, what := x, step := (s.getPart p).run.step, progress := s.sync.stitch, deadline := (s.getPart p).run.base + x.planDone + (s.getPart p).image.slipBudget + (s.getPart p).image.collTimeout }
      ∧ e = (s.getPart p).earlyAborts.find? (fun (b : Abort) => b.group == gid && b.inst == n % 256 && b.step == (s.getPart p).run.step) ∧ (c =
      .mmSend f w record cycle a ∧ op = 1 ∧ unit = unitArray ∨ c = .recvMm f w record cycle a ∧ op = 2 ∧ unit = unitArray ∨ c = .mmRs f w record cycle
      a ∧ op = 3 ∧ unit = unitArray ∨ c = .agMm f w record cycle a ∧ op = 4 ∧ unit = unitArray ∨ c = .mmAr f w record cycle a ∧ op = 5 ∧ unit =
      unitArray ∨ c = .vecAr f w record ∧ op = 6 ∧ unit = unitVector ∧ a = default ∧ cycle = 0) ∧ s.driven f unit w = none) ∧
    (∃ (s : State) (c : Instr) (op : Nat) (unit : Nat) (f : Nat) (w : Nat) (record : Nat) (cycle : Nat) (p : Nat) (gid : Nat) (n : Nat) (l : Nat)
      (cyc : Nat) (r : FrondRec) (a : AstreamArgs) (x : Fused) (y : Coll) (e : Option Abort), gid = (if op ≤ 2 then 65536 + x.group else x.group) ∧ n
      = Tab.get 0 (s.getPart p).collNext gid ∧ x = fusedParse (s.fsRead f record 64) ∧ cyc = max cycle (s.getFrond f).arr.stallTo ∧ l = s.sync.stitch
      - ((s.getPart p).run.base + x.es) ∧ y =
      { group := gid, inst := n, frond := f, record := record, what := x, step := (s.getPart p).run.step, progress := s.sync.stitch, deadline := (s.getPart p).run.base + x.planDone + (s.getPart p).image.slipBudget + (s.getPart p).image.collTimeout }
      ∧ e = (s.getPart p).earlyAborts.find? (fun (b : Abort) => b.group == gid && b.inst == n % 256 && b.step == (s.getPart p).run.step) ∧ (c =
      .mmSend f w record cycle a ∧ op = 1 ∧ unit = unitArray ∨ c = .recvMm f w record cycle a ∧ op = 2 ∧ unit = unitArray ∨ c = .mmRs f w record cycle
      a ∧ op = 3 ∧ unit = unitArray ∨ c = .agMm f w record cycle a ∧ op = 4 ∧ unit = unitArray ∨ c = .mmAr f w record cycle a ∧ op = 5 ∧ unit =
      unitArray ∨ c = .vecAr f w record ∧ op = 6 ∧ unit = unitVector ∧ a = default ∧ cycle = 0) ∧ s.driven f unit w = some (p, r, false)) ∧
    (∃ (s : State) (c : Instr) (op : Nat) (unit : Nat) (f : Nat) (w : Nat) (record : Nat) (cycle : Nat) (p : Nat) (gid : Nat) (n : Nat) (l : Nat)
      (cyc : Nat) (r : FrondRec) (a : AstreamArgs) (x : Fused) (y : Coll) (e : Option Abort), gid = (if op ≤ 2 then 65536 + x.group else x.group) ∧ n
      = Tab.get 0 (s.getPart p).collNext gid ∧ x = fusedParse (s.fsRead f record 64) ∧ cyc = max cycle (s.getFrond f).arr.stallTo ∧ l = s.sync.stitch
      - ((s.getPart p).run.base + x.es) ∧ y =
      { group := gid, inst := n, frond := f, record := record, what := x, step := (s.getPart p).run.step, progress := s.sync.stitch, deadline := (s.getPart p).run.base + x.planDone + (s.getPart p).image.slipBudget + (s.getPart p).image.collTimeout }
      ∧ e = (s.getPart p).earlyAborts.find? (fun (b : Abort) => b.group == gid && b.inst == n % 256 && b.step == (s.getPart p).run.step) ∧ (c =
      .mmSend f w record cycle a ∧ op = 1 ∧ unit = unitArray ∨ c = .recvMm f w record cycle a ∧ op = 2 ∧ unit = unitArray ∨ c = .mmRs f w record cycle
      a ∧ op = 3 ∧ unit = unitArray ∨ c = .agMm f w record cycle a ∧ op = 4 ∧ unit = unitArray ∨ c = .mmAr f w record cycle a ∧ op = 5 ∧ unit =
      unitArray ∨ c = .vecAr f w record ∧ op = 6 ∧ unit = unitVector ∧ a = default ∧ cycle = 0) ∧ s.driven f unit w = some (p, r, true) ∧ r.pageOk
      record 64 = false) ∧
    (∃ (s : State) (c : Instr) (op : Nat) (unit : Nat) (f : Nat) (w : Nat) (record : Nat) (cycle : Nat) (p : Nat) (gid : Nat) (n : Nat) (l : Nat)
      (cyc : Nat) (r : FrondRec) (a : AstreamArgs) (x : Fused) (y : Coll) (e : Option Abort), gid = (if op ≤ 2 then 65536 + x.group else x.group) ∧ n
      = Tab.get 0 (s.getPart p).collNext gid ∧ x = fusedParse (s.fsRead f record 64) ∧ cyc = max cycle (s.getFrond f).arr.stallTo ∧ l = s.sync.stitch
      - ((s.getPart p).run.base + x.es) ∧ y =
      { group := gid, inst := n, frond := f, record := record, what := x, step := (s.getPart p).run.step, progress := s.sync.stitch, deadline := (s.getPart p).run.base + x.planDone + (s.getPart p).image.slipBudget + (s.getPart p).image.collTimeout }
      ∧ e = (s.getPart p).earlyAborts.find? (fun (b : Abort) => b.group == gid && b.inst == n % 256 && b.step == (s.getPart p).run.step) ∧ (c =
      .mmSend f w record cycle a ∧ op = 1 ∧ unit = unitArray ∨ c = .recvMm f w record cycle a ∧ op = 2 ∧ unit = unitArray ∨ c = .mmRs f w record cycle
      a ∧ op = 3 ∧ unit = unitArray ∨ c = .agMm f w record cycle a ∧ op = 4 ∧ unit = unitArray ∨ c = .mmAr f w record cycle a ∧ op = 5 ∧ unit =
      unitArray ∨ c = .vecAr f w record ∧ op = 6 ∧ unit = unitVector ∧ a = default ∧ cycle = 0) ∧ s.driven f unit w = some (p, r, true) ∧ r.pageOk
      record 64 = true ∧ s.sync.stitch < (s.getPart p).run.base + x.es) ∧
    (∃ (s : State) (c : Instr) (op : Nat) (unit : Nat) (f : Nat) (w : Nat) (record : Nat) (cycle : Nat) (p : Nat) (gid : Nat) (n : Nat) (l : Nat)
      (cyc : Nat) (r : FrondRec) (a : AstreamArgs) (x : Fused) (y : Coll) (e : Option Abort), gid = (if op ≤ 2 then 65536 + x.group else x.group) ∧ n
      = Tab.get 0 (s.getPart p).collNext gid ∧ x = fusedParse (s.fsRead f record 64) ∧ cyc = max cycle (s.getFrond f).arr.stallTo ∧ l = s.sync.stitch
      - ((s.getPart p).run.base + x.es) ∧ y =
      { group := gid, inst := n, frond := f, record := record, what := x, step := (s.getPart p).run.step, progress := s.sync.stitch, deadline := (s.getPart p).run.base + x.planDone + (s.getPart p).image.slipBudget + (s.getPart p).image.collTimeout }
      ∧ e = (s.getPart p).earlyAborts.find? (fun (b : Abort) => b.group == gid && b.inst == n % 256 && b.step == (s.getPart p).run.step) ∧ (c =
      .mmSend f w record cycle a ∧ op = 1 ∧ unit = unitArray ∨ c = .recvMm f w record cycle a ∧ op = 2 ∧ unit = unitArray ∨ c = .mmRs f w record cycle
      a ∧ op = 3 ∧ unit = unitArray ∨ c = .agMm f w record cycle a ∧ op = 4 ∧ unit = unitArray ∨ c = .mmAr f w record cycle a ∧ op = 5 ∧ unit =
      unitArray ∨ c = .vecAr f w record ∧ op = 6 ∧ unit = unitVector ∧ a = default ∧ cycle = 0) ∧ s.driven f unit w = some (p, r, true) ∧ r.pageOk
      record 64 = true ∧ (s.getPart p).run.base + x.es ≤ s.sync.stitch ∧ x.op ≠ op ∧ 1 ≤ x.op ∧ x.op ≤ 6) ∧
    (∃ (s : State) (c : Instr) (op : Nat) (unit : Nat) (f : Nat) (w : Nat) (record : Nat) (cycle : Nat) (p : Nat) (gid : Nat) (n : Nat) (l : Nat)
      (cyc : Nat) (r : FrondRec) (a : AstreamArgs) (x : Fused) (y : Coll) (e : Option Abort), gid = (if op ≤ 2 then 65536 + x.group else x.group) ∧ n
      = Tab.get 0 (s.getPart p).collNext gid ∧ x = fusedParse (s.fsRead f record 64) ∧ cyc = max cycle (s.getFrond f).arr.stallTo ∧ l = s.sync.stitch
      - ((s.getPart p).run.base + x.es) ∧ y =
      { group := gid, inst := n, frond := f, record := record, what := x, step := (s.getPart p).run.step, progress := s.sync.stitch, deadline := (s.getPart p).run.base + x.planDone + (s.getPart p).image.slipBudget + (s.getPart p).image.collTimeout }
      ∧ e = (s.getPart p).earlyAborts.find? (fun (b : Abort) => b.group == gid && b.inst == n % 256 && b.step == (s.getPart p).run.step) ∧ (c =
      .mmSend f w record cycle a ∧ op = 1 ∧ unit = unitArray ∨ c = .recvMm f w record cycle a ∧ op = 2 ∧ unit = unitArray ∨ c = .mmRs f w record cycle
      a ∧ op = 3 ∧ unit = unitArray ∨ c = .agMm f w record cycle a ∧ op = 4 ∧ unit = unitArray ∨ c = .mmAr f w record cycle a ∧ op = 5 ∧ unit =
      unitArray ∨ c = .vecAr f w record ∧ op = 6 ∧ unit = unitVector ∧ a = default ∧ cycle = 0) ∧ s.driven f unit w = some (p, r, true) ∧ r.pageOk
      record 64 = true ∧ (s.getPart p).run.base + x.es ≤ s.sync.stitch ∧ (x.op = 0 ∨ 6 < x.op ∨ x.op = op ∧ s.fusedFaulty f p r (s.fsRead f record 64)
      a = true)) ∧
    (∃ (s : State) (c : Instr) (op : Nat) (unit : Nat) (f : Nat) (w : Nat) (record : Nat) (cycle : Nat) (p : Nat) (gid : Nat) (n : Nat) (l : Nat)
      (cyc : Nat) (r : FrondRec) (a : AstreamArgs) (x : Fused) (y : Coll) (e : Option Abort), gid = (if op ≤ 2 then 65536 + x.group else x.group) ∧ n
      = Tab.get 0 (s.getPart p).collNext gid ∧ x = fusedParse (s.fsRead f record 64) ∧ cyc = max cycle (s.getFrond f).arr.stallTo ∧ l = s.sync.stitch
      - ((s.getPart p).run.base + x.es) ∧ y =
      { group := gid, inst := n, frond := f, record := record, what := x, step := (s.getPart p).run.step, progress := s.sync.stitch, deadline := (s.getPart p).run.base + x.planDone + (s.getPart p).image.slipBudget + (s.getPart p).image.collTimeout }
      ∧ e = (s.getPart p).earlyAborts.find? (fun (b : Abort) => b.group == gid && b.inst == n % 256 && b.step == (s.getPart p).run.step) ∧ (c =
      .mmSend f w record cycle a ∧ op = 1 ∧ unit = unitArray ∨ c = .recvMm f w record cycle a ∧ op = 2 ∧ unit = unitArray ∨ c = .mmRs f w record cycle
      a ∧ op = 3 ∧ unit = unitArray ∨ c = .agMm f w record cycle a ∧ op = 4 ∧ unit = unitArray ∨ c = .mmAr f w record cycle a ∧ op = 5 ∧ unit =
      unitArray ∨ c = .vecAr f w record ∧ op = 6 ∧ unit = unitVector ∧ a = default ∧ cycle = 0) ∧ s.driven f unit w = some (p, r, true) ∧ r.pageOk
      record 64 = true ∧ (s.getPart p).run.base + x.es ≤ s.sync.stitch ∧ x.op = op ∧ s.fusedFaulty f p r (s.fsRead f record 64) a = false ∧ (∀ z ∈
      (s.getPart p).colls, z.key ≠ (gid, n))) ∧
    (∃ (s : State) (c : Instr) (op : Nat) (unit : Nat) (f : Nat) (w : Nat) (record : Nat) (cycle : Nat) (p : Nat) (gid : Nat) (n : Nat) (l : Nat)
      (cyc : Nat) (r : FrondRec) (a : AstreamArgs) (x : Fused) (y : Coll) (e : Option Abort), gid = (if op ≤ 2 then 65536 + x.group else x.group) ∧ n
      = Tab.get 0 (s.getPart p).collNext gid ∧ x = fusedParse (s.fsRead f record 64) ∧ cyc = max cycle (s.getFrond f).arr.stallTo ∧ l = s.sync.stitch
      - ((s.getPart p).run.base + x.es) ∧ y =
      { group := gid, inst := n, frond := f, record := record, what := x, step := (s.getPart p).run.step, progress := s.sync.stitch, deadline := (s.getPart p).run.base + x.planDone + (s.getPart p).image.slipBudget + (s.getPart p).image.collTimeout }
      ∧ e = (s.getPart p).earlyAborts.find? (fun (b : Abort) => b.group == gid && b.inst == n % 256 && b.step == (s.getPart p).run.step) ∧ (x.op = 0 ∨
      6 < x.op ∨ x.op = op ∧ s.fusedFaulty f p r (s.fsRead f record 64) a = true) ∧ (c = .mmSend f w record cycle a ∧ op = 1 ∧ unit = unitArray ∨ c =
      .recvMm f w record cycle a ∧ op = 2 ∧ unit = unitArray ∨ c = .mmRs f w record cycle a ∧ op = 3 ∧ unit = unitArray ∨ c = .agMm f w record cycle a
      ∧ op = 4 ∧ unit = unitArray ∨ c = .mmAr f w record cycle a ∧ op = 5 ∧ unit = unitArray ∨ c = .vecAr f w record ∧ op = 6 ∧ unit = unitVector ∧ a
      = default ∧ cycle = 0) ∧ s.driven f unit w = some (p, r, true) ∧ r.pageOk record 64 = true ∧ (s.getPart p).run.base + x.es ≤ s.sync.stitch) ∧
    (∃ (s : State) (c : Instr) (op : Nat) (unit : Nat) (f : Nat) (w : Nat) (record : Nat) (cycle : Nat) (p : Nat) (gid : Nat) (n : Nat) (l : Nat)
      (cyc : Nat) (r : FrondRec) (a : AstreamArgs) (x : Fused) (y : Coll) (e : Option Abort), gid = (if op ≤ 2 then 65536 + x.group else x.group) ∧ n
      = Tab.get 0 (s.getPart p).collNext gid ∧ x = fusedParse (s.fsRead f record 64) ∧ cyc = max cycle (s.getFrond f).arr.stallTo ∧ l = s.sync.stitch
      - ((s.getPart p).run.base + x.es) ∧ y =
      { group := gid, inst := n, frond := f, record := record, what := x, step := (s.getPart p).run.step, progress := s.sync.stitch, deadline := (s.getPart p).run.base + x.planDone + (s.getPart p).image.slipBudget + (s.getPart p).image.collTimeout }
      ∧ e = (s.getPart p).earlyAborts.find? (fun (b : Abort) => b.group == gid && b.inst == n % 256 && b.step == (s.getPart p).run.step) ∧ (c =
      .mmSend f w record cycle a ∧ op = 1 ∧ unit = unitArray ∨ c = .recvMm f w record cycle a ∧ op = 2 ∧ unit = unitArray ∨ c = .mmRs f w record cycle
      a ∧ op = 3 ∧ unit = unitArray ∨ c = .agMm f w record cycle a ∧ op = 4 ∧ unit = unitArray ∨ c = .mmAr f w record cycle a ∧ op = 5 ∧ unit =
      unitArray ∨ c = .vecAr f w record ∧ op = 6 ∧ unit = unitVector ∧ a = default ∧ cycle = 0) ∧ s.driven f unit w = some (p, r, true) ∧ r.pageOk
      record 64 = true ∧ (s.getPart p).run.base + x.es ≤ s.sync.stitch ∧ x.op = op ∧ s.fusedFaulty f p r (s.fsRead f record 64) a = false ∧ (∀ z ∈
      (s.getPart p).colls, z.key ≠ (gid, n))) ∧
    (∃ (s : State) (c : Instr) (op : Nat) (unit : Nat) (f : Nat) (w : Nat) (record : Nat) (cycle : Nat) (p : Nat) (gid : Nat) (n : Nat) (l : Nat)
      (cyc : Nat) (r : FrondRec) (a : AstreamArgs) (x : Fused) (y : Coll) (e : Option Abort), gid = (if op ≤ 2 then 65536 + x.group else x.group) ∧ n
      = Tab.get 0 (s.getPart p).collNext gid ∧ x = fusedParse (s.fsRead f record 64) ∧ cyc = max cycle (s.getFrond f).arr.stallTo ∧ l = s.sync.stitch
      - ((s.getPart p).run.base + x.es) ∧ y =
      { group := gid, inst := n, frond := f, record := record, what := x, step := (s.getPart p).run.step, progress := s.sync.stitch, deadline := (s.getPart p).run.base + x.planDone + (s.getPart p).image.slipBudget + (s.getPart p).image.collTimeout }
      ∧ e = (s.getPart p).earlyAborts.find? (fun (b : Abort) => b.group == gid && b.inst == n % 256 && b.step == (s.getPart p).run.step) ∧ (c =
      .mmSend f w record cycle a ∧ op = 1 ∧ unit = unitArray ∨ c = .recvMm f w record cycle a ∧ op = 2 ∧ unit = unitArray ∨ c = .mmRs f w record cycle
      a ∧ op = 3 ∧ unit = unitArray ∨ c = .agMm f w record cycle a ∧ op = 4 ∧ unit = unitArray ∨ c = .mmAr f w record cycle a ∧ op = 5 ∧ unit =
      unitArray ∨ c = .vecAr f w record ∧ op = 6 ∧ unit = unitVector ∧ a = default ∧ cycle = 0) ∧ s.driven f unit w = some (p, r, true) ∧ r.pageOk
      record 64 = true ∧ (s.getPart p).run.base + x.es ≤ s.sync.stitch ∧ x.op = op ∧ s.fusedFaulty f p r (s.fsRead f record 64) a = false ∧ (∀ z ∈
      (s.getPart p).colls, z.key ≠ (gid, n))) ∧
    (∃ (s : State) (c : Instr) (op : Nat) (unit : Nat) (f : Nat) (w : Nat) (record : Nat) (cycle : Nat) (p : Nat) (gid : Nat) (n : Nat) (l : Nat)
      (cyc : Nat) (r : FrondRec) (a : AstreamArgs) (x : Fused) (y : Coll) (e : Option Abort), gid = (if op ≤ 2 then 65536 + x.group else x.group) ∧ n
      = Tab.get 0 (s.getPart p).collNext gid ∧ x = fusedParse (s.fsRead f record 64) ∧ cyc = max cycle (s.getFrond f).arr.stallTo ∧ l = s.sync.stitch
      - ((s.getPart p).run.base + x.es) ∧ y =
      { group := gid, inst := n, frond := f, record := record, what := x, step := (s.getPart p).run.step, progress := s.sync.stitch, deadline := (s.getPart p).run.base + x.planDone + (s.getPart p).image.slipBudget + (s.getPart p).image.collTimeout }
      ∧ e = (s.getPart p).earlyAborts.find? (fun (b : Abort) => b.group == gid && b.inst == n % 256 && b.step == (s.getPart p).run.step) ∧ (c =
      .mmSend f w record cycle a ∧ op = 1 ∧ unit = unitArray ∨ c = .recvMm f w record cycle a ∧ op = 2 ∧ unit = unitArray ∨ c = .mmRs f w record cycle
      a ∧ op = 3 ∧ unit = unitArray ∨ c = .agMm f w record cycle a ∧ op = 4 ∧ unit = unitArray ∨ c = .mmAr f w record cycle a ∧ op = 5 ∧ unit =
      unitArray ∨ c = .vecAr f w record ∧ op = 6 ∧ unit = unitVector ∧ a = default ∧ cycle = 0) ∧ s.driven f unit w = some (p, r, true) ∧ r.pageOk
      record 64 = true ∧ (s.getPart p).run.base + x.es ≤ s.sync.stitch ∧ x.op = op ∧ s.fusedFaulty f p r (s.fsRead f record 64) a = false ∧ (∀ z ∈
      (s.getPart p).colls, z.key ≠ (gid, n))) ∧
    (∃ (s : State) (c : Instr) (op : Nat) (unit : Nat) (f : Nat) (w : Nat) (record : Nat) (cycle : Nat) (p : Nat) (gid : Nat) (n : Nat) (l : Nat)
      (cyc : Nat) (r : FrondRec) (a : AstreamArgs) (x : Fused) (y : Coll) (e : Option Abort), gid = (if op ≤ 2 then 65536 + x.group else x.group) ∧ n
      = Tab.get 0 (s.getPart p).collNext gid ∧ x = fusedParse (s.fsRead f record 64) ∧ cyc = max cycle (s.getFrond f).arr.stallTo ∧ l = s.sync.stitch
      - ((s.getPart p).run.base + x.es) ∧ y =
      { group := gid, inst := n, frond := f, record := record, what := x, step := (s.getPart p).run.step, progress := s.sync.stitch, deadline := (s.getPart p).run.base + x.planDone + (s.getPart p).image.slipBudget + (s.getPart p).image.collTimeout }
      ∧ e = (s.getPart p).earlyAborts.find? (fun (b : Abort) => b.group == gid && b.inst == n % 256 && b.step == (s.getPart p).run.step) ∧ (c =
      .mmSend f w record cycle a ∧ op = 1 ∧ unit = unitArray ∨ c = .recvMm f w record cycle a ∧ op = 2 ∧ unit = unitArray ∨ c = .mmRs f w record cycle
      a ∧ op = 3 ∧ unit = unitArray ∨ c = .agMm f w record cycle a ∧ op = 4 ∧ unit = unitArray ∨ c = .mmAr f w record cycle a ∧ op = 5 ∧ unit =
      unitArray ∨ c = .vecAr f w record ∧ op = 6 ∧ unit = unitVector ∧ a = default ∧ cycle = 0) ∧ s.driven f unit w = some (p, r, true) ∧ r.pageOk
      record 64 = true ∧ (s.getPart p).run.base + x.es ≤ s.sync.stitch ∧ x.op = op ∧ s.fusedFaulty f p r (s.fsRead f record 64) a = false ∧ (∀ z ∈
      (s.getPart p).colls, z.key ≠ (gid, n))) ∧
    (∃ (s : State) (c : Instr) (op : Nat) (unit : Nat) (f : Nat) (w : Nat) (record : Nat) (cycle : Nat) (p : Nat) (gid : Nat) (n : Nat) (l : Nat)
      (cyc : Nat) (r : FrondRec) (a : AstreamArgs) (x : Fused) (y : Coll) (e : Option Abort), gid = (if op ≤ 2 then 65536 + x.group else x.group) ∧ n
      = Tab.get 0 (s.getPart p).collNext gid ∧ x = fusedParse (s.fsRead f record 64) ∧ cyc = max cycle (s.getFrond f).arr.stallTo ∧ l = s.sync.stitch
      - ((s.getPart p).run.base + x.es) ∧ y =
      { group := gid, inst := n, frond := f, record := record, what := x, step := (s.getPart p).run.step, progress := s.sync.stitch, deadline := (s.getPart p).run.base + x.planDone + (s.getPart p).image.slipBudget + (s.getPart p).image.collTimeout }
      ∧ e = (s.getPart p).earlyAborts.find? (fun (b : Abort) => b.group == gid && b.inst == n % 256 && b.step == (s.getPart p).run.step) ∧ (c =
      .mmSend f w record cycle a ∧ op = 1 ∧ unit = unitArray ∨ c = .recvMm f w record cycle a ∧ op = 2 ∧ unit = unitArray ∨ c = .mmRs f w record cycle
      a ∧ op = 3 ∧ unit = unitArray ∨ c = .agMm f w record cycle a ∧ op = 4 ∧ unit = unitArray ∨ c = .mmAr f w record cycle a ∧ op = 5 ∧ unit =
      unitArray ∨ c = .vecAr f w record ∧ op = 6 ∧ unit = unitVector ∧ a = default ∧ cycle = 0) ∧ s.driven f unit w = some (p, r, true) ∧ r.pageOk
      record 64 = true ∧ (s.getPart p).run.base + x.es ≤ s.sync.stitch ∧ x.op = op ∧ s.fusedFaulty f p r (s.fsRead f record 64) a = false ∧ (∀ z ∈
      (s.getPart p).colls, z.key ≠ (gid, n))) ∧
    (∃ (s : State) (c : Instr) (op : Nat) (unit : Nat) (f : Nat) (w : Nat) (record : Nat) (cycle : Nat) (p : Nat) (gid : Nat) (n : Nat) (l : Nat)
      (cyc : Nat) (r : FrondRec) (a : AstreamArgs) (x : Fused) (y : Coll) (e : Option Abort), gid = (if op ≤ 2 then 65536 + x.group else x.group) ∧ n
      = Tab.get 0 (s.getPart p).collNext gid ∧ x = fusedParse (s.fsRead f record 64) ∧ cyc = max cycle (s.getFrond f).arr.stallTo ∧ l = s.sync.stitch
      - ((s.getPart p).run.base + x.es) ∧ y =
      { group := gid, inst := n, frond := f, record := record, what := x, step := (s.getPart p).run.step, progress := s.sync.stitch, deadline := (s.getPart p).run.base + x.planDone + (s.getPart p).image.slipBudget + (s.getPart p).image.collTimeout }
      ∧ e = (s.getPart p).earlyAborts.find? (fun (b : Abort) => b.group == gid && b.inst == n % 256 && b.step == (s.getPart p).run.step) ∧ (c =
      .mmSend f w record cycle a ∧ op = 1 ∧ unit = unitArray ∨ c = .recvMm f w record cycle a ∧ op = 2 ∧ unit = unitArray ∨ c = .mmRs f w record cycle
      a ∧ op = 3 ∧ unit = unitArray ∨ c = .agMm f w record cycle a ∧ op = 4 ∧ unit = unitArray ∨ c = .mmAr f w record cycle a ∧ op = 5 ∧ unit =
      unitArray ∨ c = .vecAr f w record ∧ op = 6 ∧ unit = unitVector ∧ a = default ∧ cycle = 0) ∧ s.driven f unit w = some (p, r, true) ∧ r.pageOk
      record 64 = true ∧ (s.getPart p).run.base + x.es ≤ s.sync.stitch ∧ x.op = op ∧ s.fusedFaulty f p r (s.fsRead f record 64) a = false ∧ (∀ z ∈
      (s.getPart p).colls, z.key ≠ (gid, n))) ∧
    (∃ (s : State) (c : Instr) (op : Nat) (unit : Nat) (f : Nat) (w : Nat) (record : Nat) (cycle : Nat) (p : Nat) (gid : Nat) (n : Nat) (l : Nat)
      (cyc : Nat) (r : FrondRec) (a : AstreamArgs) (x : Fused) (y : Coll) (e : Option Abort), gid = (if op ≤ 2 then 65536 + x.group else x.group) ∧ n
      = Tab.get 0 (s.getPart p).collNext gid ∧ x = fusedParse (s.fsRead f record 64) ∧ cyc = max cycle (s.getFrond f).arr.stallTo ∧ l = s.sync.stitch
      - ((s.getPart p).run.base + x.es) ∧ y =
      { group := gid, inst := n, frond := f, record := record, what := x, step := (s.getPart p).run.step, progress := s.sync.stitch, deadline := (s.getPart p).run.base + x.planDone + (s.getPart p).image.slipBudget + (s.getPart p).image.collTimeout }
      ∧ e = (s.getPart p).earlyAborts.find? (fun (b : Abort) => b.group == gid && b.inst == n % 256 && b.step == (s.getPart p).run.step) ∧ (c =
      .mmSend f w record cycle a ∧ op = 1 ∧ unit = unitArray ∨ c = .recvMm f w record cycle a ∧ op = 2 ∧ unit = unitArray ∨ c = .mmRs f w record cycle
      a ∧ op = 3 ∧ unit = unitArray ∨ c = .agMm f w record cycle a ∧ op = 4 ∧ unit = unitArray ∨ c = .mmAr f w record cycle a ∧ op = 5 ∧ unit =
      unitArray ∨ c = .vecAr f w record ∧ op = 6 ∧ unit = unitVector ∧ a = default ∧ cycle = 0) ∧ s.driven f unit w = some (p, r, true) ∧ r.pageOk
      record 64 = true ∧ (s.getPart p).run.base + x.es ≤ s.sync.stitch ∧ x.op = op ∧ s.fusedFaulty f p r (s.fsRead f record 64) a = false ∧ (∀ z ∈
      (s.getPart p).colls, z.key ≠ (gid, n))) :=
  ⟨⟨up, .agMm 0 0 24576 5 pass0, 4, unitArray, 0, 0, 24576, 5, 0, _, _, _, _, pass0, _, _, _, rfl, rfl, rfl, rfl, rfl, rfl, rfl, by decide +kernel⟩,
    ⟨gang1, .agMm 0 0 24576 5 pass0, 4, unitArray, 0, 0, 24576, 5, 0, _, _, _, _, rec1, pass0, _, _, _, rfl, rfl, rfl, rfl, rfl, rfl, rfl,
      by decide +kernel⟩,
    ⟨running, .agMm 0 0 3669953 5 pass0, 4, unitArray, 0, 0, 3669953, 5, 0, _, _, _, _, rec0, pass0, _, _, _, rfl, rfl, rfl, rfl, rfl, rfl, rfl,
      by decide +kernel⟩,
    ⟨{ running with store := running.store.writeN 24576 (leBytes 4 4 ++ leBytes 4 101) }, .agMm 0 0 24576 5 pass0, 4, unitArray, 0, 0, 24576, 5, 0,
      _, _, _, _, rec0, pass0, _, _, _, rfl, rfl, rfl, rfl, rfl, rfl, rfl, by decide +kernel⟩,
    ⟨fusing 5 5 768 0, .agMm 0 0 24576 5 pass0, 4, unitArray, 0, 0, 24576, 5, 0, _, _, _, _, rec0, pass0, _, _, _, rfl, rfl, rfl, rfl, rfl, rfl,
      rfl, by decide +kernel⟩,
    ⟨fusing 7 5 768 0, .agMm 0 0 24576 5 pass0, 4, unitArray, 0, 0, 24576, 5, 0, _, _, _, _, rec0, pass0, _, _, _, rfl, rfl, rfl, rfl, rfl, rfl,
      rfl, by decide +kernel⟩,
    ⟨fusing 4 5 256 0, .agMm 0 0 24576 5 pass0, 4, unitArray, 0, 0, 24576, 5, 0, _, _, _, _, rec0, pass0, _, _, _, rfl, rfl, rfl, rfl, rfl, rfl,
      rfl, by decide +kernel⟩,
    ⟨fusing 4 12 256 0, .agMm 0 0 24576 5 pass0, 4, unitArray, 0, 0, 24576, 5, 0, _, _, _, _, rec0, pass0, _, _, _, rfl, rfl, rfl, rfl, rfl, rfl,
      rfl, (by exact .inr (.inr ⟨by decide +kernel, by decide +kernel⟩)), by decide +kernel⟩,
    ⟨fusing 1 0 256 6, .mmSend 0 0 24576 5 pass0, 1, unitArray, 0, 0, 24576, 5, 0, _, _, _, _, rec0, pass0, _, _, _, rfl, rfl, rfl, rfl, rfl, rfl,
      rfl, by decide +kernel⟩,
    ⟨fusing 2 0 256 6, .recvMm 0 0 24576 5 pass0, 2, unitArray, 0, 0, 24576, 5, 0, _, _, _, _, rec0, pass0, _, _, _, rfl, rfl, rfl, rfl, rfl, rfl,
      rfl, by decide +kernel⟩,
    ⟨fusing 3 5 768 6, .mmRs 0 0 24576 5 pass0, 3, unitArray, 0, 0, 24576, 5, 0, _, _, _, _, rec0, pass0, _, _, _, rfl, rfl, rfl, rfl, rfl, rfl,
      rfl, by decide +kernel⟩,
    ⟨fusing 5 5 768 6, .mmAr 0 0 24576 5 pass0, 5, unitArray, 0, 0, 24576, 5, 0, _, _, _, _, rec0, pass0, _, _, _, rfl, rfl, rfl, rfl, rfl, rfl,
      rfl, by decide +kernel⟩,
    ⟨fusing 6 5 768 0, .vecAr 0 0 24576, 6, unitVector, 0, 0, 24576, 0, 0, _, _, _, _, rec0, default, _, _, _, rfl, rfl, rfl, rfl, rfl, rfl, rfl,
      by decide +kernel⟩,
    ⟨fusing 3 5 768 0, .mmRs 0 0 24576 5 pass0, 3, unitArray, 0, 0, 24576, 5, 0, _, _, _, _, rec0, pass0, _, _, _, rfl, rfl, rfl, rfl, rfl, rfl,
      rfl, by decide +kernel⟩,
    ⟨fusing 1 0 256 0, .mmSend 0 0 24576 5 pass0, 1, unitArray, 0, 0, 24576, 5, 0, _, _, _, _, rec0, pass0, _, _, _, rfl, rfl, rfl, rfl, rfl, rfl,
      rfl, by decide +kernel⟩⟩


/-- A running package whose partition 0 has one collective instruction, in a group of members 0 to hi along X. -/
def colled (c : Coll) (hi : Nat) : State :=
  part 0 { part0 with image := { img0 with groups := [{ id := 5, axes := 1, box := [0, hi, 0, 0, 0, 0], members := hi + 1 }] }, colls := [c], collNext := [(c.group, 1)] } running
/-- The group of it. -/
def group0 (hi : Nat) : Group := { id := 5, axes := 1, box := [0, hi, 0, 0, 0, 0], members := hi + 1 }
/-- A transfer of 300 bytes with i chunks sent. -/
def sending0 (i : Nat) : Coll := { coll0 1 0 300 65536 with ready := true, chunks := i, vals := List.range 300 }
/-- A pass fed by a transfer of one chunk. -/
def received0 : Coll := { coll0 2 0 256 65536 with ready := true }
/-- A package whose queued pass waits for it. -/
def receiving : State := (colled received0 2).updFrond 0 fun x => { x with arr := { x.arr with queue := [{ args := pass0, warden := 0, fused := some (65536, 0), cycle := 5 }] } }
/-- A PDATA frame to frond 0. -/
def pdata (off token : Nat) : Frame :=
  { dst := ⟨1, 1, 1⟩, src := ⟨0, 1, 1⟩, part := 0, kind := 1, raise := true, token := token, arg := 1024 * off, vl := 0, payload := [1, 2, 3] }
/-- A COLL frame from below. -/
def collData (arg : Nat) (b : List Byte) : Frame := { dst := ⟨1, 1, 1⟩, src := ⟨0, 1, 1⟩, part := 0, kind := 2, arg := arg, vl := 1, payload := b }
/-- A reduction whose contribution is there. -/
def reducing (op : Nat) : Coll := { coll0 op 5 768 5 with ready := true, vals := List.replicate 192 0x3F800000 }
/-- A gathering. -/
def gathering : Coll := { coll0 4 5 256 5 with ready := true, vals := List.replicate 768 3 }
/-- A reduction with finiteness. -/
def flagging : Coll := { reducing 3 with what := { fusedParse (fusedRec 3 5 768) with finite := true } }
/-- A place in the reduction of the X axis. -/
def place0 (piece : Nat) (gather fromBelow : Bool) : CollPlace := { axis := 0, piece := piece, off := 4, gather := gather, fromBelow := fromBelow }
/-- An abort record of the group's third member. -/
def abort0 (step : Nat) : Abort := { step := step, group := 5, inst := 0, progress := 77, rank := 2, member := ⟨2, 1, 1⟩ }
/-- Its frame. -/
def abortFrame (a : Abort) : Frame := { dst := ⟨1, 1, 1⟩, src := ⟨0, 1, 1⟩, part := 0, kind := 4, arg := 1, vl := 2, payload := a.bytes }
/-- A partition with twin regions, in a package whose twin port is up. -/
def twinned (pat : PatState) (w : Twin) : State :=
  part 0 { part0 with pat := pat, image := { img0 with regions := [{ space := 1, offset := 0, length := 64 }] }, twin := w, tcb := { slotBytes := 4096 } } running
/-- A command of a twin partition. -/
def twinCmd (op : Nat) (b : List Byte) (s : State) : State := held 1 (cmd op 0 b) s
/-- A signature record. -/
def sig0 : SigRec := { patternId := 9, step := 5, updates := 6, sig := 777 }
/-- A frame of the twin with a signature record. -/
def sigFrame (r : SigRec) : Frame := { dst := ⟨1, 1, 1⟩, src := ⟨1, 1, 1⟩, part := 0, kind := 0xA, vl := 2, payload := r.bytes 1 }
/-- A copy frame of the twin. -/
def copyFrame (space seq : Nat) (d : List Byte) : Frame :=
  { dst := ⟨1, 1, 1⟩, src := ⟨1, 1, 1⟩, part := 0, kind := 0xB, vl := 3, payload := record 16 [⟨0, 8, 640⟩, ⟨8, 1, space⟩, ⟨12, 4, seq⟩] ++ d }
/-- States and operands that meet the hypotheses of PatternDataMoves, clause by clause. -/
theorem witness_PatternDataMoves :
    (∃ (s : State) (f : Nat), s.unitRuns f unitArray = none) ∧
    (∃ (s : State) (f : Nat) (record : Nat) (p : Nat) (r : FrondRec), s.unitRuns f unitArray = some (p, r) ∧ (s.getPart p).colls.find? (fun (y :
      Coll) => y.frond == f && y.record == record && y.what.op == 1 && !y.done) = none) ∧
    (∃ (s : State) (f : Nat) (record : Nat) (i : Nat) (p : Nat) (r : FrondRec) (c : Coll), s.unitRuns f unitArray = some (p, r) ∧ (s.getPart
      p).colls.find? (fun (y : Coll) => y.frond == f && y.record == record && y.what.op == 1 && !y.done) = some c ∧ ((s.getPart p).run.discard = true
      ∨ c.ready = false ∨ i ≠ c.chunks ∨ s.dieOpen f = false)) ∧
    (∃ (s : State) (f : Nat) (record : Nat) (i : Nat) (p : Nat) (r : FrondRec) (c : Coll) (bs : _), i = c.chunks ∧ bs = ((c.vals.drop (i *
      c.what.chunk)).take (c.chunkLen i)).map (BitVec.ofNat 8) ∧ s.unitRuns f unitArray = some (p, r) ∧ (s.getPart p).colls.find? (fun (y : Coll) =>
      y.frond == f && y.record == record && y.what.op == 1 && !y.done) = some c ∧ (s.getPart p).run.discard = false ∧ s.coll p c.key = some c ∧
      c.ready = true ∧ s.dieOpen f = true ∧ i < c.chunkCount ∧ s.isSelvage c.what.group = false ∧ (s.getPort c.what.group).state = .up) ∧
    (∃ (s : State) (f : Nat) (record : Nat) (i : Nat) (p : Nat) (r : FrondRec) (c : Coll), i = c.chunks ∧ s.unitRuns f unitArray = some (p, r) ∧
      (s.getPart p).colls.find? (fun (y : Coll) => y.frond == f && y.record == record && y.what.op == 1 && !y.done) = some c ∧ (s.getPart
      p).run.discard = false ∧ s.coll p c.key = some c ∧ c.ready = true ∧ s.dieOpen f = true ∧ c.chunkCount ≤ i) ∧
    (∃ (f : Frame), f.kind ≠ 1) ∧
    (∃ (s : State) (f : Frame), f.kind = 1 ∧ f.dst = s.here ∧ (s.getPart f.part).live = true ∧ s.pdataWaits f = true) ∧
    (∃ (s : State) (port : Nat) (f : Frame), Deliverable s port f ∧ f.kind = 1 ∧ f.dst ≠ s.here) ∧
    (∃ (s : State) (port : Nat) (f : Frame), Deliverable s port f ∧ f.kind = 1 ∧ f.dst = s.here ∧ (s.getPart f.part).live = false) ∧
    (∃ (s : State) (port : Nat) (f : Frame), Deliverable s port f ∧ f.kind = 1 ∧ f.dst = s.here ∧ (s.getPart f.part).live = true ∧ s.pdataWaits f =
      false ∧ s.physical f.part (bits f.arg 9 0) = none) ∧
    (∃ (s : State) (port : Nat) (f : Frame) (fr : Nat), Deliverable s port f ∧ f.kind = 1 ∧ f.dst = s.here ∧ (s.getPart f.part).live = true ∧
      s.pdataWaits f = false ∧ s.physical f.part (bits f.arg 9 0) = some fr ∧ 3670016 < 64 * bits f.arg 25 10 + f.payload.length) ∧
    (∃ (s : State) (port : Nat) (f : Frame) (fr : Nat), Deliverable s port f ∧ f.kind = 1 ∧ f.dst = s.here ∧ (s.getPart f.part).live = true ∧
      s.pdataWaits f = false ∧ s.physical f.part (bits f.arg 9 0) = some fr ∧ 64 * bits f.arg 25 10 + f.payload.length ≤ 3670016 ∧ (s.getFrond
      fr).arr.queue = []) ∧
    (∃ (s : State) (port : Nat) (f : Frame) (fr : Nat) (x : Pass) (rest : List Pass) (k : Nat × Nat) (c : Coll) (i : Nat), Deliverable s port f ∧ i
      = c.chunks ∧ f.kind = 1 ∧ f.dst = s.here ∧ (s.getPart f.part).live = true ∧ s.pdataWaits f = false ∧ s.physical f.part (bits f.arg 9 0) = some
      fr ∧ 64 * bits f.arg 25 10 + f.payload.length ≤ 3670016 ∧ f.raise = true ∧ (s.getFrond fr).arr.queue = x :: rest ∧ x.fused = some k ∧ s.coll
      f.part k = some c ∧ c.what.op = 2 ∧ i + 1 = c.chunkCount ∧ f.token = c.what.tokenIn + i % max c.what.slots 1 ∧ f.token < 4096 ∧ (s.getFrond
      fr).wait = []) :=
  ⟨⟨up, 0, by decide +kernel⟩,
    ⟨running, 0, 24576, 0, rec0, by decide +kernel⟩,
    ⟨colled (sending0 0) 2, 0, 24576, 1, 0, rec0, sending0 0, by decide +kernel⟩,
    ⟨colled (sending0 1) 2, 0, 24576, _, 0, rec0, sending0 1, _, rfl, rfl, by decide +kernel⟩,
    ⟨colled (sending0 2) 2, 0, 24576, _, 0, rec0, sending0 2, rfl, by decide +kernel⟩,
    ⟨collData 5 [1], by decide +kernel⟩,
    ⟨{ running with links := { running.links with port := [(0, { state := .up })] }, dies := { running.dies with link := [(ringOf (frondDie 0), .retraining 5)] } },
      pdata 3 4095, by decide +kernel⟩,
    ⟨running, 0, { pdata 3 4095 with dst := ⟨2, 1, 1⟩ }, deliverable_of (by decide +kernel), by decide +kernel⟩,
    ⟨up, 0, { pdata 3 4095 with dst := up.here }, deliverable_of (by decide +kernel), by decide +kernel⟩,
    ⟨running, 0, { pdata 3 4095 with arg := 1023 }, deliverable_of (by decide +kernel), by decide +kernel⟩,
    ⟨running, 0, { pdata 3 4095 with arg := 1024 * 57344 }, 0, deliverable_of (by decide +kernel), by decide +kernel⟩,
    ⟨running, 0, pdata 3 4095, 0, deliverable_of (by decide +kernel), by decide +kernel⟩,
    ⟨receiving, 0, pdata 256 20, 0, { args := pass0, warden := 0, fused := some (65536, 0), cycle := 5 }, [], (65536, 0), received0, _,
      deliverable_of (by decide +kernel), rfl, by decide +kernel⟩⟩

/-- States and operands that meet the hypotheses of CollectiveFramesAdvance, clause by clause. -/
theorem witness_CollectiveFramesAdvance :
    (∃ (f : Frame), f.kind ≠ 2) ∧
    (∃ (s : State) (f : Frame) (pl : CollPlace), f.kind = 2 ∧ f.dst = s.here ∧ (s.getPart f.part).live = true ∧ s.collWaits f pl = true) ∧
    (∃ (s : State) (port : Nat) (f : Frame), Deliverable s port f ∧ f.kind = 2 ∧ f.dst ≠ s.here) ∧
    (∃ (s : State) (port : Nat) (f : Frame), Deliverable s port f ∧ f.kind = 2 ∧ f.dst = s.here ∧ (s.getPart f.part).live = false) ∧
    (∃ (s : State) (port : Nat) (f : Frame) (pl : CollPlace), Deliverable s port f ∧ f.kind = 2 ∧ f.dst = s.here ∧ (s.getPart f.part).live = true ∧
      s.collWaits f pl = false ∧ s.collNamed f = none) ∧
    (∃ (s : State) (port : Nat) (f : Frame) (pl : CollPlace) (c0 : Coll), Deliverable s port f ∧ f.kind = 2 ∧ f.dst = s.here ∧ (s.getPart
      f.part).live = true ∧ s.collWaits f pl = false ∧ s.collNamed f = some c0 ∧ s.coll f.part c0.key = some c0) ∧
    (∃ (s : State) (c : Coll) (g : Group) (p : Nat) (need : Nat) (k : Nat × Nat), s.coll p k = some c ∧ c.key = k ∧ s.collGroup p c = some g ∧ c.got
      < need) ∧
    (∃ (s : State) (c : Coll) (g : Group) (p : Nat) (need : Nat) (k : Nat × Nat), s.coll p k = some c ∧ c.key = k ∧ s.collGroup p c = some g ∧ need
      ≤ c.got ∧ (stagesOf c.what.op g).length ≤ c.stage + 1) ∧
    (∃ (s : State) (c : Coll) (g : Group) (p : Nat) (need : Nat) (k : Nat × Nat) (ax : _) (gt : _), s.coll p k = some c ∧ c.key = k ∧ s.collGroup p
      c = some g ∧ need ≤ c.got ∧ (stagesOf c.what.op g)[c.stage + 1]? = some (ax, gt) ∧ stageNeed g s.size s.here (c.total g) ax gt ≠ 0) ∧
    (∃ (s : State) (c : Coll) (g : Group) (p : Nat) (k : Nat × Nat), s.coll p k = some c ∧ c.key = k ∧ s.collGroup p c = some g ∧ c.what.op ≠ 4 ∧
      c.what.reduces = false ∧ (s.getFrond c.frond).wait = []) ∧
    (∃ (s : State) (c : Coll) (g : Group) (p : Nat) (k : Nat × Nat) (t : State) (q : _), t = s.collDone p k ∧ s.coll p k = some c ∧ c.key = k ∧
      s.collGroup p c = some g ∧ c.what.reduces = true ∧ (s.getFrond c.frond).wait = [] ∧ q ≠ p) ∧
    (∃ (s : State) (port : Nat) (p : Nat) (dir : Nat) (port : Nat) (c : Coll) (vs : List Nat) (b : List Byte), b = valBytes c.valSize vs ∧
      s.slotPort p dir = some port ∧ s.isSelvage port = false ∧ (s.getPort port).state = .up) ∧
    (∃ (s : State) (port : Nat) (f : Frame) (pl : CollPlace) (c0 : Coll), Deliverable s port f ∧ f.kind = 2 ∧ f.dst = s.here ∧ (s.getPart
      f.part).live = true ∧ s.collWaits f pl = false ∧ s.collNamed f = some c0 ∧ s.coll f.part c0.key = some c0) ∧
    (∃ (s : State) (port : Nat) (f : Frame) (pl : CollPlace) (c0 : Coll), Deliverable s port f ∧ f.kind = 2 ∧ f.dst = s.here ∧ (s.getPart
      f.part).live = true ∧ s.collWaits f pl = false ∧ s.collNamed f = some c0 ∧ s.coll f.part c0.key = some c0) ∧
    (∃ (s : State) (port : Nat) (f : Frame) (pl : CollPlace) (c0 : Coll), Deliverable s port f ∧ f.kind = 2 ∧ f.dst = s.here ∧ (s.getPart
      f.part).live = true ∧ s.collWaits f pl = false ∧ s.collNamed f = some c0 ∧ s.coll f.part c0.key = some c0) ∧
    (∃ (s : State) (port : Nat) (f : Frame) (pl : CollPlace) (c0 : Coll), Deliverable s port f ∧ f.kind = 2 ∧ f.dst = s.here ∧ (s.getPart
      f.part).live = true ∧ s.collWaits f pl = false ∧ s.collNamed f = some c0 ∧ s.coll f.part c0.key = some c0) ∧
    (∃ (s : State) (port : Nat) (f : Frame) (pl : CollPlace) (c0 : Coll), Deliverable s port f ∧ f.kind = 2 ∧ f.dst = s.here ∧ (s.getPart
      f.part).live = true ∧ s.collWaits f pl = false ∧ s.collNamed f = some c0 ∧ s.coll f.part c0.key = some c0) ∧
    (∃ (s : State) (port : Nat) (f : Frame) (pl : CollPlace) (c0 : Coll), Deliverable s port f ∧ f.kind = 2 ∧ f.dst = s.here ∧ (s.getPart
      f.part).live = true ∧ s.collWaits f pl = false ∧ s.collNamed f = some c0 ∧ s.coll f.part c0.key = some c0) :=
  ⟨⟨pdata 3 1, by decide +kernel⟩,
    ⟨running, { collData 5 [1] with arg := 5 }, place0 1 false true, by decide +kernel⟩,
    ⟨running, 0, { collData 5 [1] with dst := ⟨2, 1, 1⟩ }, deliverable_of (by decide +kernel), by decide +kernel⟩,
    ⟨up, 0, { collData 5 [1] with dst := up.here }, deliverable_of (by decide +kernel), by decide +kernel⟩,
    ⟨running, 0, collData (5 + 2 ^ 16 * 255) [1], place0 1 false true, deliverable_of (by decide +kernel), by decide +kernel⟩,
    ⟨colled (reducing 3) 2, 0, collData 5 (leBytes 4 0x40000000), place0 1 false true, reducing 3, deliverable_of (by decide +kernel),
      by decide +kernel⟩,
    ⟨colled (reducing 3) 2, reducing 3, group0 2, 0, 1, (5, 0), by decide +kernel⟩,
    ⟨colled (reducing 3) 2, reducing 3, group0 2, 0, 0, (5, 0), by decide +kernel⟩,
    ⟨colled (reducing 5) 2, reducing 5, group0 2, 0, 0, (5, 0), 0, true, by decide +kernel⟩,
    ⟨colled (reducing 3) 2, reducing 3, group0 2, 0, (5, 0), by decide +kernel⟩,
    ⟨colled flagging 2, flagging, group0 2, 0, (5, 0), _, 1, rfl, by decide +kernel⟩,
    ⟨running, 0, 0, 0, 0, reducing 3, [1, 2], _, rfl, by decide +kernel⟩,
    ⟨colled (reducing 3) 2, 0, collData 5 (leBytes 4 0x40000000), place0 2 false true, reducing 3, deliverable_of (by decide +kernel),
      by decide +kernel⟩,
    ⟨colled (reducing 3) 1, 0, collData 5 (leBytes 4 0x40000000), place0 1 false true, reducing 3, deliverable_of (by decide +kernel),
      by decide +kernel⟩,
    ⟨colled gathering 2, 0, collData 5 [9, 8], place0 0 true true, gathering, deliverable_of (by decide +kernel), by decide +kernel⟩,
    ⟨colled gathering 1, 0, collData 5 [9, 8], place0 0 true true, gathering, deliverable_of (by decide +kernel), by decide +kernel⟩,
    ⟨colled { flagging with dataDone := true, upSent := true } 1, 0, collData 33554437 [0], place0 0 true true,
      { flagging with dataDone := true, upSent := true }, deliverable_of (by decide +kernel), by decide +kernel⟩,
    ⟨colled { flagging with dataDone := true } 2, 0, { collData 50331653 [0] with src := ⟨2, 1, 1⟩ }, place0 0 true true,
      { flagging with dataDone := true }, deliverable_of (by decide +kernel), by decide +kernel⟩⟩

/-- States and operands that meet the hypotheses of CollectivesAbort, clause by clause. -/
theorem witness_CollectivesAbort :
    (∃ (s : State) (p : Nat) (group : Nat) (inst : Nat), s.coll p (group, inst) = none) ∧
    (∃ (s : State) (p : Nat) (group : Nat) (inst : Nat) (c : Coll), ((s.getPart p).pat ≠ .running ∨ c.what.op < 3 ∨ s.sync.stitch < c.deadline ∨
      c.done = true ∨ c.timedOut = true) ∧ s.coll p (group, inst) = some c) ∧
    (∃ (s : State) (p : Nat) (group : Nat) (inst : Nat) (c : Coll), s.coll p (group, inst) = some c ∧ (s.getPart p).pat = .running ∧ 3 ≤ c.what.op ∧
      c.deadline ≤ s.sync.stitch ∧ c.done = false ∧ c.timedOut = false) ∧
    (∃ (s : State) (p : Nat) (group : Nat) (inst : Nat) (c : Coll), ((s.getPart p).pat ≠ .running ∨ c.aborted = false ∨ c.settled = true ∨
      s.sync.stitch < c.deadline + 1024) ∧ s.coll p (group, inst) = some c) ∧
    (∃ (s : State) (p : Nat) (group : Nat) (inst : Nat) (c : Coll), s.coll p (group, inst) = some c ∧ (s.getPart p).pat = .running ∧ c.aborted =
      true ∧ c.settled = false ∧ c.deadline + 1024 ≤ s.sync.stitch) ∧
    (∃ (s : State) (port : Nat) (f : Frame) (a : Abort) (u : State) (q : Partition), a = abortParse f.payload ∧ u = s.takeRx port f ∧ q = s.getPart
      f.part ∧ (f.kind ≠ 4 ∨ f.arg ≠ 1 ∨ f.dst ≠ s.here)) ∧
    (∃ (s : State) (port : Nat) (f : Frame) (a : Abort) (u : State) (q : Partition), Deliverable s port f ∧ a = abortParse f.payload ∧ u = s.takeRx
      port f ∧ q = s.getPart f.part ∧ f.kind = 4 ∧ f.arg = 1 ∧ f.dst = s.here ∧ q.live = false) ∧
    (∃ (s : State) (port : Nat) (f : Frame) (a : Abort) (u : State) (q : Partition) (c : Coll), Deliverable s port f ∧ a = abortParse f.payload ∧ u
      = s.takeRx port f ∧ q = s.getPart f.part ∧ f.kind = 4 ∧ f.arg = 1 ∧ f.dst = s.here ∧ q.live = true ∧ q.collOf a.group a.inst = some c ∧ c.step =
      a.step ∧ s.coll f.part c.key = some c) ∧
    (∃ (s : State) (port : Nat) (f : Frame) (a : Abort) (u : State) (q : Partition), Deliverable s port f ∧ a = abortParse f.payload ∧ u = s.takeRx
      port f ∧ q = s.getPart f.part ∧ f.kind = 4 ∧ f.arg = 1 ∧ f.dst = s.here ∧ q.live = true ∧ (∀ c, q.collOf a.group a.inst = some c → c.step ≠
      a.step) ∧ a.step < q.run.step) ∧
    (∃ (s : State) (port : Nat) (f : Frame) (a : Abort) (u : State) (q : Partition) (b : _), Deliverable s port f ∧ a = abortParse f.payload ∧ u =
      s.takeRx port f ∧ q = s.getPart f.part ∧ f.kind = 4 ∧ f.arg = 1 ∧ f.dst = s.here ∧ q.live = true ∧ (∀ c, q.collOf a.group a.inst = some c →
      c.step ≠ a.step) ∧ q.run.step ≤ a.step ∧ q.earlyAborts.find? a.sameInstance = some b ∧ (b.progress < a.progress ∨ b.progress = a.progress ∧
      b.rank ≤ a.rank)) ∧
    (∃ (s : State) (port : Nat) (f : Frame) (a : Abort) (u : State) (q : Partition), Deliverable s port f ∧ a = abortParse f.payload ∧ u = s.takeRx
      port f ∧ q = s.getPart f.part ∧ f.kind = 4 ∧ f.arg = 1 ∧ f.dst = s.here ∧ q.live = true ∧ (∀ c, q.collOf a.group a.inst = some c → c.step ≠
      a.step) ∧ q.run.step ≤ a.step ∧ (∀ b, q.earlyAborts.find? a.sameInstance = some b → a.progress < b.progress ∨ a.progress = b.progress ∧ a.rank <
      b.rank)) ∧
    (∃ (s : State) (port : Nat) (f : Frame) (a : Abort) (u : State) (q : Partition), Deliverable s port f ∧ a = abortParse f.payload ∧ u = s.takeRx
      port f ∧ q = s.getPart f.part ∧ f.kind = 4 ∧ f.arg = 1 ∧ f.dst = s.here ∧ q.live = true ∧ (∀ c, q.collOf a.group a.inst = some c → c.step ≠
      a.step) ∧ q.run.step ≤ a.step ∧ (∀ b, q.earlyAborts.find? a.sameInstance = some b → a.progress < b.progress ∨ a.progress = b.progress ∧ a.rank <
      b.rank)) :=
  ⟨⟨running, 0, 5, 0, by decide +kernel⟩,
    ⟨colled (reducing 3) 2, 0, 5, 0, reducing 3, (by exact .inr (.inr (.inl (by decide +kernel)))), by decide +kernel⟩,
    ⟨colled { reducing 3 with deadline := 1000 } 2, 0, 5, 0, { reducing 3 with deadline := 1000 }, by decide +kernel⟩,
    ⟨colled (reducing 3) 2, 0, 5, 0, reducing 3, (by exact .inr (.inl rfl)), by decide +kernel⟩,
    ⟨{ colled { reducing 3 with deadline := 976, aborted := true, best := some (abort0 0) } 2 with sync := { running.sync with stitch := 2000 } },
      0, 5, 0, { reducing 3 with deadline := 976, aborted := true, best := some (abort0 0) }, by decide +kernel⟩,
    ⟨running, 0, { abortFrame (abort0 0) with arg := 0 }, _, _, _, rfl, rfl, rfl, (by exact .inr (.inl (by decide)))⟩,
    ⟨up, 0, { abortFrame (abort0 0) with dst := up.here }, _, _, _, deliverable_of (by decide +kernel), rfl, rfl, rfl, by decide +kernel⟩,
    ⟨colled { reducing 3 with done := true } 2, 0, abortFrame (abort0 0), _, _, _, { reducing 3 with done := true }, deliverable_of
      (by decide +kernel), rfl, rfl, rfl, by decide +kernel⟩,
    ⟨part 0 { part0 with run := { base := 900, step := 3 } } running, 0, abortFrame (abort0 2), _, _, _, deliverable_of (by decide +kernel), rfl,
      rfl, rfl, by decide +kernel⟩,
    ⟨part 0 { part0 with earlyAborts := [abort0 4] } running, 0, abortFrame (abort0 4), _, _, _, abort0 4, deliverable_of (by decide +kernel), rfl,
      rfl, rfl, by decide +kernel⟩,
    ⟨part 0 { part0 with earlyAborts := [{ abort0 4 with progress := 78 }] } running, 0, abortFrame (abort0 4), _, _, _, deliverable_of
      (by decide +kernel), rfl, rfl, rfl, by decide +kernel⟩,
    ⟨running, 0, abortFrame (abort0 4), _, _, _, deliverable_of (by decide +kernel), rfl, rfl, rfl, by decide +kernel⟩⟩

/-- States and operands that meet the hypotheses of TwinCommandsAct, clause by clause. -/
theorem witness_TwinCommandsAct :
    (∃ (s : State) (ch : Nat) (h : Held) (b : List Byte) (q : Partition), Commanded s 0x0801 ch h b ∧ q = s.getPart h.part ∧ 1 < fld b 0 4) ∧
    (∃ (s : State) (ch : Nat) (h : Held) (b : List Byte) (q : Partition), Commanded s 0x0801 ch h b ∧ q = s.getPart h.part ∧ fld b 0 4 = 1 ∧ q.pat ≠
      .loaded ∧ q.pat ≠ .halted) ∧
    (∃ (s : State) (ch : Nat) (h : Held) (b : List Byte) (q : Partition), Commanded s 0x0801 ch h b ∧ q = s.getPart h.part ∧ fld b 0 4 = 0 ∧ q.pat ≠
      .loaded) ∧
    (∃ (s : State) (ch : Nat) (h : Held) (b : List Byte) (q : Partition), Commanded s 0x0801 ch h b ∧ q = s.getPart h.part ∧ fld b 0 4 = 0 ∧ q.pat =
      .loaded ∧ ((s.getPort 12).state ≠ .up ∨ (s.getPort 12).marked = true)) ∧
    (∃ (s : State) (ch : Nat) (h : Held) (b : List Byte) (q : Partition), Commanded s 0x0801 ch h b ∧ q = s.getPart h.part ∧ fld b 0 4 = 0 ∧ q.pat =
      .loaded ∧ (s.getPort 12).state = .up ∧ (s.getPort 12).marked = false ∧ (q.image.regions = [] ∨ gib < (q.image.regions.map (·.length)).sum)) ∧
    (∃ (s : State) (ch : Nat) (h : Held) (b : List Byte) (q : Partition) (st : TwinState), Commanded s 0x0801 ch h b ∧ q = s.getPart h.part ∧ (fld b
      0 4 = 1 ∧ (q.pat = .loaded ∨ q.pat = .halted) ∧ st = .unbound ∨ fld b 0 4 = 0 ∧ q.pat = .loaded ∧ (s.getPort 12).state = .up ∧ (s.getPort
      12).marked = false ∧ q.image.regions ≠ [] ∧ (q.image.regions.map (·.length)).sum ≤ gib ∧ st = .bound)) ∧
    (∃ (s : State) (ch : Nat) (h : Held) (b : List Byte) (q : Partition) (c : Instr) (op : Nat) (hold : Nat) (index : Nat), q = s.getPart h.part ∧
      ((Commanded s 0x0802 ch h b ∧ c = .twinShed ch ∧ op = fld b 8 1 ∧ hold = 0 ∧ index = fld b 9 1 ∧ q.holds = true ∧ q.twin.state ≠ .unbound ∧ 1 ≤
      op ∧ op ≤ 2 ∧ index = s.twinIndex ∧ zeros b 0xA 0x10 = true) ∨ (Commanded s 0x0803 ch h b ∧ c = .twinRejoin ch ∧ op = 3 ∧ hold = fld b 8 4 ∧
      index = s.twinIndex ∧ q.twin.state = .solo ∧ q.tcb.slotBytes ≠ 0 ∧ 1024 ≤ hold ∧ hold ≤ 2 ^ 31 ∧ zeros b 0xC 0x10 = true)) ∧ s.sync.stitch +
      50000 ≤ fld b 0 8 ∧ s.anns.held.length < 64) ∧
    (∃ (s : State) (ch : Nat) (h : Held) (b : List Byte) (q : Partition) (c : Instr) (op : Nat) (hold : Nat) (index : Nat), q = s.getPart h.part ∧
      ((Commanded s 0x0802 ch h b ∧ c = .twinShed ch ∧ op = fld b 8 1 ∧ hold = 0 ∧ index = fld b 9 1 ∧ q.holds = true ∧ q.twin.state ≠ .unbound ∧ 1 ≤
      op ∧ op ≤ 2 ∧ index = s.twinIndex ∧ zeros b 0xA 0x10 = true) ∨ (Commanded s 0x0803 ch h b ∧ c = .twinRejoin ch ∧ op = 3 ∧ hold = fld b 8 4 ∧
      index = s.twinIndex ∧ q.twin.state = .solo ∧ q.tcb.slotBytes ≠ 0 ∧ 1024 ≤ hold ∧ hold ≤ 2 ^ 31 ∧ zeros b 0xC 0x10 = true)) ∧ fld b 0 8 <
      s.sync.stitch + 50000) ∧
    (∃ (s : State) (ch : Nat) (h : Held) (b : List Byte) (q : Partition) (c : Instr) (op : Nat) (hold : Nat) (index : Nat), q = s.getPart h.part ∧
      ((Commanded s 0x0802 ch h b ∧ c = .twinShed ch ∧ op = fld b 8 1 ∧ hold = 0 ∧ index = fld b 9 1 ∧ q.holds = true ∧ q.twin.state ≠ .unbound ∧ 1 ≤
      op ∧ op ≤ 2 ∧ index = s.twinIndex ∧ zeros b 0xA 0x10 = true) ∨ (Commanded s 0x0803 ch h b ∧ c = .twinRejoin ch ∧ op = 3 ∧ hold = fld b 8 4 ∧
      index = s.twinIndex ∧ q.twin.state = .solo ∧ q.tcb.slotBytes ≠ 0 ∧ 1024 ≤ hold ∧ hold ≤ 2 ^ 31 ∧ zeros b 0xC 0x10 = true)) ∧ s.sync.stitch +
      50000 ≤ fld b 0 8 ∧ 64 ≤ s.anns.held.length) ∧
    (∃ (s : State) (ch : Nat) (h : Held) (b : List Byte) (q : Partition), Commanded s 0x0802 ch h b ∧ q = s.getPart h.part ∧ (q.holds = false ∨
      q.twin.state = .unbound)) ∧
    (∃ (s : State) (ch : Nat) (h : Held) (b : List Byte) (q : Partition), Commanded s 0x0802 ch h b ∧ q = s.getPart h.part ∧ q.holds = true ∧
      q.twin.state ≠ .unbound ∧ (fld b 8 1 < 1 ∨ 2 < fld b 8 1 ∨ fld b 9 1 ≠ s.twinIndex ∨ zeros b 0xA 0x10 = false)) ∧
    (∃ (s : State) (ch : Nat) (h : Held) (b : List Byte) (q : Partition), Commanded s 0x0803 ch h b ∧ q = s.getPart h.part ∧ q.twin.state ≠ .solo) ∧
    (∃ (s : State) (ch : Nat) (h : Held) (b : List Byte) (q : Partition), Commanded s 0x0803 ch h b ∧ q = s.getPart h.part ∧ q.twin.state = .solo ∧
      (q.tcb.slotBytes = 0 ∨ fld b 8 4 < 1024 ∨ 2 ^ 31 < fld b 8 4 ∨ zeros b 0xC 0x10 = false)) :=
  ⟨⟨held 1 (cmd 0x0801 0 (record 4 [⟨0, 4, 2⟩])) (twinned .loaded {}), 1, cmd 0x0801 0 (record 4 [⟨0, 4, 2⟩]), record 4 [⟨0, 4, 2⟩], _,
      commanded_of (by decide +kernel), rfl, by decide +kernel⟩,
    ⟨held 1 (cmd 0x0801 0 (record 4 [⟨0, 4, 1⟩])) (twinned .running {}), 1, cmd 0x0801 0 (record 4 [⟨0, 4, 1⟩]), record 4 [⟨0, 4, 1⟩], _,
      commanded_of (by decide +kernel), rfl, by decide +kernel⟩,
    ⟨held 1 (cmd 0x0801 0 (record 4 [])) (twinned .running {}), 1, cmd 0x0801 0 (record 4 []), record 4 [], _, commanded_of (by decide +kernel),
      rfl, by decide +kernel⟩,
    ⟨held 1 (cmd 0x0801 0 (record 4 [])) ((twinned .loaded {}).updPort 12 fun _ => { state := .lost }), 1, cmd 0x0801 0 (record 4 []), record 4 [],
      _, commanded_of (by decide +kernel), rfl, by decide +kernel⟩,
    ⟨held 1 (cmd 0x0801 0 (record 4 [])) (part 0 { part0 with pat := .loaded } running), 1, cmd 0x0801 0 (record 4 []), record 4 [], _, commanded_of
      (by decide +kernel), rfl, by decide +kernel⟩,
    ⟨held 1 (cmd 0x0801 0 (record 4 [])) (twinned .loaded {}), 1, cmd 0x0801 0 (record 4 []), record 4 [], _, .bound, commanded_of
      (by decide +kernel), rfl,
      (by exact .inr ⟨by decide +kernel, by decide +kernel, by decide +kernel, by decide +kernel, by decide +kernel, by decide +kernel, rfl⟩)⟩,
    ⟨held 1 (cmd 0x0802 0 (record 16 [⟨0, 8, 51000⟩, ⟨8, 1, 2⟩])) (twinned .running { state := .bound }), 1, cmd 0x0802 0 (record 16 [⟨0, 8, 51000⟩,
      ⟨8, 1, 2⟩]), record 16 [⟨0, 8, 51000⟩, ⟨8, 1, 2⟩], _, .twinShed 1, 2, 0, 0, rfl,
      (by exact .inl ⟨commanded_of (by decide +kernel), rfl, by decide +kernel, rfl, by decide +kernel, by decide +kernel, by decide +kernel, by decide, by decide, by decide +kernel, by decide +kernel⟩),
      by decide +kernel⟩,
    ⟨held 1 (cmd 0x0802 0 (record 16 [⟨0, 8, 50999⟩, ⟨8, 1, 1⟩])) (twinned .running { state := .bound }), 1, cmd 0x0802 0 (record 16 [⟨0, 8, 50999⟩,
      ⟨8, 1, 1⟩]), record 16 [⟨0, 8, 50999⟩, ⟨8, 1, 1⟩], _, .twinShed 1, 1, 0, 0, rfl,
      (by exact .inl ⟨commanded_of (by decide +kernel), rfl, by decide +kernel, rfl, by decide +kernel, by decide +kernel, by decide +kernel, by decide, by decide, by decide +kernel, by decide +kernel⟩),
      by decide +kernel⟩,
    ⟨held 1 (cmd 0x0803 0 (record 16 [⟨0, 8, 51000⟩, ⟨8, 4, 1024⟩]))
      ({ twinned .running { state := .solo } with anns := (announced (List.replicate 64 (annLevel 5000 3 3 ⟨1, 0, 0⟩))).anns }), 1, cmd 0x0803 0
      (record 16 [⟨0, 8, 51000⟩, ⟨8, 4, 1024⟩]), record 16 [⟨0, 8, 51000⟩, ⟨8, 4, 1024⟩], _, .twinRejoin 1, 3, 1024, 0, rfl,
      (by exact .inr ⟨commanded_of (by decide +kernel), rfl, rfl, by decide +kernel, by decide +kernel, by decide +kernel, by decide +kernel, by decide, by decide, by decide +kernel⟩),
      by decide +kernel⟩,
    ⟨held 1 (cmd 0x0802 0 (record 16 [⟨0, 8, 51000⟩, ⟨8, 1, 2⟩])) (twinned .running {}), 1, cmd 0x0802 0 (record 16 [⟨0, 8, 51000⟩, ⟨8, 1, 2⟩]),
      record 16 [⟨0, 8, 51000⟩, ⟨8, 1, 2⟩], _, commanded_of (by decide +kernel), rfl, by decide +kernel⟩,
    ⟨held 1 (cmd 0x0802 0 (record 16 [⟨0, 8, 51000⟩, ⟨8, 1, 3⟩])) (twinned .running { state := .bound }), 1, cmd 0x0802 0 (record 16 [⟨0, 8, 51000⟩,
      ⟨8, 1, 3⟩]), record 16 [⟨0, 8, 51000⟩, ⟨8, 1, 3⟩], _, commanded_of (by decide +kernel), rfl, by decide +kernel⟩,
    ⟨held 1 (cmd 0x0803 0 (record 16 [⟨0, 8, 51000⟩, ⟨8, 4, 1024⟩])) (twinned .running { state := .bound }), 1, cmd 0x0803 0 (record 16 [⟨0, 8,
      51000⟩, ⟨8, 4, 1024⟩]), record 16 [⟨0, 8, 51000⟩, ⟨8, 4, 1024⟩], _, commanded_of (by decide +kernel), rfl, by decide +kernel⟩,
    ⟨held 1 (cmd 0x0803 0 (record 16 [⟨0, 8, 51000⟩, ⟨8, 4, 1023⟩])) (twinned .running { state := .solo }), 1, cmd 0x0803 0 (record 16 [⟨0, 8,
      51000⟩, ⟨8, 4, 1023⟩]), record 16 [⟨0, 8, 51000⟩, ⟨8, 4, 1023⟩], _, commanded_of (by decide +kernel), rfl, by decide +kernel⟩⟩

/-- States and operands that meet the hypotheses of TwinComparisonAndCopy, clause by clause. -/
theorem witness_TwinComparisonAndCopy :
    (∃ (s : State) (p : Nat) (w : Twin), w = (s.getPart p).twin ∧ (w.due = none ∨ w.own = [] ∨ w.state ≠ .bound)) ∧
    (∃ (s : State) (p : Nat) (w : Twin) (k : _) (o : _) (rest : _), w = (s.getPart p).twin ∧ w.due = some k ∧ w.own = o :: rest ∧ w.state = .bound) ∧
    (∃ (s : State) (p : Nat) (w : Twin) (f : Frame) (r : SigRec) (u : State), Deliverable s 12 f ∧ w = (s.getPart p).twin ∧ r = sigParse f.payload ∧
      u = s.takeRx 12 f ∧ f.kind = 0xA ∧ f.arg = 0 ∧ f.part = p ∧ w.state ≠ .bound) ∧
    (∃ (s : State) (p : Nat) (w : Twin) (f : Frame) (r : SigRec) (u : State), Deliverable s 12 f ∧ w = (s.getPart p).twin ∧ r = sigParse f.payload ∧
      u = s.takeRx 12 f ∧ f.kind = 0xA ∧ f.arg = 0 ∧ f.part = p ∧ w.state = .bound ∧ w.own.find? (fun (y : SigRec) => y.step == r.step) = none ∧
      ((s.getPart p).tcb.committedStep = 2 ^ 64 - 1 ∨ (s.getPart p).tcb.committedStep < r.step)) ∧
    (∃ (s : State) (p : Nat) (w : Twin) (f : Frame) (r : SigRec) (u : State) (o : SigRec), Deliverable s 12 f ∧ w = (s.getPart p).twin ∧ r =
      sigParse f.payload ∧ u = s.takeRx 12 f ∧ f.kind = 0xA ∧ f.arg = 0 ∧ f.part = p ∧ w.state = .bound ∧ w.own.find? (fun (y : SigRec) => y.step ==
      r.step) = some o ∧ o.patternId = r.patternId ∧ o.updates = r.updates ∧ o.sig = r.sig) ∧
    (∃ (s : State) (p : Nat) (w : Twin) (f : Frame) (r : SigRec) (u : State), Deliverable s 12 f ∧ w = (s.getPart p).twin ∧ r = sigParse f.payload ∧
      u = s.takeRx 12 f ∧ f.kind = 0xA ∧ f.arg = 0 ∧ f.part = p ∧ w.state = .bound ∧ ((∃ o : SigRec, w.own.find? (fun (y : SigRec) => y.step ==
      r.step) = some o ∧ ¬ (o.patternId = r.patternId ∧ o.updates = r.updates ∧ o.sig = r.sig)) ∨ w.own.find? (fun (y : SigRec) => y.step == r.step) =
      none ∧ (s.getPart p).tcb.committedStep ≠ 2 ^ 64 - 1 ∧ r.step ≤ (s.getPart p).tcb.committedStep)) ∧
    (∃ (s : State) (p : Nat) (w : Twin) (f : Frame), w = (s.getPart p).twin ∧ f.kind ≠ 0xA) ∧
    (∃ (s : State) (p : Nat) (w : Twin), w = (s.getPart p).twin ∧ (w.sentAt = none ∨ w.state ≠ .bound ∨ w.waiting = false ∨ (∃ k, w.sentAt = some k
      ∧ s.sync.stitch < k + (s.getPart p).image.collTimeout))) ∧
    (∃ (s : State) (p : Nat) (w : Twin) (k : _), w = (s.getPart p).twin ∧ w.sentAt = some k ∧ w.state = .bound ∧ w.waiting = true ∧ k + (s.getPart
      p).image.collTimeout ≤ s.sync.stitch) ∧
    (∃ (s : State) (p : Nat) (w : Twin) (f : Frame), w = (s.getPart p).twin ∧ f.kind ≠ 0xB) ∧
    (∃ (s : State) (p : Nat) (w : Twin) (f : Frame) (space : Nat) (off : Nat) (seq : Nat) (d : List Byte) (u : State), Deliverable s 12 f ∧ w =
      (s.getPart p).twin ∧ space = fld f.payload 8 1 ∧ off = fld f.payload 0 8 ∧ seq = fld f.payload 12 4 ∧ d = f.payload.drop 16 ∧ u = s.takeRx 12 f
      ∧ f.kind = 0xB ∧ f.part = p ∧ (w.state ≠ .bound ∨ (s.getPart p).pat ≠ .loaded)) ∧
    (∃ (s : State) (p : Nat) (w : Twin) (f : Frame) (space : Nat) (off : Nat) (seq : Nat) (d : List Byte) (u : State), Deliverable s 12 f ∧ w =
      (s.getPart p).twin ∧ space = fld f.payload 8 1 ∧ off = fld f.payload 0 8 ∧ seq = fld f.payload 12 4 ∧ d = f.payload.drop 16 ∧ u = s.takeRx 12 f
      ∧ f.kind = 0xB ∧ f.part = p ∧ w.state = .bound ∧ (s.getPart p).pat = .loaded ∧ space ≠ 0xFE) ∧
    (∃ (s : State) (p : Nat) (w : Twin) (f : Frame) (space : Nat) (off : Nat) (seq : Nat) (d : List Byte) (u : State), Deliverable s 12 f ∧ w =
      (s.getPart p).twin ∧ space = fld f.payload 8 1 ∧ off = fld f.payload 0 8 ∧ seq = fld f.payload 12 4 ∧ d = f.payload.drop 16 ∧ u = s.takeRx 12 f
      ∧ f.kind = 0xB ∧ f.part = p ∧ w.state = .bound ∧ (s.getPart p).pat = .loaded ∧ space = 0xFE ∧ fld d 0 8 = (s.getPart p).image.patternId ∧ fld d
      8 8 = w.copyDone) ∧
    (∃ (s : State) (p : Nat) (w : Twin) (f : Frame) (space : Nat) (off : Nat) (seq : Nat) (d : List Byte) (u : State), Deliverable s 12 f ∧ w =
      (s.getPart p).twin ∧ space = fld f.payload 8 1 ∧ off = fld f.payload 0 8 ∧ seq = fld f.payload 12 4 ∧ d = f.payload.drop 16 ∧ u = s.takeRx 12 f
      ∧ f.kind = 0xB ∧ f.part = p ∧ w.state = .bound ∧ (s.getPart p).pat = .loaded ∧ space = 0xFE ∧ (fld d 0 8 ≠ (s.getPart p).image.patternId ∨ fld d
      8 8 ≠ w.copyDone)) ∧
    (∃ (s : State) (p : Nat) (w : Twin), w = (s.getPart p).twin ∧ (w.copy ≠ .sending ∨ (s.getPart p).run.next = none ∧ (s.getPart p).run.decided =
      true ∨ (∃ b, (s.getPart p).run.next = some b ∧ s.sync.stitch < b))) ∧
    (∃ (s : State) (p : Nat) (w : Twin), w = (s.getPart p).twin ∧ w.copy = .sending ∧ ((∃ b, (s.getPart p).run.next = some b ∧ b ≤ s.sync.stitch) ∨
      (s.getPart p).run.next = none ∧ (s.getPart p).run.decided = false)) :=
  ⟨⟨running, 0, _, rfl, by decide +kernel⟩,
    ⟨twinned .running { state := .bound, own := [sig0], due := some 990, waiting := true }, 0, _, 990, sig0, [], rfl, by decide +kernel⟩,
    ⟨twinned .running {}, 0, _, sigFrame sig0, _, _, deliverable_of (by decide +kernel), rfl, rfl, rfl, by decide +kernel⟩,
    ⟨twinned .running { state := .bound }, 0, _, sigFrame sig0, _, _, deliverable_of (by decide +kernel), rfl, rfl, rfl, by decide +kernel⟩,
    ⟨twinned .running { state := .bound, own := [sig0], sentAt := some 100, waiting := true }, 0, _, sigFrame sig0, _, _, sig0, deliverable_of
      (by decide +kernel), rfl, rfl, rfl, by decide +kernel⟩,
    ⟨twinned .running { state := .bound, own := [sig0], sentAt := some 100, waiting := true }, 0, _, sigFrame { sig0 with sig := 778 }, _, _,
      deliverable_of (by decide +kernel), rfl, rfl, rfl, by decide +kernel⟩,
    ⟨running, 0, _, copyFrame 1 0 [], rfl, by decide +kernel⟩,
    ⟨twinned .running { state := .bound, sentAt := some 950, waiting := true }, 0, _, rfl,
      (by exact .inr (.inr (.inr ⟨950, by decide +kernel, by decide +kernel⟩)))⟩,
    ⟨twinned .running { state := .bound, own := [sig0], sentAt := some 100, waiting := true }, 0, _, 100, rfl, by decide +kernel⟩,
    ⟨running, 0, _, sigFrame sig0, rfl, by decide +kernel⟩,
    ⟨twinned .running { state := .bound }, 0, _, copyFrame 2 1 [1, 2, 3], _, _, _, _, _, deliverable_of (by decide +kernel), rfl, rfl, rfl, rfl,
      rfl, rfl, by decide +kernel⟩,
    ⟨twinned .loaded { state := .bound }, 0, _, copyFrame 2 1 [1, 2, 3], _, _, _, _, _, deliverable_of (by decide +kernel), rfl, rfl, rfl, rfl, rfl,
      rfl, by decide +kernel⟩,
    ⟨twinned .loaded { state := .bound }, 0, _, copyFrame 0xFE 1 (record 24 [⟨0, 8, 9⟩, ⟨16, 8, 5⟩]), _, _, _, _, _, deliverable_of
      (by decide +kernel), rfl, rfl, rfl, rfl, rfl, rfl, by decide +kernel⟩,
    ⟨twinned .loaded { state := .bound }, 0, _, copyFrame 0xFE 1 (record 24 [⟨0, 8, 8⟩, ⟨16, 8, 5⟩]), _, _, _, _, _, deliverable_of
      (by decide +kernel), rfl, rfl, rfl, rfl, rfl, rfl, by decide +kernel⟩,
    ⟨part 0 { part0 with twin := { state := .bound, copy := .sending }, run := { base := 900, next := some 1001 } } running, 0, _, rfl,
      by decide +kernel⟩,
    ⟨(part 0 { part0 with twin := { state := .bound, copy := .sending }, run := { base := 900, next := some 1000 } } running).updPort 12 fun x =>
      { x with tx := [copyFrame 2 0 [1]] }, 0, _, rfl, by decide +kernel⟩⟩


/-- The hypotheses of StepKeepsWellFormed are met by a package that starts up. -/
theorem witness_StepKeepsWellFormed : ∃ s t : State, s.wellFormed ∧ step s = .next t :=
  ⟨{ up with pending := [.vaonRise] }, _, ⟨⟨by decide, by decide, by decide, by decide⟩, by decide, by decide, by decide, by decide⟩, rfl⟩

end Sys2Proof.Tests
end

section
/-! SUPPORT. What one step does: the front command with the queue's rest, or one AON tick. -/

namespace Sys2Proof.Machine

/-- A step with a command waiting runs it with the queue's rest. -/
theorem step_of_pending_cons {c : Instr} {rest : List Instr} {s : State} (h : s.pending = c :: rest) :
    step s = exec c { s with pending := rest } := by
  simp only [step, h]

/-- A step with no command waiting is a tick. -/
theorem step_of_pending_nil {s : State} (h : s.pending = []) : step s = .next s.tick := by
  simp only [step, h]

/-- While VAON is up a tick counts one on the AON count (R334). -/
theorem State.tick_of_up {s : State} (h : s.aon.phase ≠ .off) :
    s.tick = { s with aon := { s.aon with ticks := s.aon.ticks + 1 } } :=
  if_neg h

/-- While VAON is down a tick changes nothing (R334). -/
theorem State.tick_of_off {s : State} (h : s.aon.phase = .off) : s.tick = s :=
  if_pos h

/-- Settles O1: the queue is a cons or empty, and on an empty one VAON is up or down. -/
theorem stepRunsFrontCommand : Obligations.StepRunsFrontCommand :=
  ⟨fun _ _ _ h => step_of_pending_cons h,
   fun _ hq hv => by rw [step_of_pending_nil hq, State.tick_of_up hv],
   fun _ hq hv => by rw [step_of_pending_nil hq, State.tick_of_off hv]⟩

end Sys2Proof.Machine
end

section
/-! SUPPORT. Little-endian fields of byte lists: a field of the first bytes, of either part of two lists joined, and of the bytes of a number. -/

namespace Sys2Proof.Machine

@[simp] theorem leBytes_length (n v : Nat) : (leBytes n v).length = n := by
  induction n generalizing v with
  | zero => rfl
  | succ n ih => simp [leBytes, ih]

/-- The bytes of a number hold it, as far as they reach (R1). -/
theorem leNat_leBytes (n v : Nat) : leNat (leBytes n v) = v % 256 ^ n := by
  induction n generalizing v with
  | zero => simp [leBytes, leNat, Nat.mod_one]
  | succ n ih =>
    rw [leBytes, leNat, ih, BitVec.toNat_ofNat, Nat.pow_succ' (m := 256), Nat.mod_mul (a := 256)]

/-- The low bytes of a number's bytes are its bytes at a smaller width. -/
theorem leBytes_take {n w : Nat} (h : n ≤ w) (v : Nat) : (leBytes w v).take n = leBytes n v := by
  induction n generalizing w v with
  | zero => simp [leBytes]
  | succ n ih =>
    obtain ⟨w, rfl⟩ : ∃ k, w = k + 1 := ⟨w - 1, by omega⟩
    simp [leBytes, ih (Nat.le_of_succ_le_succ h)]

/-- The high bytes of a number's bytes are those of the number shifted. -/
theorem leBytes_drop (k w v : Nat) : (leBytes w v).drop k = leBytes (w - k) (v / 256 ^ k) := by
  induction k generalizing w v with
  | zero => simp
  | succ k ih =>
    cases w with
    | zero => simp [leBytes]
    | succ w => simp [leBytes, ih, Nat.div_div_eq_div_mul, Nat.pow_succ']

/-- Byte i of a number's bytes. -/
theorem leBytes_getD {i w : Nat} (h : i < w) (v : Nat) : (leBytes w v).getD i 0 = BitVec.ofNat 8 (v / 256 ^ i) := by
  obtain ⟨k, hk⟩ : ∃ k, w - i = k + 1 := ⟨w - i - 1, by omega⟩
  have hd : (leBytes w v).drop i = BitVec.ofNat 8 (v / 256 ^ i) :: leBytes k (v / 256 ^ i / 256) := by
    rw [leBytes_drop, hk, leBytes]
  have h0 : ((leBytes w v).drop i).getD 0 0 = BitVec.ofNat 8 (v / 256 ^ i) := by rw [hd]; rfl
  simpa [List.getD_eq_getElem?_getD] using h0

/-- A slice that does not run past the end is those bytes alone. -/
theorem slice_of_le {bs : List Byte} {off n : Nat} (h : off + n ≤ bs.length) : slice bs off n = (bs.drop off).take n := by
  have hl : ((bs.drop off).take n).length = n := by simp; omega
  simp [slice, hl]

/-- A field inside the first bytes is the same field of the whole. -/
theorem fld_take {off n k : Nat} (bs : List Byte) (h : off + n ≤ k) : fld (bs.take k) off n = fld bs off n := by
  have hd : ((bs.take k).drop off).take n = (bs.drop off).take n := by
    rw [List.drop_take, List.take_take, Nat.min_eq_left (by omega)]
  simp only [fld, slice, hd]

/-- A field inside the first of two lists joined. -/
theorem fld_append_left {as : List Byte} {off n : Nat} (bs : List Byte) (h : off + n ≤ as.length) :
    fld (as ++ bs) off n = fld as off n := by
  rw [← fld_take (as ++ bs) h, List.take_left]

/-- A field behind the first of two lists joined. -/
theorem fld_append_right {as : List Byte} {off : Nat} (bs : List Byte) (n : Nat) (h : as.length ≤ off) :
    fld (as ++ bs) off n = fld bs (off - as.length) n := by
  simp only [fld, slice, List.drop_append, List.drop_eq_nil_of_le h, List.nil_append]

/-- A field of the bytes of a number (R1). -/
theorem fld_leBytes {off n w : Nat} (v : Nat) (h : off + n ≤ w) : fld (leBytes w v) off n = v / 256 ^ off % 256 ^ n := by
  rw [fld, slice_of_le (by simpa using h), leBytes_drop, leBytes_take (by omega), leNat_leBytes]

end Sys2Proof.Machine
end

section
/-! SUPPORT. Register writes: MSI-X after a change of the cause tree, the way from REGISTER_WRITE to the register written, each register's own
action, and what a GO latches; then the statement that register writes act by their access codes. -/

namespace Sys2Proof.Machine

/-! ### MSI-X -/

/-- What settle puts into the interrupt registers: whether the routed set is non-empty, and nothing else (R384). -/
theorem State.settle_irq (s : State) : s.settle.irq = { s.irq with msiSet := s.msiOn } := by
  unfold State.settle
  dsimp only
  split
  · rw [State.sendMsix_frame]
  · split <;> rfl

/-- All that settle may change, the interrupt registers down to their one field. -/
theorem State.settle_eq (s : State) :
    s.settle = { s with irq := { s.irq with msiSet := s.settle.irq.msiSet }, pcie := s.settle.pcie, out := s.settle.out } := by
  conv_lhs => rw [State.settle_frame]
  rw [State.settle_irq]

/-- The routed set is read from what settle leaves as it is. -/
theorem State.settle_msiOn (s : State) : s.settle.msiOn = s.msiOn := by
  rw [State.settle_eq]; rfl

/-- Whether messages may be sent does not depend on the interrupt registers. -/
theorem State.msixLive_withIrq (s : State) (i : Irq) : State.msixLive { s with irq := i } = s.msixLive := rfl

/-- Once the routed set is empty nothing is pending (R384). -/
theorem State.settle_of_empty {s : State} (hoff : s.msiOn = false) :
    s.settle.pcie = { s.pcie with pend := false } ∧ s.settle.out = s.out := by
  simp [State.settle, hoff]

/-- A set that was non-empty before, or a function that may not send, gives no message (R384, R389). -/
theorem State.settle_of_silent {s : State} (hon : s.msiOn = true) (h : s.irq.msiSet = true ∨ s.msixLive = false) :
    s.settle.pcie = s.pcie ∧ s.settle.out = s.out := by
  rcases h with h | h
  · simp [State.settle, hon, h]
  · cases hset : s.irq.msiSet <;> simp [State.settle, hon, hset, State.sendMsix, State.msixLive_withIrq, h]

/-- The set goes from empty to non-empty while messages are masked: one becomes pending (R384). -/
theorem State.settle_of_masked {s : State} (hon : s.msiOn = true) (hset : s.irq.msiSet = false) (hlive : s.msixLive = true)
    (hmask : s.pcie.masked = true) : s.settle.pcie = { s.pcie with pend := true } ∧ s.settle.out = s.out := by
  simp [State.settle, hon, hset, State.sendMsix, State.msixLive_withIrq, hlive, hmask]

/-- The set goes from empty to non-empty: the message is sent (R384). -/
theorem State.settle_of_sent {s : State} (hon : s.msiOn = true) (hset : s.irq.msiSet = false) (hlive : s.msixLive = true)
    (hmask : s.pcie.masked = false) :
    s.settle.pcie = s.pcie ∧ s.settle.out = s.out ++ [.msix s.pcie.msgAddr s.pcie.msgData] := by
  simp [State.settle, hon, hset, State.sendMsix, State.msixLive_withIrq, hlive, hmask]

/-- Settling a change of causes, doorbells or masks gives the MSI-X side of that change (R384). -/
theorem msixAfter_settle {s u : State} (hset : u.irq.msiSet = s.irq.msiSet) (hpcie : u.pcie = s.pcie) (hout : u.out = s.out)
    (haon : u.aon = s.aon) : MsixAfter s u.settle := by
  have hlive : u.msixLive = s.msixLive := by simp only [State.msixLive, State.hostPower, haon, hpcie]
  unfold MsixAfter
  rw [State.settle_msiOn, State.settle_irq, ← hset, ← hpcie, ← hout, ← hlive]
  exact ⟨rfl, State.settle_of_sent, State.settle_of_masked, State.settle_of_silent, State.settle_of_empty⟩

/-- A pending message goes when the function is live and nothing holds it back, in the terms of the registers (R384, R389, R420). -/
theorem State.unmaskMsix_eq (s : State) :
    s.unmaskMsix = if s.hostPower = true ∧ s.aon.perstN = true ∧ s.pcie.msixOn = true ∧ s.pcie.funcMask = false ∧ s.pcie.vecMask = false ∧
        s.pcie.d3hot = false ∧ s.pcie.pend = true
      then { s with pcie := { s.pcie with pend := false }, out := s.out ++ [.msix s.pcie.msgAddr s.pcie.msgData] } else s := by
  simp [State.unmaskMsix, State.msixLive, Pcie.masked, and_assoc]

/-! ### From REGISTER_WRITE to the register -/

section
variable {s : State} {a : RegAccess} {v : Word} {host : HostRead} {rs : List HostRead}

/-- An access beside the management space reaches into it in no state. -/
theorem State.reaches_of_pathBeside (h : pathBeside a.path = true) : s.reaches a = false := by
  simp [State.reaches, h]

/-- What reaches the PCIe function goes beside the management space. -/
theorem pathBeside_of_reachesFunction (h : s.reachesFunction a = true) : pathBeside a.path = true := by
  by_contra hb
  simp [State.reachesFunction, hb] at h

/-- An access into the management space is none to the function beside it. -/
theorem State.reachesFunction_of_reaches (h : s.reaches a = true) : s.reachesFunction a = false := by
  by_contra hf
  rw [State.reaches_of_pathBeside (pathBeside_of_reachesFunction (by simpa using hf))] at h
  cases h

/-- A write that does not reach the package frees no SUBMIT bit. -/
theorem State.unmaskSubmit_of_not_reaches (h : s.reaches a = false) : s.unmaskSubmit a rs = s := by
  simp [State.unmaskSubmit, State.atReg, h]

/-- A write to another register than DB_RING_MASK frees no SUBMIT bit. -/
theorem State.unmaskSubmit_of_not_ringMask (h : ∀ c, accBlock a ≠ some (c, 0x90)) : s.unmaskSubmit a rs = s := by
  have hat : s.atReg a 0x90 = none := by
    unfold State.atReg
    split
    · split
      · next c x hb => rw [if_neg]; rintro rfl; exact h c hb
      · rfl
    · rfl
  simp [State.unmaskSubmit, hat]

/-- No mailbox block lies below its offset. -/
theorem accBlock_of_low (h : a.off < 0x100000) : accBlock a = none := if_neg (by omega)

/-- No bulk buffer lies below its offset. -/
theorem accBulk_of_low (h : a.off < 0x800000) : accBulk a = none := if_neg (by omega)

/-- No cause group lies below its offset. -/
theorem accGroup_of_low (h : a.off < 0x100) : accGroup a = none := if_neg (by omega)

/-- A write to a register of a mailbox block goes to that block. -/
theorem State.regWrite_block {c o : Nat} (hr : s.reaches a = true) (hb : accBlock a = some (c, o)) :
    s.regWrite a v host = s.writeBlock c o v host := by
  simp [State.regWrite, State.reachesFunction_of_reaches hr, hr, hb]

/-- A write to a bulk buffer writes its bytes while the channel holds no command. -/
theorem State.regWrite_bulk {c x : Nat} (hr : s.reaches a = true) (hb : accBlock a = none) (hk : accBulk a = some (c, x)) :
    s.regWrite a v host = if (s.getChan c).busy then s else { s with bulk := s.bulk.writeN x (leBytes 4 v.toNat) } := by
  simp [State.regWrite, State.reachesFunction_of_reaches hr, hr, hb, hk]

/-- A write to a STATUS register clears the W1C bits written 1 (R386). -/
theorem State.regWrite_status {n : Nat} (hr : s.reaches a = true) (hb : accBlock a = none) (hk : accBulk a = none)
    (hg : accGroup a = some (n, 0)) (hn : n < 11) :
    s.regWrite a v host = State.settle { s with irq := { s.irq with status := s.irq.status.modify n (· &&& ~~~(v &&& w1cBits n)) } } := by
  simp [State.regWrite, State.reachesFunction_of_reaches hr, hr, hb, hk, hg, hn]

/-- A write to the MASK of a cause group puts in the bits that the group has (R386). -/
theorem State.regWrite_mask {n : Nat} (hr : s.reaches a = true) (hb : accBlock a = none) (hk : accBulk a = none)
    (hg : accGroup a = some (n, 1)) (hn : n < 11) :
    s.regWrite a v host = State.settle { s with irq := { s.irq with mask := s.irq.mask.set n (v &&& groupBits n) } } := by
  simp [State.regWrite, State.reachesFunction_of_reaches hr, hr, hb, hk, hg, hn]

/-- A write to the MASK of group 16 or 17 puts in the value (R386). -/
theorem State.regWrite_maskExt {n : Nat} (hr : s.reaches a = true) (hb : accBlock a = none) (hk : accBulk a = none)
    (hg : accGroup a = some (n, 1)) (hn : ¬ n < 11) :
    s.regWrite a v host = State.settle { s with irq := { s.irq with maskExt := s.irq.maskExt.set (n - 16) v } } := by
  simp [State.regWrite, State.reachesFunction_of_reaches hr, hr, hb, hk, hg, hn]

/-- A write to TOP_MASK (R385). -/
theorem State.regWrite_topMask (hr : s.reaches a = true) (ho : a.off = 0x44) :
    s.regWrite a v host = State.settle { s with irq := { s.irq with topMask := v &&& 0x7FF#32 } } := by
  simp [State.regWrite, State.reachesFunction_of_reaches hr, hr, accBlock_of_low, accBulk_of_low, accGroup_of_low, ho]

/-- A write to TOP_ROUTE (R385). -/
theorem State.regWrite_topRoute (hr : s.reaches a = true) (ho : a.off = 0x48) :
    s.regWrite a v host = State.settle { s with irq := { s.irq with topRoute := v &&& 0x87FF07FF#32 } } := by
  simp [State.regWrite, State.reachesFunction_of_reaches hr, hr, accBlock_of_low, accBulk_of_low, accGroup_of_low, ho]

/-- A write to BAR2 or to the configuration space, with the pending message that it frees (R384, R420). -/
theorem State.regWrite_function (hf : s.reachesFunction a = true) :
    s.regWrite a v host =
      State.unmaskMsix { s with pcie := if a.path = Path.bar2 then s.pcie.bar2Write a.off v else s.pcie.configWrite a.off v } := by
  simp [State.regWrite, hf]

/-- A write that reaches nothing changes nothing (R4). -/
theorem State.regWrite_unreached (hr : s.reaches a = false) (hf : s.reachesFunction a = false) : s.regWrite a v host = s := by
  simp [State.regWrite, hr, hf]

/-- REGISTER_WRITE writes the register, then a SUBMIT bit that DB_RING_MASK frees is taken. -/
theorem exec_registerWrite : exec (.registerWrite a v ⟨host, rs⟩) s = .next ((s.regWrite a v host).unmaskSubmit a rs) := rfl

/-- REGISTER_WRITE of a mailbox-block register other than DB_RING_MASK. -/
theorem exec_registerWrite_block {c o : Nat} (hr : s.reaches a = true) (hb : accBlock a = some (c, o)) (ho : o ≠ 0x90) :
    exec (.registerWrite a v ⟨host, rs⟩) s = .next (s.writeBlock c o v host) := by
  rw [exec_registerWrite, State.unmaskSubmit_of_not_ringMask, State.regWrite_block hr hb]
  intro k hk
  rw [hb] at hk
  cases hk
  exact ho rfl

/-- REGISTER_WRITE of a register outside the mailbox blocks. -/
theorem exec_registerWrite_outside (hb : accBlock a = none) :
    exec (.registerWrite a v ⟨host, rs⟩) s = .next (s.regWrite a v host) := by
  rw [exec_registerWrite, State.unmaskSubmit_of_not_ringMask (by simp [hb])]

end

/-! ### Registers of a mailbox block -/

section
variable {s : State} {c : Nat} {v : Word} {host : HostRead}

/-- A write to MB_DATA. -/
theorem State.writeBlock_data {o : Nat} (ho : o < 0x40) :
    s.writeBlock c o v host = s.updChan c fun x => { x with data := x.data.set (o / 4) v } := by
  simp [State.writeBlock, ho]

/-- A write to DB_MASK, with what it makes of MSI-X (R372, R384). -/
theorem State.writeBlock_dbMask : s.writeBlock c 0x88 v host = State.settle (s.updChan c fun x => { x with dbMask := v }) := rfl

/-- A write to DB_RING_MASK frees RXPOST (R372). -/
theorem State.writeBlock_ringMask :
    s.writeBlock c 0x90 v host =
      s.updChan c fun x => { x with ringMask := v, ring := if v.getLsbD 0 then x.ring else x.ring &&& ~~~(1#32) } := rfl

/-- A 1 written to MB_CTRL.OVERRUN alone clears it (R370). -/
theorem State.writeBlock_clearOverrun : s.writeBlock c 0x40 4 host = s.updChan c fun x => { x with overrun := false } := rfl

/-- A 1 written to MB_CTRL.GO alone is a GO (R370). -/
theorem State.writeBlock_go : s.writeBlock c 0x40 1 host = s.go c host := rfl

/-- A command that came through the mailbox, has begun or came in an earlier tick keeps its channel against a GO (R363). -/
theorem State.displaces_eq_none {h : Held} (hheld : (s.getChan c).held = some h)
    (hkeeps : h.via = .mailbox ∨ h.stepped = true ∨ h.tick ≠ s.aon.ticks) : s.displaces c = none := by
  simp only [State.displaces, hheld]
  rw [if_neg]
  rintro ⟨hvia, hstep, htick⟩
  rcases hkeeps with hk | hk | hk
  · exact hvia hk
  · rw [hstep] at hk; cases hk
  · exact hk htick

/-- A GO while the channel holds a command that keeps it sets OVERRUN (R370). -/
theorem State.go_of_held (hbusy : (s.getChan c).busy = true) (hd : s.displaces c = none) :
    s.go c host = s.updChan c fun x => { x with overrun := true } := by
  simp [State.go, hbusy, hd]

/-- A GO on a free channel latches the command (R370). -/
theorem State.go_of_free (hbusy : (s.getChan c).busy = false) : s.go c host = s.latch c host := by
  simp [State.go, hbusy]

/-- SUBMIT is not taken while it is masked or not set, or on a channel without a submit ring (R372). -/
theorem State.takeSubmit_eq_self {rs : List HostRead}
    (h : (s.getChan c).ringMask.getLsbD 31 = true ∨ (s.getChan c).ring.getLsbD 31 = false ∨ c < 4) : s.takeSubmit c rs = s := by
  unfold State.takeSubmit
  refine if_neg ?_
  rintro ⟨hring, hmask, hch, _⟩
  rcases h with h | h | h
  · rw [h] at hmask; cases hmask
  · rw [h] at hring; cases hring
  · omega

end

/-! ### What a GO latches -/

theorem wordBytes_cons (w : Word) (data : List Word) : wordBytes (w :: data) = leBytes 4 w.toNat ++ wordBytes data := rfl

/-- A field inside one word. -/
theorem fld_wordBytes {off n i : Nat} (data : List Word) (hi : i < data.length) (h : off + n ≤ 4) :
    fld (wordBytes data) (4 * i + off) n = (nth 0 data i).toNat / 256 ^ off % 256 ^ n := by
  induction data generalizing i with
  | nil => simp at hi
  | cons w data ih =>
    rw [wordBytes_cons]
    cases i with
    | zero =>
      rw [Nat.mul_zero, Nat.zero_add, fld_append_left _ (by simpa using h), fld_leBytes _ h]
      rfl
    | succ i =>
      rw [fld_append_right _ _ (by simp; omega), leBytes_length, show 4 * (i + 1) + off - 4 = 4 * i + off by omega,
        ih (by simpa using hi)]
      rfl

/-- Bit k of the FLAGS byte is bit 24 + k of word 0 (R364). -/
theorem bit_flags (w : Word) {k : Nat} (hk : k < 8) : bit (w.toNat / 256 ^ 3 % 256 ^ 1) k = w.getLsbD (24 + k) := by
  rw [show (256 : Nat) ^ 3 = 2 ^ 24 by norm_num, show (256 : Nat) ^ 1 = 2 ^ 8 by norm_num, bit, Nat.testBit_mod_two_pow,
    Nat.testBit_div_two_pow]
  simp [hk, BitVec.getLsbD, Nat.add_comm]

/-- The command that a GO on channel ch latches (R370). -/
def State.latched (ch : Nat) (host : HostRead) (s : State) : Held :=
  let bytes := wordBytes (s.getChan ch).data
  let hdr := bytes.take 16
  let params := if !(bit (fld hdr 3 1) 0) then HostRead.ok (bytes.drop 16)
    else if bit (fld hdr 3 1) 1 then host else .ok (s.bulk.readN (65536 * ch) (fld hdr 6 2))
  { parseHeader hdr params .mailbox with tick := s.now, at_ := s.stitch }

/-- A channel that has just latched a command (R370). -/
def Channel.latch (h : Held) (c : Channel) : Channel :=
  { c with ackValid := false, final := false, code := 0, tag := 0, reply := List.replicate 16 0, busy := true, held := some h }

section
variable {s : State} {ch : Nat} {host : HostRead}

/-- A GO with an opcode of the table: the command is held (R370), and a FAULT_POLICY is in force (R403). -/
theorem State.latch_of_known (h : (opInfo (s.latched ch host).opcode).isSome = true) :
    s.latch ch host = ((s.updChan ch (Channel.latch (s.latched ch host))).dropPolicy ch).notePolicy ch (s.latched ch host) :=
  have hne : ¬ (opInfo (s.latched ch host).opcode).isNone = true := by simp [← Option.isSome_iff_ne_none, h]
  if_neg hne

/-- A GO with an opcode that is not in the table is answered at once (R369). -/
theorem State.latch_of_unknown (h : (opInfo (s.latched ch host).opcode).isSome = false) :
    s.latch ch host = (s.updChan ch (Channel.latch (s.latched ch host))).answer ch .badOpcode [] :=
  have heq : (opInfo (s.latched ch host).opcode).isNone = true := by simpa using h
  if_pos heq

/-- A header field inside word i of MB_DATA (R364). -/
theorem fld_header {data : List Word} (hlen : data.length = 16) {i : Nat} (hi : i < 4) {off n : Nat} (h : off + n ≤ 4) :
    fld ((wordBytes data).take 16) (4 * i + off) n = (nth 0 data i).toNat / 256 ^ off % 256 ^ n := by
  rw [fld_take _ (by omega), fld_wordBytes _ (by omega) h]

/-- A bit of the FLAGS byte (R364). -/
theorem bit_header {data : List Word} (hlen : data.length = 16) {k : Nat} (hk : k < 8) :
    bit (fld ((wordBytes data).take 16) 3 1) k = (nth 0 data 0).getLsbD (24 + k) := by
  rw [← bit_flags _ hk, ← fld_header hlen (i := 0) (by omega) (by omega)]

/-! The header and parameters latched, in the words of MB_DATA (R364, R365, R370). -/

theorem State.latched_opcode (hlen : (s.getChan ch).data.length = 16) :
    (s.latched ch host).opcode = (nth 0 (s.getChan ch).data 0).toNat % 2 ^ 16 := by
  have h := fld_header hlen (i := 0) (off := 0) (n := 2) (by omega) (by omega)
  exact h.trans (by omega)

theorem State.latched_part (hlen : (s.getChan ch).data.length = 16) :
    (s.latched ch host).part = (nth 0 (s.getChan ch).data 0).toNat / 2 ^ 16 % 2 ^ 6 := by
  have h := fld_header hlen (i := 0) (off := 2) (n := 1) (by omega) (by omega)
  show bits (fld _ 2 1) 5 0 = _
  rw [h, bits]
  omega

theorem State.latched_flags (hlen : (s.getChan ch).data.length = 16) :
    (s.latched ch host).flags = (nth 0 (s.getChan ch).data 0).toNat / 2 ^ 24 % 16 := by
  have h := fld_header hlen (i := 0) (off := 3) (n := 1) (by omega) (by omega)
  show bits (fld _ 3 1) 3 0 = _
  rw [h, bits]
  omega

theorem State.latched_tag (hlen : (s.getChan ch).data.length = 16) :
    (s.latched ch host).tag = (nth 0 (s.getChan ch).data 1).toNat % 2 ^ 16 := by
  have h := fld_header hlen (i := 1) (off := 0) (n := 2) (by omega) (by omega)
  exact h.trans (by omega)

/-- LENGTH is the upper half of word 1. -/
theorem fld_length {data : List Word} (hlen : data.length = 16) :
    fld ((wordBytes data).take 16) 6 2 = (nth 0 data 1).toNat / 2 ^ 16 := by
  rw [fld_header hlen (i := 1) (off := 2) (by omega) (by omega)]
  omega

theorem State.latched_length (hlen : (s.getChan ch).data.length = 16) :
    (s.latched ch host).length = (nth 0 (s.getChan ch).data 1).toNat / 2 ^ 16 := fld_length hlen

theorem State.latched_addr : (s.latched ch host).addr = fld (wordBytes (s.getChan ch).data) 8 8 := fld_take _ (by omega)

theorem State.latched_params (hlen : (s.getChan ch).data.length = 16) :
    (s.latched ch host).params =
      if (nth 0 (s.getChan ch).data 0).getLsbD 24 = false then .ok ((wordBytes (s.getChan ch).data).drop 16)
      else if (nth 0 (s.getChan ch).data 0).getLsbD 25 = true then host
      else .ok (s.bulk.readN (65536 * ch) ((nth 0 (s.getChan ch).data 1).toNat / 2 ^ 16)) := by
  simp only [State.latched, parseHeader, bit_header hlen (show 0 < 8 by omega), bit_header hlen (show 1 < 8 by omega), fld_length hlen,
    Bool.not_eq_true']

/-! What becomes of a FAULT_POLICY ahead of its row (R403). -/

/-- All that notePolicy may change. -/
theorem State.notePolicy_frame (ch : Nat) (h : Held) (s : State) :
    s.notePolicy ch h = { s with faults := { s.faults with policyPend := (s.notePolicy ch h).faults.policyPend } } := by
  unfold State.notePolicy
  split
  · dsimp only; split <;> rfl
  · rfl

/-- Another command than FAULT_POLICY sets no policy. -/
theorem State.notePolicy_of_ne {h : Held} (hop : h.opcode ≠ 0x0903) : s.notePolicy ch h = s := by
  unfold State.notePolicy
  split
  · exact if_neg fun hc => hop hc.1
  · rfl

/-- A policy in force after one was noted was in force before, or is of the same channel. -/
theorem State.mem_notePolicy {h : Held} {e : PolicyPend} (he : e ∈ (s.notePolicy ch h).faults.policyPend) :
    e ∈ s.faults.policyPend ∨ e.ch = ch := by
  unfold State.notePolicy at he
  split at he
  · dsimp only at he
    split at he
    · rcases List.mem_append.1 he with he | he
      · exact .inl (List.mem_filter.1 he).1
      · rcases List.mem_cons.1 he with he | he
        · exact .inr (by rw [he])
        · exact .inl (List.mem_filter.1 he).1
    · exact .inl he
  · exact .inl he

/-! The answer to a command that came through the mailbox (R367, R371). -/

/-- A final status of a mailbox command but INTERNAL goes into the channel's registers, frees it and rings its doorbell. -/
theorem State.answer_of_mailbox {h : Held} {st : Status} (ws : List Nat) (hheld : (s.getChan ch).held = some h) (hvia : h.via = .mailbox)
    (hst : st ≠ .internal) :
    s.answer ch st ws = (s.updChan ch fun c => { c.setAck h.tag st true (replyWords ws []) with busy := false, held := none }).ringHost ch
      (if h.acked then 1 else 0) := by
  simp [State.answer, State.finish, hheld, hvia, hst, State.writeRecord]

end

/-! ### Elements of a list of registers -/

theorem nth_set_same {α : Type} {d v : α} {l : List α} {n : Nat} (h : n < l.length) : nth d (l.set n v) n = v := by
  simp [nth, List.getD, h]

theorem nth_set_ne {α : Type} {d v : α} {l : List α} {n k : Nat} (h : k ≠ n) : nth d (l.set n v) k = nth d l k := by
  simp [nth, List.getD, List.getElem?_set_ne h.symm]

theorem nth_modify_same {α : Type} {d : α} {f : α → α} {l : List α} {n : Nat} (h : n < l.length) :
    nth d (l.modify n f) n = f (nth d l n) := by
  simp [nth, List.getD, h]

theorem nth_modify_ne {α : Type} {d : α} {f : α → α} {l : List α} {n k : Nat} (h : k ≠ n) : nth d (l.modify n f) k = nth d l k := by
  simp [nth, List.getD, List.getElem?_modify_ne f l h.symm]

/-! ### What each write does -/

/-- Freeing RXPOST keeps it only where the mask does. -/
theorem getLsbD_freeRxpost_zero (mask : Bool) (ring : Word) :
    (if mask then ring else ring &&& ~~~(1#32)).getLsbD 0 = (mask && ring.getLsbD 0) := by
  cases mask <;> simp

/-- Freeing RXPOST leaves the other bits of DB_RING. -/
theorem getLsbD_freeRxpost_ne_zero (mask : Bool) (ring : Word) {i : Nat} (hi : 0 < i) :
    (if mask then ring else ring &&& ~~~(1#32)).getLsbD i = ring.getLsbD i := by
  cases mask
  · rw [if_neg Bool.false_ne_true, BitVec.getLsbD_and, BitVec.getLsbD_not, BitVec.getLsbD_one]
    by_cases h32 : i < 32
    · simp [h32, Nat.ne_of_gt hi]
    · simp [h32, BitVec.getLsbD_of_ge ring i (by omega)]
  · rfl

section
variable {s : State} {a : RegAccess} {v : Word} {host : HostRead} {rs : List HostRead} {c : Nat}

/-- A write to DB_RING_MASK that frees no SUBMIT bit: the mask takes the value, and the RXPOST bit that it held goes (R372). -/
theorem exec_registerWrite_ringMask (hr : s.reaches a = true) (hb : accBlock a = some (c, 0x90))
    (h : v.getLsbD 31 = true ∨ (s.getChan c).ring.getLsbD 31 = false ∨ c < 4) :
    exec (.registerWrite a v ⟨host, rs⟩) s =
      .next (s.updChan c fun x => { x with ringMask := v, ring := if v.getLsbD 0 then x.ring else x.ring &&& ~~~(1#32) }) := by
  rw [exec_registerWrite, State.regWrite_block hr hb, State.writeBlock_ringMask]
  generalize hu : (s.updChan c fun x => { x with ringMask := v, ring := if v.getLsbD 0 then x.ring else x.ring &&& ~~~(1#32) }) = u
  have hat : u.atReg a 0x90 = some c := by
    have hru : u.reaches a = true := by rw [← hu]; exact hr
    simp [State.atReg, hru, hb]
  have hmask : (u.getChan c).ringMask = v := by rw [← hu, State.getChan_updChan_same]
  have hring : (u.getChan c).ring.getLsbD 31 = (s.getChan c).ring.getLsbD 31 := by
    rw [← hu, State.getChan_updChan_same]
    exact getLsbD_freeRxpost_ne_zero _ _ (by omega)
  have hsub : u.takeSubmit c rs = u := State.takeSubmit_eq_self (by rwa [hmask, hring])
  simp only [State.unmaskSubmit, hat, hsub]

/-- A GO alone (R370). -/
theorem exec_registerWrite_go (hr : s.reaches a = true) (hb : accBlock a = some (c, 0x40)) :
    exec (.registerWrite a 1 ⟨host, rs⟩) s = .next (s.go c host) := by
  rw [exec_registerWrite_block hr hb (by decide), State.writeBlock_go]

/-- A write to BAR2 or to the configuration space changes the function's registers, and a pending message that nothing holds back goes
(R384, R420). -/
theorem exec_registerWrite_function (hf : s.reachesFunction a = true) :
    exec (.registerWrite a v ⟨host, rs⟩) s =
      .next (State.unmaskMsix { s with pcie := if a.path = Path.bar2 then s.pcie.bar2Write a.off v else s.pcie.configWrite a.off v }) := by
  rw [exec_registerWrite, State.regWrite_function hf,
    State.unmaskSubmit_of_not_reaches (State.reaches_of_pathBeside (pathBeside_of_reachesFunction hf))]

/-- A write that reaches nothing changes nothing (R4). -/
theorem exec_registerWrite_unreached (hr : s.reaches a = false) (hf : s.reachesFunction a = false) :
    exec (.registerWrite a v ⟨host, rs⟩) s = .next s := by
  rw [exec_registerWrite, State.regWrite_unreached hr hf, State.unmaskSubmit_of_not_reaches hr]

/-! A GO with an opcode of the table. -/

theorem State.latch_getChan (hop : (opInfo (s.latched c host).opcode).isSome = true) (k : Nat) :
    (s.latch c host).getChan k = (s.updChan c (Channel.latch (s.latched c host))).getChan k := by
  rw [State.latch_of_known hop, State.notePolicy_frame]; rfl

/-- All that latching such a command changes. -/
theorem State.latch_frame (hop : (opInfo (s.latched c host).opcode).isSome = true) :
    s.latch c host = { s with chan := (s.latch c host).chan
                              faults := { s.faults with policyPend := (s.latch c host).faults.policyPend } } := by
  rw [State.latch_of_known hop, State.notePolicy_frame]; rfl

theorem State.latch_policyPend_of_ne (hop : (opInfo (s.latched c host).opcode).isSome = true) (hne : (s.latched c host).opcode ≠ 0x0903) :
    (s.latch c host).faults.policyPend = s.faults.policyPend.filter fun e => e.ch != c := by
  rw [State.latch_of_known hop, State.notePolicy_of_ne hne]; rfl

theorem State.mem_latch_policyPend (hop : (opInfo (s.latched c host).opcode).isSome = true) {e : PolicyPend}
    (he : e ∈ (s.latch c host).faults.policyPend) : e ∈ s.faults.policyPend ∨ e.ch = c := by
  rw [State.latch_of_known hop] at he
  rcases State.mem_notePolicy he with he | he
  · exact .inl (List.mem_filter.1 he).1
  · exact .inr he

/-- The channel of a command whose opcode is not in the table: BAD_OPCODE in its registers, its doorbell rung, and free (R369, R371). -/
def Channel.badOpcode (h : Held) (c : Channel) : Channel :=
  { (c.latch h).setAck h.tag .badOpcode true (replyWords [] []) with busy := false, held := none, db := c.db ||| BitVec.twoPow 32 0 }

/-- A GO with an opcode that is not in the table: the channel alone changes, and what its doorbell makes of MSI-X is settled. -/
theorem State.latch_of_unknown_settle (hop : (opInfo (s.latched c host).opcode).isSome = false) :
    ∃ u : State, s.latch c host = u.settle ∧ u = { s with chan := u.chan } ∧
      ∀ k, u.getChan k = if k = c then Channel.badOpcode (s.latched c host) (s.getChan c) else s.getChan k := by
  have hheld : ((s.updChan c (Channel.latch (s.latched c host))).getChan c).held = some (s.latched c host) := by
    rw [State.getChan_updChan_same]; rfl
  rw [State.latch_of_unknown hop, State.answer_of_mailbox [] hheld rfl (by decide)]
  refine ⟨_, rfl, by simp only [State.updChan], fun k => ?_⟩
  by_cases hk : k = c
  · rw [if_pos hk, hk]
    simp only [State.getChan_updChan_same]
    rfl
  · rw [if_neg hk]
    simp only [State.getChan_updChan_ne _ _ _ _ hk]

end

/-- Settles O20, access by access: what does not reach the package, the mailbox block's registers, the cause tree's, the bulk buffer, MB_CTRL
with OVERRUN and GO, and the PCIe function's. -/
theorem registerWritesFollowAccessCodes : Obligations.RegisterWritesFollowAccessCodes := by
  intro s a v host rs
  refine ⟨exec_registerWrite_unreached, ?data, ?dbMask, ?ringMask, ?status, ?mask, ?maskExt, ?topMask, ?topRoute, ?bulk, ?clearOverrun,
    ?overrun, ?go, ?function⟩
  case data =>
    intro c o hr hb ho
    refine ⟨_, exec_registerWrite_block hr hb (by omega), ?_⟩
    rw [State.writeBlock_data ho]
    exact ⟨State.getChan_updChan_same _ _ _, fun k => State.getChan_updChan_ne _ _ _ _, rfl⟩
  case dbMask =>
    intro c hr hb
    refine ⟨_, exec_registerWrite_block hr hb (by decide), ?_⟩
    rw [State.writeBlock_dbMask]
    refine ⟨?_, fun k hk => ?_, msixAfter_settle rfl rfl rfl rfl, ?_⟩
    · rw [State.settle_getChan, State.getChan_updChan_same]
    · rw [State.settle_getChan, State.getChan_updChan_ne _ _ _ _ hk]
    · rw [State.settle_eq]; rfl
  case ringMask =>
    intro c hr hb h
    refine ⟨_, exec_registerWrite_ringMask hr hb h, ?_⟩
    rw [State.getChan_updChan_same]
    exact ⟨rfl, fun i hi => getLsbD_freeRxpost_ne_zero _ _ hi, getLsbD_freeRxpost_zero _ _, fun k => State.getChan_updChan_ne _ _ _ _, rfl⟩
  case status =>
    intro n hr hb hk hg hn hlen
    refine ⟨_, exec_registerWrite_outside hb, ?_⟩
    rw [State.regWrite_status hr hb hk hg hn]
    refine ⟨?_, fun k hkn => ?_, msixAfter_settle rfl rfl rfl rfl, ?_⟩
    · rw [State.settle_irq]; exact nth_modify_same (by omega)
    · rw [State.settle_irq]; exact nth_modify_ne hkn
    · rw [State.settle_eq, State.settle_irq]
  case mask =>
    intro n hr hb hk hg hn hlen
    refine ⟨_, exec_registerWrite_outside hb, ?_⟩
    rw [State.regWrite_mask hr hb hk hg hn]
    refine ⟨?_, fun k hkn => ?_, msixAfter_settle rfl rfl rfl rfl, ?_⟩
    · rw [State.settle_irq]; exact nth_set_same (by omega)
    · rw [State.settle_irq]; exact nth_set_ne hkn
    · rw [State.settle_eq, State.settle_irq]
  case maskExt =>
    intro n hr hb hk hg hn hlen
    refine ⟨_, exec_registerWrite_outside hb, ?_⟩
    rw [State.regWrite_maskExt hr hb hk hg (by omega)]
    refine ⟨?_, ?_, msixAfter_settle rfl rfl rfl rfl, ?_⟩
    · rw [State.settle_irq]; exact nth_set_same (by omega)
    · rw [State.settle_irq]; exact nth_set_ne (by omega)
    · rw [State.settle_eq, State.settle_irq]
  case topMask =>
    intro hr ho
    refine ⟨_, exec_registerWrite_outside (accBlock_of_low (by omega)), ?_⟩
    rw [State.regWrite_topMask hr ho]
    refine ⟨?_, msixAfter_settle rfl rfl rfl rfl, ?_⟩
    · rw [State.settle_irq]
    · rw [State.settle_eq, State.settle_irq]
  case topRoute =>
    intro hr ho
    refine ⟨_, exec_registerWrite_outside (accBlock_of_low (by omega)), ?_⟩
    rw [State.regWrite_topRoute hr ho]
    refine ⟨?_, msixAfter_settle rfl rfl rfl rfl, ?_⟩
    · rw [State.settle_irq]
    · rw [State.settle_eq, State.settle_irq]
  case bulk =>
    intro c x hr hb hk
    rw [exec_registerWrite_outside hb, State.regWrite_bulk hr hb hk]
    refine ⟨fun hbusy => by rw [if_pos hbusy], fun hbusy => ?_⟩
    rw [if_neg (by simp [hbusy])]
    refine ⟨_, rfl, fun i hi => ?_, fun k hout => ?_, rfl⟩
    · rw [Mem.read_writeN, if_pos (by simp; omega), Nat.add_sub_cancel_left, leBytes_getD hi]
    · exact Mem.read_writeN_out _ _ _ (by simpa using hout)
  case clearOverrun =>
    rintro c hr hb rfl
    rw [exec_registerWrite_block hr hb (by decide), State.writeBlock_clearOverrun]
  case overrun =>
    rintro c h hr hb rfl hbusy hheld hkeeps
    refine ⟨_, exec_registerWrite_go hr hb, ?_⟩
    rw [State.go_of_held hbusy (State.displaces_eq_none hheld hkeeps)]
    exact ⟨State.getChan_updChan_same _ _ _, fun k => State.getChan_updChan_ne _ _ _ _, rfl⟩
  case go =>
    rintro c hr hb rfl hbusy hlen w0 w1 bytes rfl rfl rfl
    rw [exec_registerWrite_go hr hb, State.go_of_free hbusy, ← State.latched_opcode (host := host) hlen, ← State.latched_tag (host := host) hlen]
    refine ⟨fun hop => ?_, fun hop => ?_⟩
    · refine ⟨_, s.latched c host, rfl, ?_, rfl, State.latched_part hlen, State.latched_flags hlen, rfl, State.latched_length hlen,
        State.latched_addr, State.latched_params hlen, rfl, rfl, rfl, rfl, rfl, fun k hk => ?_, State.latch_policyPend_of_ne hop,
        fun e => State.mem_latch_policyPend hop, State.latch_frame hop⟩
      · rw [State.latch_getChan hop, State.getChan_updChan_same]; rfl
      · rw [State.latch_getChan hop, State.getChan_updChan_ne _ _ _ _ hk]
    · obtain ⟨u, hlatch, hu, hchan⟩ := State.latch_of_unknown_settle (host := host) hop
      refine ⟨_, rfl, ?_⟩
      simp only [hlatch, State.settle_getChan, hchan, if_true]
      refine ⟨rfl, rfl, rfl, rfl, rfl, rfl, ?_, fun k hk => if_neg hk, ?_, ?_⟩
      · simp [Channel.badOpcode]
      · rw [hu]; exact msixAfter_settle rfl rfl rfl rfl
      · rw [State.settle_eq, hu]
  case function =>
    rintro p hf (⟨hpath, rfl⟩ | ⟨hpath, rfl⟩)
    · rw [exec_registerWrite_function hf, if_pos hpath, State.unmaskMsix_eq]; rfl
    · rw [exec_registerWrite_function hf, if_neg (by simp [hpath]), State.unmaskMsix_eq]; rfl

end Sys2Proof.Machine
end

section
/-! SUPPORT. The test access chain: what an instruction acts as, what each position captures, and what a scan leaves; then the statement about the
test port and the I3C address. -/

namespace Sys2Proof.Machine

theorem nth_map_range {α : Type} (d : α) (f : Nat → α) {n i : Nat} (h : i < n) : nth d ((List.range n).map f) i = f i := by
  simp [nth, h]

/-! ### The instruction that acts -/

/-- Only EXTEST, CLAMP and HIGHZ act as another instruction, and only in the running package (R36). -/
theorem State.tapEffective_cases (s : State) (i : TapInstr) :
    s.tapEffective i = i ∨ s.tapEffective i = .bypass ∧ (i = .extest ∨ i = .clamp ∨ i = .highz) := by
  unfold State.tapEffective
  split
  · next h => exact .inr ⟨rfl, h.2.2⟩
  · exact .inl rfl

/-- EXTEST, CLAMP and HIGHZ act as BYPASS in the running package (R36). -/
theorem State.tapInstr_of_running {s : State} {pos : Nat} {i : TapInstr} (hi : nth .idcode s.tap.ir pos = i)
    (hpin : i = .extest ∨ i = .clamp ∨ i = .highz) (hrst : s.aon.pkgResetN = true) (hpwr : s.aon.pwrOk = true)
    (hph : s.aon.phase ≠ .safeListen) : s.tapInstr pos = .bypass := by
  unfold State.tapInstr State.tapEffective
  rw [hi, if_pos ⟨by simp [State.outOfReset, hrst, hpwr], hph, hpin⟩]

/-- In reset and in Safe Listen every instruction acts as itself (R36). -/
theorem State.tapInstr_of_not_running {s : State} {pos : Nat}
    (h : s.aon.pkgResetN = false ∨ s.aon.pwrOk = false ∨ s.aon.phase = .safeListen) : s.tapInstr pos = nth .idcode s.tap.ir pos := by
  refine if_neg ?_
  rintro ⟨hout, hph, -⟩
  simp only [State.outOfReset, Bool.and_eq_true] at hout
  rcases h with h | h | h
  · rw [hout.1] at h; cases h
  · rw [hout.2] at h; cases h
  · exact hph h

/-- Any other instruction acts as itself. -/
theorem State.tapInstr_of_plain {s : State} {pos : Nat} {i : TapInstr} (hi : nth .idcode s.tap.ir pos = i)
    (hpin : ¬ (i = .extest ∨ i = .clamp ∨ i = .highz)) : s.tapInstr pos = i := by
  unfold State.tapInstr
  rw [hi]
  exact (s.tapEffective_cases i).resolve_right fun h => hpin h.2

/-! ### What a position captures and drives -/

theorem State.irCapture_absent {s : State} {pos : Nat} (h : s.tapAbsent pos = true) : s.irCapture pos = [false] := if_pos h

theorem State.irCapture_present {s : State} {pos : Nat} (h : s.tapAbsent pos = false) (hlen : 2 ≤ s.irLen pos) :
    (s.irCapture pos).length = s.irLen pos ∧ (s.irCapture pos).take 2 = [true, false] := by
  obtain ⟨n, hn⟩ : ∃ n, s.irLen pos = n + 2 := ⟨s.irLen pos - 2, by omega⟩
  simp [State.irCapture, h, hn, List.range_succ_eq_map]

theorem State.drCapture_absent {s : State} {pos : Nat} (h : s.tapAbsent pos = true) : s.drCapture pos = [false] := if_pos h

theorem State.drCapture_bypass {s : State} {pos : Nat} (h : s.tapInstr pos = .bypass) : s.drCapture pos = [false] := by
  simp [State.drCapture, h]

theorem State.drCapture_idcode {s : State} {pos : Nat} (ha : s.tapAbsent pos = false) (h : s.tapInstr pos = .idcode) :
    s.drCapture pos = (List.range 32).map (s.idcode pos).testBit := by
  simp [State.drCapture, ha, h]

theorem State.pinDrive_bypass {s : State} {pos : Nat} (h : s.tapInstr pos = .bypass) : s.pinDrive pos = .functional := by
  simp [State.pinDrive, h]

/-- The boundary register is scanned only under an instruction that selects it (R34). -/
theorem State.scansCells_tapInstr {s : State} {pos : Nat}
    (h : nth .idcode s.tap.ir pos ≠ .samplePreload ∧ nth .idcode s.tap.ir pos ≠ .extest) : scansCells (s.tapInstr pos) = false := by
  unfold State.tapInstr
  rcases s.tapEffective_cases (nth .idcode s.tap.ir pos) with he | ⟨he, -⟩ <;> rw [he]
  · simp [scansCells, h]
  · rfl

/-! ### Operations of the test port -/

section
variable {s : State}

/-- What the five TAPs select after an instruction scan: a TAP that is not there keeps its instruction (R35). -/
def State.irAfter (s : State) (i : List TapInstr) : List TapInstr :=
  (List.range 5).map fun p => if s.tapAbsent p then nth .idcode s.tap.ir p else (i[p]?).getD (nth .idcode s.tap.ir p)

/-- What the five boundary registers hold after a data scan: only those that it runs through change (R34). -/
def State.cellsAfter (s : State) (b : List Bool) : List (List Bool) :=
  (List.range 5).map fun p => if !s.tapAbsent p && scansCells (s.tapInstr p) then s.drAfter b p else nth [] s.tap.cells p

theorem exec_tapReset (h : s.aon.phase ≠ .off) {o : TapOp} (ho : o = .trst ∨ o = .testLogicReset) :
    exec (.tapOperation o) s = .next { s with tap := { s.tap with ir := List.replicate 5 .idcode } } := by
  show Host.Outcome.next (s.tapOperation o) = _
  rcases ho with rfl | rfl <;> exact congrArg _ (if_neg h)

theorem exec_irScan (h : s.aon.phase ≠ .off) (i : List TapInstr) :
    exec (.tapOperation (.irScan i)) s =
      .next { s with tap := { s.tap with ir := s.irAfter i }, out := s.out ++ [.tdo ([4, 3, 2, 1, 0].flatMap s.irCapture)] } :=
  congrArg Host.Outcome.next (if_neg h)

theorem exec_drScan (h : s.aon.phase ≠ .off) (b : List Bool) :
    exec (.tapOperation (.drScan b)) s =
      .next { s with tap := { s.tap with cells := s.cellsAfter b }, out := s.out ++ [.tdo ((s.drChain ++ b).take b.length)]
                     free := s.free + 1 } :=
  congrArg Host.Outcome.next (if_neg h)

theorem exec_tapOperation_off (h : s.aon.phase = .off) (o : TapOp) : exec (.tapOperation o) s = .next s :=
  congrArg Host.Outcome.next (if_pos h)

theorem State.irAfter_nth {i : List TapInstr} (hi : i.length = 5) {pos : Nat} (hp : pos < 5) :
    nth .idcode (s.irAfter i) pos = if s.tapAbsent pos then nth .idcode s.tap.ir pos else nth .idcode i pos := by
  rw [State.irAfter, nth_map_range _ _ hp]
  have hget : i[pos]? = some i[pos] := List.getElem?_eq_getElem (by omega)
  simp [nth, hget, List.getD]

/-- A data scan leaves a boundary register that it does not run through (R34). -/
theorem State.cellsAfter_nth_kept {b : List Bool} {pos : Nat} (hp : pos < 5)
    (h : s.tapAbsent pos = true ∨ scansCells (s.tapInstr pos) = false) : nth [] (s.cellsAfter b) pos = nth [] s.tap.cells pos := by
  rw [State.cellsAfter, nth_map_range _ _ hp]
  refine if_neg ?_
  rcases h with h | h <;> simp [h]

/-- No operation of the test port acts on anything but the chain and the bits it gives out (R37). -/
theorem exec_tapOperation_frame (o : TapOp) :
    ∃ t : State, exec (.tapOperation o) s = .next t ∧ t = { s with tap := t.tap, out := t.out, free := t.free } := by
  by_cases h : s.aon.phase = .off
  · exact ⟨s, exec_tapOperation_off h o, rfl⟩
  · cases o with
    | trst => exact ⟨_, exec_tapReset h (.inl rfl), rfl⟩
    | testLogicReset => exact ⟨_, exec_tapReset h (.inr rfl), rfl⟩
    | irScan i => exact ⟨_, exec_irScan h i, rfl⟩
    | drScan b => exact ⟨_, exec_drScan h b, rfl⟩

theorem exec_entdaa_free (hv : s.visible = true) (ha : s.aon.i3cAddr = none) (a : Nat) :
    exec (.entdaa a) s = .next { s with aon := { s.aon with i3cAddr := some (a % 128) }, out := s.out ++ [.i3cId s.provisionalId] } :=
  congrArg Host.Outcome.next (if_pos ⟨hv, ha⟩)

theorem exec_entdaa_taken (ha : s.aon.i3cAddr ≠ none) (a : Nat) : exec (.entdaa a) s = .next s :=
  congrArg Host.Outcome.next (if_neg fun h => ha h.2)

end

/-- Settles O9, operation by operation: resets of the chain, instruction scan, data scan, boundary instructions, the frame and ENTDAA. -/
theorem testPortAndI3cAddress : Obligations.TestPortAndI3cAddress := by
  unfold Obligations.TestPortAndI3cAddress
  refine ⟨fun s h => ⟨exec_tapReset h (.inl rfl), exec_tapReset h (.inr rfl)⟩, fun s i h hi => ?irScan, fun s b h => ?drScan,
    fun s pos i _ hi hpin => ?boundary, fun s o => exec_tapOperation_frame o,
    fun s a hv => ⟨fun ha => exec_entdaa_free hv ha a, fun ha => exec_entdaa_taken ha a⟩⟩
  case irScan =>
    exact ⟨_, _, exec_irScan h i, by simp [State.irAfter], fun pos hp => State.irAfter_nth hi hp, rfl,
      fun pos _ => State.irCapture_absent, fun pos _ => State.irCapture_present, rfl⟩
  case drScan =>
    refine ⟨_, _, exec_drScan h b, rfl, ?_, fun pos _ ha hi => State.drCapture_idcode ha (State.tapInstr_of_plain hi (by simp)), rfl, ?_, rfl⟩
    · rintro pos - (ha | hi)
      · exact State.drCapture_absent ha
      · exact State.drCapture_bypass (State.tapInstr_of_plain hi (by simp))
    · rintro pos hp (ha | hi)
      · exact State.cellsAfter_nth_kept hp (.inl ha)
      · exact State.cellsAfter_nth_kept hp (.inr (State.scansCells_tapInstr hi))
  case boundary =>
    refine ⟨fun hrst hpwr hph => ?_, fun h ha => ?_⟩
    · have hb := State.tapInstr_of_running hi hpin hrst hpwr hph
      exact ⟨State.drCapture_bypass hb, State.pinDrive_bypass hb⟩
    · have hself : s.tapInstr pos = i := (State.tapInstr_of_not_running h).trans hi
      rcases hpin with rfl | rfl | rfl <;> simp [State.pinDrive, ha, hself]

end Sys2Proof.Machine
end

section
/-! SUPPORT. Fields of records, the newest log entry, and what the entry into Safe Listen and a failing self-test leave. -/

namespace Sys2Proof.Machine

/-! ### Fields of records -/

@[simp] theorem record_length (n : Nat) (fs : List Fld) : (record n fs).length = n := by simp [record]

/-- The bytes of a record's first field. -/
theorem slice_record_head {n : Nat} (f : Fld) (fs : List Fld) (h : f.off + f.len ≤ n) :
    slice (record n (f :: fs)) f.off f.len = leBytes f.len f.val := by
  rw [slice_of_le (by simpa using h)]
  refine List.ext_getElem (by simp; omega) fun i h1 h2 => ?_
  have hi : i < f.len := by simpa using h2
  have hb := leBytes_getD hi f.val
  rw [List.getD_eq_getElem _ _ h2] at hb
  rw [hb]
  simp [record, recByte, hi]

/-- A record's first field is the value that it was given (R1). -/
theorem fld_record_head {n : Nat} (off len val : Nat) (fs : List Fld) (h : off + len ≤ n) :
    fld (record n (⟨off, len, val⟩ :: fs)) off len = val % 256 ^ len := by
  rw [fld, slice_record_head ⟨off, len, val⟩ fs h, leNat_leBytes]

/-- A field that meets none of a record's first field is one of the record of the others. -/
theorem fld_record_skip {n off len : Nat} (f : Fld) (fs : List Fld) (hd : off + len ≤ f.off ∨ f.off + f.len ≤ off) (h : off + len ≤ n) :
    fld (record n (f :: fs)) off len = fld (record n fs) off len := by
  unfold fld
  congr 1
  rw [slice_of_le (by simpa using h), slice_of_le (by simpa using h)]
  refine List.ext_getElem (by simp) fun i h1 h2 => ?_
  have hi : i < len := by simp at h1; omega
  have hout : ¬ (f.off ≤ off + i ∧ off + i < f.off + f.len) := by omega
  simp [record, recByte, hout]

/-! ### The fault log -/

@[simp] theorem State.log_faults (a : LogArgs) (s : State) : (s.log a).faults = s.faults.push (s.entry a) := by
  unfold State.log
  dsimp only
  split
  · rw [State.raise_faults]
  · rfl

theorem Faults.push_newest (f : Faults) (e : LogEntry) : (f.push e).log.getLast? = some e := by
  simp only [Faults.push, List.getLast?_drop]
  rw [if_neg (by simp), List.getLast?_concat]

/-- The entry that a log takes is its newest. -/
theorem State.log_newest (a : LogArgs) (s : State) : (s.log a).newest = some (s.entry a) := by
  rw [State.newest, State.log_faults, Faults.push_newest]

/-! ### Cause bits -/

@[simp] theorem State.settle_status (s : State) : s.settle.irq.status = s.irq.status := by rw [State.settle_irq]

theorem State.raise_status (c : Cause) (s : State) :
    (s.raise c).irq.status = s.irq.status.modify c.group (· ||| BitVec.twoPow 32 c.bit) := State.settle_status _

theorem Cause.group_lt (c : Cause) : c.group < 11 := by cases c <;> decide

theorem Cause.bit_lt (c : Cause) : c.bit < 32 := by cases c <;> decide

/-- A cause that is raised is set (R386). -/
theorem State.raise_caused (c : Cause) {s : State} (h : s.irq.status.length = 11) : (s.raise c).caused c := by
  have hg : c.group < s.irq.status.length := h ▸ c.group_lt
  rw [State.caused, State.raise_status, nth_modify_same hg]
  simp [c.bit_lt]

/-! ### What the self-test record keeps through -/

/-- From s to t the self-test record, the dies and the number of STATUS registers are as they were. -/
def State.KeepsRecord (s t : State) : Prop := t.test = s.test ∧ t.dies = s.dies ∧ t.irq.status.length = s.irq.status.length

section
variable {s t u : State}

theorem State.KeepsRecord.refl (s : State) : s.KeepsRecord s := ⟨rfl, rfl, rfl⟩

theorem State.KeepsRecord.trans (h : s.KeepsRecord t) (k : t.KeepsRecord u) : s.KeepsRecord u :=
  ⟨k.1.trans h.1, k.2.1.trans h.2.1, k.2.2.trans h.2.2⟩

theorem State.KeepsRecord.after (k : t.KeepsRecord u) (h : s.KeepsRecord t) : s.KeepsRecord u := h.trans k

end

theorem State.settle_keepsRecord (s : State) : s.KeepsRecord s.settle :=
  ⟨by rw [State.settle_frame], by rw [State.settle_frame], by rw [State.settle_status]⟩

theorem State.raise_keepsRecord (c : Cause) (s : State) : s.KeepsRecord (s.raise c) :=
  ⟨by rw [State.raise_frame], by rw [State.raise_frame], by rw [State.raise_status, List.length_modify]⟩

theorem State.ringHost_keepsRecord (ch b : Nat) (s : State) : s.KeepsRecord (s.ringHost ch b) :=
  (State.settle_keepsRecord _).after ⟨rfl, rfl, rfl⟩

theorem State.log_keepsRecord (a : LogArgs) (s : State) : s.KeepsRecord (s.log a) := by
  unfold State.log
  dsimp only
  split
  · exact (State.raise_keepsRecord _ _).after ⟨rfl, rfl, rfl⟩
  · exact ⟨rfl, rfl, rfl⟩

theorem State.inject_keepsRecord (f : Frame) (s : State) : s.KeepsRecord (s.inject f) := by
  rw [State.inject_frame]; exact ⟨rfl, rfl, rfl⟩

theorem State.replyFrame_keepsRecord (h : Held) (st : Status) (fin : Bool) (ws : List Nat) (r : List Byte) (s : State) :
    s.KeepsRecord (s.replyFrame h st fin ws r) := by
  rw [State.replyFrame_frame]; exact ⟨rfl, rfl, rfl⟩

theorem State.writeRecord_keepsRecord (ch : Nat) (h : Held) (r : List Byte) (s : State) : s.KeepsRecord (s.writeRecord ch h r) := by
  rw [State.writeRecord_frame]; exact ⟨rfl, rfl, rfl⟩

theorem State.finish_keepsRecord (ch : Nat) (st : Status) (ws : List Nat) (r : List Byte) (s : State) : s.KeepsRecord (s.finish ch st ws r) := by
  have hraise : s.KeepsRecord (if st = .internal then s.raise .fwError else s) := ite_holds (State.raise_keepsRecord _ _) (.refl s)
  unfold State.finish
  split
  · exact .refl s
  · dsimp only
    split
    · exact (hraise.trans (State.writeRecord_keepsRecord _ _ _ _)).trans ((State.ringHost_keepsRecord _ _ _).after ⟨rfl, rfl, rfl⟩)
    · exact (hraise.trans (State.replyFrame_keepsRecord _ _ _ _ _ _)).trans ⟨rfl, rfl, rfl⟩

theorem State.answer_keepsRecord (ch : Nat) (st : Status) (ws : List Nat) (s : State) : s.KeepsRecord (s.answer ch st ws) :=
  State.finish_keepsRecord ch st ws [] s

theorem State.ringRecord_keepsRecord (ch rt : Nat) (src : Coord) (sp : Nat) (pl : List Byte) (s : State) :
    s.KeepsRecord (s.ringRecord ch rt src sp pl) := by
  unfold State.ringRecord
  dsimp only
  split
  · exact (State.ringHost_keepsRecord _ _ _).after ⟨rfl, rfl, rfl⟩
  · refine (State.raise_keepsRecord _ _).after ((State.ringHost_keepsRecord _ _ _).after ?_)
    split <;> exact ⟨rfl, rfl, rfl⟩

theorem State.bindWin_keepsRecord (p : Nat) (d : Coord) (s : State) : s.KeepsRecord (s.bindWin p d).2 := by
  unfold State.bindWin
  split
  · exact .refl s
  · dsimp only
    split <;> exact ⟨rfl, rfl, rfl⟩

theorem State.sendWindowed_keepsRecord (p : Nat) (f : Frame) (s : State) : s.KeepsRecord (s.sendWindowed p f) := by
  have hbind := State.bindWin_keepsRecord p f.dst s
  unfold State.sendWindowed
  split
  · exact ⟨rfl, rfl, rfl⟩
  · split
    case h_1 i u h => rw [h] at hbind; exact hbind.trans ((State.inject_keepsRecord _ _).after ⟨rfl, rfl, rfl⟩)
    case h_2 u h => rw [h] at hbind; exact hbind.trans ⟨rfl, rfl, rfl⟩

theorem State.serveTo_keepsRecord (p : Nat) (host : Bool) (dst : Coord) (dstPart : Nat) (rcd : List Byte) (s : State) :
    s.KeepsRecord (s.serveTo p host dst dstPart rcd) := by
  unfold State.serveTo
  exact ite_holds (State.ringRecord_keepsRecord _ _ _ _ _ _) (ite_holds ⟨rfl, rfl, rfl⟩ (State.sendWindowed_keepsRecord _ _ _))

theorem State.rejectEntry_keepsRecord (p i : Nat) (r : Reject) (s : State) : s.KeepsRecord (s.rejectEntry p i r) :=
  State.KeepsRecord.trans (State.serveTo_keepsRecord _ _ _ _ _ s) ⟨rfl, rfl, rfl⟩

theorem State.forAll_keepsRecord {α : Type} (l : List α) (f : α → State → State) (s : State)
    (h : ∀ x ∈ l, ∀ t : State, t.KeepsRecord (f x t)) : s.KeepsRecord (forAll l f s) :=
  forAll_inv s.KeepsRecord l f s (.refl s) fun x hx t ht => ht.trans (h x hx t)

/-- A halt's rejects change no self-test record (R330). -/
theorem State.abandonBatches_keepsRecord (p : Nat) (s : State) : s.KeepsRecord (s.abandonBatches p) := by
  unfold State.abandonBatches
  refine State.KeepsRecord.trans (State.KeepsRecord.trans (State.forAll_keepsRecord _ _ s fun b _ t => ?sealed)
    (State.forAll_keepsRecord _ _ _ fun i _ t => ?forming)) ⟨rfl, rfl, rfl⟩
  case forming => exact (State.rejectEntry_keepsRecord _ _ _ t).trans ⟨rfl, rfl, rfl⟩
  case sealed =>
    refine (State.forAll_keepsRecord _ _ t fun r _ u => ?_).trans ⟨rfl, rfl, rfl⟩
    split
    · exact (State.rejectEntry_keepsRecord _ _ _ u).trans ⟨rfl, rfl, rfl⟩
    · exact ⟨rfl, rfl, rfl⟩
    · exact .refl u

theorem State.haltNow_keepsRecord (p : Nat) (st : Status) (s : State) : s.KeepsRecord (s.haltNow p st) :=
  (State.ringHost_keepsRecord _ _ _).after ((State.raise_keepsRecord _ _).after ((State.abandonBatches_keepsRecord p s).trans ⟨rfl, rfl, rfl⟩))

/-! ### Entry into Safe Listen (R400) -/

/-- The entry into Safe Listen ends every pattern, each with its log entry. -/
def State.listenHalts (s : State) : State :=
  forAll (allParts.filter fun p => (s.getPart p).live) (fun p s => (s.haltNow p .internal).log { kind := 4, code := .internal, part := p }) s

/-- Then the commands in their background phase complete. -/
def State.listenAnswers (s : State) : State :=
  forAll (List.range 72) (fun c s =>
    match (s.getChan c).held with
    | some h => if h.stepped then s.answer c .safeListen [] else s
    | none => s) s

/-- Then the package's work is gone. -/
def State.listenDrops (s : State) : State :=
  { s with
    aon := { s.aon with phase := .safeListen, park := .no, parkDue := false, listenDue := none }
    test := { s.test with active := false, full := true, byCommand := none }
    admissions := [], loading := none, ctxWaits := [], regulate := [], waking := [], part := [], far := [], ctx := [], frond := [], store := [], localStore := []
    cmap := none
    links := { s.links with planCh := none, checking := false, win := [], credits := [], selvNext := none
                            port := s.links.port.map fun (e : Nat × Port) => (e.1, e.2.dead) }
    anns := { s.anns with held := [] }
    rate := { s.rate with locals := [], ready := none } }

/-- The entry into Safe Listen, in its steps. -/
theorem State.enterSafeListen_eq (s : State) :
    s.enterSafeListen = (s.listenHalts.listenAnswers.listenDrops.switchDomains).raise .selftestFail := by
  unfold State.enterSafeListen
  extract_lets s1 s2
  have h : s2 = s.listenHalts.listenAnswers := rfl
  rw [← h]
  clear_value s2
  rfl

theorem State.listenHalts_keepsRecord (s : State) : s.KeepsRecord s.listenHalts :=
  State.forAll_keepsRecord _ _ s fun _ _ _ => (State.log_keepsRecord _ _).after (State.haltNow_keepsRecord _ _ _)

theorem State.listenAnswers_keepsRecord (s : State) : s.KeepsRecord s.listenAnswers := by
  refine State.forAll_keepsRecord _ _ s fun c _ t => ?_
  split
  · exact ite_holds (State.answer_keepsRecord _ _ _ t) (.refl t)
  · exact .refl t

theorem State.listenAnswers_faults (s : State) : s.listenAnswers.faults = s.faults := by
  refine forAll_keeps State.faults _ _ s fun c _ t => ?_
  split
  · exact @ite_holds _ (fun u : State => u.faults = t.faults) _ _ _ _ (by rw [State.answer_frame]) rfl
  · rfl

/-- With no pattern live the entry into Safe Listen halts none. -/
theorem State.listenHalts_of_none_live {s : State} (h : ∀ p, p < 64 → (s.getPart p).live = false) : s.listenHalts = s := by
  have hnil : allParts.filter (fun p => (s.getPart p).live) = [] := by
    rw [List.filter_eq_nil_iff]
    intro p hp
    simp [h p (List.mem_range.1 hp)]
  rw [State.listenHalts, hnil, forAll_nil]

/-- Clearing a frond group of a package that holds nothing leaves it as it is. -/
theorem State.clearGroup_emptied (g : Nat) {s : State} (h : s.emptied) : s.clearGroup g = s := by
  obtain ⟨-, -, hfrond, -, hstore, hlocal⟩ := h
  refine forAll_inv (fun t => t = s) _ _ s rfl ?_
  rintro f - t rfl
  have hupd : (t.updFrond f fun _ => {}) = t := by
    rw [State.updFrond, hfrond, show Tab.upd {} ([] : Tab Frond) f (fun _ => {}) = [] by simp [Tab.upd, Tab.set, Tab.del], ← hfrond]
  have hs : t.store.zero (storeKey f 0) 4194304 = t.store := by rw [hstore]; rfl
  have hl : t.localStore.zero (localKey f 0 0) (2048 * 528) = t.localStore := by rw [hlocal]; rfl
  rw [hupd, hs, hl]

/-- Switching a domain of a package that holds nothing changes the domain states alone. -/
theorem State.switchDom_emptied (d : Nat) (goal : Dom) {s : State} (h : s.emptied) :
    s.switchDom d goal = { s with dom := (s.switchDom d goal).dom } := by
  have hloses : s.domLoses d = s := by
    unfold State.domLoses
    split
    · exact State.clearGroup_emptied d h
    · split
      · rw [← h.2.1]
      · rfl
  unfold State.switchDom
  split
  case h_6 => rw [hloses]; rfl
  all_goals rfl

theorem State.switchDomains_emptied {s : State} (h : s.emptied) : s.switchDomains = { s with dom := s.switchDomains.dom } := by
  refine forAll_inv (fun t => t = { s with dom := t.dom }) _ _ s rfl fun d _ t ht => ?_
  have ht' : t.emptied := by rw [ht]; exact h
  refine (State.switchDom_emptied _ _ ht').trans ?_
  generalize (t.switchDom d _).dom = x
  rw [ht]

/-- The state in which the entry into Safe Listen leaves the package, but for its domain states and interrupts (R400). -/
theorem State.enterSafeListen_frame (s : State) :
    s.enterSafeListen = { s.listenHalts.listenAnswers.listenDrops with
      dom := s.enterSafeListen.dom, irq := s.enterSafeListen.irq, pcie := s.enterSafeListen.pcie, out := s.enterSafeListen.out } := by
  rw [State.enterSafeListen_eq, State.raise_frame, State.switchDomains_emptied ⟨rfl, rfl, rfl, rfl, rfl, rfl⟩]

theorem State.enterSafeListen_inSafeListen (s : State) : InSafeListen s.enterSafeListen := by
  rw [State.enterSafeListen_frame]
  exact ⟨rfl, ⟨rfl, rfl, rfl, rfl, rfl, rfl⟩, rfl, rfl, rfl, rfl, rfl, rfl, rfl, rfl, rfl, rfl⟩

theorem State.enterSafeListen_test (s : State) :
    s.enterSafeListen.test = { s.test with active := false, full := true, byCommand := none } := by
  have h := (s.listenHalts_keepsRecord.trans s.listenHalts.listenAnswers_keepsRecord).1
  rw [State.enterSafeListen_frame, ← h]
  generalize s.listenHalts.listenAnswers = u
  rfl

theorem State.enterSafeListen_dies (s : State) : s.enterSafeListen.dies = s.dies := by
  have h := (s.listenHalts_keepsRecord.trans s.listenHalts.listenAnswers_keepsRecord).2.1
  rw [State.enterSafeListen_frame, ← h]
  generalize s.listenHalts.listenAnswers = u
  rfl

theorem State.enterSafeListen_caused {s : State} (h : s.irq.status.length = 11) : s.enterSafeListen.caused .selftestFail := by
  have hk := (s.listenHalts_keepsRecord.trans s.listenHalts.listenAnswers_keepsRecord).2.2
  rw [State.enterSafeListen_eq, State.switchDomains_emptied ⟨rfl, rfl, rfl, rfl, rfl, rfl⟩]
  rw [h] at hk
  revert hk
  generalize s.listenHalts.listenAnswers = u
  exact fun hk => State.raise_caused .selftestFail hk

theorem State.enterSafeListen_faults {s : State} (h : ∀ p, p < 64 → (s.getPart p).live = false) : s.enterSafeListen.faults = s.faults := by
  rw [State.enterSafeListen_frame, ← s.listenAnswers_faults, State.listenHalts_of_none_live h]
  generalize s.listenAnswers = u
  rfl

/-! ### A failing self-test (R396, R399) -/

/-- The record of a self-test that fails, before the log and Safe Listen. -/
def State.failRecord (reason unitKind unit : Nat) (s : State) : State :=
  { s with test := { s.test with
    result := 2, reason := reason, unitKind := unitKind, unit := unit, active := false
    ticks := s.test.ticks.set (s.test.phase - 1) (s.now - s.test.began) } }

section
variable (reason kind unit : Nat) (s : State)

/-- The SELFTEST entry of the log (R430). -/
def State.failEntry : LogArgs :=
  { kind := 5, code := .safeListen, unitKind := kind, unit := unit, detail := [⟨0, 1, s.test.phase⟩, ⟨1, 1, reason⟩] }

theorem State.testFail_eq :
    s.testFail reason kind unit = ((s.failRecord reason kind unit).log (s.failEntry reason kind unit)).enterSafeListen := rfl

theorem State.testFail_test : (s.testFail reason kind unit).test = { (s.failRecord reason kind unit).test with full := true, byCommand := none } := by
  rw [State.testFail_eq, State.enterSafeListen_test, (State.log_keepsRecord _ _).1]
  rfl

theorem State.testFail_dies : (s.testFail reason kind unit).dies = s.dies := by
  rw [State.testFail_eq, State.enterSafeListen_dies, (State.log_keepsRecord _ _).2.1]
  rfl

theorem State.testFail_caused (h : s.irq.status.length = 11) : (s.testFail reason kind unit).caused .selftestFail :=
  State.enterSafeListen_caused ((State.log_keepsRecord _ _).2.2.trans h)

theorem State.testFail_newest (h : ∀ p, p < 64 → (s.getPart p).live = false) :
    (s.testFail reason kind unit).newest = some ((s.failRecord reason kind unit).entry (s.failEntry reason kind unit)) := by
  rw [State.testFail_eq, State.newest, State.enterSafeListen_faults fun p hp => by rw [State.log_getPart]; exact h p hp]
  exact State.log_newest _ _

/-- A failing self-test leaves what the record and Safe Listen hold then. -/
theorem State.testFail_selfTestFailed : SelfTestFailed s (s.testFail reason kind unit) reason kind unit := by
  refine ⟨State.enterSafeListen_inSafeListen _, ?_, ?_, ?_, ?_, ?_, ?_, State.testFail_caused _ _ _ s, fun h => ?entry⟩
  case entry =>
    refine ⟨_, State.testFail_newest _ _ _ s h, rfl, rfl, rfl, rfl, rfl, ?_, ?_⟩
    · exact fld_record_head 0 1 _ _ (by omega)
    · exact (fld_record_skip _ _ (by simp) (by omega)).trans (fld_record_head 1 1 _ _ (by omega))
  all_goals rw [State.testFail_test]; rfl

end

end Sys2Proof.Machine
end

section
/-! SUPPORT. Die bring-up: changing one die, a step that is in time and one that is late, and the steps in their order. -/

namespace Sys2Proof.Machine

/-! ### One die -/

section
variable {s : State} {r : Nat} {f : Die → Die}

theorem State.getDie_updDie_same (h : r < s.dies.die.length) : (s.updDie r f).getDie r = f (s.getDie r) := nth_modify_same h

theorem State.getDie_updDie_ne {k : Nat} (h : k ≠ r) : (s.updDie r f).getDie k = s.getDie k := nth_modify_ne h

/-- A change of one die changes that die alone. -/
theorem State.updDie_one (h : r < s.dies.die.length) :
    (s.updDie r f).getDie r = f (s.getDie r) ∧ (∀ k, k ≠ r → (s.updDie r f).getDie k = s.getDie k) ∧
      s.updDie r f = { s with dies := { s.dies with die := (s.updDie r f).dies.die } } :=
  ⟨State.getDie_updDie_same h, fun _ => State.getDie_updDie_ne, rfl⟩

end

/-! ### Steps in time and late steps (R30) -/

section
variable {s : State} {w : BringupStep}

theorem State.inBringup_of (ha : s.test.active = true) (hp : s.test.phase = 3) : s.inBringup = true := by
  simp [State.inBringup, ha, hp]

/-- A step within its bound after the first release is not overdue. -/
theorem State.overdue_of_le {first : Nat} (hf : (s.getDie 0).released = some first) (h : s.aon.ticks ≤ first + bringupBound w) :
    s.overdue w = false := by
  have hle : ¬ first + bringupBound w < s.now := Nat.not_lt.2 h
  simp [State.overdue, hf, hle]

/-- A step that is not done and whose bound has passed is overdue. -/
theorem State.overdue_of_lt {first : Nat} (hb : s.inBringup = true) (hf : (s.getDie 0).released = some first) (hd : s.stepDone w = false)
    (h : first + bringupBound w < s.aon.ticks) : s.overdue w = true := by
  simp [State.overdue, hf, hb, hd, State.now, h]

theorem State.inTime_of_not_overdue {f : State → State} (h : s.overdue w = false) : s.inTime w f = f s := by
  simp [State.inTime, h]

/-- A late step fails the self-test as its time-out does. -/
theorem State.inTime_of_overdue {f : State → State} (h : s.overdue w = true) :
    s.inTime w f = s.testFail 0x0A (bringupUnit w).1 (bringupUnit w).2 := by
  simp [State.inTime, State.bringupTimeout, h]

theorem exec_bringupTimeout (h : s.overdue w = true) :
    exec (.bringupTimeout w) s = .next (s.testFail 0x0A (bringupUnit w).1 (bringupUnit w).2) :=
  congrArg Host.Outcome.next (if_pos h)

end

/-! ### The steps -/

section
variable {s : State} {r : Nat}

/-- The next die to release is the lowest that is held. -/
theorem exec_dieRelease (hb : s.inBringup = true) (hr : r < 4)
    (hprev : ∀ k, k < r → ∃ at_, (s.getDie k).released = some at_ ∧ at_ + 250 ≤ s.aon.ticks) (hheld : (s.getDie r).released = none)
    (hin : s.overdue (.release r) = false) :
    exec .dieRelease s = .next (s.updDie r fun d => { d with released := some s.aon.ticks }) := by
  have hfind : (List.range 4).find? (fun r => (s.getDie r).released.isNone) = some r := by
    rw [List.find?_range_eq_some]
    refine ⟨by simp [hheld], List.mem_range.2 hr, fun k hk => ?_⟩
    obtain ⟨at_, hat, -⟩ := hprev k hk
    simp [hat]
  have hdue : s.releaseDue r = true := by
    cases r with
    | zero => rfl
    | succ k =>
      obtain ⟨at_, hat, hle⟩ := hprev k k.lt_succ_self
      simp [State.releaseDue, hat, State.now, hle]
  show Host.Outcome.next s.dieRelease = _
  simp only [State.dieRelease, hfind, hb, hdue, and_self, if_true, State.inTime_of_not_overdue hin]
  rfl

theorem exec_diePllLock (hb : s.inBringup = true) (hrel : (s.getDie r).released.isSome = true) :
    exec (.diePllLock r) s = .next (s.inTime (.pll r) (State.updDie r fun d => { d with pll := true })) :=
  congrArg Host.Outcome.next (if_pos ⟨hb, hrel⟩)

theorem exec_dieFirmwareLoaded (hb : s.inBringup = true) (hcap : ∀ k, k < 4 → (s.getDie k).cap.isSome = true) :
    exec (.dieFirmwareLoaded r) s = .next (s.inTime (.firmware r) (State.updDie r fun d => { d with firmware := true })) :=
  congrArg Host.Outcome.next (if_pos ⟨hb, List.all_eq_true.2 fun k hk => hcap k (List.mem_range.1 hk)⟩)

theorem exec_hubLinkUp (hb : s.inBringup = true) (hpll : (s.getDie r).pll = true) (hup : (s.getDie r).hubUp = false) :
    exec (.hubLinkUp r) s = .next (s.inTime (.hubLink r) fun s => (s.updDie r fun d => { d with hubUp := true }).capQuery r) :=
  congrArg Host.Outcome.next (if_pos ⟨hb, hpll, by simp [hup]⟩)

/-- A die that has been queried with a tag (R23). -/
def Die.queried (tag now : Nat) (d : Die) : Die := { d with tag := tag, queries := d.queries + 1, queryAt := now }

/-- A capability query over a hub link that carries traffic, with nothing of its class waiting, goes at once with the next tag (R20, R23). -/
theorem State.capQuery_goes {tag : Nat} (htag : tag = ((s.getDie r).tag + 1) % 256) (hr : r < 4) (hlen : s.dies.die.length = 4)
    (hup : (s.getDie r).hubUp = true) (hlink : Tab.get .up s.dies.link r = .up) (hq : Tab.get [] s.dies.odp (4 * r + 3) = []) :
    s.capQuery r = (s.updDie r (Die.queried tag s.aon.ticks)).emit (.capQuery r tag) := by
  have hdie := State.getDie_updDie_same (s := s) (r := r) (f := Die.queried tag s.aon.ticks) (by omega)
  have hodp : (s.updDie r (Die.queried tag s.aon.ticks)).dieLink r = .up := by
    rw [State.dieLink, State.linkTrained, if_pos hr, hdie, if_pos (by exact hup)]
    exact hlink
  subst htag
  exact if_pos ⟨hodp, hq⟩

/-- A hub link that comes up in time sends the die its first capability query (R23, R29). -/
theorem exec_hubLinkUp_inTime {tag : Nat} (htag : tag = ((s.getDie r).tag + 1) % 256) (hb : s.inBringup = true) (hr : r < 4)
    (hlen : s.dies.die.length = 4) (hpll : (s.getDie r).pll = true) (hup : (s.getDie r).hubUp = false)
    (hin : s.overdue (.hubLink r) = false) (hlink : Tab.get .up s.dies.link r = .up) (hq : Tab.get [] s.dies.odp (4 * r + 3) = []) :
    exec (.hubLinkUp r) s = .next (((s.updDie r fun d => { d with hubUp := true }).updDie r (Die.queried tag s.aon.ticks)).emit
      (.capQuery r tag)) := by
  have hdie := State.getDie_updDie_same (s := s) (r := r) (f := fun d => { d with hubUp := true }) (by omega)
  rw [exec_hubLinkUp hb hpll hup, State.inTime_of_not_overdue hin]
  have hlen' : (s.updDie r fun d => { d with hubUp := true }).dies.die.length = 4 := (List.length_modify ..).trans hlen
  exact congrArg _ (State.capQuery_goes (by rw [hdie]; exact htag) hr hlen' (by rw [hdie]) hlink hq)

/-- With one half-partner link up, both are exactly when the other is. -/
theorem all_set_half {l : List Bool} {h : Nat} (hl : l.length = 2) (hh : h < 2) : (l.set h true).all id = nth false l (1 - h) := by
  match l, hl with
  | [a, b], _ =>
    obtain rfl | rfl : h = 0 ∨ h = 1 := by omega
    · simp [nth]
    · simp [nth]

/-- The first half-partner link to come up marks itself (R30). -/
theorem State.halfUp_one {h : Nat} (hh : h < 2) (hlen : s.dies.half.length = 2) (hother : nth false s.dies.half (1 - h) = false) :
    s.halfUp h = { s with dies := { s.dies with half := s.dies.half.set h true } } := by
  refine if_neg fun hall => ?_
  rw [← all_set_half hlen hh] at hother
  exact absurd (hall.symm.trans hother) (by decide)

/-- The dies with their counter copies aligned (R17, R30). -/
def State.alignedDies (s : State) : Dies :=
  { s.dies with half := [true, true], aligned := true, die := s.dies.die.map fun (d : Die) => { d with stitchCopy := s.sync.stitch } }

/-- The second half-partner link aligns the counter copies, and phase 3 passes (R30). -/
theorem State.halfUp_both {h : Nat} (hh : h < 2) (hlen : s.dies.half.length = 2) (hother : nth false s.dies.half (1 - h) = true) :
    s.halfUp h = State.phasePass { s with dies := s.alignedDies } := by
  have hall : (s.dies.half.set h true).all id = true := (all_set_half hlen hh).trans hother
  have hset : s.dies.half.set h true = [true, true] := by
    match hl : s.dies.half.set h true, (List.length_set (i := h) (a := true)).trans hlen with
    | [a, b], _ => rw [hl] at hall; simpa using hall
  simp [State.halfUp, hset, State.alignedDies, State.stitch]

/-- Phase 3 of a self-test from reset is followed by phase 4 (R396). -/
theorem State.phasePass_phase3 (hp : s.test.phase = 3) (hc : s.test.byCommand = none) :
    s.phasePass = { s with test := { s.test with
      ticks := s.test.ticks.set 2 (s.aon.ticks - s.test.began), phase := 4, began := s.aon.ticks } } := by
  simp [State.phasePass, hp, hc, phaseAfter, State.now]

theorem exec_halfPartnerLinkUp {h : Nat} (hb : s.inBringup = true) (hh : h < 2) (h0 : (s.getDie (2 * h)).firmware = true)
    (h1 : (s.getDie (2 * h + 1)).firmware = true) (hin : s.overdue (.half h) = false) (hph : s.overdue .phase = false) :
    exec (.halfPartnerLinkUp h) s = .next (s.halfUp h) := by
  refine (congrArg Host.Outcome.next (if_pos ⟨hb, hh, h0, h1⟩)).trans ?_
  rw [State.inTime_of_not_overdue hin, State.inTime_of_not_overdue hph]

end

/-- Settles O10, step by step: release, PLL lock, hub link, firmware and a late PLL lock, the half-partner links, and the time-out. -/
theorem dieBringupRunsInOrder : Obligations.DieBringupRunsInOrder := by
  unfold Obligations.DieBringupRunsInOrder
  refine ⟨?release, fun s r first ha hp hr hlen hf => ⟨?pll, ?hubLink, ?firmware, ?late⟩,
    fun s h first ha hp hc hlen hhalf hh h0 h1 hf hle => ⟨?both, ?one⟩, ?timeout⟩
  case release =>
    intro s r ha hp hr hlen hprev hheld hle
    have hin : s.overdue (.release r) = false := by
      cases hf : (s.getDie 0).released with
      | none => simp [State.overdue, hf]
      | some first => exact State.overdue_of_le hf (hle first hf)
    exact ⟨_, exec_dieRelease (State.inBringup_of ha hp) hr hprev hheld hin, State.updDie_one (by omega)⟩
  case pll =>
    intro hrel hle
    have hin : s.overdue (.pll r) = false := State.overdue_of_le hf (by simp only [bringupBound]; omega)
    exact ⟨_, (exec_diePllLock (State.inBringup_of ha hp) hrel).trans (congrArg _ (State.inTime_of_not_overdue hin)), State.updDie_one (hlen ▸ hr)⟩
  case hubLink =>
    intro hpll hup hle hlink hq
    have hin : s.overdue (.hubLink r) = false := State.overdue_of_le hf (by simp only [bringupBound]; omega)
    refine ⟨_, exec_hubLinkUp_inTime rfl (State.inBringup_of ha hp) hr hlen hpll hup hin hlink hq, ?_, fun k hk => ?_, rfl⟩
    · exact (State.getDie_updDie_same ((List.length_modify ..).symm ▸ by omega)).trans
        (by rw [State.getDie_updDie_same (by omega)]; rfl)
    · exact (State.getDie_updDie_ne hk).trans (State.getDie_updDie_ne hk)
  case firmware =>
    intro hcap hle
    have hin : s.overdue (.firmware r) = false := State.overdue_of_le hf hle
    exact ⟨_, (exec_dieFirmwareLoaded (State.inBringup_of ha hp) hcap).trans (congrArg _ (State.inTime_of_not_overdue hin)), State.updDie_one (hlen ▸ hr)⟩
  case late =>
    intro hrel hpll hlt
    have hb := State.inBringup_of ha hp
    have hlate : s.overdue (.pll r) = true :=
      State.overdue_of_lt hb hf (by simp [State.stepDone, hr, hpll]) (by simp only [bringupBound]; omega)
    exact ⟨_, (exec_diePllLock hb hrel).trans (congrArg _ (State.inTime_of_overdue hlate)), State.testFail_selfTestFailed _ _ _ s⟩
  case both =>
    intro hother
    have hexec := exec_halfPartnerLinkUp (State.inBringup_of ha hp) hh h0 h1 (State.overdue_of_le hf hle)
      (State.overdue_of_le hf (hle.trans (by simp [bringupBound])))
    rw [State.halfUp_both hh hhalf hother, State.phasePass_phase3 (s := { s with dies := s.alignedDies }) hp hc] at hexec
    refine ⟨_, hexec, rfl, rfl, rfl, rfl, fun r hr => ?_, rfl⟩
    have hi : r < s.dies.die.length := by omega
    simp [State.getDie, nth, State.alignedDies, hi]
  case one =>
    intro hother
    have hexec := exec_halfPartnerLinkUp (State.inBringup_of ha hp) hh h0 h1 (State.overdue_of_le hf hle)
      (State.overdue_of_le hf (hle.trans (by simp [bringupBound])))
    rw [State.halfUp_one hh hhalf hother] at hexec
    exact ⟨_, hexec, nth_set_same (by omega), (nth_set_ne (by omega)).trans hother, rfl⟩
  case timeout =>
    intro s w first ha hp hf hdone hlt
    exact ⟨_, exec_bringupTimeout (State.overdue_of_lt (State.inBringup_of ha hp) hf hdone hlt), State.testFail_selfTestFailed _ _ _ s⟩

end Sys2Proof.Machine
end

section
/-! SUPPORT. The capability exchange: what a reply and a time-out do, and the first die that fails admission. -/

namespace Sys2Proof.Machine

/-- A search along a range stops at the first number that gives something. -/
theorem findSome?_range_of_first {α : Type} {f : Nat → Option α} {n r : Nat} {x : α} (hr : r < n) (hx : f r = some x)
    (hbefore : ∀ k, k < r → f k = none) : (List.range n).findSome? f = some x := by
  obtain ⟨m, rfl⟩ : ∃ m, n = r + (m + 1) := ⟨n - r - 1, by omega⟩
  have hnone : (List.range r).findSome? f = none := List.findSome?_eq_none_iff.2 fun k hk => hbefore k (List.mem_range.1 hk)
  rw [List.range_add, List.findSome?_append, hnone, List.range_succ_eq_map, List.map_cons, Nat.add_zero,
    List.findSome?_cons_of_isSome (by simp [hx]), hx]
  rfl

section
variable {s : State} {r : Nat}

/-- A die that has answered with a block (R23, R24). -/
def Die.answered (b : List Byte) (d : Die) : Die := { d with cap := some (slice b 0 64), odp := min 0x0102 (fld b 0 2) }

/-- The latest query's reply, in time, is kept and the die set is judged (R23, R25). -/
theorem exec_capabilityReply {tag : Nat} {b : List Byte} (hb : s.inBringup = true) (hup : (s.getDie r).hubUp = true)
    (hcap : (s.getDie r).cap = none) (htag : tag = (s.getDie r).tag) (hin : s.overdue .admission = false) :
    exec (.capabilityReply r tag b) s = .next ((s.updDie r (Die.answered b)).dieAdmission none) :=
  (congrArg Host.Outcome.next (if_pos ⟨hb, hup, hcap, htag⟩)).trans (congrArg _ (State.inTime_of_not_overdue hin))

/-- A reply to an earlier query does not count (R23). -/
theorem exec_capabilityReply_stale {tag : Nat} {b : List Byte} (htag : tag ≠ (s.getDie r).tag) : exec (.capabilityReply r tag b) s = .next s :=
  congrArg Host.Outcome.next (if_neg fun h => htag h.2.2.2)

/-- A query's time-out does not come early (R23). -/
theorem exec_capabilityQueryTimeout_early (h : s.aon.ticks < (s.getDie r).queryAt + 2500) : exec (.capabilityQueryTimeout r) s = .next s :=
  congrArg Host.Outcome.next (if_neg fun hc => absurd hc.2.2.2 (Nat.not_le.2 h))

/-- Silence leads to another query, or after the third to the verdict (R23). -/
theorem exec_capabilityQueryTimeout (hb : s.inBringup = true) (hup : (s.getDie r).hubUp = true) (hcap : (s.getDie r).cap = none)
    (hlate : (s.getDie r).queryAt + 2500 ≤ s.aon.ticks) :
    exec (.capabilityQueryTimeout r) s = .next (if (s.getDie r).queries < 3 then s.capQuery r else s.dieAdmission (some r)) :=
  congrArg Host.Outcome.next (if_pos ⟨hb, hup, hcap, hlate⟩)

/-! ### Admission (R25) -/

/-- While a die has not answered, and none is silent, the set is not judged. -/
theorem State.dieAdmission_of_open {k : Nat} (hk : k < 4) (hcap : (s.getDie k).cap = none) : s.dieAdmission none = s := by
  refine if_neg ?_
  rintro (h | h)
  · cases h
  · have := List.all_eq_true.1 h k (List.mem_range.2 hk)
    simp [hcap] at this

/-- A set of which no die fails is admitted. -/
theorem State.dieAdmission_of_pass (h : s.admissionFails none = none) : s.dieAdmission none = s := by
  unfold State.dieAdmission
  rw [h]
  exact ite_self s

/-- Once every die has answered, or one is silent, the first die that fails fails the self-test. -/
theorem State.dieAdmission_of_fail {silent : Option Nat} {k reason : Nat}
    (h : silent.isSome = true ∨ ∀ k, k < 4 → (s.getDie k).cap.isSome = true) (hf : s.admissionFails silent = some (k, reason)) :
    s.dieAdmission silent = s.admissionFail k reason := by
  unfold State.dieAdmission
  rw [hf]
  exact if_pos (h.imp_right fun hall => List.all_eq_true.2 fun k hk => hall k (List.mem_range.1 hk))

/-- Every block passes: no die fails. -/
theorem State.admissionFails_none {base : List Byte} (h0 : (s.getDie 0).cap = some base) (hbase : base ≠ [])
    (h : ∀ k, k < 4 → ∃ c, (s.getDie k).cap = some c ∧ dieCheck base c = 0) : s.admissionFails none = none := by
  refine List.findSome?_eq_none_iff.2 fun k hk => ?_
  obtain ⟨c, hc, hok⟩ := h k (List.mem_range.1 hk)
  simp [h0, hbase, hc, hok]

/-- The one block that fails a check names its die and the check. -/
theorem State.admissionFails_one {base b : List Byte} (h0 : (s.getDie 0).cap = some base) (hbase : base ≠ []) (hr : r < 4)
    (hb : (s.getDie r).cap = some b) (hbad : dieCheck base b ≠ 0)
    (h : ∀ k, k < r → ∃ c, (s.getDie k).cap = some c ∧ dieCheck base c = 0) : s.admissionFails none = some (r, dieCheck base b) := by
  refine findSome?_range_of_first hr (by simp [h0, hbase, hb, hbad]) fun k hk => ?_
  obtain ⟨c, hc, hok⟩ := h k hk
  simp [h0, hbase, hc, hok]

/-- A silent die fails with NO_RESPONSE when no die before it has answered. -/
theorem State.admissionFails_silent (hr : r < 4) (h : ∀ k, k < r → (s.getDie k).cap = none) : s.admissionFails (some r) = some (r, 0x01) := by
  refine findSome?_range_of_first hr (if_pos rfl) fun k hk => ?_
  rw [if_neg fun he => Nat.ne_of_gt hk (Option.some.inj he), h k hk]

/-- The self-test fails on a die: Safe Listen, the record with the reason, and the dies as they were (R26). -/
theorem State.admissionFail_selfTestFailed (r reason : Nat) (s : State) :
    SelfTestFailed s (s.admissionFail r reason) reason 1 r ∧
      (r < s.test.dieReason.length → nth 0 (s.admissionFail r reason).test.dieReason r = reason) ∧ (s.admissionFail r reason).dies = s.dies := by
  refine ⟨State.testFail_selfTestFailed reason 1 r { s with test := { s.test with dieReason := s.test.dieReason.set r reason } },
    fun hr => ?_, State.testFail_dies _ _ _ _⟩
  rw [State.admissionFail, State.testFail_test]
  exact nth_set_same hr

end

/-- Settles O11: the reply that leaves others open, the last one, a stale one, and the time-out early, before and after the third query. -/
theorem capabilityExchange : Obligations.CapabilityExchange := by
  unfold Obligations.CapabilityExchange
  intro s r ha hp hr hlen hup hcap
  have hb := State.inBringup_of ha hp
  have hi : r < s.dies.die.length := by omega
  refine ⟨fun tag b htag hbl hle => ?reply, fun tag b htag => exec_capabilityReply_stale htag, exec_capabilityQueryTimeout_early,
    fun hlate hq hlink hodp => ?again, fun hlate hq hbefore => ?silent⟩
  case reply =>
    have hin : s.overdue .admission = false := by
      cases hf : (s.getDie 0).released with
      | none => simp [State.overdue, hf]
      | some first => exact State.overdue_of_le hf (hle first hf)
    have hexec := exec_capabilityReply (b := b) hb hup hcap htag hin
    have hans : Die.answered b (s.getDie r) = { s.getDie r with cap := some b, odp := min 0x0102 (fld b 0 2) } := by
      rw [Die.answered, slice_of_le (by omega), List.drop_zero, List.take_of_length_le (by omega)]
    have hone := State.updDie_one (f := Die.answered b) hi
    rw [hans] at hone
    generalize s.updDie r (Die.answered b) = u at hexec hone
    obtain ⟨hsame, hother, hframe⟩ := hone
    have hcapr : (u.getDie r).cap = some b := by rw [hsame]
    refine ⟨?_, fun base h0 h1 hbase hall => ?_⟩
    · rintro ⟨k, hk, hne, hopen⟩
      rw [State.dieAdmission_of_open hk (by rw [hother k hne]; exact hopen)] at hexec
      exact ⟨u, hexec, hsame, hother, hframe⟩
    · have hothers : ∀ k, k < 4 → k ≠ r → ∃ c, (u.getDie k).cap = some c ∧ dieCheck base c = 0 := by
        intro k hk hne
        rw [hother k hne]
        exact hall k hk hne
      have hbase0 : (u.getDie 0).cap = some base := by
        by_cases h : r = 0
        · subst h; rw [hcapr, h0 rfl]
        · rw [hother 0 (Ne.symm h)]; exact h1 h
      have hisSome : ∀ k, k < 4 → (u.getDie k).cap.isSome = true := by
        intro k hk
        by_cases h : k = r
        · rw [h, hcapr]; rfl
        · obtain ⟨c, hc, -⟩ := hothers k hk h
          rw [hc]; rfl
      refine ⟨fun hok => ?_, fun hbad => ?_⟩
      · have hnone : u.admissionFails none = none := State.admissionFails_none hbase0 hbase fun k hk => by
          by_cases h : k = r
          · exact ⟨b, h ▸ hcapr, hok⟩
          · exact hothers k hk h
        rw [State.dieAdmission_of_pass hnone] at hexec
        exact ⟨u, hexec, hsame, hother, hframe⟩
      · have hone := State.admissionFails_one hbase0 hbase hr hcapr hbad fun k hk => hothers k (by omega) (by omega)
        rw [State.dieAdmission_of_fail (.inr hisSome) hone] at hexec
        obtain ⟨hfail, hreason, hdies⟩ := State.admissionFail_selfTestFailed r (dieCheck base b) u
        refine ⟨_, hexec, ?_, ?_, ?_⟩
        · rw [hframe] at hfail ⊢; exact hfail
        · have htest : u.test = s.test := by rw [hframe]
          exact fun hl => hreason (by rw [htest, hl]; exact hr)
        · rw [State.getDie, hdies]; exact hcapr
  case again =>
    refine ⟨_, (exec_capabilityQueryTimeout hb hup hcap hlate).trans (congrArg _ ((if_pos hq).trans
      (State.capQuery_goes rfl hr hlen hup hlink hodp))), ?_⟩
    obtain ⟨hsame, hother, -⟩ := State.updDie_one (f := Die.queried (((s.getDie r).tag + 1) % 256) s.aon.ticks) hi
    exact ⟨hsame, hother, rfl⟩
  case silent =>
    have hverdict : s.dieAdmission (some r) = s.admissionFail r 0x01 :=
      State.dieAdmission_of_fail (.inl rfl) (State.admissionFails_silent hr hbefore)
    obtain ⟨hfail, hreason, -⟩ := State.admissionFail_selfTestFailed r 0x01 s
    exact ⟨_, (exec_capabilityQueryTimeout hb hup hcap hlate).trans (congrArg _ ((if_neg (by omega)).trans hverdict)), hfail,
      fun hl => hreason (by omega)⟩

end Sys2Proof.Machine
end

section
/-! SUPPORT. Running die links: the state of a link after a change, one event of a fault class, the messages that waited, and the halts of a lost
link. -/

namespace Sys2Proof.Machine

/-! ### The state of a link -/

section
variable {s t : State} {l : Nat} {v : DieLink}

/-- A link's state is the dies' alone, and not that of the messages that wait. -/
theorem State.dieLink_congr (h : t.dies = { s.dies with odp := t.dies.odp }) (k : Nat) : t.dieLink k = s.dieLink k := by
  unfold State.dieLink State.linkTrained State.getDie
  rw [h]

theorem State.setLink_dieLink_same (h : s.dieLink l ≠ .down) : (s.setLink l v).dieLink l = v := by
  have ht : s.linkTrained l = true := by
    by_contra hn
    exact h (if_neg hn)
  exact (if_pos ht).trans (Tab.get_set_same ..)

theorem State.setLink_dieLink_ne {k : Nat} (h : k ≠ l) : (s.setLink l v).dieLink k = s.dieLink k := by
  show (if s.linkTrained k then Tab.get .up (Tab.set .up s.dies.link l v) k else .down) = _
  rw [Tab.get_set_ne _ _ _ h]
  rfl

/-- What any change after setLink that leaves the dies but for messages leaves of the links. -/
theorem State.dieLinks_after_setLink (hd : t.dies = { (s.setLink l v).dies with odp := t.dies.odp }) (h : s.dieLink l ≠ .down) :
    t.dieLink l = v ∧ ∀ k, k ≠ l → t.dieLink k = s.dieLink k :=
  ⟨(State.dieLink_congr hd l).trans (State.setLink_dieLink_same h), fun k hk => (State.dieLink_congr hd k).trans (State.setLink_dieLink_ne hk)⟩

end

/-! ### One event of a class (R402) -/

section
variable {s : State} {c u lane addr : Nat}

/-- A unit's count with one more event in the window that is open, or the first of a new one (R402). -/
def FaultUnit.counted (now w : Nat) (x : FaultUnit) : FaultUnit :=
  if x.count = 0 ∨ x.start + w * 25000000 ≤ now then { x with start := now, count := 1 } else { x with count := x.count + 1 }

/-- The entry of an event, first of its window or lasting, with the count, the window and the threshold in DETAIL (R430). -/
def eventArgs (kind : Nat) (code : Status) (c u n w h lane addr : Nat) : LogArgs :=
  { kind := kind, code := code, cls := c, unitKind := classUnitKind c, unit := u
    detail := [⟨0, 4, n⟩, ⟨4, 4, w⟩, ⟨8, 4, h⟩, ⟨12, 1, lane⟩, ⟨16, 8, addr⟩] }

/-- One event of a class other than lane faults, at a unit that is not held: counted, and logged as lasting at the threshold or as the first of its
window (R402, R403, R430). -/
theorem State.faultEvent_eq {w h : Nat} {y : FaultUnit} (hheld : s.unitHeld c u = false) (hc : c ≠ 5) (hpol : s.policy c = (w, h))
    (hy : y = (Tab.get {} s.faults.unit (unitKey c u)).counted s.aon.ticks w) :
    s.faultEvent c u lane addr =
      if h ≤ y.count then
        (((s.updUnit c u fun _ => y).log (eventArgs 2 .faultLasting c u y.count w h lane addr)).raise .lasting).lastingOutcome c u lane
      else if (Tab.get {} s.faults.unit (unitKey c u)).count = 0 ∨
          (Tab.get {} s.faults.unit (unitKey c u)).start + w * 25000000 ≤ s.aon.ticks then
        (s.updUnit c u fun _ => y).log (eventArgs 1 .ok c u y.count w h lane addr)
      else s.updUnit c u fun _ => y := by
  subst hy
  simp only [State.faultEvent, hheld, hpol, hc, FaultUnit.counted, State.now, Bool.or_eq_true, beq_iff_eq, decide_eq_true_eq, false_and,
    and_false, if_false, Bool.false_eq_true]
  rfl

/-- The units of a class after a change of one. -/
theorem State.updUnit_unit (f : FaultUnit → FaultUnit) (k : Nat) :
    Tab.get {} (s.updUnit c u f).faults.unit k =
      if k = unitKey c u then f (Tab.get {} s.faults.unit (unitKey c u)) else Tab.get {} s.faults.unit k :=
  Tab.get_upd _ _ _ _ _

/-- A class without an outcome of its own counts its unit from zero again (R404). -/
theorem State.lastingOutcome_plain (h : c ≠ 2 ∧ c ≠ 5 ∧ c ≠ 10 ∧ c ≠ 11 ∧ c ≠ 12) :
    s.lastingOutcome c u lane = s.updUnit c u fun x => { x with count := 0 } := by
  simp [State.lastingOutcome, h]

end

/-! ### A loss of training (R20) -/

section
variable {s : State} {l w h : Nat} {x : FaultUnit}

/-- Class 1 holds no unit by a mark (R402). -/
theorem State.unitHeld_dieLink : s.unitHeld 1 l = (Tab.get {} s.faults.unit (unitKey 1 l)).held := by
  simp [State.unitHeld]

/-- A trained link that loses training retrains and counts one event (R20). -/
theorem exec_dieLinkTrainingLoss (hl : l < 6) (hph : s.aon.phase = .up) (hup : s.dieLink l = .up) :
    exec (.dieLinkTrainingLoss l) s = .next ((s.setLink l (.retraining s.aon.ticks)).faultEvent 1 l 0 0) :=
  congrArg Host.Outcome.next (if_pos ⟨hph, hl, hup⟩)

/-- A loss of a link that is not up is none (R20). -/
theorem exec_dieLinkTrainingLoss_down (h : s.dieLink l ≠ .up) : exec (.dieLinkTrainingLoss l) s = .next s :=
  congrArg Host.Outcome.next (if_neg fun hc => h hc.2.2)

end

/-! ### Cause bits through later entries -/

section
variable {s : State} {c : Cause}

/-- Raising a cause keeps the ones that are set (R386). -/
theorem State.raise_keeps_caused (d : Cause) (h : s.caused c) : (s.raise d).caused c := by
  unfold State.caused at h ⊢
  rw [State.raise_status]
  by_cases hg : c.group = d.group
  · have hi : c.group < s.irq.status.length := by
      by_contra hi
      simp [nth, List.getElem?_eq_none (Nat.le_of_not_lt hi)] at h
    rw [← hg, nth_modify_same hi, BitVec.getLsbD_or, h, Bool.true_or]
  · rwa [nth_modify_ne hg]

/-- The cause bits are the interrupt registers' alone. -/
theorem State.caused_withFaults (x : Faults) (h : s.caused c) : State.caused { s with faults := x } c := h

/-- A log entry keeps the causes that are set (R408). -/
theorem State.log_keeps_caused (a : LogArgs) (h : s.caused c) : (s.log a).caused c := by
  have hpush := State.caused_withFaults (s.faults.push (s.entry a)) h
  unfold State.log
  dsimp only
  split
  · exact State.raise_keeps_caused _ hpush
  · exact hpush

@[simp] theorem Faults.push_unit (f : Faults) (e : LogEntry) : (f.push e).unit = f.unit := by cases f; rfl

@[simp] theorem Faults.push_next (f : Faults) (e : LogEntry) : (f.push e).next = f.next + 1 := by cases f; rfl

theorem State.log_units (a : LogArgs) : (s.log a).faults.unit = s.faults.unit := by
  rw [State.log_faults, Faults.push_unit]

end

/-! ### Halts that fall due (R127, R430) -/

/-- A partition for which a halt has fallen due (R127). -/
def Partition.haltedDue (st : Status) (at_ : Nat) (q : Partition) : Partition :=
  if q.live = true ∧ q.run.halt = none then { q with run := { q.run with halt := some st, haltAt := at_ } } else q

/-- The first halt that falls due gives the status. -/
theorem Partition.haltedDue_twice (st : Status) (at_ : Nat) (q : Partition) : (q.haltedDue st at_).haltedDue st at_ = q.haltedDue st at_ := by
  by_cases h : q.live = true ∧ q.run.halt = none
  · simp [Partition.haltedDue, h]
  · simp [Partition.haltedDue, h]

theorem State.haltDue_getPart (p : Nat) (st : Status) (s : State) (k : Nat) :
    (s.haltDue p st).getPart k = if k = p then (s.getPart p).haltedDue st s.sync.stitch else s.getPart k := by
  unfold State.haltDue Partition.haltedDue
  split
  · exact State.getPart_updPart _ _ _ _
  · split
    · next hk => rw [hk]
    · rfl

section
variable (st : Status) (unitKind unit : Nat)

/-- One partition's halt: its entry of the log, and the halt due. -/
def State.haltLogged (p : Nat) (s : State) : State :=
  (s.log { kind := 4, code := st, part := p, unitKind := unitKind, unit := unit }).haltDue p st

theorem State.haltAllDue_eq (s : State) :
    s.haltAllDue st unitKind unit = forAll (allParts.filter fun p => (s.getPart p).live) (State.haltLogged st unitKind unit) s := rfl

/-- All that one partition's halt may change. -/
theorem State.haltLogged_frame (p : Nat) (s : State) :
    s.haltLogged st unitKind unit p = { s with
      part := (s.haltLogged st unitKind unit p).part, faults := (s.haltLogged st unitKind unit p).faults
      irq := (s.haltLogged st unitKind unit p).irq, pcie := (s.haltLogged st unitKind unit p).pcie
      out := (s.haltLogged st unitKind unit p).out } := by
  rw [State.haltLogged, State.haltDue_frame, State.log_frame]

/-- All that the halts of a list of partitions may change. -/
theorem State.haltsLogged_frame (ps : List Nat) (s : State) :
    forAll ps (State.haltLogged st unitKind unit) s = { s with
      part := (forAll ps (State.haltLogged st unitKind unit) s).part, faults := (forAll ps (State.haltLogged st unitKind unit) s).faults
      irq := (forAll ps (State.haltLogged st unitKind unit) s).irq, pcie := (forAll ps (State.haltLogged st unitKind unit) s).pcie
      out := (forAll ps (State.haltLogged st unitKind unit) s).out } := by
  refine forAll_inv (fun t => t = { s with part := t.part, faults := t.faults, irq := t.irq, pcie := t.pcie, out := t.out }) _ _ s rfl
    fun p _ t ht => ?_
  refine (State.haltLogged_frame st unitKind unit p t).trans ?_
  generalize t.haltLogged st unitKind unit p = v
  rw [ht]

theorem State.haltsLogged_getPart (ps : List Nat) (s : State) (k : Nat) :
    (forAll ps (State.haltLogged st unitKind unit) s).getPart k =
      if k ∈ ps then (s.getPart k).haltedDue st s.sync.stitch else s.getPart k := by
  induction ps generalizing s with
  | nil => rfl
  | cons p ps ih =>
    have hsync : (s.haltLogged st unitKind unit p).sync = s.sync := by rw [State.haltLogged_frame]
    have hone : (s.haltLogged st unitKind unit p).getPart k = if k = p then (s.getPart p).haltedDue st s.sync.stitch else s.getPart k := by
      rw [State.haltLogged, State.haltDue_getPart, State.log_getPart, State.log_getPart, State.log_sync]
    rw [forAll_cons, ih, hsync, hone]
    by_cases hk : k = p
    · subst hk; simp [Partition.haltedDue_twice]
    · simp [hk]

theorem State.haltsLogged_units (ps : List Nat) (s : State) :
    (forAll ps (State.haltLogged st unitKind unit) s).faults.unit = s.faults.unit :=
  forAll_keeps (fun t => t.faults.unit) ps _ s fun p _ t => by rw [State.haltLogged, State.haltDue_faults, State.log_units]

theorem State.haltsLogged_caused (c : Cause) (ps : List Nat) (s : State) (h : s.caused c) :
    (forAll ps (State.haltLogged st unitKind unit) s).caused c := by
  refine forAll_inv (fun t => t.caused c) ps _ s h fun p _ t ht => ?_
  rw [State.haltLogged, State.haltDue_frame]
  exact State.log_keeps_caused _ ht

/-- An entry of a halt, with its status and its unit (R430). -/
def LogEntry.IsHalt (e : LogEntry) : Prop := e.kind = 4 ∧ e.code = st ∧ e.unitKind = unitKind ∧ e.unit = unit

/-- The newest entry after the halts of some partitions is the last one's. -/
theorem State.haltsLogged_newest {ps : List Nat} (hne : ps ≠ []) (s : State) :
    ∃ e, (forAll ps (State.haltLogged st unitKind unit) s).newest = some e ∧ LogEntry.IsHalt st unitKind unit e := by
  have hone : ∀ (p : Nat) (t : State), ∃ e, (t.haltLogged st unitKind unit p).newest = some e ∧ LogEntry.IsHalt st unitKind unit e := by
    intro p t
    refine ⟨t.entry { kind := 4, code := st, part := p, unitKind := unitKind, unit := unit }, ?_, rfl, rfl, rfl, rfl⟩
    rw [State.newest, State.haltLogged, State.haltDue_faults]
    exact State.log_newest _ _
  cases ps with
  | nil => exact absurd rfl hne
  | cons p ps =>
    exact forAll_inv (fun t => ∃ e, t.newest = some e ∧ LogEntry.IsHalt st unitKind unit e) ps _ _ (hone p s) fun q _ t _ => hone q t

end

/-! ### The link comes back, or is lost (R20, R21) -/

section
variable {s : State} {l since : Nat}

theorem exec_dieLinkRetrainDone (h : s.dieLink l = .retraining since) :
    exec (.dieLinkRetrainDone l) s = .next (if l < 4 then (s.setLink l .up).odpResume l else s.setLink l .up) := by
  show Host.Outcome.next (s.dieLinkRetrainDone l) = _
  simp only [State.dieLinkRetrainDone, h]

/-- The messages that waited for a hub link go, class by class, and their queues are empty (R20, R22). -/
theorem State.odpResume_eq (r : Nat) (s : State) :
    (s.odpResume r).out = s.out ++ ((List.range 4).flatMap fun c => Tab.get [] s.dies.odp (4 * r + c)).map (OdpMsg.output r) ∧
      (∀ k, Tab.get [] (s.odpResume r).dies.odp k = if 4 * r ≤ k ∧ k < 4 * r + 4 then [] else Tab.get [] s.dies.odp k) ∧
      s.odpResume r = { s with dies := { s.dies with odp := (s.odpResume r).dies.odp }, out := (s.odpResume r).out } := by
  refine ⟨?_, fun k => ?_, rfl⟩
  · simp [State.odpResume, odpKey, Tab.get_set, List.range_succ_eq_map]
  · simp only [State.odpResume, odpKey, List.foldl, Tab.get_set]
    by_cases h : 4 * r ≤ k ∧ k < 4 * r + 4
    · obtain h0 | h1 | h2 | h3 : k = 4 * r ∨ k = 4 * r + 1 ∨ k = 4 * r + 2 ∨ k = 4 * r + 3 := by omega
      all_goals simp_all
    · rw [if_neg (by omega), if_neg (by omega), if_neg (by omega), if_neg (by omega), if_neg h]

/-- A link that has retrained for 1 ms is lost (R21). -/
theorem exec_dieLinkLost {u : State} (h : s.dieLink l = .retraining since) (hlate : since + 25000 ≤ s.aon.ticks)
    (hu : u = (s.setLink l .lost).raise .dieLink) :
    exec (.dieLinkLost l) s = .next (if (allParts.any fun p => (s.getPart p).live) = true then u.haltAllDue .internal 2 l
      else u.log { kind := 4, code := .internal, unitKind := 2, unit := l }) := by
  show Host.Outcome.next (s.dieLinkLost l) = _
  have hms : since + ms 1 ≤ s.now := hlate
  simp only [State.dieLinkLost, h, hms, if_true, hu]

/-- A lost link is one of the package's lost links. -/
theorem State.linkDead_of_lost (hl : l < 6) (h : s.dieLink l = .lost) : s.linkDead = true :=
  List.any_eq_true.2 ⟨l, List.mem_range.2 hl, by simp [h]⟩

end

/-- Settles O12: the CRC retry, the three kinds of loss, a further loss, the end of the retraining, and the loss of the link. -/
theorem dieLinkLossAndRetrain : Obligations.DieLinkLossAndRetrain := by
  unfold Obligations.DieLinkLossAndRetrain
  intro s l hl
  refine ⟨rfl, fun x w h hx hpol hheld hph hup => ?loss, fun since hre => exec_dieLinkTrainingLoss_down (by simp [hre]),
    fun since hre => ?done, fun since hre hlate hhigh hirq => ?lost⟩
  case loss =>
    have hnd : s.dieLink l ≠ .down := by simp [hup]
    have hexec := exec_dieLinkTrainingLoss hl hph hup
    generalize hu : s.setLink l (.retraining s.aon.ticks) = u at hexec
    have hlinks := fun (t : State) (ht : t.dies = u.dies) => State.dieLinks_after_setLink (t := t) (by rw [ht, ← hu]) hnd
    have hframe : u = { s with dies := { s.dies with link := u.dies.link } } := by rw [← hu]; rfl
    have hticks : u.aon.ticks = s.aon.ticks := by rw [hframe]
    have hfaults : u.faults = s.faults := by rw [hframe]
    have hirqs : u.irq = s.irq := by rw [hframe]
    have hcount : Tab.get {} u.faults.unit (unitKey 1 l) = x := by rw [hfaults, hx]
    have hevent := State.faultEvent_eq (s := u) (lane := 0) (addr := 0) (by rw [State.unitHeld_dieLink, hcount, hheld]) (by decide)
      (show u.policy 1 = (w, h) by rw [← hu]; exact hpol) rfl
    rw [hcount, hticks] at hevent
    rw [hevent] at hexec
    refine ⟨fun hopen hh => ?first, fun hn hin hh => ?counted, fun hn hin hh hirq => ?lasting⟩
    case first =>
      have hy : x.counted s.aon.ticks w = { start := s.aon.ticks, count := 1, held := false } := by
        rw [FaultUnit.counted, if_pos hopen, hheld]
      rw [hy, if_neg (Nat.not_le.2 hh), if_pos hopen] at hexec
      refine ⟨_, _, hexec, (hlinks _ ?_).1, (hlinks _ ?_).2, ?_, fun k hk => ?_, State.log_newest _ _, rfl, rfl, rfl, rfl, ?_, ?_⟩
      · rw [State.log_frame]; rfl
      · rw [State.log_frame]; rfl
      · rw [State.log_units, State.updUnit_unit, if_pos rfl]
      · rw [State.log_units, State.updUnit_unit, if_neg hk, hfaults]
      · rw [State.log_faults, Faults.push_next, ← hfaults]; rfl
      · rw [State.log_frame, State.updUnit_frame, hframe]
    case counted =>
      have hopen : ¬ (x.count = 0 ∨ x.start + w * 25000000 ≤ s.aon.ticks) := by omega
      have hy : x.counted s.aon.ticks w = { x with count := x.count + 1 } := if_neg hopen
      rw [hy, if_neg (Nat.not_le.2 hh), if_neg hopen] at hexec
      refine ⟨_, hexec, (hlinks _ rfl).1, (hlinks _ rfl).2, ?_, fun k hk => ?_, ?_⟩
      · rw [State.updUnit_unit, if_pos rfl]
      · rw [State.updUnit_unit, if_neg hk, hfaults]
      · rw [State.updUnit, hframe]
    case lasting =>
      have hopen : ¬ (x.count = 0 ∨ x.start + w * 25000000 ≤ s.aon.ticks) := by omega
      have hy : x.counted s.aon.ticks w = { x with count := x.count + 1 } := if_neg hopen
      rw [hy, if_pos hh, State.lastingOutcome_plain (by decide)] at hexec
      refine ⟨_, (u.updUnit 1 l fun _ => { x with count := x.count + 1 }).entry (eventArgs 2 .faultLasting 1 l (x.count + 1) w h 0 0), hexec, (hlinks _ ?_).1, (hlinks _ ?_).2, ?_, ?newest, rfl, rfl, rfl, rfl, ?detail, ?_, ?_⟩
      case newest =>
        show ((State.raise .lasting _).faults.log).getLast? = _
        rw [State.raise_faults]
        exact State.log_newest _ _
      case detail =>
        show fld (record 32 (⟨0, 4, x.count + 1⟩ :: _)) 0 4 = _
        rw [fld_record_head _ _ _ _ (by omega), show (256 : Nat) ^ 4 = 2 ^ 32 by norm_num]
      · rw [State.updUnit_frame, State.raise_frame, State.log_frame]; rfl
      · rw [State.updUnit_frame, State.raise_frame, State.log_frame]; rfl
      · rw [State.updUnit_unit, if_pos rfl]
      · rw [State.caused, State.updUnit_irq]
        refine State.raise_caused .lasting ?_
        rw [(State.log_keepsRecord _ _).2.2, State.updUnit_irq, hirqs, hirq]
      · rw [State.updUnit_frame, State.raise_frame, State.log_frame, State.updUnit_frame, hframe]
  case done =>
    have hnd : s.dieLink l ≠ .down := by simp [hre]
    have hexec := exec_dieLinkRetrainDone hre
    by_cases h4 : l < 4
    · rw [if_pos h4] at hexec
      obtain ⟨hout, hodp, hframe⟩ := State.odpResume_eq l (s.setLink l .up)
      obtain ⟨hsame, hother⟩ := State.dieLinks_after_setLink (t := (s.setLink l .up).odpResume l) (by rw [hframe]) hnd
      refine ⟨_, hexec, hsame, hother, fun h => absurd h4 (by omega), fun _ => ⟨fun c hc => ?_, fun k hk => ?_, hout, ?_⟩⟩
      · rw [hodp, if_pos (by omega)]
      · rw [hodp, if_neg (by omega)]; rfl
      · rw [hframe]; rfl
    · rw [if_neg h4] at hexec
      exact ⟨_, hexec, State.setLink_dieLink_same hnd, fun k => State.setLink_dieLink_ne, fun _ => rfl, fun h => absurd h h4⟩
  case lost =>
    have hnd : s.dieLink l ≠ .down := by simp [hre]
    have hexec := exec_dieLinkLost hre hlate rfl
    generalize hu : (s.setLink l .lost).raise .dieLink = u at hexec
    have hframe : u = { s with dies := (s.setLink l .lost).dies, irq := u.irq, pcie := u.pcie, out := u.out } := by
      rw [← hu]; exact State.raise_frame _ _
    have hcaused : u.caused .dieLink := by rw [← hu]; exact State.raise_caused _ hirq
    have hlinks := fun (t : State) (ht : t.dies = u.dies) =>
      State.dieLinks_after_setLink (t := t) (by rw [ht, hframe]) hnd
    have hfaults : u.faults = s.faults := by rw [hframe]
    have hsync : u.sync = s.sync := by rw [hframe]
    have hpart : ∀ p, u.getPart p = s.getPart p := fun p => by rw [hframe]; rfl
    have hunits : ∀ p, p ∈ allParts.filter (fun p => (u.getPart p).live) ↔ (s.getPart p).live = true := by
      intro p
      rw [List.mem_filter, hpart p]
      refine ⟨fun h => h.2, fun h => ⟨List.mem_range.2 ?_, h⟩⟩
      by_contra hp
      rw [hhigh p (by omega)] at h
      cases h
    by_cases hany : (allParts.any fun p => (s.getPart p).live) = true
    · rw [if_pos hany, State.haltAllDue_eq] at hexec
      have hne : allParts.filter (fun p => (u.getPart p).live) ≠ [] := by
        obtain ⟨p, -, hp⟩ := List.any_eq_true.1 hany
        exact List.ne_nil_of_mem ((hunits p).2 hp)
      generalize allParts.filter (fun p => (u.getPart p).live) = ps at hexec hunits hne
      have htframe := State.haltsLogged_frame .internal 2 l ps u
      obtain ⟨hsame, hother⟩ := hlinks (forAll ps (State.haltLogged .internal 2 l) u) (by rw [htframe])
      refine ⟨_, hexec, hsame, State.linkDead_of_lost hl hsame, hother, State.haltsLogged_caused _ _ _ _ _ _ hcaused, fun k => ?_,
        fun p hlive hnone => ?_, fun p hp => ?_, State.haltsLogged_newest _ _ _ hne u, ?_⟩
      · rw [State.haltsLogged_units, hfaults]
      · rw [State.haltsLogged_getPart, if_pos ((hunits p).2 hlive), hpart, hsync]
        exact if_pos ⟨hlive, hnone⟩
      · have hkept : (s.getPart p).haltedDue .internal s.sync.stitch = s.getPart p :=
          if_neg fun hc => hp.elim (fun h => by rw [h] at hc; cases hc.1) fun h => h hc.2
        rw [State.haltsLogged_getPart, hpart, hsync, hkept, ite_self]
      · generalize forAll ps _ u = t at htframe
        rw [htframe, hframe]
        rfl
    · rw [if_neg hany] at hexec
      have hnone : ∀ p, (s.getPart p).live ≠ true := fun p hp =>
        hany (List.any_eq_true.2 ⟨p, (List.mem_filter.1 ((hunits p).2 hp)).1, hp⟩)
      obtain ⟨hsame, hother⟩ := hlinks (u.log { kind := 4, code := .internal, unitKind := 2, unit := l }) (by rw [State.log_frame])
      refine ⟨_, hexec, hsame, State.linkDead_of_lost hl hsame, hother, State.log_keeps_caused _ hcaused, fun k => ?_,
        fun p hlive => absurd hlive (hnone p), fun p _ => ?_, ⟨_, State.log_newest _ _, rfl, rfl, rfl, rfl⟩, ?_⟩
      · rw [State.log_units, hfaults]
      · rw [State.log_getPart, hpart]
      · rw [State.log_frame, hframe]
        rfl

end Sys2Proof.Machine
end

section
/-! SUPPORT. The fused instructions of a step: reading and changing one, raising tokens, noting the vote, and DONE. -/

namespace Sys2Proof.Machine

/-! ### One instruction of a step -/

section
variable {s t : State} {p : Nat} {k : Nat × Nat} {c : Coll} {f : Coll → Coll}

/-- The instructions of a partition are its own alone. -/
theorem State.coll_congr (h : (t.getPart p).colls = (s.getPart p).colls) (k : Nat × Nat) : t.coll p k = s.coll p k := by
  unfold State.coll; rw [h]

theorem State.getPart_updColl (q : Nat) : (s.updColl p k f).getPart q =
    if q = p then { s.getPart p with colls := (s.getPart p).colls.map fun d => if d.key = k then f d else d } else s.getPart q :=
  State.getPart_updPart _ _ _ _

theorem State.getPart_updColl_same : (s.updColl p k f).getPart p =
    { s.getPart p with colls := (s.getPart p).colls.map fun d => if d.key = k then f d else d } := State.getPart_updPart_same _ _ _

theorem State.getPart_updColl_ne {q : Nat} (h : q ≠ p) : (s.updColl p k f).getPart q = s.getPart q := State.getPart_updPart_ne _ _ _ _ h

/-- A search by key after a change that keeps the keys. -/
theorem find?_map_ifKey (hf : ∀ d : Coll, (f d).key = d.key) (k j : Nat × Nat) (cs : List Coll) :
    (cs.map fun d => if d.key = k then f d else d).find? (fun d => d.key == j) =
      (cs.find? fun d => d.key == j).map fun d => if j = k then f d else d := by
  induction cs with
  | nil => rfl
  | cons d cs ih =>
    have hkey : (if d.key = k then f d else d).key = d.key := by split <;> simp [hf]
    simp only [List.map_cons, List.find?_cons, hkey]
    by_cases hj : d.key = j
    · subst hj; simp
    · rw [beq_eq_false_iff_ne.2 hj]; exact ih

theorem State.coll_updColl_same (hf : ∀ d : Coll, (f d).key = d.key) (h : s.coll p k = some c) :
    (s.updColl p k f).coll p k = some (f c) := by
  have hfind : (s.getPart p).colls.find? (fun d => d.key == k) = some c := h
  rw [State.coll, State.getPart_updColl_same, find?_map_ifKey hf, hfind]
  simp

theorem State.coll_updColl_ne {j : Nat × Nat} (hf : ∀ d : Coll, (f d).key = d.key) (h : j ≠ k) : (s.updColl p k f).coll p j = s.coll p j := by
  rw [State.coll, State.getPart_updColl_same, find?_map_ifKey hf]
  simp [h, State.coll]

/-- The group that an instruction names does not change with the instructions. -/
theorem State.collGroup_updColl (d : Coll) : (s.updColl p k f).collGroup p d = s.collGroup p d := by
  rw [State.collGroup, State.getPart_updColl_same]; rfl

end

/-! ### Raising tokens (R130, R131) -/

/-- From s to t wardens of frond f that stalled may have gone on: that changes their stalls and the run of the frond's partition. -/
def State.Wakes (f : Nat) (s t : State) : Prop :=
  t.getFrond f = { s.getFrond f with wait := (t.getFrond f).wait } ∧ OtherFronds s t f ∧
  (∀ q, t.getPart q = { s.getPart q with run := (t.getPart q).run }) ∧ (∀ q, s.owner f ≠ some q → t.getPart q = s.getPart q) ∧
  s.Pattern t

section
variable {s t u : State} {f p : Nat}

/-- The owner of a frond depends on what exists alone. -/
theorem State.owner_congr (h : ∀ q, t.getPart q = { s.getPart q with run := (t.getPart q).run }) (f : Nat) : t.owner f = s.owner f := by
  unfold State.owner
  congr 1
  funext q
  rw [h q]
  rfl

theorem State.Wakes.refl (f : Nat) (s : State) : s.Wakes f s := ⟨rfl, fun _ _ => rfl, fun _ => rfl, fun _ _ => rfl, .refl s⟩

theorem State.Wakes.trans (h : s.Wakes f t) (k : t.Wakes f u) : s.Wakes f u := by
  obtain ⟨h1, h2, h3, h4, h5⟩ := h
  obtain ⟨k1, k2, k3, k4, k5⟩ := k
  rw [State.owner_congr h3] at k4
  refine ⟨?_, fun g hg => (k2 g hg).trans (h2 g hg), fun q => ?_, fun q hq => (k4 q hq).trans (h4 q hq), h5.trans k5⟩
  · rw [k1, h1]
  · rw [k3 q, h3 q]

theorem State.setWait_wakes (f w : Nat) (x : Option Wait) (s : State) : s.Wakes f (s.setWait f w x) :=
  ⟨by rw [State.setWait, State.getFrond_updFrond_same], fun g hg => State.getFrond_updFrond_ne _ _ _ _ hg, fun _ => rfl, fun _ _ => rfl, rfl⟩

theorem State.updRun_wakes (h : s.owner f = some p) (g : Run → Run) : s.Wakes f (s.updRun p g) := by
  refine ⟨rfl, fun _ _ => rfl, fun q => ?_, fun q hq => ?_, rfl⟩
  · by_cases hqp : q = p
    · rw [hqp, State.updRun, State.getPart_updPart_same]
    · rw [State.updRun, State.getPart_updPart_ne _ _ _ _ hqp]
  · rw [State.updRun, State.getPart_updPart_ne]
    rintro rfl
    exact hq h

theorem State.recordIssue_wakes (h : s.owner f = some p) (es : Nat) : s.Wakes f (s.recordIssue p es) := State.updRun_wakes h _

theorem State.noteVote_wakes (h : s.owner f = some p) : s.Wakes f (s.noteVote p) := by
  unfold State.noteVote
  exact ite_holds (State.updRun_wakes h _) (.refl f s)

/-- What runs on a frond belongs to the partition that owns it. -/
theorem State.unitRuns_owner {unit : Nat} {r : FrondRec} (h : s.unitRuns f unit = some (p, r)) : s.owner f = some p ∧ (s.getPart p).pat = .running := by
  unfold State.unitRuns at h
  split at h
  · cases h
  · next q hq =>
    dsimp only at h
    split at h
    · next hrun =>
      split at h
      · cases h
        simp only [Bool.and_eq_true, beq_iff_eq] at hrun
        exact ⟨hq, hrun.1.1⟩
      · cases h
    · cases h

/-- A stalled warden that goes on is of the frond's partition. -/
theorem State.wakeWarden_wakes (f w : Nat) (s : State) : s.Wakes f (s.wakeWarden f w) := by
  have hset : ∀ x, (s.setWait f w x).owner f = s.owner f := fun _ => rfl
  unfold State.wakeWarden
  split
  · next q r es ts hrun hwait =>
    have hown := (State.unitRuns_owner hrun).1
    exact ite_holds ((State.setWait_wakes f w none s).trans (State.recordIssue_wakes ((hset _).trans hown) es)) (.refl f s)
  · next q r es hrun hwait =>
    have hown := (State.unitRuns_owner hrun).1
    have h1 := (State.setWait_wakes f w none s).trans (State.recordIssue_wakes ((hset _).trans hown) es)
    have h2 := h1.trans (State.updRun_wakes ((State.owner_congr h1.2.2.1 f).trans hown) fun r =>
      { r with committed := r.committed ++ [16 * f + w] })
    exact ite_holds (h2.trans (State.noteVote_wakes ((State.owner_congr h2.2.2.1 f).trans hown))) (.refl f s)
  · exact .refl f s

theorem State.wakeFrond_wakes (f : Nat) (s : State) : s.Wakes f (s.wakeFrond f) :=
  forAll_inv (s.Wakes f) _ _ s (.refl f s) fun w _ _ h => h.trans (State.wakeWarden_wakes f w _)

/-- Where no warden stalls a token only counts (R131). -/
theorem State.raiseToken_of_no_wait (h : (s.getFrond f).wait = []) (k : Nat) : s.raiseToken f k = s.countToken f k := by
  have hnone : (s.countToken f k).stalledWardens f = [] := by
    rw [State.stalledWardens, State.countToken, State.getFrond_updFrond_same, h]; rfl
  rw [State.raiseToken, State.wakeFrond, hnone, forAll_nil]

theorem State.raiseToken_wakes (f k : Nat) (s : State) : (s.countToken f k).Wakes f (s.raiseToken f k) := State.wakeFrond_wakes f _

/-- What is left of a frond when a token has counted. -/
theorem State.countToken_getFrond (f k : Nat) (s : State) :
    (s.countToken f k).getFrond f = { s.getFrond f with token := Tab.upd 0 (s.getFrond f).token k fun c => (c + 1) % 2 ^ 32 } :=
  State.getFrond_updFrond_same _ _ _

/-- A token raised once counts once, whatever wardens go on (R131). -/
theorem State.raiseToken_count (f k : Nat) (s : State) (j : Nat) :
    Tab.get 0 ((s.raiseToken f k).getFrond f).token j =
      if j = k then (Tab.get 0 (s.getFrond f).token k + 1) % 2 ^ 32 else Tab.get 0 (s.getFrond f).token j := by
  rw [(State.raiseToken_wakes f k s).1, State.countToken_getFrond]
  exact Tab.get_upd 0 (s.getFrond f).token k j fun c => (c + 1) % 2 ^ 32

/-- What an operation of a frond that raises a token does besides (R61, R130, R132). -/
theorem State.raiseToken_raisedAfter (f k : Nat) (s : State) : RaisedAfter s (s.raiseToken f k) f (some k) := by
  obtain ⟨h1, h2, h3, h4, h5⟩ := State.raiseToken_wakes f k s
  have hcount := State.raiseToken_count f k s
  refine ⟨⟨fun j hj => ?_, fun j hj => ?_, fun h => (Option.some_ne_none _ h).elim, fun h => ?_, fun q hq => h4 q hq⟩, ?_, fun g hg => ?_,
    h5.trans rfl⟩
  · cases hj; rw [hcount, if_pos rfl]
  · rw [hcount, if_neg fun h => hj (congrArg some h.symm)]
  · rw [State.raiseToken_of_no_wait (h.resolve_left (Option.some_ne_none _)), State.countToken_getFrond]
    exact ⟨rfl, rfl⟩
  · rw [h1, State.countToken_getFrond]
  · exact (h2 g hg).trans (State.getFrond_updFrond_ne _ _ _ _ hg)

end

/-! ### The vote's ISSUE (R162) -/

section
variable {s : State} {p : Nat}

/-- The conditions of the vote do not depend on its ISSUE. -/
theorem State.voteForms_updIssue (x : Option Nat) : (s.updRun p fun r => { r with issue := x }).voteForms p = s.voteForms p := by
  unfold State.voteForms State.fronds
  simp only [State.updRun, State.getPart_updPart_same]
  rfl

/-- A noted vote has its ISSUE, and nothing else of the package changes. -/
theorem State.noteVote_eq (hpat : (s.getPart p).pat = .running) :
    ((s.noteVote p).getPart p).run.issue =
        (if (s.getPart p).run.issue = none ∧ (s.noteVote p).voteForms p = true then some s.sync.stitch else (s.getPart p).run.issue) := by
  by_cases h : (s.getPart p).run.issue = none ∧ s.voteForms p = true
  · have hnote : s.noteVote p = s.updRun p fun r => { r with issue := some s.stitch } := if_pos ⟨hpat, h⟩
    rw [hnote, State.voteForms_updIssue, if_pos h, State.updRun, State.getPart_updPart_same]
    rfl
  · have hnote : s.noteVote p = s := if_neg fun hc => h hc.2
    rw [hnote, if_neg h]

theorem State.noteVote_getPart_same (p : Nat) (s : State) : (s.noteVote p).getPart p =
    { s.getPart p with run := { (s.getPart p).run with issue := ((s.noteVote p).getPart p).run.issue } } := by
  unfold State.noteVote
  split
  · rw [State.updRun, State.getPart_updPart_same]
  · rfl

theorem State.noteVote_getPart_ne {q : Nat} (h : q ≠ p) : (s.noteVote p).getPart q = s.getPart q := by
  unfold State.noteVote
  split
  · exact State.getPart_updPart_ne _ _ _ _ h
  · rfl

theorem State.noteVote_frond (p : Nat) (s : State) : (s.noteVote p).frond = s.frond := by
  unfold State.noteVote
  split <;> rfl

theorem State.noteVote_frame (p : Nat) (s : State) : s.noteVote p = { s with part := (s.noteVote p).part } := by
  unfold State.noteVote
  split <;> rfl

end

/-! ### DONE (R147) -/

section
variable {s : State} {p : Nat} {k : Nat × Nat} {c : Coll}

/-- An instruction that is done, with its token DONE raised. -/
def State.doneRaised (p : Nat) (k : Nat × Nat) (c : Coll) (s : State) : State :=
  (s.updColl p k fun c => { c with done := true }).raiseToken c.frond c.what.done

theorem State.collDone_of_some (h : s.coll p k = some c) :
    s.collDone p k = (if c.what.reduces then (s.doneRaised p k c).returnFlag p c.flag else s.doneRaised p k c).noteVote p := by
  simp only [State.collDone, h]
  rfl

/-- An instruction that carries no finite flag is done: its token DONE, and the vote (R147, R162). -/
theorem State.collDone_plain (h : s.coll p k = some c) (hr : c.what.reduces = false) : s.collDone p k = (s.doneRaised p k c).noteVote p := by
  rw [State.collDone_of_some h, hr]; rfl

theorem State.doneRaised_wakes (p : Nat) (k : Nat × Nat) (c : Coll) (s : State) :
    ((s.updColl p k fun c => { c with done := true }).countToken c.frond c.what.done).Wakes c.frond (s.doneRaised p k c) :=
  State.raiseToken_wakes _ _ _

/-- Raising DONE leaves each partition but for its instructions and, when a warden goes on, its run. -/
theorem State.doneRaised_getPart (p : Nat) (k : Nat × Nat) (c : Coll) (s : State) (q : Nat) : (s.doneRaised p k c).getPart q =
    { (s.updColl p k fun c => { c with done := true }).getPart q with run := ((s.doneRaised p k c).getPart q).run } :=
  (State.doneRaised_wakes p k c s).2.2.1 q

/-- Where no warden stalls, raising DONE leaves each partition but for its instructions. -/
theorem State.doneRaised_part (h : (s.getFrond c.frond).wait = []) :
    (s.doneRaised p k c).part = (s.updColl p k fun c => { c with done := true }).part := by
  rw [State.doneRaised, State.raiseToken_of_no_wait (s := s.updColl p k _) h]; rfl

/-- All that raising DONE changes. -/
theorem State.doneRaised_frame (p : Nat) (k : Nat × Nat) (c : Coll) (s : State) :
    s.doneRaised p k c = { s with frond := (s.doneRaised p k c).frond, part := (s.doneRaised p k c).part } := by
  rw [State.doneRaised, State.raiseToken_frame]; rfl

/-- The fronds after DONE: its token has counted, and no other frond has changed. -/
theorem State.doneRaised_frond (p : Nat) (k : Nat × Nat) (c : Coll) (s : State) :
    (∀ j, Tab.get 0 ((s.doneRaised p k c).getFrond c.frond).token j =
      if j = c.what.done then (Tab.get 0 (s.getFrond c.frond).token c.what.done + 1) % 2 ^ 32 else Tab.get 0 (s.getFrond c.frond).token j) ∧
      OtherFronds s (s.doneRaised p k c) c.frond :=
  ⟨fun j => State.raiseToken_count _ _ _ j, (State.raiseToken_raisedAfter _ _ (s.updColl p k fun c => { c with done := true })).2.2.1⟩

/-- The instructions of the step after DONE: the one that is done, and the others as they were. -/
theorem State.doneRaised_coll (h : s.coll p k = some c) : (s.doneRaised p k c).coll p k = some { c with done := true } ∧
    ∀ j, j ≠ k → (s.doneRaised p k c).coll p j = s.coll p j := by
  have hcolls : ((s.doneRaised p k c).getPart p).colls = ((s.updColl p k fun c => { c with done := true }).getPart p).colls := by
    rw [State.doneRaised_getPart]
  exact ⟨(State.coll_congr hcolls k).trans (State.coll_updColl_same (fun _ => rfl) h),
    fun j hj => (State.coll_congr hcolls j).trans (State.coll_updColl_ne (fun _ => rfl) hj)⟩

/-- A frond's owner does not change with the instructions. -/
theorem State.owner_updColl (p : Nat) (k : Nat × Nat) (g : Coll → Coll) (f : Nat) (s : State) : (s.updColl p k g).owner f = s.owner f := by
  unfold State.owner
  congr 1
  funext q
  rw [State.getPart_updColl]
  split
  · next h => rw [h]; rfl
  · rfl

/-- What an instruction does to its partition when it is done, besides DONE: a reduction returns its flag. -/
def State.flagReturned (p : Nat) (c : Coll) (s : State) : State := if c.what.reduces then s.returnFlag p c.flag else s

/-- The flag that a reduction returns is in the step finite flag, and a 0 is counted (R157, R175). -/
theorem State.returnFlag_getPart_same (p : Nat) (flag : Bool) (s : State) :
    ((s.returnFlag p flag).getPart p).colls = (s.getPart p).colls ∧
    ((s.returnFlag p flag).getPart p).run.finite = ((s.getPart p).run.finite && flag) ∧
    ((s.returnFlag p flag).getPart p).arith.nonfinite =
      (if flag then (s.getPart p).arith.nonfinite else satAdd 64 (s.getPart p).arith.nonfinite 1) := by
  cases flag <;> simp [State.returnFlag, State.updArith, State.updRun]

theorem State.returnFlag_getPart_ne {q : Nat} {flag : Bool} (h : q ≠ p) : (s.returnFlag p flag).getPart q = s.getPart q := by
  cases flag <;> simp [State.returnFlag, State.updArith, State.updRun, State.getPart_updPart_ne, h]

theorem State.returnFlag_frame (p : Nat) (flag : Bool) (s : State) : s.returnFlag p flag = { s with part := (s.returnFlag p flag).part } := by
  cases flag <;> rfl

/-- The flag's return leaves the instructions, the other partitions and everything but the partitions. -/
theorem State.flagReturned_keeps (p : Nat) (c : Coll) (s : State) : ((s.flagReturned p c).getPart p).colls = (s.getPart p).colls ∧
    (∀ q, q ≠ p → (s.flagReturned p c).getPart q = s.getPart q) ∧ s.flagReturned p c = { s with part := (s.flagReturned p c).part } := by
  unfold State.flagReturned
  split
  · exact ⟨(State.returnFlag_getPart_same _ _ _).1, fun q hq => State.returnFlag_getPart_ne hq, State.returnFlag_frame _ _ _⟩
  · exact ⟨rfl, fun _ _ => rfl, rfl⟩

/-- Where no warden of the frond stalls, DONE leaves the partitions but for the instruction. -/
theorem State.getPart_doneRaised (hwait : (s.getFrond c.frond).wait = []) (q : Nat) :
    (s.doneRaised p k c).getPart q = (s.updColl p k fun c => { c with done := true }).getPart q := by
  rw [State.getPart, State.doneRaised_part hwait]
  rfl

/-- After DONE the vote is noted, which changes nothing of an instruction (R147, R162). -/
theorem State.collDone_eq (hc : s.coll p k = some c) : s.collDone p k = ((s.doneRaised p k c).flagReturned p c).noteVote p :=
  State.collDone_of_some hc

/-- An instruction is done: its token DONE is raised once, and no other instruction, token or frond changes (R147). -/
theorem State.collDone_spec (hc : s.coll p k = some c) :
    (s.collDone p k).coll p k = some { c with done := true } ∧ (∀ j, j ≠ k → (s.collDone p k).coll p j = s.coll p j) ∧
    (∀ j, Tab.get 0 ((s.collDone p k).getFrond c.frond).token j =
      if j = c.what.done then (Tab.get 0 (s.getFrond c.frond).token c.what.done + 1) % 2 ^ 32 else Tab.get 0 (s.getFrond c.frond).token j) ∧
    OtherFronds s (s.collDone p k) c.frond ∧ (∀ q, q ≠ p → s.owner c.frond ≠ some q → (s.collDone p k).getPart q = s.getPart q) ∧
    s.collDone p k = { s with part := (s.collDone p k).part, frond := (s.collDone p k).frond } := by
  rw [State.collDone_eq hc]
  obtain ⟨hdone, hothers⟩ := State.doneRaised_coll hc
  obtain ⟨hcount, hfronds⟩ := State.doneRaised_frond p k c s
  have hframe := State.doneRaised_frame p k c s
  have hother := (State.doneRaised_wakes p k c s).2.2.2.1
  generalize s.doneRaised p k c = u at *
  obtain ⟨hcolls, hparts, hkeep⟩ := State.flagReturned_keeps p c u
  generalize u.flagReturned p c = v at *
  have hcolls' : ((v.noteVote p).getPart p).colls = (u.getPart p).colls := by rw [State.noteVote_getPart_same]; exact hcolls
  have hfrond : ∀ g, (v.noteVote p).getFrond g = u.getFrond g := fun g => by rw [State.getFrond, State.noteVote_frond, hkeep]; rfl
  refine ⟨(State.coll_congr hcolls' _).trans hdone, fun j hj => (State.coll_congr hcolls' j).trans (hothers j hj), fun j => by rw [hfrond, hcount],
    fun g hg => (hfrond g).trans (hfronds g hg), fun q hq hown => ?_, ?_⟩
  · rw [State.noteVote_getPart_ne hq, hparts q hq, hother q (fun h => hown ((State.owner_updColl _ _ _ _ s).symm.trans h))]
    exact State.getPart_updColl_ne hq
  · rw [State.noteVote_frame, hkeep, hframe]

/-- Where no warden of its frond stalls, an instruction without a flag that is done changes its partition by itself and by the vote's ISSUE alone. -/
theorem State.collDone_plain_part (hc : s.coll p k = some c) (hr : c.what.reduces = false) (hpat : (s.getPart p).pat = .running)
    (hwait : (s.getFrond c.frond).wait = []) :
    ((s.collDone p k).getPart p).run.issue = (if (s.getPart p).run.issue = none ∧ (s.collDone p k).voteForms p = true
      then some s.sync.stitch else (s.getPart p).run.issue) ∧
    (s.collDone p k).getPart p = { s.getPart p with
      colls := ((s.collDone p k).getPart p).colls
      run := { (s.getPart p).run with issue := ((s.collDone p k).getPart p).run.issue } } := by
  rw [State.collDone_plain hc hr]
  have hsync : (s.doneRaised p k c).sync.stitch = s.sync.stitch := by rw [State.doneRaised_frame]
  have hpart : (s.doneRaised p k c).getPart p = { s.getPart p with colls := ((s.doneRaised p k c).getPart p).colls } := by
    rw [State.getPart_doneRaised hwait, State.getPart_updColl_same]
  have hrun : ((s.doneRaised p k c).getPart p).run = (s.getPart p).run := by rw [hpart]
  have hrunning : ((s.doneRaised p k c).getPart p).pat = .running := by rw [hpart]; exact hpat
  generalize s.doneRaised p k c = u at *
  have hissue := State.noteVote_eq hrunning
  rw [hrun, hsync] at hissue
  refine ⟨hissue, ?_⟩
  rw [State.noteVote_getPart_same, hpart]

end

end Sys2Proof.Machine
end

section
/-! SUPPORT. Frames of pattern data: bytes cut into frames, frames queued at a port that is UP, and one-hop frames that arrive. -/

namespace Sys2Proof.Machine

/-! ### Bytes in frames -/

/-- Pieces of n bytes, one after the other, are the bytes from the first on. -/
theorem flatMap_pieces {α : Type} (bs : List α) (n m : Nat) :
    ((List.range m).flatMap fun j => (bs.drop (n * j)).take n) = bs.take (n * m) := by
  induction m with
  | zero => simp
  | succ m ih => rw [List.range_succ, List.flatMap_append, ih, List.flatMap_singleton, Nat.mul_succ, List.take_add]

theorem le_mul_cdiv (a : Nat) {n : Nat} (hn : 0 < n) : a ≤ n * cdiv a n := by
  have h := Nat.div_add_mod (a + n - 1) n
  have hlt := Nat.mod_lt (a + n - 1) hn
  unfold cdiv
  omega

/-- A list cut into pieces of n, put together again. -/
theorem flatMap_pieces_all {α : Type} (bs : List α) {n : Nat} (hn : 0 < n) :
    ((List.range (cdiv bs.length n)).flatMap fun j => (bs.drop (n * j)).take n) = bs := by
  rw [flatMap_pieces, List.take_of_length_le (le_mul_cdiv bs.length hn)]

/-! ### Frames queued at one port -/

/-- From s to t frames have been queued at a port, and nothing else has changed. -/
def State.Queued (port : Nat) (s t : State) (frs : List Frame) : Prop :=
  t.getPort port = { s.getPort port with tx := (s.getPort port).tx ++ frs } ∧ (∀ q, q ≠ port → t.getPort q = s.getPort q) ∧
    t = { s with links := { s.links with port := t.links.port } }

section
variable {s t u : State} {port : Nat} {as bs : List Frame}

theorem State.Queued.refl (port : Nat) (s : State) : s.Queued port s [] := ⟨by rw [List.append_nil], fun _ _ => rfl, rfl⟩

theorem State.Queued.trans (h : s.Queued port t as) (k : t.Queued port u bs) : s.Queued port u (as ++ bs) := by
  obtain ⟨h1, h2, h3⟩ := h
  obtain ⟨k1, k2, k3⟩ := k
  refine ⟨by rw [k1, h1, List.append_assoc], fun q hq => (k2 q hq).trans (h2 q hq), ?_⟩
  rw [k3, h3]

/-- A port that is UP and no selvage port takes a frame into its queue (R252, R256, R263). -/
theorem State.sendHop_queued (f : Frame) (hsel : s.isSelvage port = false) (hup : (s.getPort port).state = .up) :
    s.Queued port (s.sendHop port f) [f] := by
  have hq : s.sendHop port f = s.updPort port fun x => { x with tx := x.tx ++ [f] } := by
    simp [State.sendHop, State.enqueue, hsel, hup]
  rw [hq]
  exact ⟨State.getPort_updPort_same _ _ _, fun q hne => State.getPort_updPort_ne _ _ _ _ hne, rfl⟩

/-- A port stays as it was to further frames. -/
theorem State.Queued.stays (h : s.Queued port t as) : t.isSelvage port = s.isSelvage port ∧ (t.getPort port).state = (s.getPort port).state := by
  refine ⟨?_, by rw [h.1]⟩
  rw [h.2.2]
  rfl

/-- Steps that each queue one frame, which does not depend on what is queued already, queue them all in order. -/
theorem State.forAll_queued {step : Nat → State → State} {F : Nat → Frame} (js : List Nat) (hsel : s.isSelvage port = false)
    (hup : (s.getPort port).state = .up)
    (hstep : ∀ j ∈ js, ∀ t : State, t = { s with links := { s.links with port := t.links.port } } → step j t = t.sendHop port (F j)) :
    s.Queued port (forAll js step s) (js.map F) := by
  induction js generalizing s with
  | nil => exact .refl port s
  | cons j js ih =>
    have hone : s.Queued port (step j s) [F j] := by
      rw [hstep j (by simp) s rfl]
      exact State.sendHop_queued _ hsel hup
    obtain ⟨hsel', hup'⟩ := hone.stays
    have hrest := ih (hsel'.trans hsel) (hup'.trans hup) fun i hi t ht => hstep i (by simp [hi]) t (by rw [ht, hone.2.2])
    exact hone.trans hrest

end

/-! ### One-hop frames that arrive (R231) -/

section
variable {s : State} {port : Nat} {f : Frame}

theorem State.takeRx_here (port : Nat) (f : Frame) (s : State) : (s.takeRx port f).here = s.here := by
  unfold State.here; rw [State.takeRx_links_plan]

theorem State.takeRx_size (port : Nat) (f : Frame) (s : State) : (s.takeRx port f).size = s.size := by
  unfold State.size; rw [State.takeRx_links_plan]

/-- A one-hop frame for this package's live pattern reaches its unit. -/
theorem State.hopArrives_live (hd : Deliverable s port f) (hh : f.dst = s.here) (hl : (s.getPart f.part).live = true) :
    s.hopArrives port f = (true, s.takeRx port f) := by
  simp [State.hopArrives, State.arrives_deliverable hd, hh, hl]

/-- One for another package is discarded and counted (R231). -/
theorem State.hopArrives_elsewhere (hd : Deliverable s port f) (hh : f.dst ≠ s.here) :
    s.hopArrives port f = (false, (s.takeRx port f).discardArrived port 5 f) := by
  simp [State.hopArrives, State.arrives_deliverable hd, hh]

/-- One for a partition without a live pattern is discarded and counted (R231). -/
theorem State.hopArrives_dead (hd : Deliverable s port f) (hh : f.dst = s.here) (hl : (s.getPart f.part).live = false) :
    s.hopArrives port f = (false, (s.takeRx port f).discardArrived port 6 f) := by
  simp [State.hopArrives, State.arrives_deliverable hd, hh, hl]

end

end Sys2Proof.Machine
end

section
/-! SUPPORT. Pattern data: the chunks of an MM.SEND in PDATA frames, and the bytes of a PDATA frame that land. -/

namespace Sys2Proof.Machine

/-! ### Frond stores -/

section
variable {s t : State}

/-- A frond store is read from the package's store alone. -/
theorem State.fsRead_congr (h : t.store = s.store) (f a n : Nat) : t.fsRead f a n = s.fsRead f a n := by
  unfold State.fsRead; rw [h]

/-- What was written to a frond store is read back. -/
theorem State.fsRead_fsWrite (f a : Nat) (bs : List Byte) (s : State) : (s.fsWrite f a bs).fsRead f a bs.length = bs := Mem.readN_writeN _ _ _

/-- A write to a frond store leaves every byte outside it. -/
theorem State.store_fsWrite_out {f a x : Nat} {bs : List Byte} (h : x < storeKey f a ∨ storeKey f a + bs.length ≤ x) :
    (s.fsWrite f a bs).store.read x = s.store.read x := Mem.read_writeN_out _ _ _ h

end

/-! ### The chunks of an MM.SEND (R147, R148) -/

section
variable {s : State} {f record i p : Nat} {r : FrondRec} {c : Coll}

theorem exec_fusedChunkSend_idle (hrun : s.unitRuns f unitArray = none) : exec (.fusedChunkSend f record i) s = .next s := by
  show Host.Outcome.next (s.fusedChunkSend f record i) = _
  simp only [State.fusedChunkSend, hrun]

/-- The MM.SEND that a FUSED_CHUNK_SEND names. -/
def sendsFrom (f record : Nat) (y : Coll) : Bool := y.frond == f && y.record == record && y.what.op == 1 && !y.done

theorem exec_fusedChunkSend_unnamed (hrun : s.unitRuns f unitArray = some (p, r)) (hfind : (s.getPart p).colls.find? (sendsFrom f record) = none) :
    exec (.fusedChunkSend f record i) s = .next s := by
  show Host.Outcome.next (s.fusedChunkSend f record i) = _
  have hfind' : (s.getPart p).colls.find? (fun y => y.frond == f && y.record == record && y.what.op == opSend && !y.done) = none := hfind
  simp only [State.fusedChunkSend, hrun, hfind']

/-- The event sends the next chunk, or ends the instruction (R148). -/
theorem exec_fusedChunkSend (hrun : s.unitRuns f unitArray = some (p, r)) (hfind : (s.getPart p).colls.find? (sendsFrom f record) = some c) :
    exec (.fusedChunkSend f record i) s = .next
      (if (s.getPart p).run.discard = true ∨ (!c.ready) = true ∨ i ≠ c.chunks ∨ (!s.dieOpen f) = true then s
        else if i < c.chunkCount then s.chunkGoes p f c i else s.collDone p c.key) := by
  show Host.Outcome.next (s.fusedChunkSend f record i) = _
  have hfind' : (s.getPart p).colls.find? (fun y => y.frond == f && y.record == record && y.what.op == opSend && !y.done) = some c := hfind
  simp only [State.fusedChunkSend, hrun, hfind']

/-- Frame j of the chunk whose bytes are given (R232). -/
def State.chunkFrame (s : State) (p : Nat) (c : Coll) (i : Nat) (bs : List Byte) (j : Nat) : Frame :=
  { dst := neighbour s.size s.here (s.dirOf c.what.group), src := s.here, part := p, kind := 1, raise := j + 1 == cdiv bs.length 14784, vl := 0
    token := c.what.tokenOut + i % max c.what.slots 1
    arg := c.what.peer % 1024 + 2 ^ 10 * ((c.what.dst + c.slotOff i + 14784 * j) / 64 % 65536), payload := (bs.drop (14784 * j)).take 14784 }

/-- A chunk leaves in its frames, in order (R232). -/
theorem State.sendChunk_queued (bs : List Byte) (hsel : s.isSelvage c.what.group = false) (hup : (s.getPort c.what.group).state = .up) :
    s.Queued c.what.group (s.sendChunk p c i bs) ((List.range (cdiv bs.length 14784)).map (s.chunkFrame p c i bs)) := by
  refine State.forAll_queued _ hsel hup fun j _ t ht => ?_
  have hframe : t.chunkFrame p c i bs j = s.chunkFrame p c i bs j := by rw [ht]; rfl
  exact congrArg (t.sendHop c.what.group) hframe

/-- The frames of a chunk are its bytes (R232). -/
theorem chunkFrames_payload (s : State) (p : Nat) (c : Coll) (i : Nat) (bs : List Byte) :
    ((List.range (cdiv bs.length 14784)).map (s.chunkFrame p c i bs)).flatMap (·.payload) = bs := by
  rw [List.flatMap_map]
  exact flatMap_pieces_all bs (by decide)

/-- An element of a list made along a range. -/
theorem getElem?_map_range {α : Type} {F : Nat → α} {m j : Nat} {x : α} (h : ((List.range m).map F)[j]? = some x) : j < m ∧ x = F j := by
  rw [List.getElem?_map, Option.map_eq_some_iff] at h
  obtain ⟨n, hn, rfl⟩ := h
  obtain ⟨hlt, rfl⟩ := List.getElem?_eq_some_iff.1 hn
  simpa using hlt

/-- An MM.SEND that has sent one more chunk (R295). -/
def Coll.sentChunk (stitch : Nat) (c : Coll) : Coll := { c with chunks := c.chunks + 1, progress := stitch }

theorem Coll.sentChunk_key (stitch : Nat) (c : Coll) : (c.sentChunk stitch).key = c.key := rfl

/-- The bytes of chunk i of an MM.SEND. -/
def Coll.chunkBytes (c : Coll) (i : Nat) : List Byte := ((c.vals.drop (i * c.what.chunk)).take (c.chunkLen i)).map (BitVec.ofNat 8)

/-- A chunk goes: into its slot, counted, and out on its port. -/
theorem State.chunkGoes_queued (hsel : s.isSelvage c.what.group = false) (hup : (s.getPort c.what.group).state = .up) :
    ((s.fsWrite f (c.what.src + c.slotOff i) (c.chunkBytes i)).updColl p c.key (Coll.sentChunk s.sync.stitch)).Queued c.what.group
      (s.chunkGoes p f c i) ((List.range (cdiv (c.chunkBytes i).length 14784)).map (s.chunkFrame p c i (c.chunkBytes i))) :=
  State.sendChunk_queued (s := (s.fsWrite f (c.what.src + c.slotOff i) (c.chunkBytes i)).updColl p c.key (Coll.sentChunk s.sync.stitch))
    (c.chunkBytes i) hsel hup

/-- The fields of ARG in a PDATA frame (R229, R232). -/
theorem bits_pdataArg (peer line : Nat) : bits (peer % 1024 + 2 ^ 10 * (line % 65536)) 9 0 = peer % 1024 ∧
    bits (peer % 1024 + 2 ^ 10 * (line % 65536)) 25 10 = line % 65536 := by
  unfold bits
  omega

end

/-! ### PDATA frames (R231, R232) -/

section
variable {s : State} {port : Nat} {f : Frame}

theorem exec_pdataFrame_other (h : f.kind ≠ 1) : exec (.pdataFrame port f) s = .next s := congrArg Host.Outcome.next (if_pos h)

/-- Over a link that retrains a frame waits in the port (R20). -/
theorem exec_pdataFrame_waits (hk : f.kind = 1) (hh : f.dst = s.here) (hl : (s.getPart f.part).live = true) (hw : s.pdataWaits f = true) :
    exec (.pdataFrame port f) s = .next s := by
  show Host.Outcome.next (s.pdataFrame port f) = _
  simp [State.pdataFrame, hk, hh, hl, hw]

theorem exec_pdataFrame_elsewhere (hk : f.kind = 1) (hd : Deliverable s port f) (hh : f.dst ≠ s.here) :
    exec (.pdataFrame port f) s = .next ((s.takeRx port f).discardArrived port 5 f) := by
  show Host.Outcome.next (s.pdataFrame port f) = _
  simp [State.pdataFrame, hk, hh, State.hopArrives_elsewhere hd hh]

theorem exec_pdataFrame_dead (hk : f.kind = 1) (hd : Deliverable s port f) (hh : f.dst = s.here) (hl : (s.getPart f.part).live = false) :
    exec (.pdataFrame port f) s = .next ((s.takeRx port f).discardArrived port 6 f) := by
  show Host.Outcome.next (s.pdataFrame port f) = _
  simp [State.pdataFrame, hk, hl, State.hopArrives_dead hd hh hl]

theorem exec_pdataFrame_lands (hk : f.kind = 1) (hd : Deliverable s port f) (hh : f.dst = s.here) (hl : (s.getPart f.part).live = true)
    (hw : s.pdataWaits f = false) : exec (.pdataFrame port f) s = .next ((s.takeRx port f).pdataLands f) := by
  show Host.Outcome.next (s.pdataFrame port f) = _
  simp [State.pdataFrame, hk, hw, State.hopArrives_live hd hh hl]

theorem State.takeRx_physical (p l : Nat) : (s.takeRx port f).physical p l = s.physical p l := by
  simp only [State.physical, State.fronds, State.takeRx_getPart, State.takeRx_faults]

/-- Data for a logical frond that the partition has not are dropped. -/
theorem State.pdataLands_nowhere (h : s.physical f.part (bits f.arg 9 0) = none) : s.pdataLands f = s := by
  unfold State.pdataLands
  rw [h]

/-- The token that a PDATA frame raises. -/
def raisedToken (f : Frame) : Option Nat := if f.raise = true ∧ f.token < 4096 then some f.token else none

/-- Data that fit land, their token is raised, and the pass that waits for them is fed. -/
theorem State.pdataLands_eq {fr : Nat} (h : s.physical f.part (bits f.arg 9 0) = some fr) :
    s.pdataLands f = if 3670016 < 64 * bits f.arg 25 10 + f.payload.length then s
      else ((s.fsWrite fr (64 * bits f.arg 25 10) f.payload).raiseOpt fr (raisedToken f)).feed f.part fr := by
  have hopt : ∀ u : State, u.raiseOpt fr (raisedToken f) = if f.raise = true ∧ f.token < 4096 then u.raiseToken fr f.token else u := fun u => by
    unfold raisedToken
    by_cases ht : f.raise = true ∧ f.token < 4096
    · rw [if_pos ht, if_pos ht]; rfl
    · rw [if_neg ht, if_neg ht]; rfl
  rw [hopt]
  unfold State.pdataLands
  rw [h]

/-- Nothing is raised where no token is named. -/
theorem raisedAfter_none (fr : Nat) (s : State) : RaisedAfter s s fr none := by
  have htoken : TokenRaised s s fr none :=
    ⟨fun k hk => (Option.some_ne_none k hk.symm).elim, fun _ _ => rfl, fun _ => rfl, fun _ => ⟨rfl, rfl⟩, fun _ _ => rfl⟩
  exact ⟨htoken, rfl, fun _ _ => rfl, rfl⟩

theorem State.raiseOpt_raisedAfter (fr : Nat) (tok : Option Nat) (s : State) : RaisedAfter s (s.raiseOpt fr tok) fr tok :=
  match tok with
  | none => raisedAfter_none fr s
  | some k => State.raiseToken_raisedAfter fr k s

/-- A frond with no pass in its queue is not fed. -/
theorem State.feed_of_empty {p fr : Nat} (h : (s.getFrond fr).arr.queue = []) : s.feed p fr = s := by
  simp only [State.feed, h]

theorem State.feed_of_fused {p fr : Nat} {x : Pass} {rest : List Pass} {k : Nat × Nat} (h : (s.getFrond fr).arr.queue = x :: rest)
    (hk : x.fused = some k) : s.feed p fr = s.feedRing p fr k 16 := by
  simp only [State.feed, h, hk]

/-! ### The ring of a RECV.MM (R148) -/

section
variable {p fr : Nat} {k : Nat × Nat} {c : Coll} {n : Nat}

/-- A RECV.MM whose next chunk's token is not raised takes none. -/
theorem State.feedRing_waits (h : s.coll p k = some c)
    (ht : s.tokenAt fr (c.what.tokenIn + c.chunks % max c.what.slots 1) (c.chunks / max c.what.slots 1) = false) :
    s.feedRing p fr k (n + 1) = s := by
  simp [State.feedRing, h, ht]

/-- A RECV.MM that has all its chunks takes none. -/
theorem State.feedRing_full (h : s.coll p k = some c) (hc : c.chunkCount ≤ c.chunks) : s.feedRing p fr k (n + 1) = s := by
  simp [State.feedRing, h, Nat.not_lt.2 hc]

/-- A RECV.MM that has taken a chunk. -/
def Coll.tookChunk (bs : List Byte) (stitch : Nat) (c : Coll) : Coll :=
  { c with vals := c.vals ++ bs.map (·.toNat), chunks := c.chunks + 1, progress := stitch }

theorem Coll.tookChunk_key (bs : List Byte) (stitch : Nat) (c : Coll) : (c.tookChunk bs stitch).key = c.key := rfl

/-- A RECV.MM takes the next chunk when its token is raised. -/
theorem State.feedRing_takes (h : s.coll p k = some c) (hop : c.what.op = 2) (hc : c.chunks < c.chunkCount)
    (ht : s.tokenAt fr (c.what.tokenIn + c.chunks % max c.what.slots 1) (c.chunks / max c.what.slots 1) = true) :
    s.feedRing p fr k (n + 1) =
      (s.updColl p k (Coll.tookChunk (s.fsRead fr (c.what.dst + c.slotOff c.chunks) (c.chunkLen c.chunks)) s.sync.stitch)).feedRing p fr k n := by
  have hrecv : c.what.op = opRecv := hop
  simp only [State.feedRing, h, hrecv, hc, ht, and_self, if_true]
  rfl

end

end

/-! ### O54 -/

section
variable {s t : State}

/-- Frames that queue leave the stores and the partitions. -/
theorem State.Queued.frame {port : Nat} {frs : List Frame} (h : s.Queued port t frs) : t.store = s.store ∧ ∀ q, t.getPart q = s.getPart q := by
  obtain ⟨_, _, h⟩ := h
  rw [h]
  exact ⟨rfl, fun _ => rfl⟩

section
variable {f i p : Nat} {c : Coll}

/-- What a chunk that goes leaves in the package (R147, R148, R232). -/
theorem State.chunkGoes_spec {bs : List Byte} (hbs : bs = c.chunkBytes i) (hc : s.coll p c.key = some c) (hi : i = c.chunks)
    (hsel : s.isSelvage c.what.group = false) (hup : (s.getPort c.what.group).state = .up) : ∃ frs : List Frame,
    (s.chunkGoes p f c i).fsRead f (c.what.src + c.slotOff i) bs.length = bs ∧
    (∀ x, x < storeKey f (c.what.src + c.slotOff i) ∨ storeKey f (c.what.src + c.slotOff i) + bs.length ≤ x →
      (s.chunkGoes p f c i).store.read x = s.store.read x) ∧
    (s.chunkGoes p f c i).coll p c.key = some { c with chunks := i + 1, progress := s.sync.stitch } ∧
    (∀ k, k ≠ c.key → (s.chunkGoes p f c i).coll p k = s.coll p k) ∧
    (s.chunkGoes p f c i).getPart p = { s.getPart p with colls := ((s.chunkGoes p f c i).getPart p).colls } ∧
    (s.chunkGoes p f c i).getPort c.what.group = { s.getPort c.what.group with tx := (s.getPort c.what.group).tx ++ frs } ∧
    frs.flatMap (·.payload) = bs ∧ frs.length = cdiv bs.length 14784 ∧
    (∀ j fr, frs[j]? = some fr → fr.kind = 1 ∧ fr.vl = 0 ∧ fr.part = p ∧ fr.src = s.here ∧ fr.payload.length ≤ 14784 ∧
      fr.dst = neighbour s.size s.here (s.dirOf c.what.group) ∧ (fr.raise = true ↔ j + 1 = frs.length) ∧
      fr.token = c.what.tokenOut + i % max c.what.slots 1 ∧ bits fr.arg 9 0 = c.what.peer % 1024 ∧
      bits fr.arg 25 10 = (c.what.dst + c.slotOff i + 14784 * j) / 64 % 65536) ∧
    (∀ q, q ≠ c.what.group → (s.chunkGoes p f c i).getPort q = s.getPort q) ∧
    (∀ q, q ≠ p → (s.chunkGoes p f c i).getPart q = s.getPart q) ∧
    s.chunkGoes p f c i = { s with
      store := (s.chunkGoes p f c i).store, part := (s.chunkGoes p f c i).part, links := { s.links with port := (s.chunkGoes p f c i).links.port } } := by
  subst hbs
  have hwritten : (s.fsWrite f (c.what.src + c.slotOff i) (c.chunkBytes i)).coll p c.key = some c := hc
  have hq := State.chunkGoes_queued (s := s) (f := f) (i := i) (p := p) hsel hup
  generalize s.chunkGoes p f c i = t at hq ⊢
  obtain ⟨hstore, hpart⟩ := hq.frame
  obtain ⟨hport, hports, hrest⟩ := hq
  refine ⟨_, (State.fsRead_congr hstore _ _ _).trans (State.fsRead_fsWrite _ _ _ s),
    fun x hx => (congrArg (·.read x) hstore).trans (State.store_fsWrite_out hx), ?_, fun k hk => ?_, ?_, hport,
    chunkFrames_payload s p c i _, by simp, fun j fr hfr => ?_, hports, fun q hq => (hpart q).trans (State.getPart_updColl_ne hq), ?_⟩
  · rw [State.coll_congr (congrArg (·.colls) (hpart p)), State.coll_updColl_same (fun d => Coll.sentChunk_key _ d) hwritten, hi]
    rfl
  · rw [State.coll_congr (congrArg (·.colls) (hpart p))]
    exact State.coll_updColl_ne (fun d => Coll.sentChunk_key _ d) hk
  · rw [hpart p, State.getPart_updColl_same]
    rfl
  · obtain ⟨_, rfl⟩ := getElem?_map_range hfr
    obtain ⟨hpeer, hline⟩ := bits_pdataArg c.what.peer ((c.what.dst + c.slotOff i + 14784 * j) / 64)
    refine ⟨rfl, rfl, rfl, rfl, List.length_take_le _ _, rfl, ?_, rfl, hpeer, hline⟩
    simp [State.chunkFrame]
  · rw [hrest]
    rfl

end

/-- A RECV.MM at the head of the array's queue takes its last chunk when its token is raised (R148). -/
theorem State.feed_lastChunk {p fr : Nat} {x : Pass} {rest : List Pass} {k : Nat × Nat} {c : Coll}
    (hq : (s.getFrond fr).arr.queue = x :: rest) (hk : x.fused = some k) (hc : s.coll p k = some c) (hop : c.what.op = 2)
    (hlast : c.chunks + 1 = c.chunkCount) :
    s.feed p fr = if s.tokenAt fr (c.what.tokenIn + c.chunks % max c.what.slots 1) (c.chunks / max c.what.slots 1) = true
      then s.updColl p k (Coll.tookChunk (s.fsRead fr (c.what.dst + c.slotOff c.chunks) (c.chunkLen c.chunks)) s.sync.stitch) else s := by
  rw [State.feed_of_fused hq hk]
  split
  · next ht =>
    rw [State.feedRing_takes hc hop (by omega) ht]
    exact State.feedRing_full (State.coll_updColl_same (fun d => Coll.tookChunk_key _ _ d) hc) (Nat.le_of_eq hlast.symm)
  · next ht => exact State.feedRing_waits hc (Bool.not_eq_true _ ▸ ht)

end

section
variable {s : State} {f : Frame} {fr : Nat}

/-- Data that land where the array has nothing to do: written, and the token raised behind them. -/
theorem State.pdataLands_idle (hphys : s.physical f.part (bits f.arg 9 0) = some fr)
    (hfits : 64 * bits f.arg 25 10 + f.payload.length ≤ 3670016) (hempty : (s.getFrond fr).arr.queue = []) :
    RaisedAfter (s.fsWrite fr (64 * bits f.arg 25 10) f.payload) (s.pdataLands f) fr (raisedToken f) := by
  have hraised := State.raiseOpt_raisedAfter fr (raisedToken f) (s.fsWrite fr (64 * bits f.arg 25 10) f.payload)
  rw [State.pdataLands_eq hphys, if_neg (Nat.not_lt.2 hfits), State.feed_of_empty]
  · exact hraised
  · rw [hraised.2.1]
    exact hempty

/-- Data that bring the last chunk of the RECV.MM at the head of the array's queue: written, their token counted, and the chunk taken. -/
theorem State.pdataLands_lastChunk {x : Pass} {rest : List Pass} {k : Nat × Nat} {c : Coll}
    (hphys : s.physical f.part (bits f.arg 9 0) = some fr) (hfits : 64 * bits f.arg 25 10 + f.payload.length ≤ 3670016) (hraise : f.raise = true)
    (hqueue : (s.getFrond fr).arr.queue = x :: rest) (hfused : x.fused = some k) (hc : s.coll f.part k = some c) (hop : c.what.op = 2)
    (hlast : c.chunks + 1 = c.chunkCount) (htok : f.token = c.what.tokenIn + c.chunks % max c.what.slots 1) (hlt : f.token < 4096)
    (hwait : (s.getFrond fr).wait = []) (u : State) (hu : u = (s.fsWrite fr (64 * bits f.arg 25 10) f.payload).countToken fr f.token) :
    s.pdataLands f = if u.tokenAt fr f.token (c.chunks / max c.what.slots 1) = true
      then u.updColl f.part k (Coll.tookChunk (u.fsRead fr (c.what.dst + c.slotOff c.chunks) (c.chunkLen c.chunks)) u.sync.stitch) else u := by
  have hraised : (s.fsWrite fr (64 * bits f.arg 25 10) f.payload).raiseOpt fr (raisedToken f) = u := by
    rw [raisedToken, if_pos ⟨hraise, hlt⟩, hu]
    exact State.raiseToken_of_no_wait (s := s.fsWrite fr (64 * bits f.arg 25 10) f.payload) hwait _
  have hqueue' : (u.getFrond fr).arr.queue = x :: rest := by rw [hu, State.countToken_getFrond]; exact hqueue
  have hc' : u.coll f.part k = some c := by rw [hu]; exact hc
  rw [State.pdataLands_eq hphys, if_neg (Nat.not_lt.2 hfits), hraised, State.feed_lastChunk hqueue' hfused hc' hop hlast, ← htok]

end

/-- Settles O54, by the two events: FUSED_CHUNK_SEND sends a chunk or ends the instruction; a PDATA frame that lands writes, raises, and feeds. -/
theorem patternDataMoves : Obligations.PatternDataMoves := by
  unfold Obligations.PatternDataMoves
  refine ⟨fun s f record i p r c => ⟨exec_fusedChunkSend_idle, fun hrun => ⟨exec_fusedChunkSend_unnamed hrun, fun hfind => ⟨fun h => ?_,
    fun hdisc hc hready hi hdie => ⟨fun bs hlt hbs hsel hup => ?_, fun hle => ?_⟩⟩⟩⟩, fun s port f => ⟨exec_pdataFrame_other, exec_pdataFrame_waits,
    exec_pdataFrame_elsewhere, exec_pdataFrame_dead, fun hk hd hh hl hw => ?_⟩⟩
  · rw [exec_fusedChunkSend hrun hfind, if_pos]
    simpa using h
  · have hgo : ¬((s.getPart p).run.discard = true ∨ (!c.ready) = true ∨ i ≠ c.chunks ∨ (!s.dieOpen f) = true) := by
      simp [hdisc, hready, hi, hdie]
    rw [exec_fusedChunkSend hrun hfind, if_neg hgo, if_pos hlt]
    obtain ⟨frs, h⟩ := State.chunkGoes_spec (f := f) hbs hc hi hsel hup
    exact ⟨_, frs, rfl, h⟩
  · have hgo : ¬((s.getPart p).run.discard = true ∨ (!c.ready) = true ∨ i ≠ c.chunks ∨ (!s.dieOpen f) = true) := by
      simp [hdisc, hready, hi, hdie]
    have hop : c.what.op = 1 := by
      have h := List.find?_some hfind
      simp only [Bool.and_eq_true, beq_iff_eq] at h
      exact h.1.2
    have hr : c.what.reduces = false := by simp [Fused.reduces, hop, opRs, opAr, opVecAr]
    rw [exec_fusedChunkSend hrun hfind, if_neg hgo, if_neg (Nat.not_lt.2 hle)]
    obtain ⟨hdone, hothers, hcount, hfronds, hparts, hframe⟩ := State.collDone_spec hc
    refine ⟨_, rfl, hdone, hothers, fun k hk => ?_, fun k hk => ?_, State.collDone_plain_part hc hr (State.unitRuns_owner hrun).2, hfronds, hparts, hframe⟩
    · rw [hcount, if_pos hk, hk]
    · rw [hcount, if_neg hk]
  · rw [exec_pdataFrame_lands hk hd hh hl hw]
    refine ⟨fun hnone => ?_, fun fr hphys => ⟨fun hbig => ?_, fun hfits hempty => ?_,
      fun x rest k c i hfits hraise hqueue hfused hc hop hi hlast htok htoken hwait => ?_⟩⟩
    · rw [State.pdataLands_nowhere ((State.takeRx_physical _ _).trans hnone)]
    · rw [State.pdataLands_eq ((State.takeRx_physical _ _).trans hphys), if_pos hbig]
    · have hempty' : ((s.takeRx port f).getFrond fr).arr.queue = [] := by rw [State.takeRx_getFrond, hempty]
      refine ⟨_, _, rfl, State.fsRead_fsWrite _ _ _ _, fun x hx => ?_, rfl,
        State.pdataLands_idle ((State.takeRx_physical _ _).trans hphys) hfits hempty'⟩
      rw [State.store_fsWrite_out hx, State.takeRx_store]
    · subst hi
      have hpart : ∀ q, (s.takeRx port f).getPart q = s.getPart q := fun q => State.takeRx_getPart _ _ _ _
      have hfrond := State.takeRx_getFrond port f s fr
      have hcoll : (s.takeRx port f).coll f.part k = some c := (State.coll_congr (congrArg (·.colls) (hpart _)) k).trans hc
      have hsync := State.takeRx_sync port f s
      have hphys' := (State.takeRx_physical (s := s) (port := port) (f := f) _ _).trans hphys
      generalize s.takeRx port f = v at *
      rw [← hfrond] at hqueue hwait
      obtain ⟨u, hu⟩ : ∃ u, u = (v.fsWrite fr (64 * bits f.arg 25 10) f.payload).countToken fr f.token := ⟨_, rfl⟩
      have hread : u.fsRead fr (64 * bits f.arg 25 10) f.payload.length = f.payload := by
        rw [hu]; exact State.fsRead_fsWrite _ _ _ v
      have hframe : u = { v with store := u.store, frond := u.frond } := by rw [hu]; rfl
      have hpart' : ∀ q, u.getPart q = s.getPart q := fun q => by rw [hframe]; exact hpart q
      have hcoll' : u.coll f.part k = some c := (State.coll_congr (congrArg (·.colls) (hpart' _)) k).trans hc
      rw [State.pdataLands_lastChunk hphys' hfits hraise hqueue hfused hcoll hop hlast htok htoken hwait u hu]
      refine ⟨_, rfl, ?_⟩
      split
      · next ht =>
        refine ⟨fun _ => ?_, fun hf => absurd ht (hf ▸ Bool.false_ne_true), hread,
          fun q hq => (State.getPart_updColl_ne hq).trans (hpart' q), by rw [hframe]; rfl⟩
        rw [State.coll_updColl_same (fun d => Coll.tookChunk_key _ _ d) hcoll', hframe, ← hsync]
        rfl
      · next ht => exact ⟨fun h => absurd h ht, fun _ => hcoll', hread, fun q _ => hpart' q, by rw [hframe]⟩

end Sys2Proof.Machine
end

section
/-! SUPPORT. A COLL frame: which instruction it belongs to, and what it does to it in the data phase and in the tree pass. -/

namespace Sys2Proof.Machine

/-! ### The instruction of a frame (R292, R295) -/

/-- An instruction whose frame has come (R295). -/
def Coll.progressed (stitch : Nat) (d : Coll) : Coll := { d with progress := stitch }

theorem Coll.progressed_key (stitch : Nat) (d : Coll) : (d.progressed stitch).key = d.key := rfl

/-- The search for a frame's instruction goes by its key and by what is over: a change that keeps those keeps what is found. -/
theorem collOf_map (q : Partition) {F : Coll → Coll} (group inst : Nat)
    (hF : ∀ d, (F d).key = d.key ∧ (F d).done = d.done ∧ (F d).aborted = d.aborted) :
    Partition.collOf { q with colls := q.colls.map F } group inst = (q.collOf group inst).map F := by
  have hsel : (fun c : Coll => c.group == group && c.inst % 256 == inst) ∘ F = fun c => c.group == group && c.inst % 256 == inst := by
    funext d
    obtain ⟨hg, hi⟩ := Prod.mk.inj (hF d).1
    simp only [Function.comp, hg, hi]
  have hlive : (fun c : Coll => !c.done && !c.aborted) ∘ F = fun c => !c.done && !c.aborted := by
    funext d
    simp only [Function.comp, (hF d).2.1, (hF d).2.2]
  simp only [Partition.collOf, List.filter_map, hsel, List.find?_map, hlive, List.getLast?_map]
  generalize List.find? _ _ = found
  cases found <;> rfl

section
variable {s : State} {port : Nat} {f : Frame} {pl : CollPlace} {c : Coll}

/-- What belongs to no instruction is no progress. -/
theorem State.collTaken_unnamed (h : s.collNamed f = none) : s.collTaken f pl = s := by
  have hprogress : s.collProgress f = s := by
    have hbits : bits f.arg 15 0 = f.arg % 65536 := by unfold bits; omega
    have hof : (s.getPart f.part).collOf (f.arg % 65536) (bits f.arg 23 16) = none := hbits ▸ h
    simp [State.collProgress, hof]
  simp only [State.collTaken, hprogress, State.collActs, h]

/-- A frame that belongs to an instruction is progress (R295). -/
theorem State.collProgress_named (hk : f.kind = 2) (h : s.collNamed f = some c) :
    s.collProgress f = s.updColl f.part c.key (Coll.progressed s.sync.stitch) := by
  have hbits : bits f.arg 15 0 = f.arg % 65536 := by unfold bits; omega
  have hof : (s.getPart f.part).collOf (f.arg % 65536) (bits f.arg 23 16) = some c := hbits ▸ h
  simp only [State.collProgress, hk, ne_eq, not_true_eq_false, if_false, hof]
  rfl

/-- After its progress the frame still belongs to its instruction. -/
theorem State.collNamed_progressed (h : s.collNamed f = some c) :
    (s.updColl f.part c.key (Coll.progressed s.sync.stitch)).collNamed f = some (c.progressed s.sync.stitch) := by
  have hof : (s.getPart f.part).collOf (bits f.arg 15 0) (bits f.arg 23 16) = some c := h
  have hkeep : ∀ d : Coll, (if d.key = c.key then d.progressed s.sync.stitch else d).key = d.key ∧
      (if d.key = c.key then d.progressed s.sync.stitch else d).done = d.done ∧
      (if d.key = c.key then d.progressed s.sync.stitch else d).aborted = d.aborted := fun d => by split <;> exact ⟨rfl, rfl, rfl⟩
  rw [State.collNamed, State.getPart_updColl_same, collOf_map _ _ _ hkeep, hof]
  simp

/-! ### COLL frames that arrive (R231, R292) -/

theorem exec_collFrame_other (h : f.kind ≠ 2) : exec (.collFrame port f pl) s = .next s := congrArg Host.Outcome.next (if_pos h)

/-- An early frame, or one over a link that retrains, waits in the port (R20, R292). -/
theorem exec_collFrame_waits (hk : f.kind = 2) (hh : f.dst = s.here) (hl : (s.getPart f.part).live = true) (hw : s.collWaits f pl = true) :
    exec (.collFrame port f pl) s = .next s := by
  show Host.Outcome.next (s.collFrame port f pl) = _
  simp [State.collFrame, hk, hh, hl, hw]

theorem exec_collFrame_elsewhere (hk : f.kind = 2) (hd : Deliverable s port f) (hh : f.dst ≠ s.here) :
    exec (.collFrame port f pl) s = .next ((s.takeRx port f).discardArrived port 5 f) := by
  show Host.Outcome.next (s.collFrame port f pl) = _
  simp [State.collFrame, hk, hh, State.hopArrives_elsewhere hd hh]

theorem exec_collFrame_dead (hk : f.kind = 2) (hd : Deliverable s port f) (hh : f.dst = s.here) (hl : (s.getPart f.part).live = false) :
    exec (.collFrame port f pl) s = .next ((s.takeRx port f).discardArrived port 6 f) := by
  show Host.Outcome.next (s.collFrame port f pl) = _
  simp [State.collFrame, hk, hl, State.hopArrives_dead hd hh hl]

theorem exec_collFrame_taken (hk : f.kind = 2) (hd : Deliverable s port f) (hh : f.dst = s.here) (hl : (s.getPart f.part).live = true)
    (hw : s.collWaits f pl = false) : exec (.collFrame port f pl) s = .next ((s.takeRx port f).collTaken f pl) := by
  show Host.Outcome.next (s.collFrame port f pl) = _
  simp [State.collFrame, hk, hw, State.hopArrives_live hd hh hl]

end

/-! ### What a frame does to its instruction -/

section
variable {s : State} {f : Frame} {pl : CollPlace} {c : Coll} {g : Group}

/-- A frame of an instruction that is over, or whose group is not in the image, only counts as progress. -/
theorem State.collActs_over (hn : s.collNamed f = some c) (h : c.done = true ∨ c.aborted = true ∨ s.collGroup f.part c = none) :
    s.collActs f pl = s := by
  simp only [State.collActs, hn]
  cases hg : s.collGroup f.part c with
  | none => rfl
  | some g =>
    rw [hg] at h
    have hover : (c.done || c.aborted) = true := by simpa using h
    simp only [hover, if_true]

section
variable (hn : s.collNamed f = some c) (hg : s.collGroup f.part c = some g) (hd : c.done = false) (ha : c.aborted = false)
include hn hg hd ha

theorem State.collActs_elsewhere (ht : bit f.arg 25 = false)
    (h : stageIndex c.what.op g pl ≠ c.stage ∨ c.dataDone = true ∨ placeOk g s.here c pl f.payload.length = false) : s.collActs f pl = s := by
  have hno : ¬(stageIndex c.what.op g pl = c.stage ∧ (!c.dataDone) = true ∧ placeOk g s.here c pl f.payload.length = true) := by
    rintro ⟨h1, h2, h3⟩
    simp [h1, h3, Bool.eq_false_iff.2 (by simpa using h2)] at h
  simp only [State.collActs, hn, hg, hd, ha, ht, Bool.or_self, Bool.false_eq_true, if_false]
  exact if_neg hno

theorem State.collActs_data (ht : bit f.arg 25 = false) (hs : stageIndex c.what.op g pl = c.stage) (hdata : c.dataDone = false)
    (hok : placeOk g s.here c pl f.payload.length = true) : s.collActs f pl = s.takeData f.part c g pl f := by
  simp only [State.collActs, hn, hg, hd, ha, ht, Bool.or_self, Bool.false_eq_true, if_false]
  exact if_pos ⟨hs, by rw [hdata]; rfl, hok⟩

theorem State.collActs_tree (ht : bit f.arg 25 = true) : s.collActs f pl = s.takeTree f.part c g f := by
  simp only [State.collActs, hn, hg, hd, ha, ht, Bool.or_self, Bool.false_eq_true, if_false, if_true]

end

/-! ### Data frames (R288, R289) -/

section
variable {p : Nat} {vs : List Nat} {lo : Nat} (hlo : lo = g.pieceOff s.here (c.total g) pl.axis pl.piece + pl.off)
include hlo

theorem State.takeReduce_ringOwn (hr : g.ring s.size pl.axis = true) (hp : pl.piece = g.pos s.here pl.axis) :
    s.takeReduce p c g pl vs =
      s.updColl p c.key fun d => (d.sees (c.addOwn (lo / c.valSize) vs)).place (lo / c.valSize) (c.addOwn (lo / c.valSize) vs) := by
  subst hlo
  unfold State.takeReduce
  simp only [hp, if_true, hr]

theorem State.takeReduce_lineOwn (hr : g.ring s.size pl.axis = false) (hp : pl.piece = g.pos s.here pl.axis) :
    s.takeReduce p c g pl vs = s.updColl p c.key fun d => (List.range vs.length).foldl (fun d k =>
      d.lineElem (decide (0 < g.pos s.here pl.axis)) (decide (g.pos s.here pl.axis + 1 < g.span pl.axis)) pl.fromBelow (lo / c.valSize + k) (nth 0 vs k)) d := by
  subst hlo
  unfold State.takeReduce
  simp only [hp, if_true, hr, Bool.false_eq_true, if_false]

theorem State.takeReduce_passes (hp : pl.piece ≠ g.pos s.here pl.axis) :
    s.takeReduce p c g pl vs = (s.updColl p c.key (Coll.passes (c.addOwn (lo / c.valSize) vs))).sendValues p c
      (if g.ring s.size pl.axis = true ∨ pl.fromBelow = true then 2 * pl.axis else 2 * pl.axis + 1) lo (c.addOwn (lo / c.valSize) vs) := by
  subst hlo
  unfold State.takeReduce
  simp only [hp, if_false, Bool.or_eq_true]

/-- A gathered piece is not passed on when the next member has it, or there is none. -/
theorem State.takeGather_last (h : g.ring s.size pl.axis = true ∧ (g.pos s.here pl.axis + 1) % g.span pl.axis = pl.piece ∨
      g.ring s.size pl.axis = false ∧ (pl.fromBelow = true ∧ g.span pl.axis ≤ g.pos s.here pl.axis + 1 ∨ pl.fromBelow = false ∧ g.pos s.here pl.axis = 0)) :
    s.takeGather p c g pl vs = s.updColl p c.key (Coll.place (lo / c.valSize) vs) := by
  subst hlo
  unfold State.takeGather
  obtain ⟨hr, hp⟩ | ⟨hr, ⟨hb, hp⟩ | ⟨hb, hp⟩⟩ := h
  · simp only [hr, hp, if_true]
  · simp only [hr, hb, Nat.not_lt.2 hp, if_true, Bool.false_eq_true, if_false]
  · simp only [hr, hb, hp, Nat.lt_irrefl, Bool.false_eq_true, if_false]

theorem State.takeGather_up (h : g.ring s.size pl.axis = true ∧ (g.pos s.here pl.axis + 1) % g.span pl.axis ≠ pl.piece ∨
      g.ring s.size pl.axis = false ∧ pl.fromBelow = true ∧ g.pos s.here pl.axis + 1 < g.span pl.axis) :
    s.takeGather p c g pl vs = (s.updColl p c.key (Coll.place (lo / c.valSize) vs)).sendValues p c (2 * pl.axis) lo vs := by
  subst hlo
  unfold State.takeGather
  obtain ⟨hr, hp⟩ | ⟨hr, hb, hp⟩ := h
  · simp only [hr, hp, if_true, if_false]
  · simp only [hr, hb, hp, if_true, Bool.false_eq_true, if_false]

theorem State.takeGather_down (hr : g.ring s.size pl.axis = false) (hb : pl.fromBelow = false) (hp : 0 < g.pos s.here pl.axis) :
    s.takeGather p c g pl vs = (s.updColl p c.key (Coll.place (lo / c.valSize) vs)).sendValues p c (2 * pl.axis + 1) lo vs := by
  subst hlo
  unfold State.takeGather
  simp only [hr, hb, hp, if_true, Bool.false_eq_true, if_false]

end

/-- A data frame of a reduction (R288). -/
theorem State.takeData_reduce {p : Nat} (h : pl.gather = false) : s.takeData p c g pl f =
    (s.takeReduce p c g pl (valsOf c.valSize f.payload)).endStage p c.key (stageNeed g s.size s.here (c.total g) pl.axis pl.gather) := by
  unfold State.takeData
  simp only [h, Bool.false_eq_true, if_false]

/-- A data frame of a gather (R289). -/
theorem State.takeData_gather {p : Nat} (h : pl.gather = true) : s.takeData p c g pl f =
    (s.takeGather p c g pl (valsOf c.valSize f.payload)).endStage p c.key (stageNeed g s.size s.here (c.total g) pl.axis pl.gather) := by
  unfold State.takeData
  simp only [h, if_true]

/-! ### The tree pass (R291) -/

section
variable {p : Nat}

theorem State.takeTree_early (h : g.parent s.here = some f.src) (hu : c.upSent = false) : s.takeTree p c g f = s := by
  simp [State.takeTree, h, hu]

theorem State.takeTree_final (h : g.parent s.here = some f.src) (hu : c.upSent = true) :
    s.takeTree p c g f = s.treeDown p c g (bit f.arg 24) := by
  simp [State.takeTree, h, hu]

/-- What comes from no child, or from one that has given its result already, does nothing. -/
theorem State.takeTree_stray (h : g.parent s.here ≠ some f.src) (hc : f.src ∉ g.children s.here ∨ ∃ x ∈ c.up, x.1 = f.src) :
    s.takeTree p c g f = s := by
  have hno : ((g.children s.here).contains f.src && !c.up.any (fun u => u.1 == f.src)) = false := by
    rcases hc with hc | ⟨x, hx, hsrc⟩
    · simp [hc]
    · have hany : c.up.any (fun u => u.1 == f.src) = true := List.any_eq_true.2 ⟨x, hx, by simp [hsrc]⟩
      simp [hany]
  simp only [State.takeTree, h, hno, Bool.false_eq_true, if_false]

/-- An instruction that has a child's result. -/
def Coll.heard (src : Coord) (flag : Bool) (d : Coll) : Coll := { d with up := d.up ++ [(src, flag)] }

theorem Coll.heard_key (src : Coord) (flag : Bool) (d : Coll) : (d.heard src flag).key = d.key := rfl

theorem State.takeTree_child (h : g.parent s.here ≠ some f.src) (hc : f.src ∈ g.children s.here) (hnew : ∀ x ∈ c.up, x.1 ≠ f.src) :
    s.takeTree p c g f = (s.updColl p c.key (Coll.heard f.src (bit f.arg 24))).treeUp p c.key := by
  have hyes : ((g.children s.here).contains f.src && !c.up.any (fun u => u.1 == f.src)) = true := by
    simpa [hc] using hnew
  simp only [State.takeTree, h, hyes, if_false, if_true]
  rfl

variable {k : Nat × Nat} (hc : s.coll p k = some c) (hg : s.collGroup p c = some g)
include hc hg

/-- The result stays here until the data phase is complete and all children have given theirs. -/
theorem State.treeUp_waits (h : c.dataDone = false ∨ c.upSent = true ∨ ∃ b ∈ g.children s.here, ∀ x ∈ c.up, x.1 ≠ b) : s.treeUp p k = s := by
  have hwait : (!c.dataDone || c.upSent || !(g.children s.here).all (fun d => c.up.any fun u => u.1 == d)) = true := by
    rcases h with h | h | ⟨b, hb, hx⟩
    · simp [h]
    · simp [h]
    · have hall : (g.children s.here).all (fun d => c.up.any fun u => u.1 == d) = false := by
        rw [List.all_eq_false]
        refine ⟨b, hb, fun hany => ?_⟩
        obtain ⟨x, hx', heq⟩ := List.any_eq_true.1 hany
        exact hx x hx' (by simpa using heq)
      simp [hall]
  simp only [State.treeUp, hc, hg, hwait, if_true]

section
variable (hd : c.dataDone = true) (hu : c.upSent = false) (hall : ∀ b ∈ g.children s.here, ∃ x ∈ c.up, x.1 = b)
include hd hu hall

/-- It goes to the parent. -/
theorem State.treeUp_parent {b : Coord} (hb : g.parent s.here = some b) :
    s.treeUp p k = (s.updColl p k fun d => { d with upSent := true, flag := c.flag && c.up.all (·.2) }).sendTree p c (c.flag && c.up.all (·.2)) b := by
  have hgo : (!c.dataDone || c.upSent || !(g.children s.here).all (fun d => c.up.any fun u => u.1 == d)) = false := by
    simpa [hd, hu] using hall
  simp only [State.treeUp, hc, hg, hgo, hb, Bool.false_eq_true, if_false]

/-- The root has the final flag and sends it down. -/
theorem State.treeUp_root (hb : g.parent s.here = none) : s.treeUp p k = s.treeDown p c g (c.flag && c.up.all (·.2)) := by
  have hgo : (!c.dataDone || c.upSent || !(g.children s.here).all (fun d => c.up.any fun u => u.1 == d)) = false := by
    simpa [hd, hu] using hall
  simp only [State.treeUp, hc, hg, hgo, hb, Bool.false_eq_true, if_false]

end

end

end

end Sys2Proof.Machine
end

section
/-! SUPPORT. The end of a stage, the end of the data phase, and values in COLL frames. -/

namespace Sys2Proof.Machine

/-! ### The end of a stage (R288, R289) -/

/-- An instruction that goes to its next stage. -/
def Coll.nextStage (d : Coll) : Coll := { d with stage := d.stage + 1, got := 0, left := [], right := [] }

theorem Coll.nextStage_key (d : Coll) : d.nextStage.key = d.key := rfl

section
variable {s : State} {p need : Nat} {k : Nat × Nat} {c : Coll} {g : Group}

section
variable (hc : s.coll p k = some c)
include hc

/-- A stage that lacks bytes goes on. -/
theorem State.endStage_lacks (h : c.got < need) : s.endStage p k need = s := by
  simp only [State.endStage, hc, Nat.not_le.2 h, if_false]

theorem State.endStage_ends (h : need ≤ c.got) : s.endStage p k need = (s.updColl p k Coll.nextStage).runStages p k 8 := by
  simp only [State.endStage, hc, h, if_true]
  rfl

variable (hg : s.collGroup p c = some g)
include hg

/-- With no stage left the data phase is complete. -/
theorem State.runStages_last (n : Nat) (h : (stagesOf c.what.op g)[c.stage]? = none) : s.runStages p k (n + 1) = s.dataComplete p c g := by
  simp only [State.runStages, hc, hg, h]

/-- A stage that needs something from others is opened. -/
theorem State.runStages_opens (n : Nat) {ax : Nat} {gt : Bool} (h : (stagesOf c.what.op g)[c.stage]? = some (ax, gt))
    (hneed : stageNeed g s.size s.here (c.total g) ax gt ≠ 0) : s.runStages p k (n + 1) = s.openStage p g c ax gt := by
  simp only [State.runStages, hc, hg, h, hneed, if_false]

end

end

/-! ### Tokens of the result (R147) -/

section
variable {s : State} {f : Nat}

/-- A token after it has been raised n times. -/
def raisedTimes (old n : Nat) : Nat := if n = 0 then old else (old + n) % 2 ^ 32

theorem raisedTimes_raised (old n : Nat) : raisedTimes ((old + 1) % 2 ^ 32) n = raisedTimes old (n + 1) := by
  by_cases hn : n = 0
  · simp [raisedTimes, hn]
  · simp only [raisedTimes, hn, Nat.succ_ne_zero, if_false]
    omega

theorem raisedTimes_again (old n : Nat) : (raisedTimes old n + 1) % 2 ^ 32 = raisedTimes old (n + 1) := by
  by_cases hn : n = 0
  · simp [raisedTimes, hn]
  · simp only [raisedTimes, hn, Nat.succ_ne_zero, if_false]
    omega

/-- Where no warden stalls, tokens raised one after the other only count. -/
theorem State.forAll_raiseToken (tok : Nat → Nat) (is : List Nat) (hw : (s.getFrond f).wait = []) :
    (forAll is (fun i s => s.raiseToken f (tok i)) s) = { s with frond := (forAll is (fun i s => s.raiseToken f (tok i)) s).frond } ∧
    ((forAll is (fun i s => s.raiseToken f (tok i)) s).getFrond f).wait = [] ∧
    OtherFronds s (forAll is (fun i s => s.raiseToken f (tok i)) s) f ∧
    ∀ j, Tab.get 0 ((forAll is (fun i s => s.raiseToken f (tok i)) s).getFrond f).token j =
      raisedTimes (Tab.get 0 (s.getFrond f).token j) (is.filter fun i => tok i == j).length := by
  induction is generalizing s with
  | nil => exact ⟨rfl, hw, fun _ _ => rfl, fun j => rfl⟩
  | cons i is ih =>
    have hfrond := State.countToken_getFrond f (tok i) s
    have hw' : ((s.countToken f (tok i)).getFrond f).wait = [] := by rw [hfrond]; exact hw
    obtain ⟨hframe, hwait, hothers, hcount⟩ := ih hw'
    rw [forAll_cons, State.raiseToken_of_no_wait hw]
    refine ⟨hframe.trans rfl, hwait, fun g hg => (hothers g hg).trans (State.getFrond_updFrond_ne _ _ _ _ hg), fun j => ?_⟩
    have hone : Tab.get 0 ((s.countToken f (tok i)).getFrond f).token j =
        if j = tok i then (Tab.get 0 (s.getFrond f).token (tok i) + 1) % 2 ^ 32 else Tab.get 0 (s.getFrond f).token j := by
      rw [hfrond]
      exact Tab.get_upd 0 (s.getFrond f).token (tok i) j fun c => (c + 1) % 2 ^ 32
    rw [hcount j, hone, List.filter_cons]
    by_cases hj : j = tok i
    · simp only [hj, if_true, beq_self_eq_true, List.length_cons, raisedTimes_raised]
    · simp only [hj, if_false, beq_eq_false_iff_ne.2 (Ne.symm hj), Bool.false_eq_true]

end

/-! ### The end of the data phase (R148, R291) -/

section
variable {s : State} {p : Nat} {c : Coll} {g : Group}

/-- An instruction whose data phase is complete. -/
def Coll.withData (d : Coll) : Coll := { d with dataDone := true }

theorem Coll.withData_key (d : Coll) : d.withData.key = d.key := rfl

/-- The result that does not widen a gather. -/
theorem State.resultBytes_eq (h : c.what.op ≠ 4) : s.resultBytes c g =
    (if c.what.op = 3 then valBytes c.valSize (c.slice (g.rank s.here * (c.what.length / max g.size 1)) (c.what.length / max g.size 1))
      else valBytes c.valSize c.vals, 0) := by
  have hno : ¬(c.what.op = opAg ∧ c.what.landWiden = true) := fun hag => h hag.1
  unfold State.resultBytes
  rw [if_neg hno]
  exact (apply_ite (fun b : List Byte => (b, 0)) (c.what.op = 3) _ _).symm

/-- The result at DST with the tokens of its chunks, before DONE. -/
def State.resultRaised (p : Nat) (c : Coll) (b : List Byte) (s : State) : State :=
  ((s.fsWrite c.frond c.what.dst b).updColl p c.key Coll.withData).raiseChunks c (cdiv b.length (max c.what.chunk 1))

/-- The data phase of an instruction without a flag ends with its result and DONE. -/
theorem State.dataComplete_plain (h : c.what.op ≠ 4) (hr : c.what.reduces = false) :
    s.dataComplete p c g = (s.resultRaised p c (s.resultBytes c g).1).collDone p c.key := by
  have hno : ¬c.what.op = opAg := h
  have hcount : (s.resultBytes c g).2 = 0 := by rw [State.resultBytes_eq h]
  unfold State.dataComplete
  simp only [hno, hr, hcount, Bool.false_eq_true, if_false]
  rfl

/-- What the result and its tokens leave, where no warden of the frond stalls. -/
theorem State.resultRaised_spec (b : List Byte) (hc : s.coll p c.key = some c) (hw : (s.getFrond c.frond).wait = []) :
    (s.resultRaised p c b).coll p c.key = some c.withData ∧ (s.resultRaised p c b).store = s.store.writeN (storeKey c.frond c.what.dst) b ∧
    ((s.resultRaised p c b).getFrond c.frond).wait = [] ∧
    (∀ j, Tab.get 0 ((s.resultRaised p c b).getFrond c.frond).token j = raisedTimes (Tab.get 0 (s.getFrond c.frond).token j)
      ((List.range (cdiv b.length (max c.what.chunk 1))).filter fun i => c.what.tokenOut + i % max c.what.slots 1 == j).length) ∧
    s.resultRaised p c b = { s with
      store := (s.resultRaised p c b).store, frond := (s.resultRaised p c b).frond, part := (s.resultRaised p c b).part } := by
  obtain ⟨u, hu⟩ : ∃ u, u = (s.fsWrite c.frond c.what.dst b).updColl p c.key Coll.withData := ⟨_, rfl⟩
  have hwritten : (s.fsWrite c.frond c.what.dst b).coll p c.key = some c := hc
  have hcu : u.coll p c.key = some c.withData := by rw [hu, State.coll_updColl_same Coll.withData_key hwritten]
  have hwu : (u.getFrond c.frond).wait = [] := by rw [hu]; exact hw
  have htoken : (u.getFrond c.frond).token = (s.getFrond c.frond).token := by rw [hu]; rfl
  have hstore : u.store = s.store.writeN (storeKey c.frond c.what.dst) b := by rw [hu]; rfl
  have hframe : u = { s with store := u.store, part := u.part } := by rw [hu]; rfl
  have hraised := State.forAll_raiseToken (fun i => c.what.tokenOut + i % max c.what.slots 1) (List.range (cdiv b.length (max c.what.chunk 1))) hwu
  rw [show s.resultRaised p c b = forAll _ _ u by rw [hu]; rfl]
  obtain ⟨hrest, hwait, _, hcount⟩ := hraised
  refine ⟨?_, ?_, hwait, fun j => by rw [hcount, htoken], ?_⟩
  · rw [hrest]; exact hcu
  · rw [hrest]; exact hstore
  · rw [hrest, hframe]

/-- The data phase of an instruction without a flag: its result at DST, the tokens of its chunks, and DONE (R147, R148). -/
theorem State.dataComplete_plain_spec {b : List Byte} (hb : b = (s.resultBytes c g).1) (hc : s.coll p c.key = some c) (h : c.what.op ≠ 4)
    (hr : c.what.reduces = false) (hw : (s.getFrond c.frond).wait = []) :
    (s.dataComplete p c g).store = s.store.writeN (storeKey c.frond c.what.dst) b ∧
    (s.dataComplete p c g).coll p c.key = some { c with dataDone := true, done := true } ∧
    (∀ j, Tab.get 0 ((s.dataComplete p c g).getFrond c.frond).token j = raisedTimes (Tab.get 0 (s.getFrond c.frond).token j)
      (((List.range (cdiv b.length (max c.what.chunk 1))).filter fun i => c.what.tokenOut + i % max c.what.slots 1 == j).length +
        if j = c.what.done then 1 else 0)) ∧
    s.dataComplete p c g = { s with
      store := (s.dataComplete p c g).store, frond := (s.dataComplete p c g).frond, part := (s.dataComplete p c g).part } := by
  rw [State.dataComplete_plain h hr, ← hb]
  obtain ⟨hcoll, hstore, hwait, hcount, hframe⟩ := State.resultRaised_spec b hc hw
  generalize s.resultRaised p c b = u at *
  obtain ⟨hdone, _, htoken, _, _, hrest⟩ := State.collDone_spec hcoll
  refine ⟨?_, hdone, fun j => ?_, ?_⟩
  · rw [hrest]; exact hstore
  · have htoken' := htoken j
    by_cases hj : j = c.what.done
    · rw [if_pos hj, ← raisedTimes_again, ← hcount, hj]
      exact (htoken _).trans (if_pos rfl)
    · rw [if_neg hj, Nat.add_zero, ← hcount]
      exact htoken'.trans (if_neg hj)
  · rw [hrest, hframe]

/-- A reduction that is done returns its flag (R157, R175). -/
theorem State.collDone_reduces {k : Nat × Nat} (hc : s.coll p k = some c) (hr : c.what.reduces = true) (hw : (s.getFrond c.frond).wait = []) :
    ((s.collDone p k).getPart p).run.finite = ((s.getPart p).run.finite && c.flag) ∧
    ((s.collDone p k).getPart p).arith.nonfinite =
      (if c.flag then (s.getPart p).arith.nonfinite else satAdd 64 (s.getPart p).arith.nonfinite 1) ∧
    ∀ q, q ≠ p → (s.collDone p k).getPart q = s.getPart q := by
  have hpart := State.getPart_doneRaised (p := p) (k := k) hw
  obtain ⟨_, hfinite, hnonfinite⟩ := State.returnFlag_getPart_same p c.flag (s.doneRaised p k c)
  have hown : (s.doneRaised p k c).flagReturned p c = (s.doneRaised p k c).returnFlag p c.flag := if_pos hr
  rw [State.collDone_eq hc, hown]
  refine ⟨?_, ?_, fun q hq => ?_⟩
  · rw [State.noteVote_getPart_same, hfinite, hpart, State.getPart_updColl_same]
  · rw [State.noteVote_getPart_same, hnonfinite, hpart, State.getPart_updColl_same]
  · rw [State.noteVote_getPart_ne hq, State.returnFlag_getPart_ne hq, hpart, State.getPart_updColl_ne hq]

end

/-! ### Values in frames (R231, R292, R293) -/

section
variable {s : State} {p dir lo port : Nat} {c : Coll} {vs : List Nat}

/-- Data frame j of the values from byte lo on. -/
def State.valueFrame (s : State) (p : Nat) (c : Coll) (dir lo : Nat) (b : List Byte) (j : Nat) : Frame :=
  { dst := neighbour s.size s.here dir, src := s.here, part := p, kind := 2, vl := 1
    token := (lo + dataStep c.what * j) / max c.what.chunk 1 % 65536
    arg := c.group % 65536 + 2 ^ 16 * (c.inst % 256) + 0, payload := (b.drop (dataStep c.what * j)).take (dataStep c.what) }

theorem dataStep_pos (x : Fused) : 0 < dataStep x := by unfold dataStep; omega

/-- Values leave in their frames, in order, on a port with slots. -/
theorem State.sendValues_queued (hp : s.slotPort p dir = some port) (hsel : s.isSelvage port = false) (hup : (s.getPort port).state = .up) :
    s.Queued port (s.sendValues p c dir lo vs) ((List.range (cdiv (valBytes c.valSize vs).length (dataStep c.what))).map
      (s.valueFrame p c dir lo (valBytes c.valSize vs))) := by
  refine State.forAll_queued _ hsel hup fun j _ t ht => ?_
  have hport : t.slotPort p dir = some port := by rw [← hp, ht]; rfl
  have hframe : t.valueFrame p c dir lo (valBytes c.valSize vs) j = s.valueFrame p c dir lo (valBytes c.valSize vs) j := by rw [ht]; rfl
  simp only [State.sendColl, hport]
  exact congrArg (t.sendHop port) hframe

/-- The frames of values are their bytes. -/
theorem valueFrames_payload (s : State) (p : Nat) (c : Coll) (dir lo : Nat) (b : List Byte) :
    ((List.range (cdiv b.length (dataStep c.what))).map (s.valueFrame p c dir lo b)).flatMap (·.payload) = b := by
  rw [List.flatMap_map]
  exact flatMap_pieces_all b (dataStep_pos _)

end

end Sys2Proof.Machine
end

section
/-! SUPPORT. COLL frames advance the instruction that they belong to: the frame's progress, its cases, and O55. -/

namespace Sys2Proof.Machine

section
variable {s u : State} {port : Nat} {f : Frame} {pl : CollPlace} {c : Coll} {g : Group}

/-- A frame of an instruction is progress, and acts on the instruction (R292, R295). -/
theorem State.takeRx_collTaken {c0 : Coll} (hk : f.kind = 2) (hn : s.collNamed f = some c0) (hc0 : s.coll f.part c0.key = some c0)
    (hu : u = (s.takeRx port f).updColl f.part c0.key (Coll.progressed s.sync.stitch)) (hc : c = c0.progressed s.sync.stitch) :
    (s.takeRx port f).collTaken f pl = u.collActs f pl ∧ u.collNamed f = some c ∧ u.coll f.part c0.key = some c ∧
      u.collGroup f.part c = s.collGroup f.part c0 ∧ u.here = s.here ∧ u.size = s.size := by
  subst hu hc
  have hpart := State.takeRx_getPart port f s f.part
  have hn' : (s.takeRx port f).collNamed f = some c0 := by rw [State.collNamed, hpart]; exact hn
  have hcoll : (s.takeRx port f).coll f.part c0.key = some c0 := (State.coll_congr (congrArg (·.colls) hpart) _).trans hc0
  have hgroup : (s.takeRx port f).collGroup f.part c0 = s.collGroup f.part c0 := by rw [State.collGroup, hpart]; rfl
  have hsync := State.takeRx_sync port f s
  have hhere := State.takeRx_here port f s
  have hsize := State.takeRx_size port f s
  generalize s.takeRx port f = w at *
  have hnamed := State.collNamed_progressed hn'
  rw [hsync] at hnamed
  refine ⟨?_, hnamed, State.coll_updColl_same (Coll.progressed_key _) hcoll, (State.collGroup_updColl _).trans hgroup, hhere, hsize⟩
  rw [State.collTaken, State.collProgress_named hk hn', hsync]

/-- A tree-pass frame from a child, when its result is here (R291). -/
theorem State.takeTree_heard {p : Nat} {k : Nat × Nat} {d : Coll} (hkey : c.key = k) (hc : s.coll p k = some c) (hg : s.collGroup p c = some g)
    (hpar : g.parent s.here ≠ some f.src) (hch : f.src ∈ g.children s.here) (hnew : ∀ x ∈ c.up, x.1 ≠ f.src)
    (hu : u = s.updColl p k (Coll.heard f.src (bit f.arg 24))) (hd : d = c.heard f.src (bit f.arg 24)) :
    u.coll p k = some d ∧ s.takeTree p c g f = u.treeUp p k ∧ u.collGroup p d = some g ∧ u.here = s.here := by
  subst hkey hu hd
  exact ⟨State.coll_updColl_same (Coll.heard_key _ _) hc, State.takeTree_child hpar hch hnew, (State.collGroup_updColl _).trans hg, rfl⟩

end

/-- Settles O55: what a frame does is read off the cases of collActs; stages and the data phase end by their own equations; frames of values
are queued one by one. -/
theorem collectiveFramesAdvance : Obligations.CollectiveFramesAdvance := by
  unfold Obligations.CollectiveFramesAdvance
  refine fun s port f pl => ⟨exec_collFrame_other, exec_collFrame_waits, exec_collFrame_elsewhere, exec_collFrame_dead,
    fun hk hd hh hl hw => ?_, fun c g p need k hc hkey hg => ⟨State.endStage_lacks hc, fun hn hlast => ?_, fun ax gt hn hst hne => ?_,
      fun hop hr hwait => ?_, fun hr hwait t ht => ?_⟩, fun p dir lo port c vs b hb hp hsel hup => ?_⟩
  · rw [exec_collFrame_taken hk hd hh hl hw]
    refine ⟨fun hn => ?_, fun c0 hn hc0 => ?_⟩
    · rw [State.collTaken_unnamed (by rw [State.collNamed, State.takeRx_getPart]; exact hn)]
    · obtain ⟨u, hu⟩ : ∃ u, u = (s.takeRx port f).updColl f.part c0.key (Coll.progressed s.sync.stitch) := ⟨_, rfl⟩
      obtain ⟨c, hc⟩ : ∃ c, c = c0.progressed s.sync.stitch := ⟨_, rfl⟩
      obtain ⟨hacts, hnamed, hcoll, hgroup, hhere, hsize⟩ := State.takeRx_collTaken (port := port) (pl := pl) hk hn hc0 hu hc
      obtain ⟨hkey, hdone, haborted⟩ : c.key = c0.key ∧ c.done = c0.done ∧ c.aborted = c0.aborted := by rw [hc]; exact ⟨rfl, rfl, rfl⟩
      refine ⟨u, c, hc, hu, hcoll, ?_⟩
      rw [hacts, ← hgroup, ← hdone, ← haborted, ← hhere, ← hsize]
      rw [← hkey] at hcoll
      refine ⟨fun hover => by rw [State.collActs_over hnamed hover], fun g hg hd ha => ⟨fun ht hstray => ?_, fun vs ws lo i need me n ht hst hdata hok
        hvs hlo hi hme hn hws hneed => ?_, fun ht => ?_⟩⟩
      · rw [State.collActs_elsewhere hnamed hg hd ha ht hstray]
      · rw [State.collActs_data hnamed hg hd ha ht hst hdata hok]
        subst hvs hi hme hn hws hneed
        refine ⟨fun hga hr hp => ⟨_, ?_, rfl⟩, fun hga hr hp => ⟨_, ?_, rfl⟩, fun hga hp => ⟨_, ?_, rfl⟩, fun b hga hb =>
          ⟨fun hwhere => ?_, fun hwhere => ?_, fun ⟨hr, hbelow, hpos⟩ => ?_⟩⟩
        · rw [State.takeData_reduce hga, State.takeReduce_ringOwn hlo hr hp]; rfl
        · rw [State.takeData_reduce hga, State.takeReduce_lineOwn hlo hr hp]
        · rw [State.takeData_reduce hga, State.takeReduce_passes hlo hp]; rfl
        · rw [State.takeData_gather hga, State.takeGather_last hlo hwhere, hb]; rfl
        · rw [State.takeData_gather hga, State.takeGather_up hlo hwhere, hb]; rfl
        · rw [State.takeData_gather hga, State.takeGather_down hlo hr hbelow hpos, hb]; rfl
      · rw [State.collActs_tree hnamed hg hd ha ht]
        refine ⟨fun hpar hup => ?_, fun hpar hstray => ?_, fun hpar hup => ⟨_, rfl, ?_⟩, fun hpar hch hnew => ?_⟩
        · rw [State.takeTree_early hpar hup]
        · rw [State.takeTree_stray hpar hstray]
        · rw [State.takeTree_final hpar hup]; rfl
        · obtain ⟨v, hv⟩ : ∃ v, v = u.updColl f.part c.key (Coll.heard f.src (bit f.arg 24)) := ⟨_, rfl⟩
          obtain ⟨d, hd⟩ : ∃ d, d = c.heard f.src (bit f.arg 24) := ⟨_, rfl⟩
          obtain ⟨hvcoll, htake, hvgroup, hvhere⟩ := State.takeTree_heard rfl hcoll hg hpar hch hnew hv hd
          obtain ⟨hdata, hsent, hflag, hdkey⟩ : d.dataDone = c.dataDone ∧ d.upSent = c.upSent ∧ d.flag = c.flag ∧ d.key = c.key := by
            rw [hd]; exact ⟨rfl, rfl, rfl, rfl⟩
          refine ⟨v, d, hv, hd, hvcoll, ?_⟩
          rw [htake, ← hdata, ← hsent, ← hflag, ← hvhere]
          refine ⟨fun hwait => by rw [State.treeUp_waits hvcoll hvgroup hwait], fun hdone hup hall fl hfl => ⟨fun b hb => ?_, fun hb => ?_⟩⟩
          · rw [State.treeUp_parent hvcoll hvgroup hdone hup hall hb, hfl]
          · rw [State.treeUp_root hvcoll hvgroup hdone hup hall hb, hfl, ← hdkey]; rfl
  · rw [State.endStage_ends hc hn, State.runStages_last (State.coll_updColl_same Coll.nextStage_key hc) ((State.collGroup_updColl _).trans hg) 7
      (List.getElem?_eq_none hlast)]
    rfl
  · exact (State.endStage_ends hc hn).trans (State.runStages_opens (State.coll_updColl_same Coll.nextStage_key hc)
      ((State.collGroup_updColl _).trans hg) 7 hst hne)
  · subst hkey
    have hbytes := State.resultBytes_eq (s := s) (g := g) hop
    obtain ⟨hstore, hcoll, hcount, hframe⟩ := State.dataComplete_plain_spec (g := g) rfl hc hop hr hwait
    refine ⟨(s.resultBytes c g).1, fun h3 => ?_, fun h3 => ?_, ?_, fun x hx => ?_, hcoll, fun j n hn hpos => ?_, hframe⟩
    · rw [hbytes, if_neg h3]
    · rw [hbytes, if_pos h3]
    · rw [State.fsRead, hstore]
      exact Mem.readN_writeN _ _ _
    · rw [hstore]
      exact Mem.read_writeN_out _ _ _ hx
    · rw [hcount, ← hn, raisedTimes, if_neg (Nat.pos_iff_ne_zero.1 hpos)]
  · subst ht
    obtain ⟨hdone, _, htoken, hfronds, _, hframe⟩ := State.collDone_spec hc
    obtain ⟨hfinite, hnonfinite, hparts⟩ := State.collDone_reduces hc hr hwait
    exact ⟨hdone, hfinite, hnonfinite, (htoken _).trans (if_pos rfl), hfronds, hparts, hframe⟩
  · subst hb
    obtain ⟨hport, hports, hframe⟩ := State.sendValues_queued (vs := vs) (lo := lo) hp hsel hup
    refine ⟨_, _, rfl, hport, valueFrames_payload _ _ _ _ _ _, fun j fr hfr => ?_, hports, hframe⟩
    obtain ⟨_, rfl⟩ := getElem?_map_range hfr
    exact ⟨rfl, rfl, rfl, rfl, rfl, rfl, List.length_take_le _ _, rfl⟩

end Sys2Proof.Machine
end

section
/-! SUPPORT. The units of a frond: under what a unit, a warden and a pinnule run, and what a frond fault leaves. -/

namespace Sys2Proof.Machine

/-! ### What runs on a frond (R64, R65, R67, R130) -/

section
variable {s : State} {f unit w n slot p : Nat} {r : FrondRec}

/-- A unit that runs has not been stopped (R77). -/
theorem State.unitRuns_stopped (h : s.unitRuns f unit = some (p, r)) : unit ∉ (s.getFrond f).stopped := by
  unfold State.unitRuns at h
  split at h
  · cases h
  · dsimp only at h
    split at h
    · next hrun => simpa using (Bool.and_eq_true_iff.1 hrun).2
    · cases h

/-- Pattern code runs under a unit that runs, while nothing makes it discard the step's rest (R163). -/
theorem State.codeRuns_some (h : s.codeRuns f unit = some (p, r)) : s.unitRuns f unit = some (p, r) ∧ (s.getPart p).run.discard = false := by
  unfold State.codeRuns at h
  split at h
  · next q r' hrun =>
    split at h
    · cases h
    · next hdisc =>
      cases h
      exact ⟨hrun, Bool.not_eq_true _ ▸ hdisc⟩
  · cases h

/-- A warden that issues stalls on nothing, and its code runs (R130). -/
theorem State.issuer_some (h : s.issuer f w = some (p, r)) :
    s.waitOf f w = none ∧ s.unitRuns f (unitPinnule (wardenPinnule w)) = some (p, r) ∧ (s.getPart p).run.discard = false := by
  unfold State.issuer at h
  split at h
  · cases h
  · next hwait => exact ⟨by simpa using hwait, State.codeRuns_some h⟩

/-- A shared unit as a warden issues to it: both run, under the frond's partition (R65). -/
theorem State.driven_some {d : Bool} (h : s.driven f unit w = some (p, r, d)) :
    (∃ r', s.issuer f w = some (p, r')) ∧ s.unitRuns f unit = some (p, r) ∧ d = (r.warden unit == w) := by
  unfold State.driven at h
  split at h
  · next y x hissuer hunit =>
    cases h
    obtain ⟨q, r'⟩ := y
    have hown := (State.unitRuns_owner (State.issuer_some hissuer).2.1).1
    rw [(State.unitRuns_owner hunit).1] at hown
    cases hown
    exact ⟨⟨r', hissuer⟩, hunit, rfl⟩
  · cases h

/-- A pinnule that goes on runs (R67). -/
theorem State.pinGoes_some (hn : n < 528) (h : s.pinGoes f n = some (p, r)) : s.unitRuns f (unitPinnule n) = some (p, r) := by
  unfold State.pinGoes at h
  split at h
  · exact h
  · next hw =>
    have hgang : unitPinnule (wardenPinnule (gangOf n)) = unitPinnule n := by
      simp only [unitPinnule, wardenPinnule, gangOf, hw, if_false]; omega
    exact hgang ▸ (State.issuer_some h).2.1

/-- A pinnule whose gang runs a slot runs. -/
theorem State.pinRuns_some (h : s.pinRuns f n slot = some (p, r)) : s.unitRuns f (unitPinnule n) = some (p, r) := by
  unfold State.pinRuns at h
  split at h
  · next hn => exact State.pinGoes_some hn.1 h
  · cases h

/-- A pinnule of a gang that runs some slot runs. -/
theorem State.pinBusy_some (h : s.pinBusy f n = some (p, r)) : s.unitRuns f (unitPinnule n) = some (p, r) := by
  unfold State.pinBusy at h
  split at h
  · next hn => exact State.pinGoes_some hn.1 h
  · cases h

end

/-! ### One event of a frond group's class (R402) -/

/-- From s to t the fault log has got at most one more entry, and the interrupt registers follow. -/
def State.Logged (s t : State) : Prop :=
  t = { s with faults := t.faults, irq := t.irq, pcie := t.pcie, out := t.out } ∧ (∀ c, s.caused c → t.caused c) ∧
  ∀ e, s.newest = some e → e ∈ t.faults.log

section
variable {s t u : State}

/-- The entry before the newest one stays in the log (R408). -/
theorem Faults.mem_push {f : Faults} {e v : LogEntry} (h : f.log.getLast? = some e) : e ∈ (f.push v).log := by
  obtain ⟨l, hl⟩ := List.getLast?_eq_some_iff.1 h
  have hdrop : (f.push v).log = (l ++ [e] ++ [v]).drop ((l ++ [e]).length + 1 - 4096) := by simp only [Faults.push, hl]
  have hle : (l ++ [e]).length + 1 - 4096 ≤ l.length := by simp
  rw [hdrop, List.append_assoc, List.drop_append_of_le_length hle]
  simp

/-- A log that takes an entry keeps its units, marks and policies. -/
theorem Faults.push_frame (f : Faults) (e : LogEntry) : f.push e = { f with log := (f.push e).log, next := f.next + 1 } := by
  simp only [Faults.push]

theorem State.log_logged (a : LogArgs) (s : State) : s.Logged (s.log a) :=
  ⟨State.log_frame a s, fun _ h => State.log_keeps_caused a h, fun e h => by rw [State.log_faults]; exact Faults.mem_push h⟩

/-- Causes and the units of a class may change without the log. -/
theorem State.Logged.also (h : s.Logged t) (hu : u = { t with faults := { u.faults with log := t.faults.log }, irq := u.irq, pcie := u.pcie, out := u.out })
    (hc : ∀ c, t.caused c → u.caused c) : s.Logged u := by
  obtain ⟨h1, h2, h3⟩ := h
  refine ⟨?_, fun c hs => hc c (h2 c hs), fun e he => ?_⟩
  · rw [hu, h1]
  · rw [hu]; exact h3 e he

/-- An event of class 2 changes the log, the unit's count and the marks of the frond groups. -/
theorem State.groupEvent_logged (g : Nat) (s : State) : s.Logged (s.faultEvent 2 g 0 0) := by
  have hcount : ∀ y : FaultUnit → FaultUnit, s.Logged (s.updUnit 2 g y) := fun y =>
    ⟨rfl, fun _ h => h, fun e he => List.mem_of_getLast? he⟩
  by_cases hheld : s.unitHeld 2 g = true
  · have hev : s.faultEvent 2 g 0 0 = s.updUnit 2 g fun x => { x with count := satAdd 32 x.count 1 } := by
      simp only [State.faultEvent, hheld, if_true]
    rw [hev]
    exact hcount _
  · rw [State.faultEvent_eq (w := (s.policy 2).1) (h := (s.policy 2).2) (Bool.not_eq_true _ ▸ hheld) (by decide) rfl rfl]
    have hlog : ∀ (y : FaultUnit) (a : LogArgs), s.Logged ((s.updUnit 2 g fun _ => y).log a) := fun y a => by
      obtain ⟨h1, h2, h3⟩ := State.log_logged a (s.updUnit 2 g fun _ => y)
      exact ⟨by rw [h1]; rfl, h2, h3⟩
    split
    · refine (hlog _ _).also ?_ fun c hc => State.raise_keeps_caused .lasting hc
      simp only [State.lastingOutcome, if_true]
      rw [State.raise_frame]
    · split
      · exact hlog _ _
      · exact hcount _

/-- The first event of a group's window is counted and logged (R402, R430). -/
theorem State.groupEvent_first {g : Nat} (hheld : s.unitHeld 2 g = false) (hnone : (Tab.get {} s.faults.unit (unitKey 2 g)).count = 0)
    (hpol : 1 < (s.policy 2).2) : (Tab.get {} (s.faultEvent 2 g 0 0).faults.unit (unitKey 2 g)).count = 1 ∧
      ∃ v, (s.faultEvent 2 g 0 0).newest = some v ∧ v.kind = 1 ∧ v.cls = 2 ∧ v.unitKind = classUnitKind 2 ∧ v.unit = g ∧ v.seq = s.faults.next := by
  have hone : ((Tab.get {} s.faults.unit (unitKey 2 g)).counted s.aon.ticks (s.policy 2).1).count = 1 := by
    rw [FaultUnit.counted, if_pos (.inl hnone)]
  rw [State.faultEvent_eq (w := (s.policy 2).1) (h := (s.policy 2).2) hheld (by decide) rfl rfl, hone, if_neg (Nat.not_le.2 hpol), if_pos (.inl hnone)]
  refine ⟨?_, _, State.log_newest _ _, rfl, rfl, rfl, rfl, rfl⟩
  rw [State.log_units, State.updUnit_unit, if_pos rfl, hone]

end

/-! ### A frond fault (R77, R430) -/

/-- The HALT entry of a frond fault (R430). -/
def frondEntry (f source slot pin off p : Nat) : LogArgs :=
  { kind := 4, code := .internal, part := p, unitKind := 4, unit := f
    detail := [⟨0, 2, f⟩, ⟨2, 1, source⟩, ⟨3, 1, slot⟩, ⟨4, 2, pin⟩, ⟨6, 2, off⟩] }

/-- The detail of a frond fault's entry, field by field (R430). -/
theorem frondEntry_detail (f source slot pin off p : Nat) (s : State) :
    let d := (s.entry (frondEntry f source slot pin off p)).detail
    fld d 0 2 = f % 2 ^ 16 ∧ fld d 2 1 = source % 2 ^ 8 ∧ fld d 3 1 = slot % 2 ^ 8 ∧ fld d 4 2 = pin % 2 ^ 16 ∧ fld d 6 2 = off % 2 ^ 16 := by
  refine ⟨?_, ?_, ?_, ?_, ?_⟩ <;>
    simp [State.entry, frondEntry, fld_record_skip, fld_record_head]

/-- The state in which a frond fault has stopped the unit, been logged and set its cause. -/
def State.frondStopped (f unit source slot pin off p : Nat) (s : State) : State :=
  ((s.updFrond f fun x => { x with stopped := x.stopped ++ [unit] }).log (frondEntry f source slot pin off p)).raise .frond

section
variable {s : State} {f unit source slot pin off p : Nat}

/-- A frond fault of a unit that has not been stopped. -/
theorem State.frondFault_eq (hown : s.owner f = some p) (hunit : unit ∉ (s.getFrond f).stopped) :
    s.frondFault f unit source slot pin off = ((s.frondStopped f unit source slot pin off p).haltDue p .internal).faultEvent 2 (frondGroup f) 0 0 := by
  have hstop : s.updFrond f (fun x => { x with stopped := if x.stopped.contains unit then x.stopped else x.stopped ++ [unit] }) =
      s.updFrond f fun x => { x with stopped := x.stopped ++ [unit] } := by
    have hno : (s.getFrond f).stopped.contains unit = false := by simpa using hunit
    have hno' : (Tab.get {} s.frond f).stopped.contains unit = false := hno
    simp only [State.updFrond, Tab.upd, hno', Bool.false_eq_true, if_false]
  simp only [State.frondFault, hstop, hown]
  rfl

/-- What a fault stops, logs and sets (R77, R430). -/
theorem State.frondStopped_spec (f unit source slot pin off p : Nat) (s : State) :
    let t := s.frondStopped f unit source slot pin off p
    t.getFrond f = { s.getFrond f with stopped := (s.getFrond f).stopped ++ [unit] } ∧ OtherFronds s t f ∧
    t.newest = some (s.entry (frondEntry f source slot pin off p)) ∧ (s.irq.status.length = 11 → t.caused .frond) ∧
    t.faults.unit = s.faults.unit ∧ t.faults.next = s.faults.next + 1 ∧ t.faults = { s.faults with log := t.faults.log, next := t.faults.next } ∧
    t = { s with frond := t.frond, faults := t.faults, irq := t.irq, pcie := t.pcie, out := t.out } := by
  intro t
  obtain ⟨u, hu⟩ : ∃ u, u = s.updFrond f fun x => { x with stopped := x.stopped ++ [unit] } := ⟨_, rfl⟩
  have hframe : u = { s with frond := u.frond } := by rw [hu]; rfl
  have ht : t = (u.log (frondEntry f source slot pin off p)).raise .frond := by rw [hu]; rfl
  have hfaults : t.faults = s.faults.push (s.entry (frondEntry f source slot pin off p)) := by
    rw [ht, State.raise_faults, State.log_faults, hframe]; rfl
  have hfrond : ∀ g, t.getFrond g = u.getFrond g := fun g => by rw [ht, State.raise_getFrond, State.log_getFrond]
  refine ⟨?_, fun g hg => ?_, ?_, fun hirq => ?_, by rw [hfaults, Faults.push_unit], by rw [hfaults, Faults.push_next],
    by rw [hfaults, Faults.push_next, ← Faults.push_frame], ?_⟩
  · rw [hfrond, hu, State.getFrond_updFrond_same]
  · rw [hfrond, hu, State.getFrond_updFrond_ne _ _ _ _ hg]
  · rw [State.newest, hfaults, Faults.push_newest]
  · rw [ht]
    refine State.raise_caused .frond ?_
    rw [(State.log_keepsRecord _ u).2.2, hframe]
    exact hirq
  · rw [ht, State.raise_frame, State.log_frame, hframe]

/-- A live pattern with no halt due gets INTERNAL; one whose halt is due keeps it (R127). -/
theorem Partition.haltedDue_running {q : Partition} (h : q.pat = .running) (st : Status) (k : Nat) :
    (q.run.halt = none → q.haltedDue st k = { q with run := { q.run with halt := some st, haltAt := k } }) ∧
    (q.run.halt ≠ none → q.haltedDue st k = q) := by
  have hlive : q.live = true := by simp [Partition.live, h]
  exact ⟨fun hn => if_pos ⟨hlive, hn⟩, fun hn => if_neg fun hc => hn hc.2⟩

/-- What O49 lists of a frond fault that came in s and was dealt with in t; s0 is s with the faulting instruction taken. -/
def FaultDealt (s s0 t : State) (f unit source slot pin off p : Nat) : Prop :=
  ∃ e : LogEntry, t.getFrond f = { s0.getFrond f with stopped := (s.getFrond f).stopped ++ [unit] } ∧
    OtherFronds s t f ∧ e ∈ t.faults.log ∧ e.seq = s.faults.next ∧ e.kind = 4 ∧ e.code = .internal ∧ e.part = p ∧ e.unitKind = 4 ∧ e.unit = f ∧
    fld e.detail 0 2 = f % 2 ^ 16 ∧ fld e.detail 2 1 = source % 2 ^ 8 ∧ fld e.detail 3 1 = slot % 2 ^ 8 ∧ fld e.detail 4 2 = pin % 2 ^ 16 ∧
    fld e.detail 6 2 = off % 2 ^ 16 ∧ (s.irq.status.length = 11 → t.caused .frond) ∧
    ((s.getPart p).run.halt = none →
      t.getPart p = { s.getPart p with run := { (s.getPart p).run with halt := some .internal, haltAt := s.sync.stitch } }) ∧
    ((s.getPart p).run.halt ≠ none → t.getPart p = s.getPart p) ∧ (∀ q, q ≠ p → t.getPart q = s.getPart q) ∧
    (s.unitHeld 2 (frondGroup f) = false → (Tab.get {} s.faults.unit (unitKey 2 (frondGroup f))).count = 0 → 1 < (s.policy 2).2 →
      (Tab.get {} t.faults.unit (unitKey 2 (frondGroup f))).count = 1 ∧
      ∃ v, t.newest = some v ∧ v.kind = 1 ∧ v.cls = 2 ∧ v.unitKind = classUnitKind 2 ∧ v.unit = frondGroup f ∧ v.seq = s.faults.next + 1) ∧
    t = { s with frond := t.frond, part := t.part, faults := t.faults, irq := t.irq, pcie := t.pcie, out := t.out }

/-- A frond fault of a unit that runs is dealt with (R77, R127, R402, R430). -/
theorem State.frondFault_dealt {r : FrondRec} (h : s.unitRuns f unit = some (p, r)) :
    FaultDealt s s (s.frondFault f unit source slot pin off) f unit source slot pin off p := by
  obtain ⟨hown, hpat⟩ := State.unitRuns_owner h
  rw [State.frondFault_eq hown (State.unitRuns_stopped h)]
  obtain ⟨hstopped, hothers, hnewest, hcaused, hunits, hnext, hrest, hframe⟩ := State.frondStopped_spec f unit source slot pin off p s
  obtain ⟨hd0, hd2, hd3, hd4, hd6⟩ := frondEntry_detail f source slot pin off p s
  generalize s.frondStopped f unit source slot pin off p = u at *
  obtain ⟨v, hv⟩ : ∃ v, v = u.haltDue p .internal := ⟨_, rfl⟩
  have hvu : v = { u with part := v.part } := by rw [hv, State.haltDue_frame]
  have hpart : ∀ k, v.getPart k = if k = p then (s.getPart p).haltedDue .internal s.sync.stitch else s.getPart k := fun k => by
    rw [hv, State.haltDue_getPart, hframe]; rfl
  have hfaults : v.faults = u.faults := by rw [hvu]
  rw [← hv]
  obtain ⟨hlogged, hcauses, hlog⟩ := State.groupEvent_logged (frondGroup f) v
  have hfirst := State.groupEvent_first (s := v) (g := frondGroup f)
  generalize v.faultEvent 2 (frondGroup f) 0 0 = t at *
  have hfrond : ∀ g, t.getFrond g = u.getFrond g := fun g => by rw [hlogged, hvu]; rfl
  have hparts : ∀ k, t.getPart k = v.getPart k := fun k => by rw [hlogged]; rfl
  refine ⟨_, (hfrond f).trans hstopped, fun g hg => (hfrond g).trans (hothers g hg), hlog _ ?_, rfl, rfl, rfl, rfl, rfl, rfl, hd0, hd2, hd3, hd4, hd6,
    fun hirq => hcauses _ ?_, fun hn => ?_, fun hn => ?_, fun q hq => ?_, fun hheld hnone hpol => ?_, ?_⟩
  · rw [State.newest, hfaults]; exact hnewest
  · rw [hvu]; exact hcaused hirq
  · rw [hparts, hpart, if_pos rfl, (Partition.haltedDue_running hpat _ _).1 hn]
  · rw [hparts, hpart, if_pos rfl, (Partition.haltedDue_running hpat _ _).2 hn]
  · rw [hparts, hpart, if_neg hq]
  · rw [← hnext, ← hfaults]
    refine hfirst ?_ ?_ ?_
    · rw [← hheld, hvu, hframe, State.unitHeld, State.unitHeld, hrest]; rfl
    · rw [hfaults, hunits]; exact hnone
    · have hp : v.policy 2 = s.policy 2 := by
        rw [hvu, State.policy, State.policy, State.policySet, State.policySet, hrest]
      rw [hp]; exact hpol
  · rw [hlogged, hvu, hframe]

/-- A fault of an instruction that its pinnule has taken already. -/
theorem FaultDealt.of_taken {s0 t : State} (h0 : s0 = { s with frond := s0.frond }) (hst : (s0.getFrond f).stopped = (s.getFrond f).stopped)
    (ho : OtherFronds s s0 f) (h : FaultDealt s0 s0 t f unit source slot pin off p) : FaultDealt s s0 t f unit source slot pin off p := by
  generalize s0.frond = F at h0
  subst h0
  obtain ⟨e, hstopped, hothers, hrest⟩ := h
  exact ⟨e, by rw [hstopped, hst], fun g hg => (hothers g hg).trans (ho g hg), hrest⟩

end

end Sys2Proof.Machine
end

section
/-! SUPPORT. The commands of the frond's units, each by who issues it: what each does as its unit is driven, and the frond faults among them. -/

namespace Sys2Proof.Machine

/-! ### Commands of a warden (R64, R65) -/

/-- What a warden's command to a shared unit does: nothing where warden or unit does not run, a frond fault where another warden drives the unit, and
its meaning else. -/
def State.drivenBy (f unit w : Nat) (act : Nat → FrondRec → State) (s : State) : State :=
  match s.driven f unit w with
  | none => s
  | some (p, r, true) => act p r
  | some (_, _, false) => s.wardenFault f w

section
variable {s : State} {f unit w p : Nat} {r : FrondRec} {act : Nat → FrondRec → State}

theorem State.drivenBy_idle (h : s.driven f unit w = none) : s.drivenBy f unit w act = s := by simp only [State.drivenBy, h]

theorem State.drivenBy_foreign (h : s.driven f unit w = some (p, r, false)) : s.drivenBy f unit w act = s.wardenFault f w := by
  simp only [State.drivenBy, h]

theorem State.drivenBy_own (h : s.driven f unit w = some (p, r, true)) : s.drivenBy f unit w act = act p r := by simp only [State.drivenBy, h]

/-- A meaning that asks in turn whether the unit is driven, and by whom, is its own part under drivenBy. -/
theorem State.eq_drivenBy {t : State} (hidle : s.driven f unit w = none → t = s)
    (hforeign : ∀ p r, s.driven f unit w = some (p, r, false) → t = s.wardenFault f w)
    (hown : ∀ p r, s.driven f unit w = some (p, r, true) → t = act p r) : t = s.drivenBy f unit w act := by
  match h : s.driven f unit w with
  | none => rw [State.drivenBy_idle h, hidle h]
  | some (p, r, false) => rw [State.drivenBy_foreign h, hforeign p r h]
  | some (p, r, true) => rw [State.drivenBy_own h, hown p r h]

/-- A command to a unit that does not run, or of a warden that does not. -/
theorem exec_idle {c : Instr} (he : exec c s = .next (s.drivenBy f unit w act)) (h : s.driven f unit w = none) : exec c s = .next s :=
  he.trans (congrArg _ (State.drivenBy_idle h))

/-- A command of a warden that does not drive the unit (R65). -/
theorem exec_foreign {c : Instr} (he : exec c s = .next (s.drivenBy f unit w act)) (h : s.driven f unit w = some (p, r, false)) :
    exec c s = .next (s.wardenFault f w) := he.trans (congrArg _ (State.drivenBy_foreign h))

/-- A command of the warden that drives the unit. -/
theorem exec_own {c : Instr} (he : exec c s = .next (s.drivenBy f unit w act)) (h : s.driven f unit w = some (p, r, true)) :
    exec c s = .next (act p r) := he.trans (congrArg _ (State.drivenBy_own h))

end

section
variable {s : State} {f w cycle : Nat}

theorem exec_aload (a : AloadArgs) : exec (.aload f w cycle a) s = .next (s.drivenBy f unitArray w fun _ r =>
    if !aloadOk a || !aloadPages r a then s.unitFault f unitArray w else s.goLoad f w (max cycle (s.getFrond f).arr.stallTo) a) := by
  refine congrArg Host.Outcome.next (State.eq_drivenBy (t := s.aload f w cycle a) (fun h => ?_) (fun p r h => ?_) fun p r h => ?_) <;>
    simp only [State.aload, h] <;> rfl

theorem exec_astream (a : AstreamArgs) : exec (.astream f w cycle a) s = .next (s.drivenBy f unitArray w fun _ r =>
    s.issuePass f w (max cycle (s.getFrond f).arr.stallTo) r a (State.enterPass f (max cycle (s.getFrond f).arr.stallTo) a [])) := by
  refine congrArg Host.Outcome.next (State.eq_drivenBy (t := s.astream f w cycle a) (fun h => ?_) (fun p r h => ?_) fun p r h => ?_) <;>
    simp only [State.astream, h] <;> rfl

/-- What a SWAP of the warden that drives the array does in a cycle (R57). -/
def State.ownSwap (f w c : Nat) (s : State) : State :=
  let x := (s.getFrond f).arr
  let s1 := if x.swaps ∧ x.swapAt c = c then s else s.frondCount f 2 1
  if x.swaps then s1.toggle f c else s1.setWait f w (some (.swap c))

theorem exec_swap : exec (.swap f w cycle) s = .next (s.drivenBy f unitArray w fun _ _ =>
    s.ownSwap f w (max cycle (s.getFrond f).arr.stallTo)) := by
  refine congrArg Host.Outcome.next (State.eq_drivenBy (t := s.swap f w cycle) (fun h => ?_) (fun p r h => ?_) fun p r h => ?_) <;>
    simp only [State.swap, h] <;> rfl

/-- What a vector operation of the warden that drives the unit does (R60, R61, R77). -/
def State.ownVector (f w p : Nat) (r : FrondRec) (op : VecOp) (token : Option Nat) (s : State) : State :=
  match s.vecEffect f p r op with
  | some s1 => (if vecStores op then s1.contend f 6 else s1).raiseOpt f token
  | none => s.unitFault f unitVector w

theorem exec_vectorOperation (op : VecOp) (token : Option Nat) :
    exec (.vectorOperation f w op token) s = .next (s.drivenBy f unitVector w fun p r => s.ownVector f w p r op token) := by
  refine congrArg Host.Outcome.next (State.eq_drivenBy (t := s.vectorOperation f w op token) (fun h => ?_) (fun p r h => ?_) fun p r h => ?_) <;>
    simp only [State.vectorOperation, h] <;> rfl

theorem exec_vectorReduction (op : FpBin) (f19 : Bool) (reg : Nat) :
    exec (.vectorReduction f w op f19 reg) s = .next (s.drivenBy f unitVector w fun p _ => if !laneHas op then s.unitFault f unitVector w
      else s.updFrond f fun x => x.vwrite reg (reduceLanes op f19 (s.f19Rne p) (x.vlanes reg))) := by
  refine congrArg Host.Outcome.next (State.eq_drivenBy (t := s.vectorReduction f w op f19 reg) (fun h => ?_) (fun p r h => ?_) fun p r h => ?_) <;>
    simp only [State.vectorReduction, h] <;> rfl

theorem exec_vectorConversion (cvt : Byte) (src dst block : Nat) :
    exec (.vectorConversion f w cvt src dst block) s = .next (s.drivenBy f unitVector w fun p r =>
      if cvtOk cvt && convPages r cvt dst block then (s.vecNarrow f p cvt src dst block).contend f 6 else s.unitFault f unitVector w) := by
  refine congrArg Host.Outcome.next (State.eq_drivenBy (t := s.vectorConversion f w cvt src dst block) (fun h => ?_) (fun p r h => ?_) fun p r h => ?_) <;>
    simp only [State.vectorConversion, h] <;> rfl

theorem exec_spoolStreamIssue (a : Nat) : exec (.spoolStreamIssue f w a) s = .next (s.drivenBy f unitSpool w fun _ r =>
    if !r.pageOk a 32 then s.unitFault f unitSpool w else s.goStream f w a r) := by
  refine congrArg Host.Outcome.next (State.eq_drivenBy (t := s.spoolStreamIssue f w a) (fun h => ?_) (fun p r h => ?_) fun p r h => ?_) <;>
    simp only [State.spoolStreamIssue, h] <;> rfl

end

/-! ### Commands of a pinnule (R66, R67) -/

section
variable {s : State} {f n slot off p : Nat} {r : FrondRec}

theorem exec_pinnuleInstruction_idle (h : s.pinRuns f n slot = none) (o : PinOp) : exec (.pinnuleInstruction f n slot off o) s = .next s := by
  show Host.Outcome.next (s.pinnuleInstruction f n slot off o) = _
  simp only [State.pinnuleInstruction, h]

theorem exec_pinnuleInstruction (h : s.pinRuns f n slot = some (p, r)) (o : PinOp) : exec (.pinnuleInstruction f n slot off o) s =
    .next (((s.setPc f n off).pinEffect f p n r o).getD ((s.setPc f n off).pinFault f n slot off)) := by
  show Host.Outcome.next (s.pinnuleInstruction f n slot off o) = _
  simp only [State.pinnuleInstruction, h]

theorem exec_pinnuleConversion_idle (h : s.pinRuns f n slot = none) (cvt : Byte) (src dst block : Nat) :
    exec (.pinnuleConversion f n slot off cvt src ⟨dst, block⟩) s = .next s := by
  show Host.Outcome.next (s.pinnuleConversion f n slot off cvt src dst block) = _
  simp only [State.pinnuleConversion, h]

theorem exec_pinnuleConversion (h : s.pinRuns f n slot = some (p, r)) (cvt : Byte) (src dst block : Nat) :
    exec (.pinnuleConversion f n slot off cvt src ⟨dst, block⟩) s = .next (if pinConvOk r cvt src dst block
      then (s.setPc f n off).pinNarrow f p n cvt src dst block else (s.setPc f n off).pinFault f n slot off) := by
  show Host.Outcome.next (s.pinnuleConversion f n slot off cvt src dst block) = _
  simp only [State.pinnuleConversion, h]

theorem exec_raise_idle (h : s.pinBusy f n = none) (k : Nat) : exec (.raise f n k) s = .next s := by
  show Host.Outcome.next (s.raisePin f n k) = _
  simp only [State.raisePin, h]

theorem exec_raise (h : s.pinBusy f n = some (p, r)) (k : Nat) : exec (.raise f n k) s =
    .next (if k < 4096 then s.raiseToken f k else s.pinFault f n (s.slotOf f (gangOf n)) (s.pcOf f n)) := by
  show Host.Outcome.next (s.raisePin f n k) = _
  simp only [State.raisePin, h]

/-- A unit runs as before when nothing but the fronds has changed, and there not what has been stopped. -/
theorem State.unitRuns_congr {t : State} {unit : Nat} (h : t = { s with frond := t.frond }) (hst : (t.getFrond f).stopped = (s.getFrond f).stopped) :
    t.unitRuns f unit = s.unitRuns f unit := by
  generalize t.frond = F at h
  subst h
  simp only [State.unitRuns, hst]
  rfl

/-- An instruction that a pinnule has taken is a frond fault of it (R77). -/
theorem State.pinFault_dealt (h : s.pinRuns f n slot = some (p, r)) : FaultDealt s (s.setPc f n off) ((s.setPc f n off).pinFault f n slot off)
    f (3 + n) (if n < 512 then 3 else 4) slot n off p := by
  have hst : ((s.setPc f n off).getFrond f).stopped = (s.getFrond f).stopped := by rw [State.setPc, State.getFrond_updFrond_same]
  refine .of_taken rfl hst (fun g hg => State.getFrond_updFrond_ne _ _ _ _ hg) (State.frondFault_dealt (r := r) ?_)
  rw [← State.pinRuns_some h]
  exact State.unitRuns_congr rfl hst

/-- A frond fault of a warden is one of the pinnule that it is (R77). -/
theorem State.wardenFault_dealt {unit w : Nat} (h : s.driven f unit w = some (p, r, false)) :
    FaultDealt s s (s.wardenFault f w) f (515 + w) 4 (s.slotOf f w) (512 + w) (s.pcOf f (512 + w)) p := by
  obtain ⟨⟨r', hissuer⟩, _, _⟩ := State.driven_some h
  have hunit : unitPinnule (wardenPinnule w) = 515 + w := by simp only [unitPinnule, wardenPinnule]; omega
  exact hunit ▸ State.frondFault_dealt (State.issuer_some hissuer).2.1

/-- A frond fault of a shared unit that its warden drives (R77). -/
theorem State.unitFault_dealt {unit w : Nat} (h : s.driven f unit w = some (p, r, true)) :
    FaultDealt s s (s.unitFault f unit w) f unit unit (s.slotOf f w) (512 + w) (s.pcOf f (512 + w)) p :=
  State.frondFault_dealt (State.driven_some h).2.1

end

/-! ### O49 -/

/-- Settles O49: each of the commands ends in the one frond fault, whose effect is that of `State.frondFault_dealt`. -/
theorem frondFaultsStopUnits : Obligations.FrondFaultsStopUnits := by
  unfold Obligations.FrondFaultsStopUnits
  intro s s0 f w n p slot off cycle k unit source sl pin o r c h
  suffices hdealt : ∃ t, exec c s = .next t ∧ FaultDealt s s0 t f unit source sl pin o p by
    obtain ⟨t, hexec, e, hrest⟩ := hdealt
    exact ⟨t, e, hexec, hrest⟩
  rcases h with ⟨hrun, rfl, rfl, rfl, rfl, rfl, rfl, hc⟩ | ⟨hbusy, rfl, rfl, rfl, rfl, rfl, rfl, hk, rfl⟩ | ⟨hd, rfl, rfl, rfl, rfl, rfl, rfl, hc⟩ |
    ⟨hd, rfl, rfl, rfl, rfl, rfl, hc⟩
  · refine ⟨_, ?_, State.pinFault_dealt hrun⟩
    rcases hc with rfl | ⟨d, a, hpage, rfl | rfl⟩ | ⟨cvt, src, dst, b, hcvt, rfl⟩
    · rw [exec_pinnuleInstruction hrun]; rfl
    · rw [exec_pinnuleInstruction hrun, State.pinEffect, hpage]; rfl
    · rw [exec_pinnuleInstruction hrun, State.pinEffect, hpage]; rfl
    · rw [exec_pinnuleConversion hrun, pinConvOk, hcvt]; rfl
  · refine ⟨_, ?_, State.frondFault_dealt (State.pinBusy_some hbusy)⟩
    rw [exec_raise hbusy, if_neg (Nat.not_lt.2 hk)]
    rfl
  · refine ⟨_, ?_, State.wardenFault_dealt hd⟩
    rcases hc with ⟨rfl, ⟨a, rfl⟩ | ⟨a, rfl⟩ | rfl⟩ | ⟨rfl, ⟨v, tok, rfl⟩ | ⟨b, f19, d, rfl⟩ | ⟨cvt, src, dst, b, rfl⟩⟩ | ⟨rfl, a, rfl⟩
    · exact exec_foreign (exec_aload a) hd
    · exact exec_foreign (exec_astream a) hd
    · exact exec_foreign exec_swap hd
    · exact exec_foreign (exec_vectorOperation v tok) hd
    · exact exec_foreign (exec_vectorReduction b f19 d) hd
    · exact exec_foreign (exec_vectorConversion cvt src dst b) hd
    · exact exec_foreign (exec_spoolStreamIssue a) hd
  · refine ⟨_, ?_, State.unitFault_dealt hd⟩
    rcases hc with ⟨rfl, ⟨a, ha, rfl⟩ | ⟨a, ha, rfl⟩⟩ | ⟨rfl, cvt, src, dst, b, hcvt, rfl⟩ | ⟨rfl, a, ha, rfl⟩
    · refine (exec_own (exec_aload a) hd).trans (congrArg _ (if_pos ?_))
      rw [ha]; rfl
    · refine (exec_own (exec_astream a) hd).trans (congrArg _ (if_pos ?_))
      rw [ha]; simp
    · refine (exec_own (exec_vectorConversion cvt src dst b) hd).trans (congrArg _ (if_neg ?_))
      rw [hcvt]; simp
    · refine (exec_own (exec_spoolStreamIssue a) hd).trans (congrArg _ ?_)
      rcases ha with ha | ha
      · exact if_pos (by rw [ha]; rfl)
      · exact (congrArg (ite _ _) (if_pos ha)).trans (ite_self _)

end Sys2Proof.Machine
end

section
/-! SUPPORT. Words in memories, accesses of units to the frond store, and the conversions that pinnules and the vector unit share. -/

namespace Sys2Proof.Machine

/-! ### Words and bytes -/

/-- The sum of the bits that stand below n, bit by bit. -/
theorem bitSum_lt_testBit (f : Nat → Bool) (n : Nat) :
    (List.range n).foldl (fun a i => a + if f i then 2 ^ i else 0) 0 < 2 ^ n ∧
    ∀ i, ((List.range n).foldl (fun a i => a + if f i then 2 ^ i else 0) 0).testBit i = (decide (i < n) && f i) := by
  induction n with
  | zero => simp
  | succ n ih =>
    rw [List.range_succ, List.foldl_append, List.foldl_cons, List.foldl_nil]
    obtain ⟨hlt, hbit⟩ := ih
    generalize (List.range n).foldl (fun a i => a + if f i then 2 ^ i else 0) 0 = a at *
    have hpow : 2 ^ (n + 1) = 2 ^ n + 2 ^ n := by rw [Nat.pow_succ]; omega
    cases hf : f n with
    | false =>
      refine ⟨by simp; omega, fun i => ?_⟩
      rw [if_neg (by simp), Nat.add_zero, hbit]
      by_cases hi : i = n
      · subst hi; simp [hf]
      · congr 1; simp; omega
    | true =>
      refine ⟨by simp; omega, fun i => ?_⟩
      rw [if_pos rfl, Nat.add_comm]
      rcases Nat.lt_trichotomy i n with hi | hi | hi
      · rw [Nat.testBit_two_pow_add_gt hi, hbit]; simp [hi, Nat.lt_succ_of_lt hi]
      · subst hi; rw [Nat.testBit_two_pow_add_eq, Nat.testBit_lt_two_pow hlt]; simp [hf]
      · rw [Nat.testBit_lt_two_pow (Nat.lt_of_lt_of_le (by omega) (Nat.pow_le_pow_right (by decide) hi : 2 ^ (n + 1) ≤ 2 ^ i))]
        simp; omega

/-- A word made of bits has them. -/
theorem getLsbD_wordOf (f : Nat → Bool) (i : Nat) : (wordOf f).getLsbD i = (decide (i < 32) && f i) := by
  rw [wordOf, BitVec.getLsbD_ofNat, (bitSum_lt_testBit f 32).2, ← Bool.and_assoc, Bool.and_self]

/-- A word's four bytes hold it. -/
@[simp] theorem leNat_leBytes_word (w : Word) : leNat (leBytes 4 w.toNat) = w.toNat := by
  rw [leNat_leBytes, Nat.mod_eq_of_lt (Nat.lt_of_lt_of_le w.isLt (by decide))]

theorem leNat_readN_word (m : Mem) (a : Nat) (w : Word) : leNat ((m.writeN a (leBytes 4 w.toNat)).readN a 4) = w.toNat := by
  have h := Mem.readN_writeN m a (leBytes 4 w.toNat)
  rw [leBytes_length] at h
  rw [h, leNat_leBytes_word]

section
variable {s t : State} {f a n : Nat}

theorem State.fsWord_congr (h : t.store = s.store) (f a : Nat) : t.fsWord f a = s.fsWord f a := by
  rw [State.fsWord, State.fsRead_congr h]; rfl

@[simp] theorem State.fsRead_length (s : State) (f a n : Nat) : (s.fsRead f a n).length = n := Mem.readN_length _ _ _

/-- Part of what was written to a frond store is read back. -/
theorem State.fsRead_fsWrite_part {o : Nat} {bs : List Byte} (s : State) (f a : Nat) (h : o + n ≤ bs.length) :
    (s.fsWrite f a bs).fsRead f (a + o) n = (bs.drop o).take n := by
  have hkey : storeKey f (a + o) = storeKey f a + o := by unfold storeKey; omega
  rw [State.fsRead, hkey]
  exact Mem.readN_writeN_part _ _ _ _ _ h

/-- What lies beside a write is read as before. -/
theorem State.fsRead_fsWrite_beside {b : Nat} {bs : List Byte} (s : State) (f : Nat) (h : a + n ≤ b ∨ b + bs.length ≤ a) :
    (s.fsWrite f b bs).fsRead f a n = s.fsRead f a n := by
  rw [State.fsRead, State.fsRead, Mem.readN_eq, Mem.readN_eq]
  refine List.map_congr_left fun i hi => State.store_fsWrite_out ?_
  have := List.mem_range.1 hi
  unfold storeKey
  omega

theorem State.fsWord_fsPut (s : State) (f a : Nat) (w : Word) : (s.fsPut f a w).fsWord f a = w := by
  rw [State.fsWord, State.fsRead]
  show BitVec.ofNat 32 (leNat ((s.store.writeN (storeKey f a) (leBytes 4 w.toNat)).readN (storeKey f a) 4)) = w
  rw [leNat_readN_word, BitVec.ofNat_toNat, BitVec.setWidth_eq]

end

/-! ### Accesses of units to the frond store (R41, R78) -/

section
variable {s : State} {f k : Nat}

theorem OtherFronds.updFrond (f : Nat) (g : Frond → Frond) (s : State) : OtherFronds s (s.updFrond f g) f :=
  fun _ h => State.getFrond_updFrond_ne _ _ _ _ h

theorem OtherFronds.trans {t u : State} (h : OtherFronds s t f) (k : OtherFronds t u f) : OtherFronds s u f := fun g hg => (k g hg).trans (h g hg)

theorem State.frondCount_getFrond (f k n : Nat) (s : State) :
    (s.frondCount f k n).getFrond f = { s.getFrond f with counts := Tab.upd 0 (s.getFrond f).counts k (satAdd 64 · n) } :=
  State.getFrond_updFrond_same _ _ _

theorem State.contend_getFrond (f k : Nat) (s : State) : (s.contend f k).getFrond f =
    { s.getFrond f with counts := Tab.upd 0 (s.getFrond f).counts k (satAdd 64 · (Config.conflictCycles s.free)) } :=
  State.frondCount_getFrond f k _ s

theorem State.contend_others (f k : Nat) (s : State) : OtherFronds s (s.contend f k) f :=
  OtherFronds.updFrond f (fun x => { x with counts := Tab.upd 0 x.counts k (satAdd 64 · (Config.conflictCycles s.free)) }) s

theorem State.contend_frame (f k : Nat) (s : State) : s.contend f k = { s with frond := (s.contend f k).frond, free := s.free + 1 } := rfl

theorem State.contend_store (f k : Nat) (s : State) : (s.contend f k).store = s.store := rfl

end

/-! ### Counts of conversions (R99, R164, R174) -/

/-- Counting twice is counting the sum (R8). -/
theorem satAdd_satAdd (w a b c : Nat) : satAdd w (satAdd w a b) c = satAdd w a (b + c) := by unfold satAdd; omega

/-- The key of a conversion's three counts. -/
def convKey (cvt : Byte) : Nat := 3 * (4 * (if cvtDst cvt = 0 then 0 else cvtDst cvt - 1) + cvtClass cvt)

/-- What a conversion adds to the count at a key: conversions, overflows and underflows. -/
def convAdds (k conv ovf unf j : Nat) : Nat := if j = k then conv else if j = k + 1 then ovf else if j = k + 2 then unf else 0

section
variable {s t u : State} {p conv ovf unf : Nat} {cvt : Byte}

theorem Arith.count_counts (cvt : Byte) (conv ovf unf : Nat) (a : Arith) (j : Nat) :
    Tab.get 0 (Arith.count (cvtDst cvt) (cvtClass cvt) conv ovf unf a).counts j =
      if j = convKey cvt ∨ j = convKey cvt + 1 ∨ j = convKey cvt + 2 then satAdd 64 (Tab.get 0 a.counts j) (convAdds (convKey cvt) conv ovf unf j)
      else Tab.get 0 a.counts j := by
  show Tab.get 0 (Tab.upd 0 (Tab.upd 0 (Tab.upd 0 a.counts (convKey cvt) (satAdd 64 · conv)) (convKey cvt + 1) (satAdd 64 · ovf))
    (convKey cvt + 2) (satAdd 64 · unf)) j = _
  generalize convKey cvt = k
  simp only [Tab.get_upd, convAdds]
  by_cases h0 : j = k
  · subst h0; simp
  by_cases h1 : j = k + 1
  · subst h1; simp
  by_cases h2 : j = k + 2
  · subst h2; simp
  · simp [h0, h1, h2]

/-- The counts after a conversion, in the words of Converted. -/
theorem Arith.count_cases (cvt : Byte) (conv ovf unf : Nat) (a : Arith) (k j : Nat)
    (hk : k = 3 * (4 * (if cvtDst cvt = 0 then 0 else cvtDst cvt - 1) + cvtClass cvt)) :
    Tab.get 0 (Arith.count (cvtDst cvt) (cvtClass cvt) conv ovf unf a).counts j = satAdd 64 (Tab.get 0 a.counts j)
        (if j = k then conv else if j = k + 1 then ovf else if j = k + 2 then unf else 0) ∨
      j ≠ k ∧ j ≠ k + 1 ∧ j ≠ k + 2 ∧
        Tab.get 0 (Arith.count (cvtDst cvt) (cvtClass cvt) conv ovf unf a).counts j = Tab.get 0 a.counts j := by
  have hk' : k = convKey cvt := hk
  rw [Arith.count_counts, ← hk']
  by_cases h : j = k ∨ j = k + 1 ∨ j = k + 2
  · exact .inl (if_pos h)
  · have hne : j ≠ k ∧ j ≠ k + 1 ∧ j ≠ k + 2 := by omega
    exact .inr ⟨hne.1, hne.2.1, hne.2.2, if_neg h⟩

theorem State.countConv_getPart (p : Nat) (cvt : Byte) (conv ovf unf : Nat) (s : State) : (s.countConv p cvt conv ovf unf).getPart p =
    { s.getPart p with
      arith := Arith.count (cvtDst cvt) (cvtClass cvt) conv ovf unf (s.getPart p).arith
      arithNow := Arith.count (cvtDst cvt) (cvtClass cvt) conv ovf unf (s.getPart p).arithNow
      run := if cvtDst cvt = 2 ∧ cvtClass cvt = 2 then
          { (s.getPart p).run with gradConv := satAdd 64 (s.getPart p).run.gradConv conv, gradUnf := satAdd 64 (s.getPart p).run.gradUnf unf }
        else (s.getPart p).run } := by
  unfold State.countConv State.updArith State.updRun
  split
  · rw [State.getPart_updPart_same, State.getPart_updPart_same]
  · rw [State.getPart_updPart_same]

theorem State.countConv_getPart_ne {q : Nat} (h : q ≠ p) : (s.countConv p cvt conv ovf unf).getPart q = s.getPart q := by
  unfold State.countConv State.updArith State.updRun
  split <;> simp only [State.getPart_updPart_ne _ _ _ _ h]

theorem State.countConv_converted (p : Nat) (cvt : Byte) (conv ovf unf : Nat) (s : State) :
    Converted s (s.countConv p cvt conv ovf unf) p cvt conv ovf unf := by
  have hpart := State.countConv_getPart p cvt conv ovf unf s
  refine ⟨fun k j hk => ?_, fun k j hk => ?_, ?_, fun q hq => State.countConv_getPart_ne hq⟩
  · rw [hpart]; exact Arith.count_cases cvt conv ovf unf _ k j hk
  · rw [hpart]; exact Arith.count_cases cvt conv ovf unf _ k j hk
  · rw [hpart]; rfl

/-- Conversions count in the partitions alone. -/
theorem Converted.congr {s' t' : State} (hs : ∀ q, s'.getPart q = s.getPart q) (ht : ∀ q, t'.getPart q = t.getPart q)
    (h : Converted s t p cvt conv ovf unf) : Converted s' t' p cvt conv ovf unf := by
  unfold Converted at *
  simp only [hs, ht]
  exact h

/-- Counts that are held at their greatest value, after two additions (R8). -/
theorem counts_twice {old mid new : Nat} {k j a1 b1 c1 a2 b2 c2 : Nat}
    (h1 : mid = satAdd 64 old (convAdds k a1 b1 c1 j) ∨ j ≠ k ∧ j ≠ k + 1 ∧ j ≠ k + 2 ∧ mid = old)
    (h2 : new = satAdd 64 mid (convAdds k a2 b2 c2 j) ∨ j ≠ k ∧ j ≠ k + 1 ∧ j ≠ k + 2 ∧ new = mid) :
    new = satAdd 64 old (convAdds k (a1 + a2) (b1 + b2) (c1 + c2) j) ∨ j ≠ k ∧ j ≠ k + 1 ∧ j ≠ k + 2 ∧ new = old := by
  have hsum : convAdds k a1 b1 c1 j + convAdds k a2 b2 c2 j = convAdds k (a1 + a2) (b1 + b2) (c1 + c2) j := by
    simp only [convAdds]; split_ifs <;> rfl
  by_cases hj : j ≠ k ∧ j ≠ k + 1 ∧ j ≠ k + 2
  · have hzero : ∀ a b c, convAdds k a b c j = 0 := fun a b c => by simp [convAdds, hj]
    rw [hzero] at h1 h2 ⊢
    rcases h1 with rfl | ⟨_, _, _, rfl⟩
    · rcases h2 with rfl | ⟨_, _, _, rfl⟩
      · exact .inl (satAdd_satAdd _ _ _ _)
      · exact .inl rfl
    · rcases h2 with rfl | ⟨_, _, _, rfl⟩
      · exact .inl rfl
      · exact .inr ⟨hj.1, hj.2.1, hj.2.2, rfl⟩
  · have h1' := h1.resolve_right fun h => hj ⟨h.1, h.2.1, h.2.2.1⟩
    have h2' := h2.resolve_right fun h => hj ⟨h.1, h.2.1, h.2.2.1⟩
    exact .inl (by rw [h2', h1', satAdd_satAdd, hsum])

/-- Conversions one after the other count together. -/
theorem Converted.trans {conv' ovf' unf' : Nat} (h : Converted s t p cvt conv ovf unf) (k : Converted t u p cvt conv' ovf' unf') :
    Converted s u p cvt (conv + conv') (ovf + ovf') (unf + unf') := by
  obtain ⟨h1, h2, h3, h4⟩ := h
  obtain ⟨k1, k2, k3, k4⟩ := k
  refine ⟨fun i j hi => counts_twice (h1 i j hi) (k1 i j hi), fun i j hi => counts_twice (h2 i j hi) (k2 i j hi), ?_,
    fun q hq => (k4 q hq).trans (h4 q hq)⟩
  rw [k3, h3]
  by_cases hg : cvtDst cvt = 2 ∧ cvtClass cvt = 2
  · simp only [hg, and_self, if_true, satAdd_satAdd]
  · simp only [hg, if_false]

end

/-! ### Blocks of a block group (R89, R90, R102 to R104) -/

section
variable {s t : State} {f p addr b n : Nat} {cvt : Byte} {ws : List Word}

theorem packElems_length (w : Nat) (es : List Nat) : (packElems w es).length = 4 * w := leBytes_length _ _

/-- The two writes of one block: its scale and its elements. -/
def State.putBlock (f addr b w : Nat) (m : MxBlock) (s : State) : State :=
  (s.fsWrite f (addr + b) [BitVec.ofNat 8 m.scale]).fsWrite f (addr + 64 + 4 * w * b) (packElems w m.elems)

theorem State.narrowBlock_eq (f p : Nat) (cvt : Byte) (addr b : Nat) (ws : List Word) (s : State) : s.narrowBlock f p cvt addr b ws =
    (s.putBlock f addr b (mxWidth (cvtDst cvt)) (mxBlock (cvtDst cvt) (cvtNan cvt) ws)).countConv p cvt 32
      (mxBlock (cvtDst cvt) (cvtNan cvt) ws).ovf (mxBlock (cvtDst cvt) (cvtNan cvt) ws).unf := rfl

/-- A block is read back. -/
theorem State.putBlock_same (hb : b < 64) (w : Nat) (m : MxBlock) (s : State) :
    (s.putBlock f addr b w m).fsRead f (addr + b) 1 = [BitVec.ofNat 8 m.scale] ∧
    (s.putBlock f addr b w m).fsRead f (addr + 64 + 4 * w * b) (4 * w) = packElems w m.elems := by
  refine ⟨?_, ?_⟩
  · rw [State.putBlock, State.fsRead_fsWrite_beside _ _ (.inl (by omega))]
    exact State.fsRead_fsWrite f (addr + b) [BitVec.ofNat 8 m.scale] s
  · have h := State.fsRead_fsWrite f (addr + 64 + 4 * w * b) (packElems w m.elems) (s.fsWrite f (addr + b) [BitVec.ofNat 8 m.scale])
    rw [packElems_length] at h
    exact h

/-- Another block of the group is as it was. -/
theorem State.putBlock_other {c : Nat} (hb : b < 64) (hc : c < b) (w : Nat) (m : MxBlock) (s : State) :
    (s.putBlock f addr b w m).fsRead f (addr + c) 1 = s.fsRead f (addr + c) 1 ∧
    (s.putBlock f addr b w m).fsRead f (addr + 64 + 4 * w * c) (4 * w) = s.fsRead f (addr + 64 + 4 * w * c) (4 * w) := by
  have hle : 4 * w * c + 4 * w ≤ 4 * w * b := by rw [← Nat.mul_succ]; exact Nat.mul_le_mul_left _ hc
  refine ⟨?_, ?_⟩
  · rw [State.putBlock, State.fsRead_fsWrite_beside _ _ (.inl (by omega)), State.fsRead_fsWrite_beside _ _ (.inl (by omega))]
  · rw [State.putBlock, State.fsRead_fsWrite_beside _ _ (.inl (by omega)),
      State.fsRead_fsWrite_beside _ _ (.inr (by rw [List.length_singleton]; omega))]

/-- No byte beside a block changes. -/
theorem State.putBlock_out {k : Nat} (w : Nat) (m : MxBlock) (s : State) (hs : k < storeKey f (addr + b) ∨ storeKey f (addr + b + 1) ≤ k)
    (he : k < storeKey f (addr + 64 + 4 * w * b) ∨ storeKey f (addr + 64 + 4 * w * (b + 1)) ≤ k) :
    (s.putBlock f addr b w m).store.read k = s.store.read k := by
  rw [State.putBlock, State.store_fsWrite_out, State.store_fsWrite_out]
  · rw [List.length_singleton]; unfold storeKey at *; omega
  · rw [packElems_length]; rw [Nat.mul_succ] at he; unfold storeKey at *; omega

/-- One block is narrowed. -/
theorem State.narrowBlock_narrowed (hb : b < 64) : BlocksNarrowed s (s.narrowBlock f p cvt addr b (ws.take 32)) f p cvt addr b 1 ws := by
  intro x w hw hx
  have hm : x 0 = mxBlock (cvtDst cvt) (cvtNan cvt) (ws.take 32) := hx 0
  have hstore : (s.narrowBlock f p cvt addr b (ws.take 32)).store = (s.putBlock f addr b w (x 0)).store := by
    rw [State.narrowBlock_eq, State.countConv_store, hw, hm]
  refine ⟨fun j hj => ?_, fun k hs he => ?_, ?_⟩
  · obtain rfl : j = 0 := Nat.lt_one_iff.1 hj
    rw [State.fsRead_congr hstore, State.fsRead_congr hstore]
    exact State.putBlock_same hb w (x 0) s
  · rw [hstore]
    exact State.putBlock_out w (x 0) s hs he
  · rw [State.narrowBlock_eq, ← hm]
    refine Converted.congr (fun _ => rfl) (fun _ => rfl) ?_ (s := s.putBlock f addr b (mxWidth (cvtDst cvt)) (x 0))
    simpa using State.countConv_converted p cvt 32 (x 0).ovf (x 0).unf _

/-- One more block is narrowed behind those before it. -/
theorem BlocksNarrowed.snoc (hb : b + n < 64) (h : BlocksNarrowed s t f p cvt addr b n ws) :
    BlocksNarrowed s (t.narrowBlock f p cvt addr (b + n) ((ws.drop (32 * n)).take 32)) f p cvt addr b (n + 1) ws := by
  intro x w hw hx
  obtain ⟨hread, hout, hconv⟩ := h x w hw hx
  have hm : x n = mxBlock (cvtDst cvt) (cvtNan cvt) ((ws.drop (32 * n)).take 32) := hx n
  have hstore : (t.narrowBlock f p cvt addr (b + n) ((ws.drop (32 * n)).take 32)).store = (t.putBlock f addr (b + n) w (x n)).store := by
    rw [State.narrowBlock_eq, State.countConv_store, hw, hm]
  refine ⟨fun j hj => ?_, fun k hs he => ?_, ?_⟩
  · rw [State.fsRead_congr hstore, State.fsRead_congr hstore]
    rcases Nat.lt_succ_iff_lt_or_eq.1 hj with hlt | rfl
    · obtain ⟨hscale, helems⟩ := State.putBlock_other (f := f) (addr := addr) (b := b + n) (c := b + j) hb (by omega) w (x n) t
      rw [hscale, helems]
      exact hread j hlt
    · exact State.putBlock_same hb w (x j) t
  · have hle : 4 * w * b ≤ 4 * w * (b + n) := Nat.mul_le_mul_left _ (by omega)
    have hle' : 4 * w * (b + n) ≤ 4 * w * (b + n + 1) := Nat.mul_le_mul_left _ (by omega)
    have hsum : b + (n + 1) = b + n + 1 := rfl
    rw [hsum] at he
    rw [hstore, State.putBlock_out w (x n) t (by unfold storeKey at *; omega) (by unfold storeKey at *; omega)]
    exact hout k (by unfold storeKey at *; omega) (by unfold storeKey at *; omega)
  · rw [State.narrowBlock_eq, ← hm, List.range_succ, List.map_append, List.map_append, List.foldl_append, List.foldl_append]
    refine hconv.trans (Converted.congr (fun _ => rfl) (fun _ => rfl) (State.countConv_converted p cvt 32 (x n).ovf (x n).unf
      (t.putBlock f addr (b + n) (mxWidth (cvtDst cvt)) (x n))))

/-- Blocks narrowed one after the other. -/
theorem State.forAll_narrowBlock (n : Nat) (hb : b + n < 64) : BlocksNarrowed s
    (forAll (List.range (n + 1)) (fun j s => s.narrowBlock f p cvt addr (b + j) ((ws.drop (32 * j)).take 32)) s) f p cvt addr b (n + 1) ws := by
  induction n with
  | zero => exact State.narrowBlock_narrowed (by omega)
  | succ n ih =>
    rw [List.range_succ, forAll, List.foldl_append]
    exact BlocksNarrowed.snoc hb (ih (by omega))

/-- Blocks are narrowed in the stores and the partitions alone. -/
theorem BlocksNarrowed.congr {t' : State} (hs : t'.store = t.store) (hp : ∀ q, t'.getPart q = t.getPart q)
    {s' : State} (hs' : s'.store = s.store) (hp' : ∀ q, s'.getPart q = s.getPart q)
    (h : BlocksNarrowed s t f p cvt addr b n ws) : BlocksNarrowed s' t' f p cvt addr b n ws := by
  intro x w hw hx
  obtain ⟨hread, hout, hconv⟩ := h x w hw hx
  exact ⟨fun j hj => by rw [State.fsRead_congr hs, State.fsRead_congr hs]; exact hread j hj, fun k h1 h2 => by rw [hs, hs']; exact hout k h1 h2,
    hconv.congr hp' hp⟩

/-- All that a narrowed block may change. -/
theorem State.narrowBlock_frame (f p : Nat) (cvt : Byte) (addr b : Nat) (ws : List Word) (s : State) :
    s.narrowBlock f p cvt addr b ws = { s with
      store := (s.narrowBlock f p cvt addr b ws).store, part := (s.narrowBlock f p cvt addr b ws).part } := by
  rw [State.narrowBlock_eq, State.countConv_frame]; rfl

end

end Sys2Proof.Machine
end

section
/-! SUPPORT. Pinnules: their registers, what each instruction writes, and the statement about them. -/

namespace Sys2Proof.Machine

/-! ### Registers (R66) -/

section
variable {x : Frond} {n m d e : Nat} {v : Word}

@[simp] theorem Frond.iget_iput_same (n d : Nat) (v : Word) (x : Frond) : (x.iput n d v).iget n d = v := Tab.get_set_same _ _ _ _

theorem Frond.iget_iput_ne (hd : d < 32) (he : e < 32) (h : m ≠ n ∨ e ≠ d) : (x.iput n d v).iget m e = x.iget m e :=
  Tab.get_set_ne _ _ _ (by omega)

@[simp] theorem Frond.fget_fput_same (n d : Nat) (v : Word) (x : Frond) : (x.fput n d v).fget n d = v := Tab.get_set_same _ _ _ _

theorem Frond.fget_fput_ne (hd : d < 32) (he : e < 32) (h : m ≠ n ∨ e ≠ d) : (x.fput n d v).fget m e = x.fget m e :=
  Tab.get_set_ne _ _ _ (by omega)

theorem Frond.qget_qput_same (n q : Nat) (ws : Nat → Word) (x : Frond) {i : Nat} (hi : i < 4) : (x.qput n q ws).qget n q i = ws i := by
  have hcases : i = 0 ∨ i = 1 ∨ i = 2 ∨ i = 3 := by omega
  rcases hcases with rfl | rfl | rfl | rfl <;> simp [Frond.qput, Frond.qget, Tab.get_set]

theorem Frond.qget_qput_ne {ws : Nat → Word} {q i : Nat} (hq : q < 8) (he : e < 8) (hi : i < 4) (h : m ≠ n ∨ e ≠ q) :
    (x.qput n q ws).qget m e i = x.qget m e i := by
  have hkey : ∀ k, k < 4 → 32 * m + 4 * (e % 8) + i ≠ 32 * n + 4 * (q % 8) + k := fun k hk => by omega
  simp only [Frond.qput, Frond.qget, List.foldl_cons, List.foldl_nil]
  rw [Tab.get_set_ne _ _ _ (hkey 3 (by decide)), Tab.get_set_ne _ _ _ (hkey 2 (by decide)), Tab.get_set_ne _ _ _ (hkey 1 (by decide)),
    Tab.get_set_ne _ _ _ (hkey 0 (by decide))]

end

/-! ### What an instruction writes (R66, R67, R77) -/

section
variable {s : State} {f n slot off p : Nat} {r : FrondRec}

/-- A frond in which a pinnule has taken the instruction at an offset. -/
def Frond.atPc (n off : Nat) (x : Frond) : Frond := { x with pc := Tab.set 0 x.pc n off }

theorem State.setPc_getFrond (f n off : Nat) (s : State) : (s.setPc f n off).getFrond f = (s.getFrond f).atPc n off :=
  State.getFrond_updFrond_same _ _ _

theorem State.setPc_others (f n off : Nat) (s : State) : OtherFronds s (s.setPc f n off) f := OtherFronds.updFrond f _ s

/-- The state in which pinnule n of a frond has taken an instruction and left the frond as given. -/
def State.pinLeaves (f n off : Nat) (y : Frond) (s : State) : State := (s.setPc f n off).updFrond f fun _ => y

theorem State.pinLeaves_getFrond (f n off : Nat) (y : Frond) (s : State) : (s.pinLeaves f n off y).getFrond f = y := State.getFrond_updFrond_same _ _ _

theorem State.pinLeaves_others (f n off : Nat) (y : Frond) (s : State) : OtherFronds s (s.pinLeaves f n off y) f :=
  (State.setPc_others f n off s).trans (OtherFronds.updFrond f _ _)

/-- A change of the frond after the instruction was taken, as the frond that it leaves. -/
theorem State.updFrond_setPc (g : Frond → Frond) : (s.setPc f n off).updFrond f g = s.pinLeaves f n off (g ((s.getFrond f).atPc n off)) := by
  rw [← State.setPc_getFrond]
  rfl

/-- An integer register is written. -/
theorem State.intWritten {t : State} {d : Nat} {v : Word} (hd : d < 32)
    (hf : t.getFrond f = { ((s.getFrond f).atPc n off).iput n d v with counts := (t.getFrond f).counts }) (ho : OtherFronds s t f)
    (ht : t = { s with frond := t.frond, free := t.free }) : IntWritten s t f n off d v := by
  refine ⟨?_, fun m e he h => ?_, ?_, ho, ht⟩
  · rw [hf]; exact Frond.iget_iput_same n d v _
  · rw [hf]; exact Frond.iget_iput_ne hd he h (x := (s.getFrond f).atPc n off)
  · rw [hf]; rfl

theorem State.pinLeaves_intWritten {d : Nat} (hd : d < 32) (v : Word) :
    IntWritten s (s.pinLeaves f n off (((s.getFrond f).atPc n off).iput n d v)) f n off d v :=
  State.intWritten hd (by rw [State.pinLeaves_getFrond]) (State.pinLeaves_others _ _ _ _ _) rfl

/-- A scalar FP register is written. -/
theorem State.fpWritten {t : State} {d : Nat} {v : Word} (hd : d < 32)
    (hf : t.getFrond f = ((s.getFrond f).atPc n off).fput n d v) (ho : OtherFronds s t f)
    (ht : t = { s with frond := t.frond, part := t.part }) : FpWritten s t f n off d v := by
  refine ⟨?_, fun m e he h => ?_, ?_, ho, ht⟩
  · rw [hf]; exact Frond.fget_fput_same n d v _
  · rw [hf]; exact Frond.fget_fput_ne hd he h (x := (s.getFrond f).atPc n off)
  · rw [hf]; rfl

/-- A quad register is written. -/
theorem State.pinLeaves_quadWritten {q : Nat} (hq : q < 8) (v : Nat → Word) :
    QuadWritten s (s.pinLeaves f n off (((s.getFrond f).atPc n off).qput n q v)) f n off q v := by
  refine ⟨fun i hi => ?_, fun m e i he hi h => ?_, ?_, State.pinLeaves_others _ _ _ _ _, rfl⟩
  · rw [State.pinLeaves_getFrond]; exact Frond.qget_qput_same n q v _ hi
  · rw [State.pinLeaves_getFrond]; exact Frond.qget_qput_ne hq he hi h (x := (s.getFrond f).atPc n off)
  · rw [State.pinLeaves_getFrond]; rfl

section
variable (hrun : s.pinRuns f n slot = some (p, r))
include hrun

/-- An instruction with an effect has it. -/
theorem exec_pinEffect {o : PinOp} {t : State} (h : (s.setPc f n off).pinEffect f p n r o = some t) :
    exec (.pinnuleInstruction f n slot off o) s = .next t := by
  rw [exec_pinnuleInstruction hrun, h]
  rfl

/-- One without is a frond fault (R77). -/
theorem exec_pinEffect_none {o : PinOp} (h : (s.setPc f n off).pinEffect f p n r o = none) :
    exec (.pinnuleInstruction f n slot off o) s = .next ((s.setPc f n off).pinFault f n slot off) := by
  rw [exec_pinnuleInstruction hrun, h]
  rfl

/-- A register-only instruction leaves its frond as pinRegs gives it. -/
theorem exec_pinRegs {o : PinOp} {y : Frond} (ho : (s.setPc f n off).pinEffect f p n r o =
      (pinRegs (s.f19Rne p) n ((s.setPc f n off).getFrond f) o).map fun x => (s.setPc f n off).updFrond f fun _ => x)
    (hy : pinRegs (s.f19Rne p) n ((s.getFrond f).atPc n off) o = some y) :
    exec (.pinnuleInstruction f n slot off o) s = .next (s.pinLeaves f n off y) :=
  exec_pinEffect hrun (by rw [ho, State.setPc_getFrond, hy]; rfl)

end

end

/-! ### The instructions of O48, by what they write -/

section
variable {s : State} {f n slot off p : Nat} {r : FrondRec} {x : Frond} {rne : Bool}

/-- The integer operations, with the word that each writes to register d (R66). -/
def IntOp (s : State) (f n : Nat) (x : Frond) (o : PinOp) (d : Nat) (v : Word) : Prop :=
  (∃ code a b, o = .int code d a b ∧ v = Config.intResult code (x.iget n a) (x.iget n b)) ∨
  (∃ c fa fb a b, o = .fpCmp c fa fb d a b ∧ v = Config.cmpWord (fpCompare c (operand fa (x.fget n a)) (operand fb (x.fget n b)))) ∨
  (∃ a, o = .moveFpInt d a ∧ v = x.fget n a) ∨
  (∃ q k, o = .dropMask d q k ∧ ∀ i, v.getLsbD i = (decide (i < 4) && decide ((x.qget n q i).toNat < k))) ∨
  (∃ a, o = .loadLocal d a ∧ a + 4 ≤ 2048 ∧ v = BitVec.ofNat 32 (leNat (s.localStore.readN (localKey f n a) 4)))

/-- The scalar FP operations, with the word that each writes to register d (R66, R93 to R96, R105, R177). -/
def FpOp (n : Nat) (x : Frond) (rne : Bool) (o : PinOp) (d : Nat) (v : Word) : Prop :=
  (∃ b f19 i j, o = .fpBin b f19 d i j ∧ v = fpBin b f19 rne (x.fget n i) (x.fget n j)) ∨
  (∃ f19 a b c, o = .fpFma f19 d a b c ∧ v = fpFma f19 rne (x.fget n a) (x.fget n b) (x.fget n c)) ∨
  (∃ f19 a, o = .fpSqrt f19 d a ∧ v = fpWrite f19 rne (fpRead f19 (x.fget n a)).sqrt) ∨
  (∃ fmt a, o = .fpWiden fmt d a ∧ (fmt = 0 ∨ fmt = 2 ∨ fmt = 3) ∧ v = widenWord fmt (x.fget n a)) ∨
  (∃ a b, o = .fp16Add d a b ∧ v = BitVec.ofNat 32 (fp16Add ((x.fget n a).toNat % 2 ^ 16) ((x.fget n b).toNat % 2 ^ 16))) ∨
  (∃ a, o = .moveIntFp d a ∧ v = x.iget n a) ∨
  (∃ a, o = .intFp true d a ∧ v = fpOfInt (x.iget n a).toInt) ∨ (∃ a, o = .intFp false d a ∧ v = fpOfInt (x.iget n a).toNat)

/-- The undefined instructions and the accesses that are frond faults (R66, R77). -/
def FaultOp (n : Nat) (r : FrondRec) (o : PinOp) : Prop :=
  o = .undefined ∨ (∃ fmt d a, o = .fpWiden fmt d a ∧ fmt ≠ 0 ∧ fmt ≠ 2 ∧ fmt ≠ 3) ∨ (∃ d a b, o = .quadBin .div d a b) ∨
  (∃ d a, (o = .loadLocal d a ∨ o = .storeLocal d a) ∧ 2048 < a + 4) ∨
  (∃ d a, (o = .loadFrond d a ∨ o = .storeFrond d a) ∧ r.pageOk a 4 = false) ∨
  (∃ u, o = .issueShared u ∧ (n < 512 ∨ 3 ≤ u ∨ r.warden u ≠ n - 512)) ∨ (∃ k, o = .startSlot k ∧ (n < 512 ∨ r.slots ≤ k))

section
variable (hrun : s.pinRuns f n slot = some (p, r))
include hrun

theorem exec_intOp {o : PinOp} {d : Nat} {v : Word} (h : IntOp s f n (s.getFrond f) o d v) :
    exec (.pinnuleInstruction f n slot off o) s = .next (s.pinLeaves f n off (((s.getFrond f).atPc n off).iput n d v)) := by
  rcases h with ⟨code, a, b, rfl, rfl⟩ | ⟨c, fa, fb, a, b, rfl, rfl⟩ | ⟨a, rfl, rfl⟩ | ⟨q, k, rfl, hv⟩ | ⟨a, rfl, ha, rfl⟩
  · exact exec_pinRegs hrun rfl rfl
  · exact exec_pinRegs hrun rfl rfl
  · exact exec_pinRegs hrun rfl rfl
  · have hmask : v = wordOf fun i => decide (i < 4) && decide (((s.getFrond f).qget n q i).toNat < k) := by
      refine BitVec.eq_of_getLsbD_eq fun i hi => ?_
      rw [hv, getLsbD_wordOf, decide_eq_true hi, Bool.true_and]
    rw [hmask]
    exact exec_pinRegs hrun rfl rfl
  · exact exec_pinEffect hrun ((if_pos ha).trans (congrArg some (State.updFrond_setPc _)))

theorem exec_fpOp {o : PinOp} {d : Nat} {v : Word} (h : FpOp n (s.getFrond f) (s.f19Rne p) o d v) :
    exec (.pinnuleInstruction f n slot off o) s = .next (s.pinLeaves f n off (((s.getFrond f).atPc n off).fput n d v)) := by
  rcases h with ⟨b, f19, i, j, rfl, rfl⟩ | ⟨f19, a, b, c, rfl, rfl⟩ | ⟨f19, a, rfl, rfl⟩ | ⟨fmt, a, rfl, hfmt, rfl⟩ | ⟨a, b, rfl, rfl⟩ |
    ⟨a, rfl, rfl⟩ | ⟨a, rfl, rfl⟩ | ⟨a, rfl, rfl⟩
  · exact exec_pinRegs hrun rfl rfl
  · exact exec_pinRegs hrun rfl rfl
  · exact exec_pinRegs hrun rfl rfl
  · exact exec_pinRegs hrun rfl (if_pos hfmt)
  · exact exec_pinRegs hrun rfl rfl
  · exact exec_pinRegs hrun rfl rfl
  · exact exec_pinRegs hrun rfl rfl
  · exact exec_pinRegs hrun rfl rfl

theorem exec_faultOp {o : PinOp} (h : FaultOp n r o) :
    exec (.pinnuleInstruction f n slot off o) s = .next ((s.setPc f n off).pinFault f n slot off) := by
  refine exec_pinEffect_none hrun ?_
  rcases h with rfl | ⟨fmt, d, a, rfl, h0, h2, h3⟩ | ⟨d, a, b, rfl⟩ | ⟨d, a, rfl | rfl, ha⟩ | ⟨d, a, rfl | rfl, ha⟩ | ⟨u, rfl, hu⟩ | ⟨k, rfl, hk⟩
  · rfl
  · show Option.map _ (ite _ _ _) = none
    rw [if_neg (by simp [h0, h2, h3])]; rfl
  · rfl
  · exact if_neg (Nat.not_le.2 ha)
  · exact if_neg (Nat.not_le.2 ha)
  · exact if_neg (by simp [ha])
  · exact if_neg (by simp [ha])
  · exact if_neg (by omega)
  · exact if_neg (by omega)

/-- A store to the local store (R43). -/
theorem exec_storeLocal {d a : Nat} (ha : a + 4 ≤ 2048) : exec (.pinnuleInstruction f n slot off (.storeLocal d a)) s =
    .next { s.setPc f n off with localStore := s.localStore.writeN (localKey f n a) (leBytes 4 ((s.getFrond f).iget n d).toNat) } := by
  refine exec_pinEffect hrun ((if_pos ha).trans ?_)
  rw [State.setPc_getFrond]
  rfl

theorem exec_loadFrond {d a : Nat} (ha : r.pageOk a 4 = true) : exec (.pinnuleInstruction f n slot off (.loadFrond d a)) s =
    .next ((s.pinLeaves f n off (((s.getFrond f).atPc n off).iput n d (s.fsWord f a))).contend f 7) := by
  refine exec_pinEffect hrun ((if_pos ha).trans ?_)
  rw [State.updFrond_setPc]
  rfl

theorem exec_storeFrond {d a : Nat} (ha : r.pageOk a 4 = true) : exec (.pinnuleInstruction f n slot off (.storeFrond d a)) s =
    .next (((s.setPc f n off).fsPut f a ((s.getFrond f).iget n d)).contend f 7) := by
  refine exec_pinEffect hrun ((if_pos ha).trans ?_)
  rw [State.setPc_getFrond]
  rfl

end

/-! ### Conversions, FINCHK and the generator -/

/-- A pinnule's conversion to an IEEE format: its code, counted (R80, R174). -/
theorem State.pinNarrow_ieee {cvt : Byte} {src d block : Nat} (hd : d < 32) (hmx : isMx (cvtDst cvt) = false) {c : Narrowed}
    (hc : c = narrowIeee (cvtDst cvt) (s.f19Rne p) ((s.getFrond f).fget n src)) : ∃ t, (s.setPc f n off).pinNarrow f p n cvt src d block = t ∧
      FpWritten s t f n off d (BitVec.ofNat 32 c.code) ∧ Converted s t p cvt 1 (b2n c.ovf) (b2n c.unf) := by
  subst hc
  refine ⟨_, rfl, ?_⟩
  have heq : (s.setPc f n off).pinNarrow f p n cvt src d block = (s.pinLeaves f n off (((s.getFrond f).atPc n off).fput n d
      (BitVec.ofNat 32 (narrowIeee (cvtDst cvt) (s.f19Rne p) ((s.getFrond f).fget n src)).code))).countConv p cvt 1
        (b2n (narrowIeee (cvtDst cvt) (s.f19Rne p) ((s.getFrond f).fget n src)).ovf)
        (b2n (narrowIeee (cvtDst cvt) (s.f19Rne p) ((s.getFrond f).fget n src)).unf) := by
    simp only [State.pinNarrow, hmx, Bool.false_eq_true, if_false, State.setPc_getFrond, State.updFrond_setPc]
    rfl
  rw [heq]
  generalize narrowIeee (cvtDst cvt) (s.f19Rne p) ((s.getFrond f).fget n src) = c
  have hframe := State.countConv_frame p cvt 1 (b2n c.ovf) (b2n c.unf) (s.pinLeaves f n off (((s.getFrond f).atPc n off).fput n d (BitVec.ofNat 32 c.code)))
  refine ⟨State.fpWritten hd ?_ (fun g hg => ?_) ?_, ?_⟩
  · rw [State.countConv_getFrond, State.pinLeaves_getFrond]
  · rw [State.countConv_getFrond, State.pinLeaves_others _ _ _ _ _ g hg]
  · rw [hframe]; rfl
  · exact Converted.congr (s := s.pinLeaves f n off _) (fun _ => rfl) (fun _ => rfl) (State.countConv_converted p cvt 1 _ _ _)

/-- A pinnule's conversion to an MX format: 32 words of the local store to one block, counted (R89, R174). -/
theorem State.pinNarrow_mx {cvt : Byte} {src dst block : Nat} (hmx : isMx (cvtDst cvt) = true) : ∃ t,
    (s.setPc f n off).pinNarrow f p n cvt src dst block = t ∧ BlocksNarrowed s t f p cvt dst (block % 64) 1
      ((List.range 32).map fun i => BitVec.ofNat 32 (leNat (s.localStore.readN (localKey f n (src + 4 * i)) 4))) ∧
    t.getFrond f = { s.getFrond f with
      pc := Tab.set 0 (s.getFrond f).pc n off, counts := Tab.upd 0 (s.getFrond f).counts 7 (satAdd 64 · (Config.conflictCycles s.free)) } ∧
    OtherFronds s t f ∧ t = { s with store := t.store, frond := t.frond, part := t.part, free := s.free + 1 } := by
  obtain ⟨ws, hws⟩ : ∃ ws : List Word,
      ws = (List.range 32).map fun i => BitVec.ofNat 32 (leNat (s.localStore.readN (localKey f n (src + 4 * i)) 4)) := ⟨_, rfl⟩
  have hlen : ws.take 32 = ws := List.take_of_length_le (by rw [hws]; simp)
  have heq : (s.setPc f n off).pinNarrow f p n cvt src dst block =
      ((s.setPc f n off).narrowBlock f p cvt dst (block % 64) (ws.take 32)).contend f 7 := by
    simp only [State.pinNarrow, hmx, if_true]
    rw [hlen, hws]
    rfl
  refine ⟨_, heq, ?_⟩
  rw [← hws]
  have hblock := State.narrowBlock_narrowed (s := s.setPc f n off) (f := f) (p := p) (addr := dst) (cvt := cvt) (ws := ws)
    (b := block % 64) (Nat.mod_lt _ (by decide))
  have hframe := State.narrowBlock_frame f p cvt dst (block % 64) (ws.take 32) (s.setPc f n off)
  generalize (s.setPc f n off).narrowBlock f p cvt dst (block % 64) (ws.take 32) = u at *
  have hfrond : ∀ g, u.getFrond g = (s.setPc f n off).getFrond g := fun g => by rw [hframe]; rfl
  refine ⟨hblock.congr rfl (fun _ => rfl) rfl (fun _ => rfl), ?_, fun g hg => ?_, ?_⟩
  · rw [State.contend_getFrond, hfrond, State.setPc_getFrond, hframe]; rfl
  · rw [State.contend_others _ _ _ g hg, hfrond]; exact State.setPc_others f n off s g hg
  · rw [State.contend_frame, hframe]; rfl

/-- The frond after a BOB (R181, R182). -/
def Frond.bobbed (n cycle k0 k1 c0 c1 c2 c3 q : Nat) (x : Frond) : Frond :=
  { x.qput n q (fun i => nth 0 (bobbin (x.iget n k0) (x.iget n k1) (x.iget n c0) (x.iget n c1) (x.iget n c2) (x.iget n c3)) i) with
    bob := Tab.set 0 x.bob n (x.bobAt n cycle + 1) }

theorem Frond.bobbed_bob {cycle k0 k1 c0 c1 c2 c3 q : Nat} (n : Nat) (x : Frond) :
    (x.bobbed n cycle k0 k1 c0 c1 c2 c3 q).bob = Tab.set 0 x.bob n (x.bobAt n cycle + 1) := rfl

section
variable (hbusy : s.pinBusy f n = some (p, r))
include hbusy

theorem exec_finchk (a : FinArg) : exec (.finchk f n a) s = .next (if (finWords (s.getFrond f) n a).all isFinite then s
    else (s.updArith p fun x => { x with finchk := satAdd 64 x.finchk 1 }).updRun p fun r => { r with finite := false }) := by
  show Host.Outcome.next (s.finchk f n a) = _
  simp only [State.finchk, hbusy]

theorem exec_bob (cycle k0 k1 c0 c1 c2 c3 q : Nat) : exec (.bob f n cycle k0 k1 c0 c1 c2 c3 q) s =
    .next (s.updFrond f (Frond.bobbed n cycle k0 k1 c0 c1 c2 c3 q)) := by
  show Host.Outcome.next (s.bob f n cycle k0 k1 c0 c1 c2 c3 q) = _
  simp only [State.bob, hbusy]
  rfl

end

theorem exec_finchk_idle (h : s.pinBusy f n = none) (a : FinArg) : exec (.finchk f n a) s = .next s := by
  show Host.Outcome.next (s.finchk f n a) = _
  simp only [State.finchk, h]

theorem exec_bob_idle (h : s.pinBusy f n = none) (cycle k0 k1 c0 c1 c2 c3 q : Nat) : exec (.bob f n cycle k0 k1 c0 c1 c2 c3 q) s = .next s := by
  show Host.Outcome.next (s.bob f n cycle k0 k1 c0 c1 c2 c3 q) = _
  simp only [State.bob, h]

/-- The cycle that a BOB keeps: its own, or 4 after the one before (R182). -/
theorem Frond.bobAt_eq (n cycle : Nat) (x : Frond) : (Tab.get 0 x.bob n = 0 → x.bobAt n cycle = cycle) ∧
    ∀ k, Tab.get 0 x.bob n = k + 1 → x.bobAt n cycle = max cycle (k + 4) :=
  ⟨fun h => if_pos h, fun k h => (if_neg (by omega)).trans (by rw [h])⟩

end

/-! ### O48 -/

/-- Settles O48, by the instructions grouped by what they write. -/
theorem pinnulesExecute : Obligations.PinnulesExecute := by
  unfold Obligations.PinnulesExecute
  intro s f n p r x rne hx hrne
  subst hx hrne
  refine ⟨fun slot off hidle o cvt src dst block => ⟨exec_pinnuleInstruction_idle hidle o, exec_pinnuleConversion_idle hidle cvt src dst block⟩,
    fun slot off hrun => ⟨fun o d v hd h => ?int, fun o d v hd h => ?fp, fun o d v hd h => ?quad,
      fun d a hd => ⟨fun ha => ?storeLocal, fun ha => ?loadFrond, fun ha => ?storeFrond⟩, fun u hn hu hw => ?shared, fun k hn hk => ?start,
      fun o h => exec_faultOp hrun h, fun cvt src d block hd hok hmx => ?ieee, fun cvt src dst block => ⟨fun hok hmx => ?mx, fun hok => ?refused⟩⟩,
    fun hidle a cycle k0 k1 c0 c1 c2 c3 q k => ⟨exec_finchk_idle hidle a, exec_bob_idle hidle cycle k0 k1 c0 c1 c2 c3 q, exec_raise_idle hidle k⟩,
    fun hbusy => ⟨fun cycle k0 k1 c0 c1 c2 c3 q hq => ?bob, fun k => ⟨fun hk => ?raise, fun hk => ?beyond⟩,
      fun a => ⟨fun hfin => ?finite, fun hfin => ?notFinite⟩⟩⟩
  case int =>
    refine ⟨_, exec_intOp hrun h, State.pinLeaves_intWritten hd v, ?_, rfl⟩
    rw [State.pinLeaves_getFrond]; rfl
  case fp =>
    exact ⟨_, exec_fpOp hrun h, State.fpWritten hd (State.pinLeaves_getFrond _ _ _ _ _) (State.pinLeaves_others _ _ _ _ _) rfl, rfl⟩
  case quad =>
    rcases h with ⟨a, b, c, rfl, hv⟩ | ⟨b, i, j, rfl, hb, hv⟩
    · obtain rfl := funext hv
      exact ⟨_, exec_pinRegs hrun rfl rfl, State.pinLeaves_quadWritten hd _⟩
    · obtain rfl := funext hv
      exact ⟨_, exec_pinRegs hrun rfl (if_neg (by simpa [laneHas] using hb)), State.pinLeaves_quadWritten hd _⟩
  case storeLocal =>
    exact ⟨_, exec_storeLocal hrun ha, leNat_readN_word _ _ _, fun k hk => Mem.read_writeN_out _ _ _ (by simpa using hk),
      State.setPc_getFrond f n off s, fun g hg => State.setPc_others f n off s g hg, rfl⟩
  case loadFrond =>
    refine ⟨_, exec_loadFrond hrun ha, State.intWritten hd ?_ (fun g hg => ?_) (State.contend_frame _ _ _), ?_, ?_⟩
    · rw [State.contend_getFrond, State.pinLeaves_getFrond]
    · rw [State.contend_others _ _ _ g hg, State.pinLeaves_others _ _ _ _ _ g hg]
    · rw [State.contend_getFrond, State.pinLeaves_getFrond]; rfl
    · rw [State.contend_frame]; rfl
  case storeFrond =>
    refine ⟨_, exec_storeFrond hrun ha, ?_, fun k hk => ?_, ?_, fun g hg => ?_, ?_⟩
    · exact (State.fsWord_congr (State.contend_store _ _ _) f a).trans (State.fsWord_fsPut (s.setPc f n off) f a _)
    · exact State.store_fsWrite_out (s := s.setPc f n off) (by rw [leBytes_length]; simpa using hk)
    · rw [State.contend_getFrond, State.fsPut, State.fsWrite_getFrond, State.setPc_getFrond]; rfl
    · rw [State.contend_others _ _ _ g hg]; rw [State.fsPut, State.fsWrite_getFrond]; exact State.setPc_others f n off s g hg
    · rw [State.contend_frame, State.fsPut, State.fsWrite_frame]; rfl
  case shared =>
    exact ⟨_, exec_pinEffect hrun (if_pos ⟨hn, hu, hw⟩), State.setPc_getFrond f n off s, State.setPc_others f n off s, rfl⟩
  case start =>
    refine ⟨_, exec_pinEffect hrun (if_pos ⟨hn, hk⟩), ?_, (State.setPc_others f n off s).trans (OtherFronds.updFrond f _ _), rfl⟩
    rw [State.getFrond_updFrond_same, State.setPc_getFrond]; rfl
  case ieee =>
    obtain ⟨t, ht, hwritten⟩ := State.pinNarrow_ieee (s := s) (off := off) (block := block) hd hmx rfl
    exact ⟨t, by rw [exec_pinnuleConversion hrun, if_pos hok, ht], hwritten⟩
  case mx =>
    obtain ⟨t, ht, hblocks⟩ := State.pinNarrow_mx (s := s) (f := f) (n := n) (off := off) (p := p) (src := src) (dst := dst) (block := block) hmx
    exact ⟨t, by rw [exec_pinnuleConversion hrun, if_pos hok, ht], hblocks⟩
  case refused => rw [exec_pinnuleConversion hrun, if_neg (by simp [hok])]
  case bob =>
    obtain ⟨hfirst, hlater⟩ := Frond.bobAt_eq n cycle (s.getFrond f)
    refine ⟨_, exec_bob hbusy cycle k0 k1 c0 c1 c2 c3 q, ?_⟩
    rw [State.getFrond_updFrond_same]
    refine ⟨fun i hi => Frond.qget_qput_same n q _ _ hi, fun m e i he hi h => Frond.qget_qput_ne hq he hi h (x := s.getFrond f), fun h => ?_,
      fun k h => ?_, fun m hm => ?_, rfl, OtherFronds.updFrond f _ s, rfl⟩
    · rw [Frond.bobbed_bob, Tab.get_set_same, hfirst h]
    · rw [Frond.bobbed_bob, Tab.get_set_same, hlater k h]
    · rw [Frond.bobbed_bob, Tab.get_set_ne _ _ _ hm]
  case raise => exact ⟨_, by rw [exec_raise hbusy, if_pos hk], State.raiseToken_raisedAfter f k s⟩
  case beyond => rw [exec_raise hbusy, if_neg (Nat.not_lt.2 hk)]
  case finite => rw [exec_finchk hbusy, if_pos hfin]
  case notFinite =>
    refine ⟨_, by rw [exec_finchk hbusy, if_neg (by simp [hfin])], ?_, fun q hq => ?_, rfl⟩
    · rw [State.updRun, State.getPart_updPart_same, State.updArith, State.getPart_updPart_same]
    · rw [State.updRun, State.getPart_updPart_ne _ _ _ _ hq, State.updArith, State.getPart_updPart_ne _ _ _ _ hq]

end Sys2Proof.Machine
end

section
/-! SUPPORT. The vector unit: lanes, ranking, reductions, widenings and conversions, and the statement about them. -/

namespace Sys2Proof.Machine

/-! ### Lists made of pieces of one length -/

section
variable {α β : Type} {g : α → List β} {k i : Nat} {l : List α}

theorem length_flatMap_const (h : ∀ x ∈ l, (g x).length = k) : (l.flatMap g).length = k * l.length := by
  rw [List.length_flatMap, List.map_eq_replicate_iff.2 h, List.sum_replicate_nat, Nat.mul_comm]

theorem drop_flatMap_const (h : ∀ x ∈ l, (g x).length = k) : (l.flatMap g).drop (k * i) = (l.drop i).flatMap g := by
  induction l generalizing i with
  | nil => simp
  | cons x l ih =>
    have hx : (g x).length = k := h x (.head l)
    cases i with
    | zero => simp
    | succ i =>
      rw [List.flatMap_cons, Nat.mul_succ, Nat.add_comm, List.drop_append, List.drop_of_length_le (by omega), hx, Nat.add_sub_cancel_left,
        List.nil_append, List.drop_succ_cons, ih fun y hy => h y (.tail x hy)]

/-- The piece at a place. -/
theorem take_drop_flatMap_const {x : α} (h : ∀ x ∈ l, (g x).length = k) (hx : l[i]? = some x) : ((l.flatMap g).drop (k * i)).take k = g x := by
  obtain ⟨hi, rfl⟩ := List.getElem?_eq_some_iff.1 hx
  rw [drop_flatMap_const h, List.drop_eq_getElem_cons hi, List.flatMap_cons, List.take_append_of_le_length (by simp [h]),
    List.take_of_length_le (by simp [h])]

theorem nth_take {d : α} {n : Nat} (l : List α) (h : i < n) : nth d (l.take n) i = nth d l i := by
  simp [nth, h]

theorem nth_drop {d : α} (n : Nat) (l : List α) (i : Nat) : nth d (l.drop n) i = nth d l (n + i) := by
  simp [nth]

/-- An element of such a list. -/
theorem nth_flatMap_range {f : Nat → List α} {d : α} {n : Nat} (hk : 0 < k) (h : ∀ j, (f j).length = k) (hi : i < k * n) :
    nth d ((List.range n).flatMap f) i = nth d (f (i / k)) (i % k) := by
  have hdiv : i / k < n := Nat.div_lt_of_lt_mul hi
  rw [← take_drop_flatMap_const (l := List.range n) (g := f) (i := i / k) (fun j _ => h j) (by simp [hdiv]), nth_take _ (Nat.mod_lt i hk), nth_drop,
    Nat.div_add_mod]

end

/-! ### Lanes (R60) -/

section
variable {s t : State} {x : Frond} {d e f i n : Nat} {ws : List Word}

theorem Frond.vputs_vget (d e i : Nat) (g : Nat → Word) (n : Nat) (hn : n ≤ 256) (hi : i < 256) (x : Frond) :
    ((List.range n).foldl (fun x i => x.vput d i (g i)) x).vget e i = if e % 16 = d % 16 ∧ i < n then g i else x.vget e i := by
  induction n with
  | zero => simp
  | succ n ih =>
    rw [List.range_succ, List.foldl_append, List.foldl_cons, List.foldl_nil]
    have hget : ∀ (y : Frond) (v : Word), (y.vput d n v).vget e i = if e % 16 = d % 16 ∧ i = n then v else y.vget e i := fun y v => by
      simp only [Frond.vput, Frond.vget, Tab.get_set]
      exact ite_congr (propext (by omega)) (fun _ => rfl) fun _ => rfl
    rw [hget, ih (by omega)]
    by_cases h : e % 16 = d % 16 ∧ i = n
    · obtain ⟨he, rfl⟩ := h; simp [he]
    · rw [if_neg h]
      exact ite_congr (propext (by omega)) (fun _ => rfl) fun _ => rfl

/-- A register after a write of its first lanes. -/
theorem Frond.vget_vwrite (hlen : ws.length ≤ 256) (hi : i < 256) (d e : Nat) (x : Frond) :
    (x.vwrite d ws).vget e i = if e % 16 = d % 16 ∧ i < ws.length then nth 0 ws i else x.vget e i := Frond.vputs_vget d e i _ _ hlen hi x

/-- A write of lanes changes the vector registers alone. -/
theorem Frond.vwrite_frame (d : Nat) (ws : List Word) (x : Frond) : x.vwrite d ws = { x with vreg := (x.vwrite d ws).vreg } := by
  unfold Frond.vwrite
  induction List.range ws.length generalizing x with
  | nil => rfl
  | cons i l ih => rw [List.foldl_cons, ih]; rfl

theorem State.vwrite_lanesWritten (hd : d < 16) (hlen : ws.length ≤ 256) (h : (t.getFrond f).vreg = ((s.getFrond f).vwrite d ws).vreg) :
    LanesWritten s t f d ws.length fun i => nth 0 ws i := by
  have hget : ∀ e i, (t.getFrond f).vget e i = ((s.getFrond f).vwrite d ws).vget e i := fun e i => by rw [Frond.vget, h]; rfl
  refine ⟨fun i hi => ?_, fun e i he hi hne => ?_⟩
  · rw [hget, Frond.vget_vwrite hlen (by omega), if_pos ⟨rfl, hi⟩]
  · rw [hget, Frond.vget_vwrite hlen hi, if_neg (by omega)]

theorem LanesWritten.congr {v w : Nat → Word} (h : LanesWritten s t f d n v) (hv : ∀ i, i < n → v i = w i) : LanesWritten s t f d n w :=
  ⟨fun i hi => (h.1 i hi).trans (hv i hi), h.2⟩

/-- The lanes that were written, as a list. -/
theorem LanesWritten.vlanes_take (h : LanesWritten s t f d ws.length fun i => nth 0 ws i) (hlen : ws.length ≤ 256) :
    ((t.getFrond f).vlanes d).take ws.length = ws := by
  refine List.ext_getElem (by simp [Frond.vlanes, hlen]) fun i hi hi' => ?_
  simp only [Frond.vlanes, List.getElem_take, List.getElem_map, List.getElem_range]
  rw [h.1 i hi']
  simp [nth, hi']

@[simp] theorem Frond.vlanes_length (x : Frond) (d : Nat) : (x.vlanes d).length = 256 := by simp [Frond.vlanes]

theorem Frond.nth_vlanes (h : i < 256) (x : Frond) (d : Nat) : nth 0 (x.vlanes d) i = x.vget d i := nth_map_range _ _ h

end

/-! ### Ranking (R96) -/

section
variable {before : Word × Nat → Word × Nat → Bool} {l : List (Word × Nat)} {ws : List Word}

theorem rankInsert_eq (a : Word × Nat) (l : List (Word × Nat)) : rankInsert before a l = l.orderedInsert (fun a b => before a b = true) a := by
  induction l with
  | nil => rfl
  | cons b l ih => simp only [rankInsert, List.orderedInsert_cons, ih]

theorem rankSort_eq (l : List (Word × Nat)) : rankSort before l = l.insertionSort fun a b => before a b = true := by
  induction l with
  | nil => rfl
  | cons a l ih => rw [List.insertionSort_cons, ← ih, ← rankInsert_eq]; rfl

theorem rankSort_perm (before : Word × Nat → Word × Nat → Bool) (l : List (Word × Nat)) : (rankSort before l).Perm l := by
  rw [rankSort_eq]; exact List.perm_insertionSort _ l

@[simp] theorem rankSort_length (before : Word × Nat → Word × Nat → Bool) (l : List (Word × Nat)) : (rankSort before l).length = l.length :=
  (rankSort_perm before l).length_eq

theorem rankSort_pairwise (htotal : ∀ a b, before a b = true ∨ before b a = true)
    (htrans : ∀ a b c, before a b = true → before b c = true → before a c = true) (l : List (Word × Nat)) :
    (rankSort before l).Pairwise fun a b => before a b = true := by
  rw [rankSort_eq]
  have : Std.Total fun a b => before a b = true := ⟨htotal⟩
  have : IsTrans (Word × Nat) fun a b => before a b = true := ⟨htrans⟩
  exact List.pairwise_insertionSort _ l

theorem rankBefore_iff (a b : Word × Nat) : rankBefore a b = true ↔ orderKey a.1 < orderKey b.1 ∨ orderKey a.1 = orderKey b.1 ∧ a.2 ≤ b.2 := by
  simp [rankBefore]

theorem rankAfter_iff (a b : Word × Nat) : rankAfter a b = true ↔ orderKey b.1 < orderKey a.1 ∨ orderKey a.1 = orderKey b.1 ∧ a.2 ≤ b.2 := by
  simp [rankAfter]

theorem rankSort_rankBefore (l : List (Word × Nat)) : (rankSort rankBefore l).Pairwise fun a b => rankBefore a b = true :=
  rankSort_pairwise (fun a b => by rw [rankBefore_iff, rankBefore_iff]; omega)
    (fun a b c => by rw [rankBefore_iff, rankBefore_iff, rankBefore_iff]; omega) l

theorem rankSort_rankAfter (l : List (Word × Nat)) : (rankSort rankAfter l).Pairwise fun a b => rankAfter a b = true :=
  rankSort_pairwise (fun a b => by rw [rankAfter_iff, rankAfter_iff]; omega)
    (fun a b c => by rw [rankAfter_iff, rankAfter_iff, rankAfter_iff]; omega) l

/-- The elements with their indices. -/
def indexed (ws : List Word) : List (Word × Nat) := ws.zip (List.range ws.length)

@[simp] theorem indexed_length (ws : List Word) : (indexed ws).length = ws.length := by simp [indexed]

theorem indexed_fst (ws : List Word) : (indexed ws).map (·.1) = ws := List.map_fst_zip (by simp)

theorem mem_indexed {a : Word × Nat} : a ∈ indexed ws ↔ a.2 < ws.length ∧ a.1 = nth 0 ws a.2 := by
  obtain ⟨v, j⟩ := a
  rw [indexed, List.mem_iff_getElem]
  constructor
  · rintro ⟨k, hk, h⟩
    have hlt : k < ws.length := by simpa using hk
    simp only [List.getElem_zip, List.getElem_range, Prod.mk.injEq] at h
    obtain ⟨rfl, rfl⟩ := h
    exact ⟨hlt, by simp [nth, hlt]⟩
  · rintro ⟨hj, hv⟩
    have hj' : j < ws.length := hj
    refine ⟨j, by simpa using hj', ?_⟩
    have hv' : v = nth 0 ws j := hv
    simp [hv', nth, hj']

/-- The first of a ranking precedes all elements. -/
theorem rankSort_head (hne : ws ≠ []) (hrefl : ∀ a, before a a = true)
    (hsorted : (rankSort before (indexed ws)).Pairwise fun a b => before a b = true) :
    ∃ i, i < ws.length ∧ ((rankSort before (indexed ws)).headD (0, 0)).2 = i ∧ ∀ j, j < ws.length → before (nth 0 ws i, i) (nth 0 ws j, j) = true := by
  have hmem : ∀ a, a ∈ rankSort before (indexed ws) ↔ a.2 < ws.length ∧ a.1 = nth 0 ws a.2 := fun a => by
    rw [(rankSort_perm before _).mem_iff, mem_indexed]
  cases hl : rankSort before (indexed ws) with
  | nil =>
    have hzero := congrArg List.length hl
    rw [rankSort_length, indexed_length] at hzero
    exact absurd (List.length_eq_zero_iff.1 hzero) hne
  | cons a l =>
    rw [hl] at hmem hsorted
    obtain ⟨hlt, ha⟩ := (hmem a).1 (.head l)
    refine ⟨a.2, hlt, rfl, fun j hj => ?_⟩
    rw [← ha]
    rcases List.mem_cons.1 ((hmem (nth 0 ws j, j)).2 ⟨hj, rfl⟩) with h | h
    · rw [h]; exact hrefl a
    · exact (List.pairwise_cons.1 hsorted).1 _ h

/-- The least element of the least index (R96). -/
theorem rank_argmin (hne : ws ≠ []) : ∃ i, i < ws.length ∧ ((rankSort rankBefore (indexed ws)).headD (0, 0)).2 = i ∧
    ∀ j, j < ws.length → orderKey (nth 0 ws i) ≤ orderKey (nth 0 ws j) ∧ (j < i → orderKey (nth 0 ws i) < orderKey (nth 0 ws j)) := by
  obtain ⟨i, hi, hhead, hfirst⟩ := rankSort_head hne (fun a => by rw [rankBefore_iff]; omega) (rankSort_rankBefore (indexed ws))
  refine ⟨i, hi, hhead, fun j hj => ?_⟩
  have h := (rankBefore_iff _ _).1 (hfirst j hj)
  dsimp only at h
  omega

/-- The greatest element of the least index (R96). -/
theorem rank_argmax (hne : ws ≠ []) : ∃ i, i < ws.length ∧ ((rankSort rankAfter (indexed ws)).headD (0, 0)).2 = i ∧
    ∀ j, j < ws.length → orderKey (nth 0 ws j) ≤ orderKey (nth 0 ws i) ∧ (j < i → orderKey (nth 0 ws j) < orderKey (nth 0 ws i)) := by
  obtain ⟨i, hi, hhead, hfirst⟩ := rankSort_head hne (fun a => by rw [rankAfter_iff]; omega) (rankSort_rankAfter (indexed ws))
  refine ⟨i, hi, hhead, fun j hj => ?_⟩
  have h := (rankAfter_iff _ _).1 (hfirst j hj)
  dsimp only at h
  omega

/-- The elements in ascending order (R96). -/
theorem rank_sort (ws : List Word) : Ascending ((rankSort rankBefore (indexed ws)).map (·.1)) ∧ ((rankSort rankBefore (indexed ws)).map (·.1)).Perm ws := by
  refine ⟨List.pairwise_map.2 ((rankSort_rankBefore _).imp fun h => ?_), ?_⟩
  · have := (rankBefore_iff _ _).1 h
    omega
  · exact ((rankSort_perm rankBefore _).map _).trans (.of_eq (indexed_fst ws))

/-- The first elements in descending order, and the rest behind them (R96). -/
theorem rank_topk (k : Nat) (ws : List Word) : ∃ rest : List Word, Ascending (((rankSort rankAfter (indexed ws)).take k).map (·.1)).reverse ∧
    (((rankSort rankAfter (indexed ws)).take k).map (·.1) ++ rest).Perm ws ∧
    ∀ y ∈ ((rankSort rankAfter (indexed ws)).take k).map (·.1), ∀ z ∈ rest, orderKey z ≤ orderKey y := by
  have hsorted := rankSort_rankAfter (indexed ws)
  have hperm := ((rankSort_perm rankAfter (indexed ws)).map (·.1)).trans (.of_eq (indexed_fst ws))
  generalize rankSort rankAfter (indexed ws) = l at *
  have hle : (l.map (·.1)).Pairwise fun a b => orderKey b ≤ orderKey a := List.pairwise_map.2 (hsorted.imp fun h => by
    have := (rankAfter_iff _ _).1 h
    omega)
  rw [← List.take_append_drop k (l.map (·.1))] at hle hperm
  obtain ⟨htake, _, hacross⟩ := List.pairwise_append.1 hle
  rw [List.map_take]
  exact ⟨_, List.pairwise_reverse.2 htake, hperm, hacross⟩

/-- What O47 says of the n lanes that a ranking has written to register d of a frond, for the elements that it ranked. -/
def Ranked (k : Rank) (ws : List Word) (n : Nat) (x : Frond) (d : Nat) : Prop :=
  (k = .argmax → n = 1 ∧ ∃ i, i < 256 ∧ x.vget d 0 = BitVec.ofNat 32 i ∧
    ∀ j, j < 256 → orderKey (nth 0 ws j) ≤ orderKey (nth 0 ws i) ∧ (j < i → orderKey (nth 0 ws j) < orderKey (nth 0 ws i))) ∧
  (k = .argmin → n = 1 ∧ ∃ i, i < 256 ∧ x.vget d 0 = BitVec.ofNat 32 i ∧
    ∀ j, j < 256 → orderKey (nth 0 ws i) ≤ orderKey (nth 0 ws j) ∧ (j < i → orderKey (nth 0 ws i) < orderKey (nth 0 ws j))) ∧
  (k = .sort → n = 256 ∧ Ascending (x.vlanes d) ∧ (x.vlanes d).Perm ws) ∧
  (∀ m, k = .topk m → n = min m 256 ∧ ∃ rest : List Word, Ascending ((x.vlanes d).take n).reverse ∧ (((x.vlanes d).take n) ++ rest).Perm ws ∧
    ∀ y ∈ (x.vlanes d).take n, ∀ z ∈ rest, orderKey z ≤ orderKey y)

theorem Ranked.of_lanes {s t : State} {f d : Nat} {k : Rank} {f19 : Bool} {vs us : List Word} (hws : ws = us.map (operand f19))
    (hvs : vs = rankLanes k f19 us) (hlen : ws.length = 256) (hwritten : LanesWritten s t f d vs.length fun i => nth 0 vs i) (hle : vs.length ≤ 256) :
    Ranked k ws vs.length (t.getFrond f) d := by
  have htake := hwritten.vlanes_take hle
  have hne : ws ≠ [] := fun h => by rw [h] at hlen; cases hlen
  cases k with
  | argmax =>
    refine ⟨fun _ => ?_, nofun, nofun, nofun⟩
    obtain ⟨i, hi, hhead, hfirst⟩ := rank_argmax hne
    have hi' : vs = [BitVec.ofNat 32 i] := by rw [hvs, ← hhead, hws]; rfl
    subst hi'
    exact ⟨rfl, i, hlen ▸ hi, hwritten.1 0 Nat.one_pos, fun j hj => hfirst j (hlen ▸ hj)⟩
  | argmin =>
    refine ⟨nofun, fun _ => ?_, nofun, nofun⟩
    obtain ⟨i, hi, hhead, hfirst⟩ := rank_argmin hne
    have hi' : vs = [BitVec.ofNat 32 i] := by rw [hvs, ← hhead, hws]; rfl
    subst hi'
    exact ⟨rfl, i, hlen ▸ hi, hwritten.1 0 Nat.one_pos, fun j hj => hfirst j (hlen ▸ hj)⟩
  | sort =>
    refine ⟨nofun, nofun, fun _ => ?_, nofun⟩
    have hsort : vs = (rankSort rankBefore (indexed ws)).map (·.1) := by rw [hvs, hws]; rfl
    have hfull : vs.length = 256 := by rw [hsort, List.length_map, rankSort_length, indexed_length, hlen]
    rw [hfull, List.take_of_length_le (Nat.le_of_eq (Frond.vlanes_length _ _))] at htake
    rw [htake, hsort]
    exact ⟨hsort ▸ hfull, rank_sort ws⟩
  | topk m =>
    refine ⟨nofun, nofun, nofun, fun m' hm => ?_⟩
    cases hm
    have htop : vs = ((rankSort rankAfter (indexed ws)).take m).map (·.1) := by rw [hvs, hws]; rfl
    rw [htake, htop]
    exact ⟨by simp [hlen], rank_topk m ws⟩

theorem rankLanes_length (o : Rank) (f19 : Bool) (vs : List Word) : (rankLanes o f19 vs).length =
    match o with | .argmax => 1 | .argmin => 1 | .sort => vs.length | .topk m => min m vs.length := by
  cases o <;> simp [rankLanes]

end

/-! ### Reductions (R62) -/

section
variable {o : FpBin} {f19 rne : Bool} {ws : List Word} {i n : Nat}

/-- The lanes after the first steps of a reduction. -/
def reduceAfter (o : FpBin) (f19 rne : Bool) (ws : List Word) : Nat → List Word
  | 0 => ws
  | j + 1 => reduceStep o f19 rne (256 / 2 ^ (j + 1)) (reduceAfter o f19 rne ws j)

theorem reduceLanes_eq (o : FpBin) (f19 rne : Bool) (ws : List Word) : reduceLanes o f19 rne ws = reduceAfter o f19 rne ws 8 := rfl

theorem nth_reduceStep (n : Nat) (ws : List Word) (i : Nat) : nth 0 (reduceStep o f19 rne n ws) i =
    if i < n then fpBin o f19 rne (nth 0 ws i) (nth 0 ws (i + n)) else nth 0 ws i := by
  unfold reduceStep
  by_cases hi : i < n
  · rw [if_pos hi]
    simp [nth, List.getElem?_append, hi]
  · rw [if_neg hi]
    simp [nth, List.getElem?_append, hi, Nat.add_sub_cancel' (Nat.not_lt.1 hi)]

theorem reduceStep_length (h : n ≤ ws.length) : (reduceStep o f19 rne n ws).length = ws.length := by
  simp [reduceStep]; omega

theorem reduceAfter_length (h : ws.length = 256) (j : Nat) : (reduceAfter o f19 rne ws j).length = 256 := by
  induction j with
  | zero => exact h
  | succ j ih => rw [reduceAfter, reduceStep_length (by rw [ih]; exact Nat.div_le_self _ _), ih]

/-- Step j + 1 combines the lanes below 256/2^(j+1) with those above (R62). -/
theorem nth_reduceAfter_succ (ws : List Word) (j i : Nat) : nth 0 (reduceAfter o f19 rne ws (j + 1)) i =
    if i < 256 / 2 ^ (j + 1) then fpBin o f19 rne (nth 0 (reduceAfter o f19 rne ws j) i) (nth 0 (reduceAfter o f19 rne ws j) (i + 256 / 2 ^ (j + 1)))
    else nth 0 (reduceAfter o f19 rne ws j) i :=
  nth_reduceStep _ _ i

end

/-! ### What a vector operation does (R60, R61, R77, R106, R107) -/

section
variable {s : State} {f w p d n : Nat} {r : FrondRec} {o : VecOp} {tok : Option Nat} {ws : List Word}

theorem State.vwrite_spec (hd : d < 16) (hlen : ws.length ≤ 256) (s : State) (f : Nat) :
    LanesWritten s (s.updFrond f (Frond.vwrite d ws)) f d ws.length (fun i => nth 0 ws i) ∧
    (s.updFrond f (Frond.vwrite d ws)).getFrond f = { s.getFrond f with vreg := ((s.updFrond f (Frond.vwrite d ws)).getFrond f).vreg } ∧
    OtherFronds s (s.updFrond f (Frond.vwrite d ws)) f := by
  refine ⟨State.vwrite_lanesWritten hd hlen (by rw [State.getFrond_updFrond_same]), ?_, OtherFronds.updFrond f _ s⟩
  rw [State.getFrond_updFrond_same]
  exact Frond.vwrite_frame d ws _

/-- An operation with an effect has it, and raises its token. -/
theorem exec_vecEffect {t : State} (hdriven : s.driven f unitVector w = some (p, r, true)) (h : s.vecEffect f p r o = some t) :
    exec (.vectorOperation f w o tok) s = .next ((if vecStores o then t.contend f 6 else t).raiseOpt f tok) :=
  (exec_own (exec_vectorOperation o tok) hdriven).trans (congrArg _ (by rw [State.ownVector, h]))

/-- One without is a frond fault (R77). -/
theorem exec_vecEffect_none (hdriven : s.driven f unitVector w = some (p, r, true)) (h : s.vecEffect f p r o = none) :
    exec (.vectorOperation f w o tok) s = .next (s.unitFault f unitVector w) :=
  (exec_own (exec_vectorOperation o tok) hdriven).trans (congrArg _ (by rw [State.ownVector, h]))

theorem State.vecEffect_registers (h : vecStores o = false) : s.vecEffect f p r o =
    (vecLanes (s.f19Rne p) (s.getFrond f) o).map fun x => s.updFrond f (Frond.vwrite x.1 x.2) := by
  cases o with
  | load | store | widenMx => cases h
  | bin | fma | cmp | rank | widen => rfl

/-- An operation on registers alone. -/
theorem exec_vecLanes (hdriven : s.driven f unitVector w = some (p, r, true)) (hstores : vecStores o = false)
    (h : vecLanes (s.f19Rne p) (s.getFrond f) o = some (d, ws)) :
    exec (.vectorOperation f w o tok) s = .next ((s.updFrond f (Frond.vwrite d ws)).raiseOpt f tok) := by
  have heffect : s.vecEffect f p r o = some (s.updFrond f (Frond.vwrite d ws)) := by rw [State.vecEffect_registers hstores, h]; rfl
  rw [exec_vecEffect hdriven heffect, if_neg (by simp [hstores])]

/-- The operations of O47 that compute each lane alone, with its value (R60). -/
def LaneOp (x : Frond) (rne : Bool) (o : VecOp) (d : Nat) (v : Nat → Word) : Prop :=
  (∃ b f19 i j, o = .bin b f19 d i j ∧ b ≠ .div ∧ ∀ k, v k = fpBin b f19 rne (x.vget i k) (x.vget j k)) ∨
  (∃ f19 i j l, o = .fma f19 d i j l ∧ ∀ k, v k = fpFma f19 rne (x.vget i k) (x.vget j k) (x.vget l k)) ∨
  (∃ c fa fb i j, o = .cmp c fa fb d i j ∧ ∀ k, v k = Config.cmpWord (fpCompare c (operand fa (x.vget i k)) (operand fb (x.vget j k)))) ∨
  (∃ fmt i, o = .widen fmt d i ∧ (fmt = 0 ∨ fmt = 2 ∨ fmt = 3) ∧ ∀ k, v k = widenWord fmt (x.vget i k))

theorem LaneOp.vecLanes {x : Frond} {rne : Bool} {v : Nat → Word} (h : LaneOp x rne o d v) :
    vecStores o = false ∧ vecLanes rne x o = some (d, (List.range 256).map v) := by
  rcases h with ⟨b, f19, i, j, rfl, hb, hv⟩ | ⟨f19, i, j, l, rfl, hv⟩ | ⟨c, fa, fb, i, j, rfl, hv⟩ | ⟨fmt, i, rfl, hfmt, hv⟩
  · obtain rfl := funext hv
    exact ⟨rfl, if_neg (by simpa [laneHas] using hb)⟩
  · obtain rfl := funext hv
    exact ⟨rfl, rfl⟩
  · obtain rfl := funext hv
    exact ⟨rfl, rfl⟩
  · obtain rfl := funext hv
    refine ⟨rfl, (if_pos hfmt).trans ?_⟩
    rw [Frond.vlanes, List.map_map]
    rfl

/-- The operations that are frond faults (R60, R77). -/
def VecFaultOp (r : FrondRec) (o : VecOp) : Prop :=
  (∃ f19 d i j, o = .bin .div f19 d i j) ∨ (∃ fmt d i, o = .widen fmt d i ∧ fmt ≠ 0 ∧ fmt ≠ 2 ∧ fmt ≠ 3) ∨
  (∃ d a, (o = .load d a ∨ o = .store d a) ∧ r.pageOk a 1024 = false) ∨
  (∃ fmt f19 d addr block, o = .widenMx fmt f19 d addr block ∧ (isMx fmt = false ∨ groupPages r fmt addr (8 * (block % 8)) = false))

theorem exec_vecFaultOp (hdriven : s.driven f unitVector w = some (p, r, true)) (h : VecFaultOp r o) :
    exec (.vectorOperation f w o tok) s = .next (s.unitFault f unitVector w) := by
  refine exec_vecEffect_none hdriven ?_
  rcases h with ⟨f19, d, i, j, rfl⟩ | ⟨fmt, d, i, rfl, h0, h2, h3⟩ | ⟨d, a, rfl | rfl, ha⟩ | ⟨fmt, f19, d, addr, block, rfl, h⟩
  · rfl
  · show Option.map _ (ite _ _ _) = none
    rw [if_neg (by simp [h0, h2, h3])]; rfl
  · exact if_neg (by simp [ha])
  · exact if_neg (by simp [ha])
  · exact if_neg (by rcases h with h | h <;> simp [h])

/-- Scale-range faults count and set their cause (R107). -/
theorem State.countScaleRange_spec (p n : Nat) (s : State) :
    (n = 0 → s.countScaleRange p n = s) ∧
    (n ≠ 0 → (s.irq.status.length = 11 → (s.countScaleRange p n).caused .scaleRange) ∧
      (∀ q, q ≠ p → (s.countScaleRange p n).getPart q = s.getPart q) ∧
      (s.countScaleRange p n).getPart p = { s.getPart p with
        arith := { (s.getPart p).arith with scaleRange := satAdd 64 (s.getPart p).arith.scaleRange n }
        arithNow := { (s.getPart p).arithNow with scaleRange := satAdd 64 (s.getPart p).arithNow.scaleRange n } } ∧
      s.countScaleRange p n = { s with part := (s.countScaleRange p n).part, irq := (s.countScaleRange p n).irq,
                                       pcie := (s.countScaleRange p n).pcie, out := (s.countScaleRange p n).out }) := by
  refine ⟨fun h => if_pos h, fun h => ?_⟩
  have heq : s.countScaleRange p n = (s.updArith p fun a => { a with scaleRange := satAdd 64 a.scaleRange n }).raise .scaleRange := if_neg h
  rw [heq]
  refine ⟨fun hirq => State.raise_caused .scaleRange hirq, fun q hq => ?_, ?_, ?_⟩
  · rw [State.raise_getPart, State.updArith, State.getPart_updPart_ne _ _ _ _ hq]
  · rw [State.raise_getPart, State.updArith, State.getPart_updPart_same]
  · rw [State.raise_frame]; rfl

theorem State.countScaleRange_getFrond (p n f : Nat) (s : State) : (s.countScaleRange p n).getFrond f = s.getFrond f := by
  unfold State.countScaleRange
  split
  · rfl
  · rw [State.raise_getFrond]; rfl

theorem State.countScaleRange_free (p n : Nat) (s : State) : (s.countScaleRange p n).free = s.free := by
  unfold State.countScaleRange
  split
  · rfl
  · rw [State.raise_frame]; rfl

theorem unpackElems_length (w : Nat) (bs : List Byte) : (unpackElems w bs).length = 32 := by simp [unpackElems]

theorem widenBlock_length (fmt : Nat) (f19 : Bool) (scale : Nat) (es : List Nat) : (widenBlock fmt f19 scale es).1.length = es.length := by
  unfold widenBlock
  dsimp only
  split_ifs <;> simp

theorem State.widenAt_length (s : State) (f fmt : Nat) (f19 : Bool) (addr b : Nat) : (s.widenAt f fmt f19 addr b).1.length = 32 := by
  rw [State.widenAt, widenBlock_length, unpackElems_length]

/-- The widening of eight blocks: the lanes of the blocks in order, and the scale-range faults of the blocks that have one. -/
theorem State.vecWidenMx_eq (f p fmt : Nat) (f19 : Bool) (d addr block : Nat) (s : State) : s.vecWidenMx f p fmt f19 d addr block =
    (s.updFrond f (Frond.vwrite d ((List.range 8).flatMap fun j => (s.widenAt f fmt f19 addr (8 * (block % 8) + j)).1))).countScaleRange p
      ((List.range 8).filter fun j => (s.widenAt f fmt f19 addr (8 * (block % 8) + j)).2).length := by
  unfold State.vecWidenMx
  simp only [List.flatMap_map, List.filter_map, List.length_map]
  rfl

/-! ### Vector conversions (R63, R80, R174) -/

/-- Narrowing to an IEEE format: each lane's bytes in order, and the overflows and underflows of the lanes. -/
theorem narrowList_eq (fmt : Nat) (rne : Bool) (ws : List Word) : narrowList fmt rne ws =
    (ws.flatMap fun v => leBytes (ieeeBytes fmt) (narrowIeee fmt rne v).code, (ws.filter fun v => (narrowIeee fmt rne v).ovf).length,
      (ws.filter fun v => (narrowIeee fmt rne v).unf).length) := by
  unfold narrowList
  simp only [List.flatMap_map, List.filter_map, List.length_map]
  rfl

end

section
variable {s u : State} {f w p d a : Nat} {r : FrondRec} {o : VecOp} {tok : Option Nat} {cvt : Byte} {src dst block : Nat}

/-- An access of the vector unit to the store counts the cycles of its conflicts in its frond (R41, R78). -/
theorem State.contend_vector {x : Frond} (hu : u.getFrond f = { x with vreg := (u.getFrond f).vreg }) (hfree : u.free = s.free) :
    (u.contend f 6).getFrond f = { x with
      vreg := ((u.contend f 6).getFrond f).vreg, counts := Tab.upd 0 x.counts 6 (satAdd 64 · (Config.conflictCycles s.free)) } := by
  have hcounts : (u.getFrond f).counts = x.counts := by rw [hu]
  rw [State.contend_getFrond, hcounts, hfree, hu]

theorem LanesWritten.contend {n : Nat} {v : Nat → Word} (h : LanesWritten s u f d n v) : LanesWritten s (u.contend f 6) f d n v := by
  obtain ⟨h1, h2⟩ := h
  have hget : ∀ e i, ((u.contend f 6).getFrond f).vget e i = (u.getFrond f).vget e i := fun e i => by rw [State.contend_getFrond]; rfl
  exact ⟨fun i hi => by rw [hget]; exact h1 i hi, fun e i he hi hne => by rw [hget]; exact h2 e i he hi hne⟩

theorem LanesWritten.frond {v : State} {n : Nat} {vals : Nat → Word} (h : LanesWritten s u f d n vals) (hv : v.getFrond f = u.getFrond f) :
    LanesWritten s v f d n vals := by
  unfold LanesWritten at *
  rw [hv]
  exact h

theorem OtherFronds.contend (h : OtherFronds s u f) : OtherFronds s (u.contend f 6) f := h.trans (State.contend_others f 6 u)

/-- The words of 256 lanes in the store. -/
theorem State.fsWord_fsWrite_vlanes {i : Nat} (hi : i < 256) (s : State) (f a d : Nat) (x : Frond) :
    (s.fsWrite f a ((x.vlanes d).flatMap fun w => leBytes 4 w.toNat)).fsWord f (a + 4 * i) = x.vget d i := by
  have hlen : ∀ v ∈ x.vlanes d, (leBytes 4 v.toNat).length = 4 := fun v _ => leBytes_length _ _
  rw [State.fsWord, State.fsRead_fsWrite_part _ _ _ (by rw [length_flatMap_const hlen, Frond.vlanes_length]; omega),
    take_drop_flatMap_const hlen (x := x.vget d i) (by simp [Frond.vlanes, hi])]
  show BitVec.ofNat 32 (leNat (leBytes 4 (x.vget d i).toNat)) = _
  rw [leNat_leBytes_word, BitVec.ofNat_toNat, BitVec.setWidth_eq]

/-- The codes of 256 narrowed lanes in the store, each in its own bytes. -/
theorem State.fsRead_fsWrite_codes {i n : Nat} (hi : i < 256) (s : State) (f a d : Nat) (x : Frond) (code : Word → Nat) :
    leNat ((s.fsWrite f a ((x.vlanes d).flatMap fun v => leBytes n (code v))).fsRead f (a + n * i) n) = code (x.vget d i) % 2 ^ (8 * n) := by
  have hlen : ∀ v ∈ x.vlanes d, (leBytes n (code v)).length = n := fun v _ => leBytes_length _ _
  have hle : n * i + n ≤ n * 256 := by rw [← Nat.mul_succ]; exact Nat.mul_le_mul_left _ hi
  rw [State.fsRead_fsWrite_part _ _ _ (by rw [length_flatMap_const hlen, Frond.vlanes_length]; exact hle),
    take_drop_flatMap_const hlen (x := x.vget d i) (by simp [Frond.vlanes, hi]), leNat_leBytes, Nat.pow_mul]

theorem State.updFrond_congr {g h : Frond → Frond} (hgh : g (s.getFrond f) = h (s.getFrond f)) : s.updFrond f g = s.updFrond f h :=
  congrArg (fun y => { s with frond := Tab.set {} s.frond f y }) hgh

/-- A reduction that the unit has. -/
theorem exec_reduction {o : FpBin} {f19 : Bool} (hdriven : s.driven f unitVector w = some (p, r, true)) (ho : o ≠ .div) :
    exec (.vectorReduction f w o f19 d) s =
      .next (s.updFrond f (Frond.vwrite d (reduceAfter o f19 (s.f19Rne p) ((s.getFrond f).vlanes d) 8))) := by
  refine (exec_own (exec_vectorReduction o f19 d) hdriven).trans (congrArg _ ((if_neg (by simpa [laneHas] using ho)).trans ?_))
  exact State.updFrond_congr (by rw [reduceLanes_eq])

/-- A vector conversion that the unit has. -/
theorem exec_vecNarrow (hdriven : s.driven f unitVector w = some (p, r, true)) (hcvt : cvtOk cvt = true) (hpages : convPages r cvt dst block = true) :
    exec (.vectorConversion f w cvt src dst block) s = .next ((s.vecNarrow f p cvt src dst block).contend f 6) :=
  (exec_own (exec_vectorConversion cvt src dst block) hdriven).trans (congrArg _ (if_pos (by rw [hcvt, hpages]; rfl)))

/-- What a vector conversion to an IEEE format does (R63, R174). -/
theorem State.vecNarrow_ieee (hmx : isMx (cvtDst cvt) = false) : s.vecNarrow f p cvt src dst block =
    (s.fsWrite f dst (((s.getFrond f).vlanes src).flatMap fun v => leBytes (ieeeBytes (cvtDst cvt)) (narrowIeee (cvtDst cvt) (s.f19Rne p) v).code)).countConv
      p cvt 256 (((s.getFrond f).vlanes src).filter fun v => (narrowIeee (cvtDst cvt) (s.f19Rne p) v).ovf).length
      (((s.getFrond f).vlanes src).filter fun v => (narrowIeee (cvtDst cvt) (s.f19Rne p) v).unf).length := by
  simp only [State.vecNarrow, hmx, Bool.false_eq_true, if_false, narrowList_eq]

/-- What one to an MX format does (R63, R89, R174). -/
theorem State.vecNarrow_mx (hmx : isMx (cvtDst cvt) = true) :
    BlocksNarrowed s (s.vecNarrow f p cvt src dst block) f p cvt dst (8 * (block % 8)) 8 ((s.getFrond f).vlanes src) ∧
    s.vecNarrow f p cvt src dst block = { s with
      store := (s.vecNarrow f p cvt src dst block).store, part := (s.vecNarrow f p cvt src dst block).part } := by
  simp only [State.vecNarrow, hmx, if_true]
  refine ⟨State.forAll_narrowBlock 7 (by omega), ?_⟩
  refine forAll_inv (fun t => t = { s with store := t.store, part := t.part }) _ _ s rfl fun j _ t ht => ?_
  rw [State.narrowBlock_frame, ht]

end

/-! ### O47 -/

/-- Settles O47, by the operations grouped by what they do. -/
theorem vectorUnitOperates : Obligations.VectorUnitOperates := by
  unfold Obligations.VectorUnitOperates
  intro s f w p r x rne hx hrne
  subst hx hrne
  refine ⟨fun hidle o tok b f19 cvt d src dst block => ⟨exec_idle (exec_vectorOperation o tok) hidle, exec_idle (exec_vectorReduction b f19 d) hidle,
      exec_idle (exec_vectorConversion cvt src dst block) hidle⟩,
    fun hother o tok b f19 cvt d src dst block => ⟨exec_foreign (exec_vectorOperation o tok) hother, exec_foreign (exec_vectorReduction b f19 d) hother,
      exec_foreign (exec_vectorConversion cvt src dst block) hother⟩,
    fun hown => ⟨fun o tok d hd => ⟨fun v h => ?lanes, fun k f19 a ws ho hws => ?rank, fun a ho ha => ?load, fun a ho ha => ?store,
      fun fmt f19 addr block n ho hmx hpages hn => ?widenMx⟩, fun o tok h => exec_vecFaultOp hown h,
      fun o f19 d hd => ⟨fun ho => ?undefined, fun ho => ?reduction⟩,
      fun cvt src dst block n hn => ⟨fun h => ?refused, fun hcvt hpages hmx => ?ieee, fun hcvt hpages hmx => ?mx⟩⟩⟩
  case lanes =>
    obtain ⟨hstores, hlanes⟩ := LaneOp.vecLanes h
    obtain ⟨hwritten, hfrond, hothers⟩ := State.vwrite_spec (ws := (List.range 256).map v) hd (by simp) s f
    have hlen : ((List.range 256).map v).length = 256 := by simp
    rw [hlen] at hwritten
    exact ⟨_, _, exec_vecLanes hown hstores hlanes, hwritten.congr fun i hi => nth_map_range _ _ hi, hfrond, hothers, rfl,
      State.raiseOpt_raisedAfter f tok _⟩
  case rank =>
    subst ho
    obtain ⟨vs, hvs⟩ : ∃ vs, vs = rankLanes k f19 ((s.getFrond f).vlanes a) := ⟨_, rfl⟩
    have hwords : ws.length = 256 := by rw [hws, List.length_map, Frond.vlanes_length]
    have hlen : vs.length ≤ 256 := by rw [hvs, rankLanes_length]; cases k <;> simp
    obtain ⟨hwritten, hfrond, hothers⟩ := State.vwrite_spec hd hlen s f
    have hranked := Ranked.of_lanes hws hvs hwords hwritten hlen
    exact ⟨_, _, _, exec_vecLanes (o := .rank k f19 d a) hown rfl (congrArg (fun vs => some (d, vs)) hvs.symm),
      hwritten.congr fun i hi => (hwritten.1 i hi).symm, hranked.1, hranked.2.1, hranked.2.2.1, hranked.2.2.2, hfrond, hothers, rfl,
      State.raiseOpt_raisedAfter f tok _⟩
  case load =>
    subst ho
    obtain ⟨ws, hws⟩ : ∃ ws : List Word, ws = (List.range 256).map fun i => s.fsWord f (a + 4 * i) := ⟨_, rfl⟩
    have hlen : ws.length = 256 := by simp [hws]
    have heffect : s.vecEffect f p r (.load d a) = some (s.updFrond f (Frond.vwrite d ws)) := (if_pos ha).trans (by rw [hws])
    obtain ⟨hwritten, hfrond, hothers⟩ := State.vwrite_spec hd (Nat.le_of_eq hlen) s f
    rw [hlen] at hwritten
    exact ⟨_, _, exec_vecEffect hown heffect, (hwritten.congr fun i hi => by rw [hws]; exact nth_map_range _ _ hi).contend,
      State.contend_vector hfrond rfl, hothers.contend, State.contend_frame _ _ _, State.raiseOpt_raisedAfter f tok _⟩
  case store =>
    subst ho
    obtain ⟨u, hu⟩ : ∃ u, u = s.fsWrite f a (((s.getFrond f).vlanes d).flatMap fun w => leBytes 4 w.toNat) := ⟨_, rfl⟩
    have heffect : s.vecEffect f p r (.store d a) = some u := (if_pos ha).trans (by rw [hu])
    have hframe : u = { s with store := u.store } := by rw [hu, State.fsWrite_frame]
    have hfrond : ∀ g, u.getFrond g = s.getFrond g := fun g => by rw [hframe]; rfl
    refine ⟨_, _, exec_vecEffect hown heffect, fun i hi => ?_, fun k hk => ?_, ?_, OtherFronds.contend fun g _ => hfrond g, ?_,
      State.raiseOpt_raisedAfter f tok _⟩
    · rw [State.fsWord_congr (State.contend_store f 6 u), hu]
      exact State.fsWord_fsWrite_vlanes hi s f a d _
    · rw [State.contend_store, hu]
      refine State.store_fsWrite_out ?_
      rw [length_flatMap_const fun v _ => leBytes_length 4 _, Frond.vlanes_length]
      exact hk
    · rw [State.contend_getFrond, hfrond, hframe]
    · rw [State.contend_frame, hframe]
  case widenMx =>
    subst ho hn
    obtain ⟨n, hn⟩ : ∃ n, n = ((List.range 8).filter fun j => (s.widenAt f fmt f19 addr (8 * (block % 8) + j)).2).length := ⟨_, rfl⟩
    obtain ⟨ws, hws⟩ : ∃ ws, ws = (List.range 8).flatMap fun j => (s.widenAt f fmt f19 addr (8 * (block % 8) + j)).1 := ⟨_, rfl⟩
    have hlen : ws.length = 256 := by rw [hws, length_flatMap_const fun j _ => State.widenAt_length s f fmt f19 addr _, List.length_range]
    have heffect : s.vecEffect f p r (.widenMx fmt f19 d addr block) = some ((s.updFrond f (Frond.vwrite d ws)).countScaleRange p n) :=
      (if_pos (by rw [hmx, hpages]; rfl)).trans (by rw [State.vecWidenMx_eq, hn, hws])
    obtain ⟨hwritten, hfrond, hothers⟩ := State.vwrite_spec hd (Nat.le_of_eq hlen) s f
    have hframe : s.updFrond f (Frond.vwrite d ws) = { s with frond := (s.updFrond f (Frond.vwrite d ws)).frond } := rfl
    rw [hlen] at hwritten
    rw [← hn]
    generalize s.updFrond f (Frond.vwrite d ws) = u at *
    obtain ⟨hnone, hsome⟩ := State.countScaleRange_spec p n u
    have hfronds : ∀ g, (u.countScaleRange p n).getFrond g = u.getFrond g := fun g => State.countScaleRange_getFrond p n g u
    have hfree : (u.countScaleRange p n).free = s.free := by rw [State.countScaleRange_free, hframe]
    generalize u.countScaleRange p n = v at *
    refine ⟨_, _, exec_vecEffect hown heffect, ?_, State.contend_vector ?_ hfree, OtherFronds.contend fun g hg => (hfronds g).trans (hothers g hg),
      fun h => ?_, fun h => ?_, State.raiseOpt_raisedAfter f tok _⟩
    · refine (LanesWritten.congr (LanesWritten.frond hwritten (hfronds f)) fun i hi => ?_).contend
      rw [hws]
      exact nth_flatMap_range (by decide) (fun j => State.widenAt_length s f fmt f19 addr _) hi
    · rw [hfronds]; exact hfrond
    · rw [State.contend_frame, hnone h, hframe]
    · obtain ⟨hcaused, hparts, hpart, hvframe⟩ := hsome h
      have hirq : u.irq = s.irq := by rw [hframe]
      have hsame : ∀ q, u.getPart q = s.getPart q := fun q => by rw [hframe]; rfl
      refine ⟨fun hlen => hcaused (hirq ▸ hlen), fun q hq => (hparts q hq).trans (hsame q), ?_, ?_⟩
      · rw [hsame] at hpart
        exact hpart
      · rw [State.contend_frame, hfree, hvframe, hframe]
  case undefined =>
    subst ho
    exact exec_own (exec_vectorReduction .div f19 d) hown
  case reduction =>
    have hlanes : ((s.getFrond f).vlanes d).length = 256 := Frond.vlanes_length _ _
    have hlen : (reduceAfter o f19 (s.f19Rne p) ((s.getFrond f).vlanes d) 8).length = 256 := reduceAfter_length hlanes 8
    obtain ⟨hwritten, hfrond, hothers⟩ := State.vwrite_spec hd (Nat.le_of_eq hlen) s f
    rw [hlen] at hwritten
    refine ⟨_, exec_reduction hown ho, ⟨fun j i => nth 0 (reduceAfter o f19 (s.f19Rne p) ((s.getFrond f).vlanes d) j) i,
      fun i hi => Frond.nth_vlanes hi _ _, fun j i hj _ _ => ?_, hwritten⟩, hfrond, hothers, rfl⟩
    obtain ⟨j, rfl⟩ := Nat.exists_eq_add_of_le' hj
    exact nth_reduceAfter_succ _ j i
  case refused =>
    refine (exec_own (exec_vectorConversion cvt src dst block) hown).trans (congrArg _ (if_neg ?_))
    rcases h with h | h <;> simp [h]
  case ieee =>
    have hbytes : ieeeBytes (cvtDst cvt) = n := hn.symm
    have hexec := exec_vecNarrow (src := src) hown hcvt hpages
    rw [State.vecNarrow_ieee hmx, hbytes] at hexec
    obtain ⟨v, hv⟩ : ∃ v, v = s.fsWrite f dst (((s.getFrond f).vlanes src).flatMap fun v =>
      leBytes n (narrowIeee (cvtDst cvt) (s.f19Rne p) v).code) := ⟨_, rfl⟩
    have hvframe : v = { s with store := v.store } := by rw [hv, State.fsWrite_frame]
    rw [← hv] at hexec
    have hconv := State.countConv_converted p cvt 256 (((s.getFrond f).vlanes src).filter fun v => (narrowIeee (cvtDst cvt) (s.f19Rne p) v).ovf).length
      (((s.getFrond f).vlanes src).filter fun v => (narrowIeee (cvtDst cvt) (s.f19Rne p) v).unf).length v
    have hframe := State.countConv_frame p cvt 256 (((s.getFrond f).vlanes src).filter fun v => (narrowIeee (cvtDst cvt) (s.f19Rne p) v).ovf).length
      (((s.getFrond f).vlanes src).filter fun v => (narrowIeee (cvtDst cvt) (s.f19Rne p) v).unf).length v
    generalize v.countConv p cvt 256 _ _ = u at *
    have hstore : (u.contend f 6).store = v.store := by rw [State.contend_store, hframe]
    have hfrond : ∀ g, u.getFrond g = s.getFrond g := fun g => by rw [hframe, hvframe]; rfl
    have hparts : ∀ q, s.getPart q = v.getPart q := fun q => by rw [hvframe]; rfl
    refine ⟨_, hexec, fun i hi => ?_, fun k hk => ?_, Converted.congr hparts (fun _ => rfl) hconv, ?_, OtherFronds.contend fun g _ => hfrond g, ?_⟩
    · rw [State.fsRead_congr hstore, hv]
      exact State.fsRead_fsWrite_codes hi s f dst src _ _
    · rw [hstore, hv]
      refine State.store_fsWrite_out ?_
      rw [length_flatMap_const fun v _ => leBytes_length n _, Frond.vlanes_length, Nat.mul_comm]
      exact hk
    · rw [State.contend_getFrond, hfrond, hframe, hvframe]
    · rw [State.contend_frame, hframe, hvframe]
  case mx =>
    obtain ⟨hblocks, hframe⟩ := State.vecNarrow_mx (s := s) (f := f) (p := p) (src := src) (dst := dst) (block := block) hmx
    have hexec := exec_vecNarrow (src := src) hown hcvt hpages
    generalize s.vecNarrow f p cvt src dst block = u at *
    have hfrond : ∀ g, u.getFrond g = s.getFrond g := fun g => by rw [hframe]; rfl
    refine ⟨_, hexec, hblocks.congr rfl (fun _ => rfl) rfl (fun _ => rfl), ?_, OtherFronds.contend fun g _ => hfrond g, ?_⟩
    · rw [State.contend_getFrond, hfrond, hframe]
    · rw [State.contend_frame, hframe]

end Sys2Proof.Machine
end

section
/-! SUPPORT. The matrix array: loads of the shadow bank, the bank pointer, what the array's warden stalls on, and the statement about them. -/

namespace Sys2Proof.Machine

/-! ### Folds that write each place once -/

section
variable {α β : Type} {g : Nat → α → α} {get : α → β} {n i : Nat} {v : β}

/-- What no step of a fold changes stays. -/
theorem foldl_range_keeps (h : ∀ j x, j < n → get (g j x) = get x) (x : α) : get ((List.range n).foldl (fun x j => g j x) x) = get x := by
  induction n with
  | zero => rfl
  | succ n ih =>
    rw [List.range_succ, List.foldl_append, List.foldl_cons, List.foldl_nil, h _ _ (Nat.lt_succ_self n)]
    exact ih fun j x hj => h j x (Nat.lt_succ_of_lt hj)

/-- What one step alone writes is there at the end. -/
theorem foldl_range_writes (hi : i < n) (hset : ∀ x, get (g i x) = v) (hkeep : ∀ j x, j < n → j ≠ i → get (g j x) = get x) (x : α) :
    get ((List.range n).foldl (fun x j => g j x) x) = v := by
  induction n with
  | zero => exact absurd hi (Nat.not_lt_zero i)
  | succ n ih =>
    rw [List.range_succ, List.foldl_append, List.foldl_cons, List.foldl_nil]
    by_cases h : i = n
    · rw [h] at hset; exact hset _
    · rw [hkeep n _ (Nat.lt_succ_self n) (Ne.symm h)]
      exact ih (by omega) fun j x hj => hkeep j x (Nat.lt_succ_of_lt hj)

end

/-! ### The tile in its bank (R45, R53, R54, R89) -/

section
variable {s t : State} {f b c : Nat} {a : AloadArgs} {x : Arr}

theorem Arr.putWeight_get (b row col code k : Nat) (x : Arr) : Tab.get 0 (x.putWeight b row col code).weight k =
    if k = 16384 * b + 128 * row + col then BitVec.ofNat 19 code else Tab.get 0 x.weight k := Tab.get_set _ _ _ _ _

theorem Arr.putScale_get (b seg col code k : Nat) (x : Arr) : Tab.get 0 (x.putScale b seg col code).scale k =
    if k = 512 * b + 128 * seg + col then BitVec.ofNat 8 code else Tab.get 0 x.scale k := Tab.get_set _ _ _ _ _

/-- An array without its weights and scales. -/
def Arr.plain (x : Arr) : Arr := { x with weight := [], scale := [] }

/-- The weight codes that a load gives block seg of column col. -/
def State.loadCodes (s : State) (f : Nat) (a : AloadArgs) (seg col : Nat) : List Nat :=
  if 32 * seg < a.kValid ∧ col < a.nValid then s.blockCodes f a seg col else List.replicate 32 0

/-- The scale that a load gives it. -/
def State.loadScale (s : State) (f : Nat) (a : AloadArgs) (seg col : Nat) : Nat :=
  if 32 * seg < a.kValid ∧ col < a.nValid then leNat (s.fsRead f (blockScaleAt a.wfmt a.src (tileBlock seg col)) 1) else 0

/-- A block's scale, and then its weights. -/
def State.blockWeights (s : State) (f b : Nat) (a : AloadArgs) (seg col : Nat) (i : Nat) (x : Arr) : Arr :=
  x.putWeight b (32 * seg + i) col (nth 0 (s.loadCodes f a seg col) i)

theorem State.loadBlock_eq (s : State) (f b : Nat) (a : AloadArgs) (seg col : Nat) (x : Arr) : s.loadBlock f b a seg col x =
    (List.range 32).foldl (fun x i => s.blockWeights f b a seg col i x) (x.putScale b seg col (s.loadScale f a seg col)) := by
  by_cases h : 32 * seg < a.kValid ∧ col < a.nValid
  · simp only [State.loadBlock, State.blockWeights, State.loadCodes, State.loadScale, h, and_self, decide_true, Bool.and_self, if_true]
  · have h' : (decide (32 * seg < a.kValid) && decide (col < a.nValid)) = false := by simpa using h
    simp only [State.loadBlock, State.blockWeights, State.loadCodes, State.loadScale, h, h', Bool.false_eq_true, if_false]

/-- The scale of a block. -/
theorem State.loadBlock_scale (s : State) (f b : Nat) (a : AloadArgs) (seg col k : Nat) (x : Arr) :
    Tab.get 0 (s.loadBlock f b a seg col x).scale k =
      if k = 512 * b + 128 * seg + col then BitVec.ofNat 8 (s.loadScale f a seg col) else Tab.get 0 x.scale k := by
  rw [State.loadBlock_eq, ← Arr.putScale_get]
  exact foldl_range_keeps (g := s.blockWeights f b a seg col) (get := fun x : Arr => Tab.get 0 x.scale k) (fun _ _ _ => rfl) _

/-- A weight outside a block. -/
theorem State.loadBlock_weight_ne {seg col k : Nat} (h : ∀ i, i < 32 → k ≠ 16384 * b + 128 * (32 * seg + i) + col) (x : Arr) :
    Tab.get 0 (s.loadBlock f b a seg col x).weight k = Tab.get 0 x.weight k := by
  rw [State.loadBlock_eq]
  exact foldl_range_keeps (g := s.blockWeights f b a seg col) (get := fun x : Arr => Tab.get 0 x.weight k)
    (fun i y hi => (Arr.putWeight_get _ _ _ _ _ y).trans (if_neg (h i hi))) (x.putScale b seg col (s.loadScale f a seg col))

/-- A weight of a block. -/
theorem State.loadBlock_weight {seg col i : Nat} (hi : i < 32) (x : Arr) :
    Tab.get 0 (s.loadBlock f b a seg col x).weight (16384 * b + 128 * (32 * seg + i) + col) = BitVec.ofNat 19 (nth 0 (s.loadCodes f a seg col) i) := by
  rw [State.loadBlock_eq]
  exact foldl_range_writes (g := s.blockWeights f b a seg col) (get := fun x : Arr => Tab.get 0 x.weight (16384 * b + 128 * (32 * seg + i) + col)) hi
    (fun y => (Arr.putWeight_get _ _ _ _ _ y).trans (if_pos rfl))
    (fun j y _ hj => (Arr.putWeight_get _ _ _ _ _ y).trans (if_neg (by omega))) _

theorem State.loadBlock_plain (s : State) (f b : Nat) (a : AloadArgs) (seg col : Nat) (x : Arr) : (s.loadBlock f b a seg col x).plain = x.plain := by
  rw [State.loadBlock_eq]
  exact foldl_range_keeps (g := s.blockWeights f b a seg col) (get := Arr.plain) (fun _ _ _ => rfl) (x.putScale b seg col (s.loadScale f a seg col))

/-- One F19 weight of a load. -/
def State.loadWord (s : State) (f b : Nat) (a : AloadArgs) (k n : Nat) (x : Arr) : Arr := x.putWeight b k n (s.tileWord f a k n)

/-- Row k of an F19 tile. -/
def State.loadRow (s : State) (f b : Nat) (a : AloadArgs) (k : Nat) (x : Arr) : Arr := (List.range 128).foldl (fun x n => s.loadWord f b a k n x) x

/-- Segment sg of every column of an MX tile. -/
def State.loadSegment (s : State) (f b : Nat) (a : AloadArgs) (sg : Nat) (x : Arr) : Arr :=
  (List.range 128).foldl (fun x n => s.loadBlock f b a sg n x) x

theorem State.loadBank_words (h : a.wfmt = 0) : s.loadBank f b a x = (List.range 128).foldl (fun x k => s.loadRow f b a k x) x := if_pos h

theorem State.loadBank_blocks (h : a.wfmt ≠ 0) : s.loadBank f b a x = (List.range 4).foldl (fun x sg => s.loadSegment f b a sg x) x := if_neg h

/-- What no write of a load changes. -/
theorem State.loadBank_keeps {β : Type} {get : Arr → β} (hw : a.wfmt = 0 → ∀ k n x, k < 128 → n < 128 → get (s.loadWord f b a k n x) = get x)
    (hb : a.wfmt ≠ 0 → ∀ sg n x, sg < 4 → n < 128 → get (s.loadBlock f b a sg n x) = get x) (x : Arr) : get (s.loadBank f b a x) = get x := by
  by_cases h : a.wfmt = 0
  · rw [State.loadBank_words h]
    exact foldl_range_keeps (g := s.loadRow f b a) (fun k y hk => foldl_range_keeps (g := s.loadWord f b a k) (fun n z hn => hw h k n z hk hn) y) x
  · rw [State.loadBank_blocks h]
    exact foldl_range_keeps (g := s.loadSegment f b a)
      (fun sg y hsg => foldl_range_keeps (g := s.loadBlock f b a sg) (fun n z hn => hb h sg n z hsg hn) y) x

/-- A load leaves the other bank (R45). -/
theorem State.loadBank_otherWeight {k : Nat} (h : k / 16384 ≠ b) (x : Arr) : Tab.get 0 (s.loadBank f b a x).weight k = Tab.get 0 x.weight k := by
  refine State.loadBank_keeps (get := fun x => Tab.get 0 x.weight k) (fun _ i n y hi hn => ?_) (fun _ sg n y hsg hn => ?_) x
  · exact (Arr.putWeight_get _ _ _ _ _ y).trans (if_neg (by omega))
  · exact State.loadBlock_weight_ne (fun i hi => by omega) y

theorem State.loadBank_otherScale {k : Nat} (h : k / 512 ≠ b ∨ a.wfmt = 0) (x : Arr) :
    Tab.get 0 (s.loadBank f b a x).scale k = Tab.get 0 x.scale k := by
  refine State.loadBank_keeps (get := fun x => Tab.get 0 x.scale k) (fun _ _ _ _ _ _ => rfl) (fun hwf sg n y hsg hn => ?_) x
  exact (State.loadBlock_scale _ _ _ _ _ _ _ y).trans (if_neg (by have := h.resolve_right hwf; omega))

theorem State.loadBank_plain (s : State) (f b : Nat) (a : AloadArgs) (x : Arr) : (s.loadBank f b a x).plain = x.plain :=
  State.loadBank_keeps (fun _ _ _ _ _ _ => rfl) (fun _ sg n y _ _ => State.loadBlock_plain s f b a sg n y) x

/-- An F19 weight after a load. -/
theorem State.loadBank_word (h : a.wfmt = 0) {k n : Nat} (hk : k < 128) (hn : n < 128) (x : Arr) :
    Tab.get 0 (s.loadBank f b a x).weight (16384 * b + 128 * k + n) = BitVec.ofNat 19 (s.tileWord f a k n) := by
  rw [State.loadBank_words h]
  refine foldl_range_writes (g := s.loadRow f b a) (get := fun x : Arr => Tab.get 0 x.weight (16384 * b + 128 * k + n)) hk (fun y => ?_)
    (fun j y _ hj => ?_) x
  · exact foldl_range_writes (g := s.loadWord f b a k) (get := fun x : Arr => Tab.get 0 x.weight (16384 * b + 128 * k + n)) hn
      (fun z => (Arr.putWeight_get _ _ _ _ _ z).trans (if_pos rfl))
      (fun m z _ hm => (Arr.putWeight_get _ _ _ _ _ z).trans (if_neg (by omega))) y
  · exact foldl_range_keeps (g := s.loadWord f b a j) (get := fun x : Arr => Tab.get 0 x.weight (16384 * b + 128 * k + n))
      (fun m z hm => (Arr.putWeight_get _ _ _ _ _ z).trans (if_neg (by omega))) y

/-- The scale of a block after a load. -/
theorem State.loadBank_scale (h : a.wfmt ≠ 0) {sg n : Nat} (hsg : sg < 4) (hn : n < 128) (x : Arr) :
    Tab.get 0 (s.loadBank f b a x).scale (512 * b + 128 * sg + n) = BitVec.ofNat 8 (s.loadScale f a sg n) := by
  rw [State.loadBank_blocks h]
  refine foldl_range_writes (g := s.loadSegment f b a) (get := fun x : Arr => Tab.get 0 x.scale (512 * b + 128 * sg + n)) hsg (fun y => ?_)
    (fun j y _ hj => ?_) x
  · exact foldl_range_writes (g := s.loadBlock f b a sg) (get := fun x : Arr => Tab.get 0 x.scale (512 * b + 128 * sg + n)) hn
      (fun z => (State.loadBlock_scale _ _ _ _ _ _ _ z).trans (if_pos rfl))
      (fun m z _ hm => (State.loadBlock_scale _ _ _ _ _ _ _ z).trans (if_neg (by omega))) y
  · exact foldl_range_keeps (g := s.loadBlock f b a j) (get := fun x : Arr => Tab.get 0 x.scale (512 * b + 128 * sg + n))
      (fun m z hm => (State.loadBlock_scale _ _ _ _ _ _ _ z).trans (if_neg (by omega))) y

/-- A weight of a block after a load. -/
theorem State.loadBank_element (h : a.wfmt ≠ 0) {sg n i : Nat} (hsg : sg < 4) (hn : n < 128) (hi : i < 32) (x : Arr) :
    Tab.get 0 (s.loadBank f b a x).weight (16384 * b + 128 * (32 * sg + i) + n) = BitVec.ofNat 19 (nth 0 (s.loadCodes f a sg n) i) := by
  rw [State.loadBank_blocks h]
  refine foldl_range_writes (g := s.loadSegment f b a) (get := fun x : Arr => Tab.get 0 x.weight (16384 * b + 128 * (32 * sg + i) + n)) hsg
    (fun y => ?_) (fun j y _ hj => ?_) x
  · exact foldl_range_writes (g := s.loadBlock f b a sg) (get := fun x : Arr => Tab.get 0 x.weight (16384 * b + 128 * (32 * sg + i) + n)) hn
      (fun z => State.loadBlock_weight hi z) (fun m z _ hm => State.loadBlock_weight_ne (fun j _ => by omega) z) y
  · exact foldl_range_keeps (g := s.loadBlock f b a j) (get := fun x : Arr => Tab.get 0 x.weight (16384 * b + 128 * (32 * sg + i) + n))
      (fun m z hm => State.loadBlock_weight_ne (fun j _ => by omega) z) y

/-- The code of an element of a load: the tile's, expanded, or zero where the element is not valid (R53, R54). -/
theorem State.loadCodes_nth {sg n i : Nat} (hi : i < 32) : nth 0 (s.loadCodes f a sg n) i =
    if 32 * sg + i < a.kValid ∧ n < a.nValid then
      if a.wfmt = 8 then expandE2m1 (nth 0 (unpackElems 4 (s.fsRead f (blockElemsAt 8 a.src (tileBlock sg n)) 16)) i)
      else nth 0 (unpackElems (mxWidth a.wfmt) (s.fsRead f (blockElemsAt a.wfmt a.src (tileBlock sg n)) (4 * mxWidth a.wfmt))) i
    else 0 := by
  unfold State.loadCodes
  by_cases hv : 32 * sg < a.kValid ∧ n < a.nValid
  · rw [if_pos hv, State.blockCodes, nth_map_range _ _ hi]
    by_cases hk : a.kValid ≤ 32 * sg + i
    · rw [if_pos hk, if_neg fun h => Nat.not_lt.2 hk h.1]
    · rw [if_neg hk, if_pos (c := 32 * sg + i < a.kValid ∧ n < a.nValid) ⟨Nat.not_le.1 hk, hv.2⟩]
      by_cases h8 : a.wfmt = 8
      · rw [if_pos h8, if_pos h8, h8]; rfl
      · rw [if_neg h8, if_neg h8]
  · rw [if_neg hv, if_neg (c := 32 * sg + i < a.kValid ∧ n < a.nValid) fun h => hv ⟨by omega, h.2⟩, nth, List.getD_replicate _ hi]

end

/-! ### A load that starts (R52, R54, R55, R58) -/

section
variable {s t u : State} {f c w cycle : Nat} {a : AloadArgs}

/-- The array after a load that starts in a cycle. -/
def State.loadedArr (f c : Nat) (a : AloadArgs) (s : State) : Arr :=
  { (s.seenAt f c).loadBank f (s.getFrond f).arr.shadow a (s.getFrond f).arr with
    fmt := ((s.seenAt f c).loadBank f (s.getFrond f).arr.shadow a (s.getFrond f).arr).fmt.set (s.getFrond f).arr.shadow (if a.wfmt = 8 then 4 else a.wfmt)
    loadEnd := (s.getFrond f).arr.loadDone c a.wfmt, stalled := none, stallTo := max (s.getFrond f).arr.stallTo c }

theorem Arr.eq_of_plain {x y : Arr} (h : y.plain = x.plain) : y = { x with weight := y.weight, scale := y.scale } := by
  cases x; cases y
  simp only [Arr.plain, Arr.mk.injEq] at h ⊢
  simp [h]

theorem State.loadedArr_eq (f c : Nat) (a : AloadArgs) (s : State) : s.loadedArr f c a = { (s.getFrond f).arr with
    weight := (s.loadedArr f c a).weight, scale := (s.loadedArr f c a).scale
    fmt := (s.getFrond f).arr.fmt.set (s.getFrond f).arr.shadow (if a.wfmt = 8 then 4 else a.wfmt)
    loadEnd := (s.getFrond f).arr.loadDone c a.wfmt, stalled := none, stallTo := max (s.getFrond f).arr.stallTo c } := by
  have hplain := Arr.eq_of_plain ((s.seenAt f c).loadBank_plain f (s.getFrond f).arr.shadow a (s.getFrond f).arr)
  unfold State.loadedArr
  generalize (s.seenAt f c).loadBank f (s.getFrond f).arr.shadow a (s.getFrond f).arr = y at *
  rw [hplain]

theorem State.startLoad_getFrond (f c : Nat) (a : AloadArgs) (s : State) : (s.startLoad f c a).getFrond f = { s.getFrond f with
    arr := s.loadedArr f c a, counts := Tab.upd 0 (s.getFrond f).counts 3 (satAdd 64 · ((s.getFrond f).arr.rowStalls c a.wfmt)) } := by
  rw [State.startLoad, State.frondCount_getFrond, State.getFrond_updFrond_same]
  rfl

theorem State.startLoad_others (f c : Nat) (a : AloadArgs) (s : State) : OtherFronds s (s.startLoad f c a) f :=
  (OtherFronds.updFrond f _ s).trans (OtherFronds.updFrond f _ _)

theorem State.startLoad_frame (f c : Nat) (a : AloadArgs) (s : State) : s.startLoad f c a = { s with frond := (s.startLoad f c a).frond } := rfl

/-- The shadow bank is not the active one. -/
theorem Arr.shadow_ne_active (x : Arr) : x.shadow ≠ x.active := by
  unfold Arr.shadow Arr.active
  cases x.bank <;> decide

/-- A load fills the shadow bank (R45, R53, R54). -/
theorem State.loadedArr_bankLoaded (hw : (t.getFrond f).arr.weight = (s.loadedArr f c a).weight) (hs : (t.getFrond f).arr.scale = (s.loadedArr f c a).scale) :
    BankLoaded s t f c a := by
  have hne := (s.getFrond f).arr.shadow_ne_active
  unfold BankLoaded
  rw [hw, hs]
  refine ⟨fun k hk => ?_, fun k hk => ?_, fun h k n hk hn => ?_, fun h sg n hsg hn => ⟨?_, fun i hi => ?_⟩⟩
  · exact State.loadBank_otherWeight (fun h => hne (h.symm.trans hk)) _
  · exact State.loadBank_otherScale (hk.imp_left fun hk h => hne (h.symm.trans hk)) _
  · exact State.loadBank_word h hk hn _
  · refine (State.loadBank_scale h hsg hn _).trans ?_
    rw [State.loadScale, apply_ite (BitVec.ofNat 8)]
    rfl
  · refine (State.loadBank_element h hsg hn hi _).trans ?_
    rw [State.loadCodes_nth hi, apply_ite (BitVec.ofNat 19)]
    rfl

/-- Where all rows have left the bank none stalls (R58). -/
theorem Arr.rowStalls_of_drained {x : Arr} {fmt : Nat} (hfree : nth 0 x.bankFree x.shadow ≤ c) (hdrain : nth 0 x.bankDrain x.shadow ≤ c) :
    x.rowStalls c fmt = 0 := by
  unfold Arr.rowStalls
  rw [List.length_eq_zero_iff, List.filter_eq_nil_iff]
  intro k hk
  have hk := List.mem_range.1 hk
  have hpace : 127 * x.drainPace ≤ nth 0 x.bankDrain x.shadow - nth 0 x.bankFree x.shadow := by
    rw [Nat.mul_comm]; exact Nat.div_mul_le_self _ _
  have hmul : k * x.drainPace ≤ 127 * x.drainPace := Nat.mul_le_mul_right _ (by omega)
  have hle : nth 0 x.bankFree x.shadow + k * x.drainPace ≤ c + k * rowCycles fmt := by omega
  simp [Nat.not_lt.2 hle]

/-! ### ALOAD -/

theorem State.goLoad_behind (h : (s.getFrond f).arr.stalled ≠ none) : s.goLoad f w cycle a = s.setWait f w (some (.load cycle a)) :=
  if_pos (Option.isSome_iff_ne_none.2 h)

theorem State.goLoad_stalls (h : (s.getFrond f).arr.stalled = none) (hc : c = max cycle (s.getFrond f).arr.loadEnd)
    (hlt : c < nth 0 (s.getFrond f).arr.bankFree (s.getFrond f).arr.shadow) : s.goLoad f w cycle a =
      State.frondCount f 3 1 (s.updFrond f fun y => { y with arr := { y.arr with stalled := some a, stallTo := max y.arr.stallTo c } }) := by
  subst hc
  exact (if_neg (by simp [h])).trans (if_pos hlt)

theorem State.goLoad_starts (h : (s.getFrond f).arr.stalled = none) (hc : c = max cycle (s.getFrond f).arr.loadEnd)
    (hle : nth 0 (s.getFrond f).arr.bankFree (s.getFrond f).arr.shadow ≤ c) : s.goLoad f w cycle a = s.startLoad f c a := by
  subst hc
  exact (if_neg (by simp [h])).trans (if_neg (Nat.not_lt.2 hle))

/-! ### SWAP (R45, R57, R59) -/

theorem State.toggle_getFrond (f c : Nat) (s : State) : (s.toggle f c).getFrond f = { s.getFrond f with arr := { (s.getFrond f).arr with
    bank := !(s.getFrond f).arr.bank, stallTo := max (s.getFrond f).arr.stallTo ((s.getFrond f).arr.swapAt c) } } :=
  State.getFrond_updFrond_same _ _ _

theorem State.toggle_others (f c : Nat) (s : State) : OtherFronds s (s.toggle f c) f := OtherFronds.updFrond f _ s

theorem State.setWait_getFrond (f w : Nat) (x : Option Wait) (s : State) : (s.setWait f w x).getFrond f =
    { s.getFrond f with wait := Tab.set none (s.getFrond f).wait w x } := State.getFrond_updFrond_same _ _ _

theorem State.setWait_others (f w : Nat) (x : Option Wait) (s : State) : OtherFronds s (s.setWait f w x) f := OtherFronds.updFrond f _ s

theorem State.waitOf_setWait (f w : Nat) (x : Option Wait) (s : State) : (s.setWait f w x).waitOf f w = x := by
  rw [State.waitOf, State.setWait_getFrond]
  exact Tab.get_set_same _ _ _ _

theorem State.waitOf_congr (h : (t.getFrond f).wait = (s.getFrond f).wait) (w : Nat) : t.waitOf f w = s.waitOf f w := by
  rw [State.waitOf, h]; rfl

theorem Arr.swaps_iff (x : Arr) : x.swaps = true ↔ x.queue = [] ∧ x.stalled = none := by
  simp [Arr.swaps]

/-! ### What the array's warden stalls on -/

/-- A warden that stalls on neither a SWAP nor an ALOAD goes on by itself. -/
theorem State.wakeArray_none (h : s.waitOf f w = none) (cycle : Nat) : s.wakeArray f w cycle = s := by
  simp only [State.wakeArray, h]

theorem State.wakeArray_swap {k : Nat} (h : s.waitOf f w = some (.swap k)) (cycle : Nat) : s.wakeArray f w cycle =
    if (s.getFrond f).arr.swaps then (s.setWait f w none).toggle f (max k (s.getFrond f).arr.stallTo) else s := by
  simp only [State.wakeArray, h]

theorem State.wakeArray_load {k : Nat} {b : AloadArgs} (h : s.waitOf f w = some (.load k b)) (cycle : Nat) : s.wakeArray f w cycle =
    if (s.getFrond f).arr.stalled.isNone then (s.setWait f w none).goLoad f w (max (max k cycle) (s.getFrond f).arr.stallTo) b else s := by
  simp only [State.wakeArray, h]

/-! ### ALOAD_ROW_RESUME (R58) -/

theorem exec_aloadRowResume_idle {x : Arr} (hx : x = (s.getFrond f).arr)
    (h : x.stalled = none ∨ s.unitRuns f unitArray = none ∨ cycle < nth 0 x.bankFree x.shadow) : exec (.aloadRowResume f cycle) s = .next s := by
  subst hx
  refine congrArg Host.Outcome.next (?_ : s.aloadRowResume f cycle = s)
  unfold State.aloadRowResume
  dsimp only
  split
  · next a p r hstalled hruns =>
    refine if_neg fun hle => ?_
    rcases h with h | h | h
    · exact Option.some_ne_none a (hstalled.symm.trans h)
    · exact Option.some_ne_none (p, r) (hruns.symm.trans h)
    · exact Nat.not_lt.2 hle h
  · rfl

theorem exec_aloadRowResume {p : Nat} {r : FrondRec} (hstalled : (s.getFrond f).arr.stalled = some a) (hruns : s.unitRuns f unitArray = some (p, r))
    (hle : nth 0 (s.getFrond f).arr.bankFree (s.getFrond f).arr.shadow ≤ cycle) :
    exec (.aloadRowResume f cycle) s = .next (((s.startLoad f cycle a).wakeArray f (r.warden unitArray) cycle).noteVote p) := by
  refine congrArg Host.Outcome.next (?_ : s.aloadRowResume f cycle = _)
  simp only [State.aloadRowResume, hstalled, hruns, if_pos hle]

/-- A vote is noted after what has changed no partition. -/
theorem State.noteVote_noted {p : Nat} (hpat : (s.getPart p).pat = .running) (hpart : t.part = s.part) (hsync : t.sync = s.sync) :
    VoteNoted s (t.noteVote p) p := by
  have hsame : ∀ q, t.getPart q = s.getPart q := fun q => by rw [State.getPart, hpart]; rfl
  refine ⟨?_, ?_, fun q hq => (State.noteVote_getPart_ne hq).trans (hsame q)⟩
  · have h := State.noteVote_eq (s := t) (by rw [hsame]; exact hpat)
    rw [hsame, hsync] at h
    exact h
  · have h := State.noteVote_getPart_same p t
    rw [hsame] at h
    exact h

theorem State.noteVote_getFrond (p f : Nat) (s : State) : (s.noteVote p).getFrond f = s.getFrond f := by
  rw [State.getFrond, State.noteVote_frond]; rfl

end

/-! ### O45 -/

/-- The weight expander keeps each value (R53). -/
theorem expandE2m1_value : ∀ c, c < 16 → truncWord (elemValue 4 (expandE2m1 c)) = truncWord (elemValue 8 c) := by decide

section
variable {s : State} {f w cycle p c : Nat} {r : FrondRec} {a : AloadArgs}

/-- A load that starts, in the words of O45. -/
theorem State.startLoad_spec (f c : Nat) (a : AloadArgs) (s : State) : BankLoaded s (s.startLoad f c a) f c a ∧
    (s.startLoad f c a).getFrond f = { s.getFrond f with
      arr := { (s.getFrond f).arr with
        weight := ((s.startLoad f c a).getFrond f).arr.weight, scale := ((s.startLoad f c a).getFrond f).arr.scale
        fmt := (s.getFrond f).arr.fmt.set (s.getFrond f).arr.shadow (if a.wfmt = 8 then 4 else a.wfmt), stalled := none
        stallTo := max (s.getFrond f).arr.stallTo c, loadEnd := (s.getFrond f).arr.loadDone c a.wfmt }
      counts := Tab.upd 0 (s.getFrond f).counts 3 (satAdd 64 · ((s.getFrond f).arr.rowStalls c a.wfmt)) } ∧
    OtherFronds s (s.startLoad f c a) f := by
  have hfrond := State.startLoad_getFrond f c a s
  refine ⟨State.loadedArr_bankLoaded (by rw [hfrond]) (by rw [hfrond]), ?_, State.startLoad_others f c a s⟩
  rw [hfrond]
  exact congrArg (fun x => { s.getFrond f with
    arr := x, counts := Tab.upd 0 (s.getFrond f).counts 3 (satAdd 64 · ((s.getFrond f).arr.rowStalls c a.wfmt)) }) (State.loadedArr_eq f c a s)

/-- What a frond's warden stalls on is not changed by a load. -/
theorem State.waitOf_startLoad (f c : Nat) (a : AloadArgs) (w : Nat) (s : State) : (s.startLoad f c a).waitOf f w = s.waitOf f w :=
  State.waitOf_congr (by rw [State.startLoad_getFrond]) w

/-- A vote that is noted after a change of fronds alone. -/
theorem State.noteVote_after {u : State} (hruns : s.unitRuns f unitArray = some (p, r)) (hu : u = { s with frond := u.frond }) :
    (∀ g, (u.noteVote p).getFrond g = u.getFrond g) ∧ VoteNoted s (u.noteVote p) p ∧
    u.noteVote p = { s with frond := (u.noteVote p).frond, part := (u.noteVote p).part } := by
  refine ⟨fun g => State.noteVote_getFrond p g u, State.noteVote_noted (State.unitRuns_owner hruns).2 (by rw [hu]) (by rw [hu]), ?_⟩
  rw [State.noteVote_frame, hu]

/-- A SWAP whose conditions can be told: it stalls until they hold, which is counted, and toggles the bank (R57, R59). -/
theorem State.ownSwap_toggles (h : (s.getFrond f).arr.swaps = true) : s.ownSwap f w c =
    (if max (s.getFrond f).arr.lastEnter (s.getFrond f).arr.loadEnd ≤ c then s else s.frondCount f 2 1).toggle f c := by
  have hat : (s.getFrond f).arr.swapAt c = c ↔ max (s.getFrond f).arr.lastEnter (s.getFrond f).arr.loadEnd ≤ c := max_eq_left_iff
  simp only [State.ownSwap, h, if_true, true_and, hat]

theorem State.ownSwap_waits (h : (s.getFrond f).arr.swaps = false) : s.ownSwap f w c = (s.frondCount f 2 1).setWait f w (some (.swap c)) := by
  simp only [State.ownSwap, h, Bool.false_eq_true, if_false, false_and]

theorem exec_swap_toggles (hown : s.driven f unitArray w = some (p, r, true)) (hc : c = max cycle (s.getFrond f).arr.stallTo)
    (h : (s.getFrond f).arr.swaps = true) : exec (.swap f w cycle) s =
      .next ((if max (s.getFrond f).arr.lastEnter (s.getFrond f).arr.loadEnd ≤ c then s else s.frondCount f 2 1).toggle f c) := by
  rw [exec_own exec_swap hown, ← hc, State.ownSwap_toggles h]

theorem exec_swap_waits (hown : s.driven f unitArray w = some (p, r, true)) (hc : c = max cycle (s.getFrond f).arr.stallTo)
    (h : (s.getFrond f).arr.swaps = false) : exec (.swap f w cycle) s = .next ((s.frondCount f 2 1).setWait f w (some (.swap c))) := by
  rw [exec_own exec_swap hown, ← hc, State.ownSwap_waits h]

/-- An ALOAD that goes. -/
theorem exec_goLoad (hown : s.driven f unitArray w = some (p, r, true)) (hok : aloadOk a = true) (hpages : aloadPages r a = true) :
    exec (.aload f w cycle a) s = .next (s.goLoad f w (max cycle (s.getFrond f).arr.stallTo) a) :=
  (exec_own (exec_aload a) hown).trans (congrArg _ (if_neg (by simp [hok, hpages])))

/-- A bad one (R52, R77). -/
theorem exec_aload_bad (hown : s.driven f unitArray w = some (p, r, true)) (h : aloadOk a = false ∨ aloadPages r a = false) :
    exec (.aload f w cycle a) s = .next (s.unitFault f unitArray w) :=
  (exec_own (exec_aload a) hown).trans (congrArg _ (if_pos (by rcases h with h | h <;> simp [h])))

end

/-- Settles O45: an ALOAD goes as `State.goLoad` says, and a load that starts leaves what `State.startLoad_spec` says. -/
theorem arrayLoadsAndSwaps : Obligations.ArrayLoadsAndSwaps := by
  unfold Obligations.ArrayLoadsAndSwaps
  refine ⟨expandE2m1_value, fun s f w cycle p c r x hx => ?_⟩
  subst hx
  refine ⟨fun a => ⟨exec_idle (exec_aload a), exec_foreign (exec_aload a), exec_aload_bad, fun hown hok hpages => ⟨fun hbehind => ?behind,
      fun hfree hc => ⟨fun hlt => ?stalls, fun hle => ?starts⟩⟩⟩, exec_aloadRowResume_idle rfl,
    fun a e hstalled hruns hle he => ⟨fun hwait => ?resumed, fun k hwait hqueue => ?swapped, fun k b hwait hc => ?loads⟩,
    exec_idle exec_swap, exec_foreign exec_swap, fun hown hc => ⟨fun hqueue hstalled => ?toggles, fun h => ?waits⟩⟩
  case behind => rw [exec_goLoad hown hok hpages, State.goLoad_behind hbehind]
  case stalls =>
    refine ⟨_, by rw [exec_goLoad hown hok hpages, State.goLoad_stalls hfree hc hlt], ?_, ?_, rfl⟩
    · rw [State.frondCount_getFrond, State.getFrond_updFrond_same]
    · exact (OtherFronds.updFrond f _ s).trans (OtherFronds.updFrond f _ _)
  case starts =>
    obtain ⟨hloaded, hfrond, hothers⟩ := State.startLoad_spec f c a s
    refine ⟨_, by rw [exec_goLoad hown hok hpages, State.goLoad_starts hfree hc hle], hloaded, ?_, fun hdrain => Arr.rowStalls_of_drained hle hdrain,
      hothers, State.startLoad_frame f c a s⟩
    rw [← hfree] at hfrond
    exact hfrond
  case resumed =>
    obtain ⟨hloaded, hfrond, hothers⟩ := State.startLoad_spec f cycle a s
    have hexec := exec_aloadRowResume hstalled hruns hle
    rw [State.wakeArray_none ((State.waitOf_startLoad _ _ _ _ _).trans hwait)] at hexec
    obtain ⟨hfronds, hvote, hframe⟩ := State.noteVote_after hruns (State.startLoad_frame f cycle a s)
    generalize s.startLoad f cycle a = u at *
    refine ⟨_, hexec, ?_, ?_, fun g hg => (hfronds g).trans (hothers g hg), hvote, hframe⟩
    · unfold BankLoaded at *
      rw [hfronds]
      exact hloaded
    · rw [hfronds, he]
      exact hfrond
  case swapped =>
    obtain ⟨hloaded, hfrond, hothers⟩ := State.startLoad_spec f cycle a s
    have hexec := exec_aloadRowResume hstalled hruns hle
    have hframe := State.startLoad_frame f cycle a s
    have hwaits := (State.waitOf_startLoad f cycle a (r.warden unitArray) s).trans hwait
    generalize s.startLoad f cycle a = u at *
    have hswaps : (u.getFrond f).arr.swaps = true := by rw [Arr.swaps_iff, hfrond]; exact ⟨hqueue, rfl⟩
    rw [State.wakeArray_swap hwaits, if_pos hswaps] at hexec
    obtain ⟨hfronds, hvote, hframe'⟩ := State.noteVote_after
      (u := (u.setWait f (r.warden unitArray) none).toggle f (max k (u.getFrond f).arr.stallTo)) hruns (by rw [hframe]; rfl)
    have hv := State.toggle_getFrond f (max k (u.getFrond f).arr.stallTo) (u.setWait f (r.warden unitArray) none)
    rw [State.setWait_getFrond] at hv
    refine ⟨_, hexec, ?_, ?_, ?_, ?_, ?_, ?_, fun g hg => ?_, hvote, hframe'⟩
    · unfold BankLoaded at *
      rw [hfronds, hv]
      exact hloaded
    · rw [hfronds, hv, hfrond]
    · rw [hfronds, hv, hfrond]
    · rw [hfronds, hv, hfrond, he]; rfl
    · rw [hfronds, hv, hfrond, he]
      exact Nat.le_trans (Nat.le_max_right _ _) (Nat.le_trans (Nat.le_max_right _ _) (Nat.le_max_right _ _))
    · refine (State.waitOf_congr ?_ _).trans (State.waitOf_setWait f (r.warden unitArray) none u)
      rw [hfronds, hv, State.setWait_getFrond]
    · rw [hfronds, State.toggle_others f _ _ g hg, State.setWait_others f _ _ _ g hg, hothers g hg]
  case loads =>
    obtain ⟨_, hfrond, hothers⟩ := State.startLoad_spec f cycle a s
    have hexec := exec_aloadRowResume hstalled hruns hle
    have hframe := State.startLoad_frame f cycle a s
    have hwaits := (State.waitOf_startLoad f cycle a (r.warden unitArray) s).trans hwait
    generalize s.startLoad f cycle a = u at *
    have hfree : (u.getFrond f).arr.stalled = none := by rw [hfrond]
    rw [State.wakeArray_load hwaits, if_pos (by rw [hfree]; rfl)] at hexec
    obtain ⟨v, hv⟩ : ∃ v, v = u.setWait f (r.warden unitArray) none := ⟨_, rfl⟩
    have hvfrond : v.getFrond f = { u.getFrond f with wait := Tab.set none (u.getFrond f).wait (r.warden unitArray) none } := by
      rw [hv, State.setWait_getFrond]
    have hvframe : v = { s with frond := v.frond } := by rw [hv, hframe]; rfl
    have harr : (v.getFrond f).arr = (u.getFrond f).arr := by rw [hvfrond]
    have hstart : v.goLoad f (r.warden unitArray) (max (max k cycle) (u.getFrond f).arr.stallTo) b = v.startLoad f c b := by
      refine State.goLoad_starts (by rw [harr, hfree]) ?_ ?_
      · rw [hc, harr, hfrond, he]; rfl
      · rw [harr, hfrond, hc]
        exact Nat.le_trans hle (Nat.le_trans (Nat.le_max_right k cycle) (Nat.le_trans (Nat.le_max_left _ _) (Nat.le_max_left _ _)))
    rw [← hv, hstart] at hexec
    obtain ⟨hfronds, hvote, hframe'⟩ := State.noteVote_after (u := v.startLoad f c b) hruns (by rw [State.startLoad_frame, hvframe])
    obtain ⟨_, hlast, hothers'⟩ := State.startLoad_spec f c b v
    refine ⟨_, hexec, ?_, ?_, ?_, ?_, fun g hg => ?_, hvote, hframe'⟩
    · rw [hfronds, hlast]
    · rw [hfronds, hlast, harr, hfrond]; rfl
    · rw [hfronds, hlast, harr, hfrond]
    · refine (State.waitOf_congr ?_ _).trans (State.waitOf_setWait f (r.warden unitArray) none u)
      rw [hfronds, hlast, hv]
    · rw [hfronds, hothers' g hg, hv, State.setWait_others f _ _ _ g hg, hothers g hg]
  case toggles =>
    refine ⟨_, exec_swap_toggles hown hc ((Arr.swaps_iff _).2 ⟨hqueue, hstalled⟩), ?_, ?_, ?_⟩
    · rw [State.toggle_getFrond]
      by_cases hle : max (s.getFrond f).arr.lastEnter (s.getFrond f).arr.loadEnd ≤ c
      · rw [if_pos hle, if_pos hle]; rfl
      · rw [if_neg hle, if_neg hle, State.frondCount_getFrond]; rfl
    · refine OtherFronds.trans ?_ (State.toggle_others f c _)
      exact ite_holds (P := fun u => OtherFronds s u f) (fun g _ => rfl) (OtherFronds.updFrond f _ s)
    · by_cases hle : max (s.getFrond f).arr.lastEnter (s.getFrond f).arr.loadEnd ≤ c
      · rw [if_pos hle]; rfl
      · rw [if_neg hle]; rfl
  case waits =>
    have hswaps : (s.getFrond f).arr.swaps = false := by
      rw [← Bool.not_eq_true, Arr.swaps_iff]
      exact fun hboth => h.elim (fun h => h hboth.1) fun h => h hboth.2
    refine ⟨_, exec_swap_waits hown hc hswaps, ?_, ?_, rfl⟩
    · rw [State.setWait_getFrond, State.frondCount_getFrond]
    · exact OtherFronds.trans (OtherFronds.updFrond f _ s) (State.setWait_others f w _ _)

end Sys2Proof.Machine
end

section
/-! SUPPORT. The matrix array: passes, what they read and write, the queue, and the statement about them. -/

namespace Sys2Proof.Machine

/-! ### What the array sees (R49) -/

section
variable {s s' : State} {f : Nat}

/-- Writes of stores give what the stores before them give. -/
theorem forAll_fsWrite_store (h : s'.store = s.store) (f : Nat) (l : List (Nat × List Byte)) :
    (forAll l (fun x s => s.fsWrite f x.1 x.2) s').store = (forAll l (fun x s => s.fsWrite f x.1 x.2) s).store := by
  unfold forAll
  induction l generalizing s s' with
  | nil => exact h
  | cons x l ih => exact ih (congrArg (fun m => m.writeN (storeKey f x.1) x.2) h)

theorem State.seenAt_store (h : s'.store = s.store) (hi : (s'.getFrond f).arr.inflight = (s.getFrond f).arr.inflight) (c : Nat) :
    (s'.seenAt f c).store = (s.seenAt f c).store := by
  rw [State.seenAt, hi]
  exact forAll_fsWrite_store h f _

theorem State.seenAt_one {k addr c : Nat} {old : List Byte} (h : (s.getFrond f).arr.inflight = [(k, addr, old)]) :
    (c < k → (s.seenAt f c).fsRead f addr old.length = old) ∧ (k ≤ c → s.seenAt f c = s) := by
  refine ⟨fun hc => ?_, fun hc => ?_⟩
  · have hseen : s.seenAt f c = s.fsWrite f addr old := by simp [State.seenAt, h, hc, forAll]
    rw [hseen]
    exact State.fsRead_fsWrite f addr old s
  · simp [State.seenAt, h, Nat.not_lt.2 hc, forAll]

end

/-! ### The rows of a pass (R47 to R49) -/

section
variable {s : State} {f b c n : Nat} {a : AstreamArgs} {fed : List Byte}

theorem State.rowResult_length (s : State) (f b c : Nat) (a : AstreamArgs) (fed : List Byte) (m : Nat) : (s.rowResult f b c a fed m).length = a.nValid := by
  simp [State.rowResult]

theorem wordBytes_length (ws : List Word) : (wordBytes ws).length = 4 * ws.length := length_flatMap_const fun _ _ => leBytes_length _ _

/-- The first n rows of a pass. -/
def State.rowsRun (f b c : Nat) (a : AstreamArgs) (fed : List Byte) (n : Nat) (s : State) : State :=
  forAll (List.range n) (State.passRow f b c a fed) s

theorem State.rowsRun_succ (n : Nat) (s : State) : s.rowsRun f b c a fed (n + 1) = (s.rowsRun f b c a fed n).passRow f b c a fed n := by
  rw [State.rowsRun, List.range_succ, forAll, List.foldl_append]; rfl

theorem State.passRow_store (m : Nat) (s : State) :
    (s.passRow f b c a fed m).store = (s.fsWrite f (accAt a m) (wordBytes (s.rowResult f b c a fed m))).store := rfl

theorem State.passRow_frame (m : Nat) (s : State) : s.passRow f b c a fed m = { s with
    store := (s.passRow f b c a fed m).store, frond := (s.passRow f b c a fed m).frond } := rfl

theorem State.passRow_getFrond (m : Nat) (s : State) : (s.passRow f b c a fed m).getFrond f = { s.getFrond f with
    arr := { (s.getFrond f).arr with inflight := (s.getFrond f).arr.inflight ++
      [(c + (m + 131) * rowCycles (nth 0 (s.getFrond f).arr.fmt b), accAt a m, s.fsRead f (accAt a m) (4 * a.nValid))] } } := by
  rw [← State.rowResult_length s f b c a fed m, ← wordBytes_length, State.passRow, State.getFrond_updFrond_same, State.fsWrite_getFrond]

/-- The results that a pass holds back: when each row can be read, where it lies, and what it replaced. -/
def State.heldRows (f b c : Nat) (a : AstreamArgs) (fed : List Byte) (n : Nat) (s : State) : List (Nat × Nat × List Byte) :=
  (List.range n).map fun m =>
    (c + (m + 131) * rowCycles (nth 0 (s.getFrond f).arr.fmt b), accAt a m, (s.rowsRun f b c a fed m).fsRead f (accAt a m) (4 * a.nValid))

theorem State.rowsRun_getFrond (n : Nat) (s : State) : (s.rowsRun f b c a fed n).getFrond f = { s.getFrond f with
    arr := { (s.getFrond f).arr with inflight := (s.getFrond f).arr.inflight ++ s.heldRows f b c a fed n } } := by
  induction n with
  | zero => simp [State.rowsRun, State.heldRows, forAll]
  | succ n ih => rw [State.rowsRun_succ, State.passRow_getFrond, ih, State.heldRows, State.heldRows, List.range_succ, List.map_append, List.append_assoc]; rfl

theorem State.rowsRun_others (n : Nat) (s : State) : OtherFronds s (s.rowsRun f b c a fed n) f := by
  induction n with
  | zero => exact fun _ _ => rfl
  | succ n ih =>
    rw [State.rowsRun_succ]
    refine ih.trans fun g hg => ?_
    rw [State.passRow, State.getFrond_updFrond_ne _ _ _ _ hg, State.fsWrite_getFrond]

theorem State.rowsRun_frame (n : Nat) (s : State) : s.rowsRun f b c a fed n = { s with
    store := (s.rowsRun f b c a fed n).store, frond := (s.rowsRun f b c a fed n).frond } := by
  induction n with
  | zero => rfl
  | succ n ih =>
    rw [State.rowsRun_succ]
    generalize s.rowsRun f b c a fed n = u at *
    rw [State.passRow_frame, ih]

/-- No byte beside the result rows changes. -/
theorem State.rowsRun_out {x : Nat} (n : Nat) (s : State)
    (h : ∀ m, m < n → x < storeKey f (accAt a m) ∨ storeKey f (accAt a m) + 4 * a.nValid ≤ x) : (s.rowsRun f b c a fed n).store.read x = s.store.read x := by
  induction n with
  | zero => rfl
  | succ n ih =>
    rw [State.rowsRun_succ, State.passRow_store, State.store_fsWrite_out, ih fun m hm => h m (Nat.lt_succ_of_lt hm)]
    rw [wordBytes_length, State.rowResult_length]
    exact h n (Nat.lt_succ_self n)

/-- What a result row replaces lies there from the start, where no row before it lies there (R49). -/
theorem State.rowsRun_read (s : State) (h : ∀ j, j < n → accAt a j + 4 * a.nValid ≤ accAt a n ∨ accAt a n + 4 * a.nValid ≤ accAt a j) :
    (s.rowsRun f b c a fed n).fsRead f (accAt a n) (4 * a.nValid) = s.fsRead f (accAt a n) (4 * a.nValid) := by
  rw [State.fsRead, State.fsRead, Mem.readN_eq, Mem.readN_eq]
  refine List.map_congr_left fun i hi => State.rowsRun_out n s fun m hm => ?_
  have hi := List.mem_range.1 hi
  have := h m hm
  unfold storeKey
  omega

end

/-! ### The values of a row (R48, R50, R51) -/

section
variable {s : State} {f b c n : Nat} {a : AstreamArgs} {x : Arr} {wt : Nat → Nat} {init : Word} {row : ActRow}

theorem State.fsWord_fsWrite_wordBytes {ws : List Word} (hn : n < ws.length) (s : State) (f at_ : Nat) :
    (s.fsWrite f at_ (wordBytes ws)).fsWord f (at_ + 4 * n) = nth 0 ws n := by
  have hlen : ∀ v ∈ ws, (leBytes 4 v.toNat).length = 4 := fun v _ => leBytes_length _ _
  rw [State.fsWord, State.fsRead_fsWrite_part _ _ _ (by rw [wordBytes_length]; omega), wordBytes,
    take_drop_flatMap_const hlen (x := nth 0 ws n) (by simp [nth, hn])]
  show BitVec.ofNat 32 (leNat (leBytes 4 (nth 0 ws n).toNat)) = _
  rw [leNat_leBytes_word, BitVec.ofNat_toNat, BitVec.setWidth_eq]

theorem Arr.column_eq (hwt : ∀ k, wt k = (Tab.get 0 x.weight (16384 * b + 128 * k + n)).toNat) (lo len : Nat) :
    x.column b lo len n = (List.range len).map fun i => wt (lo + i) := by
  simp only [Arr.column, hwt]

/-- A column of F19 mode (R50, R51). -/
theorem Arr.columnResult_f19 {ps : List Word} (hwf : nth 0 x.fmt b = 0) (hwt : ∀ k, wt k = (Tab.get 0 x.weight (16384 * b + 128 * k + n)).toNat)
    (hps : ps = (List.range 128).map fun k => f19Product (wt k) (nth 0 row.words k)) : x.columnResult b a row init n =
      if a.mode = 0 then ps.foldl addTrunc init else (ps.take a.kValid).foldl (fpMaxMin (a.mode == 1)) init := by
  have hcol : ∀ k, nth 0 (x.column b k 1 n) 0 = wt k := fun k => by rw [Arr.column_eq hwt]; rfl
  simp only [Arr.columnResult, hwf, if_true, hcol, ← hps]

/-- A column of MX segments (R48, R51, R108). -/
theorem Arr.columnResult_mx {wf : Nat} {cw ca : Nat → Nat} {ws es : Nat → List Nat} (hwf : wf = nth 0 x.fmt b) (hne : wf ≠ 0)
    (hwt : ∀ k, wt k = (Tab.get 0 x.weight (16384 * b + 128 * k + n)).toNat) (hcw : ∀ sg, cw sg = (Tab.get 0 x.scale (512 * b + 128 * sg + n)).toNat)
    (hca : ∀ sg, sg < 4 → nth 0 row.scales sg = ca sg) (hws : ∀ sg, ws sg = (List.range 32).map fun i => wt (32 * sg + i))
    (hes : ∀ sg, sg < 4 → nth [] row.elems sg = es sg) : x.columnResult b a row init n =
      if a.mode = 0 then [0, 1, 2, 3].foldl (fun acc sg => addTrunc acc (blockSum wf a.afmt (cw sg) (ca sg) (ws sg) (es sg))) init
      else (([0, 1, 2, 3].flatMap fun sg => blockTerms wf a.afmt (cw sg) (ca sg) (ws sg) (es sg)).take a.kValid).foldl (fpMaxMin (a.mode == 1)) init := by
  have hlt : ∀ sg ∈ [0, 1, 2, 3], sg < 4 := by decide
  have hrange : List.range 4 = [0, 1, 2, 3] := rfl
  subst hwf
  simp only [Arr.columnResult, hne, if_false, hrange, Arr.column_eq hwt, ← hws, ← hcw]
  refine ite_congr rfl (fun _ => ?_) fun _ => ?_
  · exact List.foldl_ext _ _ _ fun acc sg hsg => by rw [hca sg (hlt sg hsg), hes sg (hlt sg hsg)]
  · rw [List.flatMap_congr fun sg hsg => by rw [hca sg (hlt sg hsg), hes sg (hlt sg hsg)]]

end

/-- Row 0 of the activations (R46, R89). -/
theorem State.actRow_zero (u : State) (f : Nat) (a : AstreamArgs) (wt : Nat → Nat) :
    (a.afmt = 0 → (List.range 128).map (fun k => f19Product (wt k) (u.fsWord f (a.src + 4 * k))) =
      (List.range 128).map fun k => f19Product (wt k) (nth 0 (u.actRow f a 0).words k)) ∧
    (a.afmt ≠ 0 → ∀ sg, sg < 4 → nth 0 (u.actRow f a 0).scales sg = leNat (u.fsRead f (blockScaleAt a.afmt a.src (actBlock a 0 sg)) 1)) ∧
    (a.afmt ≠ 0 → ∀ sg, sg < 4 → nth [] (u.actRow f a 0).elems sg =
      unpackElems (mxWidth a.afmt) (u.fsRead f (blockElemsAt a.afmt a.src (actBlock a 0 sg)) (4 * mxWidth a.afmt))) := by
  refine ⟨fun h => List.map_congr_left fun k hk => ?_, fun h sg hsg => ?_, fun h sg hsg => ?_⟩
  · rw [State.actRow, if_pos h, nth_map_range _ _ (List.mem_range.1 hk), actAt, Nat.zero_mul, Nat.add_zero]
  · rw [State.actRow, if_neg h]
    exact nth_map_range _ _ hsg
  · rw [State.actRow, if_neg h]
    exact nth_map_range _ _ hsg

/-! ### A pass that enters (R47 to R51, R54, R55) -/

section
variable {s t s' t' : State} {f c rc : Nat} {a : AstreamArgs} {fed : List Byte}

/-- A pass that has entered, before its token is raised. -/
def State.passRun (f c : Nat) (a : AstreamArgs) (fed : List Byte) (s : State) : State :=
  State.frondCount f 0 (a.m * rowCycles (nth 0 (s.getFrond f).arr.fmt (s.getFrond f).arr.active))
    ((s.rowsRun f (s.getFrond f).arr.active c a fed a.m).updFrond f fun y => { y with arr := y.arr.entered c a.m })

theorem State.enterPass_eq (f c : Nat) (a : AstreamArgs) (fed : List Byte) (s : State) :
    s.enterPass f c a fed = (s.passRun f c a fed).raiseOpt f a.token := rfl

theorem State.passRun_getFrond (hrc : rc = rowCycles (nth 0 (s.getFrond f).arr.fmt (s.getFrond f).arr.active)) :
    (s.passRun f c a fed).getFrond f = { s.getFrond f with
      arr := { (s.getFrond f).arr with
        lastEnter := c + a.m * rc
        bankFree := (s.getFrond f).arr.bankFree.set (s.getFrond f).arr.active (c + a.m * rc)
        bankDrain := (s.getFrond f).arr.bankDrain.set (s.getFrond f).arr.active (c + a.m * rc + 127 * rc)
        inflight := ((s.getFrond f).arr.inflight ++ s.heldRows f (s.getFrond f).arr.active c a fed a.m).filter fun y => decide (c + a.m * rc < y.1) }
      counts := Tab.upd 0 (s.getFrond f).counts 0 (satAdd 64 · (a.m * rc)) } := by
  subst hrc
  rw [State.passRun, State.frondCount_getFrond, State.getFrond_updFrond_same, State.rowsRun_getFrond]
  rfl

theorem State.passRun_others (f c : Nat) (a : AstreamArgs) (fed : List Byte) (s : State) : OtherFronds s (s.passRun f c a fed) f :=
  ((State.rowsRun_others a.m s).trans (OtherFronds.updFrond f _ _)).trans (OtherFronds.updFrond f _ _)

theorem State.passRun_store (f c : Nat) (a : AstreamArgs) (fed : List Byte) (s : State) :
    (s.passRun f c a fed).store = (s.rowsRun f (s.getFrond f).arr.active c a fed a.m).store := rfl

theorem State.passRun_frame (f c : Nat) (a : AstreamArgs) (fed : List Byte) (s : State) : s.passRun f c a fed = { s with
    store := (s.passRun f c a fed).store, frond := (s.passRun f c a fed).frond } := by
  have h := State.rowsRun_frame (f := f) (b := (s.getFrond f).arr.active) (c := c) (a := a) (fed := fed) a.m s
  unfold State.passRun
  generalize s.rowsRun f (s.getFrond f).arr.active c a fed a.m = u at *
  rw [h]
  rfl

/-- The word that a pass of one row leaves for a valid column. -/
theorem State.passRun_word {n : Nat} (hm : a.m = 1) (hn : n < a.nValid) (hrc : rc = rowCycles (nth 0 (s.getFrond f).arr.fmt (s.getFrond f).arr.active)) :
    (s.passRun f c a []).fsWord f (accAt a 0 + 4 * n) = (s.getFrond f).arr.columnResult (s.getFrond f).arr.active a ((s.seenAt f c).actRow f a 0)
      (if a.initAcc then (s.seenAt f (c + 32 * rc)).fsWord f (accAt a 0 + 4 * n) else 0) n := by
  have hstore : (s.passRun f c a []).store =
      (s.fsWrite f (accAt a 0) (wordBytes (s.rowResult f (s.getFrond f).arr.active c a [] 0))).store := by
    rw [State.passRun_store, hm, State.rowsRun_succ]; rfl
  rw [State.fsWord_congr hstore, State.fsWord_fsWrite_wordBytes (by rw [State.rowResult_length]; exact hn), State.rowResult]
  rw [nth_map_range _ _ hn, hrc, Nat.zero_mul, Nat.add_zero, Nat.zero_add]
  rfl

/-- A pass that has entered has done what O46 lists. -/
theorem State.passRun_entered (hrc : rc = rowCycles (nth 0 (s.getFrond f).arr.fmt (s.getFrond f).arr.active)) :
    PassEntered s (s.passRun f c a []) f c rc a := by
  have hfrond := State.passRun_getFrond (fed := []) (c := c) (a := a) hrc
  have hcounts : ((s.passRun f c a []).getFrond f).counts = Tab.upd 0 (s.getFrond f).counts 0 (satAdd 64 · (a.m * rc)) := by rw [hfrond]
  refine ⟨by rw [hfrond], by rw [hfrond], by rw [hfrond],
    ⟨fun m => (s.rowsRun f (s.getFrond f).arr.active c a [] m).fsRead f (accAt a m) (4 * a.nValid), ?_, fun m _ h => State.rowsRun_read s h⟩,
    fun x hx => State.rowsRun_out a.m s hx, ?_, fun k hk _ => ?_, fun hm hacts x u v hx hu hv n hn init wt ps hinit hwt hps => ?_⟩
  · rw [hfrond, State.heldRows, ← hrc]
  · rw [hcounts, Tab.get_upd_same]
  · rw [hcounts, Tab.get_upd_ne _ _ _ (by omega)]
  · rw [State.passRun_word hm hn hrc]
    subst hx hu hv
    rw [← hinit]
    obtain ⟨hwords, hcode, helems⟩ := State.actRow_zero (s.seenAt f c) f a wt
    have hzero : nth 0 (s.getFrond f).arr.fmt (s.getFrond f).arr.active = 0 ↔ a.afmt = 0 := by
      unfold actsOk at hacts
      split at hacts
      · next h => simp at hacts; simp [h, hacts]
      · next h => simp at hacts; constructor <;> omega
    refine ⟨fun hf hmode => ?_, fun hf hmode => ?_, fun cw ca ws es wf hwf hcw hca hws hes => ⟨fun hf hmode => ?_, fun hf hmode => ?_⟩⟩
    · rw [Arr.columnResult_f19 (hzero.2 hf) hwt (hps.trans (hwords hf)), if_pos hmode]
    · rw [Arr.columnResult_f19 (hzero.2 hf) hwt (hps.trans (hwords hf)), if_neg hmode]
    · rw [Arr.columnResult_mx hwf (hwf ▸ mt hzero.1 hf) hwt hcw (fun sg hsg => (hcode hf sg hsg).trans (hca sg).symm) hws
        (fun sg hsg => (helems hf sg hsg).trans (hes sg).symm), if_pos hmode]
    · rw [Arr.columnResult_mx hwf (hwf ▸ mt hzero.1 hf) hwt hcw (fun sg hsg => (hcode hf sg hsg).trans (hca sg).symm) hws
        (fun sg hsg => (helems hf sg hsg).trans (hes sg).symm), if_neg hmode]

/-- A pass enters whatever waits in the queue; loads and swaps behind it, tokens and votes do not touch what it did. -/
theorem PassEntered.congr (hs : s'.store = s.store) (harr : (s'.getFrond f).arr = { (s.getFrond f).arr with queue := (s'.getFrond f).arr.queue })
    (hcs : ∀ k, k ≠ 1 → Tab.get 0 (s'.getFrond f).counts k = Tab.get 0 (s.getFrond f).counts k) (ht : t'.store = t.store)
    (hlast : (t'.getFrond f).arr.lastEnter = (t.getFrond f).arr.lastEnter) (hfree : (t'.getFrond f).arr.bankFree = (t.getFrond f).arr.bankFree)
    (hdrain : (t'.getFrond f).arr.bankDrain = (t.getFrond f).arr.bankDrain) (hheld : (t'.getFrond f).arr.inflight = (t.getFrond f).arr.inflight)
    (hct : ∀ k, k ≠ 3 → Tab.get 0 (t'.getFrond f).counts k = Tab.get 0 (t.getFrond f).counts k) (h : PassEntered s t f c rc a) :
    PassEntered s' t' f c rc a := by
  obtain ⟨h1, h2, h3, ⟨old, h4, h5⟩, h6, h7, h8, h9⟩ := h
  have hactive : (s'.getFrond f).arr.active = (s.getFrond f).arr.active := by rw [harr]; rfl
  have hfmt : (s'.getFrond f).arr.fmt = (s.getFrond f).arr.fmt := by rw [harr]
  have hheld' : (s'.getFrond f).arr.inflight = (s.getFrond f).arr.inflight := by rw [harr]
  have hseen : ∀ c, (s'.seenAt f c).store = (s.seenAt f c).store := State.seenAt_store hs hheld'
  refine ⟨hlast.trans h1, ?_, ?_, ⟨old, ?_, fun m hm hj => ?_⟩, fun x hx => ?_, ?_, fun k hk hk3 => ?_, fun hm hacts x u v hx hu hv n hn init wt ps hinit hwt hps => ?_⟩
  · rw [hfree, h2, harr]; rfl
  · rw [hdrain, h3, harr]; rfl
  · rw [hheld, h4, hheld']
  · rw [State.fsRead_congr hs]; exact h5 m hm hj
  · rw [ht, hs]; exact h6 x hx
  · rw [hct 0 (by decide), h7, hcs 0 (by decide)]
  · rw [hct k hk3, h8 k hk hk3, hcs k (by omega)]
  · rw [hfmt, hactive] at hacts
    subst hx hu hv
    rw [State.fsWord_congr ht]
    rw [State.fsWord_congr (hseen _)] at hinit
    simp only [State.fsWord_congr (hseen _)] at hps
    obtain ⟨hadd, hext, hmx⟩ := h9 hm hacts _ _ _ rfl rfl rfl n hn init wt ps hinit (fun k => by rw [hwt, harr]; rfl) hps
    refine ⟨hadd, hext, fun cw ca ws es wf hwf hcw hca hws hes => hmx cw ca ws es wf ?_ (fun sg => ?_) (fun sg => ?_) hws fun sg => ?_⟩
    · rw [hwf, hfmt, hactive]
    · rw [hcw, harr]; rfl
    · rw [hca, State.fsRead_congr (hseen _)]
    · rw [hes, State.fsRead_congr (hseen _)]

/-- A token is raised after what has changed neither tokens nor stalls nor partitions. -/
theorem TokenRaised.of_before {u : State} {tok : Option Nat} (hw : (u.getFrond f).wait = (s.getFrond f).wait)
    (ht : (u.getFrond f).token = (s.getFrond f).token) (hp : u.part = s.part) (h : TokenRaised u t f tok) : TokenRaised s t f tok := by
  have hparts : ∀ q, u.getPart q = s.getPart q := fun q => by rw [State.getPart, hp]; rfl
  have howner : u.owner f = s.owner f := State.owner_congr (fun q => by rw [hparts]) f
  obtain ⟨h1, h2, h3, h4, h5⟩ := h
  rw [ht] at h1 h2 h3
  rw [hw, hp] at h4
  exact ⟨h1, h2, h3, h4, fun q hq => (h5 q (howner ▸ hq)).trans (hparts q)⟩

/-- What an entered pass leaves of its frond, of the others and of the rest, before its token is raised. -/
theorem State.enterPass_spec (f c : Nat) (a : AstreamArgs) (fed : List Byte) (s : State) :
    RaisedAfter (s.passRun f c a fed) (s.enterPass f c a fed) f a.token ∧ TokenRaised s (s.enterPass f c a fed) f a.token ∧
    (s.enterPass f c a fed).getFrond f = { (s.passRun f c a fed).getFrond f with
      token := ((s.enterPass f c a fed).getFrond f).token, wait := ((s.enterPass f c a fed).getFrond f).wait } ∧
    OtherFronds s (s.enterPass f c a fed) f ∧
    s.enterPass f c a fed = { s with
      frond := (s.enterPass f c a fed).frond, store := (s.passRun f c a fed).store, part := (s.enterPass f c a fed).part } := by
  have hraised := State.raiseOpt_raisedAfter f a.token (s.passRun f c a fed)
  rw [← State.enterPass_eq] at hraised
  have hrun := State.passRun_frame f c a fed s
  have hfrond := State.passRun_getFrond (f := f) (c := c) (a := a) (fed := fed) (s := s) rfl
  have hothers := State.passRun_others f c a fed s
  obtain ⟨htoken, hleft, hothers', hframe⟩ := hraised
  refine ⟨⟨htoken, hleft, hothers', hframe⟩, htoken.of_before (by rw [hfrond]) (by rw [hfrond]) (by rw [hrun]), hleft, hothers.trans hothers', ?_⟩
  generalize s.passRun f c a fed = u at *
  rw [hframe, hrun]

theorem State.enterPass_counts (f c : Nat) (a : AstreamArgs) (fed : List Byte) (s : State) : ((s.enterPass f c a fed).getFrond f).counts =
    Tab.upd 0 (s.getFrond f).counts 0 (satAdd 64 · (a.m * rowCycles (nth 0 (s.getFrond f).arr.fmt (s.getFrond f).arr.active))) := by
  obtain ⟨_, _, hleft, _, _⟩ := State.enterPass_spec f c a fed s
  rw [hleft, State.passRun_getFrond rfl]

/-- The array after a pass has entered: its timing and the rows that it holds back. -/
theorem State.enterPass_arr (f c : Nat) (a : AstreamArgs) (fed : List Byte) (s : State) : ((s.enterPass f c a fed).getFrond f).arr =
    { (s.getFrond f).arr with
      lastEnter := c + a.m * rowCycles (nth 0 (s.getFrond f).arr.fmt (s.getFrond f).arr.active)
      bankFree := ((s.enterPass f c a fed).getFrond f).arr.bankFree, bankDrain := ((s.enterPass f c a fed).getFrond f).arr.bankDrain
      inflight := ((s.enterPass f c a fed).getFrond f).arr.inflight } := by
  obtain ⟨_, _, hleft, _, _⟩ := State.enterPass_spec f c a fed s
  rw [hleft, State.passRun_getFrond rfl]

theorem State.enterPass_entered (hrc : rc = rowCycles (nth 0 (s.getFrond f).arr.fmt (s.getFrond f).arr.active)) :
    PassEntered s (s.enterPass f c a []) f c rc a := by
  obtain ⟨_, _, hfrond, _, hframe⟩ := State.enterPass_spec f c a [] s
  refine (State.passRun_entered hrc).congr rfl rfl (fun _ _ => rfl) ?_ ?_ ?_ ?_ ?_ fun k _ => ?_
  · rw [hframe]
  all_goals rw [hfrond]

end

/-! ### What the array's warden does behind a pass (R55, R57) -/

section
variable {s t u : State} {f w c : Nat} {a : AloadArgs}

/-- From s to t loads and swaps of frond f have gone on: that changes its banks, their pointer and the stalls alone. -/
def ArrayMoved (s t : State) (f : Nat) : Prop :=
  t.getFrond f = { s.getFrond f with
    arr := { (s.getFrond f).arr with
      weight := (t.getFrond f).arr.weight, scale := (t.getFrond f).arr.scale, fmt := (t.getFrond f).arr.fmt, bank := (t.getFrond f).arr.bank
      loadEnd := (t.getFrond f).arr.loadEnd, stalled := (t.getFrond f).arr.stalled, stallTo := (t.getFrond f).arr.stallTo }
    counts := (t.getFrond f).counts, wait := (t.getFrond f).wait } ∧
  (∀ k, k ≠ 3 → Tab.get 0 (t.getFrond f).counts k = Tab.get 0 (s.getFrond f).counts k) ∧ OtherFronds s t f ∧ t = { s with frond := t.frond }

theorem ArrayMoved.refl (s : State) (f : Nat) : ArrayMoved s s f := ⟨rfl, fun _ _ => rfl, fun _ _ => rfl, rfl⟩

theorem ArrayMoved.trans (h : ArrayMoved s t f) (k : ArrayMoved t u f) : ArrayMoved s u f := by
  obtain ⟨h1, h2, h3, h4⟩ := h
  obtain ⟨k1, k2, k3, k4⟩ := k
  refine ⟨?_, fun i hi => (k2 i hi).trans (h2 i hi), h3.trans k3, ?_⟩
  · rw [k1, h1]
  · rw [k4, h4]

theorem State.setWait_moved (f w : Nat) (x : Option Wait) (s : State) : ArrayMoved s (s.setWait f w x) f :=
  ⟨by rw [State.setWait_getFrond], fun _ _ => by rw [State.setWait_getFrond], State.setWait_others f w x s, rfl⟩

theorem State.toggle_moved (f c : Nat) (s : State) : ArrayMoved s (s.toggle f c) f :=
  ⟨by rw [State.toggle_getFrond], fun _ _ => by rw [State.toggle_getFrond], State.toggle_others f c s, rfl⟩

theorem State.goLoad_moved (f w c : Nat) (a : AloadArgs) (s : State) : ArrayMoved s (s.goLoad f w c a) f := by
  have hcount : ∀ (n : Nat) (u v : State), (v.getFrond f).counts = Tab.upd 0 (u.getFrond f).counts 3 (satAdd 64 · n) →
      ∀ k, k ≠ 3 → Tab.get 0 (v.getFrond f).counts k = Tab.get 0 (u.getFrond f).counts k := fun n u v h k hk => by
    rw [h, Tab.get_upd_ne _ _ _ hk]
  unfold State.goLoad
  dsimp only
  split
  · exact State.setWait_moved f w _ s
  · split
    · refine ⟨?_, hcount 1 s _ ?_, (OtherFronds.updFrond f _ s).trans (OtherFronds.updFrond f _ _), rfl⟩ <;>
        rw [State.frondCount_getFrond, State.getFrond_updFrond_same]
    · obtain ⟨_, hfrond, hothers⟩ := State.startLoad_spec f (max c (s.getFrond f).arr.loadEnd) a s
      exact ⟨by rw [hfrond], hcount _ s _ (by rw [hfrond]), hothers, State.startLoad_frame _ _ _ _⟩

theorem State.wakeArray_moved (f w c : Nat) (s : State) : ArrayMoved s (s.wakeArray f w c) f := by
  unfold State.wakeArray
  split
  · exact ite_holds (P := fun u => ArrayMoved s u f) ((State.setWait_moved f w none s).trans (State.toggle_moved f _ _)) (.refl s f)
  · exact ite_holds (P := fun u => ArrayMoved s u f) ((State.setWait_moved f w none s).trans (State.goLoad_moved f w _ _ _)) (.refl s f)
  · exact .refl s f

/-- A warden that stalls on no token or stitch stays as it is when a token is raised (R130). -/
theorem State.wakeWarden_waitOf {x : Option Wait} (h : s.waitOf f w = x) (hissue : ∀ es ts, x ≠ some (.issue es ts)) (hcommit : ∀ es, x ≠ some (.commit es))
    (v : Nat) : (s.wakeWarden f v).waitOf f w = x := by
  have hset : v ≠ w → (s.setWait f v none).waitOf f w = x := fun hv => by
    rw [State.waitOf, State.setWait_getFrond, ← h]
    exact Tab.get_set_ne none (s.getFrond f).wait none (Ne.symm hv)
  unfold State.wakeWarden
  split
  · next es ts _ hwait =>
    have hv : v ≠ w := by rintro rfl; exact hissue es ts (h.symm.trans hwait)
    exact ite_holds (P := fun u : State => u.waitOf f w = x) (hset hv) h
  · next es _ hwait =>
    have hv : v ≠ w := by rintro rfl; exact hcommit es (h.symm.trans hwait)
    refine ite_holds (P := fun u : State => u.waitOf f w = x) ?_ h
    rw [State.commitBy, State.waitOf, State.noteVote_getFrond]
    exact hset hv
  · exact h

theorem State.raiseOpt_waitOf {x : Option Wait} (h : s.waitOf f w = x) (hissue : ∀ es ts, x ≠ some (.issue es ts)) (hcommit : ∀ es, x ≠ some (.commit es))
    (tok : Option Nat) : (s.raiseOpt f tok).waitOf f w = x := by
  cases tok with
  | none => exact h
  | some k =>
    refine forAll_inv (fun u => u.waitOf f w = x) _ _ (s.countToken f k) ?_ fun v _ u hu => State.wakeWarden_waitOf hu hissue hcommit v
    exact (State.waitOf_congr (by rw [State.countToken_getFrond]) w).trans h

end

/-! ### ASTREAM and ASTREAM_ENTER (R55) -/

section
variable {s : State} {f w c p cycle : Nat} {r : FrondRec} {a : AstreamArgs} {y : Pass} {rest : List Pass}

theorem State.issuePass_bad (h : astreamOk a (nth 0 (s.getFrond f).arr.fmt (s.getFrond f).arr.active) = false ∨ astreamPages r a = false)
    (enter : State → State) : s.issuePass f w c r a enter = s.unitFault f unitArray w :=
  if_pos (by rcases h with h | h <;> simp [h])

section
variable (hok : astreamOk a (nth 0 (s.getFrond f).arr.fmt (s.getFrond f).arr.active) = true) (hpages : astreamPages r a = true)
include hok hpages

theorem State.issuePass_queues (h : c < (s.getFrond f).arr.lastEnter ∨ (s.getFrond f).arr.queue ≠ []) (enter : State → State) :
    s.issuePass f w c r a enter = s.updFrond f fun y => { y with arr := { y.arr with
      queue := y.arr.queue ++ [{ args := a, warden := w, cycle := c }] } } :=
  (if_neg (by simp [hok, hpages])).trans (if_pos (by simpa using h))

theorem State.issuePass_enters (hle : (s.getFrond f).arr.lastEnter ≤ c) (hq : (s.getFrond f).arr.queue = []) (enter : State → State) :
    s.issuePass f w c r a enter = enter s :=
  (if_neg (by simp [hok, hpages])).trans (if_neg (by simp [hq, hle]))

end

theorem exec_astreamEnter_idle {x : Arr} (hx : x = (s.getFrond f).arr) (h : x.queue = [] ∨ s.unitRuns f unitArray = none ∨ cycle < x.lastEnter) :
    exec (.astreamEnter f cycle) s = .next s := by
  subst hx
  refine congrArg Host.Outcome.next (?_ : s.astreamEnter f cycle = s)
  unfold State.astreamEnter
  dsimp only
  split
  · next p r y rest hruns hqueue =>
    refine if_pos (Decidable.of_not_not fun hle => ?_)
    rcases h with h | h | h
    · exact List.cons_ne_nil y rest (hqueue.symm.trans h)
    · exact Option.some_ne_none (p, r) (hruns.symm.trans h)
    · exact hle h
  · rfl

/-- The state in which the head of the queue has left it, and its wait has counted (R78). -/
def State.headLeft (f cycle : Nat) (y : Pass) (s : State) : State := (s.popPass f).frondCount f 1 ((s.getFrond f).arr.passWaited y cycle)

theorem exec_astreamEnter (hruns : s.unitRuns f unitArray = some (p, r)) (hq : (s.getFrond f).arr.queue = y :: rest) (hfused : y.fused = none)
    (hle : (s.getFrond f).arr.lastEnter ≤ cycle) : exec (.astreamEnter f cycle) s =
      .next ((((s.headLeft f cycle y).enterPass f cycle y.args []).wakeArray f (r.warden unitArray) cycle).noteVote p) := by
  refine congrArg Host.Outcome.next (?_ : s.astreamEnter f cycle = _)
  simp only [State.astreamEnter, hruns, hq, hfused, if_neg (Nat.not_lt.2 hle)]
  rfl

theorem State.headLeft_getFrond (hq : (s.getFrond f).arr.queue = y :: rest) : (s.headLeft f cycle y).getFrond f = { s.getFrond f with
    arr := { (s.getFrond f).arr with queue := rest }
    counts := Tab.upd 0 (s.getFrond f).counts 1 (satAdd 64 · (cycle - max (s.getFrond f).arr.lastEnter y.cycle)) } := by
  rw [State.headLeft, State.frondCount_getFrond, State.popPass, State.getFrond_updFrond_same, hq]
  rfl

theorem State.headLeft_others (f cycle : Nat) (y : Pass) (s : State) : OtherFronds s (s.headLeft f cycle y) f :=
  (OtherFronds.updFrond f _ s).trans (OtherFronds.updFrond f _ _)

theorem State.headLeft_frame (f cycle : Nat) (y : Pass) (s : State) : s.headLeft f cycle y = { s with frond := (s.headLeft f cycle y).frond } := rfl

/-- From s to e the head y of the queue of frond f has left it and entered in a cycle; the array's warden has not looked again yet. -/
def HeadEntered (s e : State) (f w cycle rc : Nat) (y : Pass) (rest : List Pass) : Prop :=
  PassEntered s e f cycle rc y.args ∧
  (e.getFrond f).arr = { (s.getFrond f).arr with
    queue := rest, lastEnter := cycle + y.args.m * rc, bankFree := (e.getFrond f).arr.bankFree
    bankDrain := (e.getFrond f).arr.bankDrain, inflight := (e.getFrond f).arr.inflight } ∧
  Tab.get 0 (e.getFrond f).counts 1 = satAdd 64 (Tab.get 0 (s.getFrond f).counts 1) (cycle - max (s.getFrond f).arr.lastEnter y.cycle) ∧
  TokenRaised s e f y.args.token ∧
  (∀ x, s.waitOf f w = x → (∀ es ts, x ≠ some (.issue es ts)) → (∀ es, x ≠ some (.commit es)) → e.waitOf f w = x) ∧
  e.getFrond f = { s.getFrond f with
    arr := (e.getFrond f).arr, counts := (e.getFrond f).counts, token := (e.getFrond f).token, wait := (e.getFrond f).wait } ∧
  OtherFronds s e f ∧ e = { s with frond := e.frond, store := e.store, part := e.part }

theorem State.headLeft_enters {rc : Nat} (hq : (s.getFrond f).arr.queue = y :: rest)
    (hrc : rc = rowCycles (nth 0 (s.getFrond f).arr.fmt (s.getFrond f).arr.active)) :
    HeadEntered s ((s.headLeft f cycle y).enterPass f cycle y.args []) f w cycle rc y rest := by
  have hfrond := State.headLeft_getFrond (cycle := cycle) hq
  have hothers := State.headLeft_others f cycle y s
  have hframe := State.headLeft_frame f cycle y s
  generalize s.headLeft f cycle y = u at *
  have hrcu : rc = rowCycles (nth 0 (u.getFrond f).arr.fmt (u.getFrond f).arr.active) := by rw [hrc, hfrond]; rfl
  have harr := State.enterPass_arr f cycle y.args [] u
  have hcounts := State.enterPass_counts f cycle y.args [] u
  obtain ⟨_, htoken, hleft, hothers', hframe'⟩ := State.enterPass_spec f cycle y.args [] u
  have hucounts : (u.getFrond f).counts =
      Tab.upd 0 (s.getFrond f).counts 1 (satAdd 64 · (cycle - max (s.getFrond f).arr.lastEnter y.cycle)) := by rw [hfrond]
  refine ⟨(State.enterPass_entered hrcu).congr (by rw [hframe]) (by rw [hfrond]) (fun k hk => ?_) rfl rfl rfl rfl rfl (fun _ _ => rfl), ?_, ?_,
    htoken.of_before (by rw [hfrond]) (by rw [hfrond]) (by rw [hframe]), fun x hx hissue hcommit => ?_, ?_, hothers.trans hothers', ?_⟩
  · rw [hucounts, Tab.get_upd_ne _ _ _ hk]
  · rw [harr, ← hrcu, hfrond]
  · rw [hcounts, Tab.get_upd_ne _ _ _ (by decide), hucounts, Tab.get_upd_same]
  · rw [State.enterPass_eq]
    refine State.raiseOpt_waitOf ((State.waitOf_congr ?_ w).trans hx) hissue hcommit _
    rw [State.passRun_getFrond rfl, hfrond]
  · rw [hleft, State.passRun_getFrond rfl, hfrond]
  · rw [hframe', hframe]

end

/-! ### O46 -/

/-- Settles O46: a pass that enters leaves what `State.enterPass_entered` says, and loads and swaps behind it what `ArrayMoved` allows. -/
theorem arrayPassesEnter : Obligations.ArrayPassesEnter := by
  unfold Obligations.ArrayPassesEnter
  refine ⟨fun s f k cycle addr old h => State.seenAt_one h, fun s f w cycle p c rc r a x hx hrc => ?_⟩
  subst hx
  have hrc' : rc = rowCycles (nth 0 (s.getFrond f).arr.fmt (s.getFrond f).arr.active) := hrc
  refine ⟨exec_idle (exec_astream a), exec_foreign (exec_astream a), fun hown h => ?bad,
    fun hown hok hpages hc => ⟨fun h => ?queues, fun hle hqueue => ?enters⟩, exec_astreamEnter_idle rfl, fun y rest hruns hqueue hfused hle => ?leaves⟩
  case bad => rw [exec_own (exec_astream a) hown, State.issuePass_bad h]
  case queues =>
    refine ⟨_, by rw [exec_own (exec_astream a) hown, ← hc, State.issuePass_queues hok hpages h], ?_, ?_, rfl⟩
    · rw [State.getFrond_updFrond_same]
    · exact OtherFronds.updFrond f _ s
  case enters =>
    obtain ⟨_, htoken, hleft, hothers, hframe⟩ := State.enterPass_spec f c a [] s
    have hfrond := State.passRun_getFrond (f := f) (c := c) (a := a) (fed := []) (s := s) rfl
    refine ⟨_, by rw [exec_own (exec_astream a) hown, ← hc, State.issuePass_enters hok hpages hle hqueue], State.enterPass_entered hrc',
      fun k hk => ?_, htoken, ?_, hothers, ?_⟩
    · rw [State.enterPass_counts, Tab.get_upd_ne _ _ _ hk]
    · rw [hleft, hfrond]
    · rw [hframe]
  case leaves =>
    obtain ⟨hentered, harr, hcount, ⟨hraised, hkept, _, hquiet, hforeign⟩, hwaits, hleft, hothers, hframe⟩ :=
      State.headLeft_enters (cycle := cycle) (w := r.warden unitArray) hqueue hrc'
    have hexec := exec_astreamEnter hruns hqueue hfused hle
    generalize (s.headLeft f cycle y).enterPass f cycle y.args [] = e at *
    obtain ⟨hmoved, hmcounts, hmothers, hmframe⟩ := State.wakeArray_moved f (r.warden unitArray) cycle e
    have hnone : e.waitOf f (r.warden unitArray) = none → e.wakeArray f (r.warden unitArray) cycle = e := fun h => State.wakeArray_none h cycle
    have hswap : ∀ k, e.waitOf f (r.warden unitArray) = some (.swap k) → e.wakeArray f (r.warden unitArray) cycle =
        if (e.getFrond f).arr.swaps then (e.setWait f (r.warden unitArray) none).toggle f (max k (e.getFrond f).arr.stallTo) else e :=
      fun k h => State.wakeArray_swap h cycle
    generalize e.wakeArray f (r.warden unitArray) cycle = v at *
    have hfronds : ∀ g, (v.noteVote p).getFrond g = v.getFrond g := fun g => State.noteVote_getFrond p g v
    have htoken : (v.getFrond f).token = (e.getFrond f).token := by rw [hmoved]
    have hwaitSwap : ∀ k, s.waitOf f (r.warden unitArray) = some (.swap k) → e.waitOf f (r.warden unitArray) = some (.swap k) :=
      fun k hw => hwaits _ hw (by simp) (by simp)
    refine ⟨_, hexec, ?_, ?_, ?_, fun k hk => ?_, fun k hk => ?_, fun hw => ?_, fun k hw hrest hstalled => ?_, fun k hw hbusy => ?_, ?_, fun hq => ?_,
      fun q hqp => ?_, fun g hg => ?_, ?_⟩
    · refine hentered.congr rfl rfl (fun _ _ => rfl) ?_ ?_ ?_ ?_ ?_ fun k hk => ?_
      · rw [State.noteVote_frame, hmframe]
      · rw [hfronds, hmoved]
      · rw [hfronds, hmoved]
      · rw [hfronds, hmoved]
      · rw [hfronds, hmoved]
      · rw [hfronds, hmcounts k hk]
    · rw [hfronds, hmoved, harr]
    · rw [hfronds, hmcounts 1 (by decide), hcount]
    · rw [hfronds, htoken, hraised k hk]
    · rw [hfronds, htoken, hkept k hk]
    · rw [hfronds, hnone (hwaits none hw (by simp) (by simp)), harr]
    · have hv := hswap k (hwaitSwap k hw)
      rw [if_pos ((Arr.swaps_iff _).2 (by rw [harr]; exact ⟨hrest, hstalled⟩))] at hv
      have hvfrond := State.toggle_getFrond f (max k (e.getFrond f).arr.stallTo) (e.setWait f (r.warden unitArray) none)
      rw [← hv, State.setWait_getFrond] at hvfrond
      refine ⟨?_, ?_, ?_⟩
      · rw [hfronds, hvfrond, harr]
      · refine (State.waitOf_congr ?_ _).trans (State.waitOf_setWait f (r.warden unitArray) none e)
        rw [hfronds, hvfrond, State.setWait_getFrond]
      · rw [hfronds, hvfrond, harr]
        exact Nat.le_trans (Nat.le_max_left _ _) (Nat.le_trans (Nat.le_max_right _ _) (Nat.le_max_right _ _))
    · have hv := hswap k (hwaitSwap k hw)
      rw [if_neg fun h => ?_] at hv
      · refine ⟨?_, ?_⟩
        · rw [hfronds, hv, harr]
        · exact (State.waitOf_congr (by rw [hfronds, hv]) _).trans (hwaitSwap k hw)
      · rw [Arr.swaps_iff, harr] at h
        exact hbusy.elim (fun hr => hr h.1) fun hs => hs h.2
    · rw [hfronds, hmoved, hleft]
    · refine State.noteVote_noted (State.unitRuns_owner hruns).2 ?_ ?_
      · rw [hmframe]; exact (hquiet hq).2
      · rw [hmframe, hframe]
    · rw [State.noteVote_getPart_ne hqp, ← hforeign q]
      · rw [hmframe]; rfl
      · rw [(State.unitRuns_owner hruns).1]
        exact fun h => hqp (Option.some.inj h).symm
    · rw [hfronds, hmothers g hg, hothers g hg]
    · rw [State.noteVote_frame, hmframe, hframe]

end Sys2Proof.Machine
end

section
/-! SUPPORT. The spool engine: its streams, the issue of bursts, what a burst lands, the tokens in burst order, and the statement about them. -/

namespace Sys2Proof.Machine

/-! ### Streams of a frond (R69, R74) -/

section
variable {s t : State} {f id : Nat} {x : Stream} {g : Stream → Stream}

theorem State.streamAt_id (h : s.streamAt f id = some x) : x.id = id := by
  simpa using List.find?_some h

theorem State.streamAt_congr (h : (t.getFrond f).streams = (s.getFrond f).streams) (k : Nat) : t.streamAt f k = s.streamAt f k := by
  rw [State.streamAt, h]; rfl

theorem State.updStream_getFrond (f id : Nat) (g : Stream → Stream) (s : State) : (s.updStream f id g).getFrond f = { s.getFrond f with
    streams := (s.getFrond f).streams.map fun y => if y.id = id then g y else y } := State.getFrond_updFrond_same _ _ _

theorem State.updStream_others (f id : Nat) (g : Stream → Stream) (s : State) : OtherFronds s (s.updStream f id g) f := OtherFronds.updFrond f _ s

/-- A search for an identity in a list of streams, one of which has changed. -/
theorem find?_updStream (hg : ∀ y, (g y).id = y.id) (k : Nat) (l : List Stream) :
    (l.map fun y => if y.id = id then g y else y).find? (fun y => y.id == k) =
      (l.find? fun y => y.id == k).map fun y => if y.id = id then g y else y := by
  rw [List.find?_map]
  congr 2
  funext y
  by_cases h : y.id = id <;> simp [h, hg]

theorem State.streamAt_updStream_same (hg : ∀ y, (g y).id = y.id) (h : s.streamAt f id = some x) : (s.updStream f id g).streamAt f id = some (g x) := by
  have hid := State.streamAt_id h
  rw [State.streamAt, State.updStream_getFrond]
  refine (find?_updStream hg id _).trans ?_
  rw [← State.streamAt, h, Option.map_some, if_pos hid]

theorem State.streamAt_updStream_ne (hg : ∀ y, (g y).id = y.id) {k : Nat} (hk : k ≠ id) : (s.updStream f id g).streamAt f k = s.streamAt f k := by
  rw [State.streamAt, State.updStream_getFrond]
  refine (find?_updStream hg k _).trans ?_
  rw [← State.streamAt]
  cases h : s.streamAt f k with
  | none => rfl
  | some y => rw [Option.map_some, if_neg (State.streamAt_id h ▸ hk)]

end

/-! ### Offers to the regulators (R75, R198) -/

section
variable {s t u : State} {f p : Nat}

/-- From s to t pieces have been offered to the regulators of partition p. -/
def Offered (s t : State) (p : Nat) : Prop :=
  t.getPart p = { s.getPart p with
    regHbm := (t.getPart p).regHbm, regPeat := (t.getPart p).regPeat, heldPieces := (t.getPart p).heldPieces } ∧
  (∀ q, q ≠ p → t.getPart q = s.getPart q) ∧ t = { s with part := t.part }

theorem Offered.refl (s : State) (p : Nat) : Offered s s p := ⟨rfl, fun _ _ => rfl, rfl⟩

theorem Offered.trans (h : Offered s t p) (k : Offered t u p) : Offered s u p := by
  obtain ⟨h1, h2, h3⟩ := h
  obtain ⟨k1, k2, k3⟩ := k
  refine ⟨?_, fun q hq => (k2 q hq).trans (h2 q hq), ?_⟩
  · rw [k1, h1]
  · rw [k3, h3]

theorem Offered.updPart {g : Partition → Partition}
    (hg : ∀ q, g q = { q with regHbm := (g q).regHbm, regPeat := (g q).regPeat, heldPieces := (g q).heldPieces }) : Offered s (s.updPart p g) p := by
  refine ⟨?_, fun q hq => State.getPart_updPart_ne _ _ _ _ hq, rfl⟩
  rw [State.getPart_updPart_same]
  exact hg _

theorem State.offerPiece_offered (p : Nat) (y : HeldPiece) (s : State) : Offered s (s.offerPiece p y) p := by
  unfold State.offerPiece
  refine ite_holds (P := fun u => Offered s u p) (.updPart fun q => ?_) (.updPart fun _ => rfl)
  unfold Partition.updReg
  split <;> rfl

theorem State.offerBurst_offered (p tier f stream burst bytes : Nat) (s : State) : Offered s (s.offerBurst p tier f stream burst bytes) p := by
  unfold State.offerBurst
  exact ite_holds (P := fun u => Offered s u p) (.refl s p)
    (forAll_inv (fun u => Offered s u p) _ _ s (.refl s p) fun _ _ _ h => h.trans (State.offerPiece_offered _ _ _))

/-- A burst of at most 2 KiB is one piece. -/
theorem pieceUnits_one {b : Nat} (h0 : 0 < b) (h : b ≤ 2048) : pieceUnits b = [b / 64] := by
  have hcount : cdiv b 2048 = 1 := by unfold cdiv; omega
  simp [pieceUnits, hcount, h]

theorem State.offerBurst_one {tier stream burst bytes : Nat} (ht : tier ≠ 3) (h0 : 0 < bytes) (h : bytes ≤ 2048) :
    s.offerBurst p tier f stream burst bytes = s.offerPiece p ⟨tier, frondDie f, f, stream, burst, bytes / 64⟩ := by
  rw [State.offerBurst, if_neg ht, pieceUnits_one h0 h]; rfl

/-- A piece is held behind another of its share, or where its share has not the tokens (R198). -/
theorem State.offerPiece_held {y : HeldPiece} (h : (∃ z ∈ (s.getPart p).heldPieces, z.tier = y.tier ∧ z.die = y.die) ∨
    ((s.getPart p).reg y.tier).on = true ∧ nth 0 ((s.getPart p).reg y.tier).tokens y.die < y.units) :
    (s.offerPiece p y).getPart p = { s.getPart p with heldPieces := (s.getPart p).heldPieces ++ [y] } := by
  unfold State.offerPiece
  rw [if_neg, State.getPart_updPart_same]
  rcases h with ⟨z, hz, htier, hdie⟩ | ⟨hon, hlt⟩
  · have hq : ((s.getPart p).heldPieces.any fun z => z.tier == y.tier && z.die == y.die) = true := List.any_eq_true.2 ⟨z, hz, by simp [htier, hdie]⟩
    simp [hq]
  · simp [Regulator.lets, hon, Nat.not_le.2 hlt]

/-- One that no other waits before passes when its share has the tokens, and draws on a share that is on (R198). -/
theorem State.offerPiece_passes {y : HeldPiece} (hq : ∀ z ∈ (s.getPart p).heldPieces, z.tier ≠ y.tier ∨ z.die ≠ y.die)
    (h : ((s.getPart p).reg y.tier).lets y.die y.units = true) :
    (s.offerPiece p y).getPart p = (s.getPart p).updReg y.tier (Regulator.draw y.die y.units) := by
  have hnone : ((s.getPart p).heldPieces.any fun z => z.tier == y.tier && z.die == y.die) = false := by
    rw [List.any_eq_false]
    intro z hz
    simpa [imp_iff_not_or] using hq z hz
  unfold State.offerPiece
  rw [if_pos (by simp [hnone, h]), State.getPart_updPart_same]

theorem Partition.updReg_draw_on {q : Partition} {tier die u : Nat} (h : (q.reg tier).on = true) :
    q.updReg tier (Regulator.draw die u) = q.updReg tier fun g => { g with tokens := g.tokens.modify die (· - u) } := by
  unfold Partition.updReg Partition.reg at *
  split <;> rename_i ht <;> simp only [ht, if_true, if_false] at h <;> simp [Regulator.draw, h]

theorem Partition.updReg_draw_off {q : Partition} {tier die u : Nat} (h : (q.reg tier).on = false) : q.updReg tier (Regulator.draw die u) = q := by
  unfold Partition.updReg Partition.reg at *
  split <;> rename_i ht <;> simp only [ht, if_true, if_false] at h <;> simp [Regulator.draw, h]

theorem tierOf_hub {a : Nat} (h : hubStart ≤ a) : tierOf a = 3 := by
  have hle : peatStart ≤ a := Nat.le_trans (by decide) h
  rw [tierOf, if_neg (Nat.not_lt.2 hle), if_neg (Nat.not_lt.2 h)]

theorem tierOf_regulated {a : Nat} (h : a < hubStart) : tierOf a = if a < peatStart then 1 else 2 := by
  rw [tierOf, if_pos h]

end

/-! ### A burst that issues (R72, R73, R75, R78) -/

section
variable {s : State} {f p key id : Nat} {r : FrondRec} {x : Stream}

/-- The state in which a burst has taken its place in its stream, and its counters have gone up. -/
def State.burstCounted (f key : Nat) (x : Stream) (s : State) : State :=
  ((s.updStream f x.id fun y => { y with next := y.next + 1 }).frondCount f key 1).frondCount f (key + 1) x.burst

theorem State.burstCounted_getFrond (f key : Nat) (x : Stream) (s : State) : (s.burstCounted f key x).getFrond f = { s.getFrond f with
    streams := (s.getFrond f).streams.map fun y => if y.id = x.id then { y with next := y.next + 1 } else y
    counts := Tab.upd 0 (Tab.upd 0 (s.getFrond f).counts key (satAdd 64 · 1)) (key + 1) (satAdd 64 · x.burst) } := by
  rw [State.burstCounted, State.frondCount_getFrond, State.frondCount_getFrond, State.updStream_getFrond]

theorem State.burstCounted_others (f key : Nat) (x : Stream) (s : State) : OtherFronds s (s.burstCounted f key x) f :=
  ((State.updStream_others f _ _ s).trans (OtherFronds.updFrond f _ _)).trans (OtherFronds.updFrond f _ _)

theorem State.burstCounted_frame (f key : Nat) (x : Stream) (s : State) : s.burstCounted f key x = { s with frond := (s.burstCounted f key x).frond } := rfl

theorem State.burstCounted_streamAt (h : s.streamAt f x.id = some x) :
    (s.burstCounted f key x).streamAt f x.id = some { x with next := x.next + 1 } ∧
    ∀ k, k ≠ x.id → (s.burstCounted f key x).streamAt f k = s.streamAt f k := by
  have hsame : ∀ k, (s.burstCounted f key x).streamAt f k = (s.updStream f x.id fun y => { y with next := y.next + 1 }).streamAt f k := fun k =>
    State.streamAt_congr (by rw [State.burstCounted_getFrond, State.updStream_getFrond]) k
  refine ⟨?_, fun k hk => ?_⟩
  · rw [hsame]; exact State.streamAt_updStream_same (fun _ => rfl) h
  · rw [hsame]; exact State.streamAt_updStream_ne (g := fun y => { y with next := y.next + 1 }) (fun _ => rfl) hk

theorem State.issueBurst_ok (h : s.farOk p (x.farOf x.next) x.burst = true) :
    s.issueBurst f p r x key = (s.burstCounted f key x).offerBurst p (tierOf (x.farOf x.next)) f x.id x.next x.burst := if_neg (by simp [h])

theorem State.issueBurst_bad (h : s.farOk p (x.farOf x.next) x.burst = false) : s.issueBurst f p r x key =
    s.frondFault f unitSpool 2 (s.slotOf f (r.warden unitSpool)) (wardenPinnule (r.warden unitSpool)) x.pc := if_pos (by simp [h])

/-- A burst that is issued, in the words of O50. -/
theorem State.issueBurst_issued (hx : s.streamAt f x.id = some x) (h : s.farOk p (x.farOf x.next) x.burst = true) :
    BurstIssued s (s.issueBurst f p r x key) f p key x := by
  rw [State.issueBurst_ok h]
  obtain ⟨hplace, hplaces⟩ := State.burstCounted_streamAt (key := key) hx
  have hfrond := State.burstCounted_getFrond f key x s
  have hothers := State.burstCounted_others f key x s
  have hframe := State.burstCounted_frame f key x s
  generalize s.burstCounted f key x = u at *
  have hpart : u.part = s.part := by rw [hframe]
  have hparts : ∀ q, u.getPart q = s.getPart q := fun q => by rw [hframe]; rfl
  obtain ⟨hown, hforeign, hrest⟩ := State.offerBurst_offered p (tierOf (x.farOf x.next)) f x.id x.next x.burst u
  have hhub : tierOf (x.farOf x.next) = 3 → u.offerBurst p (tierOf (x.farOf x.next)) f x.id x.next x.burst = u := fun h => if_pos h
  have hone : ∀ tier, tier = tierOf (x.farOf x.next) → tier ≠ 3 → 0 < x.burst → x.burst ≤ 2048 →
      u.offerBurst p (tierOf (x.farOf x.next)) f x.id x.next x.burst = u.offerPiece p ⟨tier, frondDie f, f, x.id, x.next, x.burst / 64⟩ :=
    fun tier ht hne h0 hle => by rw [← ht]; exact State.offerBurst_one hne h0 hle
  generalize u.offerBurst p (tierOf (x.farOf x.next)) f x.id x.next x.burst = t at *
  have hfronds : ∀ g, t.getFrond g = u.getFrond g := fun g => by rw [hrest]; rfl
  refine ⟨(State.streamAt_congr (by rw [hfronds]) _).trans hplace, fun k hk => (State.streamAt_congr (by rw [hfronds]) _).trans (hplaces k hk), ?_,
    fun h => ?_, fun tier die n q hlt htier hdie hn h0 hle hq => ?_, ?_, fun g hg => (hfronds g).trans (hothers g hg),
    fun q hq => (hforeign q hq).trans (hparts q), ?_⟩
  · rw [hfronds, hfrond]
  · rw [hhub (tierOf_hub h), hpart]
  · have htier' : tier = tierOf (x.farOf x.next) := htier.trans (tierOf_regulated hlt).symm
    have hne : tier ≠ 3 := by rw [htier]; split <;> decide
    rw [hone tier htier' hne h0 hle]
    subst hq hdie hn
    rw [← hparts p]
    refine ⟨fun h => State.offerPiece_held h, fun hfree hon hle => ?_, fun hfree hoff => ?_⟩
    · rw [State.offerPiece_passes hfree (by simp [Regulator.lets, hle])]
      exact Partition.updReg_draw_on hon
    · rw [State.offerPiece_passes hfree (by simp [Regulator.lets, hoff])]
      exact Partition.updReg_draw_off hoff
  · rw [hown, hparts]
  · rw [hrest, hframe]

end

end Sys2Proof.Machine
end

section
/-! SUPPORT. Bursts of the spool engine: what one lands, the errors of an access, the tokens in burst order, and slots that are released. -/

namespace Sys2Proof.Machine

/-! ### What a burst lands (R70, R91, R105, R106, R203) -/

section
variable {s t : State} {f addr convert a : Nat} {ue : List Nat} {bs : List Byte}

/-- A part of a piece of a list. -/
theorem take_drop_piece {α : Type} {l : List α} {k o j n : Nat} (h : j + n ≤ k) : (l.drop (o + j)).take n = (((l.drop o).take k).drop j).take n := by
  rw [List.drop_take, List.take_take, List.drop_drop, Nat.min_eq_left (by omega)]

/-- A word whose bytes are part of a write is read back. -/
theorem State.fsWord_of_bytes {w : Word} {o : Nat} {ws : List Byte} (hw : (ws.drop o).take 4 = leBytes 4 w.toNat) (ho : o + 4 ≤ ws.length)
    (ht : t.store = (s.fsWrite f addr ws).store) : t.fsWord f (addr + o) = w := by
  rw [State.fsWord_congr ht, State.fsWord, State.fsRead_fsWrite_part _ _ _ ho, hw]
  show BitVec.ofNat 32 (leNat (leBytes 4 w.toNat)) = w
  rw [leNat_leBytes_word, BitVec.ofNat_toNat, BitVec.setWidth_eq]

/-- The poison of a 64-byte word (R203). -/
def poisonBytes : List Byte := (List.replicate 16 0xDEADF00D).flatMap (leBytes 4)

/-- Word i of a raw landing. -/
def landedWord (a : Nat) (ue : List Nat) (bs : List Byte) (i : Nat) : List Byte :=
  if rangeBad a ue (64 * i) 64 then poisonBytes else (bs.drop (64 * i)).take 64

theorem poisonBytes_length : poisonBytes.length = 64 := by
  rw [poisonBytes, length_flatMap_const fun _ _ => leBytes_length 4 _, List.length_replicate]

theorem landedWord_length {i : Nat} (hi : i < bs.length / 64) : (landedWord a ue bs i).length = 64 := by
  unfold landedWord
  refine ite_holds (P := fun l : List Byte => l.length = 64) poisonBytes_length ?_
  rw [List.length_take, List.length_drop]
  omega

theorem landRaw_eq (a : Nat) (ue : List Nat) (bs : List Byte) : landRaw a ue bs = (List.range (bs.length / 64)).flatMap (landedWord a ue bs) := rfl

theorem landRaw_piece {i : Nat} (hi : i < bs.length / 64) :
    64 * i + 64 ≤ (landRaw a ue bs).length ∧ ((landRaw a ue bs).drop (64 * i)).take 64 = landedWord a ue bs i := by
  have hlen : ∀ i ∈ List.range (bs.length / 64), (landedWord a ue bs i).length = 64 := fun i hi => landedWord_length (List.mem_range.1 hi)
  rw [landRaw_eq, length_flatMap_const hlen, take_drop_flatMap_const hlen (x := i) (by simp [hi]), List.length_range]
  exact ⟨by omega, rfl⟩

theorem poisonBytes_word {j : Nat} (hj : j < 16) : (poisonBytes.drop (4 * j)).take 4 = leBytes 4 (0xDEADF00D#32).toNat :=
  take_drop_flatMap_const (x := 0xDEADF00D) (fun _ _ => leBytes_length 4 _) (by rw [List.getElem?_replicate, if_pos hj])

theorem landBlock_length (fmt a : Nat) (ue : List Nat) (bs : List Byte) (g b : Nat) : (landBlock fmt a ue bs g b).1.length = 32 := by
  unfold landBlock
  dsimp only
  split
  · simp
  · rw [widenBlock_length, unpackElems_length]

/-- The words of the blocks in order. -/
theorem landBlocks_words (fmt a : Nat) (ue : List Nat) (bs : List Byte) : (landBlocks fmt a ue bs).flatMap (·.1) =
    (List.range (bs.length / blockGroup fmt)).flatMap fun g => (List.range 64).flatMap fun b => (landBlock fmt a ue bs g b).1 := by
  rw [landBlocks, List.flatMap_assoc]
  simp only [List.flatMap_map]

theorem landBlocks_nth {fmt g b i : Nat} (hg : g < bs.length / blockGroup fmt) (hb : b < 64) (hi : i < 32) :
    2048 * g + 32 * b + i < ((landBlocks fmt a ue bs).flatMap (·.1)).length ∧
    nth 0 ((landBlocks fmt a ue bs).flatMap (·.1)) (2048 * g + 32 * b + i) = nth 0 (landBlock fmt a ue bs g b).1 i := by
  have hgroup : ∀ g, ((List.range 64).flatMap fun b => (landBlock fmt a ue bs g b).1).length = 2048 := fun g => by
    rw [length_flatMap_const fun b _ => landBlock_length fmt a ue bs g b, List.length_range]
  rw [landBlocks_words, length_flatMap_const fun g _ => hgroup g, List.length_range]
  have hlt : 2048 * g + 32 * b + i < 2048 * (bs.length / blockGroup fmt) := by omega
  refine ⟨hlt, ?_⟩
  have hdiv : (2048 * g + 32 * b + i) / 2048 = g := by omega
  have hmod : (2048 * g + 32 * b + i) % 2048 = 32 * b + i := by omega
  have hdiv' : (32 * b + i) / 32 = b := by omega
  have hmod' : (32 * b + i) % 32 = i := by omega
  rw [nth_flatMap_range (by decide) hgroup hlt, hdiv, hmod,
    nth_flatMap_range (by decide) (fun b => landBlock_length fmt a ue bs g b) (by omega), hdiv', hmod']

/-- A burst has landed where its landing was written. -/
theorem BurstLanded.of_write (ht : t.store = (s.fsWrite f addr (landing convert a ue bs).1).store) : BurstLanded t f addr convert a ue bs := by
  refine ⟨fun hconv hlen i hi => ?_, fun fmt g b i so eo hconv hfmt hg hb hi hso heo => ?_, fun hconv i hi => ?_⟩
  · have hland : (landing convert a ue bs).1 = landRaw a ue bs := by rw [landing, if_pos hconv]
    obtain ⟨hle, hpiece⟩ := landRaw_piece (a := a) (ue := ue) hi
    rw [hland] at ht
    refine ⟨fun hok => ?_, fun hbad j hj => ?_⟩
    · rw [State.fsRead_congr ht, State.fsRead_fsWrite_part _ _ _ hle, hpiece, landedWord, hok, slice_of_le (by omega)]
      rfl
    · rw [Nat.add_assoc]
      refine State.fsWord_of_bytes ?_ (by omega) ht
      rw [take_drop_piece (k := 64) (by omega), hpiece, landedWord, if_pos hbad]
      exact poisonBytes_word hj
  · have hland : (landing convert a ue bs).1 = wordBytes ((landBlocks fmt a ue bs).flatMap (·.1)) := by
      rw [landing, if_neg (by omega), if_pos hconv, hfmt]
    obtain ⟨hlt, hnth⟩ := landBlocks_nth (a := a) (ue := ue) hg hb hi
    rw [State.fsWord_congr ht, hland, State.fsWord_fsWrite_wordBytes hlt, hnth, landBlock]
    rw [← hso, ← heo]
    split
    · exact List.getD_replicate _ hi
    · rfl
  · have hland : (landing convert a ue bs).1 = wordBytes (landHalves (convert - 1) a ue bs) := by
      rw [landing, if_neg (by omega), if_neg (by omega)]
    have hlen : i < (landHalves (convert - 1) a ue bs).length := by rw [landHalves, List.length_map, List.length_range]; exact hi
    rw [State.fsWord_congr ht, hland, State.fsWord_fsWrite_wordBytes hlen, landHalves, nth_map_range _ _ hi]

end

/-! ### Errors of an access (R164, R201 to R204) -/

section
variable {s t : State} {p a : Nat} {ue ce : List Nat}

/-- From s to t memory errors have counted: that changes neither fronds nor partitions nor memories. -/
def State.ErrorsCounted (s t : State) : Prop :=
  t = { s with faults := t.faults, links := { s.links with port := t.links.port }, irq := t.irq, pcie := t.pcie, out := t.out, mem := t.mem, test := t.test }

theorem State.ErrorsCounted.trans {u : State} (h : s.ErrorsCounted t) (k : t.ErrorsCounted u) : s.ErrorsCounted u := by
  unfold State.ErrorsCounted at *; rw [k, h]

theorem State.faultEvent_errorsCounted (c u lane addr : Nat) (s : State) : s.ErrorsCounted (s.faultEvent c u lane addr) :=
  State.faultEvent_frame c u lane addr s

theorem State.raise_errorsCounted (c : Cause) (s : State) : s.ErrorsCounted (s.raise c) := by
  unfold State.ErrorsCounted; rw [State.raise_frame]

theorem State.ErrorsCounted.of_mem {v : State} (h : v = { s with mem := v.mem }) : s.ErrorsCounted v := by
  unfold State.ErrorsCounted; rw [h]

theorem State.memCe_errorsCounted (u : MemUnit) (s : State) : s.ErrorsCounted (s.memCe u) := by
  cases u with
  | hbm st q => exact (State.ErrorsCounted.of_mem rfl).trans (State.faultEvent_errorsCounted _ _ _ _ _)
  | peat k => exact (State.ErrorsCounted.of_mem rfl).trans (State.faultEvent_errorsCounted _ _ _ _ _)
  | hub => exact (State.ErrorsCounted.of_mem rfl).trans (State.faultEvent_errorsCounted _ _ _ _ _)
  | host => exact State.ErrorsCounted.of_mem rfl

theorem State.memUe_errorsCounted (u : MemUnit) (addr : Nat) (s : State) : s.ErrorsCounted (s.memUe u addr) := by
  cases u with
  | hbm st q => exact ((State.ErrorsCounted.of_mem rfl).trans (State.faultEvent_errorsCounted _ _ _ _ _)).trans (State.raise_errorsCounted _ _)
  | peat k => exact ((State.ErrorsCounted.of_mem rfl).trans (State.faultEvent_errorsCounted _ _ _ _ _)).trans (State.raise_errorsCounted _ _)
  | hub => exact ((State.ErrorsCounted.of_mem rfl).trans (State.faultEvent_errorsCounted _ _ _ _ _)).trans (State.raise_errorsCounted _ _)
  | host => exact State.ErrorsCounted.of_mem rfl

theorem State.memEvent_errorsCounted (e : MemEvent) (s : State) : s.ErrorsCounted (s.memEvent e) := by
  unfold State.memEvent
  split
  · exact State.memUe_errorsCounted _ _ s
  · exact State.memCe_errorsCounted _ s

theorem State.memEvents_errorsCounted (es : List MemEvent) (s : State) : s.ErrorsCounted (s.memEvents es) :=
  forAll_inv (fun u => s.ErrorsCounted u) _ _ s rfl fun e _ _ h => h.trans (State.memEvent_errorsCounted e _)

/-- The errors of an access, and MEM in the vote where one was uncorrected. -/
def State.accessErrors (p : Nat) (es : List MemEvent) (ue : List Nat) (s : State) : State :=
  if ue.isEmpty then s.memEvents es else (s.memEvents es).setMem p

theorem State.readErrors_eq (p a : Nat) (ue ce : List Nat) (s : State) : s.readErrors p a ue ce =
    s.accessErrors p ((ce.map fun o => ⟨unitAt (a + o), none⟩) ++ ue.map fun o => ⟨unitAt (a + o), some 0⟩) ue := rfl

theorem State.writeErrors_eq (p a : Nat) (ue : List Nat) (s : State) : s.writeErrors p a ue =
    s.accessErrors p (ue.map fun o => ⟨unitAt (a + o), some (a + o)⟩) ue := rfl

/-- What the errors of an access leave. -/
theorem State.accessErrors_spec (hpat : (s.getPart p).pat = .running) (es : List MemEvent) (ue : List Nat) :
    (ue ≠ [] → (s.accessErrors p es ue).getPart p = { s.getPart p with run := { (s.getPart p).run with mem := true } }) ∧
    (ue = [] → (s.accessErrors p es ue).part = s.part) ∧ (∀ q, q ≠ p → (s.accessErrors p es ue).getPart q = s.getPart q) ∧
    (es = [] → ue = [] → s.accessErrors p es ue = s) ∧
    s.accessErrors p es ue = { s with
      part := (s.accessErrors p es ue).part, faults := (s.accessErrors p es ue).faults
      links := { s.links with port := (s.accessErrors p es ue).links.port }, irq := (s.accessErrors p es ue).irq
      pcie := (s.accessErrors p es ue).pcie, out := (s.accessErrors p es ue).out, mem := (s.accessErrors p es ue).mem
      test := (s.accessErrors p es ue).test } := by
  have hcounted := State.memEvents_errorsCounted es s
  have hnone : es = [] → s.memEvents es = s := fun h => by rw [h]; rfl
  unfold State.accessErrors
  generalize s.memEvents es = u at *
  have hparts : ∀ q, u.getPart q = s.getPart q := fun q => by rw [hcounted]; rfl
  cases ue with
  | nil => exact ⟨fun h => absurd rfl h, fun _ => by rw [hcounted]; rfl, fun q _ => hparts q, fun h _ => hnone h, by rw [hcounted]; rfl⟩
  | cons e ue =>
    have hset : u.setMem p = u.updRun p fun r => { r with mem := true } := if_pos (by rw [hparts]; exact hpat)
    have hif : (if (e :: ue).isEmpty = true then u else u.setMem p) = u.updRun p fun r => { r with mem := true } := hset
    rw [hif]
    refine ⟨fun _ => ?_, fun h => absurd h (List.cons_ne_nil _ _), fun q hq => ?_, fun _ h => absurd h (List.cons_ne_nil _ _), ?_⟩
    · rw [State.updRun, State.getPart_updPart_same, hparts]
    · rw [State.updRun, State.getPart_updPart_ne _ _ _ _ hq, hparts]
    · rw [hcounted]; rfl

end

/-! ### Tokens in burst order (R72, R130, R131) -/

section
variable {s t u : State} {f id : Nat} {x : Stream}

/-- A noted vote leaves MEM. -/
theorem State.noteVote_mem (p q : Nat) (s : State) : ((s.noteVote p).getPart q).run.mem = (s.getPart q).run.mem := by
  by_cases h : q = p
  · subst h; rw [State.noteVote_getPart_same]
  · rw [State.noteVote_getPart_ne h]

theorem State.updRun_mem {g : Run → Run} (hg : ∀ r, (g r).mem = r.mem) (p q : Nat) (s : State) :
    ((s.updRun p g).getPart q).run.mem = (s.getPart q).run.mem := by
  by_cases h : q = p
  · subst h; rw [State.updRun, State.getPart_updPart_same]; exact hg _
  · rw [State.updRun, State.getPart_updPart_ne _ _ _ _ h]

/-- A warden that goes on leaves MEM. -/
theorem State.wakeWarden_mem (f w q : Nat) (s : State) : ((s.wakeWarden f w).getPart q).run.mem = (s.getPart q).run.mem := by
  have hset : ((s.setWait f w none).getPart q).run.mem = (s.getPart q).run.mem := rfl
  have hrecord : ∀ (p es : Nat) (u : State), ((u.recordIssue p es).getPart q).run.mem = (u.getPart q).run.mem := fun p es u =>
    State.updRun_mem (by intro r; rfl) p q u
  unfold State.wakeWarden
  split
  · exact ite_holds (P := fun u : State => (u.getPart q).run.mem = (s.getPart q).run.mem) ((hrecord _ _ _).trans hset) rfl
  · refine ite_holds (P := fun u : State => (u.getPart q).run.mem = (s.getPart q).run.mem) ?_ rfl
    rw [State.commitBy, State.noteVote_mem, State.updRun_mem (by intro r; rfl), hrecord, hset]
  · rfl

theorem State.raiseToken_mem (f k q : Nat) (s : State) : ((s.raiseToken f k).getPart q).run.mem = (s.getPart q).run.mem :=
  forAll_inv (fun u : State => (u.getPart q).run.mem = (s.getPart q).run.mem) _ _ (s.countToken f k) rfl
    fun w _ u hu => (State.wakeWarden_mem f w q u).trans hu

/-- A warden that goes on stalls on nothing, or stays as it was. -/
theorem State.wakeWarden_waits (f w v : Nat) (s : State) : (s.wakeWarden f v).waitOf f w = s.waitOf f w ∨ (s.wakeWarden f v).waitOf f w = none := by
  have hset : (s.setWait f v none).waitOf f w = s.waitOf f w ∨ (s.setWait f v none).waitOf f w = none := by
    by_cases h : w = v
    · subst h; exact .inr (State.waitOf_setWait f w none s)
    · refine .inl ?_
      rw [State.waitOf, State.setWait_getFrond]
      exact Tab.get_set_ne none (s.getFrond f).wait none h
  unfold State.wakeWarden
  split
  · exact ite_holds (P := fun u : State => u.waitOf f w = s.waitOf f w ∨ u.waitOf f w = none) hset (.inl rfl)
  · refine ite_holds (P := fun u : State => u.waitOf f w = s.waitOf f w ∨ u.waitOf f w = none) ?_ (.inl rfl)
    rw [State.commitBy, State.waitOf, State.noteVote_getFrond]
    exact hset
  · exact .inl rfl

theorem State.raiseToken_waits (f k w : Nat) (s : State) : (s.raiseToken f k).waitOf f w = s.waitOf f w ∨ (s.raiseToken f k).waitOf f w = none := by
  refine forAll_inv (fun u : State => u.waitOf f w = s.waitOf f w ∨ u.waitOf f w = none) _ _ (s.countToken f k) (.inl ?_) fun v _ u hu => ?_
  · exact State.waitOf_congr (by rw [State.countToken_getFrond]) w
  · rcases State.wakeWarden_waits f w v u with h | h
    · rw [h]; exact hu
    · exact .inr h

/-- From s to t streams of frond f have moved on and tokens of it have been raised: of its partition that changes the run alone, and there not MEM;
where no warden stalls it changes no partition. -/
def SpoolMoved (s t : State) (f : Nat) : Prop :=
  t.getFrond f = { s.getFrond f with streams := (t.getFrond f).streams, token := (t.getFrond f).token, wait := (t.getFrond f).wait } ∧
  OtherFronds s t f ∧ (∀ q, t.getPart q = { s.getPart q with run := (t.getPart q).run }) ∧
  (∀ q, (t.getPart q).run.mem = (s.getPart q).run.mem) ∧ (∀ q, s.owner f ≠ some q → t.getPart q = s.getPart q) ∧
  ((s.getFrond f).wait = [] → (t.getFrond f).wait = [] ∧ t.part = s.part) ∧ t = { s with frond := t.frond, part := t.part }

theorem SpoolMoved.trans (h : SpoolMoved s t f) (k : SpoolMoved t u f) : SpoolMoved s u f := by
  obtain ⟨h1, h2, h3, h4, h5, h6, h7⟩ := h
  obtain ⟨k1, k2, k3, k4, k5, k6, k7⟩ := k
  rw [State.owner_congr h3] at k5
  refine ⟨?_, h2.trans k2, fun q => ?_, fun q => (k4 q).trans (h4 q), fun q hq => (k5 q hq).trans (h5 q hq), fun hw => ?_, ?_⟩
  · rw [k1, h1]
  · rw [k3 q, h3 q]
  · obtain ⟨hwait, hpart⟩ := h6 hw
    obtain ⟨hwait', hpart'⟩ := k6 hwait
    exact ⟨hwait', hpart'.trans hpart⟩
  · rw [k7, h7]

theorem SpoolMoved.of_streams (ht : t = { s with frond := t.frond }) (hf : t.getFrond f = { s.getFrond f with streams := (t.getFrond f).streams })
    (ho : OtherFronds s t f) : SpoolMoved s t f := by
  have hpart : ∀ q, t.getPart q = s.getPart q := fun q => by rw [ht]; rfl
  refine ⟨?_, ho, fun q => by rw [hpart], fun q => by rw [hpart], fun q _ => hpart q, fun hw => ⟨?_, by rw [ht]⟩, ?_⟩
  · rw [hf]
  · rw [hf]; exact hw
  · rw [ht]

theorem State.updStream_moved (f id : Nat) (g : Stream → Stream) (s : State) : SpoolMoved s (s.updStream f id g) f :=
  .of_streams rfl (by rw [State.updStream_getFrond]) (State.updStream_others f id g s)

theorem State.raiseToken_moved (f k : Nat) (s : State) : SpoolMoved s (s.raiseToken f k) f := by
  obtain ⟨hraised, hfrond, hothers, hframe⟩ := State.raiseToken_raisedAfter f k s
  obtain ⟨_, _, hparts, _, _⟩ := State.raiseToken_wakes f k s
  obtain ⟨_, _, _, hquiet, hforeign⟩ := hraised
  refine ⟨?_, hothers, fun q => hparts q, fun q => State.raiseToken_mem f k q s, hforeign, fun hw => ?_, hframe⟩
  · rw [hfrond]
  · obtain ⟨hwait, hpart⟩ := hquiet (.inr hw)
    exact ⟨hwait.trans hw, hpart⟩

/-- The next burst's token is raised. -/
def State.raiseNext (f id : Nat) (x : Stream) (s : State) : State :=
  (s.updStream f id fun y => { y with raised := y.raised + 1, landed := y.landed.erase y.raised }).raiseToken f (x.tokenOf x.raised)

/-- A stream with the next burst's token raised. -/
def Stream.raisedNext (x : Stream) : Stream := { x with raised := x.raised + 1, landed := x.landed.erase x.raised }

theorem State.raiseNext_spec (h : s.streamAt f id = some x) : (s.raiseNext f id x).streamAt f id = some x.raisedNext ∧
    (∀ k, k ≠ id → (s.raiseNext f id x).streamAt f k = s.streamAt f k) ∧
    (∀ k, Tab.get 0 ((s.raiseNext f id x).getFrond f).token k =
      if k = x.tokenOf x.raised then (Tab.get 0 (s.getFrond f).token k + 1) % 2 ^ 32 else Tab.get 0 (s.getFrond f).token k) ∧
    SpoolMoved s (s.raiseNext f id x) f := by
  obtain ⟨u, hu⟩ : ∃ u, u = s.updStream f id fun y => { y with raised := y.raised + 1, landed := y.landed.erase y.raised } := ⟨_, rfl⟩
  have hsame := State.streamAt_updStream_same (g := Stream.raisedNext) (fun _ => rfl) h
  have hother : ∀ k, k ≠ id → (s.updStream f id Stream.raisedNext).streamAt f k = s.streamAt f k := fun k hk =>
    State.streamAt_updStream_ne (g := Stream.raisedNext) (fun _ => rfl) hk
  have hmoved := State.updStream_moved f id Stream.raisedNext s
  have hu' : u = s.updStream f id Stream.raisedNext := hu
  have htoken : (u.getFrond f).token = (s.getFrond f).token := by rw [hu', State.updStream_getFrond]
  have hnext : s.raiseNext f id x = u.raiseToken f (x.tokenOf x.raised) := by rw [State.raiseNext, ← hu]
  obtain ⟨_, hfrond, _, _⟩ := State.raiseToken_raisedAfter f (x.tokenOf x.raised) u
  have hstreams : ((u.raiseToken f (x.tokenOf x.raised)).getFrond f).streams = (u.getFrond f).streams := by rw [hfrond]
  rw [← hu'] at hsame hother hmoved
  rw [hnext]
  refine ⟨(State.streamAt_congr hstreams _).trans hsame, fun k hk => (State.streamAt_congr hstreams _).trans (hother k hk), fun k => ?_,
    hmoved.trans (State.raiseToken_moved f _ u)⟩
  rw [State.raiseToken_count, htoken]
  by_cases hk : k = x.tokenOf x.raised
  · rw [if_pos hk, if_pos hk, hk]
  · rw [if_neg hk, if_neg hk]

theorem State.raiseLanded_stops (h : s.streamAt f id = some x) (hx : x.raised ∉ x.landed) (n : Nat) : s.raiseLanded f id n = s := by
  cases n with
  | zero => rfl
  | succ n => simp [State.raiseLanded, h, hx]

theorem State.raiseLanded_goes (h : s.streamAt f id = some x) (hx : x.raised ∈ x.landed) (n : Nat) :
    s.raiseLanded f id (n + 1) = (s.raiseNext f id x).raiseLanded f id n := by
  simp only [State.raiseLanded, h, List.contains_iff_mem.2 hx, if_true]
  rfl

/-- From s to t the tokens of stream x are raised as far as its bursts have landed without a gap. -/
def LandedRaised (s t : State) (f id : Nat) (x : Stream) : Prop :=
  ∃ (m : Nat) (y : Stream), t.streamAt f id = some y ∧ y = { x with raised := x.raised + m, landed := y.landed } ∧
    (∀ i, x.raised ≤ i → i < x.raised + m → i ∈ x.landed) ∧ x.raised + m ∉ x.landed ∧
    (∀ i, x.raised + m ≤ i → (i ∈ y.landed ↔ i ∈ x.landed)) ∧ (∀ k, k ≠ id → t.streamAt f k = s.streamAt f k) ∧
    (∀ k j, j = ((List.range m).filter fun i => x.tokenOf (x.raised + i) == k).length →
      (j = 0 → Tab.get 0 (t.getFrond f).token k = Tab.get 0 (s.getFrond f).token k) ∧
      (0 < j → Tab.get 0 (t.getFrond f).token k = (Tab.get 0 (s.getFrond f).token k + j) % 2 ^ 32)) ∧
    SpoolMoved s t f

theorem LandedRaised.stop (h : s.streamAt f id = some x) (hx : x.raised ∉ x.landed) : LandedRaised s s f id x := by
  refine ⟨0, x, h, rfl, fun i h1 h2 => absurd h2 (Nat.not_lt.2 h1), hx, fun _ _ => Iff.rfl, fun _ _ => rfl, fun k j hj => ⟨fun _ => rfl, fun hpos => ?_⟩,
    .of_streams rfl rfl fun _ _ => rfl⟩
  rw [hj] at hpos
  exact absurd hpos (Nat.lt_irrefl 0)

/-- Raises of one token from burst 0 on are the first one's and those behind it. -/
theorem count_raises_succ (x : Stream) (m k : Nat) :
    ((List.range (m + 1)).filter fun i => x.tokenOf (x.raised + i) == k).length =
      (if k = x.tokenOf x.raised then 1 else 0) + ((List.range m).filter fun i => x.raisedNext.tokenOf (x.raisedNext.raised + i) == k).length := by
  have hshift : ∀ i, x.tokenOf (x.raised + (i + 1)) = x.raisedNext.tokenOf (x.raisedNext.raised + i) := fun i => by
    rw [show x.raised + (i + 1) = x.raised + 1 + i by omega]; rfl
  rw [List.range_succ_eq_map, List.filter_cons, List.filter_map, Nat.add_zero]
  by_cases hk : k = x.tokenOf x.raised
  · have heq : (x.tokenOf x.raised == k) = true := by simp [hk]
    rw [if_pos hk, if_pos heq, List.length_cons, List.length_map, Nat.add_comm]
    exact congrArg (1 + ·) (congrArg List.length (List.filter_congr fun i _ => congrArg (· == k) (hshift i)))
  · have hne : ¬(x.tokenOf x.raised == k) = true := by simpa using Ne.symm hk
    rw [if_neg hk, if_neg hne, List.length_map, Nat.zero_add]
    exact congrArg List.length (List.filter_congr fun i _ => congrArg (· == k) (hshift i))

theorem LandedRaised.next (h : s.streamAt f id = some x) (hx : x.raised ∈ x.landed) (k : LandedRaised (s.raiseNext f id x) t f id x.raisedNext) :
    LandedRaised s t f id x := by
  obtain ⟨_, hothers, htoken, hmoved⟩ := State.raiseNext_spec h
  obtain ⟨m, y, hy, hyeq, hall, hgap, hrest, hkeep, hcount, hmoved'⟩ := k
  have hraised : x.raisedNext.raised = x.raised + 1 := rfl
  have hsum : x.raisedNext.raised + m = x.raised + (m + 1) := by omega
  rw [hsum] at hall hgap hrest
  have herase : ∀ i, i ≠ x.raised → (i ∈ x.raisedNext.landed ↔ i ∈ x.landed) := fun i hi => List.mem_erase_of_ne hi
  refine ⟨m + 1, y, hy, ?_, fun i h1 h2 => ?_, ?_, fun i hi => ?_, fun k hk => (hkeep k hk).trans (hothers k hk), fun k j hj => ?_, hmoved.trans hmoved'⟩
  · rw [hyeq, hsum]; rfl
  · by_cases hi : i = x.raised
    · rw [hi]; exact hx
    · exact (herase i hi).1 (hall i (by omega) h2)
  · exact fun hin => hgap ((herase _ (by omega)).2 hin)
  · rw [hrest i hi]; exact herase i (by omega)
  · rw [count_raises_succ] at hj
    obtain ⟨hzero, hpos⟩ := hcount k _ rfl
    generalize ((List.range m).filter fun i => x.raisedNext.tokenOf (x.raisedNext.raised + i) == k).length = n at *
    rw [htoken k] at hzero hpos
    by_cases hk : k = x.tokenOf x.raised
    · rw [if_pos hk] at hj hzero hpos
      refine ⟨fun h0 => by omega, fun _ => ?_⟩
      rcases Nat.eq_zero_or_pos n with hn | hn
      · rw [hzero hn]; congr 1; omega
      · rw [hpos hn, Nat.mod_add_mod]; congr 1; omega
    · rw [if_neg hk] at hj hzero hpos
      rw [hj, Nat.zero_add]
      exact ⟨hzero, hpos⟩

/-- The tokens of all bursts that have landed without a gap are raised, in burst order (R72). -/
theorem State.raiseLanded_spec (n : Nat) (h : s.streamAt f id = some x) (hn : x.landed.length ≤ n) : LandedRaised s (s.raiseLanded f id n) f id x := by
  induction n generalizing s x with
  | zero =>
    refine .stop h ?_
    rw [List.length_eq_zero_iff.1 (Nat.le_zero.1 hn)]
    exact List.not_mem_nil
  | succ n ih =>
    by_cases hx : x.raised ∈ x.landed
    · rw [State.raiseLanded_goes h hx]
      refine .next h hx (ih (State.raiseNext_spec h).1 ?_)
      rw [Stream.raisedNext, List.length_erase_of_mem hx]
      omega
    · rw [State.raiseLanded_stops h hx]
      exact .stop h hx

end

end Sys2Proof.Machine
end

section
/-! SUPPORT. Commands of the spool engine: a stream that waits for a place, slots that are released, bursts that land or are taken, and the
statement about them. -/

namespace Sys2Proof.Machine

/-! ### The commands (R69 to R76) -/

section
variable {s : State} {f id p : Nat} {r : FrondRec} {x : Stream}

/-- What a command of a stream does: nothing where the frond has no such stream or its spool engine does not run, and its meaning else. -/
def State.spooled (f id : Nat) (act : Stream → Nat → FrondRec → State) (s : State) : State :=
  match s.streamAt f id, s.unitRuns f unitSpool with
  | some x, some (p, r) => act x p r
  | _, _ => s

theorem State.spooled_idle (h : s.streamAt f id = none ∨ s.unitRuns f unitSpool = none) (act : Stream → Nat → FrondRec → State) :
    s.spooled f id act = s := by
  unfold State.spooled
  split
  · next x p r hx hr =>
    rcases h with h | h
    · exact absurd (hx.symm.trans h) (Option.some_ne_none x)
    · exact absurd (hr.symm.trans h) (Option.some_ne_none (p, r))
  · rfl

theorem State.spooled_runs (hr : s.unitRuns f unitSpool = some (p, r)) (hx : s.streamAt f id = some x) (act : Stream → Nat → FrondRec → State) :
    s.spooled f id act = act x p r := by
  simp only [State.spooled, hr, hx]

/-- A slot that is released, and the stream that retires with the last one (R72, R74). -/
def State.slotReleased (f id : Nat) (r : FrondRec) (s : State) : State :=
  (s.updStream f id fun y => { y with released := y.released + 1 }).retireStream f id r

/-- A read burst that lands (R70, R72, R76, R203). -/
def State.burstLands (f id j : Nat) (ue ce : List Nat) (x : Stream) (p : Nat) (s : State) : State :=
  let a := farAddr p (x.farOf j)
  let l := landing x.convert a ue (s.far.readN a x.burst)
  let s1 := (((s.fsWrite f (x.slotAt j) l.1).countScaleRange p l.2).readErrors p a ue ce).updStream f id fun y => { y with landed := y.landed ++ [j] }
  ((s1.contend f 5).raiseLanded f id (x.landed.length + 1)).noteVote p

/-- A write burst that far memory takes (R73, R74, R204). -/
def State.burstTaken (f id : Nat) (refused : List Nat) (x : Stream) (p : Nat) (r : FrondRec) (s : State) : State :=
  let a := farAddr p (x.farOf x.released)
  let bs := s.acceptedBytes (s.fsRead f (x.slotAt x.released) x.burst) refused
  let s1 := State.writeErrors p a refused { s with far := s.far.writeN a bs, free := if refused.isEmpty then s.free else s.free + x.burst }
  ((((s1.contend f 5).updStream f id fun y => { y with released := y.released + 1 }).raiseToken f (x.tokenOf x.released)).retireStream f id r).noteVote p

theorem exec_spoolBurstStart : exec (.spoolBurstStart f id) s = .next (s.spooled f id fun x p r =>
    if !x.write ∧ x.next < x.count ∧ x.next - x.released < x.depth then s.issueBurst f p r x 8 else s) := rfl

theorem exec_spoolWriteBurst : exec (.spoolWriteBurst f id) s = .next (s.spooled f id fun x p r =>
    if x.write ∧ x.next < x.count ∧ s.producerRaised f x x.next then s.issueBurst f p r x 10 else s) := rfl

theorem exec_spoolBurstLanded (j : Nat) (ue ce : List Nat) : exec (.spoolBurstLanded f id j ue ce) s = .next (s.spooled f id fun x p _ =>
    if !x.write ∧ s.burstOpen p f x j ∧ s.rangeOpen (some (frondDie f)) (farAddr p (x.farOf j)) x.burst then s.burstLands f id j ue ce x p else s) := rfl

theorem exec_spoolSlotRelease : exec (.spoolSlotRelease f id) s = .next (s.spooled f id fun x _ r =>
    if !x.write ∧ x.released < x.raised then s.slotReleased f id r else s) := rfl

theorem exec_spoolWriteAccepted (refused : List Nat) : exec (.spoolWriteAccepted f id refused) s = .next (s.spooled f id fun x p r =>
    if x.write ∧ x.released < x.next ∧ !s.burstHeld p f id x.released ∧ s.rangeOpen (some (frondDie f)) (farAddr p (x.farOf x.released)) x.burst then
      s.burstTaken f id refused x p r else s) := rfl

end

/-! ### Streams that are issued, and that retire (R71, R74) -/

section
variable {s t : State} {f id p w a : Nat} {r : FrondRec} {x : Stream}

/-- The stream of a descriptor. -/
def State.newStream (f w a : Nat) (s : State) : Stream :=
  { streamParse (s.fsRead f a 32) with id := (s.getFrond f).nextStream, pc := s.pcOf f (wardenPinnule w) }

theorem State.openStream_getFrond (f w a : Nat) (s : State) : (s.openStream f w a).getFrond f = { s.getFrond f with
    streams := (s.getFrond f).streams ++ [s.newStream f w a], nextStream := (s.getFrond f).nextStream + 1 } := State.getFrond_updFrond_same _ _ _

theorem State.goStream_bad (h : (spoolBad (s.fsRead f a 32) r.pages).isSome = true) : s.goStream f w a r = s.unitFault f unitSpool w := if_pos h

theorem State.goStream_full (h : spoolBad (s.fsRead f a 32) r.pages = none) (hfull : 64 ≤ (s.getFrond f).streams.length) :
    s.goStream f w a r = s.setWait f w (some (.stream a)) := (if_neg (by simp [h])).trans (if_pos hfull)

theorem State.goStream_opens (h : spoolBad (s.fsRead f a 32) r.pages = none) (hfree : (s.getFrond f).streams.length < 64) :
    s.goStream f w a r = s.openStream f w a := (if_neg (by simp [h])).trans (if_neg (Nat.not_le.2 hfree))

/-- A stream that issues, stalls or faults changes neither tokens nor memories (R77). -/
theorem State.goStream_keeps {q : FrondRec} (h : s.unitRuns f unitSpool = some (p, q)) :
    ((s.goStream f w a r).getFrond f).token = (s.getFrond f).token ∧ (s.goStream f w a r).store = s.store ∧ (s.goStream f w a r).far = s.far ∧
    OtherFronds s (s.goStream f w a r) f := by
  unfold State.goStream
  split
  · have hdealt := State.frondFault_dealt (source := unitSpool) (slot := s.slotOf f w) (pin := wardenPinnule w) (off := s.pcOf f (wardenPinnule w)) h
    obtain ⟨_, hfrond, hothers, _, _, _, _, _, _, _, _, _, _, _, _, _, _, _, _, _, hframe⟩ := hdealt
    exact ⟨by rw [State.unitFault, hfrond], by rw [State.unitFault, hframe], by rw [State.unitFault, hframe], hothers⟩
  · split
    · exact ⟨by rw [State.setWait_getFrond], rfl, rfl, State.setWait_others f w _ s⟩
    · exact ⟨by rw [State.openStream_getFrond], rfl, rfl, OtherFronds.updFrond f _ s⟩

/-- Streams whose last slot is released are gone. -/
def State.retired (f id : Nat) (s : State) : State :=
  s.updFrond f fun x => { x with streams := x.streams.filter fun (y : Stream) => !(y.id == id && decide (y.count ≤ y.released)) }

theorem State.retireStream_eq (f id : Nat) (r : FrondRec) (s : State) : s.retireStream f id r = (s.retired f id).wakeStream f r := rfl

theorem State.retired_getFrond (f id : Nat) (s : State) : (s.retired f id).getFrond f = { s.getFrond f with
    streams := (s.getFrond f).streams.filter fun (y : Stream) => !(y.id == id && decide (y.count ≤ y.released)) } := State.getFrond_updFrond_same _ _ _

theorem State.retired_moved (f id : Nat) (s : State) : SpoolMoved s (s.retired f id) f :=
  .of_streams rfl (by rw [State.retired_getFrond]) (OtherFronds.updFrond f _ s)

/-- Where the spool engine's warden stalls on no stream none issues. -/
theorem State.wakeStream_none (h : ∀ a, s.waitOf f (r.warden unitSpool) ≠ some (.stream a)) : s.wakeStream f r = s := by
  unfold State.wakeStream
  dsimp only
  split
  · next a hwait => exact absurd hwait (h a)
  · rfl

theorem State.wakeStream_stream (h : s.waitOf f (r.warden unitSpool) = some (.stream a)) :
    s.wakeStream f r = (s.setWait f (r.warden unitSpool) none).goStream f (r.warden unitSpool) a r := by
  simp only [State.wakeStream, h]

theorem State.wakeStream_keeps {q : FrondRec} (h : s.unitRuns f unitSpool = some (p, q)) :
    ((s.wakeStream f r).getFrond f).token = (s.getFrond f).token ∧ (s.wakeStream f r).store = s.store ∧ (s.wakeStream f r).far = s.far ∧
    OtherFronds s (s.wakeStream f r) f := by
  unfold State.wakeStream
  dsimp only
  split
  · next a _ =>
    have hset : (s.setWait f (r.warden unitSpool) none).unitRuns f unitSpool = some (p, q) :=
      (State.unitRuns_congr rfl (by rw [State.setWait_getFrond])).trans h
    obtain ⟨htoken, hstore, hfar, hothers⟩ := State.goStream_keeps (w := r.warden unitSpool) (a := a) (r := r) hset
    exact ⟨by rw [htoken, State.setWait_getFrond], hstore, hfar, (State.setWait_others f _ none s).trans hothers⟩
  · exact ⟨rfl, rfl, rfl, fun _ _ => rfl⟩

/-- A search in a list of which other elements are left out. -/
theorem find?_filter_some {α : Type} {l : List α} {q k : α → Bool} {y : α} (h : l.find? q = some y) (hy : k y = true) : (l.filter k).find? q = some y := by
  induction l with
  | nil => cases h
  | cons z l ih =>
    rw [List.find?_cons] at h
    split at h
    · next hz =>
      cases h
      rw [List.filter_cons_of_pos hy, List.find?_cons_of_pos hz]
    · next hz =>
      rw [List.filter_cons]
      split
      · rw [List.find?_cons_of_neg (by simp [hz])]; exact ih h
      · exact ih h

theorem find?_filter_of_imp {α : Type} {l : List α} {q k : α → Bool} (h : ∀ y, q y = true → k y = true) : (l.filter k).find? q = l.find? q := by
  rw [List.find?_filter]
  congr 1
  funext y
  cases hq : q y with
  | false => simp
  | true => simp [h y hq]

/-- What the streams of a frond are once a slot of one has been released: it has one more, or is gone with its last (R72, R74). -/
def SlotLeft (s t : State) (f id : Nat) (x : Stream) : Prop :=
  (x.released + 1 < x.count → t.streamAt f id = some { x with released := x.released + 1 }) ∧
  (x.count ≤ x.released + 1 → ∀ y ∈ (t.getFrond f).streams, y.id = id → y.released < y.count) ∧
  (∀ k, k ≠ id → t.streamAt f k = s.streamAt f k)

theorem SlotLeft.congr {s' t' : State} (hs : (s'.getFrond f).streams = (s.getFrond f).streams) (ht : (t'.getFrond f).streams = (t.getFrond f).streams)
    (h : SlotLeft s t f id x) : SlotLeft s' t' f id x := by
  obtain ⟨h1, h2, h3⟩ := h
  refine ⟨fun hlt => (State.streamAt_congr ht id).trans (h1 hlt), fun hle y hy => h2 hle y (ht ▸ hy), fun k hk => ?_⟩
  rw [State.streamAt_congr ht, h3 k hk, State.streamAt_congr hs]

theorem State.retired_slotLeft {u : State} (hx : s.streamAt f id = some x)
    (hu : (u.getFrond f).streams = ((s.updStream f id fun y => { y with released := y.released + 1 }).getFrond f).streams) :
    SlotLeft s (u.retired f id) f id x := by
  have hsame := State.streamAt_updStream_same (g := fun y => { y with released := y.released + 1 }) (fun _ => rfl) hx
  have hother : ∀ k, k ≠ id → u.streamAt f k = s.streamAt f k := fun k hk => (State.streamAt_congr hu k).trans
    (State.streamAt_updStream_ne (g := fun y => { y with released := y.released + 1 }) (fun _ => rfl) hk)
  rw [← State.streamAt_congr hu] at hsame
  have hstreams : ((u.retired f id).getFrond f).streams =
      (u.getFrond f).streams.filter fun (y : Stream) => !(y.id == id && decide (y.count ≤ y.released)) := by rw [State.retired_getFrond]
  refine ⟨fun hlt => ?_, fun _ y hy hyid => ?_, fun k hk => ?_⟩
  · rw [State.streamAt, hstreams]
    exact find?_filter_some hsame (by simp [hlt])
  · rw [hstreams] at hy
    have hkept := (List.mem_filter.1 hy).2
    simpa [hyid] using hkept
  · rw [State.streamAt, hstreams, find?_filter_of_imp, ← State.streamAt]
    · exact hother k hk
    · intro y hy
      have hyk : y.id = k := by simpa using hy
      simp [hyk, hk]

/-- With its last slot a stream makes room for another (R74). -/
theorem State.retired_room (hx : s.streamAt f id = some x) (hle : x.count ≤ x.released + 1) :
    (((s.updStream f id fun y => { y with released := y.released + 1 }).retired f id).getFrond f).streams.length < (s.getFrond f).streams.length := by
  rw [State.retired_getFrond, State.updStream_getFrond]
  refine Nat.lt_of_lt_of_eq (List.length_filter_lt_length_iff_exists.2 ⟨{ x with released := x.released + 1 }, ?_, ?_⟩) (List.length_map _)
  · exact List.mem_map.2 ⟨x, List.mem_of_find?_eq_some hx, if_pos (State.streamAt_id hx)⟩
  · simp [State.streamAt_id hx, hle]

end

end Sys2Proof.Machine
end

section
/-! SUPPORT. Slots that are released and bursts that far memory takes or that land, as the statement about the spool engine lists them. -/

namespace Sys2Proof.Machine

section
variable {s t u : State} {f id p j : Nat} {r : FrondRec} {x : Stream} {ue ce refused : List Nat}

/-- The owner of a frond depends on which partitions are alive and on their groups. -/
theorem State.owner_of (h : ∀ q, (t.getPart q).alive = (s.getPart q).alive ∧ (t.getPart q).groups = (s.getPart q).groups) (f : Nat) :
    t.owner f = s.owner f := by
  unfold State.owner
  congr 1
  funext q
  rw [(h q).1, (h q).2]

/-! ### A slot that is released (R72, R74) -/

theorem State.slotReleased_spec (hr : s.unitRuns f unitSpool = some (p, r)) (hx : s.streamAt f id = some x) (r' : FrondRec) :
    ((∀ a, s.waitOf f (r'.warden unitSpool) ≠ some (.stream a)) → SlotLeft s (s.slotReleased f id r') f id x ∧
      (s.slotReleased f id r').getFrond f = { s.getFrond f with streams := ((s.slotReleased f id r').getFrond f).streams }) ∧
    (∀ a, s.waitOf f (r'.warden unitSpool) = some (.stream a) → spoolBad (s.fsRead f a 32) r'.pages = none →
      (s.getFrond f).streams.length = 64 → x.count ≤ x.released + 1 → (s.slotReleased f id r').waitOf f (r'.warden unitSpool) = none ∧
      ((s.slotReleased f id r').getFrond f).streams.getLast? = some (s.newStream f (r'.warden unitSpool) a)) ∧
    ((s.slotReleased f id r').getFrond f).token = (s.getFrond f).token ∧ (s.slotReleased f id r').store = s.store ∧
    (s.slotReleased f id r').far = s.far ∧ OtherFronds s (s.slotReleased f id r') f := by
  have hleft := State.retired_slotLeft (u := s.updStream f id fun y => { y with released := y.released + 1 }) hx rfl
  have hroom := State.retired_room (s := s) (f := f) hx
  have hmoved := (State.updStream_moved f id (fun y => { y with released := y.released + 1 }) s).trans (State.retired_moved f id _)
  have hfrond : ((s.updStream f id fun y => { y with released := y.released + 1 }).retired f id).getFrond f = { s.getFrond f with
      streams := (((s.updStream f id fun y => { y with released := y.released + 1 }).retired f id).getFrond f).streams } := by
    rw [State.retired_getFrond, State.updStream_getFrond]
  have hframe : (s.updStream f id fun y => { y with released := y.released + 1 }).retired f id = { s with
      frond := ((s.updStream f id fun y => { y with released := y.released + 1 }).retired f id).frond } := rfl
  rw [State.slotReleased, State.retireStream_eq]
  generalize (s.updStream f id fun y => { y with released := y.released + 1 }).retired f id = u at *
  obtain ⟨_, hothers, _⟩ := hmoved
  have hruns : u.unitRuns f unitSpool = some (p, r) := (State.unitRuns_congr hframe (by rw [hfrond])).trans hr
  have hwaits : u.waitOf f (r'.warden unitSpool) = s.waitOf f (r'.warden unitSpool) := State.waitOf_congr (by rw [hfrond]) _
  have hstore : u.store = s.store := by rw [hframe]
  obtain ⟨htoken, hstore', hfar, hothers'⟩ := State.wakeStream_keeps (r := r') hruns
  refine ⟨fun h => ?_, fun a hwait hok hlen hle => ?_, ?_, hstore'.trans hstore, ?_, hothers.trans hothers'⟩
  · rw [State.wakeStream_none fun a => hwaits ▸ h a]
    exact ⟨hleft, hfrond⟩
  · rw [State.wakeStream_stream (hwaits.trans hwait)]
    obtain ⟨v, hv⟩ : ∃ v, v = u.setWait f (r'.warden unitSpool) none := ⟨_, rfl⟩
    have hvfrond : v.getFrond f = { u.getFrond f with wait := Tab.set none (u.getFrond f).wait (r'.warden unitSpool) none } := by
      rw [hv, State.setWait_getFrond]
    have hvread : v.fsRead f a 32 = s.fsRead f a 32 := State.fsRead_congr (by rw [hv]; exact hstore) f a 32
    have hnew : v.newStream f (r'.warden unitSpool) a = s.newStream f (r'.warden unitSpool) a := by
      rw [State.newStream, State.newStream, hvread, State.pcOf, State.pcOf, hvfrond, hfrond]
    rw [← hv, State.goStream_opens (by rw [hvread]; exact hok) (by rw [hvfrond]; exact Nat.lt_of_lt_of_eq (hroom hle) hlen)]
    refine ⟨(State.waitOf_congr ?_ _).trans (State.waitOf_setWait f (r'.warden unitSpool) none u), ?_⟩
    · rw [State.openStream_getFrond, hv]
    · rw [State.openStream_getFrond, hnew]
      exact List.getLast?_concat
  · rw [htoken, hfrond]
  · rw [hfar, hframe]

/-! ### The errors of a burst that lands -/

/-- The scale-range faults and the memory errors of a burst that lands. -/
theorem State.landingErrors_spec (hpat : (s.getPart p).pat = .running) (n : Nat) (es : List MemEvent) (ue : List Nat)
    (ht : t = (s.countScaleRange p n).accessErrors p es ue) :
    (t.getPart p = { s.getPart p with
      arith := (t.getPart p).arith, arithNow := (t.getPart p).arithNow, run := { (s.getPart p).run with mem := (t.getPart p).run.mem } }) ∧
    (t.getPart p).arith.scaleRange = (if n = 0 then (s.getPart p).arith.scaleRange else satAdd 64 (s.getPart p).arith.scaleRange n) ∧
    (ue ≠ [] → (t.getPart p).run.mem = true) ∧ (n = 0 → ue = [] → t.part = s.part) ∧ (∀ q, q ≠ p → t.getPart q = s.getPart q) ∧
    (n = 0 → es = [] → ue = [] → t = s) ∧
    t = { s with
      part := t.part, faults := t.faults, links := { s.links with port := t.links.port }, irq := t.irq, pcie := t.pcie, out := t.out
      mem := t.mem, test := t.test } := by
  obtain ⟨hzero, hsome⟩ := State.countScaleRange_spec p n s
  generalize s.countScaleRange p n = u at *
  have hupart : u.getPart p = { s.getPart p with arith := (u.getPart p).arith, arithNow := (u.getPart p).arithNow } ∧
      (u.getPart p).arith.scaleRange = (if n = 0 then (s.getPart p).arith.scaleRange else satAdd 64 (s.getPart p).arith.scaleRange n) ∧
      (∀ q, q ≠ p → u.getPart q = s.getPart q) ∧ u = { s with part := u.part, irq := u.irq, pcie := u.pcie, out := u.out } := by
    by_cases hn : n = 0
    · rw [hzero hn, if_pos hn]
      exact ⟨rfl, rfl, fun _ _ => rfl, rfl⟩
    · obtain ⟨_, hothers, hpart, hframe⟩ := hsome hn
      rw [if_neg hn]
      exact ⟨by rw [hpart], by rw [hpart], hothers, hframe⟩
  obtain ⟨hpart, hscale, hothers, hframe⟩ := hupart
  obtain ⟨hbad, hgood, hothers', hnone, hframe'⟩ := State.accessErrors_spec (s := u) (p := p) (by rw [hpart]; exact hpat) es ue
  rw [← ht] at *
  have htpart : t.getPart p = { u.getPart p with run := { (u.getPart p).run with mem := (t.getPart p).run.mem } } := by
    by_cases hue : ue = []
    · have hsame : t.getPart p = u.getPart p := by rw [State.getPart, hgood hue]; rfl
      rw [hsame]
    · rw [hbad hue]
  refine ⟨?_, ?_, fun hue => by rw [hbad hue], fun hn hue => ?_, fun q hq => (hothers' q hq).trans (hothers q hq), fun hn hes hue => ?_, ?_⟩
  · rw [htpart, hpart]
  · rw [htpart, hscale]
  · rw [hgood hue, hzero hn]
  · rw [hnone hes hue, hzero hn]
  · rw [hframe', hframe]

/-! ### A read burst that lands (R70, R72, R76, R203) -/

/-- The state in which a burst has been written to its slot, with its errors counted and its access, before tokens are raised. -/
def State.burstWritten (f id j : Nat) (ue ce : List Nat) (x : Stream) (p : Nat) (s : State) : State :=
  let a := farAddr p (x.farOf j)
  let l := landing x.convert a ue (s.far.readN a x.burst)
  ((((s.fsWrite f (x.slotAt j) l.1).countScaleRange p l.2).readErrors p a ue ce).updStream f id fun y => { y with landed := y.landed ++ [j] }).contend f 5

theorem State.burstLands_eq (f id j : Nat) (ue ce : List Nat) (x : Stream) (p : Nat) (s : State) : s.burstLands f id j ue ce x p =
    ((s.burstWritten f id j ue ce x p).raiseLanded f id (x.landed.length + 1)).noteVote p := rfl

/-- What a burst that has been written leaves. -/
theorem State.burstWritten_spec {l : List Byte × Nat} (hr : s.unitRuns f unitSpool = some (p, r)) (hx : s.streamAt f id = some x)
    (hl : l = landing x.convert (farAddr p (x.farOf j)) ue (s.far.readN (farAddr p (x.farOf j)) x.burst)) (ht : t = s.burstWritten f id j ue ce x p) :
    t.store = (s.fsWrite f (x.slotAt j) l.1).store ∧ t.streamAt f id = some { x with landed := x.landed ++ [j] } ∧
    (∀ k, k ≠ id → t.streamAt f k = s.streamAt f k) ∧
    t.getFrond f = { s.getFrond f with
      streams := (t.getFrond f).streams, counts := Tab.upd 0 (s.getFrond f).counts 5 (satAdd 64 · (Config.conflictCycles s.free)) } ∧
    OtherFronds s t f ∧ (∀ q, q ≠ p → t.getPart q = s.getPart q) ∧ t.owner f = some p ∧
    (t.getPart p).arith.scaleRange = (if l.2 = 0 then (s.getPart p).arith.scaleRange else satAdd 64 (s.getPart p).arith.scaleRange l.2) ∧
    (t.getPart p).pat = .running ∧ (ue ≠ [] → (t.getPart p).run.mem = true) ∧ (ue = [] → l.2 = 0 → t.part = s.part) ∧
    (ue = [] → ce = [] → l.2 = 0 → t = { s with store := t.store, frond := t.frond, free := s.free + 1 }) ∧
    t.far = s.far ∧ t.localStore = s.localStore ∧ t.sync = s.sync := by
  obtain ⟨hown, hpat⟩ := State.unitRuns_owner hr
  obtain ⟨u, hu⟩ : ∃ u, u = s.fsWrite f (x.slotAt j) l.1 := ⟨_, rfl⟩
  have huframe : u = { s with store := u.store } := by rw [hu, State.fsWrite_frame]
  have huparts : ∀ q, u.getPart q = s.getPart q := fun q => by rw [huframe]; rfl
  obtain ⟨e, he⟩ : ∃ e, e = (u.countScaleRange p l.2).readErrors p (farAddr p (x.farOf j)) ue ce := ⟨_, rfl⟩
  obtain ⟨hpart, hscale, hbad, hgood, hothers, hnone, heframe⟩ := State.landingErrors_spec (by rw [huparts]; exact hpat) l.2 _ ue
    (he.trans (State.readErrors_eq p _ ue ce _))
  have hefronds : ∀ g, e.getFrond g = s.getFrond g := fun g => by rw [heframe, huframe]; rfl
  have htdef : t = (e.updStream f id fun y => { y with landed := y.landed ++ [j] }).contend f 5 := by rw [ht, State.burstWritten, he, hu, hl]
  have hefree : e.free = s.free := by rw [heframe, huframe]
  have htfrond : t.getFrond f = { s.getFrond f with
      streams := (s.getFrond f).streams.map fun y => if y.id = id then { y with landed := y.landed ++ [j] } else y
      counts := Tab.upd 0 (s.getFrond f).counts 5 (satAdd 64 · (Config.conflictCycles s.free)) } := by
    rw [htdef, State.contend_getFrond, State.updStream_getFrond, hefronds, ← hefree]
    rfl
  have htframe : t = { e with frond := t.frond, free := e.free + 1 } := by rw [htdef]; rfl
  have htparts : ∀ q, t.getPart q = e.getPart q := fun q => by rw [htframe]; rfl
  have hstreams : (t.getFrond f).streams = ((s.updStream f id fun y => { y with landed := y.landed ++ [j] }).getFrond f).streams := by
    rw [htfrond, State.updStream_getFrond]
  rw [huparts] at hpart hscale
  refine ⟨?_, ?_, fun k hk => ?_, ?_, fun g hg => ?_, fun q hq => ?_, ?_, ?_, ?_, fun hue => ?_, fun hue hn => ?_, fun hue hce hn => ?_, ?_, ?_, ?_⟩
  · rw [htframe, heframe, hu]
  · exact (State.streamAt_congr hstreams id).trans (State.streamAt_updStream_same (g := fun y => { y with landed := y.landed ++ [j] }) (fun _ => rfl) hx)
  · exact (State.streamAt_congr hstreams k).trans (State.streamAt_updStream_ne (g := fun y => { y with landed := y.landed ++ [j] }) (fun _ => rfl) hk)
  · rw [htfrond]
  · rw [htdef, State.contend_others f 5 _ g hg, State.updStream_others f id _ _ g hg, hefronds]
  · rw [htparts, hothers q hq, huparts]
  · refine (State.owner_of (fun q => ?_) f).trans hown
    by_cases hq : q = p
    · rw [htparts, hq, hpart]; exact ⟨rfl, rfl⟩
    · rw [htparts, hothers q hq, huparts]; exact ⟨rfl, rfl⟩
  · rw [htparts, hscale]
  · rw [htparts, hpart]; exact hpat
  · rw [htparts]; exact hbad hue
  · have hsame : t.part = e.part := by rw [htframe]
    rw [hsame, hgood hn hue, huframe]
  · have hsame : e = u := hnone hn (by rw [hue, hce]; rfl) hue
    rw [htframe, hsame, huframe]
  · rw [htframe, heframe, huframe]
  · rw [htframe, heframe, huframe]
  · rw [htframe, heframe, huframe]

/-- A burst lands: what was written is there, and the tokens of all bursts that have landed without a gap are raised, in burst order. -/
theorem State.burstLands_spec {l : List Byte × Nat} (hr : s.unitRuns f unitSpool = some (p, r)) (hx : s.streamAt f id = some x)
    (hl : l = landing x.convert (farAddr p (x.farOf j)) ue (s.far.readN (farAddr p (x.farOf j)) x.burst)) (ht : t = s.burstLands f id j ue ce x p) :
    t.store = (s.fsWrite f (x.slotAt j) l.1).store ∧ BurstsRaised s t f j x ∧
    t.getFrond f = { s.getFrond f with
      streams := (t.getFrond f).streams, token := (t.getFrond f).token, wait := (t.getFrond f).wait
      counts := Tab.upd 0 (s.getFrond f).counts 5 (satAdd 64 · (Config.conflictCycles s.free)) } ∧
    (ue ≠ [] → (t.getPart p).run.mem = true) ∧
    (t.getPart p).arith.scaleRange = (if l.2 = 0 then (s.getPart p).arith.scaleRange else satAdd 64 (s.getPart p).arith.scaleRange l.2) ∧
    (ue = [] → l.2 = 0 → (s.getFrond f).wait = [] → VoteNoted s t p) ∧
    (ue = [] → ce = [] → l.2 = 0 → t = { s with store := t.store, frond := t.frond, part := t.part, free := s.free + 1 }) ∧
    (∀ q, q ≠ p → t.getPart q = s.getPart q) ∧ OtherFronds s t f ∧ t.far = s.far ∧ t.localStore = s.localStore := by
  rw [State.burstLands_eq] at ht
  obtain ⟨hstore, hstream, hstreams, hfrond, hothers, hparts, hown, hscale, _, hbad, hgood, hplain, hfar, hlocal, hsync⟩ :=
    State.burstWritten_spec (ce := ce) hr hx hl rfl
  generalize s.burstWritten f id j ue ce x p = u at *
  obtain ⟨m, y, hy, hyeq, hall, hgap, hrest, hkeep, hcount, hfrond', hothers', hparts', hmem, hforeign, hquiet, hframe⟩ :=
    State.raiseLanded_spec (x.landed.length + 1) hstream (by simp)
  generalize u.raiseLanded f id (x.landed.length + 1) = v at *
  have hfronds : ∀ g, t.getFrond g = v.getFrond g := fun g => by rw [ht, State.noteVote_getFrond]
  have hsame : ∀ k, t.streamAt f k = v.streamAt f k := fun k => State.streamAt_congr (by rw [hfronds]) k
  have hid := State.streamAt_id hx
  have htoken : (u.getFrond f).token = (s.getFrond f).token := by rw [hfrond]
  have hwait : (u.getFrond f).wait = (s.getFrond f).wait := by rw [hfrond]
  have htframe := State.noteVote_frame p v
  rw [← ht] at htframe
  refine ⟨?_, ⟨m, y, ?_, hyeq, hall, hgap, hrest, fun k hk => ?_, fun k n hn => ?_⟩, ?_, fun hue => ?_, ?_, fun hue hn hw => ?_, fun hue hce hn => ?_,
    fun q hq => ?_, fun g hg => ?_, ?_, ?_⟩
  · rw [htframe, hframe, hstore]
  · rw [hid, hsame]; exact hy
  · rw [hsame, hkeep k (hid ▸ hk), hstreams k (hid ▸ hk)]
  · rw [hfronds, ← htoken]; exact hcount k n hn
  · rw [hfronds, hfrond', hfrond]
  · rw [ht, State.noteVote_mem, hmem]; exact hbad hue
  · rw [ht, State.noteVote_getPart_same, hparts', ← hscale]
  · rw [ht]
    refine State.noteVote_noted (State.unitRuns_owner hr).2 ?_ ?_
    · rw [(hquiet (hwait.trans hw)).2, hgood hue hn]
    · rw [hframe, hsync]
  · rw [htframe, hframe, hplain hue hce hn]
  · rw [ht, State.noteVote_getPart_ne hq, hforeign q, hparts q hq]
    rw [hown]
    exact fun h => hq (Option.some.inj h).symm
  · rw [hfronds, hothers' g hg, hothers g hg]
  · rw [htframe, hframe, hfar]
  · rw [htframe, hframe, hlocal]

/-! ### A write burst that far memory takes (R73, R74, R204) -/

theorem State.acceptedBytes_length (s : State) (bs : List Byte) (refused : List Nat) : (s.acceptedBytes bs refused).length = bs.length := by
  simp [State.acceptedBytes]

/-- The state in which far memory has taken a burst, with its errors counted and its access. -/
def State.burstWrote (f : Nat) (refused : List Nat) (x : Stream) (p : Nat) (s : State) : State :=
  let a := farAddr p (x.farOf x.released)
  let bs := s.acceptedBytes (s.fsRead f (x.slotAt x.released) x.burst) refused
  (State.writeErrors p a refused { s with far := s.far.writeN a bs, free := if refused.isEmpty then s.free else s.free + x.burst }).contend f 5

theorem State.burstTaken_eq (f id : Nat) (refused : List Nat) (x : Stream) (p : Nat) (r : FrondRec) (s : State) : s.burstTaken f id refused x p r =
    (((((s.burstWrote f refused x p).updStream f id fun y => { y with released := y.released + 1 }).raiseToken f (x.tokenOf x.released)).retired f id
      ).wakeStream f r).noteVote p := rfl

theorem State.burstWrote_spec (hr : s.unitRuns f unitSpool = some (p, r)) (ht : t = s.burstWrote f refused x p) :
    t.far = s.far.writeN (farAddr p (x.farOf x.released)) (s.acceptedBytes (s.fsRead f (x.slotAt x.released) x.burst) refused) ∧
    t.getFrond f = { s.getFrond f with counts := Tab.upd 0 (s.getFrond f).counts 5 (satAdd 64 · (Config.conflictCycles t.free.pred)) } ∧
    OtherFronds s t f ∧ (∀ q, q ≠ p → t.getPart q = s.getPart q) ∧ t.owner f = some p ∧ (t.getPart p).pat = .running ∧
    (refused ≠ [] → (t.getPart p).run.mem = true) ∧ (refused = [] → t.part = s.part) ∧
    (refused = [] → t = { s with far := t.far, frond := t.frond, free := s.free + 1 }) ∧ (refused ≠ [] → t.free = s.free + x.burst + 1) ∧
    t.store = s.store ∧ t.localStore = s.localStore ∧ t.sync = s.sync := by
  obtain ⟨hown, hpat⟩ := State.unitRuns_owner hr
  obtain ⟨u, hu⟩ : ∃ u : State, u = { s with
      far := s.far.writeN (farAddr p (x.farOf x.released)) (s.acceptedBytes (s.fsRead f (x.slotAt x.released) x.burst) refused)
      free := if refused.isEmpty then s.free else s.free + x.burst } := ⟨_, rfl⟩
  have huparts : ∀ q, u.getPart q = s.getPart q := fun q => by rw [hu]; rfl
  obtain ⟨e, he⟩ : ∃ e, e = u.writeErrors p (farAddr p (x.farOf x.released)) refused := ⟨_, rfl⟩
  obtain ⟨hbad, hgood, hothers, hnone, heframe⟩ := State.accessErrors_spec (s := u) (p := p) (by rw [huparts]; exact hpat)
    (refused.map fun o => ⟨unitAt (farAddr p (x.farOf x.released) + o), some (farAddr p (x.farOf x.released) + o)⟩) refused
  rw [← State.writeErrors_eq, ← he] at hbad hgood hothers hnone heframe
  have htdef : t = e.contend f 5 := by rw [ht, State.burstWrote, he, hu]
  have hefronds : ∀ g, e.getFrond g = s.getFrond g := fun g => by rw [heframe, hu]; rfl
  have hefree : e.free = if refused.isEmpty then s.free else s.free + x.burst := by rw [heframe, hu]
  have htframe : t = { e with frond := t.frond, free := e.free + 1 } := by rw [htdef]; rfl
  have htfree : t.free = e.free + 1 := by rw [htframe]
  have htparts : ∀ q, t.getPart q = e.getPart q := fun q => by rw [htframe]; rfl
  have hepart : e.getPart p = { s.getPart p with run := { (s.getPart p).run with mem := (e.getPart p).run.mem } } := by
    by_cases hre : refused = []
    · have hsame : e.getPart p = s.getPart p := by rw [State.getPart, hgood hre, hu]; rfl
      rw [hsame]
    · rw [hbad hre, huparts]
  refine ⟨?_, ?_, fun g hg => ?_, fun q hq => ?_, ?_, ?_, fun hre => ?_, fun hre => ?_, fun hre => ?_, fun hre => ?_, ?_, ?_, ?_⟩
  · rw [htframe, heframe, hu]
  · rw [htfree, Nat.pred_succ, htdef, State.contend_getFrond, hefronds]
  · rw [htdef, State.contend_others f 5 _ g hg, hefronds]
  · rw [htparts, hothers q hq, huparts]
  · refine (State.owner_of (fun q => ?_) f).trans hown
    by_cases hq : q = p
    · rw [htparts, hq, hepart]; exact ⟨rfl, rfl⟩
    · rw [htparts, hothers q hq, huparts]; exact ⟨rfl, rfl⟩
  · rw [htparts, hepart]; exact hpat
  · rw [htparts, hbad hre]
  · have hsame : t.part = e.part := by rw [htframe]
    rw [hsame, hgood hre, hu]
  · have hsame : e = u := hnone (by rw [hre]; rfl) hre
    have hzero : e.free = s.free := by rw [hefree, hre]; rfl
    rw [htframe, hzero, hsame, hu]
  · rw [htfree, hefree, if_neg (by simpa using hre)]
  · rw [htframe, heframe, hu]
  · rw [htframe, heframe, hu]
  · rw [htframe, heframe, hu]

/-- Far memory takes a burst: its bytes are there, its stream goes on or retires, and its completion raises the token. -/
theorem State.burstTaken_spec (hr : s.unitRuns f unitSpool = some (p, r)) (hx : s.streamAt f id = some x)
    (hw : ∀ b, s.waitOf f (r.warden unitSpool) ≠ some (.stream b)) (ht : t = s.burstTaken f id refused x p r) :
    t.far = s.far.writeN (farAddr p (x.farOf x.released)) (s.acceptedBytes (s.fsRead f (x.slotAt x.released) x.burst) refused) ∧
    SlotLeft s t f id x ∧
    (∀ k, Tab.get 0 (t.getFrond f).token k =
      if k = x.tokenOf x.released then (Tab.get 0 (s.getFrond f).token k + 1) % 2 ^ 32 else Tab.get 0 (s.getFrond f).token k) ∧
    t.getFrond f = { s.getFrond f with
      streams := (t.getFrond f).streams, token := (t.getFrond f).token, wait := (t.getFrond f).wait
      counts := Tab.upd 0 (s.getFrond f).counts 5 (satAdd 64 · (Config.conflictCycles t.free.pred)) } ∧
    (refused ≠ [] → (t.getPart p).run.mem = true) ∧ (refused = [] → (s.getFrond f).wait = [] → VoteNoted s t p) ∧
    (refused = [] → t = { s with far := t.far, frond := t.frond, part := t.part, free := s.free + 1 }) ∧
    (refused ≠ [] → t.free = s.free + x.burst + 1) ∧ (∀ q, q ≠ p → t.getPart q = s.getPart q) ∧ OtherFronds s t f ∧ t.store = s.store ∧
    t.localStore = s.localStore := by
  rw [State.burstTaken_eq] at ht
  obtain ⟨hfar, hfrond, hothers, hparts, hown, _, hbad, hgood, hplain, hfree, hstore, hlocal, hsync⟩ :=
    State.burstWrote_spec (refused := refused) (x := x) hr rfl
  generalize s.burstWrote f refused x p = u at *
  obtain ⟨e, he⟩ : ∃ e, e = u.updStream f id fun y => { y with released := y.released + 1 } := ⟨_, rfl⟩
  have hefrond : e.getFrond f = { u.getFrond f with
      streams := (u.getFrond f).streams.map fun y => if y.id = id then { y with released := y.released + 1 } else y } := by
    rw [he, State.updStream_getFrond]
  have hcount := State.raiseToken_count f (x.tokenOf x.released) e
  have hwaits := State.raiseToken_waits f (x.tokenOf x.released) (r.warden unitSpool) e
  obtain ⟨_, hraised, _, _⟩ := State.raiseToken_raisedAfter f (x.tokenOf x.released) e
  have hmoved := (State.updStream_moved f id (fun y => { y with released := y.released + 1 }) u).trans
    ((he ▸ State.raiseToken_moved f (x.tokenOf x.released) e).trans (State.retired_moved f id _))
  rw [← he] at ht hmoved
  generalize e.raiseToken f (x.tokenOf x.released) = v at *
  have hnone : ∀ a, (v.retired f id).waitOf f (r.warden unitSpool) ≠ some (.stream a) := fun a => by
    refine ne_of_eq_of_ne (State.waitOf_congr (s := v) (by rw [State.retired_getFrond]) _) ?_
    rcases hwaits with h | h
    · rw [h]; exact ne_of_eq_of_ne (State.waitOf_congr (s := s) (by rw [hefrond, hfrond]) _) (hw a)
    · rw [h]; simp
  have hleft := State.retired_slotLeft (u := v) hx (by rw [hraised, hefrond, hfrond, State.updStream_getFrond])
  have hretired : ((v.retired f id).getFrond f).token = (v.getFrond f).token := by rw [State.retired_getFrond]
  have htoken : (e.getFrond f).token = (s.getFrond f).token := by rw [hefrond, hfrond]
  rw [State.wakeStream_none hnone] at ht
  generalize v.retired f id = w at *
  obtain ⟨hfrond', hothers', hparts', hmem, hforeign, hquiet, hframe⟩ := hmoved
  have hfronds : ∀ g, t.getFrond g = w.getFrond g := fun g => by rw [ht, State.noteVote_getFrond]
  have htframe := State.noteVote_frame p w
  rw [← ht] at htframe
  have htfree : t.free = u.free := by rw [htframe, hframe]
  refine ⟨?_, hleft.congr rfl (by rw [hfronds]), fun k => ?_, ?_, fun hre => ?_, fun hre hwait => ?_, fun hre => ?_, fun hre => ?_, fun q hq => ?_,
    fun g hg => ?_, ?_, ?_⟩
  · rw [htframe, hframe, hfar]
  · rw [hfronds, hretired, hcount, htoken]
    by_cases hk : k = x.tokenOf x.released
    · rw [if_pos hk, if_pos hk, hk]
    · rw [if_neg hk, if_neg hk]
  · rw [hfronds, hfrond', hfrond, htfree]
  · rw [ht, State.noteVote_mem, hmem]; exact hbad hre
  · rw [ht]
    refine State.noteVote_noted (State.unitRuns_owner hr).2 ?_ ?_
    · rw [(hquiet (by rw [hfrond]; exact hwait)).2, hgood hre]
    · rw [hframe, hsync]
  · rw [htframe, hframe, hplain hre]
  · rw [htfree, hfree hre]
  · rw [ht, State.noteVote_getPart_ne hq, hforeign q, hparts q hq]
    rw [hown]
    exact fun h => hq (Option.some.inj h).symm
  · rw [hfronds, hothers' g hg, hothers g hg]
  · rw [htframe, hframe, hstore]
  · rw [htframe, hframe, hlocal]

/-- What a burst leaves in far memory (R204). -/
theorem State.acceptedBytes_read {a : Nat} {bs : List Byte} (hbs : bs = s.acceptedBytes (s.fsRead f (x.slotAt x.released) x.burst) refused) :
    (∀ i, i < x.burst → (s.far.writeN a bs).read (a + i) = if refused.any (fun e => e / 64 == i / 64) then Config.freeByte (s.free + i)
      else s.store.read (storeKey f (x.slotAt x.released) + i)) ∧
    ∀ k, k < a ∨ a + x.burst ≤ k → (s.far.writeN a bs).read k = s.far.read k := by
  have hlen : bs.length = x.burst := by rw [hbs, State.acceptedBytes_length, State.fsRead_length]
  refine ⟨fun i hi => ?_, fun k hk => Mem.read_writeN_out _ _ _ (by rw [hlen]; exact hk)⟩
  rw [Mem.read_writeN, if_pos (by omega), Nat.add_sub_cancel_left, hbs]
  show nth 0 (s.acceptedBytes _ refused) i = _
  rw [State.acceptedBytes, nth_map_range _ _ (by rw [State.fsRead_length]; exact hi), State.fsRead, Mem.readN_eq, nth_map_range _ _ hi]

end

/-! ### O50 -/

/-- Settles O50, command by command: what a burst's issue, its landing, a slot's release and a burst's acceptance leave is `State.issueBurst_issued`,
`State.burstLands_spec`, `State.slotReleased_spec` and `State.burstTaken_spec`. -/
theorem spoolStreamsRun : Obligations.SpoolStreamsRun := by
  unfold Obligations.SpoolStreamsRun
  refine ⟨fun s f w p a r => ⟨exec_idle (exec_spoolStreamIssue a), exec_foreign (exec_spoolStreamIssue a), fun hown => ⟨fun h => ?bad,
      fun hpage hok => ⟨fun hfull => ?full, fun hroom => ?opens⟩⟩⟩,
    fun s f p id r x => ⟨fun h j ue ce => ?idle, fun hr hx => ⟨fun c key hc => ⟨fun hfar => ?issued, fun hfar => ?outside⟩, fun h => ?noRead,
      fun h => ?noWrite, fun j a n ue ce bs ha hbs hn => ⟨fun h => ?noLanding, fun hread hopen hrange => ?lands⟩, fun h => ?noRelease,
      fun hread hlt => ?releases, fun a refused ha => ⟨fun h => ?notTaken, fun hwrite hlt hheld hrange hwait => ?taken⟩⟩⟩⟩
  case bad =>
    rw [exec_own (exec_spoolStreamIssue a) hown]
    rcases h with h | h
    · rw [if_pos (by simp [h])]
    · rw [State.goStream_bad h, ite_self]
  case full => rw [exec_own (exec_spoolStreamIssue a) hown, if_neg (by simp [hpage]), State.goStream_full hok hfull]
  case opens =>
    refine ⟨_, by rw [exec_own (exec_spoolStreamIssue a) hown, if_neg (by simp [hpage]), State.goStream_opens hok hroom], State.openStream_getFrond f w a s,
      ?_, rfl⟩
    exact OtherFronds.updFrond f _ s
  case idle =>
    have hidle := State.spooled_idle h
    exact ⟨exec_spoolBurstStart.trans (congrArg _ (hidle _)), exec_spoolWriteBurst.trans (congrArg _ (hidle _)),
      (exec_spoolBurstLanded j ue ce).trans (congrArg _ (hidle _)), exec_spoolSlotRelease.trans (congrArg _ (hidle _)),
      (exec_spoolWriteAccepted ue).trans (congrArg _ (hidle _))⟩
  all_goals have hid := State.streamAt_id hx
  case issued =>
    refine ⟨_, ?_, State.issueBurst_issued (r := r) (hid ▸ hx) hfar⟩
    rcases hc with ⟨rfl, rfl, hwrite, hlt, hdepth⟩ | ⟨rfl, rfl, hwrite, hlt, hraised⟩
    · rw [exec_spoolBurstStart, State.spooled_runs hr hx, if_pos (by simp [hwrite, hlt, hdepth])]
    · rw [exec_spoolWriteBurst, State.spooled_runs hr hx, if_pos (by simp [hwrite, hlt, hraised])]
  case outside =>
    rcases hc with ⟨rfl, rfl, hwrite, hlt, hdepth⟩ | ⟨rfl, rfl, hwrite, hlt, hraised⟩
    · rw [exec_spoolBurstStart, State.spooled_runs hr hx, if_pos (by simp [hwrite, hlt, hdepth]), State.issueBurst_bad hfar]
    · rw [exec_spoolWriteBurst, State.spooled_runs hr hx, if_pos (by simp [hwrite, hlt, hraised]), State.issueBurst_bad hfar]
  case noRead =>
    rw [exec_spoolBurstStart, State.spooled_runs hr hx, if_neg]
    rcases h with h | h | h <;> simp [h]
  case noWrite =>
    rw [exec_spoolWriteBurst, State.spooled_runs hr hx, if_neg]
    rcases h with h | h | h <;> simp [h]
  case noLanding =>
    rw [exec_spoolBurstLanded, State.spooled_runs hr hx, if_neg]
    subst ha
    rcases h with h | h | h <;> simp [h]
  case lands =>
    subst ha hbs hn
    have hexec : exec (.spoolBurstLanded f id j ue ce) s = .next (s.burstLands f id j ue ce x p) := by
      rw [exec_spoolBurstLanded, State.spooled_runs hr hx, if_pos (by simp [hread, hopen, hrange])]
    obtain ⟨hstore, hraised, hrest⟩ := State.burstLands_spec (j := j) (ue := ue) (ce := ce) hr hx rfl rfl
    exact ⟨_, hexec, .of_write hstore, hraised, fun k hk => by rw [hstore]; exact State.store_fsWrite_out hk, hrest⟩
  case noRelease =>
    rw [exec_spoolSlotRelease, State.spooled_runs hr hx, if_neg]
    rcases h with h | h <;> simp [h]
  case releases =>
    have hexec : exec (.spoolSlotRelease f id) s = .next (s.slotReleased f id r) := by
      rw [exec_spoolSlotRelease, State.spooled_runs hr hx, if_pos (by simp [hread, hlt])]
    obtain ⟨hleft, hrest⟩ := State.slotReleased_spec hr hx r
    refine ⟨_, hexec, fun hwait => ?_, hrest⟩
    obtain ⟨⟨hmore, hlast, hother⟩, hfrond⟩ := hleft hwait
    exact ⟨hmore, hlast, hother, hfrond⟩
  case notTaken =>
    rw [exec_spoolWriteAccepted, State.spooled_runs hr hx, if_neg]
    subst ha
    rcases h with h | h | h | h <;> simp [h]
  case taken =>
    subst ha
    have hexec : exec (.spoolWriteAccepted f id refused) s = .next (s.burstTaken f id refused x p r) := by
      rw [exec_spoolWriteAccepted, State.spooled_runs hr hx, if_pos (by simp [hwrite, hlt, hheld, hrange])]
    obtain ⟨hfar, ⟨hmore, hlast, hother⟩, htoken, hrest⟩ := State.burstTaken_spec (refused := refused) hr hx hwait rfl
    obtain ⟨hbytes, hout⟩ := State.acceptedBytes_read (s := s) (f := f) (x := x) (refused := refused) (a := farAddr p (x.farOf x.released)) rfl
    exact ⟨_, hexec, fun i hi => by rw [hfar]; exact hbytes i hi, fun k hk => by rw [hfar]; exact hout k hk, hmore, hlast, hother,
      fun k hk => (htoken k).trans (if_pos hk), fun k hk => (htoken k).trans (if_neg hk), hrest⟩

end Sys2Proof.Machine
end

section
/-! SUPPORT. What the parts of a fused instruction can change as they run: passes, programs of collectives, results and DONE. -/

namespace Sys2Proof.Machine

/-! ### What stays of the instructions of a step (R292, R294) -/

/-- What an instruction of the step is from its issue on: its group and number, its frond and record, its step and its deadline. -/
def Coll.issuedAs (z : Coll) : Nat × Nat × Nat × Nat × Fused × Nat × Nat := (z.group, z.inst, z.frond, z.record, z.what, z.step, z.deadline)

/-- From s to t parts of fused instructions of frond f and partition p have run. -/
def ProgramMoved (s t : State) (f p : Nat) : Prop :=
  (t.getPart p).colls.map Coll.issuedAs = (s.getPart p).colls.map Coll.issuedAs ∧
  ((s.getFrond f).wait = [] → (t.getFrond f).wait = [] ∧ (t.getPart p).run.slip = (s.getPart p).run.slip ∧
    (t.getPart p).run.lateIssues = (s.getPart p).run.lateIssues) ∧
  t.getPart p = { s.getPart p with
    colls := (t.getPart p).colls, run := (t.getPart p).run, arith := (t.getPart p).arith, arithNow := (t.getPart p).arithNow } ∧
  (∀ q, q ≠ p → t.getPart q = s.getPart q) ∧
  t = { s with
    links := { s.links with port := t.links.port }, store := t.store, frond := t.frond, part := t.part, irq := t.irq, pcie := t.pcie, out := t.out }

section
variable {s t u : State} {f p : Nat} {k : Nat × Nat} {c : Coll}

/-- The instruction found by a key, as it was issued. -/
theorem find?_issuedAs (k : Nat × Nat) (cs : List Coll) : (cs.find? fun z => z.key == k).map Coll.issuedAs =
    (cs.map Coll.issuedAs).find? fun i => (i.1, i.2.1) == k := by
  rw [List.find?_map]
  rfl

theorem State.coll_issuedAs (h : (t.getPart p).colls.map Coll.issuedAs = (s.getPart p).colls.map Coll.issuedAs) (k : Nat × Nat) :
    (t.coll p k).map Coll.issuedAs = (s.coll p k).map Coll.issuedAs := by
  rw [State.coll, State.coll, find?_issuedAs, find?_issuedAs, h]

theorem State.coll_key (h : s.coll p k = some c) : c.key = k := by
  simpa using List.find?_some h

theorem ProgramMoved.refl (s : State) (f p : Nat) : ProgramMoved s s f p := ⟨rfl, fun h => ⟨h, rfl, rfl⟩, rfl, fun _ _ => rfl, rfl⟩

theorem ProgramMoved.trans (h : ProgramMoved s t f p) (k : ProgramMoved t u f p) : ProgramMoved s u f p := by
  obtain ⟨h1, h2, h3, h4, h5⟩ := h
  obtain ⟨k1, k2, k3, k4, k5⟩ := k
  refine ⟨k1.trans h1, fun hw => ?_, ?_, fun q hq => (k4 q hq).trans (h4 q hq), ?_⟩
  · obtain ⟨hwt, hslip, hlate⟩ := h2 hw
    obtain ⟨hwu, hslip', hlate'⟩ := k2 hwt
    exact ⟨hwu, hslip'.trans hslip, hlate'.trans hlate⟩
  · rw [k3, h3]
  · rw [k5, h5]

/-- Links, stores and fronds that change leave the instructions. -/
theorem ProgramMoved.of_rest (hw : (t.getFrond f).wait = (s.getFrond f).wait) (ht : t = { s with
    links := { s.links with port := t.links.port }, store := t.store, frond := t.frond, irq := t.irq, pcie := t.pcie, out := t.out }) :
    ProgramMoved s t f p := by
  have hparts : ∀ q, t.getPart q = s.getPart q := fun q => by rw [ht]; rfl
  refine ⟨by rw [hparts], fun h => ⟨hw.trans h, by rw [hparts], by rw [hparts]⟩, by rw [hparts], fun q _ => hparts q, ?_⟩
  rw [ht]

/-- So does the partition when its instructions, its run but for the lateness, or its statistics change. -/
theorem ProgramMoved.updPart {g : Partition → Partition} (hc : ∀ q, (g q).colls.map Coll.issuedAs = q.colls.map Coll.issuedAs)
    (hr : ∀ q, (g q).run.slip = q.run.slip ∧ (g q).run.lateIssues = q.run.lateIssues)
    (hg : ∀ q, g q = { q with colls := (g q).colls, run := (g q).run, arith := (g q).arith, arithNow := (g q).arithNow }) :
    ProgramMoved s (s.updPart p g) f p := by
  refine ⟨?_, fun hw => ⟨hw, ?_, ?_⟩, ?_, fun q hq => State.getPart_updPart_ne _ _ _ _ hq, rfl⟩ <;> rw [State.getPart_updPart_same]
  · exact hc _
  · exact (hr _).1
  · exact (hr _).2
  · exact hg _

/-- A frond that a partition owns and on which it issued instruction k, where that exists. -/
def RunsProgram (f p : Nat) (k : Nat × Nat) (s : State) : Prop := s.owner f = some p ∧ ∀ c, s.coll p k = some c → c.frond = f

theorem ProgramMoved.owner (h : ProgramMoved s t f p) : t.owner f = s.owner f := by
  obtain ⟨_, _, h3, h4, _⟩ := h
  refine State.owner_of (fun q => ?_) f
  by_cases hq : q = p
  · rw [hq, h3]; exact ⟨rfl, rfl⟩
  · rw [h4 q hq]; exact ⟨rfl, rfl⟩

theorem ProgramMoved.runs (h : ProgramMoved s t f p) (hs : RunsProgram f p k s) : RunsProgram f p k t := by
  obtain ⟨hown, hfrond⟩ := hs
  refine ⟨h.owner.trans hown, fun c hc => ?_⟩
  have hsame := State.coll_issuedAs h.1 k
  rw [hc] at hsame
  cases hs : s.coll p k with
  | none => rw [hs] at hsame; cases hsame
  | some d =>
    rw [hs] at hsame
    have heq : c.issuedAs = d.issuedAs := Option.some.inj hsame
    exact (congrArg (fun i => i.2.2.1) heq).trans (hfrond d hs)

/-! ### Operations of a program -/

/-- What an operation on instruction k of frond f may do. -/
def Advances (f p : Nat) (k : Nat × Nat) (s t : State) : Prop := RunsProgram f p k s → ProgramMoved s t f p

theorem Advances.refl (f p : Nat) (k : Nat × Nat) (s : State) : Advances f p k s s := fun _ => .refl s f p

theorem Advances.trans (h : Advances f p k s t) (h' : Advances f p k t u) : Advances f p k s u := fun hs => (h hs).trans (h' ((h hs).runs hs))

theorem Advances.of (h : ProgramMoved s t f p) : Advances f p k s t := fun _ => h

theorem Advances.forAll {α : Type} (l : List α) (g : α → State → State) (h : ∀ x t, Advances f p k t (g x t)) (s : State) :
    Advances f p k s (forAll l g s) :=
  forAll_inv (Advances f p k s) l g s (.refl f p k s) fun x _ t ht => ht.trans (h x t)

theorem State.updColl_advances (j : Nat × Nat) (g : Coll → Coll) (hg : ∀ z, (g z).issuedAs = z.issuedAs) (s : State) :
    Advances f p k s (s.updColl p j g) := by
  refine .of (.updPart (fun q => ?_) (fun _ => ⟨rfl, rfl⟩) fun _ => rfl)
  rw [List.map_map]
  refine List.map_congr_left fun z _ => ?_
  show (if z.key = j then g z else z).issuedAs = z.issuedAs
  split
  · exact hg z
  · rfl

theorem State.updRun_advances (g : Run → Run) (hg : ∀ r, (g r).slip = r.slip ∧ (g r).lateIssues = r.lateIssues) (s : State) :
    Advances f p k s (s.updRun p g) := .of (.updPart (fun _ => rfl) (fun _ => hg _) fun _ => rfl)

theorem State.updArith_advances (g : Arith → Arith) (s : State) : Advances f p k s (s.updArith p g) :=
  .of (.updPart (fun _ => rfl) (fun _ => ⟨rfl, rfl⟩) fun _ => rfl)

theorem State.noteVote_advances (s : State) : Advances f p k s (s.noteVote p) := by
  unfold State.noteVote
  exact ite_holds (State.updRun_advances _ (by intro; exact ⟨rfl, rfl⟩) s) (.refl f p k s)

theorem State.returnFlag_advances (flag : Bool) (s : State) : Advances f p k s (s.returnFlag p flag) := by
  have hrun : Advances f p k s (s.updRun p fun r => { r with finite := r.finite && flag }) := State.updRun_advances _ (by intro; exact ⟨rfl, rfl⟩) s
  unfold State.returnFlag
  exact ite_holds hrun (hrun.trans (State.updArith_advances _ _))

theorem State.countConv_advances (cvt : Byte) (conv ovf unf : Nat) (s : State) : Advances f p k s (s.countConv p cvt conv ovf unf) := by
  have harith := State.updArith_advances (f := f) (p := p) (k := k) (Arith.count (cvtDst cvt) (cvtClass cvt) conv ovf unf) s
  unfold State.countConv
  exact ite_holds (harith.trans (State.updRun_advances _ (by intro; exact ⟨rfl, rfl⟩) _)) harith

theorem State.raise_advances (cause : Cause) (s : State) : Advances f p k s (s.raise cause) := by
  have hframe := State.raise_frame cause s
  generalize s.raise cause = t at *
  exact .of (.of_rest (by rw [hframe]; rfl) (by rw [hframe]))

theorem State.countScaleRange_advances (n : Nat) (s : State) : Advances f p k s (s.countScaleRange p n) := by
  unfold State.countScaleRange
  exact ite_holds (.refl f p k s) ((State.updArith_advances _ s).trans (State.raise_advances .scaleRange _))

theorem State.fsWrite_advances (addr : Nat) (bs : List Byte) (g : Nat) (s : State) : Advances f p k s (s.fsWrite g addr bs) := .of (.of_rest rfl rfl)

theorem State.raiseToken_advances (tok : Nat) (s : State) : Advances f p k s (s.raiseToken f tok) := fun ⟨hown, _⟩ => by
  obtain ⟨⟨_, _, _, hquiet, hforeign⟩, _, _, hframe⟩ := State.raiseToken_raisedAfter f tok s
  obtain ⟨_, _, hparts, _, _⟩ := State.raiseToken_wakes f tok s
  have hpart : (s.raiseToken f tok).getPart p = { s.getPart p with run := ((s.raiseToken f tok).getPart p).run } := hparts p
  refine ⟨by rw [hpart], fun hw => ?_, by rw [hpart], fun q hq => hforeign q (hown ▸ fun h => hq (Option.some.inj h).symm), by rw [hframe]⟩
  obtain ⟨hwait, hsame⟩ := hquiet (.inr hw)
  have hpart' : (s.raiseToken f tok).getPart p = s.getPart p := by rw [State.getPart, hsame]; rfl
  exact ⟨hwait.trans hw, by rw [hpart'], by rw [hpart']⟩

theorem State.raiseOpt_advances (tok : Option Nat) (s : State) : Advances f p k s (s.raiseOpt f tok) := by
  cases tok with
  | none => exact .refl f p k s
  | some n => exact State.raiseToken_advances n s

/-- Tokens of chunks that are raised on the instruction's frond (R147). -/
theorem State.raiseChunks_advances (hc : c.frond = f) (n : Nat) (s : State) : Advances f p k s (s.raiseChunks c n) := by
  subst hc
  exact .forAll _ _ (fun i t => State.raiseToken_advances _ t) s

/-- DONE (R147). -/
theorem State.collDone_advances (s : State) : Advances f p k s (s.collDone p k) := fun hs => by
  cases hc : s.coll p k with
  | none => rw [State.collDone, hc]; exact .refl s f p
  | some c =>
    have hfrond := hs.2 c hc
    subst hfrond
    rw [State.collDone_of_some hc]
    have hraised : Advances c.frond p k s (s.doneRaised p k c) :=
      (State.updColl_advances k (fun z => { z with done := true }) (fun _ => rfl) s).trans (State.raiseToken_advances _ _)
    exact (ite_holds (hraised.trans (State.returnFlag_advances _ _)) hraised).trans (State.noteVote_advances _) hs

/-! ### Frames and stages (R287 to R293) -/

theorem State.sendHop_advances (port : Nat) (fr : Frame) (s : State) : Advances f p k s (s.sendHop port fr) := by
  have hframe := State.sendHop_frame port fr s
  generalize s.sendHop port fr = t at *
  exact .of (.of_rest (by rw [hframe]; rfl) (by rw [hframe]))

/-- Frames of an instruction leave one hop at a time: what every hop keeps holds once all of them have left. -/
theorem State.sendColl_holds {P : State → Prop} (h : ∀ port fr t, P t → P (t.sendHop port fr)) (dir token extra : Nat) (payload : List Byte) (hs : P s) :
    P (s.sendColl p c dir token extra payload) := by
  unfold State.sendColl
  split
  · exact h _ _ s hs
  · exact hs

theorem State.sendValues_holds {P : State → Prop} (h : ∀ port fr t, P t → P (t.sendHop port fr)) (dir lo : Nat) (vs : List Nat) (hs : P s) :
    P (s.sendValues p c dir lo vs) :=
  forAll_inv P _ _ s hs fun _ _ _ ht => State.sendColl_holds h _ _ _ _ ht

theorem State.openStage_holds {P : State → Prop} (h : ∀ port fr t, P t → P (t.sendHop port fr)) (g : Group) (ax : Nat) (gather : Bool) (hs : P s) :
    P (s.openStage p g c ax gather) := by
  have hsend : ∀ dir lo vs t, P t → P (t.sendValues p c dir lo vs) := fun dir lo vs t ht => State.sendValues_holds h dir lo vs ht
  unfold State.openStage
  dsimp only
  refine ite_holds (ite_holds (hsend _ _ _ s hs) ?_) (ite_holds (hsend _ _ _ s hs) ?_)
  · refine ite_holds (hsend _ _ _ _ ?_) ?_ <;> exact ite_holds (hsend _ _ _ s hs) hs
  · refine ite_holds (forAll_inv P _ _ _ ?_ fun _ _ t ht => hsend _ _ _ t ht) ?_ <;>
      exact ite_holds (forAll_inv P _ _ s hs fun _ _ t ht => hsend _ _ _ t ht) hs

theorem State.sendColl_advances (dir token extra : Nat) (payload : List Byte) (s : State) : Advances f p k s (s.sendColl p c dir token extra payload) :=
  State.sendColl_holds (fun port fr t ht => ht.trans (State.sendHop_advances port fr t)) _ _ _ _ (.refl f p k s)

theorem State.sendTree_advances (flag : Bool) (d : Coord) (s : State) : Advances f p k s (s.sendTree p c flag d) := by
  unfold State.sendTree
  split
  · exact State.sendColl_advances _ _ _ _ s
  · exact .refl f p k s

theorem State.treeDown_advances (hk : c.key = k) (g : Group) (flag : Bool) (s : State) : Advances f p k s (s.treeDown p c g flag) := by
  subst hk
  exact ((State.updColl_advances c.key (fun z => { z with flag := flag }) (fun _ => rfl) s).trans
    (.forAll _ _ (fun d t => State.sendTree_advances flag d t) _)).trans (State.collDone_advances _)

theorem State.treeUp_advances (s : State) : Advances f p k s (s.treeUp p k) := by
  unfold State.treeUp
  split
  · exact .refl f p k s
  · next c hc =>
    split
    · exact .refl f p k s
    · next g hg =>
      refine ite_holds (.refl f p k s) ?_
      dsimp only
      split
      · exact State.treeDown_advances (State.coll_key hc) g _ s
      · exact (State.updColl_advances k (fun z => { z with upSent := true, flag := c.flag && c.up.all (·.2) }) (fun _ => rfl) s).trans
          (State.sendTree_advances _ _ _)

theorem State.dataComplete_advances (hk : c.key = k) (hf : c.frond = f) (g : Group) (s : State) : Advances f p k s (s.dataComplete p c g) := by
  subst hk
  have hraised := (((State.fsWrite_advances (k := c.key) c.what.dst (s.resultBytes c g).1 c.frond s).trans
    (State.countScaleRange_advances (f := f) (p := p) (s.resultBytes c g).2 _)).trans
    (State.updColl_advances c.key (fun z => { z with dataDone := true }) (fun _ => rfl) _)).trans
    (State.raiseChunks_advances hf (cdiv (s.resultBytes c g).1.length (max c.what.chunk 1)) _)
  unfold State.dataComplete
  exact ite_holds hraised (ite_holds (hraised.trans (State.treeUp_advances _)) (hraised.trans (State.collDone_advances _)))

theorem State.openStage_advances (g : Group) (ax : Nat) (gather : Bool) (s : State) : Advances f p k s (s.openStage p g c ax gather) :=
  State.openStage_holds (fun port fr t ht => ht.trans (State.sendHop_advances port fr t)) g ax gather (.refl f p k s)

/-- All that opening a stage changes: frames queue in the ports. -/
theorem State.openStage_frame (g : Group) (ax : Nat) (gather : Bool) (s : State) : s.openStage p g c ax gather = { s with
    links := { s.links with port := (s.openStage p g c ax gather).links.port }, out := (s.openStage p g c ax gather).out } :=
  State.openStage_holds (P := fun t => t = { s with links := { s.links with port := t.links.port }, out := t.out })
    (fun port fr t ht => by
      have hframe := State.sendHop_frame port fr t
      generalize t.sendHop port fr = u at *
      rw [hframe, ht]) g ax gather rfl

theorem State.runStages_advances (n : Nat) (s : State) : Advances f p k s (s.runStages p k n) := by
  induction n generalizing s with
  | zero => exact .refl f p k s
  | succ n ih =>
    intro hs
    unfold State.runStages
    split
    · exact .refl s f p
    · next c hc =>
      split
      · exact .refl s f p
      · next g hg =>
        split
        · exact State.dataComplete_advances (State.coll_key hc) (hs.2 c hc) g s hs
        · next ax gather hstage =>
          have hopen := State.openStage_advances (f := f) (p := p) (k := k) (c := c) g ax gather s
          exact ite_holds ((hopen.trans (State.updColl_advances k (fun z => { z with stage := z.stage + 1 }) (fun _ => rfl) _)).trans (ih _)) hopen hs

theorem State.beginProgram_advances (vals : List Nat) (flag : Bool) (s : State) : Advances f p k s (s.beginProgram p k vals flag) :=
  (State.updColl_advances k (fun z => { z with vals := vals, ready := true, flag := flag }) (fun _ => rfl) s).trans (State.runStages_advances 8 _)

/-! ### The array part (R55, R148) -/

theorem State.countNarrowing_advances (x : Fused) (n : Narrowing) (s : State) : Advances f p k s (s.countNarrowing p x n) := by
  unfold State.countNarrowing
  exact ite_holds (State.countConv_advances _ _ _ _ s) (.refl f p k s)

theorem State.contribute_advances (x : Fused) (s : State) : Advances f p k s (s.contribute p f k x) :=
  (State.countNarrowing_advances x _ s).trans (State.beginProgram_advances _ _ _)

theorem State.rowsToSend_advances (x : Fused) (a : AstreamArgs) (s : State) : Advances f p k s (s.rowsToSend p f k x a) :=
  (State.countNarrowing_advances x _ s).trans
    (State.updColl_advances k (fun z => { z with vals := (sentRows x (s.f19Rne p) (s.resultRows f a)).codes, ready := true }) (fun _ => rfl) _)

theorem State.afterPass_advances (a : AstreamArgs) (s : State) : Advances f p k s (s.afterPass p f k a) := fun hs => by
  unfold State.afterPass
  split
  · exact .refl s f p
  · next c hc =>
    exact ite_holds (.refl f p k s) (ite_holds (State.rowsToSend_advances c.what a s) (ite_holds
      ((State.raiseChunks_advances (hs.2 c hc) _ s).trans (State.collDone_advances _)) (ite_holds (State.collDone_advances s)
        (State.contribute_advances c.what s)))) hs

theorem State.enterPass_advances (cycle : Nat) (a : AstreamArgs) (fed : List Byte) (s : State) : Advances f p k s (s.enterPass f cycle a fed) := by
  rw [State.enterPass_eq]
  have hframe := State.passRun_frame f cycle a fed s
  have hfrond := State.passRun_getFrond (f := f) (c := cycle) (a := a) (fed := fed) (s := s) rfl
  generalize s.passRun f cycle a fed = t at *
  exact (Advances.of (.of_rest (by rw [hfrond]) (by rw [hframe]))).trans (State.raiseOpt_advances a.token t)

theorem State.enterFused_advances (cycle : Nat) (a : AstreamArgs) (s : State) : Advances f p k s (s.enterFused p f cycle k a) :=
  (State.enterPass_advances cycle a _ s).trans (State.afterPass_advances a _)

theorem State.queueFused_advances (w cycle : Nat) (j : Nat × Nat) (a : AstreamArgs) (s : State) : Advances f p k s (s.queueFused f w cycle j a) :=
  .of (.of_rest (by rw [State.queueFused, State.getFrond_updFrond_same]) rfl)

theorem State.feedRing_advances (g n : Nat) (j : Nat × Nat) (s : State) : Advances f p k s (s.feedRing p g j n) := by
  induction n generalizing s with
  | zero => exact .refl f p k s
  | succ n ih =>
    unfold State.feedRing
    split
    · next c hc =>
      dsimp only
      exact ite_holds ((State.updColl_advances j (Coll.tookChunk _ _) (fun _ => rfl) s).trans (ih _)) (.refl f p k s)
    · exact .refl f p k s

theorem State.feed_advances (g : Nat) (s : State) : Advances f p k s (s.feed p g) := by
  unfold State.feed
  split
  · split
    · exact State.feedRing_advances _ _ _ s
    · exact .refl f p k s
  · exact .refl f p k s

/-- The parts of an issued instruction begin (R55, R148). -/
theorem State.beginFused_advances (w cycle : Nat) (hk : c.key = k) (a : AstreamArgs) (s : State) : Advances f p k s (s.beginFused p f w cycle c a) := by
  subst hk
  have hqueue := State.queueFused_advances (f := f) (p := p) (k := c.key) w cycle c.key a s
  unfold State.beginFused
  refine ite_holds (State.contribute_advances c.what s) (ite_holds ?_ (ite_holds (hqueue.trans (State.feed_advances f _))
    (ite_holds hqueue (State.enterFused_advances cycle a s))))
  dsimp only
  split
  · exact hqueue.trans (State.beginProgram_advances _ _ _)
  · exact .refl f p c.key s

end

end Sys2Proof.Machine
end

section
/-! SUPPORT. The issue of fused instructions: an instruction that joins the step, an abort record that came before it, its local part, and the
statement about them. -/

namespace Sys2Proof.Machine

/-! ### An instruction joins the step (R130, R134, R292) -/

section
variable {s t : State} {f p es : Nat} {k : Nat × Nat} {c y : Coll} {b : Option Abort}

/-- The lateness of an issue is recorded, and the instruction joins those of the step with the best abort record that came before it. -/
def State.joined (p es : Nat) (b : Option Abort) (y : Coll) (s : State) : State :=
  (s.recordIssue p es).updPart p fun q => { q with
    colls := q.colls ++ [{ y with best := b }], collNext := Tab.upd 0 q.collNext y.group (· + 1) }

theorem State.recordIssue_getPart (p es : Nat) (s : State) : (s.recordIssue p es).getPart p = { s.getPart p with run := { (s.getPart p).run with
    slip := min (max (s.getPart p).run.slip (s.sync.stitch - ((s.getPart p).run.base + es))) (2 ^ 32 - 1)
    lateIssues := if s.sync.stitch - ((s.getPart p).run.base + es) = 0 then (s.getPart p).run.lateIssues
      else satAdd 64 (s.getPart p).run.lateIssues 1 } } := State.getPart_updPart_same _ _ _

theorem State.enrol_eq (h : (s.getPart p).earlyAbort y = b) :
    (s.recordIssue p es).enrol p y = if b.isSome then (s.joined p es b y).abortInstance p y.key else s.joined p es b y := by
  have hsame : ((s.recordIssue p es).getPart p).earlyAbort y = b := by rw [State.recordIssue_getPart]; exact h
  rw [State.enrol, hsame]
  rfl

theorem State.enrol_joins (h : (s.getPart p).earlyAbort y = none) : (s.recordIssue p es).enrol p y = s.joined p es none y :=
  (State.enrol_eq h).trans (if_neg (by simp))

theorem State.enrol_aborts {b : Abort} (h : (s.getPart p).earlyAbort y = some b) :
    (s.recordIssue p es).enrol p y = (s.joined p es (some b) y).abortInstance p y.key := (State.enrol_eq h).trans (if_pos (by simp))

theorem State.joined_getPart (p es : Nat) (b : Option Abort) (y : Coll) (s : State) : (s.joined p es b y).getPart p = { s.getPart p with
    colls := (s.getPart p).colls ++ [{ y with best := b }], collNext := Tab.upd 0 (s.getPart p).collNext y.group (· + 1)
    run := { (s.getPart p).run with
      slip := min (max (s.getPart p).run.slip (s.sync.stitch - ((s.getPart p).run.base + es))) (2 ^ 32 - 1)
      lateIssues := if s.sync.stitch - ((s.getPart p).run.base + es) = 0 then (s.getPart p).run.lateIssues
        else satAdd 64 (s.getPart p).run.lateIssues 1 } } := by
  rw [State.joined, State.getPart_updPart_same, State.recordIssue_getPart]

theorem State.joined_getPart_ne {q : Nat} (hq : q ≠ p) : (s.joined p es b y).getPart q = s.getPart q := by
  rw [State.joined, State.getPart_updPart_ne _ _ _ _ hq, State.recordIssue, State.updRun, State.getPart_updPart_ne _ _ _ _ hq]

theorem State.joined_frame (p es : Nat) (b : Option Abort) (y : Coll) (s : State) :
    s.joined p es b y = { s with part := (s.joined p es b y).part } := rfl

/-- The new instruction is found by its key, which no other has. -/
theorem State.joined_coll (hnew : ∀ z ∈ (s.getPart p).colls, z.key ≠ y.key) : (s.joined p es b y).coll p y.key = some { y with best := b } := by
  have hold : (s.getPart p).colls.find? (fun z : Coll => z.key == y.key) = none := List.find?_eq_none.2 fun z hz => by simpa using hnew z hz
  rw [State.coll, State.joined_getPart]
  show ((s.getPart p).colls ++ [{ y with best := b }]).find? (fun z : Coll => z.key == y.key) = _
  rw [List.find?_append, hold, Option.none_or]
  exact List.find?_cons_of_pos (p := fun z : Coll => z.key == y.key) (beq_self_eq_true y.key)

theorem State.joined_owner (p es : Nat) (b : Option Abort) (y : Coll) (f : Nat) (s : State) : (s.joined p es b y).owner f = s.owner f := by
  refine State.owner_of (fun q => ?_) f
  by_cases hq : q = p
  · rw [hq, State.joined_getPart]; exact ⟨rfl, rfl⟩
  · rw [State.joined_getPart_ne hq]; exact ⟨rfl, rfl⟩

/-! ### An abort record that came before (R150, R163, R296) -/

theorem State.dropFused_frame (p : Nat) (s : State) : s.dropFused p = { s with frond := (s.dropFused p).frond } :=
  forAll_inv (fun t => t = { s with frond := t.frond }) _ _ s rfl fun g _ t ht => by
    rw [State.updFrond, ht]

/-- What an aborted instruction leaves. -/
theorem State.abortInstance_spec (hc : s.coll p k = some c) (ht : t = s.abortInstance p k) :
    t.coll p k = some { c with aborted := true } ∧ (t.getPart p).colls.map Coll.issuedAs = (s.getPart p).colls.map Coll.issuedAs ∧
    (t.getPart p).run.abort = true ∧ (t.getPart p).run.discard = true ∧
    (t.getPart p).run.slip = (s.getPart p).run.slip ∧ (t.getPart p).run.lateIssues = (s.getPart p).run.lateIssues ∧
    t.getPart p = { s.getPart p with
      colls := (t.getPart p).colls, run := (t.getPart p).run
      twin := { (s.getPart p).twin with collAborts := satAdd 64 (s.getPart p).twin.collAborts 1 } } ∧
    (∀ q, q ≠ p → t.getPart q = s.getPart q) ∧ t = { s with part := t.part, frond := t.frond } := by
  obtain ⟨u, hu⟩ : ∃ u, u = (s.updColl p k fun c => { c with aborted := true }).updRun p fun r => { r with abort := true, discard := true } := ⟨_, rfl⟩
  have hupart : u.getPart p = { s.getPart p with
      colls := (s.getPart p).colls.map fun d => if d.key = k then { d with aborted := true } else d
      run := { (s.getPart p).run with abort := true, discard := true } } := by
    rw [hu, State.updRun, State.getPart_updPart_same, State.getPart_updColl_same]
  have huother : ∀ q, q ≠ p → u.getPart q = s.getPart q := fun q hq => by
    rw [hu, State.updRun, State.getPart_updPart_ne _ _ _ _ hq, State.getPart_updColl_ne hq]
  have huframe : u = { s with part := u.part } := by rw [hu]; rfl
  have hissued : (u.getPart p).colls.map Coll.issuedAs = (s.getPart p).colls.map Coll.issuedAs := by
    rw [hupart, List.map_map]
    refine List.map_congr_left fun z _ => ?_
    show (if z.key = k then { z with aborted := true } else z).issuedAs = z.issuedAs
    split <;> rfl
  have hcoll : u.coll p k = some { c with aborted := true } :=
    (State.coll_congr (s := s.updColl p k fun c => { c with aborted := true }) (by rw [hupart, State.getPart_updColl_same]) k).trans
      (State.coll_updColl_same (f := fun c => { c with aborted := true }) (fun _ => rfl) hc)
  obtain ⟨d, hd⟩ : ∃ d, d = u.dropFused p := ⟨_, rfl⟩
  have hdrop : d = { u with frond := d.frond } := by rw [hd]; exact State.dropFused_frame p u
  have hdparts : ∀ q, d.getPart q = u.getPart q := fun q => by rw [hdrop]; rfl
  obtain ⟨v, hv⟩ : ∃ v, v = d.updTwin p fun w => { w with collAborts := satAdd 64 w.collAborts 1 } := ⟨_, rfl⟩
  have hvpart : v.getPart p = { u.getPart p with twin := { (u.getPart p).twin with collAborts := satAdd 64 (u.getPart p).twin.collAborts 1 } } := by
    rw [hv, State.updTwin, State.getPart_updPart_same, hdparts]
  have hvother : ∀ q, q ≠ p → v.getPart q = u.getPart q := fun q hq => by
    rw [hv, State.updTwin, State.getPart_updPart_ne _ _ _ _ hq, hdparts]
  have hvframe : v = { d with part := v.part } := by rw [hv]; rfl
  have htdef : t = v.noteVote p := by rw [ht, State.abortInstance, ← hu, ← hd, ← hv]
  have htpart := State.noteVote_getPart_same p v
  have htframe := State.noteVote_frame p v
  rw [← htdef] at htpart htframe
  refine ⟨?_, ?_, ?_, ?_, ?_, ?_, ?_, fun q hq => ?_, ?_⟩
  · exact (State.coll_congr (s := u) (by rw [htpart, hvpart]) k).trans hcoll
  · rw [htpart, hvpart, ← hissued]
  · rw [htpart, hvpart, hupart]
  · rw [htpart, hvpart, hupart]
  · rw [htpart, hvpart, hupart]
  · rw [htpart, hvpart, hupart]
  · rw [htpart, hvpart, hupart]
  · rw [htdef, State.noteVote_getPart_ne hq, hvother q hq, huother q hq]
  · rw [htframe, hvframe, hdrop, huframe]

end

/-! ### Programs that begin (R148, R287) -/

section
variable {s : State} {f p : Nat} {k : Nat × Nat} {c : Coll} {g : Group} {a : AstreamArgs} {ax : Nat} {gt : Bool}

/-- A program whose first stage needs something of others sends its part of that stage, and waits. -/
theorem State.beginProgram_opens (hc : s.coll p k = some c) (hg : s.collGroup p c = some g) (hstage : c.stage = 0)
    (hhead : (stagesOf c.what.op g).head? = some (ax, gt)) (hneed : stageNeed g s.size s.here (c.total g) ax gt ≠ 0) (vals : List Nat) (flag : Bool) :
    (s.beginProgram p k vals flag).coll p k = some { c with vals := vals, ready := true, flag := flag } ∧
    s.beginProgram p k vals flag = { s with
      part := (s.beginProgram p k vals flag).part, links := (s.beginProgram p k vals flag).links, out := (s.beginProgram p k vals flag).out } := by
  obtain ⟨u, hu⟩ : ∃ u, u = s.updColl p k fun d => { d with vals := vals, ready := true, flag := flag } := ⟨_, rfl⟩
  have hcoll : u.coll p k = some { c with vals := vals, ready := true, flag := flag } := by
    rw [hu]; exact State.coll_updColl_same (f := fun d => { d with vals := vals, ready := true, flag := flag }) (fun _ => rfl) hc
  have hgroup : u.collGroup p { c with vals := vals, ready := true, flag := flag } = some g := by
    rw [hu, State.collGroup_updColl]; exact hg
  have huframe : u = { s with part := u.part } := by rw [hu]; rfl
  have hsize : u.size = s.size := by rw [State.size, huframe]; rfl
  have hhere : u.here = s.here := by rw [State.here, huframe]; rfl
  have hbegin : s.beginProgram p k vals flag = u.openStage p g { c with vals := vals, ready := true, flag := flag } ax gt := by
    rw [State.beginProgram, ← hu]
    refine State.runStages_opens hcoll hgroup 7 ?_ (by rw [hsize, hhere]; exact hneed)
    rw [hstage, ← List.head?_eq_getElem?]
    exact hhead
  have hframe := State.openStage_frame (p := p) (c := { c with vals := vals, ready := true, flag := flag }) g ax gt u
  rw [← hbegin] at hframe
  generalize s.beginProgram p k vals flag = t at *
  refine ⟨?_, by rw [hframe, huframe]⟩
  exact (State.coll_congr (s := u) (by rw [hframe]; rfl) k).trans hcoll

/-- The counts of a narrowing change the statistics of the partition and what its vote takes of them (R164, R174). -/
theorem State.countNarrowing_spec (p : Nat) (x : Fused) (n : Narrowing) (s : State) :
    (s.countNarrowing p x n).getPart p = { s.getPart p with
      run := ((s.countNarrowing p x n).getPart p).run, arith := ((s.countNarrowing p x n).getPart p).arith
      arithNow := ((s.countNarrowing p x n).getPart p).arithNow } ∧
    s.countNarrowing p x n = { s with part := (s.countNarrowing p x n).part } := by
  unfold State.countNarrowing State.countConv
  split
  · dsimp only
    split
    · simp only [State.updRun, State.updArith, State.getPart_updPart_same, true_and]; rfl
    · simp only [State.updArith, State.getPart_updPart_same, true_and]; rfl
  · exact ⟨rfl, rfl⟩

/-- The contribution that an instruction makes of the words at SRC. -/
def State.ownPart (s : State) (rne : Bool) (f : Nat) (x : Fused) : List Nat :=
  (contribution x rne ((List.range (x.length / redSize x.redFmt)).map fun i => s.fsWord f (x.src + 4 * i))).codes

theorem State.ownPart_congr {t : State} (h : t.store = s.store) (rne : Bool) (f : Nat) (x : Fused) : t.ownPart rne f x = s.ownPart rne f x := by
  simp only [State.ownPart, State.fsWord_congr h]

/-- The contribution enters its program (R148, R155, R156). -/
theorem State.contribute_opens (hc : s.coll p k = some c) (hg : s.collGroup p c = some g) (hstage : c.stage = 0)
    (hhead : (stagesOf c.what.op g).head? = some (ax, gt)) (hneed : stageNeed g s.size s.here (c.total g) ax gt ≠ 0) (x : Fused) :
    (s.contribute p f k x).coll p k =
      some { c with vals := s.ownPart (s.f19Rne p) f x, ready := true, flag := (s.ownPart (s.f19Rne p) f x).all (redFinite x.redFmt) } ∧
    s.contribute p f k x = { s with
      part := (s.contribute p f k x).part, links := (s.contribute p f k x).links, out := (s.contribute p f k x).out } := by
  obtain ⟨n, hn⟩ : ∃ n, n = contribution x (s.f19Rne p) ((List.range (x.length / redSize x.redFmt)).map fun i => s.fsWord f (x.src + 4 * i)) := ⟨_, rfl⟩
  have hown : s.ownPart (s.f19Rne p) f x = n.codes := by rw [State.ownPart, hn]
  have hdef : s.contribute p f k x = (s.countNarrowing p x n).beginProgram p k n.codes (n.codes.all (redFinite x.redFmt)) := by rw [hn]; rfl
  obtain ⟨hpart, hframe⟩ := State.countNarrowing_spec p x n s
  rw [hdef, hown]
  generalize s.countNarrowing p x n = u at *
  have hsize : u.size = s.size := by rw [State.size, hframe]; rfl
  have hhere : u.here = s.here := by rw [State.here, hframe]; rfl
  obtain ⟨hcoll, hrest⟩ := State.beginProgram_opens (s := u) (c := c) ((State.coll_congr (by rw [hpart]) k).trans hc)
    (by rw [State.collGroup, hpart]; exact hg) hstage hhead (by rw [hsize, hhere]; exact hneed) n.codes (n.codes.all (redFinite x.redFmt))
  refine ⟨hcoll, ?_⟩
  generalize u.beginProgram p k n.codes (n.codes.all (redFinite x.redFmt)) = t at *
  rw [hrest, hframe]

/-! ### The array part (R55, R148) -/

theorem State.queueFused_getFrond (w cycle : Nat) (s : State) : (s.queueFused f w cycle k a).getFrond f = { s.getFrond f with
    arr := { (s.getFrond f).arr with queue := (s.getFrond f).arr.queue ++ [{ args := a, warden := w, fused := some k, cycle := cycle }] } } :=
  State.getFrond_updFrond_same _ _ _

theorem State.queueFused_others (w cycle : Nat) (s : State) : OtherFronds s (s.queueFused f w cycle k a) f := OtherFronds.updFrond f _ s

/-- A pass that enters leaves each partition but for its run. -/
theorem State.enterPass_parts (cycle : Nat) (fed : List Byte) (q : Nat) (s : State) :
    (s.enterPass f cycle a fed).getPart q = { s.getPart q with run := ((s.enterPass f cycle a fed).getPart q).run } := by
  have hparts : (s.passRun f cycle a fed).getPart q = s.getPart q := by rw [State.passRun_frame]; rfl
  rw [State.enterPass_eq, ← hparts]
  generalize s.passRun f cycle a fed = u
  cases a.token with
  | none => rfl
  | some tok => exact (State.raiseToken_wakes f tok u).2.2.1 q

/-- An instruction that does not receive feeds its rows from the frond store alone. -/
theorem State.enterFused_of (hc : s.coll p k = some c) (hop : c.what.op ≠ 2) (cycle : Nat) :
    s.enterFused p f cycle k a = (s.enterPass f cycle a []).afterPass p f k a := by
  have hfed : s.fedBytes p k = [] := by
    have hrecv : ¬c.what.op = opRecv := hop
    simp only [State.fedBytes, hc, if_neg hrecv]
  rw [State.enterFused, hfed]

section
variable (hc : s.coll p k = some c) (haborted : c.aborted = false) (hdone : c.done = false)
include hc haborted hdone

theorem State.afterPass_sends (hop : c.what.op = 1) : s.afterPass p f k a = s.rowsToSend p f k c.what a := by
  have hsend : c.what.op = opSend := hop
  simp only [State.afterPass, hc, haborted, hdone, hsend, Bool.false_eq_true, or_self, if_false, if_true]

theorem State.afterPass_contributes (hop : c.what.op = 3 ∨ c.what.op = 5) : s.afterPass p f k a = s.contribute p f k c.what := by
  have hsend : ¬c.what.op = opSend := fun h => by rcases hop with h' | h' <;> exact absurd (h'.symm.trans h) (by decide)
  have hrecv : ¬c.what.op = opRecv := fun h => by rcases hop with h' | h' <;> exact absurd (h'.symm.trans h) (by decide)
  have hag : ¬c.what.op = opAg := fun h => by rcases hop with h' | h' <;> exact absurd (h'.symm.trans h) (by decide)
  simp only [State.afterPass, hc, haborted, hdone, hsend, hrecv, hag, Bool.false_eq_true, or_self, if_false]

end

/-- The rows of an MM.SEND as they wait to be sent (R148). -/
theorem State.rowsToSend_spec (hc : s.coll p k = some c) (x : Fused) :
    (s.rowsToSend p f k x a).coll p k = some { c with vals := (sentRows x (s.f19Rne p) (s.resultRows f a)).codes, ready := true } ∧
    s.rowsToSend p f k x a = { s with part := (s.rowsToSend p f k x a).part } := by
  obtain ⟨hpart, hframe⟩ := State.countNarrowing_spec p x (sentRows x (s.f19Rne p) (s.resultRows f a)) s
  refine ⟨?_, ?_⟩
  · exact State.coll_updColl_same (f := fun d => { d with vals := (sentRows x (s.f19Rne p) (s.resultRows f a)).codes, ready := true }) (fun _ => rfl)
      ((State.coll_congr (by rw [hpart]) k).trans hc)
  · rw [State.rowsToSend]
    generalize s.countNarrowing p x (sentRows x (s.f19Rne p) (s.resultRows f a)) = u at *
    rw [hframe]
    rfl

/-! ### Chunks that wait already (R148) -/

/-- A ring that feeds its pass changes how many chunks each instruction has taken, their bytes and its progress. -/
theorem State.feedRing_spec (n g : Nat) (j : Nat × Nat) (hc : s.coll p k = some c) (hnow : c.progress = s.sync.stitch) :
    (∃ m vs, (s.feedRing p g j n).coll p k = some { c with chunks := m, vals := vs }) ∧
    s.feedRing p g j n = { s with part := (s.feedRing p g j n).part } := by
  induction n generalizing s c with
  | zero => exact ⟨⟨c.chunks, c.vals, hc⟩, rfl⟩
  | succ n ih =>
    unfold State.feedRing
    split
    · next d hd =>
      dsimp only
      split
      · obtain ⟨bs, hbs⟩ : ∃ bs, bs = s.fsRead g (d.what.dst + d.slotOff d.chunks) (d.chunkLen d.chunks) := ⟨_, rfl⟩
        rw [← hbs]
        have hstep : ∃ m vs, (s.updColl p j (Coll.tookChunk bs s.sync.stitch)).coll p k = some { c with chunks := m, vals := vs } := by
          by_cases hj : k = j
          · subst hj
            refine ⟨c.chunks + 1, c.vals ++ bs.map (·.toNat), (State.coll_updColl_same (Coll.tookChunk_key bs s.sync.stitch) hc).trans ?_⟩
            rw [Coll.tookChunk, ← hnow]
          · exact ⟨c.chunks, c.vals, (State.coll_updColl_ne (Coll.tookChunk_key bs s.sync.stitch) hj).trans hc⟩
        obtain ⟨m, vs, hcoll⟩ := hstep
        obtain ⟨⟨m', vs', hfed⟩, hframe⟩ := ih hcoll hnow
        exact ⟨⟨m', vs', hfed⟩, hframe⟩
      · exact ⟨⟨c.chunks, c.vals, hc⟩, rfl⟩
    · exact ⟨⟨c.chunks, c.vals, hc⟩, rfl⟩

theorem State.feed_spec (g : Nat) (hc : s.coll p k = some c) (hnow : c.progress = s.sync.stitch) :
    (∃ m vs, (s.feed p g).coll p k = some { c with chunks := m, vals := vs }) ∧ s.feed p g = { s with part := (s.feed p g).part } := by
  have hsame : (∃ m vs, s.coll p k = some { c with chunks := m, vals := vs }) ∧ s = { s with part := s.part } := ⟨⟨c.chunks, c.vals, hc⟩, rfl⟩
  unfold State.feed
  split
  · split
    · exact State.feedRing_spec 16 g _ hc hnow
    · exact hsame
  · exact hsame

end

/-! ### The parts of an issued instruction begin (R55, R148) -/

section
variable {s : State} {f p w cycle rc : Nat} {k : Nat × Nat} {c : Coll} {g : Group} {a : AstreamArgs} {ax : Nat} {gt : Bool}

section
variable (hop : c.what.op = 1 ∨ c.what.op = 3 ∨ c.what.op = 5)
include hop

/-- The array part of MM.SEND, MM.RS and MM.AR goes behind the passes that wait, or enters. -/
theorem State.beginFused_array : s.beginFused p f w cycle c a =
    if cycle < (s.getFrond f).arr.lastEnter ∨ !(s.getFrond f).arr.queue.isEmpty then s.queueFused f w cycle c.key a
    else s.enterFused p f cycle c.key a := by
  have hvec : ¬c.what.op = opVecAr := fun h => by rcases hop with h' | h' | h' <;> exact absurd (h'.symm.trans h) (by decide)
  have hag : ¬c.what.op = opAg := fun h => by rcases hop with h' | h' | h' <;> exact absurd (h'.symm.trans h) (by decide)
  have hrecv : ¬c.what.op = opRecv := fun h => by rcases hop with h' | h' | h' <;> exact absurd (h'.symm.trans h) (by decide)
  rw [State.beginFused, if_neg hvec, if_neg hag, if_neg hrecv]

theorem State.beginFused_queues (h : cycle < (s.getFrond f).arr.lastEnter ∨ (s.getFrond f).arr.queue ≠ []) :
    s.beginFused p f w cycle c a = s.queueFused f w cycle c.key a := (State.beginFused_array hop).trans (if_pos (by simpa using h))

theorem State.beginFused_enters (hc : s.coll p c.key = some c) (hle : (s.getFrond f).arr.lastEnter ≤ cycle) (hq : (s.getFrond f).arr.queue = []) :
    s.beginFused p f w cycle c a = (s.enterPass f cycle a []).afterPass p f c.key a := by
  have hrecv : c.what.op ≠ 2 := fun h => by rcases hop with h' | h' | h' <;> exact absurd (h'.symm.trans h) (by decide)
  rw [State.beginFused_array hop, if_neg (by simp [hq, hle]), State.enterFused_of hc hrecv]

end

theorem State.beginFused_receives (hop : c.what.op = 2) : s.beginFused p f w cycle c a = (s.queueFused f w cycle c.key a).feed p f := by
  have hvec : ¬c.what.op = opVecAr := fun h => absurd (hop.symm.trans h) (by decide)
  have hag : ¬c.what.op = opAg := fun h => absurd (hop.symm.trans h) (by decide)
  have hrecv : c.what.op = opRecv := hop
  rw [State.beginFused, if_neg hvec, if_neg hag, if_pos hrecv]

theorem State.beginFused_gathers (hop : c.what.op = 4) (hg : s.collGroup p c = some g) : s.beginFused p f w cycle c a =
    (s.queueFused f w cycle c.key a).beginProgram p c.key (putVals (List.replicate (c.total g) 0) (g.rank s.here * c.what.length)
      ((s.fsRead f c.what.src c.what.length).map (·.toNat))) true := by
  have hvec : ¬c.what.op = opVecAr := fun h => absurd (hop.symm.trans h) (by decide)
  have hag : c.what.op = opAg := hop
  rw [State.beginFused, if_neg hvec, if_pos hag]
  simp only [hg]

theorem State.beginFused_vector (hop : c.what.op = 6) : s.beginFused p f w cycle c a = s.contribute p f c.key c.what := if_pos hop

section
variable (hc : s.coll p c.key = some c) (haborted : c.aborted = false) (hdone : c.done = false)
  (hle : (s.getFrond f).arr.lastEnter ≤ cycle) (hq : (s.getFrond f).arr.queue = [])
  (hrc : rc = rowCycles (nth 0 (s.getFrond f).arr.fmt (s.getFrond f).arr.active))
include hc haborted hdone hle hq hrc

/-- The pass of an MM.SEND enters, and its rows wait to be sent (R148). -/
theorem State.beginFused_sends (hop : c.what.op = 1) {t : State} (ht : t = s.beginFused p f w cycle c a) :
    PassEntered s t f cycle rc a ∧
    t.coll p c.key = some { c with vals := (sentRows c.what (s.f19Rne p) (t.resultRows f a)).codes, ready := true } ∧
    OtherFronds s t f ∧ t = { s with part := t.part, frond := t.frond, store := t.store } := by
  rw [State.beginFused_enters (.inl hop) hc hle hq] at ht
  have hentered := State.enterPass_entered (c := cycle) (a := a) hrc
  have hpart := State.enterPass_parts (f := f) (a := a) cycle [] p s
  obtain ⟨_, _, _, hothers, hframe⟩ := State.enterPass_spec f cycle a [] s
  generalize s.enterPass f cycle a [] = v at *
  have hcv : v.coll p c.key = some c := (State.coll_congr (by rw [hpart]) c.key).trans hc
  rw [State.afterPass_sends hcv haborted hdone hop] at ht
  obtain ⟨hcoll, hrest⟩ := State.rowsToSend_spec (f := f) (a := a) hcv c.what
  rw [← ht] at hcoll hrest
  have hstore : t.store = v.store := by rw [hrest]
  have hfronds : ∀ g, t.getFrond g = v.getFrond g := fun g => by rw [hrest]; rfl
  have hrne : v.f19Rne p = s.f19Rne p := by rw [State.f19Rne, hpart]; rfl
  have hrows : t.resultRows f a = v.resultRows f a := by simp only [State.resultRows, State.fsWord_congr hstore]
  refine ⟨?_, ?_, fun g hg => (hfronds g).trans (hothers g hg), ?_⟩
  · exact hentered.congr rfl rfl (fun _ _ => rfl) hstore (by rw [hfronds]) (by rw [hfronds]) (by rw [hfronds]) (by rw [hfronds])
      fun _ _ => by rw [hfronds]
  · rw [hcoll, hrne, hrows]
  · rw [hrest, hframe]

/-- The pass of a reduction enters, and its contribution begins its program (R148, R155). -/
theorem State.beginFused_reduces (hop : c.what.op = 3 ∨ c.what.op = 5) (hstage : c.stage = 0) (hg : s.collGroup p c = some g)
    (hhead : (stagesOf c.what.op g).head? = some (ax, gt)) (hneed : stageNeed g s.size s.here (c.total g) ax gt ≠ 0) {t : State}
    (ht : t = s.beginFused p f w cycle c a) : PassEntered s t f cycle rc a ∧
    t.coll p c.key = some { c with
      vals := t.ownPart (s.f19Rne p) f c.what, ready := true, flag := (t.ownPart (s.f19Rne p) f c.what).all (redFinite c.what.redFmt) } := by
  rw [State.beginFused_enters (.inr hop) hc hle hq] at ht
  have hentered := State.enterPass_entered (c := cycle) (a := a) hrc
  have hpart := State.enterPass_parts (f := f) (a := a) cycle [] p s
  obtain ⟨_, _, _, _, hframe⟩ := State.enterPass_spec f cycle a [] s
  generalize s.enterPass f cycle a [] = v at *
  have hcv : v.coll p c.key = some c := (State.coll_congr (by rw [hpart]) c.key).trans hc
  have hsize : v.size = s.size := by rw [State.size, hframe]; rfl
  have hhere : v.here = s.here := by rw [State.here, hframe]; rfl
  have hrne : v.f19Rne p = s.f19Rne p := by rw [State.f19Rne, hpart]; rfl
  rw [State.afterPass_contributes hcv haborted hdone hop] at ht
  obtain ⟨hcoll, hrest⟩ := State.contribute_opens (f := f) hcv (by rw [State.collGroup, hpart]; exact hg) hstage hhead
    (by rw [hsize, hhere]; exact hneed) c.what
  rw [← ht] at hcoll hrest
  have hstore : t.store = v.store := by rw [hrest]
  have hfronds : ∀ g, t.getFrond g = v.getFrond g := fun g => by rw [hrest]; rfl
  refine ⟨?_, ?_⟩
  · exact hentered.congr rfl rfl (fun _ _ => rfl) hstore (by rw [hfronds]) (by rw [hfronds]) (by rw [hfronds]) (by rw [hfronds])
      fun _ _ => by rw [hfronds]
  · rw [hcoll, State.ownPart_congr hstore, hrne]

end

/-- The chunks that an RECV.MM's ring holds already are taken (R148). -/
theorem State.beginFused_takes (hc : s.coll p c.key = some c) (hnow : c.progress = s.sync.stitch) (hop : c.what.op = 2) {t : State}
    (ht : t = s.beginFused p f w cycle c a) : (∃ m vs, t.coll p c.key = some { c with chunks := m, vals := vs }) ∧
    t.getFrond f = { s.getFrond f with arr := { (s.getFrond f).arr with
      queue := (s.getFrond f).arr.queue ++ [{ args := a, warden := w, fused := some c.key, cycle := cycle }] } } ∧
    OtherFronds s t f ∧ t = { s with part := t.part, frond := t.frond } := by
  rw [State.beginFused_receives hop] at ht
  have hfrond := State.queueFused_getFrond (f := f) (k := c.key) (a := a) w cycle s
  have hothers := State.queueFused_others (f := f) (k := c.key) (a := a) w cycle s
  obtain ⟨hcoll, hrest⟩ := State.feed_spec (s := s.queueFused f w cycle c.key a) f hc hnow
  rw [← ht] at hcoll hrest
  have hfronds : ∀ g, t.getFrond g = (s.queueFused f w cycle c.key a).getFrond g := fun g => by rw [hrest]; rfl
  exact ⟨hcoll, (hfronds f).trans hfrond, fun g hg => (hfronds g).trans (hothers g hg), by rw [hrest]; rfl⟩

/-- An AG.MM puts its own part in place and begins its program; its array part waits (R148, R179). -/
theorem State.beginFused_spreads (hc : s.coll p c.key = some c) (hop : c.what.op = 4) (hstage : c.stage = 0) (hg : s.collGroup p c = some g)
    (hhead : (stagesOf c.what.op g).head? = some (ax, gt)) (hneed : stageNeed g s.size s.here (c.total g) ax gt ≠ 0) {t : State}
    (ht : t = s.beginFused p f w cycle c a) :
    t.coll p c.key = some { c with
      vals := putVals (List.replicate (c.total g) 0) (g.rank s.here * c.what.length) ((s.fsRead f c.what.src c.what.length).map (·.toNat))
      ready := true, flag := true } ∧
    (t.getFrond f).arr.queue = (s.getFrond f).arr.queue ++ [{ args := a, warden := w, fused := some c.key, cycle := cycle }] ∧ t.store = s.store := by
  rw [State.beginFused_gathers hop hg] at ht
  have hfrond := State.queueFused_getFrond (f := f) (k := c.key) (a := a) w cycle s
  obtain ⟨hcoll, hrest⟩ := State.beginProgram_opens (s := s.queueFused f w cycle c.key a) hc hg hstage hhead hneed
    (putVals (List.replicate (c.total g) 0) (g.rank s.here * c.what.length) ((s.fsRead f c.what.src c.what.length).map (·.toNat))) true
  rw [← ht] at hcoll hrest
  have hfronds : t.getFrond f = (s.queueFused f w cycle c.key a).getFrond f := by rw [hrest]; rfl
  exact ⟨hcoll, by rw [hfronds, hfrond], by rw [hrest]; rfl⟩

end

end Sys2Proof.Machine
end

section
/-! SUPPORT. Fused instructions as their wardens issue them: the stall until ES, bad records, what an issued one leaves, and O53. -/

namespace Sys2Proof.Machine

/-! ### The commands (R65, R77, R130, R134, R147) -/

section
variable {s : State} {f w record cycle op unit p : Nat} {a : AstreamArgs} {r : FrondRec} {x : Fused} {c : Instr}

/-- Which command issues which operation, and on which unit (R65, R148). -/
def IssuesFused (c : Instr) (op unit f w record cycle : Nat) (a : AstreamArgs) : Prop :=
  c = .mmSend f w record cycle a ∧ op = 1 ∧ unit = unitArray ∨ c = .recvMm f w record cycle a ∧ op = 2 ∧ unit = unitArray ∨
    c = .mmRs f w record cycle a ∧ op = 3 ∧ unit = unitArray ∨ c = .agMm f w record cycle a ∧ op = 4 ∧ unit = unitArray ∨
    c = .mmAr f w record cycle a ∧ op = 5 ∧ unit = unitArray ∨ c = .vecAr f w record ∧ op = 6 ∧ unit = unitVector ∧ a = default ∧ cycle = 0

theorem IssuesFused.unit_eq (h : IssuesFused c op unit f w record cycle a) : (if op = opVecAr then unitVector else unitArray) = unit := by
  rcases h with ⟨_, rfl, rfl⟩ | ⟨_, rfl, rfl⟩ | ⟨_, rfl, rfl⟩ | ⟨_, rfl, rfl⟩ | ⟨_, rfl, rfl⟩ | ⟨_, rfl, rfl, _⟩ <;> rfl

theorem IssuesFused.exec_eq (h : IssuesFused c op unit f w record cycle a) : exec c s = .next (s.fusedIssue op f w record cycle a) := by
  rcases h with ⟨rfl, rfl, _⟩ | ⟨rfl, rfl, _⟩ | ⟨rfl, rfl, _⟩ | ⟨rfl, rfl, _⟩ | ⟨rfl, rfl, _⟩ | ⟨rfl, rfl, _, rfl, rfl⟩ <;> rfl

theorem exec_fused (h : IssuesFused c op unit f w record cycle a) : exec c s = .next (s.drivenBy f unit w fun p r =>
    if !r.pageOk record 64 then s.unitFault f unit w
    else if s.esReached p (fusedParse (s.fsRead f record 64)).es then s.fusedGo op f w record cycle p r a
    else s.setWait f w (some (.fused op record cycle a))) := by
  rw [h.exec_eq, ← h.unit_eq]
  refine congrArg Host.Outcome.next (State.eq_drivenBy (fun hd => ?_) (fun p r hd => ?_) fun p r hd => ?_) <;>
    simp only [State.fusedIssue, hd] <;> rfl

/-- An OP that is none of the six is out of its range (R71, R147). -/
theorem fusedBad_op {b : List Byte} (h : (fusedParse b).op = 0 ∨ 6 < (fusedParse b).op) (members : Nat → Option Nat) :
    (fusedBad b members).isSome = true := by
  have hrange : (decide (1 ≤ (fusedParse b).op) && decide ((fusedParse b).op ≤ 6)) = false := by simp; omega
  unfold fusedBad
  dsimp only
  rw [hrange, firstBad, List.find?_cons_of_pos rfl]
  rfl

theorem State.esReached_iff {es : Nat} : s.esReached p es = true ↔ (s.getPart p).run.base + es ≤ s.sync.stitch := decide_eq_true_iff

theorem State.fusedGo_other (hx : x = fusedParse (s.fsRead f record 64)) (h : x.op ≠ op ∧ 1 ≤ x.op ∧ x.op ≤ 6) :
    s.fusedGo op f w record cycle p r a = s := by
  subst hx
  exact if_pos h

theorem State.fusedGo_faulty (hx : x = fusedParse (s.fsRead f record 64))
    (h : x.op = 0 ∨ 6 < x.op ∨ x.op = op ∧ s.fusedFaulty f p r (s.fsRead f record 64) a = true) :
    s.fusedGo op f w record cycle p r a = s.unitFault f (if op = opVecAr then unitVector else unitArray) w := by
  subst hx
  have hfaulty : s.fusedFaulty f p r (s.fsRead f record 64) a = true := by
    rcases h with h | h | ⟨_, h⟩
    · simp [State.fusedFaulty, fusedBad_op (.inl h)]
    · simp [State.fusedFaulty, fusedBad_op (.inr h)]
    · exact h
  exact (if_neg (by omega)).trans (if_pos hfaulty)

theorem State.fusedGo_issues (hx : x = fusedParse (s.fsRead f record 64)) (hop : x.op = op)
    (hok : s.fusedFaulty f p r (s.fsRead f record 64) a = false) : s.fusedGo op f w record cycle p r a =
      ((s.recordIssue p x.es).enrol p (newColl (s.getPart p) f record s.sync.stitch x)).launchFused p f w
        (max cycle (s.getFrond f).arr.stallTo) (newColl (s.getPart p) f record s.sync.stitch x) a := by
  subst hx
  exact (if_neg fun h => h.1 hop).trans (if_neg (by simp [hok]))

end

/-! ### What an issued instruction leaves -/

section
variable {s t : State} {f p es l w cycle : Nat} {y z : Coll} {a : AstreamArgs}

/-- What every issue leaves: the instruction stands last among those of the step, with the next number of its group, and its lateness counts. -/
def FusedJoined (s t : State) (f p l : Nat) (y : Coll) : Prop :=
  (t.getPart p).colls.map Coll.issuedAs = ((s.getPart p).colls ++ [y]).map Coll.issuedAs ∧
  (t.getPart p).collNext = Tab.upd 0 (s.getPart p).collNext y.group (· + 1) ∧
  ((s.getFrond f).wait = [] → (t.getPart p).run.slip = min (max (s.getPart p).run.slip l) (2 ^ 32 - 1) ∧
    (t.getPart p).run.lateIssues = (if l = 0 then (s.getPart p).run.lateIssues else satAdd 64 (s.getPart p).run.lateIssues 1)) ∧
  (∀ q, q ≠ p → t.getPart q = s.getPart q) ∧ t.far = s.far ∧ t.chan = s.chan ∧ t.sync = s.sync ∧ t.ctx = s.ctx ∧ t.mem = s.mem ∧
  t.localStore = s.localStore

theorem State.launchFused_discards (h : (s.getPart p).run.discard = true) : s.launchFused p f w cycle y a = s := if_pos h

theorem State.launchFused_goes (h : (s.getPart p).run.discard = false) : s.launchFused p f w cycle y a = s.beginFused p f w cycle y a :=
  if_neg (by simp [h])

/-- An abort record that came before aborts the instruction at once, and nothing of it begins (R163, R296). -/
theorem State.launchFused_aborted {b : Abort} (hl : l = s.sync.stitch - ((s.getPart p).run.base + es))
    (hnew : ∀ z ∈ (s.getPart p).colls, z.key ≠ y.key) (hb : (s.getPart p).earlyAbort y = some b)
    (ht : t = ((s.recordIssue p es).enrol p y).launchFused p f w cycle y a) : FusedJoined s t f p l y ∧
    t.coll p y.key = some { y with aborted := true, best := some b } ∧ (t.getPart p).run.abort = true ∧ (t.getPart p).run.discard = true ∧
    (t.getPart p).twin = { (s.getPart p).twin with collAborts := satAdd 64 (s.getPart p).twin.collAborts 1 } ∧
    t = { s with part := t.part, frond := t.frond } := by
  have hupart := State.joined_getPart p es (some b) y s
  have huother : ∀ q, q ≠ p → (s.joined p es (some b) y).getPart q = s.getPart q := fun q hq => State.joined_getPart_ne hq
  have huframe := State.joined_frame p es (some b) y s
  have hjoined := State.joined_coll (es := es) (b := some b) hnew
  have hgo : t = (s.joined p es (some b) y).abortInstance p y.key := by
    obtain ⟨_, _, _, hdiscard, _⟩ := State.abortInstance_spec hjoined rfl
    rw [ht, State.enrol_aborts hb]
    exact State.launchFused_discards hdiscard
  obtain ⟨hcoll, hissued, habort, hdiscard, hslip, hlate, hpart, hother, hframe⟩ := State.abortInstance_spec hjoined hgo
  clear ht hgo hjoined
  generalize s.joined p es (some b) y = u at *
  subst hl
  refine ⟨⟨?_, ?_, fun _ => ⟨?_, ?_⟩, fun q hq => (hother q hq).trans (huother q hq), ?_, ?_, ?_, ?_, ?_, ?_⟩, hcoll, habort, hdiscard, ?_, ?_⟩
  · rw [hissued, hupart]
    show List.map Coll.issuedAs ((s.getPart p).colls ++ [{ y with best := some b }]) = _
    rw [List.map_append, List.map_append]
    rfl
  · rw [hpart, hupart]
  · rw [hslip, hupart]
  · rw [hlate, hupart]
  case refine_11 => rw [hpart, hupart]
  all_goals rw [hframe, huframe]

/-- The parts of an instruction that no record aborted begin. -/
theorem State.launchFused_begins (hb : (s.getPart p).earlyAbort y = none) (hgoes : (s.getPart p).run.discard = false) :
    ((s.recordIssue p es).enrol p y).launchFused p f w cycle y a = (s.joined p es none y).beginFused p f w cycle y a := by
  rw [State.enrol_joins hb]
  refine State.launchFused_goes ?_
  rw [State.joined_getPart]
  exact hgoes

theorem State.joined_plain (hbest : y.best = none) : ({ y with best := none } : Coll) = y := by rw [← hbest]

/-- Whatever begins keeps what the issue left. -/
theorem State.beginFused_joined (hl : l = s.sync.stitch - ((s.getPart p).run.base + es)) (hbest : y.best = none) (hfrond : y.frond = f)
    (hnew : ∀ z ∈ (s.getPart p).colls, z.key ≠ y.key) (hown : s.owner f = some p)
    (ht : t = (s.joined p es none y).beginFused p f w cycle y a) : FusedJoined s t f p l y ∧ ∃ z, t.coll p y.key = some z := by
  have hcoll := State.joined_coll (es := es) (b := none) hnew
  rw [State.joined_plain hbest] at hcoll
  have hruns : RunsProgram f p y.key (s.joined p es none y) :=
    ⟨(State.joined_owner p es none y f s).trans hown, fun c hc => by rw [hcoll] at hc; rw [← Option.some.inj hc]; exact hfrond⟩
  have hmoved := State.beginFused_advances w cycle rfl a _ hruns
  have hupart := State.joined_getPart p es none y s
  have huother : ∀ q, q ≠ p → (s.joined p es none y).getPart q = s.getPart q := fun q hq => State.joined_getPart_ne hq
  have huframe := State.joined_frame p es none y s
  rw [State.joined_plain hbest] at hupart
  rw [← ht] at hmoved
  generalize s.joined p es none y = u at *
  obtain ⟨hissued, hquiet, hpart, hother, hframe⟩ := hmoved
  have hufrond : u.getFrond f = s.getFrond f := by rw [huframe]; rfl
  subst hl
  refine ⟨⟨?_, ?_, fun hw => ?_, fun q hq => (hother q hq).trans (huother q hq), ?_, ?_, ?_, ?_, ?_, ?_⟩, ?_⟩
  · rw [hissued, hupart]
  · rw [hpart, hupart]
  · obtain ⟨_, hslip, hlate⟩ := hquiet (by rw [hufrond]; exact hw)
    exact ⟨by rw [hslip, hupart], by rw [hlate, hupart]⟩
  case refine_10 =>
    have hsame := State.coll_issuedAs hissued y.key
    rw [hcoll] at hsame
    exact Option.isSome_iff_exists.1 (by rw [← Option.isSome_map, hsame]; rfl)
  all_goals rw [hframe, huframe]

end

/-! ### What begins of an issued instruction, in the words of O53 -/

section
variable {s t u : State} {f p es w cycle rc : Nat} {y : Coll} {a : AstreamArgs} {g : Group} {ax : Nat} {gt : Bool}

/-- In the state in which an instruction has joined, everything but its partition is as it was. -/
theorem State.joined_keeps (hbest : y.best = none) (hnew : ∀ z ∈ (s.getPart p).colls, z.key ≠ y.key) (hu : u = s.joined p es none y) :
    u.coll p y.key = some y ∧ (u.getPart p).colls = (s.getPart p).colls ++ [y] ∧ (∀ h, u.getFrond h = s.getFrond h) ∧
    u.f19Rne p = s.f19Rne p ∧ (∀ c, u.collGroup p c = s.collGroup p c) ∧ u.size = s.size ∧ u.here = s.here ∧
    u = { s with part := u.part } := by
  have hcoll := State.joined_coll (es := es) (b := none) hnew
  have hpart := State.joined_getPart p es none y s
  have hframe := State.joined_frame p es none y s
  rw [State.joined_plain hbest] at hcoll hpart
  rw [← hu] at *
  refine ⟨hcoll, by rw [hpart], fun h => ?_, ?_, fun c => ?_, ?_, ?_, hframe⟩
  · rw [hframe]; rfl
  · rw [State.f19Rne, hpart]; rfl
  · rw [State.collGroup, hpart]; rfl
  · rw [State.size, hframe]; rfl
  · rw [State.here, hframe]; rfl

section
variable (hbest : y.best = none) (hnew : ∀ z ∈ (s.getPart p).colls, z.key ≠ y.key) (ht : t = (s.joined p es none y).beginFused p f w cycle y a)
include hbest hnew ht

theorem State.issued_queues (hop : y.what.op = 1 ∨ y.what.op = 3 ∨ y.what.op = 5)
    (h : cycle < (s.getFrond f).arr.lastEnter ∨ (s.getFrond f).arr.queue ≠ []) :
    t.coll p y.key = some y ∧ (t.getPart p).colls = (s.getPart p).colls ++ [y] ∧
    t.getFrond f = { s.getFrond f with arr := { (s.getFrond f).arr with
      queue := (s.getFrond f).arr.queue ++ [{ args := a, warden := w, fused := some y.key, cycle := cycle }] } } ∧
    OtherFronds s t f ∧ t = { s with part := t.part, frond := t.frond } := by
  obtain ⟨hcoll, hcolls, hfronds, _, _, _, _, hframe⟩ := State.joined_keeps (es := es) hbest hnew rfl
  generalize s.joined p es none y = u at *
  rw [State.beginFused_queues hop (by rw [hfronds]; exact h)] at ht
  have hfrond := State.queueFused_getFrond (f := f) (k := y.key) (a := a) w cycle u
  have hothers := State.queueFused_others (f := f) (k := y.key) (a := a) w cycle u
  have hqueue : t = { u with frond := t.frond } := by rw [ht]; rfl
  have hparts : t.getPart p = u.getPart p := by rw [hqueue]; rfl
  rw [← ht] at hfrond hothers
  refine ⟨(State.coll_congr (by rw [hparts]) _).trans hcoll, by rw [hparts, hcolls], by rw [hfrond, hfronds],
    fun h hne => (hothers h hne).trans (hfronds h), ?_⟩
  rw [hqueue, hframe]

theorem State.issued_takes (hnow : y.progress = s.sync.stitch) (hop : y.what.op = 2) :
    (∃ m vs, t.coll p y.key = some { y with chunks := m, vals := vs }) ∧
    t.getFrond f = { s.getFrond f with arr := { (s.getFrond f).arr with
      queue := (s.getFrond f).arr.queue ++ [{ args := a, warden := w, fused := some y.key, cycle := cycle }] } } ∧
    OtherFronds s t f ∧ t = { s with part := t.part, frond := t.frond } := by
  obtain ⟨hcoll, _, hfronds, _, _, _, _, hframe⟩ := State.joined_keeps (es := es) hbest hnew rfl
  generalize s.joined p es none y = u at *
  have hsync : u.sync = s.sync := by rw [hframe]
  obtain ⟨htaken, hfrond, hothers, hrest⟩ := State.beginFused_takes hcoll (hnow.trans (by rw [hsync])) hop ht
  exact ⟨htaken, by rw [hfrond, hfronds], fun h hne => (hothers h hne).trans (hfronds h), by rw [hrest, hframe]⟩

theorem State.issued_spreads (hop : y.what.op = 4) (hstage : y.stage = 0) (hg : s.collGroup p y = some g)
    (hhead : (stagesOf y.what.op g).head? = some (ax, gt)) (hneed : stageNeed g s.size s.here (y.total g) ax gt ≠ 0) :
    t.coll p y.key = some { y with
      vals := putVals (List.replicate (y.total g) 0) (g.rank s.here * y.what.length) ((s.fsRead f y.what.src y.what.length).map (·.toNat))
      ready := true, flag := true } ∧
    (t.getFrond f).arr.queue = (s.getFrond f).arr.queue ++ [{ args := a, warden := w, fused := some y.key, cycle := cycle }] ∧ t.store = s.store := by
  obtain ⟨hcoll, _, hfronds, _, hgroup, hsize, hhere, hframe⟩ := State.joined_keeps (es := es) hbest hnew rfl
  generalize s.joined p es none y = u at *
  have hustore : u.store = s.store := by rw [hframe]
  obtain ⟨hspread, hqueue, hstore⟩ := State.beginFused_spreads hcoll hop hstage ((hgroup y).trans hg) hhead (by rw [hsize, hhere]; exact hneed) ht
  rw [hhere, State.fsRead_congr hustore] at hspread
  exact ⟨hspread, by rw [hqueue, hfronds], hstore.trans hustore⟩

theorem State.issued_vector (hop : y.what.op = 6) (hstage : y.stage = 0) (hg : s.collGroup p y = some g)
    (hhead : (stagesOf y.what.op g).head? = some (ax, gt)) (hneed : stageNeed g s.size s.here (y.total g) ax gt ≠ 0) :
    t.coll p y.key = some { y with
      vals := t.ownPart (s.f19Rne p) f y.what, ready := true, flag := (t.ownPart (s.f19Rne p) f y.what).all (redFinite y.what.redFmt) } ∧
    t.store = s.store ∧ t.frond = s.frond := by
  obtain ⟨hcoll, _, _, hrne, hgroup, hsize, hhere, hframe⟩ := State.joined_keeps (es := es) hbest hnew rfl
  generalize s.joined p es none y = u at *
  rw [State.beginFused_vector hop] at ht
  obtain ⟨hbegun, hrest⟩ := State.contribute_opens (f := f) hcoll ((hgroup y).trans hg) hstage hhead (by rw [hsize, hhere]; exact hneed) y.what
  rw [← ht] at hbegun hrest
  have hstore : t.store = u.store := by rw [hrest]
  rw [hrne, ← State.ownPart_congr hstore] at hbegun
  exact ⟨hbegun, by rw [hrest, hframe], by rw [hrest, hframe]⟩

section
variable (haborted : y.aborted = false) (hdone : y.done = false) (hle : (s.getFrond f).arr.lastEnter ≤ cycle) (hq : (s.getFrond f).arr.queue = [])
  (hrc : rc = rowCycles (nth 0 (s.getFrond f).arr.fmt (s.getFrond f).arr.active))
include haborted hdone hle hq hrc

theorem State.issued_sends (hop : y.what.op = 1) : PassEntered s t f cycle rc a ∧
    t.coll p y.key = some { y with vals := (sentRows y.what (s.f19Rne p) (t.resultRows f a)).codes, ready := true } ∧
    OtherFronds s t f ∧ t = { s with part := t.part, frond := t.frond, store := t.store } := by
  obtain ⟨hcoll, _, hfronds, hrne, _, _, _, hframe⟩ := State.joined_keeps (es := es) hbest hnew rfl
  generalize s.joined p es none y = u at *
  rw [← hfronds f] at hle hq hrc
  obtain ⟨hpass, hsent, hothers, hrest⟩ := State.beginFused_sends hcoll haborted hdone hle hq hrc hop ht
  rw [hrne] at hsent
  refine ⟨hpass.congr ?_ ?_ (fun _ _ => ?_) rfl rfl rfl rfl rfl fun _ _ => rfl, hsent, fun h hne => (hothers h hne).trans (hfronds h), ?_⟩
  · rw [hframe]
  · rw [hfronds]
  · rw [hfronds]
  · rw [hrest, hframe]

theorem State.issued_reduces (hop : y.what.op = 3 ∨ y.what.op = 5) (hstage : y.stage = 0) (hg : s.collGroup p y = some g)
    (hhead : (stagesOf y.what.op g).head? = some (ax, gt)) (hneed : stageNeed g s.size s.here (y.total g) ax gt ≠ 0) :
    PassEntered s t f cycle rc a ∧ t.coll p y.key = some { y with
      vals := t.ownPart (s.f19Rne p) f y.what, ready := true, flag := (t.ownPart (s.f19Rne p) f y.what).all (redFinite y.what.redFmt) } := by
  obtain ⟨hcoll, _, hfronds, hrne, hgroup, hsize, hhere, hframe⟩ := State.joined_keeps (es := es) hbest hnew rfl
  generalize s.joined p es none y = u at *
  rw [← hfronds f] at hle hq hrc
  obtain ⟨hpass, hbegun⟩ := State.beginFused_reduces hcoll haborted hdone hle hq hrc hop hstage ((hgroup y).trans hg) hhead
    (by rw [hsize, hhere]; exact hneed) ht
  rw [hrne] at hbegun
  refine ⟨hpass.congr ?_ ?_ (fun _ _ => ?_) rfl rfl rfl rfl rfl fun _ _ => rfl, hbegun⟩
  · rw [hframe]
  · rw [hfronds]
  · rw [hfronds]

end

end

end

/-! ### O53 -/

/-- Settles O53: an issued instruction joins the step by `State.launchFused_aborted` or `State.beginFused_joined`, and what then begins of it is said
operation by operation, in the state in which it has joined. -/
theorem fusedInstructionsIssue : Obligations.FusedInstructionsIssue := by
  unfold Obligations.FusedInstructionsIssue
  intro s c op unit f w record cycle p gid n l cyc r a x y e hgid hn hc hx hcyc hl hy he
  have hissues : IssuesFused c op unit f w record cycle a := hc
  refine ⟨exec_idle (exec_fused hissues), exec_foreign (exec_fused hissues), fun hown => ?_⟩
  have hexec := exec_own (exec_fused hissues) hown
  rw [← hx] at hexec
  refine ⟨fun hpage => ?page, fun hpage hes => ?waits, fun hpage hes => ?_⟩
  case page => rw [hexec, if_pos (by simp [hpage])]
  case waits => rw [hexec, if_neg (by simp [hpage]), if_neg fun h => Nat.not_le.2 hes (State.esReached_iff.1 h)]
  rw [if_neg (by simp [hpage]), if_pos (State.esReached_iff.2 hes)] at hexec
  refine ⟨fun hne h1 h6 => ?other, fun h => ?faulty, fun hop hok hnew => ?_⟩
  case other => rw [hexec, State.fusedGo_other hx ⟨hne, h1, h6⟩]
  case faulty => rw [hexec, State.fusedGo_faulty hx h, hissues.unit_eq]
  have hcoll : newColl (s.getPart p) f record s.sync.stitch x = y := by
    have hgroup : (if x.op ≤ opRecv then 65536 + x.group else x.group) = gid := by rw [hop, hgid]; rfl
    simp only [newColl, hgroup, ← hn]
    exact hy.symm
  rw [State.fusedGo_issues hx hop hok, hcoll, ← hcyc] at hexec
  have hkey : y.key = (gid, n) := by rw [hy]; rfl
  have hgroup : y.group = gid := by rw [hy]
  have hwhat : y.what = x := by rw [hy]
  have hbest : y.best = none := by rw [hy]
  have haborted : y.aborted = false := by rw [hy]
  have hdone : y.done = false := by rw [hy]
  have hflag : y.flag = true := by rw [hy]
  have hstage : y.stage = 0 := by rw [hy]
  have hfrond : y.frond = f := by rw [hy]
  have hprogress : y.progress = s.sync.stitch := by rw [hy]
  have hearly : (s.getPart p).earlyAbort y = e := by rw [he, hy]; rfl
  clear hy hcoll hn
  subst hwhat
  obtain ⟨⟨r', hissuer⟩, hruns, _⟩ := State.driven_some hown
  obtain ⟨_, _, hgoes⟩ := State.issuer_some hissuer
  have howner := (State.unitRuns_owner hruns).1
  rw [← hkey] at hnew ⊢
  rw [← hgroup]
  cases e with
  | some b =>
    obtain ⟨⟨hissued, hnext, hlate, hother, hrest⟩, hz, habort, hdiscard, htwin, hframe⟩ :=
      State.launchFused_aborted (f := f) (w := w) (cycle := cyc) (a := a) hl hnew hearly rfl
    refine ⟨_, _, hexec, hz, hissued, hnext, hlate, fun b' hb => ?_, fun h => absurd h (Option.some_ne_none b), hother, hrest⟩
    cases hb
    exact ⟨rfl, habort, hdiscard, htwin, hframe⟩
  | none =>
    rw [State.launchFused_begins hearly hgoes] at hexec
    obtain ⟨⟨hissued, hnext, hlate, hother, hrest⟩, z, hz⟩ :=
      State.beginFused_joined (w := w) (cycle := cyc) (a := a) hl hbest hfrond hnew howner rfl
    refine ⟨_, z, hexec, hz, hissued, hnext, hlate, fun b hb => absurd hb.symm (Option.some_ne_none b), fun _ => ?_, hother, hrest⟩
    obtain ⟨t, ht⟩ : ∃ t, t = (s.joined p y.what.es none y).beginFused p f w cyc y a := ⟨_, rfl⟩
    rw [← ht] at hz ⊢
    have hfound : ∀ {z'}, t.coll p y.key = some z' → z = z' := fun h => Option.some.inj (hz.symm.trans h)
    refine ⟨fun h hbusy => ?queues, fun h => ?takes, fun rc h hle hq hrc => ?sends, fun g ax gt hg hhead hneed => ?_⟩
    case queues =>
      obtain ⟨hcoll, hstands⟩ := State.issued_queues hbest hnew ht (hop ▸ h) hbusy
      exact ⟨hfound hcoll, hstands⟩
    case takes =>
      obtain ⟨⟨m, vs, hcoll⟩, hstands⟩ := State.issued_takes hbest hnew ht hprogress (hop.trans h)
      refine ⟨⟨m, ?_⟩, hstands⟩
      rw [hfound hcoll, ← hprogress]
    case sends =>
      obtain ⟨hpass, hcoll, hstands⟩ := State.issued_sends hbest hnew ht haborted hdone hle hq hrc (hop.trans h)
      exact ⟨hpass, hfound hcoll, hstands⟩
    rw [← hop] at hhead
    refine ⟨fun h => ?spreads, fun v h hv => ?_⟩
    case spreads =>
      obtain ⟨hcoll, hstands⟩ := State.issued_spreads hbest hnew ht (hop.trans h) hstage hg hhead hneed
      refine ⟨?_, hstands⟩
      rw [hfound hcoll, hflag]
    subst hv
    rcases h with h | ⟨h, hle, hq⟩
    · obtain ⟨hcoll, hstands⟩ := State.issued_vector hbest hnew ht (hop.trans h) hstage hg hhead hneed
      exact ⟨hfound hcoll, fun _ => hstands, fun _ hne => absurd h hne⟩
    · have hreduces : ∀ rc, rc = rowCycles (nth 0 (s.getFrond f).arr.fmt (s.getFrond f).arr.active) → _ := fun rc hrc =>
        State.issued_reduces hbest hnew ht haborted hdone hle hq hrc (hop.symm ▸ h) hstage hg hhead hneed
      obtain ⟨_, hcoll⟩ := hreduces _ rfl
      exact ⟨hfound hcoll, fun h6 => absurd h6 (by rcases h with h | h <;> rw [h] <;> decide), fun rc _ hrc => (hreduces rc hrc).1⟩

end Sys2Proof.Machine
end

section
/-! SUPPORT. The commands that answer with words of the state: each answers the words of its reply; then the statement about them. -/

namespace Sys2Proof.Machine

section
variable {s : State} {ch : Nat} {h : Held} {b : List Byte}

theorem exec_partQuery (hc : Commanded s 0x0103 ch h b) : exec (.partQuery ch) s = .next (s.answer ch .ok (s.partWords h.part)) :=
  congrArg Host.Outcome.next (State.runCommand_commanded hc _)

theorem exec_patternStatus (hc : Commanded s 0x0205 ch h b) :
    exec (.patternStatus ch) s = .next (s.answer ch .ok (s.getPart h.part).statusWords) :=
  congrArg Host.Outcome.next (State.runCommand_commanded hc _)

theorem exec_twinStatus (hc : Commanded s 0x0804 ch h b) : exec (.twinStatus ch) s = .next (s.answer ch .ok (s.twinWords h.part)) :=
  congrArg Host.Outcome.next (State.runCommand_commanded hc _)

theorem exec_powerReport (hc : Commanded s 0x0303 ch h b) : exec (.powerReport ch) s = .next (s.answer ch .ok s.powerWords).nextFree :=
  congrArg Host.Outcome.next (State.runCommand_commanded hc _)

end

/-- The frond groups of a partition that are not retired, in one filter (R405). -/
theorem liveGroups_eq (groups retired : BitVec 144) : (groupsOf groups).filter (fun g => !(retired.getLsbD g)) =
    (List.range 144).filter fun g => groups.getLsbD g && !(retired.getLsbD g) := by
  rw [groupsOf, List.filter_filter]
  exact List.filter_congr fun g _ => Bool.and_comm _ _

/-- The five words of a mask of 144 frond groups. -/
theorem maskWords_eq (n : Nat) : (List.range 5).map (fun i => n / 2 ^ (32 * i) % 2 ^ 32) =
    [n % 2 ^ 32, n / 2 ^ 32 % 2 ^ 32, n / 2 ^ 64 % 2 ^ 32, n / 2 ^ 96 % 2 ^ 32, n / 2 ^ 128 % 2 ^ 32] := by
  simp only [List.range_succ_eq_map, List.range_zero, List.map_cons, List.map_nil, Nat.mul_zero, Nat.pow_zero, Nat.div_one]

/-- The words of a PATTERN_STATUS that tell the abort are those of the report, zero where there is none (R138, R297). -/
theorem abortWords_eq (a : Option (Coord × Nat × Nat)) :
    [(a.getD ({}, 0, 0)).1.x + 2 ^ 8 * (a.getD ({}, 0, 0)).1.y + 2 ^ 16 * (a.getD ({}, 0, 0)).1.z, (a.getD ({}, 0, 0)).2.1] =
      [match a with | some a => a.1.x + 2 ^ 8 * a.1.y + 2 ^ 16 * a.1.z | none => 0, match a with | some a => a.2.1 | none => 0] := by
  cases a <;> rfl

/-- The low bit of a condition as a number. -/
theorem b2n_decide (c : Prop) [Decidable c] : b2n (decide c) = if c then 1 else 0 := by
  by_cases h : c <;> simp [b2n, h]

/-- Settles O16, command by command: each answers its words, and they are laid out as the spec lists them. -/
theorem queriesAnswerInWords : Obligations.QueriesAnswerInWords := by
  unfold Obligations.QueriesAnswerInWords
  intro s ch h b q hq
  subst hq
  refine ⟨fun hc => ?partQuery, fun hc => ?patternStatus, fun hc => ?twinStatus, fun hc => ?powerReport⟩
  case partQuery =>
    rw [exec_partQuery hc, State.partWords, liveGroups_eq, maskWords_eq]
    rfl
  case patternStatus =>
    rw [exec_patternStatus hc, Partition.statusWords, abortWords_eq]
    rfl
  case twinStatus =>
    rw [exec_twinStatus hc, State.twinWords, show (s.aon.park == Park.parked) = decide (s.aon.park = .parked) from rfl, b2n_decide]
    cases s.links.plan <;> rfl
  case powerReport =>
    exact ⟨Config.powerW s.free, Config.energyJ s.free, _, rfl, exec_powerReport hc⟩

end Sys2Proof.Machine
end

section
/-! SUPPORT. The begin of a step: the partition with the new step, the copy of its control block in HBM, and the end of a comparison; then the
statement about the steps. -/

namespace Sys2Proof.Machine

section
variable {s u : State} {p n base : Nat} {q : Partition}

/-! ### The copy of the control block (R159) -/

theorem State.copyTcb_frame (p : Nat) (s : State) : s.copyTcb p = { s with far := (s.copyTcb p).far } := by
  unfold State.copyTcb
  split
  · rfl
  · simp only

theorem State.copyTcb_getPart (p k : Nat) (s : State) : (s.copyTcb p).getPart k = s.getPart k := by
  rw [State.copyTcb_frame]; rfl

/-- Where the pattern declares no HBM the copy is nowhere. -/
theorem State.copyTcb_far_of_none (h : (s.getPart p).image.amount 3 0 = 0) : (s.copyTcb p).far = s.far := by
  rw [State.copyTcb, if_pos h]

/-- The copy is the 256 bytes at HBM offset 0. -/
theorem State.copyTcb_far (h : (s.getPart p).image.amount 3 0 ≠ 0) :
    (s.copyTcb p).far = s.far.writeN (s.getPart p).hbmBase (s.getPart p).tcb.bytes := by
  rw [State.copyTcb, if_neg h]

theorem Tcb.bytes_length (t : Tcb) : t.bytes.length = 256 := record_length _ _

/-- What the copy leaves in far memory: the block where it lies, and every other byte. -/
theorem State.copyTcb_reads (h : (s.getPart p).image.amount 3 0 ≠ 0) :
    (s.copyTcb p).far.readN (s.getPart p).hbmBase 256 = (s.getPart p).tcb.bytes ∧
      ∀ x, x < (s.getPart p).hbmBase ∨ (s.getPart p).hbmBase + 256 ≤ x → (s.copyTcb p).far.read x = s.far.read x := by
  rw [State.copyTcb_far h]
  refine ⟨?_, fun x hx => Mem.read_writeN_out _ _ _ (by rwa [Tcb.bytes_length])⟩
  have hread := Mem.readN_writeN s.far (s.getPart p).hbmBase (s.getPart p).tcb.bytes
  rwa [Tcb.bytes_length] at hread

/-! ### The end of a comparison (R305) -/

theorem State.becomeSolo_getPart (p k : Nat) (s : State) : (s.becomeSolo p).getPart k =
    if k = p then { s.getPart p with twin := { (s.getPart p).twin.quiet with state := .solo, soloNext := false } } else s.getPart k := by
  rw [State.becomeSolo, State.raise_getPart]
  exact State.getPart_updPart _ _ _ _

theorem State.becomeSolo_frame (p : Nat) (s : State) : s.becomeSolo p = { s with
    part := (s.becomeSolo p).part, irq := (s.becomeSolo p).irq, pcie := (s.becomeSolo p).pcie, out := (s.becomeSolo p).out } := by
  rw [State.becomeSolo, State.raise_frame]; rfl

theorem State.becomeSolo_caused (p : Nat) (h : s.irq.status.length = 11) : (s.becomeSolo p).caused .solo := State.raise_caused .solo h

/-! ### A step begins (R135, R157, R159) -/

/-- A partition as step n begins at a base. -/
def Partition.begun (n base : Nat) (q : Partition) : Partition :=
  { q with run := q.run.beginStep n base, arithNow := {}, colls := [], tokens := [], twin := q.twin.beginStep n
           earlyAborts := q.earlyAborts.filter fun (a : Abort) => decide (n ≤ a.step) }

/-- A step begins, its control block copied. -/
def State.begun (p n base : Nat) (s : State) : State := (s.updPart p (Partition.begun n base)).copyTcb p

theorem State.beginStep_eq : s.beginStep p n base =
    if (s.getPart p).twin.soloNext then (s.begun p n base).becomeSolo p else s.begun p n base := rfl

theorem State.begun_getPart (p n base k : Nat) (s : State) :
    (s.begun p n base).getPart k = if k = p then (s.getPart p).begun n base else s.getPart k := by
  rw [State.begun, State.copyTcb_getPart]
  exact State.getPart_updPart _ _ _ _

theorem State.begun_frame (p n base : Nat) (s : State) :
    s.begun p n base = { s with part := (s.begun p n base).part, far := (s.begun p n base).far } := by
  rw [State.begun, State.copyTcb_frame]; rfl

theorem State.begun_far_of_none (h : (s.getPart p).image.amount 3 0 = 0) : (s.begun p n base).far = s.far :=
  State.copyTcb_far_of_none (s := s.updPart p (Partition.begun n base)) (by rw [State.getPart_updPart_same]; exact h)

theorem State.begun_reads (h : (s.getPart p).image.amount 3 0 ≠ 0) :
    (s.begun p n base).far.readN (s.getPart p).hbmBase 256 = (s.getPart p).tcb.bytes ∧
      ∀ x, x < (s.getPart p).hbmBase ∨ (s.getPart p).hbmBase + 256 ≤ x → (s.begun p n base).far.read x = s.far.read x := by
  have hreads := State.copyTcb_reads (s := s.updPart p (Partition.begun n base)) (p := p) (by rw [State.getPart_updPart_same]; exact h)
  rwa [State.getPart_updPart_same] at hreads

/-! ### The commands that begin a step -/

theorem exec_patternRunStart (harmed : (s.getPart p).pat = .armed) (hstart : (s.getPart p).run.start ≤ s.sync.stitch) :
    exec (.patternRunStart p) s =
      .next ((s.updPart p fun q => { q with pat := .running }).beginStep p 0 (s.getPart p).run.start) :=
  congrArg Host.Outcome.next (if_pos ⟨harmed, hstart⟩)

/-- Before START_STITCH, or where no pattern is armed, the run does not start (R126). -/
theorem exec_patternRunStart_early (h : (s.getPart p).pat ≠ .armed ∨ s.sync.stitch < (s.getPart p).run.start) :
    exec (.patternRunStart p) s = .next s := by
  refine congrArg Host.Outcome.next (if_neg ?_)
  rintro ⟨harmed, hstart⟩
  exact h.elim (· harmed) (Nat.not_lt.2 hstart)

theorem exec_stepBegin (hnext : (s.getPart p).run.next = some base) (hrun : (s.getPart p).pat = .running)
    (hdecided : (s.getPart p).run.decided = true) (hbase : base ≤ s.sync.stitch) :
    exec (.stepBegin p) s = .next (s.beginStep p ((s.getPart p).run.step + 1) base) := by
  show Host.Outcome.next (s.stepBegin p) = _
  simp only [State.stepBegin, hnext]
  rw [if_pos ⟨hrun, hdecided, hbase⟩]

/-- Before B(N+1), or where no step is decided, no step begins (R135). -/
theorem exec_stepBegin_early (h : (s.getPart p).pat ≠ .running ∨ (s.getPart p).run.decided = false ∨ (s.getPart p).run.next = none ∨
    ∃ b, (s.getPart p).run.next = some b ∧ s.sync.stitch < b) : exec (.stepBegin p) s = .next s := by
  show Host.Outcome.next (s.stepBegin p) = _
  unfold State.stepBegin
  dsimp only
  split
  · next b hb =>
    refine congrArg Host.Outcome.next (if_neg ?_)
    rintro ⟨hrun, hdecided, hbase⟩
    rcases h with h | h | h | ⟨b', h, hlate⟩
    · exact h hrun
    · rw [h] at hdecided; cases hdecided
    · rw [h] at hb; cases hb
    · rw [h] at hb
      cases hb
      exact absurd hbase (Nat.not_le.2 hlate)
  · rfl

/-- Both commands begin a step of a running pattern, in a state that differs in that alone. -/
theorem exec_beginsStep {c : Instr} (hq : q = s.getPart p)
    (h : (c = .patternRunStart p ∧ q.pat = .armed ∧ q.run.start ≤ s.sync.stitch ∧ n = 0 ∧ base = q.run.start) ∨
      (c = .stepBegin p ∧ q.pat = .running ∧ q.run.decided = true ∧ q.run.next = some base ∧ base ≤ s.sync.stitch ∧ n = q.run.step + 1)) :
    ∃ u : State, exec c s = .next (u.beginStep p n base) ∧ u.getPart p = { q with pat := .running } ∧
      (∀ k, k ≠ p → u.getPart k = s.getPart k) ∧ u = { s with part := u.part } := by
  subst hq
  rcases h with ⟨rfl, harmed, hstart, rfl, rfl⟩ | ⟨rfl, hrun, hdecided, hnext, hbase, rfl⟩
  · exact ⟨_, exec_patternRunStart harmed hstart, State.getPart_updPart_same _ _ _, fun k hk => State.getPart_updPart_ne _ _ _ _ hk, rfl⟩
  · exact ⟨s, exec_stepBegin hnext hrun hdecided hbase, by rw [← hrun], fun _ _ => rfl, rfl⟩

end

/-- Settles O31: both commands begin a step in the same way; where the twin port was lost the comparison ends then. -/
theorem stepsBeginAtTheirBase : Obligations.StepsBeginAtTheirBase := by
  unfold Obligations.StepsBeginAtTheirBase
  intro s p n base c q hq
  refine ⟨fun h => ?begins, fun h => exec_patternRunStart_early (hq ▸ h), fun h => exec_stepBegin_early (hq ▸ h)⟩
  obtain ⟨u, hexec, hpart, hothers, hu⟩ := exec_beginsStep hq h
  rw [State.beginStep_eq, hpart] at hexec
  have hfar : u.far = s.far := by rw [hu]
  have hbegun := State.begun_getPart p n base p u
  rw [if_pos rfl, hpart] at hbegun
  have hkeep : ∀ k, k ≠ p → (u.begun p n base).getPart k = s.getPart k := fun k hk => by
    rw [State.begun_getPart, if_neg hk, hothers k hk]
  have hframe := State.begun_frame p n base u
  have hreads := State.begun_reads (s := u) (p := p) (n := n) (base := base)
  have hnone := State.begun_far_of_none (s := u) (p := p) (n := n) (base := base)
  rw [hpart, hfar] at hreads hnone
  generalize u.begun p n base = v at *
  refine ⟨fun hsolo => ?compared, fun hsolo => ?solo⟩
  case compared =>
    rw [hsolo] at hexec
    refine ⟨v, hexec, hbegun, fun hhbm => ?_, hnone, hkeep, ?_⟩
    · exact ⟨fun _ => (hreads hhbm).1, (hreads hhbm).2⟩
    · rw [hframe, hu]
  case solo =>
    rw [hsolo] at hexec
    have hsolved := State.becomeSolo_getPart p p v
    rw [if_pos rfl, hbegun] at hsolved
    refine ⟨v.becomeSolo p, hexec, ?_, ?_, ?_, ?_, ?_, fun hirq => State.becomeSolo_caused p ?_, fun k hk => ?_, ?_⟩
    · rw [hsolved]; rfl
    · rw [hsolved]; rfl
    · rw [hsolved]; rfl
    · rw [hsolved]
    · rw [hsolved]
    · rw [hframe, hu]; exact hirq
    · rw [State.becomeSolo_getPart, if_neg hk, hkeep k hk]
    · rw [State.becomeSolo_frame, hframe, hu]

end Sys2Proof.Machine
end

section
/-! SUPPORT. Fronds changed one after another: each once, whatever the order. -/

namespace Sys2Proof.Machine

/-- Of a list of fronds each of which is changed once, a frond in it is changed and another is not. -/
theorem State.forAll_updFrond_getFrond {fs : List Nat} (hfs : fs.Nodup) (g : Nat → Frond → Frond) (k : Nat) (s : State) :
    (forAll fs (fun f s => s.updFrond f (g f)) s).getFrond k = if k ∈ fs then g k (s.getFrond k) else s.getFrond k := by
  induction fs generalizing s with
  | nil => rfl
  | cons f fs ih =>
    obtain ⟨hf, hfs⟩ := List.nodup_cons.1 hfs
    rw [forAll_cons, ih hfs, State.getFrond_updFrond]
    by_cases hk : k = f
    · subst hk; simp [hf]
    · simp [hk]

/-- Changing fronds changes nothing else. -/
theorem State.forAll_updFrond_frame (fs : List Nat) (g : Nat → Frond → Frond) (s : State) :
    forAll fs (fun f s => s.updFrond f (g f)) s = { s with frond := (forAll fs (fun f s => s.updFrond f (g f)) s).frond } :=
  forAll_inv (fun t => t = { s with frond := t.frond }) _ _ s rfl fun f _ t ht => by rw [State.updFrond, ht]

theorem State.fronds_nodup (s : State) (p : Nat) : (s.fronds p).Nodup := List.nodup_range.filter _

end Sys2Proof.Machine
end

section
/-! SUPPORT. The abort of a collective: what an abort leaves of the collective, the best record and its relay, and the report; then the statement
about them. -/

namespace Sys2Proof.Machine

/-! ### A collective that is aborted (R150, R163) -/

section
variable {s u t : State} {p : Nat} {k : Nat × Nat} {c : Coll}

/-- A frond whose wardens discard the rest of the step (R163). -/
def Frond.dropped (x : Frond) : Frond :=
  { x with arr := { x.arr with queue := x.arr.queue.filter fun (y : Pass) => y.fused.isNone }
           wait := x.wait.filter fun e => match e.2 with | some w => w.isCommit | none => false }

/-- What a warden stalls on goes but for a STEP.COMMIT, said of the instruction itself. -/
theorem Frond.dropped_eq (x : Frond) : x.dropped =
    { x with arr := { x.arr with queue := x.arr.queue.filter fun (y : Pass) => y.fused.isNone }
             wait := x.wait.filter fun e => match e.2 with | some (.commit _) => true | _ => false } := by
  have hwait : (fun e : Nat × Option Wait => match e.2 with | some w => w.isCommit | none => false) =
      fun e => match e.2 with | some (.commit _) => true | _ => false := by
    funext ⟨w, x⟩
    rcases x with _ | x
    · rfl
    · cases x <;> rfl
  rw [Frond.dropped, hwait]

theorem State.dropFused_getFrond (p f : Nat) (s : State) :
    (s.dropFused p).getFrond f = if f ∈ s.fronds p then (s.getFrond f).dropped else s.getFrond f :=
  State.forAll_updFrond_getFrond (s.fronds_nodup p) (fun _ => Frond.dropped) f s

/-- A partition one of whose collectives is aborted, before its vote is noted. -/
def Partition.abortMarked (k : Nat × Nat) (q : Partition) : Partition :=
  { q with colls := q.colls.map fun d => if d.key = k then { d with aborted := true } else d
           run := { q.run with abort := true, discard := true }
           twin := { q.twin with collAborts := satAdd 64 q.twin.collAborts 1 } }

/-- The state in which a collective has been aborted, before the vote is noted. -/
def State.abortMarked (p : Nat) (k : Nat × Nat) (s : State) : State :=
  (((s.updColl p k fun c => { c with aborted := true }).updRun p fun r => { r with abort := true, discard := true }).dropFused p).updTwin p
    fun t => { t with collAborts := satAdd 64 t.collAborts 1 }

theorem State.abortInstance_eq (p : Nat) (k : Nat × Nat) (s : State) : s.abortInstance p k = (s.abortMarked p k).noteVote p := rfl

theorem State.getPart_updRun (p q : Nat) (g : Run → Run) (s : State) :
    (s.updRun p g).getPart q = if q = p then { s.getPart p with run := g (s.getPart p).run } else s.getPart q := State.getPart_updPart _ _ _ _

theorem State.getPart_updTwin (p q : Nat) (g : Twin → Twin) (s : State) :
    (s.updTwin p g).getPart q = if q = p then { s.getPart p with twin := g (s.getPart p).twin } else s.getPart q := State.getPart_updPart _ _ _ _

theorem State.dropFused_getPart (p q : Nat) (s : State) : (s.dropFused p).getPart q = s.getPart q := by
  have hframe := State.dropFused_frame p s
  generalize s.dropFused p = t at *
  rw [hframe]
  rfl

theorem State.abortMarked_getPart (p : Nat) (k : Nat × Nat) (q : Nat) (s : State) :
    (s.abortMarked p k).getPart q = if q = p then (s.getPart p).abortMarked k else s.getPart q := by
  simp only [State.abortMarked, State.getPart_updTwin, State.dropFused_getPart, State.getPart_updRun, State.getPart_updColl, if_true]
  by_cases hq : q = p
  · rw [if_pos hq, if_pos hq]; rfl
  · simp only [if_neg hq]

/-- The fronds of a partition do not depend on its instructions or its run. -/
theorem State.fronds_congr (hgroups : (t.getPart p).groups = (s.getPart p).groups) (hretired : t.faults.retired = s.faults.retired) :
    t.fronds p = s.fronds p := by
  simp only [State.fronds, hgroups, hretired]

theorem State.abortMarked_getFrond (p : Nat) (k : Nat × Nat) (f : Nat) (s : State) :
    (s.abortMarked p k).getFrond f = if f ∈ s.fronds p then (s.getFrond f).dropped else s.getFrond f := by
  rw [State.abortMarked, State.updTwin, State.updPart_getFrond, State.dropFused_getFrond]
  have hfronds : ((s.updColl p k fun c => { c with aborted := true }).updRun p fun r => { r with abort := true, discard := true }).fronds p =
      s.fronds p := State.fronds_congr (by rw [State.getPart_updRun, if_pos rfl, State.getPart_updColl_same]) rfl
  rw [hfronds]
  rfl

theorem State.abortMarked_frame (p : Nat) (k : Nat × Nat) (s : State) :
    s.abortMarked p k = { s with part := (s.abortMarked p k).part, frond := (s.abortMarked p k).frond } := by
  rw [State.abortMarked]
  have hframe := State.dropFused_frame p ((s.updColl p k fun c => { c with aborted := true }).updRun p fun r =>
    { r with abort := true, discard := true })
  generalize State.dropFused p _ = t at *
  rw [hframe]
  rfl

/-- A collective that is aborted is found as before, with its mark. -/
theorem State.abortMarked_coll (hc : s.coll p k = some c) : (s.abortMarked p k).coll p k = some { c with aborted := true } ∧
    ∀ j, j ≠ k → (s.abortMarked p k).coll p j = s.coll p j := by
  have hcolls : ((s.abortMarked p k).getPart p).colls = ((s.updColl p k fun c => { c with aborted := true }).getPart p).colls := by
    rw [State.abortMarked_getPart, if_pos rfl, State.getPart_updColl_same]
    rfl
  exact ⟨(State.coll_congr hcolls k).trans (State.coll_updColl_same (fun _ => rfl) hc),
    fun j hj => (State.coll_congr hcolls j).trans (State.coll_updColl_ne (fun _ => rfl) hj)⟩

/-- The vote noted, with its ISSUE where the conditions hold for the first time (R162, R164). -/
theorem State.noteVote_run (p : Nat) (s : State) : ((s.noteVote p).getPart p).run.issue =
    if (s.getPart p).pat = .running ∧ (s.getPart p).run.issue = none ∧ (s.noteVote p).voteForms p = true then some s.sync.stitch
    else (s.getPart p).run.issue := by
  by_cases hrun : (s.getPart p).pat = .running
  · rw [State.noteVote_eq hrun]
    simp only [hrun, true_and]
  · have hsame : s.noteVote p = s := if_neg fun h => hrun h.1
    rw [hsame, if_neg fun h => hrun h.1]

/-- What the abort of a collective leaves. -/
theorem State.abortInstance_aborted (hc : s.coll p k = some c) : InstanceAborted s (s.abortInstance p k) p k c := by
  obtain ⟨hcoll, hothers⟩ := State.abortMarked_coll hc
  have hpart := fun q => State.abortMarked_getPart p k q s
  have hfrond := fun f => State.abortMarked_getFrond p k f s
  have hframe := State.abortMarked_frame p k s
  rw [State.abortInstance_eq]
  generalize s.abortMarked p k = u at *
  have hpartp : u.getPart p = (s.getPart p).abortMarked k := (hpart p).trans (if_pos rfl)
  have hnoted := State.noteVote_getPart_same p u
  have hissue := State.noteVote_run p u
  have hsync : u.sync = s.sync := by rw [hframe]
  have hnote := State.noteVote_frame p u
  have hcolls : ((u.noteVote p).getPart p).colls = (u.getPart p).colls := by rw [hnoted]
  have hgetFrond : ∀ f, (u.noteVote p).getFrond f = u.getFrond f := fun f => by rw [State.getFrond, State.noteVote_frond]; rfl
  refine ⟨(State.coll_congr hcolls k).trans hcoll, fun j hj => (State.coll_congr hcolls j).trans (hothers j hj), ?part,
    fun f hf => ?dropped, fun f hf => ?others, fun q hq => ?_, ?_⟩
  case part =>
    rw [hpartp, hsync] at hissue
    rw [hcolls, hnoted, hissue, hpartp]
    rfl
  case dropped => exact (hgetFrond f).trans ((hfrond f).trans ((if_pos hf).trans (Frond.dropped_eq _)))
  case others => rw [hgetFrond, hfrond, if_neg hf]
  · rw [State.noteVote_getPart_ne hq, hpart, if_neg hq]
  · rw [hnote, hframe]

end

/-! ### The best record (R296) -/

section
variable {s u : State} {p : Nat} {k : Nat × Nat} {c : Coll} {a : Abort} {src : Option Coord}

/-- A record is better than another by its progress, then by its rank. -/
theorem Abort.lower_iff (a b : Abort) : a.lower b = true ↔ a.progress < b.progress ∨ a.progress = b.progress ∧ a.rank < b.rank := by
  simp [Abort.lower]

theorem Abort.improves_none (h : ∀ b, best = some b → a.progress < b.progress ∨ a.progress = b.progress ∧ a.rank < b.rank) :
    a.improves best = true := by
  cases best with
  | none => rfl
  | some b => exact (a.lower_iff b).2 (h b rfl)

theorem Abort.improves_worse {b : Abort} (h : b.progress < a.progress ∨ b.progress = a.progress ∧ b.rank ≤ a.rank) :
    a.improves (some b) = false := by
  rw [Abort.improves, Bool.eq_false_iff, Ne, Abort.lower_iff]
  omega

theorem State.keepAbort_kept (p : Nat) (k : Nat × Nat) (a : Abort) (src : Option Coord) (u : State) :
    RecordKept u (u.keepAbort p k a src) p k a src := by
  intro c hc
  refine ⟨?worse, fun h => ⟨_, rfl, fun hg => ?alone, fun g hg => ?relayed⟩⟩
  case worse =>
    rintro ⟨b, hb, h⟩
    simp only [State.keepAbort, hc, hb, Abort.improves_worse h]
    rfl
  case alone => simp only [State.keepAbort, hc, Abort.improves_none h, hg, if_true]
  case relayed =>
    simp only [State.keepAbort, hc, Abort.improves_none h, hg, if_true]
    rfl

end

/-! ### Records of a collective of the step (R296, R298) -/

section
variable {s : State} {p group inst : Nat} {k : Nat × Nat} {c : Coll}

/-- What a record does to its collective before it is kept: after DONE it only marks the vote. -/
def State.abortActed (p : Nat) (k : Nat × Nat) (c : Coll) (s : State) : State :=
  if c.done then s.updRun p fun r => { r with abort := true } else if c.aborted then s else s.abortInstance p k

theorem State.holdAbort_eq (hc : s.coll p k = some c) (a : Abort) (src : Option Coord) :
    s.holdAbort p k a src = (s.abortActed p k c).keepAbort p k a src := by
  simp only [State.holdAbort, hc]
  rfl

/-- A collective that is not done is aborted by its first record. -/
theorem State.abortActed_aborted (hc : s.coll p k = some c) (hdone : c.done = false) (h : c.aborted = false) :
    InstanceAborted s (s.abortActed p k c) p k c := by
  have hacts : s.abortActed p k c = s.abortInstance p k := (if_neg (by simp [hdone])).trans (if_neg (by simp [h]))
  rw [hacts]
  exact State.abortInstance_aborted hc

theorem State.abortActed_done (h : c.done = true) : s.abortActed p k c = s.updRun p fun r => { r with abort := true } := if_pos h

theorem State.abortActed_again (hdone : c.done = false) (h : c.aborted = true) : s.abortActed p k c = s :=
  (if_neg (by simp [hdone])).trans (if_pos h)

/-! ### The deadline (R294, R296) -/

theorem exec_collectiveTimeout_none (h : s.coll p (group, inst) = none) : exec (.collectiveTimeout p group inst) s = .next s := by
  show Host.Outcome.next (s.collectiveTimeout p group inst) = _
  simp only [State.collectiveTimeout, h]

theorem exec_collectiveTimeout_early (hc : s.coll p (group, inst) = some c) (h : (s.getPart p).pat ≠ .running ∨ c.what.op < 3 ∨
    s.sync.stitch < c.deadline ∨ c.done = true ∨ c.timedOut = true) : exec (.collectiveTimeout p group inst) s = .next s := by
  show Host.Outcome.next (s.collectiveTimeout p group inst) = _
  simp only [State.collectiveTimeout, hc]
  refine congrArg Host.Outcome.next (if_neg ?_)
  rintro ⟨hrun, hop, hdue, hdone, hfirst⟩
  rcases h with h | h | h | h | h
  · exact h hrun
  · exact absurd hop (Nat.not_le.2 h)
  · exact absurd hdue (Nat.not_le.2 h)
  · simp [h] at hdone
  · simp [h] at hfirst

theorem exec_collectiveTimeout_due (hc : s.coll p (group, inst) = some c) (hrun : (s.getPart p).pat = .running) (hop : 3 ≤ c.what.op)
    (hdue : c.deadline ≤ s.sync.stitch) (hdone : c.done = false) (hfirst : c.timedOut = false) : exec (.collectiveTimeout p group inst) s =
      .next ((s.updColl p (group, inst) fun c => { c with timedOut := true }).holdAbort p (group, inst) (s.ownAbort p c) none) := by
  show Host.Outcome.next (s.collectiveTimeout p group inst) = _
  simp only [State.collectiveTimeout, hc]
  exact congrArg Host.Outcome.next (if_pos ⟨hrun, hop, hdue, by simp [hdone], by simp [hfirst]⟩)

/-! ### The report (R297, R430) -/

theorem exec_abortHoldExpiry_none (h : s.coll p (group, inst) = none) : exec (.abortHoldExpiry p group inst) s = .next s := by
  show Host.Outcome.next (s.abortHoldExpiry p group inst) = _
  simp only [State.abortHoldExpiry, h]

theorem exec_abortHoldExpiry_early (hc : s.coll p (group, inst) = some c) (h : (s.getPart p).pat ≠ .running ∨ c.aborted = false ∨
    c.settled = true ∨ s.sync.stitch < c.deadline + 1024) : exec (.abortHoldExpiry p group inst) s = .next s := by
  show Host.Outcome.next (s.abortHoldExpiry p group inst) = _
  simp only [State.abortHoldExpiry, hc]
  refine congrArg Host.Outcome.next (if_neg ?_)
  rintro ⟨hrun, haborted, hsettled, hdue⟩
  rcases h with h | h | h | h
  · exact h hrun
  · rw [h] at haborted; cases haborted
  · simp [h] at hsettled
  · exact absurd hdue (Nat.not_le.2 h)

/-- The state in which a collective holds the vote no longer, and the first collective settled is reported. -/
def State.abortReported (p : Nat) (k : Nat × Nat) (s : State) : State :=
  (s.updColl p k fun c => { c with settled := true }).updPart p Partition.reportAbort

/-- The log takes an entry of the best record, where one is held. -/
def State.abortLogged (p : Nat) (a : Option Abort) (s : State) : State :=
  match a with
  | some a => s.log (abortEntry p a)
  | none => s

/-- All that the entry changes. -/
theorem State.abortLogged_frame (p : Nat) (a : Option Abort) (s : State) : s.abortLogged p a = { s with
    faults := (s.abortLogged p a).faults, irq := (s.abortLogged p a).irq, pcie := (s.abortLogged p a).pcie, out := (s.abortLogged p a).out } := by
  cases a with
  | none => rfl
  | some a => exact State.log_frame _ _

/-- The best record of a collective as the log names it. -/
def Coll.reported (c : Coll) (group inst : Nat) : Option Abort :=
  c.best.map fun b => { b with step := c.step, group := group, inst := inst % 256 }

theorem exec_abortHoldExpiry_due (hc : s.coll p (group, inst) = some c) (hrun : (s.getPart p).pat = .running) (haborted : c.aborted = true)
    (hsettled : c.settled = false) (hdue : c.deadline + 1024 ≤ s.sync.stitch) : exec (.abortHoldExpiry p group inst) s =
      .next ((s.abortReported p (group, inst)).abortLogged p (c.reported group inst)) := by
  show Host.Outcome.next (s.abortHoldExpiry p group inst) = _
  simp only [State.abortHoldExpiry, hc]
  refine congrArg Host.Outcome.next ((if_pos ⟨hrun, haborted, by simp [hsettled], hdue⟩).trans ?_)
  rw [Coll.reported]
  cases c.best <;> rfl

/-- A report changes where and by whom the step was aborted, and nothing else. -/
theorem Partition.reportAbort_eq (q : Partition) :
    q.reportAbort = { q with run := { q.run with abortAt := q.reportAbort.run.abortAt } } := by
  unfold Partition.reportAbort
  split
  · split <;> rfl
  · rfl

/-- A partition with a collective settled. -/
def Partition.settle (k : Nat × Nat) (q : Partition) : Partition :=
  { q with colls := q.colls.map fun d => if d.key = k then { d with settled := true } else d }

theorem State.abortReported_getPart (p : Nat) (k : Nat × Nat) (q : Nat) (s : State) :
    (s.abortReported p k).getPart q = if q = p then ((s.getPart p).settle k).reportAbort else s.getPart q := by
  simp only [State.abortReported, State.getPart_updPart, State.getPart_updColl, if_true]
  by_cases hq : q = p
  · rw [if_pos hq, if_pos hq]; rfl
  · simp only [if_neg hq]

theorem State.abortReported_coll (hc : s.coll p k = some c) : (s.abortReported p k).coll p k = some { c with settled := true } ∧
    ∀ j, j ≠ k → (s.abortReported p k).coll p j = s.coll p j := by
  have hcolls : ((s.abortReported p k).getPart p).colls = ((s.updColl p k fun c => { c with settled := true }).getPart p).colls := by
    rw [State.abortReported_getPart, if_pos rfl, Partition.reportAbort_eq, State.getPart_updColl_same]
    rfl
  exact ⟨(State.coll_congr hcolls k).trans (State.coll_updColl_same (fun _ => rfl) hc),
    fun j hj => (State.coll_congr hcolls j).trans (State.coll_updColl_ne (fun _ => rfl) hj)⟩

/-- A collective is reported before another: the earlier deadline, then the lower group, then the lower number (R297). -/
theorem Coll.reportsBefore_iff (a b : Coll) : a.reportsBefore b = true ↔
    a.deadline < b.deadline ∨ a.deadline = b.deadline ∧ (a.group < b.group ∨ a.group = b.group ∧ a.inst ≤ b.inst) := by
  simp [Coll.reportsBefore]

/-- A collective that comes before every other one settled is the one reported. -/
theorem foldl_reports {c : Coll} {cs : List Coll} (hbefore : ∀ y ∈ cs, y = c ∨ c.reportsBefore y = true ∧ y.reportsBefore c = false)
    (b : Option Coll) (hb : b = some c ∨ c ∈ cs ∧ ∀ y, b = some y → y.reportsBefore c = false) :
    cs.foldl (fun b c => match b with | some x => if x.reportsBefore c then some x else some c | none => some c) b = some c := by
  have hself : c.reportsBefore c = true := (c.reportsBefore_iff c).2 (.inr ⟨rfl, .inr ⟨rfl, Nat.le_refl _⟩⟩)
  induction cs generalizing b with
  | nil =>
    rcases hb with rfl | ⟨hmem, _⟩
    · rfl
    · cases hmem
  | cons y cs ih =>
    have hrest := ih fun z hz => hbefore z (List.mem_cons_of_mem _ hz)
    have hy := hbefore y (List.mem_cons_self ..)
    rw [List.foldl_cons]
    rcases hb with rfl | ⟨hmem, hlater⟩
    · have hkeep : c.reportsBefore y = true := hy.elim (fun h => by rw [h, hself]) And.left
      simp only [hkeep, if_true]
      exact hrest _ (.inl rfl)
    · by_cases hyc : y = c
      · subst hyc
        cases b with
        | none => exact hrest _ (.inl rfl)
        | some x =>
          simp only [hlater x rfl, Bool.false_eq_true, if_false]
          exact hrest _ (.inl rfl)
      · have hmem' : c ∈ cs := (List.mem_cons.1 hmem).resolve_left fun h => hyc h.symm
        have hlate : y.reportsBefore c = false := (hy.resolve_left hyc).2
        refine hrest _ (.inr ⟨hmem', fun z hz => ?_⟩)
        cases b with
        | none => cases hz; exact hlate
        | some x =>
          dsimp only at hz
          split at hz <;> cases hz
          · exact hlater _ rfl
          · exact hlate

/-- The best record of a collective that settles before every other one is reported (R297). -/
theorem Partition.settle_reports {q : Partition} {b : Abort} (hc : q.colls.find? (fun d => d.key == k) = some c) (hbest : c.best = some b)
    (hone : ∀ y ∈ q.colls, y.key = k → y = c)
    (hfirst : ∀ y ∈ q.colls, y.settled = true → c.deadline < y.deadline ∨ c.deadline = y.deadline ∧
      (c.group < y.group ∨ c.group = y.group ∧ c.inst < y.inst)) :
    (q.settle k).reportAbort.run.abortAt = some (b.member, b.rank, c.step) := by
  have hmem := List.mem_of_find?_eq_some hc
  have hkey : c.key = k := by simpa using List.find?_some hc
  have hsettled : firstSettled (q.settle k).colls = some { c with settled := true } := by
    refine foldl_reports (fun y hy => ?_) none (.inr ⟨?_, fun y hy => by cases hy⟩)
    · obtain ⟨hy, hset⟩ := List.mem_filter.1 hy
      obtain ⟨d, hd, rfl⟩ := List.mem_map.1 hy
      by_cases hdk : d.key = k
      · rw [if_pos hdk, hone d hd hdk]; exact .inl rfl
      · rw [if_neg hdk] at hset ⊢
        have hlt := hfirst d hd hset
        refine .inr ⟨(Coll.reportsBefore_iff _ _).2 ?_, ?_⟩
        · dsimp only; omega
        · rw [Bool.eq_false_iff, Ne, Coll.reportsBefore_iff]; dsimp only; omega
    · exact List.mem_filter.2 ⟨List.mem_map.2 ⟨c, hmem, if_pos hkey⟩, rfl⟩
  simp only [Partition.reportAbort, hsettled, hbest]

/-- The entry of a collective that is reported (R430). -/
theorem abortEntry_fields (p : Nat) (a : Abort) (u : State) (e : LogEntry) (he : e = u.entry (abortEntry p a)) :
    e.kind = 4 ∧ e.code = .collAbort ∧ e.part = p ∧ e.seq = u.faults.next ∧ fld e.detail 0 8 = a.step % 2 ^ 64 ∧
      fld e.detail 8 2 = a.group % 2 ^ 16 ∧ fld e.detail 0xA 1 = a.inst % 256 ∧ fld e.detail 0xB 1 = a.member.x % 256 ∧
      fld e.detail 0xC 1 = a.member.y % 256 ∧ fld e.detail 0xD 1 = a.member.z % 256 ∧ fld e.detail 0xE 2 = a.rank % 65536 := by
  subst he
  refine ⟨rfl, rfl, rfl, rfl, ?_⟩
  simp [State.entry, abortEntry, fld_record_skip, fld_record_head]

end

/-! ### Abort records that arrive (R296) -/

section
variable {s u : State} {port : Nat} {f : Frame} {a : Abort} {q : Partition} {c : Coll}

theorem exec_abortRecord_other (h : f.kind ≠ 4 ∨ f.arg ≠ 1 ∨ f.dst ≠ s.here) : exec (.abortRecord port f) s = .next s :=
  congrArg Host.Outcome.next (if_pos h)

/-- A record that may be delivered is taken, and acts on a live pattern. -/
theorem exec_abortRecord (hk : f.kind = 4) (harg : f.arg = 1) (hh : f.dst = s.here) (hd : Deliverable s port f) (hu : u = s.takeRx port f)
    (ha : a = abortParse f.payload) : exec (.abortRecord port f) s =
      .next (if (s.getPart f.part).live then u.takeAbort f.part a f.src else u) := by
  show Host.Outcome.next (s.abortRecord port f) = _
  simp [State.abortRecord, hk, harg, hh, State.arrives_deliverable hd, hu, ha]

/-- A record of a collective of the step acts on it. -/
theorem State.takeAbort_named (hq : q = s.getPart f.part) (hc : q.collOf a.group a.inst = some c) (hstep : c.step = a.step) :
    s.takeAbort f.part a f.src = s.holdAbort f.part c.key a (some f.src) := by
  subst hq
  have hsome : ((s.getPart f.part).collOf a.group a.inst).filter (fun c => c.step == a.step) = some c := by
    rw [hc, Option.filter_some_pos (by simpa using hstep)]
  simp only [State.takeAbort, hsome]

/-- A record is kept for a collective that is not issued yet (R296). -/
def State.earlyKept (p : Nat) (a : Abort) (s : State) : State :=
  s.updPart p fun q => { q with earlyAborts := (q.earlyAborts.filter fun b => !a.sameInstance b) ++ [a] }

theorem State.keepEarly_worse {b : Abort} (hq : q = s.getPart f.part) (hb : q.earlyAborts.find? a.sameInstance = some b)
    (h : b.progress < a.progress ∨ b.progress = a.progress ∧ b.rank ≤ a.rank) : s.keepEarly f.part a f.src = s := by
  subst hq
  exact if_neg (by rw [hb, Abort.improves_worse h]; exact Bool.false_ne_true)

theorem State.keepEarly_kept (hq : q = s.getPart f.part) (h : ∀ b, q.earlyAborts.find? a.sameInstance = some b →
    a.progress < b.progress ∨ a.progress = b.progress ∧ a.rank < b.rank) : s.keepEarly f.part a f.src =
      match q.image.group a.group with
      | some g => (s.earlyKept f.part a).relayAbort f.part a g (some f.src)
      | none => s.earlyKept f.part a := by
  subst hq
  exact if_pos (Abort.improves_none h)

/-- A record of no collective of the step is late, or of one that is not issued yet. -/
theorem State.takeAbort_unnamed (hq : q = s.getPart f.part) (hc : ∀ c, q.collOf a.group a.inst = some c → c.step ≠ a.step) :
    s.takeAbort f.part a f.src = if q.run.step ≤ a.step then s.keepEarly f.part a f.src else s := by
  subst hq
  have hnone : ((s.getPart f.part).collOf a.group a.inst).filter (fun c => c.step == a.step) = none := by
    rw [Option.filter_eq_none_iff]
    intro c h
    simp [hc c h]
  simp only [State.takeAbort, hnone]

end

/-- Settles O56: a deadline and a record act on a collective in the same way (`State.abortActed`, `State.keepAbort_kept`), the report picks the first
collective settled (`Partition.settle_reports`), and a record of a collective not issued yet is kept while none better is. -/
theorem collectivesAbort : Obligations.CollectivesAbort := by
  unfold Obligations.CollectivesAbort
  refine ⟨fun s p group inst => ⟨fun hnone => ⟨exec_collectiveTimeout_none hnone, exec_abortHoldExpiry_none hnone⟩, fun c hc =>
    ⟨exec_collectiveTimeout_early hc, fun hrun hop hdue hdone hfirst => ?deadline, exec_abortHoldExpiry_early hc,
      fun hrun haborted hsettled hdue => ?report⟩⟩, fun s port f a u q ha hu hq => ⟨exec_abortRecord_other, fun hk harg hh hd => ?record⟩⟩
  case deadline =>
    have hexec := exec_collectiveTimeout_due hc hrun hop hdue hdone hfirst
    obtain ⟨u, hu⟩ : ∃ u, u = s.updColl p (group, inst) fun c => { c with timedOut := true } := ⟨_, rfl⟩
    have huc : u.coll p (group, inst) = some { c with timedOut := true } := by
      rw [hu]; exact State.coll_updColl_same (f := fun c => { c with timedOut := true }) (fun _ => rfl) hc
    rw [← hu, State.holdAbort_eq huc] at hexec
    refine ⟨u, _, _, s.ownAbort p c, hexec, hu, State.abortActed_again hdone, State.abortActed_aborted huc hdone, rfl, rfl, rfl, rfl, rfl,
      fun g hg => ?_, State.keepAbort_kept _ _ _ _ _⟩
    rw [State.ownAbort, hg]
    rfl
  case report =>
    have hexec := exec_abortHoldExpiry_due hc hrun haborted hsettled hdue
    obtain ⟨hcoll, hothers⟩ := State.abortReported_coll hc
    have hpart := fun q => State.abortReported_getPart p (group, inst) q s
    have hframe : s.abortReported p (group, inst) = { s with part := (s.abortReported p (group, inst)).part } := rfl
    generalize s.abortReported p (group, inst) = u at *
    have hpartp : u.getPart p = { s.getPart p with
        colls := (u.getPart p).colls, run := { (s.getPart p).run with abortAt := (u.getPart p).run.abortAt } } := by
      rw [hpart, if_pos rfl, Partition.reportAbort_eq]; rfl
    have hlog := State.abortLogged_frame p (c.reported group inst) u
    have hlogged : ∀ a, c.reported group inst = some a → u.abortLogged p (c.reported group inst) = u.log (abortEntry p a) :=
      fun a ha => by rw [ha]; rfl
    have hsilent : c.reported group inst = none → u.abortLogged p (c.reported group inst) = u := fun ha => by rw [ha]; rfl
    generalize u.abortLogged p (c.reported group inst) = t at *
    have htpart : ∀ q, t.getPart q = u.getPart q := fun q => by rw [hlog]; rfl
    have htcoll : ∀ k, t.coll p k = u.coll p k := State.coll_congr (by rw [htpart])
    refine ⟨t, hexec, (htcoll _).trans hcoll, fun j hj => (htcoll j).trans (hothers j hj), fun b hb => ?entry, fun hb => ?silent,
      fun b hb hone hfirst => ?reported, (htpart p).trans (by rw [htpart]; exact hpartp), fun q hq => ?_, by rw [hlog, hframe]⟩
    case entry =>
      obtain ⟨e, he⟩ : ∃ e, e = u.entry (abortEntry p { b with step := c.step, group := group, inst := inst % 256 }) := ⟨_, rfl⟩
      obtain ⟨hkind, hcode, hof, hseq, h0, h8, hA, hrest⟩ := abortEntry_fields p _ u e he
      refine ⟨e, ?_, hkind, hcode, hof, hseq.trans (by rw [hframe]), h0, h8, hA.trans (Nat.mod_mod _ _), hrest⟩
      rw [hlogged _ (by rw [Coll.reported, hb]; rfl), he]
      exact State.log_newest _ _
    case silent => rw [hsilent (by rw [Coll.reported, hb]; rfl), hframe]
    case reported => rw [htpart, hpart, if_pos rfl, Partition.settle_reports hc hb hone hfirst]
    · rw [htpart, hpart, if_neg hq]
  case record =>
    have hexec := exec_abortRecord hk harg hh hd hu ha
    have hframe := State.takeRx_frame port f s
    have hpart := fun p => State.takeRx_getPart port f s p
    have hhere := State.takeRx_here port f s
    rw [← hu] at hframe hpart hhere
    refine ⟨fun hdead => ?dead, fun c hlive hof hstep hc => ?named, fun hlive hof => ?unnamed⟩
    case dead => rw [hexec, ← hq, hdead]; rfl
    all_goals rw [← hq, hlive, if_pos rfl] at hexec
    case named =>
      have huc : u.coll f.part c.key = some c := (State.coll_congr (by rw [hpart]) _).trans hc
      rw [State.takeAbort_named (hq.trans (hpart _).symm) hof hstep, State.holdAbort_eq huc] at hexec
      exact ⟨_, _, hexec, State.keepAbort_kept _ _ _ _ _, State.abortActed_done, State.abortActed_again, State.abortActed_aborted huc⟩
    case unnamed =>
      rw [State.takeAbort_unnamed (hq.trans (hpart _).symm) hof] at hexec
      refine ⟨fun hlate => by rw [hexec, if_neg (Nat.not_le.2 hlate)], fun hearly => ?_⟩
      rw [if_pos hearly] at hexec
      have hqu := hq.trans (hpart _).symm
      refine ⟨fun b hb h => ?worse, fun h => ?kept⟩
      case worse => rw [hexec, State.keepEarly_worse hqu hb h]
      case kept =>
        rw [State.keepEarly_kept hqu h] at hexec
        refine ⟨u.earlyKept f.part a, ?_, fun p hp => ?_, rfl, fun hg => ?_, fun g hg => ?_⟩
        · rw [State.earlyKept, State.getPart_updPart_same, ← hqu]
        · rw [State.earlyKept, State.getPart_updPart_ne _ _ _ _ hp, hpart]
        · rw [hexec, hg]
        · rw [hexec, hg, ← hhere]; rfl

end Sys2Proof.Machine
end

section
/-! SUPPORT. Issues of wardens, STEP.COMMIT, and what a first stage reads of its input records; then the statement about them. -/

namespace Sys2Proof.Machine

/-! ### Issues and stalls (R130, R133, R134) -/

section
variable {s t : State} {f w es p n : Nat} {r : FrondRec} {tokens : List (Nat × Nat)}

/-- The lateness of an issue changes the run of its partition alone. -/
theorem State.recordIssue_getPart_ne {q : Nat} (hq : q ≠ p) (es : Nat) (s : State) : (s.recordIssue p es).getPart q = s.getPart q :=
  State.getPart_updPart_ne _ _ _ _ hq

/-- The tokens that an instruction waits for are all there (R131). -/
theorem State.tokens_all : tokens.all (fun t => s.tokenAt f t.1 t.2) = true ↔ ∀ k ∈ tokens, s.tokenAt f k.1 k.2 = true := List.all_eq_true

theorem State.tokens_missing : tokens.all (fun t => s.tokenAt f t.1 t.2) ≠ true ↔ ∃ k ∈ tokens, s.tokenAt f k.1 k.2 = false := by
  simp

theorem exec_wardenIssue_idle (h : s.issuer f w = none) : exec (.wardenIssue f w es tokens) s = .next s := by
  show Host.Outcome.next (s.wardenIssue f w es tokens) = _
  simp only [State.wardenIssue, h]

/-- An instruction whose stitch is reached and whose tokens are there issues. -/
theorem exec_wardenIssue_issues (h : s.issuer f w = some (p, r)) (hes : (s.getPart p).run.base + es ≤ s.sync.stitch)
    (htokens : ∀ k ∈ tokens, s.tokenAt f k.1 k.2 = true) : exec (.wardenIssue f w es tokens) s = .next (s.recordIssue p es) := by
  show Host.Outcome.next (s.wardenIssue f w es tokens) = _
  simp only [State.wardenIssue, h]
  exact congrArg Host.Outcome.next (if_pos ⟨State.esReached_iff.2 hes, State.tokens_all.2 htokens⟩)

/-- Until then its warden stalls on it. -/
theorem exec_wardenIssue_stalls (h : s.issuer f w = some (p, r))
    (hnot : s.sync.stitch < (s.getPart p).run.base + es ∨ ∃ k ∈ tokens, s.tokenAt f k.1 k.2 = false) :
    exec (.wardenIssue f w es tokens) s = .next (s.setWait f w (some (.issue es tokens))) := by
  show Host.Outcome.next (s.wardenIssue f w es tokens) = _
  simp only [State.wardenIssue, h]
  refine congrArg Host.Outcome.next (if_neg ?_)
  rintro ⟨hes, htokens⟩
  rcases hnot with hlate | hmissing
  · exact absurd (State.esReached_iff.1 hes) (Nat.not_le.2 hlate)
  · exact State.tokens_missing.2 hmissing htokens

/-- A warden that stalls issues no other instruction (R130). -/
theorem State.issuer_setWait (x : Wait) : (s.setWait f w (some x)).issuer f w = none := by
  rw [State.issuer, State.waitOf_setWait]; rfl

/-- STITCH.WAIT is an issue whose offset is in a register of the warden (R129). -/
theorem exec_stitchWait (reg : Nat) :
    exec (.stitchWait f w reg) s = exec (.wardenIssue f w ((s.getFrond f).iget (512 + w) reg).toNat []) s := rfl

/-- A stalled warden that looks again. -/
theorem State.wakeWarden_issue (hruns : s.unitRuns f (unitPinnule (wardenPinnule w)) = some (p, r))
    (hwait : s.waitOf f w = some (.issue es tokens)) : s.wakeWarden f w =
      if s.esReached p es ∧ tokens.all (fun t => s.tokenAt f t.1 t.2) then (s.setWait f w none).recordIssue p es else s := by
  simp only [State.wakeWarden, hruns, hwait]

/-- Where one warden stalls, a token that is raised makes it look again. -/
theorem State.raiseToken_of_wait {x : Option Wait} (h : (s.getFrond f).wait = [(w, x)]) (k : Nat) :
    s.raiseToken f k = (s.countToken f k).wakeWarden f w := by
  have hone : (s.countToken f k).stalledWardens f = [w] := by
    rw [State.stalledWardens, State.countToken_getFrond, h]; rfl
  rw [State.raiseToken, State.wakeFrond, hone, forAll_cons, forAll_nil]

/-- A warden that goes on stalls on nothing. -/
theorem State.setWait_none_wait {x : Option Wait} (h : (s.getFrond f).wait = [(w, x)]) : ((s.setWait f w none).getFrond f).wait = [] := by
  rw [State.setWait_getFrond, h]
  simp [Tab.set, Tab.del]

/-- A wait for a token depends on the counts of the frond's tokens alone. -/
theorem State.tokenAt_congr (h : (t.getFrond f).token = (s.getFrond f).token) (k g : Nat) : t.tokenAt f k g = s.tokenAt f k g := by
  rw [State.tokenAt, h]; rfl

/-- A raise that a stalled warden waited for lets its instruction issue (R130, R131). -/
theorem State.raiseToken_issues {k g : Nat} (hwait : (s.getFrond f).wait = [(w, some (.issue es [(k, g)]))])
    (hruns : s.unitRuns f (unitPinnule (wardenPinnule w)) = some (p, r)) (ht : t = s.raiseToken f k) :
    ((s.getPart p).run.base + es ≤ s.sync.stitch → t.tokenAt f k g = true →
      (t.getFrond f).wait = [] ∧ t.getPart p = (s.recordIssue p es).getPart p) ∧
    (s.sync.stitch < (s.getPart p).run.base + es ∨ t.tokenAt f k g = false → (t.getFrond f).wait = (s.getFrond f).wait ∧ t.part = s.part) := by
  obtain ⟨u, hu⟩ : ∃ u, u = s.countToken f k := ⟨_, rfl⟩
  have hframe : u = { s with frond := u.frond } := by rw [hu]; rfl
  have hfrond := State.countToken_getFrond f k s
  rw [← hu] at hfrond
  have hruns' : u.unitRuns f (unitPinnule (wardenPinnule w)) = some (p, r) := (State.unitRuns_congr hframe (by rw [hfrond])).trans hruns
  have huwait : (u.getFrond f).wait = [(w, some (.issue es [(k, g)]))] := by rw [hfrond]; exact hwait
  have hwaits : u.waitOf f w = some (.issue es [(k, g)]) := by simp [State.waitOf, huwait, Tab.get]
  have hsame : u.getPart p = s.getPart p := by rw [hframe]; rfl
  have hreached : u.esReached p es = s.esReached p es := by rw [hframe]; rfl
  have hgo := State.wakeWarden_issue hruns' hwaits
  have htoken : t.tokenAt f k g = u.tokenAt f k g := by
    refine State.tokenAt_congr ?_ k g
    rw [ht, State.raiseToken_of_wait hwait, ← hu, (State.wakeWarden_wakes f w u).1]
  rw [State.raiseToken_of_wait hwait, ← hu, hgo, hreached] at ht
  rw [htoken]
  refine ⟨fun hes htok => ?issues, fun h => ?waits⟩
  case issues =>
    rw [if_pos ⟨State.esReached_iff.2 hes, by simpa using htok⟩] at ht
    subst ht
    refine ⟨State.setWait_none_wait huwait, ?_⟩
    rw [State.recordIssue_getPart, State.recordIssue_getPart]
    have hset : (u.setWait f w none).getPart p = s.getPart p := hsame
    have hstitch : (u.setWait f w none).sync = s.sync := by rw [hframe]; rfl
    rw [hset, hstitch]
  case waits =>
    rw [if_neg] at ht
    · subst ht; exact ⟨huwait.trans hwait.symm, by rw [hframe]⟩
    · rintro ⟨hes, htok⟩
      rcases h with hlate | hmissing
      · exact absurd (State.esReached_iff.1 hes) (Nat.not_le.2 hlate)
      · simp [hmissing] at htok

/-! ### STEP.COMMIT (R162) -/

/-- A warden that does not run, or that stalls, commits nothing. -/
theorem exec_stepCommit_idle (h : s.unitRuns f (unitPinnule (wardenPinnule w)) = none ∨ s.waitOf f w ≠ none) :
    exec (.stepCommit f w es) s = .next s := by
  show Host.Outcome.next (s.stepCommit f w es) = _
  unfold State.stepCommit
  split
  · next q hruns =>
    refine congrArg Host.Outcome.next (if_pos (.inl ?_))
    exact Option.isSome_iff_ne_none.2 (h.resolve_left (by rw [hruns]; exact Option.some_ne_none _))
  · rfl

section
variable (hruns : s.unitRuns f (unitPinnule (wardenPinnule w)) = some (p, r)) (hwait : s.waitOf f w = none)
include hruns hwait

theorem exec_stepCommit : exec (.stepCommit f w es) s = .next (if 16 * f + w ∈ (s.getPart p).run.committed then s
    else if (s.getPart p).run.base + es ≤ s.sync.stitch then s.commitBy p f w es else s.setWait f w (some (.commit es))) := by
  show Host.Outcome.next (s.stepCommit f w es) = _
  simp [State.stepCommit, hruns, hwait, State.esReached_iff]

end

/-- A STEP.COMMIT counts as an issue, the warden has committed, and the vote is noted (R133, R162). -/
theorem State.commitBy_spec (hpat : (s.getPart p).pat = .running) (ht : t = s.commitBy p f w es) :
    t.getPart p = { s.getPart p with run := { (s.getPart p).run with
      slip := min (max (s.getPart p).run.slip (s.sync.stitch - ((s.getPart p).run.base + es))) (2 ^ 32 - 1)
      lateIssues := if s.sync.stitch - ((s.getPart p).run.base + es) = 0 then (s.getPart p).run.lateIssues
        else satAdd 64 (s.getPart p).run.lateIssues 1
      committed := (s.getPart p).run.committed ++ [16 * f + w]
      issue := if (s.getPart p).run.issue = none ∧ t.voteForms p = true then some s.sync.stitch else (s.getPart p).run.issue } } ∧
    (∀ q, q ≠ p → t.getPart q = s.getPart q) ∧ t = { s with part := t.part } := by
  obtain ⟨u, hu⟩ : ∃ u, u = (s.recordIssue p es).updRun p fun r => { r with committed := r.committed ++ [16 * f + w] } := ⟨_, rfl⟩
  have hpart : u.getPart p = { s.getPart p with run := { (s.getPart p).run with
      slip := min (max (s.getPart p).run.slip (s.sync.stitch - ((s.getPart p).run.base + es))) (2 ^ 32 - 1)
      lateIssues := if s.sync.stitch - ((s.getPart p).run.base + es) = 0 then (s.getPart p).run.lateIssues
        else satAdd 64 (s.getPart p).run.lateIssues 1
      committed := (s.getPart p).run.committed ++ [16 * f + w] } } := by
    rw [hu, State.updRun, State.getPart_updPart_same, State.recordIssue_getPart]
  have hothers : ∀ q, q ≠ p → u.getPart q = s.getPart q := fun q hq => by
    rw [hu, State.updRun, State.getPart_updPart_ne _ _ _ _ hq, State.recordIssue_getPart_ne hq]
  have hframe : u = { s with part := u.part } := by rw [hu]; rfl
  have hdef : t = u.noteVote p := by rw [ht, hu]; rfl
  have hsync : u.sync = s.sync := by rw [hframe]
  have hissue := State.noteVote_eq (s := u) (p := p) (by rw [hpart]; exact hpat)
  have hnoted := State.noteVote_getPart_same p u
  have hnote := State.noteVote_frame p u
  rw [← hdef] at hissue hnoted hnote
  refine ⟨?_, fun q hq => ?_, by rw [hnote, hframe]⟩
  · rw [hpart, hsync] at hissue
    rw [hnoted, hissue, hpart]
  · rw [hdef, State.noteVote_getPart_ne hq, hothers q hq]

end

/-! ### MICRO_BATCH_INPUT_READ (R151, R152) -/

/-- An entry that the layout does not give, or that was read in this step, is not read, nor is one of a pattern that does not run or has no
micro-batches. -/
theorem exec_microBatchInputRead_idle {s : State} {p e : Nat} (b : Landing)
    (h : (s.getPart p).image.slots[e]? = none ∨ (s.getPart p).pat ≠ .running ∨ bit (s.getPart p).image.slotFlags 0 = false ∨
      Tab.get 0 (s.getPart p).tokens e ≠ 0) : exec (.microBatchInputRead p e b) s = .next s := by
  show Host.Outcome.next (s.microBatchInputRead p e b.ranges b.places) = _
  unfold State.microBatchInputRead
  dsimp only
  split
  · next x hx => exact congrArg Host.Outcome.next (if_pos (by simpa [hx] using h))
  · rfl

section
variable {s t : State} {p e f a tb l f' b l' n v : Nat} {x : SlotEntry}

/-- A partition that took an entry's TOKENS. -/
def State.tookTokens (s : State) (p e v : Nat) : State := s.updPart p fun q => { q with tokens := Tab.set 0 q.tokens e (v + 1) }

theorem State.tookTokens_getPart (q : Nat) : (s.tookTokens p e v).getPart q =
    if q = p then { s.getPart p with tokens := Tab.set 0 (s.getPart p).tokens e (v + 1) } else s.getPart q := State.getPart_updPart _ _ _ _

/-- A partition's logical fronds are those of its groups. -/
theorem State.physical_congr (hgroups : (t.getPart p).groups = (s.getPart p).groups) (hretired : t.faults.retired = s.faults.retired) :
    t.physical p l = s.physical p l := congrArg (·[l]?) (State.fronds_congr hgroups hretired)

theorem State.tookTokens_groups : ((s.tookTokens p e v).getPart p).groups = (s.getPart p).groups := by
  rw [State.tookTokens_getPart, if_pos rfl]

/-- The landing buffer's tokens from `lo` up to `hi` are zeroed where it fits in its frond's store. -/
theorem State.zeroLanding_eq {lo hi : Nat} (hf : s.physical p l = some f) (hfit : a + tb * hi ≤ 3670016) :
    s.zeroLanding p lo hi (l, a, tb) = { s with store := s.store.zero (storeKey f (a + tb * lo)) (tb * (hi - lo)) } := by
  unfold State.zeroLanding
  rw [hf]
  exact if_pos hfit

/-- TOKENS as taken is written to its place. -/
theorem State.passTokens_eq (hf : s.physical p l = some f) (hfit : b + 8 ≤ 3670016) :
    s.passTokens p v (l, b) = s.fsWrite f b (leBytes 8 v) := by
  unfold State.passTokens
  rw [hf]
  exact if_pos hfit

/-- What the first stage leaves in the stores: the count in its place, zeros in the landing buffer beyond it. -/
def State.tokensPassed (s : State) (p e v f a tb hi f' b : Nat) : State :=
  { s.tookTokens p e v with store := s.store.zero (storeKey f (a + tb * v)) (tb * (hi - v)) }.fsWrite f' b (leBytes 8 v)

theorem exec_microBatchInputRead (hx : (s.getPart p).image.slots[e]? = some x) (hpat : (s.getPart p).pat = .running)
    (hflag : bit (s.getPart p).image.slotFlags 0 = true) (htaken : Tab.get 0 (s.getPart p).tokens e = 0) (hf : s.physical p l = some f)
    (hf' : s.physical p l' = some f') (ha : a + tb * x.maxTokens ≤ 3670016) (hb : b + 8 ≤ 3670016)
    (hn : n = leNat (s.far.readN ((s.getPart p).hbmBase + x.input) 8)) (hv : v = if n ≤ x.maxTokens then n else 0) :
    exec (.microBatchInputRead p e ⟨[(l, a, tb)], [(l', b)]⟩) s = .next (if n ≤ x.maxTokens then s.tokensPassed p e v f a tb x.maxTokens f' b
      else (s.tokensPassed p e v f a tb x.maxTokens f' b).lengthFault p e x.maxTokens n) := by
  obtain ⟨u, hu⟩ : ∃ u, u = { s.tookTokens p e v with store := s.store.zero (storeKey f (a + tb * v)) (tb * (x.maxTokens - v)) } := ⟨_, rfl⟩
  have hgroups : (u.getPart p).groups = (s.getPart p).groups := by rw [hu]; exact State.tookTokens_groups
  have hzero : (s.tookTokens p e v).zeroLanding p v x.maxTokens (l, a, tb) = u :=
    (State.zeroLanding_eq ((State.physical_congr State.tookTokens_groups rfl).trans hf) ha).trans hu.symm
  have hpass : s.tokensPassed p e v f a tb x.maxTokens f' b = u.passTokens p v (l', b) := by
    rw [State.passTokens_eq ((State.physical_congr hgroups (by rw [hu]; rfl)).trans hf') hb, hu]; rfl
  rw [hpass, ← hzero, hv, hn]
  show Host.Outcome.next (s.microBatchInputRead p e [(l, a, tb)] [(l', b)]) = _
  unfold State.microBatchInputRead
  simp only [hx, forAll_cons, forAll_nil]
  rw [if_neg (by simp [hpat, hflag, htaken])]
  rfl

theorem State.tokensPassed_getPart (q hi : Nat) : (s.tokensPassed p e v f a tb hi f' b).getPart q =
    if q = p then { s.getPart p with tokens := Tab.set 0 (s.getPart p).tokens e (v + 1) } else s.getPart q := State.tookTokens_getPart q

theorem State.tokensPassed_frame (hi : Nat) : s.tokensPassed p e v f a tb hi f' b =
    { s with part := (s.tokensPassed p e v f a tb hi f' b).part, store := (s.tokensPassed p e v f a tb hi f' b).store } := rfl

theorem State.tokensPassed_place (hi : Nat) : (s.tokensPassed p e v f a tb hi f' b).fsRead f' b 8 = leBytes 8 v := by
  have h := State.fsRead_fsWrite f' b (leBytes 8 v) { s.tookTokens p e v with store := s.store.zero (storeKey f (a + tb * v)) (tb * (hi - v)) }
  rwa [leBytes_length] at h

/-- Outside the count's place the store is as it was, but for the zeros of the landing buffer. -/
theorem State.tokensPassed_store {hi y : Nat} (hy : y < storeKey f' b ∨ storeKey f' b + 8 ≤ y) :
    (s.tokensPassed p e v f a tb hi f' b).store.read y =
      if y < storeKey f (a + tb * v) ∨ storeKey f (a + tb * v) + tb * (hi - v) ≤ y then s.store.read y else 0 :=
  (State.store_fsWrite_out (by rwa [leBytes_length])).trans (Mem.read_zero _ _ _ _)

/-- The landing buffer's range ends at `hi` tokens. -/
theorem storeKey_range {hi : Nat} (h : v ≤ hi) : storeKey f (a + tb * v) + tb * (hi - v) = storeKey f (a + tb * hi) := by
  have := Nat.mul_le_mul_left tb h
  rw [Nat.mul_sub, storeKey, storeKey]; omega

/-- What the first stage's read of an entry leaves (R151). -/
theorem State.tokensPassed_spec {u : State} {hi : Nat} (hle : v ≤ hi) (hu : u = s.tokensPassed p e v f a tb hi f' b) :
    (∀ q, u.getPart q = if q = p then { s.getPart p with tokens := Tab.set 0 (s.getPart p).tokens e (v + 1) } else s.getPart q) ∧
    u.fsRead f' b 8 = leBytes 8 v ∧
    (∀ y, storeKey f (a + tb * v) ≤ y → y < storeKey f (a + tb * hi) → y < storeKey f' b ∨ storeKey f' b + 8 ≤ y → u.store.read y = 0) ∧
    (∀ y, y < storeKey f (a + tb * v) ∨ storeKey f (a + tb * hi) ≤ y → y < storeKey f' b ∨ storeKey f' b + 8 ≤ y →
      u.store.read y = s.store.read y) ∧ u = { s with part := u.part, store := u.store } := by
  subst hu
  refine ⟨fun q => State.tokensPassed_getPart q hi, State.tokensPassed_place hi, fun y hlo hhi hy => ?_, fun y hout hy => ?_,
    State.tokensPassed_frame hi⟩
  · rw [State.tokensPassed_store hy, storeKey_range hle, if_neg (by omega)]
  · rw [State.tokensPassed_store hy, storeKey_range hle, if_pos hout]

/-- A length fault makes the step void (R152). -/
theorem State.lengthFault_getPart (q m : Nat) : (s.lengthFault p e m n).getPart q =
    if q = p then { s.getPart p with run := { (s.getPart p).run with void := true } } else s.getPart q := by
  rw [State.lengthFault, State.log_getPart, State.getPart_updRun]

theorem State.lengthFault_frame (m : Nat) : s.lengthFault p e m n = { s with
    part := (s.lengthFault p e m n).part, faults := (s.lengthFault p e m n).faults, irq := (s.lengthFault p e m n).irq,
    pcie := (s.lengthFault p e m n).pcie, out := (s.lengthFault p e m n).out } := by
  obtain ⟨u, hu⟩ : ∃ u, u = s.updRun p fun r => { r with void := true } := ⟨_, rfl⟩
  have hframe : u = { s with part := u.part } := by rw [hu]; rfl
  rw [State.lengthFault, ← hu, State.log_part]
  refine (State.log_frame _ u).trans ?_
  generalize State.log _ u = t
  rw [hframe]

/-- A length fault is logged as DATA with the entry, its MAX_TOKENS and the count that was read (R152, R430). -/
theorem State.lengthFault_logged (m : Nat) : ∃ d : LogEntry, (s.lengthFault p e m n).newest = some d ∧ d.kind = 7 ∧ d.code = .stepSkipped ∧
    d.part = p ∧ d.seq = s.faults.next ∧ fld d.detail 0 2 = e % 2 ^ 16 ∧ fld d.detail 4 4 = m % 2 ^ 32 ∧ fld d.detail 8 8 = n % 2 ^ 64 := by
  refine ⟨_, State.log_newest _ _, rfl, rfl, rfl, rfl, ?_, ?_, ?_⟩ <;> simp [State.entry, fld_record_skip, fld_record_head]

end

/-! ### The statement -/

/-- Settles O51: an issue, a stall and STEP.COMMIT are each one equation of the model, and a raise wakes the one warden that stalls; the first
stage's read of an entry is a write of the count over a zero-fill of the landing buffer, and a length fault adds a mark and a log entry. -/
theorem issuesAndMicroBatches : Obligations.IssuesAndMicroBatches := by
  unfold Obligations.IssuesAndMicroBatches
  refine ⟨fun s f w es p l r tokens hl => ?issues, fun s p e landing places h => exec_microBatchInputRead_idle _ h,
    fun s p e f a tb l f' b l' n v x hx hpat hflag htaken hf hf' ha hb hn hv => ?reads⟩
  case issues =>
    subst hl
    refine ⟨exec_wardenIssue_idle, fun hissuer => ⟨fun hes htokens => ?issue, fun hnot => ?stall⟩, exec_stitchWait,
      fun reg hreg hissuer hes => ?wait, fun n k g hbusy hk hwait hruns => ?raise, exec_stepCommit_idle,
      fun hruns hwait => ⟨fun hdone => ?committed, fun hnew hlate => ?early,
        fun hnew hes => ?commit⟩⟩
    case issue =>
      exact ⟨_, exec_wardenIssue_issues hissuer hes htokens, State.recordIssue_getPart .., fun q hq => State.recordIssue_getPart_ne hq es s, rfl⟩
    case stall =>
      exact ⟨_, exec_wardenIssue_stalls hissuer hnot, State.setWait_getFrond .., State.issuer_setWait _, State.setWait_others f w _ s, rfl⟩
    case wait =>
      have hissue := exec_wardenIssue_issues (tokens := []) hissuer hes (fun k hk => absurd hk List.not_mem_nil)
      refine ⟨_, (exec_stitchWait reg).trans ?_, State.recordIssue_getPart .., rfl⟩
      rw [← hreg, hissue]
    case raise =>
      obtain ⟨hgo, hstay⟩ := State.raiseToken_issues hwait hruns rfl
      refine ⟨_, (exec_raise hbusy k).trans (congrArg Host.Outcome.next (if_pos hk)), fun hes htoken => ?_, hstay⟩
      obtain ⟨hempty, hpart⟩ := hgo hes htoken
      exact ⟨hempty, hpart.trans (State.recordIssue_getPart ..)⟩
    case committed => rw [exec_stepCommit hruns hwait, if_pos hdone]
    case early => rw [exec_stepCommit hruns hwait, if_neg hnew, if_neg (Nat.not_le.2 hlate)]
    case commit =>
      obtain ⟨-, hpat⟩ := State.unitRuns_owner hruns
      exact ⟨_, by rw [exec_stepCommit hruns hwait, if_neg hnew, if_pos hes], State.commitBy_spec hpat rfl⟩
  case reads =>
    have hle : v ≤ x.maxTokens := by rw [hv]; split <;> omega
    have hexec := exec_microBatchInputRead hx hpat hflag htaken hf hf' ha hb hn hv
    obtain ⟨hpart, hplace, hzeros, hkept, hframe⟩ :=
      State.tokensPassed_spec (s := s) (p := p) (e := e) (f := f) (a := a) (tb := tb) (f' := f') (b := b) hle rfl
    generalize State.tokensPassed s p e v f a tb x.maxTokens f' b = u at *
    have hpart' : u.getPart p = { s.getPart p with tokens := Tab.set 0 (s.getPart p).tokens e (v + 1) } := by rw [hpart, if_pos rfl]
    by_cases hfit : n ≤ x.maxTokens
    case pos =>
      rw [if_pos hfit] at hexec
      refine ⟨u, hexec, ?_, fun k hk => ?_, hplace, hzeros, hkept, fun _ => ⟨?_, hframe⟩, fun hlong => absurd hfit (Nat.not_le.2 hlong),
        fun q hq => ?_, ?_⟩
      · rw [hpart', Tab.get_set_same]
      · rw [hpart', Tab.get_set_ne _ _ _ hk]
      · rw [hpart']
      · rw [hpart, if_neg hq]
      · rw [hframe]
    case neg =>
      rw [if_neg hfit] at hexec
      have hfault := fun q => State.lengthFault_getPart (s := u) (p := p) (e := e) (n := n) q x.maxTokens
      obtain ⟨d, hnewest, hkind, hcode, hwhere, hseq, hfields⟩ := State.lengthFault_logged (s := u) (p := p) (e := e) (n := n) x.maxTokens
      have hfaultFrame := State.lengthFault_frame (s := u) (p := p) (e := e) (n := n) x.maxTokens
      have hfaultStore : (u.lengthFault p e x.maxTokens n).store = u.store := by rw [hfaultFrame]
      generalize State.lengthFault p e x.maxTokens n u = t at *
      have htpart : t.getPart p = { s.getPart p with
          tokens := Tab.set 0 (s.getPart p).tokens e (v + 1), run := { (s.getPart p).run with void := true } } := by
        rw [hfault, if_pos rfl, hpart']
      refine ⟨t, hexec, ?_, fun k hk => ?_, (State.fsRead_congr hfaultStore _ _ _).trans hplace, fun y hlo hhi hy => ?_, fun y hout hy => ?_,
        fun h => absurd h hfit, fun _ => ⟨?_, d, hnewest, hkind, hcode, hwhere, ?_, hfields⟩, fun q hq => ?_, ?_⟩
      · rw [htpart, Tab.get_set_same]
      · rw [htpart, Tab.get_set_ne _ _ _ hk]
      · rw [hfaultStore, hzeros y hlo hhi hy]
      · rw [hfaultStore, hkept y hout hy]
      · rw [htpart]
      · rw [hseq, hframe]
      · rw [hfault, if_neg hq, hpart, if_neg hq]
      · rw [hfaultFrame, hframe]

end Sys2Proof.Machine
end

section
/-! SUPPORT. The start of a pattern: the reset of its fronds and gangs; a halt and what it abandons; then the statement about them. -/

namespace Sys2Proof.Machine

/-! ### The fronds of a pattern that starts (R117, R126, R131) -/

/-- A table filled key by key reads what each key was given. -/
theorem Tab.get_foldl_range (v : Nat → Nat) (n j : Nat) :
    Tab.get 0 ((List.range n).foldl (fun t k => Tab.set 0 t k (v k)) []) j = if j < n then v j else 0 := by
  induction n with
  | zero => rfl
  | succ n ih =>
    rw [List.range_succ, List.foldl_append, List.foldl_cons, List.foldl_nil, Tab.get_set, ih]
    by_cases hj : j = n
    · rw [if_pos hj, if_pos (by omega), hj]
    · rw [if_neg hj]
      exact if_congr (by omega) rfl rfl

/-- Each gang of a frond that starts stands at its entry slot, and one without an entry nowhere. -/
theorem Frond.start_gang (r : FrondRec) (x : Frond) {g : Nat} (hg : g < 16) :
    Tab.get 0 (Frond.start r x).gang g = if nth 0 r.entry g = 255 then 0 else (nth 0 r.entry g).toNat + 1 := by
  have h := Tab.get_foldl_range (fun g => if (nth 0 r.entry g).toNat = 255 then 0 else (nth 0 r.entry g).toNat + 1) 16 g
  rw [if_pos hg] at h
  exact h.trans (if_congr ⟨fun h => BitVec.eq_of_toNat_eq h, fun h => by rw [h]; rfl⟩ rfl rfl)

section
variable {α : Type} {F : α → Nat} {G : α → Frond → Frond} {l : List α}

/-- Fronds that are changed one by one: one that is not among them is as it was. -/
theorem State.forAll_updFrond_of_not_mem {k : Nat} (h : k ∉ l.map F) (s : State) :
    (forAll l (fun x s => s.updFrond (F x) (G x)) s).getFrond k = s.getFrond k :=
  forAll_keeps (State.getFrond · k) l _ s fun _ hx _ =>
    State.getFrond_updFrond_ne _ _ _ _ fun hk => h (hk ▸ List.mem_map_of_mem hx)

/-- And each of them, where all differ, is changed once. -/
theorem State.forAll_updFrond_of_mem {x : α} (hF : (l.map F).Nodup) (hx : x ∈ l) (s : State) :
    (forAll l (fun x s => s.updFrond (F x) (G x)) s).getFrond (F x) = G x (s.getFrond (F x)) := by
  induction l generalizing s with
  | nil => cases hx
  | cons y l ih =>
    rw [List.map_cons, List.nodup_cons] at hF
    obtain ⟨hy, hl⟩ := hF
    rw [forAll_cons]
    rcases List.mem_cons.1 hx with hxy | hxl
    · subst hxy
      rw [State.forAll_updFrond_of_not_mem hy, State.getFrond_updFrond_same]
    · rw [ih hl hxl, State.getFrond_updFrond_ne]
      exact fun h => hy (h ▸ List.mem_map_of_mem hxl)

end

/-- The fronds that a pattern's records are for, in logical order. -/
theorem zip_fronds {fs : List Nat} {n : Nat} (h : n ≤ fs.length) (rs : List FrondRec) :
    ((List.range n).zip rs).map (fun x => nth 0 fs x.1) = fs.take (min n rs.length) := by
  refine List.ext_getElem (by simp; omega) fun i h1 h2 => ?_
  have hi : i < fs.length := by simp at h1; omega
  simp [nth, hi]

section
variable {s : State} {p start : Nat} {by_ : Winner} {q : Partition}

/-! ### PATTERN_START (R126, R161, R175) -/

/-- A partition whose pattern is armed. -/
def Partition.armed (start : Nat) (by_ : Winner) (tcb : Tcb) (q : Partition) : Partition :=
  { q with pat := .armed, startedBy := by_, tcb := tcb, run := { start := start, base := start }, arith := {}, arithNow := {}, arithStep := (0, {})
           colls := [], collNext := [], earlyAborts := [], tokens := [], heldPieces := []
           serve := { q.serve with seq := 0, completed := 0, inbox := [], received := 0, takes := [] }
           twin := { q.twin with own := [], due := none, sentAt := none, waiting := false, rebind := none, comparedAt := none } }

/-- The fronds' part of the arming. -/
def State.startFronds (p : Nat) (s : State) : State :=
  forAll ((List.range (s.getPart p).image.fronds).zip (s.getPart p).image.records)
    (fun x u => u.updFrond (nth 0 (s.fronds p) x.1) (Frond.start x.2)) s

theorem State.arm_eq : s.arm p start by_ = (s.updPart p (Partition.armed start by_ (Tcb.begin_ (s.tcbBytes p)))).startFronds p := rfl

theorem State.startFronds_frame (p : Nat) (s : State) : s.startFronds p = { s with frond := (s.startFronds p).frond } :=
  forAll_inv (fun t => t = { s with frond := t.frond }) _ _ s rfl fun x _ t ht => by rw [State.updFrond, ht]

theorem State.startFronds_getFrond {i f : Nat} {r : FrondRec} (hlen : (s.getPart p).image.fronds ≤ (s.fronds p).length)
    (hi : i < (s.getPart p).image.fronds) (hr : (s.getPart p).image.records[i]? = some r) (hf : (s.fronds p)[i]? = some f) :
    (s.startFronds p).getFrond f = Frond.start r (s.getFrond f) := by
  have hnodup : (((List.range (s.getPart p).image.fronds).zip (s.getPart p).image.records).map fun x => nth 0 (s.fronds p) x.1).Nodup := by
    rw [zip_fronds hlen]
    exact (s.fronds_nodup p).sublist (List.take_sublist _ _)
  have hmem : (i, r) ∈ (List.range (s.getPart p).image.fronds).zip (s.getPart p).image.records :=
    List.mem_iff_getElem?.2 ⟨i, by simp [List.getElem?_zip_eq_some, hr, hi]⟩
  have hplace : nth 0 (s.fronds p) i = f := by simp [nth, hf]
  have h := State.forAll_updFrond_of_mem (G := fun x => Frond.start x.2) hnodup hmem s
  dsimp only at h
  rwa [hplace] at h

theorem State.startFronds_others {f : Nat} (hlen : (s.getPart p).image.fronds ≤ (s.fronds p).length)
    (hf : f ∉ (s.fronds p).take (s.getPart p).image.fronds) : (s.startFronds p).getFrond f = s.getFrond f := by
  refine State.forAll_updFrond_of_not_mem ?_ s
  rw [zip_fronds hlen]
  exact fun h => hf ((List.take_sublist_take_left (Nat.min_le_left _ _)).subset h)

section
variable {ch : Nat} {h : Held} {b : List Byte}

theorem exec_patternStart (hc : Commanded s 0x0203 ch h b) (hq : q = s.getPart h.part) : exec (.patternStart ch) s = .next (
    if s.linkDead = true then s.answer ch .internal [] else if q.pat ≠ .loaded then s.answer ch .notPermitted []
    else if q.twin.landing = true then s.answer ch .busy [] else if fld b 0 8 < s.sync.stitch + 1024 then s.answer ch .badParam []
    else if (!tcbOk (s.tcbBytes h.part) (q.image.amount 4 0)) = true then s.answer ch .badParam []
    else (s.arm h.part (fld b 0 8) { ch := ch, tag := h.tag, opcode := 0x0203 }).answer ch .ok []) := by
  subst hq
  exact congrArg Host.Outcome.next (State.runCommand_commanded hc _)

/-! ### PATTERN_HALT (R127, R378) -/

theorem exec_patternHalt (hc : Commanded s 0x0204 ch h b) : exec (.patternHalt ch) s = .next ((s.haltDue h.part .ok).answer ch .ok []) :=
  congrArg Host.Outcome.next (State.runCommand_commanded hc _)

end

end

end Sys2Proof.Machine
end

section
/-! SUPPORT. A halt and what it abandons (R127, R330); then the statement about the start and the halt of a pattern. -/

namespace Sys2Proof.Machine

section
variable {s t : State} {p : Nat} {st : Status}

/-! ### Records to requesters (R319, R321) -/

theorem State.sendInWin_frame (i : Nat) (f : Frame) (s : State) :
    s.sendInWin i f = { s with links := (s.sendInWin i f).links, out := (s.sendInWin i f).out } := by
  unfold State.sendInWin
  dsimp only
  rw [State.inject_frame]
  rfl

theorem State.bindWin_frame (p : Nat) (d : Coord) (s : State) : (s.bindWin p d).2 = { s with links := (s.bindWin p d).2.links } := by
  unfold State.bindWin
  split
  · rfl
  · dsimp only
    split <;> rfl

/-- What a record to a requester may change: the channel of a host's ring, or the links and the frames that wait for a window. -/
def ServeSent (s t : State) (p : Nat) : Prop :=
  (∀ q, ∃ ws, t.getPart q = if q = p then { s.getPart p with serve := { (s.getPart p).serve with waiting := ws } } else s.getPart q) ∧
  t = { s with part := t.part, links := t.links, chan := t.chan, irq := t.irq, pcie := t.pcie, out := t.out }

/-- A record that leaves the partitions as they are. -/
theorem ServeSent.of_rest (h : t = { s with links := t.links, chan := t.chan, irq := t.irq, pcie := t.pcie, out := t.out }) : ServeSent s t p := by
  refine ⟨fun q => ⟨(s.getPart p).serve.waiting, ?_⟩, by rw [h]⟩
  rw [h]
  split
  · next hq => rw [hq]; rfl
  · rfl

/-- A frame that waits for a window. -/
theorem ServeSent.waits (f : Frame) (h : t = { s with links := t.links }) :
    ServeSent s (t.updServe p fun v => { v with waiting := v.waiting ++ [f] }) p := by
  have hparts : ∀ q, t.getPart q = s.getPart q := fun q => by rw [h]; rfl
  refine ⟨fun q => ⟨(s.getPart p).serve.waiting ++ [f], ?_⟩, by rw [h]; rfl⟩
  rw [State.updServe, State.getPart_updPart, hparts, hparts]

theorem State.sendWindowed_sent (p : Nat) (f : Frame) (s : State) : ServeSent s (s.sendWindowed p f) p := by
  have hbind := State.bindWin_frame p f.dst s
  unfold State.sendWindowed
  split
  · exact .waits f rfl
  · split
    case h_1 i u h =>
      rw [h] at hbind
      dsimp only at hbind
      refine .of_rest ?_
      rw [State.sendInWin_frame]
      generalize State.sendInWin i f u = t
      rw [hbind]
    case h_2 u h =>
      rw [h] at hbind
      exact .waits f hbind

theorem State.serveTo_sent (host : Bool) (dst : Coord) (dstPart : Nat) (rcd : List Byte) (s : State) :
    ServeSent s (s.serveTo p host dst dstPart rcd) p := by
  have hring := State.ringRecord_frame (4 + p) 1 s.here p rcd s
  unfold State.serveTo
  split
  · generalize State.ringRecord (4 + p) 1 s.here p rcd s = t at *
    exact .of_rest (by rw [hring])
  · dsimp only
    split
    · exact .of_rest rfl
    · exact State.sendWindowed_sent p _ s

/-! ### Rejects (R319, R330) -/

/-- A reject counts, and changes nothing of its partition but that and the frames that wait for a window. -/
theorem State.rejectEntry_counts (p i : Nat) (r : Reject) (s : State) :
    ((s.rejectEntry p i r).getPart p).serve.counts = Tab.upd 0 (s.getPart p).serve.counts 4 (satAdd 64 · 1) := by
  obtain ⟨hpart, -⟩ := State.serveTo_sent (p := p) (s.getCtx i).hostReq (s.getCtx i).req (s.getCtx i).reqPart
    (serveRecord 3 r.code 0 (handleOf i (s.getCtx i)) (s.getCtx i).tokenIn 0 (s.getCtx i).cookie) s
  obtain ⟨ws, hp⟩ := hpart p
  rw [if_pos rfl] at hp
  unfold State.rejectEntry
  rw [State.serveCount, State.updServe, State.getPart_updPart_same, hp]

theorem State.rejectEntry_frame (p i : Nat) (r : Reject) (s : State) : s.rejectEntry p i r = { s with
    part := (s.rejectEntry p i r).part, links := (s.rejectEntry p i r).links, chan := (s.rejectEntry p i r).chan, irq := (s.rejectEntry p i r).irq
    pcie := (s.rejectEntry p i r).pcie, out := (s.rejectEntry p i r).out } := by
  obtain ⟨-, hframe⟩ := State.serveTo_sent (p := p) (s.getCtx i).hostReq (s.getCtx i).req (s.getCtx i).reqPart
    (serveRecord 3 r.code 0 (handleOf i (s.getCtx i)) (s.getCtx i).tokenIn 0 (s.getCtx i).cookie) s
  unfold State.rejectEntry
  dsimp only
  generalize State.serveTo p _ _ _ _ s = t at *
  rw [hframe]
  rfl

theorem State.rejectEntry_links (i : Nat) (r : Reject) (s : State) {c : Ctx} (hc : c = s.getCtx i) : (s.rejectEntry p i r).links =
    (s.serveTo p c.hostReq c.req c.reqPart (serveRecord 3 r.code 0 (handleOf i c) c.tokenIn 0 c.cookie)).links := by
  subst hc; rfl

theorem State.rejectEntry_getCtx (i j : Nat) (r : Reject) (s : State) : (s.rejectEntry p i r).getCtx j = s.getCtx j := by
  rw [State.rejectEntry_frame]; rfl

/-- An entry whose request is rejected is open again. -/
theorem State.rejected_getCtx (i j : Nat) (r : Reject) (s : State) : ((s.rejectEntry p i r).reopen i).getCtx j =
    if j = i then { s.getCtx i with state := .open_, hostReq := false } else s.getCtx j := by
  rw [State.reopen, State.getCtx_updCtx, State.rejectEntry_getCtx, State.rejectEntry_getCtx]

/-! ### The batches of a pattern that halts (R330) -/

/-- A partition's batches are gone. -/
def State.clearBatches (p : Nat) (s : State) : State := s.updServe p fun v => { v with sealed_ := [], forming := [] }

theorem State.clearBatches_getPart (p q : Nat) (s : State) : (s.clearBatches p).getPart q =
    if q = p then { s.getPart p with serve := { (s.getPart p).serve with sealed_ := [], forming := [] } } else s.getPart q :=
  State.getPart_updPart _ _ _ _

/-- A partition without batches has none to clear. -/
theorem State.clearBatches_of_none (hsealed : (s.getPart p).serve.sealed_ = []) (hforming : (s.getPart p).serve.forming = []) (q : Nat) :
    (s.clearBatches p).getPart q = s.getPart q := by
  have hsame : ∀ v : Serve, v.sealed_ = [] → v.forming = [] → { v with sealed_ := [], forming := [] } = v := by
    rintro ⟨⟩ h h'
    cases h
    cases h'
    rfl
  rw [State.clearBatches_getPart, hsame _ hsealed hforming]
  split
  · next hq => rw [hq]
  · rfl

theorem State.abandonBatches_none (hsealed : (s.getPart p).serve.sealed_ = []) (hforming : (s.getPart p).serve.forming = []) :
    s.abandonBatches p = s.clearBatches p := by
  unfold State.abandonBatches
  dsimp only
  rw [hsealed, hforming]
  rfl

/-- A sealed batch of one row is abandoned: its request is rejected with HALTED. -/
theorem State.abandonBatches_sealed {bt : Batch} {row : BatchRow} (hsealed : (s.getPart p).serve.sealed_ = [bt]) (hrows : bt.rows = [row])
    (hopen : (s.getPart p).serve.completed ≤ bt.seq) (hforming : (s.getPart p).serve.forming = [])
    (hstate : (s.getCtx row.entry).state = .batched) : s.abandonBatches p =
      ((((s.rejectEntry p row.entry .halted).reopen row.entry).serveCount p 9 1).clearBatches p) := by
  unfold State.abandonBatches
  simp only [hsealed, hforming, List.filter_cons, List.filter_nil, decide_eq_true hopen, if_true, List.flatMap_nil, forAll_cons, forAll_nil, hrows,
    hstate]
  rfl

/-- A forming batch of one row dissolves: its request is rejected with NOT_RUNNING. -/
theorem State.abandonBatches_forming {w i : Nat} (hsealed : (s.getPart p).serve.sealed_ = [])
    (hforming : (s.getPart p).serve.forming = [(w, [i])]) :
    s.abandonBatches p = ((s.rejectEntry p i .notRunning).reopen i).clearBatches p := by
  unfold State.abandonBatches
  simp only [hsealed, hforming, List.filter_nil, forAll_nil, List.flatMap_cons, List.flatMap_nil, List.append_nil, forAll_cons]
  rfl

section
variable {c : Ctx} {u : State}

/-- A request that is rejected as its batch goes: its entry is open, the reject is counted, and the record has gone out. -/
theorem State.rejected_spec {i : Nat} {r : Reject} (hc : c = s.getCtx i)
    (hu : u = s.serveTo p c.hostReq c.req c.reqPart (serveRecord 3 r.code 0 (handleOf i c) c.tokenIn 0 c.cookie))
    (ht : t = (s.rejectEntry p i r).reopen i) :
    (t.getPart p).serve.counts = Tab.upd 0 (s.getPart p).serve.counts 4 (satAdd 64 · 1) ∧
    t.getCtx i = { c with state := .open_, hostReq := false } ∧ (∀ j, j ≠ i → t.getCtx j = s.getCtx j) ∧ t.links = u.links := by
  have hctx := fun j => State.rejected_getCtx (p := p) i j r s
  rw [← ht] at hctx
  refine ⟨?_, ?_, fun j hj => ?_, ?_⟩
  · rw [ht]
    exact State.rejectEntry_counts p i r s
  · rw [hctx, if_pos rfl, hc]
  · rw [hctx, if_neg hj]
  · rw [ht, hu]
    exact State.rejectEntry_links i r s hc

/-- What is left of a sealed batch of one row. -/
theorem State.abandonBatches_sealed_spec {bt : Batch} {row : BatchRow} (hsealed : (s.getPart p).serve.sealed_ = [bt]) (hrows : bt.rows = [row])
    (hopen : (s.getPart p).serve.completed ≤ bt.seq) (hforming : (s.getPart p).serve.forming = [])
    (hstate : c.state = .batched) (hc : c = s.getCtx row.entry)
    (hu : u = s.serveTo p c.hostReq c.req c.reqPart (serveRecord 3 5 0 (handleOf row.entry c) c.tokenIn 0 c.cookie)) (ht : t = s.abandonBatches p) :
    Tab.get 0 (t.getPart p).serve.counts 9 = satAdd 64 (Tab.get 0 (s.getPart p).serve.counts 9) 1 ∧
    Tab.get 0 (t.getPart p).serve.counts 4 = satAdd 64 (Tab.get 0 (s.getPart p).serve.counts 4) 1 ∧ (t.getPart p).serve.sealed_ = [] ∧
    t.getCtx row.entry = { c with state := .open_, hostReq := false } ∧ (∀ j, j ≠ row.entry → t.getCtx j = s.getCtx j) ∧
    t.links = u.links := by
  rw [State.abandonBatches_sealed hsealed hrows hopen hforming (hc ▸ hstate)] at ht
  obtain ⟨hcounts, hctx, hothers, hlinks⟩ := State.rejected_spec (r := .halted) hc hu rfl
  generalize (s.rejectEntry p row.entry .halted).reopen row.entry = x at *
  have hpart : t.getPart p = { x.getPart p with serve := { (x.getPart p).serve with
      counts := Tab.upd 0 (x.getPart p).serve.counts 9 (satAdd 64 · 1), sealed_ := [], forming := [] } } := by
    rw [ht, State.clearBatches_getPart, if_pos rfl, State.serveCount, State.updServe, State.getPart_updPart_same]
  have hrest : t = { x with part := t.part } := by rw [ht]; rfl
  rw [hpart]
  refine ⟨?_, ?_, rfl, by rw [hrest]; exact hctx, fun j hj => by rw [hrest]; exact hothers j hj, by rw [hrest]; exact hlinks⟩
  · rw [Tab.get_upd_same, hcounts, Tab.get_upd_ne _ _ _ (by decide)]
  · rw [Tab.get_upd_ne _ _ _ (by decide), hcounts, Tab.get_upd_same]

/-- What is left of a forming batch of one row. -/
theorem State.abandonBatches_forming_spec {w i : Nat} (hsealed : (s.getPart p).serve.sealed_ = [])
    (hforming : (s.getPart p).serve.forming = [(w, [i])]) (hc : c = s.getCtx i)
    (hu : u = s.serveTo p c.hostReq c.req c.reqPart (serveRecord 3 4 0 (handleOf i c) c.tokenIn 0 c.cookie)) (ht : t = s.abandonBatches p) :
    Tab.get 0 (t.getPart p).serve.counts 4 = satAdd 64 (Tab.get 0 (s.getPart p).serve.counts 4) 1 ∧ (t.getPart p).serve.forming = [] ∧
    t.getCtx i = { c with state := .open_, hostReq := false } ∧ (∀ j, j ≠ i → t.getCtx j = s.getCtx j) ∧ t.links = u.links := by
  rw [State.abandonBatches_forming hsealed hforming] at ht
  obtain ⟨hcounts, hctx, hothers, hlinks⟩ := State.rejected_spec (r := .notRunning) hc hu rfl
  generalize (s.rejectEntry p i .notRunning).reopen i = x at *
  have hpart : t.getPart p = { x.getPart p with serve := { (x.getPart p).serve with sealed_ := [], forming := [] } } := by
    rw [ht, State.clearBatches_getPart, if_pos rfl]
  have hrest : t = { x with part := t.part } := by rw [ht]; rfl
  rw [hpart]
  refine ⟨?_, rfl, by rw [hrest]; exact hctx, fun j hj => by rw [hrest]; exact hothers j hj, by rw [hrest]; exact hlinks⟩
  rw [hcounts, Tab.get_upd_same]

end

/-- What the abandoning of batches may change. -/
def BatchesMoved (s t : State) : Prop :=
  t = { s with part := t.part, ctx := t.ctx, links := t.links, chan := t.chan, irq := t.irq, pcie := t.pcie, out := t.out }

theorem BatchesMoved.refl (s : State) : BatchesMoved s s := rfl

theorem BatchesMoved.trans {u : State} (h : BatchesMoved s t) (h' : BatchesMoved t u) : BatchesMoved s u := by
  unfold BatchesMoved at *
  rw [h', h]

theorem BatchesMoved.forAll {α : Type} (l : List α) (g : α → State → State) (h : ∀ x u, BatchesMoved u (g x u)) (s : State) :
    BatchesMoved s (forAll l g s) := forAll_inv (BatchesMoved s) l g s (.refl s) fun x _ u hu => hu.trans (h x u)

theorem State.rejectEntry_moved (p i : Nat) (r : Reject) (s : State) : BatchesMoved s (s.rejectEntry p i r) := by
  unfold BatchesMoved
  have hframe := State.rejectEntry_frame p i r s
  generalize s.rejectEntry p i r = t at *
  rw [hframe]

theorem State.rejected_moved (p i : Nat) (r : Reject) (s : State) : BatchesMoved s ((s.rejectEntry p i r).reopen i) :=
  (State.rejectEntry_moved p i r s).trans rfl

theorem State.clearBatches_moved (p : Nat) (s : State) : BatchesMoved s (s.clearBatches p) := rfl

theorem State.abandonBatches_moved (p : Nat) (s : State) : BatchesMoved s (s.abandonBatches p) := by
  unfold State.abandonBatches
  refine ((BatchesMoved.forAll _ _ (fun b u => ?sealed) s).trans
    (BatchesMoved.forAll _ _ (fun i u => State.rejected_moved p i .notRunning u) _)).trans (State.clearBatches_moved p _)
  case sealed =>
    refine (BatchesMoved.forAll _ _ (fun r x => ?_) u).trans rfl
    split
    · exact State.rejected_moved p _ .halted x
    · rfl
    · exact .refl x

/-! ### A halt (R127) -/

theorem State.ringHost_getChan (ch b c : Nat) (s : State) : (s.ringHost ch b).getChan c =
    if c = ch then { s.getChan ch with db := (s.getChan ch).db ||| BitVec.twoPow 32 b } else s.getChan c := by
  rw [State.ringHost, State.settle_getChan, State.getChan_updChan]

/-- A doorbell keeps the causes that are set. -/
theorem State.ringHost_keeps_caused {c : Cause} (ch b : Nat) (h : s.caused c) : (s.ringHost ch b).caused c := by
  unfold State.caused State.ringHost at *
  rwa [State.settle_status]

/-- A partition whose pattern has halted. -/
def Partition.halted (st : Status) (q : Partition) : Partition :=
  { q with pat := .halted, colls := [], earlyAborts := []
           run := { q.run with last := some st, halt := none, sent := none, children := [], sig := false }
           twin := { q.twin with state := if q.twin.soloNext then .solo else q.twin.state, soloNext := false, due := none, sentAt := none
                                 waiting := false, acts := [] } }

/-- What a halt leaves behind the batches that it abandoned: the pattern halted, the cause and the doorbell. -/
theorem State.haltNow_spec {u : State} (hu : u = s.abandonBatches p) (ht : t = s.haltNow p st) :
    (∀ q, t.getPart q = if q = p then (u.getPart p).halted st else u.getPart q) ∧ (u.irq.status.length = 11 → t.caused .halt) ∧
    t.getChan (4 + p) = { u.getChan (4 + p) with db := (u.getChan (4 + p)).db ||| 0x20#32 } ∧ (∀ c, c ≠ 4 + p → t.getChan c = u.getChan c) ∧
    t = { u with part := t.part, chan := t.chan, irq := t.irq, pcie := t.pcie, out := t.out } := by
  have hdef : t = ((u.updPart p (Partition.halted st)).raise .halt).ringHost (4 + p) 5 := by rw [ht, hu]; rfl
  have hchan := fun c => State.ringHost_getChan (4 + p) 5 c ((u.updPart p (Partition.halted st)).raise .halt)
  rw [← hdef] at hchan
  have hsame : ∀ c, ((u.updPart p (Partition.halted st)).raise .halt).getChan c = u.getChan c := fun c => State.raise_getChan _ _ _
  refine ⟨fun q => ?_, fun hirq => ?_, ?_, fun c hc => ?_, ?_⟩
  · rw [hdef, State.ringHost_getPart, State.raise_getPart, State.getPart_updPart]
  · rw [hdef]
    exact State.ringHost_keeps_caused _ _ (State.raise_caused .halt hirq)
  · rw [hchan, if_pos rfl, hsame]; rfl
  · rw [hchan, if_neg hc, hsame]
  · rw [hdef, State.ringHost_frame, State.raise_frame]; rfl

theorem State.haltNow_moved (p : Nat) (st : Status) (s : State) : BatchesMoved s (s.haltNow p st) := by
  obtain ⟨-, -, -, -, hframe⟩ := State.haltNow_spec (s := s) (p := p) (st := st) rfl rfl
  refine (State.abandonBatches_moved p s).trans ?_
  generalize s.haltNow p st = t at *
  unfold BatchesMoved
  rw [hframe]

section
variable (hhalt : (s.getPart p).run.halt = some st)
include hhalt

theorem exec_patternHaltEffect : exec (.patternHaltEffect p) s = .next (if (s.getPart p).live = true ∧ (s.getPart p).run.haltAt < s.sync.stitch ∧
    (!(s.getPart p).run.committing) = true then s.haltNow p st else s) := by
  show Host.Outcome.next (s.patternHaltEffect p) = _
  unfold State.patternHaltEffect
  dsimp only
  rw [hhalt]
  rfl

theorem exec_patternHaltEffect_due (hlive : (s.getPart p).live = true) (hlate : (s.getPart p).run.haltAt < s.sync.stitch)
    (hdecided : (s.getPart p).run.committing = false) : exec (.patternHaltEffect p) s = .next (s.haltNow p st) :=
  (exec_patternHaltEffect hhalt).trans (congrArg Host.Outcome.next (if_pos ⟨hlive, hlate, by rw [hdecided]; rfl⟩))

end

/-- Before a later boundary, while a step commits, and with no halt due or no live pattern nothing halts. -/
theorem exec_patternHaltEffect_early (h : (s.getPart p).run.halt = none ∨ (s.getPart p).live = false ∨
    s.sync.stitch ≤ (s.getPart p).run.haltAt ∨ (s.getPart p).run.committing = true) : exec (.patternHaltEffect p) s = .next s := by
  cases hhalt : (s.getPart p).run.halt with
  | none =>
    show Host.Outcome.next (s.patternHaltEffect p) = _
    unfold State.patternHaltEffect
    dsimp only
    rw [hhalt]
  | some st =>
    refine (exec_patternHaltEffect hhalt).trans (congrArg Host.Outcome.next (if_neg ?_))
    rintro ⟨hlive, hlate, hdecided⟩
    rcases h with h | h | h | h
    · rw [hhalt] at h; cases h
    · rw [hlive] at h; cases h
    · exact absurd hlate (Nat.not_lt.2 h)
    · rw [h] at hdecided; cases hdecided

end

/-! ### The statement -/

/-- Settles O30: arming changes the partition by `Partition.armed` and starts each frond of the image by `Frond.start`, once, as the logical fronds
all differ; a halt is `State.haltNow_spec` over what `State.abandonBatches` leaves of the batches. -/
theorem patternStartAndHalt : Obligations.PatternStartAndHalt := by
  unfold Obligations.PatternStartAndHalt
  refine ⟨fun s ch h b q hc hq => ?start, fun b t hb ht => ?block, fun s ch h b hc => ?due, fun s p st q hq hhalt hlive hlate hdecided => ?effect,
    fun s p => exec_patternHaltEffect_early⟩
  case start =>
    have hexec := exec_patternStart hc hq
    refine ⟨fun hd => ?_, fun hd hpat => ?_, fun hd hpat hcopy => ?_, fun hd hpat hland hbad => ?_, fun hd hpat hland hat_ hblock hlen => ?arms⟩
    · rw [hexec, if_pos hd]
    · rw [hexec, if_neg (by simp [hd]), if_pos hpat]
    · rw [hexec, if_neg (by simp [hd]), if_neg (by simp [hpat]), if_pos (by simpa [Twin.landing] using hcopy)]
    · rw [hexec, if_neg (by simp [hd]), if_neg (by simp [hpat]), if_neg (by simp [hland])]
      rcases hbad with hsoon | hblock
      · rw [if_pos hsoon]
      · rw [hblock]; simp
    case arms =>
      rw [if_neg (by simp [hd]), if_neg (by simp [hpat]), if_neg (by simp [hland]), if_neg (Nat.not_lt.2 hat_), if_neg (by simp [hblock])] at hexec
      refine ⟨_, hexec, ?_⟩
      rw [State.arm_eq]
      obtain ⟨u, hu⟩ : ∃ u, u = s.updPart h.part (Partition.armed (fld b 0 8) { ch := ch, tag := h.tag, opcode := 0x0203 }
        (Tcb.begin_ (s.tcbBytes h.part))) := ⟨_, rfl⟩
      rw [← hu]
      have hpart : ∀ k, u.getPart k = if k = h.part then q.armed (fld b 0 8) { ch := ch, tag := h.tag, opcode := 0x0203 }
          (Tcb.begin_ (s.tcbBytes h.part)) else s.getPart k := fun k => by rw [hu, State.getPart_updPart, hq]
      have himage : (u.getPart h.part).image = q.image := by rw [hpart, if_pos rfl]; rfl
      have hfronds : u.fronds h.part = s.fronds h.part :=
        State.fronds_congr (by rw [hpart, if_pos rfl, hq]; rfl) (by rw [hu]; rfl)
      have hlen' : (u.getPart h.part).image.fronds ≤ (u.fronds h.part).length := by rwa [himage, hfronds]
      have hframe : u = { s with part := u.part } := by rw [hu]; rfl
      have hgetFrond : ∀ f, u.getFrond f = s.getFrond f := fun f => by rw [hframe]; rfl
      have hstarted := fun i f r => State.startFronds_getFrond (i := i) (f := f) (r := r) hlen'
      have hothers := fun f => State.startFronds_others (f := f) hlen'
      have hstart := State.startFronds_frame h.part u
      rw [himage, hfronds] at hstarted hothers
      generalize u.startFronds h.part = t at *
      have hparts : ∀ k, t.getPart k = u.getPart k := fun k => by rw [hstart]; rfl
      refine ⟨?_, fun k hk => ?_, fun i f r hi hr hf => ?_, fun f hf => ?_, ?_⟩
      · rw [hparts, hpart, if_pos rfl]; rfl
      · rw [hparts, hpart, if_neg hk]
      · have hgo := hstarted i f r hi hr hf
        rw [hgetFrond] at hgo
        refine ⟨?_, fun g hg => ?_⟩
        · rw [hgo]; rfl
        · rw [hgo, Frond.start_gang r _ hg]
      · rw [hothers f hf, hgetFrond]
      · rw [hstart, hframe]
  case block =>
    subst ht
    refine ⟨fun hfirst => ?_, fun hlater => ?_⟩
    · unfold Tcb.begin_
      exact if_pos hfirst
    · unfold Tcb.begin_
      exact if_neg hlater
  case due =>
    have hexec := exec_patternHalt hc
    have hpart := fun k => State.haltDue_getPart h.part .ok s k
    refine ⟨fun hidle => ?_, fun hlive hnone => ?_⟩
    · rw [hexec, State.haltDue, if_neg]
      rintro ⟨hlive, hnone⟩
      rcases hidle with hdead | hdue
      · rw [hdead] at hlive; cases hlive
      · exact hdue hnone
    · refine ⟨_, hexec, ?_, fun k hk => ?_, State.haltDue_frame _ _ _⟩
      · rw [hpart, if_pos rfl, Partition.haltedDue, if_pos ⟨hlive, hnone⟩]
      · rw [hpart, if_neg hk]
  case effect =>
    subst hq
    have hexec := exec_patternHaltEffect_due hhalt hlive hlate hdecided
    obtain ⟨hpart, hcaused, hrung, hchans, hframe⟩ := State.haltNow_spec (s := s) (p := p) (st := st) rfl rfl
    generalize s.haltNow p st = t at *
    refine ⟨fun hsealed hforming => ?none, fun bt row c u hsealed hrows hopen hforming hc hstate hu => ?sealed,
      fun w i c u hsealed hforming hc hu => ?forming⟩
    case none =>
      rw [State.abandonBatches_none hsealed hforming] at hpart hcaused hrung hchans hframe
      have hkept := State.clearBatches_of_none hsealed hforming
      have hclear : s.clearBatches p = { s with part := (s.clearBatches p).part } := rfl
      generalize s.clearBatches p = u at *
      have hchan : ∀ c, u.getChan c = s.getChan c := fun c => by rw [hclear]; rfl
      refine ⟨t, hexec, ?_, fun hirq => hcaused (by rw [hclear]; exact hirq), by rw [hrung, hchan], fun c hc => by rw [hchans c hc, hchan],
        fun k hk => ?_, by rw [hframe, hclear]⟩
      · rw [hpart, if_pos rfl, hkept]; rfl
      · rw [hpart, if_neg hk, hkept]
    case sealed =>
      obtain ⟨hdone, hrejects, hserve, hctx, hothers, hlinks⟩ := State.abandonBatches_sealed_spec hsealed hrows hopen hforming hstate hc hu rfl
      have hmoved := State.abandonBatches_moved p s
      generalize s.abandonBatches p = a at *
      have htpart : t.getPart p = (a.getPart p).halted st := by rw [hpart, if_pos rfl]
      have hctxs : ∀ j, t.getCtx j = a.getCtx j := fun j => by rw [hframe]; rfl
      refine ⟨t, hexec, ?_⟩
      rw [htpart, hctxs]
      refine ⟨rfl, rfl, hserve, hctx, fun j hj => (hctxs j).trans (hothers j hj), hdone, hrejects, by rw [hframe]; exact hlinks, ?_⟩
      rw [hframe, hmoved]
    case forming =>
      obtain ⟨hrejects, hserve, hctx, hothers, hlinks⟩ := State.abandonBatches_forming_spec hsealed hforming hc hu rfl
      have hmoved := State.abandonBatches_moved p s
      generalize s.abandonBatches p = a at *
      have htpart : t.getPart p = (a.getPart p).halted st := by rw [hpart, if_pos rfl]
      have hctxs : ∀ j, t.getCtx j = a.getCtx j := fun j => by rw [hframe]; rfl
      refine ⟨t, hexec, ?_⟩
      rw [htpart, hctxs]
      refine ⟨rfl, hserve, hctx, fun j hj => (hctxs j).trans (hothers j hj), hrejects, by rw [hframe]; exact hlinks, ?_⟩
      rw [hframe, hmoved]

end Sys2Proof.Machine
end

section
/-! SUPPORT. The counter's value through all else that a stitch boundary does: no fused instruction that issues, no halt and no answer sets it. -/

namespace Sys2Proof.Machine

section
variable {p f : Nat} {k : Nat × Nat} {c : Coll}

/-! ### Issue of fused instructions (R130, R147) -/

@[simp] theorem State.updColl_sync (p : Nat) (k : Nat × Nat) (g : Coll → Coll) (s : State) : (s.updColl p k g).sync = s.sync := rfl

@[simp] theorem State.noteVote_sync (p : Nat) (s : State) : (s.noteVote p).sync = s.sync := by rw [State.noteVote_frame]

@[simp] theorem State.returnFlag_sync (p : Nat) (flag : Bool) (s : State) : (s.returnFlag p flag).sync = s.sync := by
  unfold State.returnFlag
  split <;> rfl

@[simp] theorem State.countScaleRange_sync (p n : Nat) (s : State) : (s.countScaleRange p n).sync = s.sync := by
  unfold State.countScaleRange
  split
  · rfl
  · rw [State.raise_sync]; rfl

@[simp] theorem State.raiseChunks_sync (c : Coll) (n : Nat) (s : State) : (s.raiseChunks c n).sync = s.sync :=
  forAll_keeps State.sync _ _ s fun _ _ t => State.raiseToken_sync _ _ t

@[simp] theorem State.collDone_sync (p : Nat) (k : Nat × Nat) (s : State) : (s.collDone p k).sync = s.sync := by
  cases hc : s.coll p k with
  | none => rw [State.collDone, hc]
  | some c =>
    rw [State.collDone_of_some hc, State.noteVote_sync]
    split
    · rw [State.returnFlag_sync, State.doneRaised, State.raiseToken_sync, State.updColl_sync]
    · rw [State.doneRaised, State.raiseToken_sync, State.updColl_sync]

@[simp] theorem State.sendColl_sync (dir token extra : Nat) (payload : List Byte) (s : State) :
    (s.sendColl p c dir token extra payload).sync = s.sync :=
  State.sendColl_holds (P := fun t => t.sync = s.sync) (fun _ _ t ht => (State.sendHop_sync _ _ t).trans ht) _ _ _ _ rfl

@[simp] theorem State.sendTree_sync (flag : Bool) (d : Coord) (s : State) : (s.sendTree p c flag d).sync = s.sync := by
  unfold State.sendTree
  split
  · exact State.sendColl_sync _ _ _ _ s
  · rfl

@[simp] theorem State.treeDown_sync (g : Group) (flag : Bool) (s : State) : (s.treeDown p c g flag).sync = s.sync := by
  unfold State.treeDown
  rw [State.collDone_sync]
  exact forAll_keeps State.sync _ _ _ fun d _ t => State.sendTree_sync flag d t

@[simp] theorem State.treeUp_sync (s : State) : (s.treeUp p k).sync = s.sync := by
  unfold State.treeUp
  split
  · rfl
  · split
    · rfl
    · dsimp only
      split
      · rfl
      · split
        · exact State.treeDown_sync _ _ s
        · exact State.sendTree_sync _ _ _

@[simp] theorem State.dataComplete_sync (g : Group) (s : State) : (s.dataComplete p c g).sync = s.sync := by
  have hraised : ∀ n, ((((s.fsWrite c.frond c.what.dst (s.resultBytes c g).1).countScaleRange p (s.resultBytes c g).2).updColl p c.key
      fun z => { z with dataDone := true }).raiseChunks c n).sync = s.sync := fun n => by simp
  unfold State.dataComplete
  dsimp only
  split
  · exact hraised _
  · split
    · exact (State.treeUp_sync _).trans (hraised _)
    · exact (State.collDone_sync _ _ _).trans (hraised _)

@[simp] theorem State.openStage_sync (g : Group) (ax : Nat) (gather : Bool) (s : State) : (s.openStage p g c ax gather).sync = s.sync := by
  rw [State.openStage_frame]

@[simp] theorem State.runStages_sync (n : Nat) (s : State) : (s.runStages p k n).sync = s.sync := by
  induction n generalizing s with
  | zero => rfl
  | succ n ih =>
    unfold State.runStages
    split
    · rfl
    · split
      · rfl
      · split
        · exact State.dataComplete_sync _ s
        · dsimp only
          split
          · rw [ih, State.updColl_sync, State.openStage_sync]
          · exact State.openStage_sync _ _ _ s

@[simp] theorem State.beginProgram_sync (vals : List Nat) (flag : Bool) (s : State) : (s.beginProgram p k vals flag).sync = s.sync := by
  rw [State.beginProgram, State.runStages_sync, State.updColl_sync]

@[simp] theorem State.countNarrowing_sync (x : Fused) (n : Narrowing) (s : State) : (s.countNarrowing p x n).sync = s.sync := by
  unfold State.countNarrowing
  split
  · exact State.countConv_sync _ _ _ _ _ s
  · rfl

@[simp] theorem State.contribute_sync (x : Fused) (s : State) : (s.contribute p f k x).sync = s.sync := by
  simp [State.contribute]

@[simp] theorem State.rowsToSend_sync (x : Fused) (a : AstreamArgs) (s : State) : (s.rowsToSend p f k x a).sync = s.sync := by
  simp [State.rowsToSend]

@[simp] theorem State.afterPass_sync (a : AstreamArgs) (s : State) : (s.afterPass p f k a).sync = s.sync := by
  unfold State.afterPass
  split
  · rfl
  · split
    · rfl
    · split
      · exact State.rowsToSend_sync _ a s
      · split
        · simp
        · split
          · exact State.collDone_sync _ _ s
          · exact State.contribute_sync _ s

@[simp] theorem State.enterPass_sync (cycle : Nat) (a : AstreamArgs) (fed : List Byte) (s : State) : (s.enterPass f cycle a fed).sync = s.sync := by
  rw [State.enterPass_eq, State.raiseOpt_sync, State.passRun_frame]

@[simp] theorem State.queueFused_sync (w cycle : Nat) (k : Nat × Nat) (a : AstreamArgs) (s : State) :
    (s.queueFused f w cycle k a).sync = s.sync := rfl

@[simp] theorem State.feedRing_sync (n : Nat) (s : State) : (s.feedRing p f k n).sync = s.sync := by
  induction n generalizing s with
  | zero => rfl
  | succ n ih =>
    unfold State.feedRing
    split
    · dsimp only
      split
      · rw [ih, State.updColl_sync]
      · rfl
    · rfl

@[simp] theorem State.feed_sync (s : State) : (s.feed p f).sync = s.sync := by
  unfold State.feed
  split
  · split
    · exact State.feedRing_sync _ s
    · rfl
  · rfl

@[simp] theorem State.beginFused_sync (w cycle : Nat) (a : AstreamArgs) (s : State) : (s.beginFused p f w cycle c a).sync = s.sync := by
  unfold State.beginFused
  dsimp only
  split
  · exact State.contribute_sync _ s
  · split
    · split
      · rw [State.beginProgram_sync, State.queueFused_sync]
      · rfl
    · split
      · rw [State.feed_sync, State.queueFused_sync]
      · split
        · rfl
        · rw [State.enterFused, State.afterPass_sync, State.enterPass_sync]

theorem State.enrol_sync (s : State) : (s.enrol p c).sync = s.sync := by
  unfold State.enrol
  dsimp only
  split
  · rw [State.abortInstance_eq, State.noteVote_sync, State.abortMarked_frame]; rfl
  · rfl

theorem State.frondFault_sync (f unit source slot pin off : Nat) (s : State) : (s.frondFault f unit source slot pin off).sync = s.sync := by
  simp [State.frondFault]

theorem State.fusedGo_sync (op w record cycle : Nat) (r : FrondRec) (a : AstreamArgs) (s : State) :
    (s.fusedGo op f w record cycle p r a).sync = s.sync := by
  unfold State.fusedGo
  dsimp only
  split
  · rfl
  · split
    · exact State.frondFault_sync _ _ _ _ _ _ s
    · unfold State.launchFused
      split
      · rw [State.enrol_sync]; rfl
      · rw [State.beginFused_sync, State.enrol_sync]; rfl

/-- A warden that looks again sets no counter. -/
theorem State.wakeFused_sync (f w : Nat) (s : State) : (s.wakeFused f w).sync = s.sync := by
  unfold State.wakeFused
  split
  · split
    · rw [State.fusedGo_sync]; rfl
    · rfl
  · rfl

theorem State.wakeWarden_sync (f w : Nat) (s : State) : (s.wakeWarden f w).sync = s.sync := by
  obtain ⟨-, -, -, -, hframe⟩ := State.wakeWarden_wakes f w s
  rw [hframe]

end

end Sys2Proof.Machine
end

section
/-! SUPPORT. The stitch boundary: the settings that fall due, the shares, the fronds with pieces held, the ports, and the wardens that look again;
then the statement about it. -/

namespace Sys2Proof.Machine

section
variable {s t : State}

theorem State.wakeAll_sync (s : State) : s.wakeAll.sync = s.sync :=
  forAll_keeps State.sync _ _ s fun f _ t => forAll_keeps State.sync _ _ t fun w _ u =>
    (State.wakeFused_sync f w _).trans (State.wakeWarden_sync f w u)

/-! ### Entry into Safe Listen (R394, R400) -/

theorem State.haltNow_sync (p : Nat) (st : Status) (s : State) : (s.haltNow p st).sync = s.sync := by
  have h := State.haltNow_moved p st s
  unfold BatchesMoved at h
  rw [h]

/-- The entry into Safe Listen leaves the counter. -/
theorem State.enterSafeListen_sync (s : State) : s.enterSafeListen.sync = s.sync := by
  have hhalts : s.listenHalts.sync = s.sync := forAll_keeps State.sync _ _ s fun p _ t => by rw [State.log_sync, State.haltNow_sync]
  have hanswers : s.listenHalts.listenAnswers.sync = s.listenHalts.sync := forAll_keeps State.sync _ _ _ fun c _ t => by
    split
    · exact @ite_holds _ (fun u : State => u.sync = t.sync) _ _ _ _ (State.answer_sync _ _ _ t) rfl
    · rfl
  rw [State.enterSafeListen_frame, ← hhalts, ← hanswers]
  generalize s.listenHalts.listenAnswers = u
  rfl

/-! ### Settings that fall due (R199) -/

/-- With none due at the boundary the regulators keep their settings. -/
theorem State.regulateTo_of_none {k : Nat} (h : ∀ e ∈ s.regulate, k ≤ e.at_) : s.regulateTo k = s := by
  have hnone : s.regulate.filter (fun e => decide (e.at_ < k)) = [] := by
    rw [List.filter_eq_nil_iff]
    intro e he
    simp [h e he]
  have hall : s.regulate.filter (fun e => decide (k ≤ e.at_)) = s.regulate := by
    rw [List.filter_eq_self]
    intro e he
    simp [h e he]
  rw [State.regulateTo, hnone, hall, forAll_nil]

/-- One that is due applies and is answered. -/
theorem State.regulateTo_of_one {k : Nat} {e : RegSet} (h : s.regulate = [e]) (he : e.at_ < k) (halive : (s.getPart e.part).life = .exists_) :
    s.regulateTo k = (({ s with regulate := [] } : State).updPart e.part
      (Partition.updReg e.tier (Regulator.apply e.on e.rate e.depth))).answer e.ch .ok [] := by
  have hdue : s.regulate.filter (fun e => decide (e.at_ < k)) = [e] := by rw [h]; simp [he]
  have hrest : s.regulate.filter (fun e => decide (k ≤ e.at_)) = [] := by rw [h]; simp [he]
  rw [State.regulateTo, hdue, hrest, forAll_cons, forAll_nil, State.regulateOne, if_pos]
  exact Bool.or_eq_true_iff.2 (.inr (beq_iff_eq.2 halive))

theorem State.regulateOne_sync (e : RegSet) (s : State) : (s.regulateOne e).sync = s.sync := by
  unfold State.regulateOne
  dsimp only
  rw [State.answer_sync]
  split <;> rfl

theorem State.regulateTo_sync (k : Nat) (s : State) : (s.regulateTo k).sync = s.sync :=
  forAll_keeps State.sync _ _ _ fun e _ t => State.regulateOne_sync e t

/-! ### The shares (R198) -/

/-- Every share of a partition refilled. -/
def Partition.refilled (q : Partition) : Partition := { q with regHbm := q.regHbm.refill, regPeat := q.regPeat.refill }

theorem State.refillAll_getPart (p : Nat) (s : State) : s.refillAll.getPart p = (s.getPart p).refilled :=
  Tab.get_map ({} : Partition) Partition.refilled s.part p rfl

theorem State.refillAll_frame (s : State) : s.refillAll = { s with part := s.refillAll.part } := rfl

theorem State.refillAll_getPort (p : Nat) (s : State) : s.refillAll.getPort p = s.getPort p := rfl

theorem State.refillAll_links (s : State) : s.refillAll.links = s.links := rfl

theorem Regulator.refill_off {r : Regulator} (h : r.on = false) : r.refill = r := if_neg (by simp [h])

theorem Regulator.refill_on {r : Regulator} (h : r.on = true) :
    r.refill = { r with tokens := r.tokens.map fun n => min (n + r.rate / 4) (r.depth / 4) } := if_pos h

/-! ### Fronds with pieces held (R78) -/

/-- Erasing duplicates keeps what a list holds. -/
theorem mem_eraseDups {x : Nat} : ∀ {l : List Nat}, x ∈ l.eraseDups ↔ x ∈ l
  | [] => by rw [List.eraseDups_nil]
  | y :: l => by
    rw [List.eraseDups_cons, List.mem_cons, List.mem_cons, mem_eraseDups, List.mem_filter]
    by_cases h : x = y <;> simp [h]
termination_by l => l.length
decreasing_by exact Nat.lt_succ_of_le (List.length_filter_le _ _)

theorem nodup_eraseDups : ∀ l : List Nat, l.eraseDups.Nodup
  | [] => by rw [List.eraseDups_nil]; exact List.nodup_nil
  | y :: l => by
    rw [List.eraseDups_cons, List.nodup_cons, mem_eraseDups, List.mem_filter]
    exact ⟨by simp, nodup_eraseDups _⟩
termination_by l => l.length
decreasing_by exact Nat.lt_succ_of_le (List.length_filter_le _ _)

/-- The fronds that wait for a piece, each once. -/
def State.holders (s : State) : List Nat := (allParts.flatMap fun p => (s.getPart p).heldPieces.map (·.frond)).eraseDups

theorem State.countHolds_eq (s : State) : s.countHolds = forAll s.holders (fun f s => s.updFrond f fun x =>
    { x with counts := Tab.upd 0 x.counts 12 (satAdd 64 · 4096) }) s := rfl

theorem State.holders_of_none (h : ∀ p, p < 64 → (s.getPart p).heldPieces = []) : s.holders = [] := by
  have hnil : (allParts.flatMap fun p => (s.getPart p).heldPieces.map (·.frond)) = [] := by
    rw [List.flatMap_eq_nil_iff]
    intro p hp
    rw [h p (List.mem_range.1 hp)]
    rfl
  rw [State.holders, hnil]
  rfl

theorem State.mem_holders {p : Nat} {x : HeldPiece} (hp : p < 64) (hx : x ∈ (s.getPart p).heldPieces) : x.frond ∈ s.holders := by
  rw [State.holders, mem_eraseDups]
  exact List.mem_flatMap.2 ⟨p, List.mem_range.2 hp, List.mem_map_of_mem hx⟩

theorem State.countHolds_of_none (h : ∀ p, p < 64 → (s.getPart p).heldPieces = []) : s.countHolds = s := by
  rw [State.countHolds_eq, State.holders_of_none h, forAll_nil]

theorem State.countHolds_getFrond {f : Nat} (h : f ∈ s.holders) : s.countHolds.getFrond f =
    { s.getFrond f with counts := Tab.upd 0 (s.getFrond f).counts 12 (satAdd 64 · 4096) } := by
  have hnodup : s.holders.Nodup := nodup_eraseDups _
  have hcount := State.forAll_updFrond_getFrond hnodup (fun _ x => { x with counts := Tab.upd 0 x.counts 12 (satAdd 64 · 4096) }) f s
  rw [State.countHolds_eq, hcount, if_pos h]

theorem State.countHolds_frame (s : State) : s.countHolds = { s with frond := s.countHolds.frond } :=
  State.forAll_updFrond_frame s.holders (fun _ x => { x with counts := Tab.upd 0 x.counts 12 (satAdd 64 · 4096) }) s

theorem State.countHolds_getPart (p : Nat) (s : State) : s.countHolds.getPart p = s.getPart p := by
  rw [State.countHolds_frame]
  rfl

theorem State.countHolds_regulate (s : State) : s.countHolds.regulate = s.regulate := by rw [State.countHolds_frame]

/-! ### Wardens that look again (R130) -/

/-- No warden of the package stalls. -/
def State.wardensGo (s : State) : Prop := ∀ e ∈ s.frond, e.2.wait = []

/-- A table reads the default or one of its entries. -/
theorem Tab.get_mem {α : Type} (d : α) (t : Tab α) (k : Nat) : Tab.get d t k = d ∨ (k, Tab.get d t k) ∈ t := by
  induction t with
  | nil => exact .inl rfl
  | cons c t ih =>
    by_cases hc : c.1 = k
    · subst hc; simp [Tab.get]
    · simpa [Tab.get, hc] using ih.imp_right .inr

/-- What a write of a key leaves in a table. -/
theorem Tab.mem_set {α : Type} [DecidableEq α] {d v : α} {t : Tab α} {k : Nat} {x : Nat × α} (h : x ∈ Tab.set d t k v) :
    x = (k, v) ∨ x ∈ t := by
  unfold Tab.set at h
  split at h
  · exact .inr (List.mem_filter.1 h).1
  · exact (Tab.mem_ins h).imp_right fun h => (List.mem_filter.1 h).1

/-- A change of a frond that stalls no warden. -/
theorem State.wardensGo_updFrond {f : Nat} {g : Frond → Frond} (hg : ∀ x, (g x).wait = x.wait) (h : s.wardensGo) :
    (s.updFrond f g).wardensGo := by
  have hget : (s.getFrond f).wait = [] := by
    rcases Tab.get_mem ({} : Frond) s.frond f with hd | hmem
    · rw [State.getFrond, hd]
    · exact h _ hmem
  intro e he
  rcases Tab.mem_set he with hnew | hold
  · rw [hnew]
    exact (hg _).trans hget
  · exact h e hold

theorem State.countHolds_wardensGo (h : s.wardensGo) : s.countHolds.wardensGo :=
  forAll_inv State.wardensGo _ _ s h fun _ _ _ ht => State.wardensGo_updFrond (fun _ => rfl) ht

theorem State.wakeAll_of_go (h : s.wardensGo) : s.wakeAll = s := by
  have hnil : s.frond.filter (fun e => !e.2.wait.isEmpty) = [] := by
    rw [List.filter_eq_nil_iff]
    intro e he
    simp [h e he]
  rw [State.wakeAll, hnil]
  rfl

/-- A warden that stalls on no fused instruction issues none. -/
theorem State.wakeFused_of_other {f w : Nat} (h : ∀ op record cycle a, s.waitOf f w ≠ some (.fused op record cycle a)) : s.wakeFused f w = s := by
  unfold State.wakeFused
  split
  · next hwait => exact absurd hwait (h _ _ _ _)
  · rfl

/-- Where one warden of one frond stalls, on an issue, it alone looks again. -/
theorem State.wakeAll_of_one {f w p es : Nat} {r : FrondRec} (hfrond : s.frond = [(f, s.getFrond f)])
    (hwait : (s.getFrond f).wait = [(w, some (.issue es []))]) (hruns : s.unitRuns f (unitPinnule (wardenPinnule w)) = some (p, r)) :
    s.wakeAll = if (s.getPart p).run.base + es ≤ s.sync.stitch then (s.setWait f w none).recordIssue p es else s := by
  have hone : (s.frond.filter fun (e : Nat × Frond) => !e.2.wait.isEmpty).map (·.1) = [f] := by
    rw [hfrond]
    simp [hwait]
  have hwarden : s.stalledWardens f = [w] := by rw [State.stalledWardens, hwait]; rfl
  have hwaits : s.waitOf f w = some (.issue es []) := by simp [State.waitOf, hwait, Tab.get]
  have hgone : ((s.setWait f w none).recordIssue p es).waitOf f w = none := State.waitOf_setWait f w none s
  have hgo := State.wakeWarden_issue hruns hwaits
  rw [State.wakeAll, hone, forAll_cons, forAll_nil, hwarden, forAll_cons, forAll_nil, hgo]
  by_cases hes : (s.getPart p).run.base + es ≤ s.sync.stitch
  · rw [if_pos hes, if_pos ⟨State.esReached_iff.2 hes, rfl⟩, State.wakeFused_of_other (by rw [hgone]; simp)]
  · rw [if_neg hes, if_neg (fun h => hes (State.esReached_iff.1 h.1)), State.wakeFused_of_other (by rw [hwaits]; simp)]

end

/-! ### The ports (R234, R266) -/

/-- A read of one table behind another. -/
theorem Tab.get_append {α : Type} (d : α) (t u : Tab α) (j : Nat) :
    Tab.get d (t ++ u) j = if j ∈ t.map (·.1) then Tab.get d t j else Tab.get d u j := by
  induction t with
  | nil => rfl
  | cons c t ih =>
    by_cases hc : c.1 = j
    · subst hc; simp [Tab.get]
    · have hkey : (j ∈ (c :: t).map (·.1)) ↔ j ∈ t.map (·.1) := by simp [Ne.symm hc]
      simp only [Tab.get, List.cons_append, if_neg hc, ih, hkey]

theorem Tab.get_of_not_mem {α : Type} {d : α} {t : Tab α} {j : Nat} (h : j ∉ t.map (·.1)) : Tab.get d t j = d := by
  have := Tab.get_append d t [] j
  rwa [List.append_nil, if_neg h] at this

section
variable {x : Port} {slots : Nat → Nat} {now : Nat}

/-- What the partitions overran is carried over (R234). -/
def overrun (slots : Nat → Nat) (used : Tab Nat) : Tab Nat :=
  (used.filter fun (e : Nat × Nat) => decide (e.1 < 64) && decide (slots e.1 < e.2)).map fun (e : Nat × Nat) => (e.1, e.2 - slots e.1)

/-- The lanes that some channel of a port held (R266). -/
def lanesHeld (now : Nat) (x : Port) : Tab Nat := ((List.range 4).filter fun v => x.vlHeld v now).map fun v => (65 + v, 1)

theorem nextUsed_eq : nextUsed slots now x = overrun slots x.used ++ lanesHeld now x := rfl

theorem overrun_keys {used : Tab Nat} {j : Nat} (h : j ∈ (overrun slots used).map (·.1)) : j < 64 ∧ j ∈ used.map (·.1) := by
  simp only [overrun, List.map_map, List.mem_map, List.mem_filter] at h
  obtain ⟨e, ⟨he, hkeep⟩, rfl⟩ := h
  simp at hkeep
  exact ⟨hkeep.1, List.mem_map_of_mem (f := (·.1)) he⟩

theorem get_overrun {used : Tab Nat} (hwf : used.Pairwise fun a b => a.1 < b.1) {j : Nat} (hj : j < 64) :
    Tab.get 0 (overrun slots used) j = Tab.get 0 used j - slots j := by
  induction used with
  | nil => simp [overrun, Tab.get]
  | cons c t ih =>
    obtain ⟨hfirst, ht⟩ := List.pairwise_cons.1 hwf
    have hcons : overrun slots (c :: t) = if c.1 < 64 ∧ slots c.1 < c.2 then (c.1, c.2 - slots c.1) :: overrun slots t else overrun slots t := by
      simp only [overrun, List.filter_cons, Bool.and_eq_true, decide_eq_true_eq]
      split <;> rfl
    by_cases hc : c.1 = j
    · subst hc
      have hnone : c.1 ∉ (overrun slots t).map (·.1) := fun h => by
        obtain ⟨e, he, hkey⟩ := List.mem_map.1 (overrun_keys h).2
        exact absurd (hfirst e he) (by omega)
      rw [hcons]
      by_cases hover : slots c.1 < c.2
      · rw [if_pos ⟨hj, hover⟩]; simp [Tab.get]
      · rw [if_neg (fun h => hover h.2), Tab.get_of_not_mem hnone]; simp [Tab.get]; omega
    · rw [hcons]
      split <;> simp only [Tab.get, if_neg hc, ih ht]

/-- A table of equal marks reads the mark at its keys. -/
theorem get_marks (l : List Nat) (v : Nat) : Tab.get 0 (l.map fun v => (65 + v, 1)) (65 + v) = if v ∈ l then 1 else 0 := by
  induction l with
  | nil => rfl
  | cons w l ih =>
    by_cases hw : w = v
    · subst hw; simp [Tab.get]
    · simp [Tab.get, hw, ih, Ne.symm hw]

theorem get_lanesHeld {v : Nat} (hv : v < 4) : Tab.get 0 (lanesHeld now x) (65 + v) = if x.vlHeld v now = true then 1 else 0 :=
  (get_marks _ v).trans (if_congr (by simp [hv]) rfl rfl)

theorem lanesHeld_keys {j : Nat} (hj : j < 65) : j ∉ (lanesHeld now x).map (·.1) := by
  simp only [lanesHeld, List.map_map, List.mem_map]
  rintro ⟨v, -, hv⟩
  simp at hv
  omega

/-- A port as a boundary samples it. -/
def Port.sampled (slots : Nat → Nat) (now : Nat) (x : Port) : Port :=
  { (List.range 4).foldl (fun y v => y.sampleVl now v) x with used := nextUsed slots now x }

/-- The marks of the lanes stand behind those of the partitions. -/
theorem get_nextUsed_lane {j : Nat} (hj : 64 ≤ j) : Tab.get 0 (nextUsed slots now x) j = Tab.get 0 (lanesHeld now x) j := by
  rw [nextUsed_eq, Tab.get_append, if_neg]
  intro h
  have := (overrun_keys h).1
  omega

/-- The allowances of the next stitch: what a partition used beyond its places. -/
theorem get_nextUsed_part (hwf : Tab.wf 0 x.used) {j : Nat} (hj : j < 64) : Tab.get 0 (nextUsed slots now x) j = Tab.get 0 x.used j - slots j := by
  rw [nextUsed_eq, Tab.get_append, Tab.get_of_not_mem (lanesHeld_keys (by omega : j < 65)), ← get_overrun hwf.1 hj]
  split
  · rfl
  · next h => rw [Tab.get_of_not_mem h]

/-- The lanes of a port before the n-th are sampled. -/
def Port.sampledTo (now n : Nat) (x : Port) : Port := (List.range n).foldl (fun y v => y.sampleVl now v) x

theorem Port.sampledTo_succ (now n : Nat) (x : Port) : x.sampledTo now (n + 1) = (x.sampledTo now n).sampleVl now n := by
  rw [Port.sampledTo, List.range_succ, List.foldl_append]
  rfl

theorem Port.sampledTo_frame (now n : Nat) (x : Port) :
    x.sampledTo now n = { x with count := { x.count with vl := (x.sampledTo now n).count.vl } } := by
  induction n with
  | zero => rfl
  | succ n ih =>
    rw [Port.sampledTo_succ]
    generalize x.sampledTo now n = y at *
    rw [ih]
    rfl

/-- Each lane is sampled once: a stitch with a hold, and the places taken (R266). -/
theorem Port.sampledTo_counts (now n v : Nat) (x : Port) :
    Tab.get 0 (x.sampledTo now n).count.vl (3 * v) = Tab.get 0 x.count.vl (3 * v) ∧
    Tab.get 0 (x.sampledTo now n).count.vl (3 * v + 1) = (if v < n then satAdd 64 (Tab.get 0 x.count.vl (3 * v + 1))
      (if Tab.get 0 x.used (65 + v) = 1 ∨ x.vlHeld v now = true then 1 else 0) else Tab.get 0 x.count.vl (3 * v + 1)) ∧
    Tab.get 0 (x.sampledTo now n).count.vl (3 * v + 2) = (if v < n then satAdd 64 (Tab.get 0 x.count.vl (3 * v + 2)) (x.vlTaken v)
      else Tab.get 0 x.count.vl (3 * v + 2)) := by
  induction n with
  | zero => exact ⟨rfl, rfl, rfl⟩
  | succ n ih =>
    have hframe := Port.sampledTo_frame now n x
    rw [Port.sampledTo_succ]
    generalize x.sampledTo now n = y at *
    have hused : y.used = x.used := by rw [hframe]
    have hheld : y.vlHeld n now = x.vlHeld n now := by rw [hframe]; rfl
    have htaken : y.vlTaken n = x.vlTaken n := by rw [hframe]; rfl
    have hvl : (y.sampleVl now n).count.vl = Tab.upd 0 (Tab.upd 0 y.count.vl (3 * n + 1) (satAdd 64 ·
        (if Tab.get 0 x.used (65 + n) = 1 ∨ x.vlHeld n now = true then 1 else 0))) (3 * n + 2) (satAdd 64 · (x.vlTaken n)) := by
      rw [← hused, ← hheld, ← htaken]; rfl
    obtain ⟨hsent, hoff, hocc⟩ := ih
    rw [hvl]
    refine ⟨?sent, ?off, ?occ⟩
    case sent => rw [Tab.get_upd_ne _ _ _ (by omega), Tab.get_upd_ne _ _ _ (by omega), hsent]
    case off =>
      rw [Tab.get_upd_ne _ _ _ (by omega)]
      by_cases hv : v = n
      · subst hv
        rw [Tab.get_upd_same, hoff, if_neg (Nat.lt_irrefl v), if_pos (Nat.lt_succ_self v)]
      · rw [Tab.get_upd_ne _ _ _ (by omega), hoff]
        exact if_congr (by omega) rfl rfl
    case occ =>
      by_cases hv : v = n
      · subst hv
        rw [Tab.get_upd_same, Tab.get_upd_ne _ _ _ (by omega), hocc, if_neg (Nat.lt_irrefl v), if_pos (Nat.lt_succ_self v)]
      · rw [Tab.get_upd_ne _ _ _ (by omega), Tab.get_upd_ne _ _ _ (by omega), hocc]
        exact if_congr (by omega) rfl rfl

theorem Port.sampled_eq : x.sampled slots now = { x.sampledTo now 4 with used := nextUsed slots now x } := rfl

end

section
variable {s : State}

/-- The most places taken in a channel of a port, and what it was before. -/
def State.peakOf (s : State) (p : Nat) : Nat :=
  ((List.range 6).map fun k => ((s.getPort p).chan k).taken).foldl max (Tab.get 0 s.links.mapPeak p)

theorem State.portBoundary_getPort (p q : Nat) (s : State) : (s.portBoundary p).getPort q =
    if q = p then (s.getPort p).sampled (fun k => s.slotsOn k p) s.aon.ticks else s.getPort q :=
  State.getPort_updPort p q (Port.sampled (fun k => s.slotsOn k p) s.aon.ticks) s

theorem State.portBoundary_mapPeak (p q : Nat) (s : State) : Tab.get 0 (s.portBoundary p).links.mapPeak q =
    if q = p then s.peakOf p else Tab.get 0 s.links.mapPeak q := Tab.get_set _ _ _ _ _

theorem State.portBoundary_frame (p : Nat) (s : State) : s.portBoundary p = { s with
    links := { s.links with port := (s.portBoundary p).links.port, mapPeak := (s.portBoundary p).links.mapPeak } } := rfl

/-- The ports before the n-th at a boundary. -/
def State.portsTo (n : Nat) (s : State) : State := forAll (List.range n) State.portBoundary s

theorem State.portsTo_succ (n : Nat) (s : State) : s.portsTo (n + 1) = (s.portsTo n).portBoundary n := by
  simp [State.portsTo, forAll, List.range_succ]

theorem State.portsTo_frame (n : Nat) (s : State) : s.portsTo n = { s with
    links := { s.links with port := (s.portsTo n).links.port, mapPeak := (s.portsTo n).links.mapPeak } } :=
  forAll_inv (fun t => t = { s with links := { s.links with port := t.links.port, mapPeak := t.links.mapPeak } }) _ _ s rfl fun p _ t ht => by
    rw [State.portBoundary_frame]
    generalize (t.portBoundary p).links = l
    rw [ht]

/-- Each port is sampled once. -/
theorem State.portsTo_spec (n p : Nat) (s : State) :
    (s.portsTo n).getPort p = (if p < n then (s.getPort p).sampled (fun k => s.slotsOn k p) s.aon.ticks else s.getPort p) ∧
    Tab.get 0 (s.portsTo n).links.mapPeak p = if p < n then s.peakOf p else Tab.get 0 s.links.mapPeak p := by
  induction n generalizing p with
  | zero => exact ⟨rfl, rfl⟩
  | succ n ih =>
    have hframe := State.portsTo_frame n s
    rw [State.portsTo_succ, State.portBoundary_getPort, State.portBoundary_mapPeak, (ih p).1, (ih p).2]
    obtain ⟨hport, hpeak⟩ := ih n
    rw [if_neg (Nat.lt_irrefl n)] at hport hpeak
    have hslots : ∀ k, (s.portsTo n).slotsOn k n = s.slotsOn k n := fun k => by rw [hframe]; rfl
    have hnow : (s.portsTo n).aon = s.aon := by rw [hframe]
    have hpeakOf : (s.portsTo n).peakOf n = s.peakOf n := by rw [State.peakOf, hport, hpeak]; rfl
    by_cases hp : p = n
    · subst hp
      rw [if_pos rfl, if_pos rfl, if_pos (Nat.lt_succ_self p), if_pos (Nat.lt_succ_self p), hport, hpeakOf, hnow]
      exact ⟨by simp only [hslots], rfl⟩
    · rw [if_neg hp, if_neg hp]
      exact ⟨if_congr (by omega) rfl rfl, if_congr (by omega) rfl rfl⟩

/-! ### The boundary -/

/-- The counter at a boundary, and the count of stitches at the rate that runs. -/
def State.counted (s : State) : State :=
  ({ s with links := { s.links with mapLevels := Tab.upd 0 s.links.mapLevels s.rate.run (· + 1) } } : State).setStitch ((s.sync.stitch + 1) % 2 ^ 64)

theorem State.counted_peakOf (p : Nat) (s : State) : s.counted.peakOf p = s.peakOf p := rfl

theorem State.counted_frame (s : State) : s.counted = { s with
    sync := s.counted.sync, dies := { s.dies with die := s.counted.dies.die }
    links := { s.links with mapLevels := s.counted.links.mapLevels } } := rfl

/-- A boundary after the settings of the regulators and before the wardens look again. -/
def State.advanced (s : State) : State := (s.counted.portsTo 13).refillAll

theorem State.boundary_eq (s : State) : s.boundary = ((s.regulateTo (s.sync.stitch + 1)).countHolds.advanced).wakeAll := rfl

theorem State.advanced_getPart (p : Nat) (s : State) : s.advanced.getPart p = (s.getPart p).refilled := by
  rw [State.advanced, State.refillAll_getPart, State.portsTo_frame]
  rfl

theorem State.advanced_sync (s : State) : s.advanced.sync = { s.sync with stitch := (s.sync.stitch + 1) % 2 ^ 64 } := by
  rw [State.advanced, State.refillAll_frame, State.portsTo_frame]
  rfl

theorem State.advanced_dies (s : State) :
    s.advanced.dies.die = s.dies.die.map (fun (d : Die) => { d with stitchCopy := (s.sync.stitch + 1) % 2 ^ 64 }) := by
  rw [State.advanced, State.refillAll_frame, State.portsTo_frame]
  rfl

theorem State.advanced_mapLevels (s : State) : s.advanced.links.mapLevels = Tab.upd 0 s.links.mapLevels s.rate.run (· + 1) := by
  rw [State.advanced, State.refillAll_frame, State.portsTo_frame]
  rfl

theorem State.advanced_getPort (p : Nat) (s : State) : s.advanced.getPort p =
    if p < 13 then (s.getPort p).sampled (fun k => s.slotsOn k p) s.aon.ticks else s.getPort p := by
  obtain ⟨hport, -⟩ := State.portsTo_spec 13 p s.counted
  rw [State.advanced, State.refillAll_getPort, hport]
  rfl

theorem State.advanced_mapPeak {p : Nat} (hp : p < 13) (s : State) : Tab.get 0 s.advanced.links.mapPeak p = s.peakOf p := by
  obtain ⟨-, hpeak⟩ := State.portsTo_spec 13 p s.counted
  rw [if_pos hp, State.counted_peakOf] at hpeak
  rw [State.advanced, State.refillAll_links, hpeak]

theorem State.advanced_part (s : State) : s.advanced = { s.counted.portsTo 13 with part := s.advanced.part } :=
  State.refillAll_frame (s.counted.portsTo 13)

/-- What the counter, the ports and the shares change in turn. -/
theorem frame_of_counted {s u t a : State} (hcounted : u = { s with
      sync := u.sync, dies := { s.dies with die := u.dies.die }, links := { s.links with mapLevels := u.links.mapLevels } })
    (hports : t = { u with links := { u.links with port := t.links.port, mapPeak := t.links.mapPeak } }) (hrefill : a = { t with part := a.part }) :
    a = { s with
      sync := a.sync, dies := { s.dies with die := a.dies.die }, part := a.part
      links := { s.links with port := a.links.port, mapPeak := a.links.mapPeak, mapLevels := a.links.mapLevels } } := by
  rw [hrefill, hports, hcounted]

theorem State.advanced_frame (s : State) : s.advanced = { s with
    sync := s.advanced.sync, dies := { s.dies with die := s.advanced.dies.die }, part := s.advanced.part
    links := { s.links with port := s.advanced.links.port, mapPeak := s.advanced.links.mapPeak, mapLevels := s.advanced.links.mapLevels } } :=
  frame_of_counted (State.counted_frame s) (State.portsTo_frame 13 s.counted) (State.advanced_part s)

theorem State.advanced_frond (s : State) : s.advanced.frond = s.frond := by rw [State.advanced_frame]

theorem State.advanced_getFrond (f : Nat) (s : State) : s.advanced.getFrond f = s.getFrond f := by
  rw [State.getFrond, State.advanced_frond, State.getFrond]

theorem State.advanced_regulate (s : State) : s.advanced.regulate = s.regulate := by rw [State.advanced_frame]

theorem State.advanced_wardensGo (h : s.wardensGo) : s.advanced.wardensGo := by
  unfold State.wardensGo
  rwa [State.advanced_frond]

/-- A port as the boundary leaves it (R234, R266). -/
theorem Port.sampled_spec {x y : Port} {slots : Nat → Nat} {now : Nat} (hy : y = x.sampled slots now) :
    y = { x with used := y.used, count := { x.count with vl := y.count.vl } } ∧
    (∀ v, v < 4 → Tab.get 0 y.count.vl (3 * v) = Tab.get 0 x.count.vl (3 * v) ∧
      Tab.get 0 y.count.vl (3 * v + 1) = satAdd 64 (Tab.get 0 x.count.vl (3 * v + 1))
        (if Tab.get 0 x.used (65 + v) = 1 ∨ x.vlHeld v now = true then 1 else 0) ∧
      Tab.get 0 y.count.vl (3 * v + 2) = satAdd 64 (Tab.get 0 x.count.vl (3 * v + 2)) (x.vlTaken v)) ∧
    (Tab.wf 0 x.used → (∀ q, q < 64 → Tab.get 0 y.used q = Tab.get 0 x.used q - slots q) ∧ Tab.get 0 y.used 64 = 0 ∧
      (∀ v, v < 4 → Tab.get 0 y.used (65 + v) = if x.vlHeld v now then 1 else 0)) := by
  have hused : y.used = nextUsed slots now x := by rw [hy]; rfl
  have hvl : y.count.vl = (x.sampledTo now 4).count.vl := by rw [hy]; rfl
  refine ⟨?_, fun v hv => ?_, fun hwf => ⟨fun q hq => ?_, ?_, fun v hv => ?_⟩⟩
  · rw [hy, Port.sampled_eq, Port.sampledTo_frame]
  · obtain ⟨hsent, hoff, hocc⟩ := Port.sampledTo_counts now 4 v x
    rw [if_pos hv] at hoff hocc
    rw [hvl]
    exact ⟨hsent, hoff, hocc⟩
  · rw [hused, get_nextUsed_part hwf hq]
  · rw [hused, get_nextUsed_lane (Nat.le_refl 64), Tab.get_of_not_mem (lanesHeld_keys (by decide))]
  · rw [hused, get_nextUsed_lane (by omega), get_lanesHeld hv]

/-- A unit runs before a boundary's wardens look again as it ran before the boundary. -/
theorem State.advanced_unitRuns (f unit : Nat) (s : State) : s.advanced.unitRuns f unit = s.unitRuns f unit := by
  have hpart := fun q => State.advanced_getPart q s
  have hframe := State.advanced_frame s
  generalize s.advanced = t at *
  have howner : t.owner f = s.owner f := State.owner_of (fun q => by rw [hpart]; exact ⟨rfl, rfl⟩) f
  have hfronds : ∀ p, t.fronds p = s.fronds p := fun p => State.fronds_congr (by rw [hpart]; rfl) (by rw [hframe])
  have hfrond : t.getFrond f = s.getFrond f := by rw [hframe]; rfl
  have hdom : ∀ d, t.getDom d = s.getDom d := fun d => by rw [hframe]; rfl
  simp only [State.unitRuns, State.logical, howner, hfronds, hfrond, hdom, hpart]
  rfl

theorem State.advanced_stitch (h : s.sync.stitch + 1 < 2 ^ 64) : s.advanced.sync.stitch = s.sync.stitch + 1 := by
  rw [State.advanced_sync]
  exact Nat.mod_eq_of_lt h

/-- Where the counter of u has come one further than that of s, a warden that stalls on the stitch that it has come to issues, with no lateness. -/
theorem State.wakeAll_issues {u : State} {p f w es : Nat} {r : FrondRec} (hfrond : s.frond = [(f, s.getFrond f)])
    (hwait : (s.getFrond f).wait = [(w, some (.issue es []))]) (hruns : u.unitRuns f (unitPinnule (wardenPinnule w)) = some (p, r))
    (hrun : (u.getPart p).run = (s.getPart p).run) (hsame : u.frond = s.frond) (hstitch : u.sync.stitch = s.sync.stitch + 1) :
    (s.sync.stitch + 1 < (s.getPart p).run.base + es → u.wakeAll.getFrond f = s.getFrond f) ∧
    (s.sync.stitch + 1 = (s.getPart p).run.base + es → u.wakeAll.getFrond f = { s.getFrond f with wait := [] } ∧
      (u.wakeAll.getPart p).run = { (s.getPart p).run with slip := min (s.getPart p).run.slip (2 ^ 32 - 1) }) := by
  have hget : u.getFrond f = s.getFrond f := by rw [State.getFrond, hsame, State.getFrond]
  have hone := State.wakeAll_of_one (by rw [hsame, hget]; exact hfrond) (by rw [hget]; exact hwait) hruns
  rw [hrun, hstitch] at hone
  rw [hone]
  refine ⟨fun hearly => by rw [if_neg (by omega), hget], fun hnow => ?_⟩
  have hrun' : ((u.setWait f w none).getPart p).run = (s.getPart p).run := hrun
  have hstitch' : (u.setWait f w none).sync.stitch = s.sync.stitch + 1 := hstitch
  have hintime : s.sync.stitch + 1 - ((s.getPart p).run.base + es) = 0 := by omega
  rw [if_pos (by omega)]
  refine ⟨?_, ?_⟩
  · show (u.setWait f w none).getFrond f = _
    rw [State.setWait_getFrond, hget, hwait]
    simp [Tab.set, Tab.del]
  · rw [State.recordIssue_getPart]
    dsimp only
    rw [hrun', hstitch', hintime, if_pos rfl, Nat.max_zero]

/-! ### The statement -/

section
variable (hup : s.aon.phase = .up)

theorem exec_stitchBoundary_down (h : s.aon.phase ≠ .up) : exec .stitchBoundary s = .next s := congrArg Host.Outcome.next (if_pos h)

include hup

theorem exec_stitchBoundary (h : s.aon.listenDue = none) : exec .stitchBoundary s = .next s.boundary := by
  show Host.Outcome.next s.stitchBoundary = _
  rw [State.stitchBoundary, if_neg (not_not.2 hup), if_neg (by simp [h])]

theorem exec_stitchBoundary_listen (h : s.aon.listenDue ≠ none) : exec .stitchBoundary s = .next s.boundary.enterSafeListen := by
  show Host.Outcome.next s.stitchBoundary = _
  rw [State.stitchBoundary, if_neg (not_not.2 hup), if_pos (Option.isSome_iff_ne_none.2 h)]

end

/-- A share that a setting switches on starts full, and the refill leaves it so (R198, R199). -/
theorem Regulator.refill_apply {r : Regulator} {rate depth : Nat} {on : Bool} (hon : on = true) (hoff : r.on = false) :
    (r.apply on rate depth).refill = { on := true, rate := rate, depth := depth, tokens := List.replicate 4 (depth / 4) } := by
  subst hon
  rw [Regulator.refill_on rfl, Regulator.apply, if_neg (by simp [hoff])]
  simp

/-- Where no setting is due and no warden stalls. -/
theorem State.boundary_of_go (hreg : ∀ e ∈ s.regulate, s.sync.stitch < e.at_) (hgo : s.wardensGo) : s.boundary = s.countHolds.advanced := by
  rw [State.boundary_eq, State.regulateTo_of_none hreg, State.wakeAll_of_go (State.advanced_wardensGo (State.countHolds_wardensGo hgo))]

/-- The counter goes up by one whatever else the boundary does (R128). -/
theorem State.boundary_sync (s : State) : s.boundary.sync = { s.sync with stitch := (s.sync.stitch + 1) % 2 ^ 64 } := by
  have hreg := State.regulateTo_sync (s.sync.stitch + 1) s
  have hcount : (s.regulateTo (s.sync.stitch + 1)).countHolds.sync = (s.regulateTo (s.sync.stitch + 1)).sync := by rw [State.countHolds_frame]
  rw [State.boundary_eq, State.wakeAll_sync, State.advanced_sync, hcount, hreg]

end

/-- Settles O43: the boundary is `State.advanced` between the settings that fall due and the wardens that look again; each port is sampled once, each
share refilled, each frond with a piece held counted once, and what the wardens and Safe Listen do leaves the counter. -/
theorem stitchBoundaryAdvances : Obligations.StitchBoundaryAdvances := by
  unfold Obligations.StitchBoundaryAdvances
  refine ⟨fun s => exec_stitchBoundary_down, fun s k hup hdue hreg hgo hheld hk => ?plain,
    fun s e hup hdue hreg hat_ hlife htier hon hoff hgo => ?setting, fun s p x hup hdue hreg hgo hp hx => ?held,
    fun s p f w es r hup hdue hreg hheld hfrond hwait hruns hlt => ?stalls, fun s hup hdue => ?listens⟩
  case plain =>
    subst hk
    have hexec := exec_stitchBoundary hup hdue
    rw [State.boundary_of_go hreg hgo, State.countHolds_of_none hheld] at hexec
    have hpart := fun p => State.advanced_getPart p s
    have hport := fun p => State.advanced_getPort p s
    have hpeak := fun p (hp : p < 13) => State.advanced_mapPeak hp s
    have hlevels := State.advanced_mapLevels s
    have hsync := State.advanced_sync s
    have hdies := State.advanced_dies s
    have hframe := State.advanced_frame s
    generalize s.advanced = t at *
    refine ⟨t, hexec, hsync, hdies, fun p => ?_, fun p r r' hr => ?_, fun p x y hp hx hy => ?_, fun p hp => ?_, ?_, fun l hl => ?_, ?_⟩
    · rw [hpart]; rfl
    · have hrefill : r' = r.refill := by
        rw [hpart] at hr
        rcases hr with ⟨hr, hr'⟩ | ⟨hr, hr'⟩ <;> rw [hr', hr] <;> rfl
      exact ⟨fun h => hrefill.trans (Regulator.refill_off h), fun h => hrefill.trans (Regulator.refill_on h)⟩
    · subst hx
      rw [hport, if_pos hp] at hy
      obtain ⟨hsame, hcounts, hused⟩ := Port.sampled_spec hy
      exact ⟨hsame, hcounts, hused, hpeak p hp⟩
    · rw [hport, if_neg (Nat.not_lt.2 hp)]
    · rw [hlevels, Tab.get_upd_same]
    · rw [hlevels, Tab.get_upd_ne _ _ _ hl]
    · rw [hframe]
  case setting =>
    have hexec := exec_stitchBoundary hup hdue
    have hcounter := State.boundary_sync s
    have happly := State.regulateTo_of_one hreg (Nat.lt_succ_of_le hat_) hlife
    have hanswer := State.answer_frame e.ch .ok [] (({ s with regulate := [] } : State).updPart e.part
      (Partition.updReg e.tier (Regulator.apply e.on e.rate e.depth)))
    rw [← happly] at hanswer
    have hdef := State.boundary_eq s
    generalize s.regulateTo (s.sync.stitch + 1) = u at *
    have hugo : u.wardensGo := by rw [hanswer]; exact hgo
    have hupart : u.getPart e.part = (s.getPart e.part).updReg e.tier (Regulator.apply e.on e.rate e.depth) := by
      rw [hanswer]
      exact State.getPart_updPart_same e.part _ { s with regulate := [] }
    have hureg : u.regulate = [] := by rw [hanswer]; rfl
    rw [State.wakeAll_of_go (State.advanced_wardensGo (State.countHolds_wardensGo hugo))] at hdef
    refine ⟨_, hexec, ?_, ?_, by rw [hcounter]⟩
    · rw [hdef, State.advanced_regulate, State.countHolds_regulate, hureg]
    · rw [hdef, State.advanced_getPart, State.countHolds_getPart, hupart, htier]
      exact Regulator.refill_apply hon hoff
  case held =>
    have hexec := exec_stitchBoundary hup hdue
    rw [State.boundary_of_go (by rw [hreg]; exact fun _ h => absurd h List.not_mem_nil) hgo] at hexec
    have hcount := State.countHolds_getFrond (State.mem_holders hp hx)
    refine ⟨_, hexec, ?_, ?_⟩
    · rw [State.advanced_getFrond, hcount, Tab.get_upd_same]
    · rw [State.advanced_getPart, State.countHolds_getPart]
      rfl
  case stalls =>
    have hexec := exec_stitchBoundary hup hdue
    have hnone : ∀ e ∈ s.regulate, s.sync.stitch + 1 ≤ e.at_ := by rw [hreg]; exact fun _ h => absurd h List.not_mem_nil
    rw [State.boundary_eq, State.regulateTo_of_none hnone, State.countHolds_of_none hheld] at hexec
    have hcounter := State.advanced_stitch hlt
    obtain ⟨hearly, hnow⟩ := State.wakeAll_issues hfrond hwait ((State.advanced_unitRuns f (unitPinnule (wardenPinnule w)) s).trans hruns)
      (by rw [State.advanced_getPart]; rfl) (State.advanced_frond s) hcounter
    exact ⟨_, hexec, hearly, hnow, by rw [State.wakeAll_sync, hcounter]⟩
  case listens =>
    exact ⟨_, exec_stitchBoundary_listen hup hdue, State.enterSafeListen_inSafeListen _, by rw [State.enterSafeListen_sync, State.boundary_sync]⟩

end Sys2Proof.Machine
end

section
/-! SUPPORT. Records read back from their bytes: the control block of training and an announcement; then the statement about them. -/

namespace Sys2Proof.Machine

/-! ### Fields in two's complement -/

/-- A signed byte is read back from its two's complement. -/
theorem signed_twos {i : Int} (hlo : -128 ≤ i) (hhi : i ≤ 127) : signed 1 (twos 1 i) = i := by
  have hcast : ((twos 1 i : Nat) : Int) = i % 256 := by
    simp only [twos]
    omega
  simp only [signed]
  norm_num
  split <;> omega

/-- A signed byte is that of the value's low byte. -/
theorem signed_mod (v : Nat) : signed 1 (v % 256) = signed 1 v := by simp [signed]

/-- The word of the low 32 bits of a word's number. -/
theorem ofNat_toNat_mod (w : Word) : BitVec.ofNat 32 (w.toNat % 4294967296) = w := by
  rw [Nat.mod_eq_of_lt w.isLt, BitVec.ofNat_toNat, BitVec.setWidth_eq]

/-! ### The training control block (R159) -/

/-- A control block with each field cut to its width in the 256 bytes. -/
def Tcb.cut (t : Tcb) : Tcb :=
  { t with
    scaleInit := signed 1 (twos 1 t.scaleInit), scaleMin := signed 1 (twos 1 t.scaleMin), scaleMax := signed 1 (twos 1 t.scaleMax)
    skipHalt := t.skipHalt % 2 ^ 8, earlyShareExp := t.earlyShareExp % 2 ^ 8, growth := t.growth % 2 ^ 32, earlyRun := t.earlyRun % 2 ^ 32
    warmup := t.warmup % 2 ^ 32, decayEnd := t.decayEnd % 2 ^ 32, seed := t.seed % 2 ^ 64, stepBase := t.stepBase % 2 ^ 64
    ringOffset := t.ringOffset % 2 ^ 64, slotBytes := t.slotBytes % 2 ^ 64, scaleExp := signed 1 (twos 1 t.scaleExp)
    skipRun := t.skipRun % 2 ^ 8, cleanRun := t.cleanRun % 2 ^ 32, updates := t.updates % 2 ^ 64, committedStep := t.committedStep % 2 ^ 64
    commits := t.commits % 2 ^ 64, skipsNonfinite := t.skipsNonfinite % 2 ^ 64, skipsVoid := t.skipsVoid % 2 ^ 64
    lastOutcome := t.lastOutcome % 2 ^ 8 }

/-- The configuration fields of a block of CFG_VER 1, read back beside the default state fields. -/
theorem Tcb.config_bytes {t : Tcb} (hver : t.cfgVer = 1) : Tcb.config t.bytes =
    { t.cut with scaleExp := 0, skipRun := 0, cleanRun := 0, updates := 0, committedStep := 0, b1Pow := 0, b2Pow := 0, commits := 0
                 skipsNonfinite := 0, skipsVoid := 0, lastOutcome := 0 } := by
  have hfld : fld t.bytes 0 2 = 1 := by rw [Tcb.bytes, fld_record_head _ _ _ _ (by decide), hver]; rfl
  rw [Tcb.config, hfld, if_neg (by decide)]
  simp [Tcb.bytes, Tcb.cut, fldW, fld_record_skip, fld_record_head, signed_mod, ofNat_toNat_mod, hver]

/-- A block of CFG_VER 1 is read back field for field, each as far as its width holds it. -/
theorem Tcb.parse_bytes {t : Tcb} (hver : t.cfgVer = 1) : Tcb.parse t.bytes = t.cut := by
  rw [Tcb.parse, Tcb.config_bytes hver]
  simp [Tcb.bytes, Tcb.cut, fldW, fld_record_skip, fld_record_head, signed_mod, ofNat_toNat_mod]

/-! ### Announcements (R281) -/

theorem Ann.bytes_length {a : Ann} (hbody : a.body.length = 112) : a.bytes.length = 128 := by
  rw [Ann.bytes, List.length_append, record_length, hbody]

/-- An announcement that arrives before its EFFECTIVE stitch is the one that was sent, held until then. -/
theorem annParse_bytes {a : Ann} {k : Nat} (heff : a.effective < 2 ^ 64) (hseq : a.seq < 2 ^ 32) (hx : a.origin.x < 256) (hy : a.origin.y < 256)
    (hz : a.origin.z < 256) (htype : a.atype < 256) (hbody : a.body.length = 112) (hk : k < a.effective) (hdue : a.due = a.effective) :
    annParse a.bytes k = a := by
  have hfld : ∀ off n, off + n ≤ 16 → fld a.bytes off n = fld (record 16 [⟨0, 8, a.effective⟩, ⟨8, 4, a.seq⟩, ⟨0xC, 1, a.origin.x⟩,
      ⟨0xD, 1, a.origin.y⟩, ⟨0xE, 1, a.origin.z⟩, ⟨0xF, 1, a.atype⟩]) off n := fun off n h => fld_append_left _ (by rwa [record_length])
  have hrest : (a.bytes.drop 16).take 112 = a.body := by
    rw [Ann.bytes, List.drop_left' (record_length _ _), ← hbody, List.take_length]
  have heffective : fld a.bytes 0 8 = a.effective :=
    (hfld 0 8 (by decide)).trans ((fld_record_head _ _ _ _ (by decide)).trans (Nat.mod_eq_of_lt heff))
  have hheld : (if a.effective ≤ k then k + 1 else a.effective) = a.due := (if_neg (Nat.not_le.2 hk)).trans hdue.symm
  have hnumber : a.seq % 4294967296 = a.seq := Nat.mod_eq_of_lt hseq
  rw [annParse, hrest, heffective, hheld]
  simp [hfld, fld_record_skip, fld_record_head, Nat.mod_eq_of_lt, hnumber, hx, hy, hz, htype]

/-- Settles O32: what either record's bytes hold is read off field by field, and the hypotheses say that each field fits its width. -/
theorem recordsRoundTrip : Obligations.RecordsRoundTrip := by
  unfold Obligations.RecordsRoundTrip
  refine ⟨?block, fun a k heff hseq hx hy hz htype hbody hk hdue =>
    ⟨Ann.bytes_length hbody, annParse_bytes heff hseq hx hy hz htype hbody hk hdue⟩⟩
  intro t hver
  have hparse := Tcb.parse_bytes hver
  clear hver
  intros
  refine ⟨t.bytes_length, hparse.trans ?_⟩
  simp only [Tcb.cut, signed_twos, Nat.mod_eq_of_lt, *]

end Sys2Proof.Machine
end

section
/-! SUPPORT. The decision of a step: what becomes of the partition, the halts that fall due, and what each outcome of R167 sets off. -/

namespace Sys2Proof.Machine

section
variable {s t u : State} {p : Nat} {q : Partition} {v : Vote}

/-! ### Halts that may fall due (R127) -/

/-- A partition for which a halt has fallen due, where a status is given. -/
def Partition.stopped (x : Option Status) (at_ : Nat) (q : Partition) : Partition :=
  match x with
  | some st => q.haltedDue st at_
  | none => q

/-- A halt falls due, where a status is given. -/
def State.haltOpt (p : Nat) (x : Option Status) (s : State) : State :=
  match x with
  | some st => s.haltDue p st
  | none => s

theorem State.haltOpt_getPart (p : Nat) (x : Option Status) (s : State) (k : Nat) :
    (s.haltOpt p x).getPart k = if k = p then (s.getPart p).stopped x s.sync.stitch else s.getPart k := by
  cases x with
  | some st => exact State.haltDue_getPart p st s k
  | none =>
    by_cases hk : k = p
    · rw [if_pos hk, hk]; rfl
    · rw [if_neg hk]; rfl

theorem State.haltOpt_frame (p : Nat) (x : Option Status) (s : State) : s.haltOpt p x = { s with part := (s.haltOpt p x).part } := by
  cases x with
  | some st => exact State.haltDue_frame p st s
  | none => rfl

/-- A pattern that runs halts with the first status given to it. -/
theorem Partition.stopped_of_running (h : q.pat = .running) (x : Option Status) (at_ : Nat) : q.stopped x at_ =
    { q with run := { q.run with
      halt := q.run.halt.or x, haltAt := if q.run.halt = none ∧ x ≠ none then at_ else q.run.haltAt } } := by
  have hlive : q.live = true := by simp [Partition.live, h]
  cases x with
  | none => simp [Partition.stopped]
  | some st =>
    cases hhalt : q.run.halt with
    | none => simp [Partition.stopped, Partition.haltedDue, hlive, hhalt]
    | some old =>
      simp [Partition.stopped, Partition.haltedDue, hhalt]
      rw [← hhalt]

/-- Of two statuses the first one given counts. -/
theorem Partition.stopped_stopped (h : q.pat = .running) (x y : Option Status) (at_ : Nat) :
    (q.stopped x at_).stopped y at_ = q.stopped (x.or y) at_ := by
  have hrun : (q.stopped x at_).pat = .running := by rw [Partition.stopped_of_running h]; exact h
  rw [Partition.stopped_of_running hrun, Partition.stopped_of_running h, Partition.stopped_of_running h]
  cases hhalt : q.run.halt <;> cases x <;> simp

/-! ### The outcomes (R167, R168, R172, R430) -/

/-- The status with which an outcome halts the pattern, the control block standing as the outcome left it. -/
def Outcome.stop (o : Outcome) (t : Tcb) : Option Status :=
  match o with
  | .fail st => some st
  | .skip => if t.skipHalt ≠ 0 ∧ t.skipHalt ≤ t.skipRun then some .stepSkipped else none
  | _ => none

/-- The cause that an outcome sets. -/
def Outcome.cause (o : Outcome) : Option Cause :=
  match o with
  | .fail _ => some .stepFail
  | .voidSkip => some .void
  | .skip => some .skip
  | .commit => none

/-- From s to t the causes, the log entry, the halt and the ring header of an outcome have been set off. -/
structure OutcomeActed (s t : State) (p : Nat) (known : Bool) (o : Outcome) : Prop where
  part : ∀ k, t.getPart k = if k = p then (s.getPart p).stopped (o.stop (s.getPart p).tcb) s.sync.stitch else s.getPart k
  far : t.far = if o.cause = none ∧ (s.getPart p).tcb.slotBytes ≠ 0 then
      s.far.writeN (s.spaceAt p 2 ((s.getPart p).tcb.ringOffset + (s.getPart p).tcb.updates % 3 * (s.getPart p).tcb.slotBytes))
        (slice (s.getPart p).tcb.bytes 0 4096) else s.far
  caused : ∀ c, o.cause = some c → s.irq.status.length = 11 → t.caused c
  skipHalt : s.irq.status.length = 11 → o.cause = some .skip → o.stop (s.getPart p).tcb ≠ none → t.caused .skipHalt
  logged : ∀ st, o.stop (s.getPart p).tcb = some st → o.cause = some .skip ∨ known = false →
    t.newest = some (s.entry { kind := 4, code := st, part := p })
  silent : o.stop (s.getPart p).tcb = none ∨ o.cause = some .stepFail ∧ known = true → t.faults = s.faults
  frame : t = { s with part := t.part, far := t.far, faults := t.faults, irq := t.irq, pcie := t.pcie, out := t.out }

theorem State.loggedHalt_getPart (p : Nat) (st : Status) (s : State) (k : Nat) :
    (s.loggedHalt p st).getPart k = if k = p then (s.getPart p).haltedDue st s.sync.stitch else s.getPart k := by
  rw [State.loggedHalt, State.haltDue_getPart, State.log_getPart, State.log_getPart, State.log_sync]

theorem State.loggedHalt_frame (p : Nat) (st : Status) (s : State) : s.loggedHalt p st = { s with
    part := (s.loggedHalt p st).part, faults := (s.loggedHalt p st).faults, irq := (s.loggedHalt p st).irq
    pcie := (s.loggedHalt p st).pcie, out := (s.loggedHalt p st).out } := by
  rw [State.loggedHalt, State.haltDue_frame, State.log_frame]

theorem State.loggedHalt_newest (p : Nat) (st : Status) (s : State) :
    (s.loggedHalt p st).newest = some (s.entry { kind := 4, code := st, part := p }) := by
  rw [State.newest, State.loggedHalt, State.haltDue_faults]
  exact State.log_newest _ _

theorem State.loggedHalt_irq (p : Nat) (st : Status) (s : State) : (s.loggedHalt p st).irq = (s.log { kind := 4, code := st, part := p }).irq := by
  rw [State.loggedHalt, State.haltDue_frame]

theorem State.loggedHalt_keeps_caused {c : Cause} (st : Status) (h : s.caused c) : (s.loggedHalt p st).caused c := by
  unfold State.caused at *
  rw [State.loggedHalt_irq]
  exact State.log_keeps_caused _ h

/-- A failure halts the pattern, with an entry of its own where the log has none yet. -/
theorem State.outcomeActs_fail (p : Nat) (known : Bool) (st : Status) (s : State) :
    OutcomeActed s (s.outcomeActs p known (.fail st)) p known (.fail st) := by
  have hfar : ¬ (some Cause.stepFail = none ∧ (s.getPart p).tcb.slotBytes ≠ 0) := fun h => nomatch h.1
  have hcaused : ∀ u : State, u.irq.status.length = 11 → ∀ c, some Cause.stepFail = some c → (u.raise .stepFail).caused c := by
    rintro u hu c ⟨⟩
    exact State.raise_caused _ hu
  cases known with
  | true =>
    have hdef : s.outcomeActs p true (.fail st) = (s.haltDue p st).raise .stepFail := rfl
    rw [hdef]
    exact {
      part := fun k => by rw [State.raise_getPart, State.haltDue_getPart]; rfl
      far := by rw [State.raise_far, State.haltDue_far]; exact (if_neg hfar).symm
      caused := fun c hc hs => hcaused _ (by rw [State.haltDue_frame]; exact hs) c hc
      skipHalt := fun _ h => nomatch h
      logged := fun _ _ h => h.elim nofun nofun
      silent := fun _ => by rw [State.raise_faults, State.haltDue_faults]
      frame := by rw [State.raise_frame, State.haltDue_frame] }
  | false =>
    have hdef : s.outcomeActs p false (.fail st) = (s.loggedHalt p st).raise .stepFail := rfl
    rw [hdef]
    exact {
      part := fun k => by rw [State.raise_getPart, State.loggedHalt_getPart]; rfl
      far := by rw [State.raise_far, State.loggedHalt_frame]; exact (if_neg hfar).symm
      caused := fun c hc hs => hcaused _ (by
        rw [State.loggedHalt_irq]
        exact (State.log_keepsRecord _ s).2.2.trans hs) c hc
      skipHalt := fun _ h => nomatch h
      logged := fun st' h _ => by
        obtain rfl : st = st' := Option.some.inj h
        rw [State.newest, State.raise_faults]
        exact State.loggedHalt_newest _ _ _
      silent := fun h => h.elim nofun fun h => nomatch h.2
      frame := by rw [State.raise_frame, State.loggedHalt_frame] }

/-- A void step sets its cause. -/
theorem State.outcomeActs_voidSkip (p : Nat) (known : Bool) (s : State) : OutcomeActed s (s.outcomeActs p known .voidSkip) p known .voidSkip where
  part k := by
    rw [State.outcomeActs, State.raise_getPart]
    exact State.haltOpt_getPart p none s k
  far := (State.raise_far _ _).trans (if_neg fun h => nomatch h.1).symm
  caused := by
    rintro c ⟨⟩ hs
    exact State.raise_caused _ hs
  skipHalt _ h := nomatch h
  logged _ h := nomatch h
  silent _ := State.raise_faults _ _
  frame := by rw [State.outcomeActs, State.raise_frame]

/-- A step skipped for a non-finite value sets its cause, and halts the pattern after SKIP_HALT skips in a row (R172). -/
theorem State.outcomeActs_skip (p : Nat) (known : Bool) (s : State) : OutcomeActed s (s.outcomeActs p known .skip) p known .skip := by
  have hlen : s.irq.status.length = 11 → (s.raise .skip).irq.status.length = 11 := (State.raise_keepsRecord .skip s).2.2.trans
  have hfar : ¬ (some Cause.skip = none ∧ (s.getPart p).tcb.slotBytes ≠ 0) := fun h => nomatch h.1
  by_cases h : (s.getPart p).tcb.skipHalt ≠ 0 ∧ (s.getPart p).tcb.skipHalt ≤ (s.getPart p).tcb.skipRun
  · have hdef : s.outcomeActs p known .skip = ((s.raise .skip).loggedHalt p .stepSkipped).raise .skipHalt := if_pos h
    have hstop : Outcome.stop .skip (s.getPart p).tcb = some .stepSkipped := if_pos h
    rw [hdef]
    refine { part := fun k => ?_, far := ?_, caused := ?_, skipHalt := fun hs _ _ => ?_, logged := fun st hst _ => ?_, silent := ?_, frame := ?_ }
    · rw [State.raise_getPart, State.loggedHalt_getPart, State.raise_getPart, State.raise_getPart, State.raise_sync, hstop]; rfl
    · rw [State.raise_far, State.loggedHalt_frame]
      exact (State.raise_far _ _).trans (if_neg hfar).symm
    · rintro c ⟨⟩ hs
      exact State.raise_keeps_caused _ (State.loggedHalt_keeps_caused _ (State.raise_caused _ hs))
    · refine State.raise_caused _ ?_
      rw [State.loggedHalt_irq]
      exact (State.log_keepsRecord _ _).2.2.trans (hlen hs)
    · obtain rfl : Status.stepSkipped = st := Option.some.inj (hstop.symm.trans hst)
      rw [State.newest, State.raise_faults, ← State.newest, State.loggedHalt_newest]
      rw [State.raise_frame]; rfl
    · rintro (hnone | ⟨⟨⟩, -⟩)
      rw [hstop] at hnone
      cases hnone
    · rw [State.raise_frame, State.loggedHalt_frame, State.raise_frame]
  · have hdef : s.outcomeActs p known .skip = s.raise .skip := if_neg h
    have hstop : Outcome.stop .skip (s.getPart p).tcb = none := if_neg h
    rw [hdef]
    refine { part := fun k => ?_, far := ?_, caused := ?_, skipHalt := fun _ _ hst => absurd hstop hst, logged := fun st hst _ => ?_
             silent := fun _ => State.raise_faults _ _, frame := by rw [State.raise_frame] }
    · rw [State.raise_getPart, hstop]
      exact State.haltOpt_getPart p none s k
    · exact (State.raise_far _ _).trans (if_neg hfar).symm
    · rintro c ⟨⟩ hs
      exact State.raise_caused _ hs
    · rw [hstop] at hst; cases hst

theorem State.ringHeader_far (p : Nat) (s : State) : (s.ringHeader p).far = if (s.getPart p).tcb.slotBytes ≠ 0 then
    s.far.writeN (s.spaceAt p 2 ((s.getPart p).tcb.ringOffset + (s.getPart p).tcb.updates % 3 * (s.getPart p).tcb.slotBytes))
      (slice (s.getPart p).tcb.bytes 0 4096) else s.far := by
  unfold State.ringHeader
  dsimp only
  by_cases h : (s.getPart p).tcb.slotBytes = 0
  · rw [if_pos h, if_neg (not_not.2 h)]
  · rw [if_neg h, if_pos h]

theorem State.ringHeader_frame (p : Nat) (s : State) : s.ringHeader p = { s with far := (s.ringHeader p).far } := by
  unfold State.ringHeader
  dsimp only
  split
  · rfl
  · simp only

/-- A commit writes the header of the slot that has become current (R169, R170). -/
theorem State.outcomeActs_commit (p : Nat) (known : Bool) (s : State) : OutcomeActed s (s.outcomeActs p known .commit) p known .commit where
  part k := by
    rw [State.outcomeActs, State.ringHeader_frame]
    exact State.haltOpt_getPart p none s k
  far := (State.ringHeader_far p s).trans (by simp [Outcome.cause])
  caused _ h := nomatch h
  skipHalt _ h := nomatch h
  logged _ h := nomatch h
  silent _ := by rw [State.outcomeActs, State.ringHeader_frame]
  frame := by rw [State.outcomeActs, State.ringHeader_frame]

theorem State.outcomeActs_acted (p : Nat) (known : Bool) (o : Outcome) (s : State) : OutcomeActed s (s.outcomeActs p known o) p known o := by
  cases o with
  | fail st => exact State.outcomeActs_fail p known st s
  | voidSkip => exact State.outcomeActs_voidSkip p known s
  | skip => exact State.outcomeActs_skip p known s
  | commit => exact State.outcomeActs_commit p known s

/-! ### The decision (R134, R135, R159, R167, R168) -/

/-- A partition whose step has been decided by a combined vote, before the halts. -/
def Partition.decidedBy (v : Vote) (q : Partition) : Partition :=
  { q with tcb := v.outcome.tcb v q.run.step q.tcb, run := q.run.decide_ q.image v v.outcome, arithStep := (q.run.step, q.arithNow) }

/-- A step is decided, its control block copied. -/
def State.decidedBy (p : Nat) (v : Vote) (s : State) : State := (s.updPart p (Partition.decidedBy v)).copyTcb p

theorem State.decidedBy_getPart (p : Nat) (v : Vote) (s : State) (k : Nat) :
    (s.decidedBy p v).getPart k = if k = p then (s.getPart p).decidedBy v else s.getPart k := by
  rw [State.decidedBy, State.copyTcb_getPart, State.getPart_updPart]

theorem State.decidedBy_frame (p : Nat) (v : Vote) (s : State) :
    s.decidedBy p v = { s with part := (s.decidedBy p v).part, far := (s.decidedBy p v).far } := by
  rw [State.decidedBy, State.copyTcb_frame]; rfl

theorem State.decidedBy_far (p : Nat) (v : Vote) (s : State) : (s.decidedBy p v).far = if (s.getPart p).image.amount 0x03 0 = 0 then s.far
    else s.far.writeN (s.getPart p).hbmBase (v.outcome.tcb v (s.getPart p).run.step (s.getPart p).tcb).bytes := by
  have hpart := State.getPart_updPart_same p (Partition.decidedBy v) s
  by_cases h : (s.getPart p).image.amount 0x03 0 = 0
  · rw [if_pos h, State.decidedBy, State.copyTcb_far_of_none (by rw [hpart]; exact h)]; rfl
  · rw [if_neg h, State.decidedBy, State.copyTcb_far (by rw [hpart]; exact h), hpart]; rfl

/-- Where no twin announcement waits, none acts. -/
theorem State.twinActs_getPart (h : (s.getPart p).twin.acts = []) (o : Outcome) (k : Nat) : (s.twinActs p o).getPart k = s.getPart k := by
  have hdef : s.twinActs p o = s.updTwin p fun t => { t with acts := t.acts.filter fun a => !decide (a.2.1 ≤ (s.getPart p).run.base) } := by
    simp [State.twinActs, Partition.actsDue, h]
  rw [hdef, State.getPart_updTwin]
  split
  · next hk =>
    subst hk
    simp only [h, List.filter_nil]
    rw [← h]
  · rfl

theorem State.twinActs_frame (h : (s.getPart p).twin.acts = []) (o : Outcome) : s.twinActs p o = { s with part := (s.twinActs p o).part } := by
  simp only [State.twinActs, Partition.actsDue, h]
  rfl

/-- A partition that is not bound forms no signature. -/
theorem State.commitSignature_unbound (h : (s.getPart p).twin.state ≠ .bound) (o : Outcome) (shed : Bool) : s.commitSignature p o shed = s := by
  cases o with
  | commit => exact if_neg fun hbound => h hbound.1
  | fail | voidSkip | skip => rfl

/-- The status with which the last step of a pattern halts it. -/
def Partition.endStatus (q : Partition) (o : Outcome) : Option Status := if q.image.steps = q.run.step + 1 then some o.status else none

theorem State.decideStep_eq (p : Nat) (v : Vote) (s : State) : ∃ shed, s.decideStep p v =
    ((((((s.decidedBy p v).outcomeActs p ((s.getPart p).faultLogged v) v.outcome).twinActs p v.outcome).commitSignature p v.outcome shed).haltOpt p
      ((s.getPart p).endStatus v.outcome)).ringHost (4 + p) 4) := by
  refine ⟨(s.getPart p).actsDue.any fun a => a.1 == 1, ?_⟩
  unfold State.decideStep Partition.endStatus
  dsimp only
  split <;> rfl

/-- All that the parts of a decision may change. -/
def StepMoved (s t : State) : Prop :=
  t = { s with part := t.part, far := t.far, chan := t.chan, faults := t.faults, irq := t.irq, pcie := t.pcie, out := t.out }

theorem StepMoved.trans (h : StepMoved s t) (k : StepMoved t u) : StepMoved s u := by
  unfold StepMoved at *
  rw [k, h]

/-- What a decision leaves, said of the outcome: the partition decided and halted, the far memory, causes, the log and the doorbell. -/
structure StepEnded (u t : State) (p : Nat) (v : Vote) (o : Outcome) (tcb : Tcb) : Prop where
  part : ∀ k, t.getPart k = if k = p then
    ((u.getPart p).decidedBy v).stopped ((o.stop tcb).or ((u.getPart p).endStatus o)) u.sync.stitch else u.getPart k
  acted : ∃ w, OutcomeActed (u.decidedBy p v) w p ((u.getPart p).faultLogged v) o ∧ t.far = w.far ∧ t.faults = w.faults ∧
    ∀ c, w.caused c → t.caused c
  chan : ∀ c, t.getChan c = if c = 4 + p then { u.getChan c with db := (u.getChan c).db ||| BitVec.twoPow 32 4 } else u.getChan c
  frame : StepMoved u t

/-- A decision where no twin announcement waits and the partition is not bound. -/
theorem State.decideStep_ended (hrun : (s.getPart p).pat = .running) (hacts : (s.getPart p).twin.acts = [])
    (hbound : (s.getPart p).twin.state ≠ .bound) (v : Vote) :
    StepEnded s (s.decideStep p v) p v v.outcome (v.outcome.tcb v (s.getPart p).run.step (s.getPart p).tcb) := by
  obtain ⟨shed, hdef⟩ := State.decideStep_eq p v s
  obtain ⟨d, hd⟩ : ∃ d, d = (s.getPart p).decidedBy v := ⟨_, rfl⟩
  have hdrun : d.pat = .running := by rw [hd]; exact hrun
  have hpart1 := State.decidedBy_getPart p v s
  have hframe1 := State.decidedBy_frame p v s
  have hacted := State.outcomeActs_acted p ((s.getPart p).faultLogged v) v.outcome (s.decidedBy p v)
  generalize (s.decidedBy p v).outcomeActs p ((s.getPart p).faultLogged v) v.outcome = w at *
  have hdecided : (s.decidedBy p v).getPart p = d := by rw [hpart1, if_pos rfl, hd]
  have hwpart : ∀ k, w.getPart k = if k = p then d.stopped (v.outcome.stop d.tcb) s.sync.stitch else s.getPart k := fun k => by
    rw [hacted.part, hdecided, hpart1, hframe1]
    split <;> rfl
  have hwp : w.getPart p = _ := (hwpart p).trans ((if_pos rfl).trans (Partition.stopped_of_running hdrun _ _))
  have hwacts : (w.getPart p).twin.acts = [] := by rw [hwp, hd]; exact hacts
  have hxpart := State.twinActs_getPart hwacts v.outcome
  have hxframe := State.twinActs_frame hwacts v.outcome
  rw [State.commitSignature_unbound (by rw [hxpart, hwp, hd]; exact hbound)] at hdef
  generalize w.twinActs p v.outcome = x at *
  have hypart := State.haltOpt_getPart p ((s.getPart p).endStatus v.outcome) x
  have hyframe := State.haltOpt_frame p ((s.getPart p).endStatus v.outcome) x
  generalize x.haltOpt p ((s.getPart p).endStatus v.outcome) = y at *
  have hsync : w.sync = s.sync := by rw [hacted.frame, hframe1]
  have hchan : w.chan = s.chan := by rw [hacted.frame, hframe1]
  rw [hdef]
  refine ⟨fun k => ?part, ⟨w, hacted, ?_, ?_, fun c hc => ?_⟩, fun c => ?chan, ?frame⟩
  case part =>
    rw [State.ringHost_getPart, hypart, hxpart, hxpart, hwpart, hwpart, if_pos rfl, hxframe, hsync]
    by_cases hk : k = p
    · simp only [if_pos hk]
      rw [Partition.stopped_stopped hdrun, hd]
      rfl
    · simp only [if_neg hk]
  · rw [State.ringHost_far, hyframe, hxframe]
  · rw [State.ringHost_faults, hyframe, hxframe]
  · refine State.ringHost_keeps_caused _ _ ?_
    rw [hyframe, hxframe]
    exact hc
  case chan =>
    have hsame : ∀ c, y.getChan c = s.getChan c := fun c => by
      rw [hyframe, hxframe]
      exact congrArg (Tab.get {} · c) hchan
    rw [State.ringHost_getChan, hsame, hsame]
    split
    · next hc => rw [hc]
    · rfl
  case frame =>
    have hframe := State.ringHost_frame (4 + p) 4 y
    have hwframe := hacted.frame
    generalize s.decidedBy p v = e, y.ringHost (4 + p) 4 = t at *
    have he : StepMoved s e := by unfold StepMoved; rw [hframe1]
    have hw : StepMoved e w := by unfold StepMoved; rw [hwframe]
    have hx : StepMoved w x := by unfold StepMoved; rw [hxframe]
    have hy : StepMoved x y := by unfold StepMoved; rw [hyframe]
    have ht : StepMoved y t := by unfold StepMoved; rw [hframe]
    exact he.trans (hw.trans (hx.trans (hy.trans ht)))

/-- Early growth in the words of R172. -/
theorem Tcb.early_iff (c : Tcb) (v : Vote) (run : Nat) : c.early v run = true ↔
    c.earlyRun ≠ 0 ∧ c.earlyRun ≤ run ∧ v.gradConv ≤ v.gradUnf * 2 ^ c.earlyShareExp ∧ v.gradConv ≠ 0 := by
  simp [Tcb.early, and_assoc]

/-- The clean branch of the loss-scale controller, its growth said as R172 says it. -/
theorem Tcb.commit_eq {c : Tcb} {run : Nat} {grow : Bool} (hrun : run = satAdd 32 c.cleanRun 1) (hgrow : grow = true ↔ c.growth ≤ run ∨
      c.earlyRun ≠ 0 ∧ c.earlyRun ≤ run ∧ v.gradConv ≤ v.gradUnf * 2 ^ c.earlyShareExp ∧ v.gradConv ≠ 0) (n : Nat) : c.commit v n =
    { c with
      scaleExp := if grow then min (c.scaleExp + 1) c.scaleMax else c.scaleExp, cleanRun := if grow then 0 else run, skipRun := 0
      updates := satAdd 64 c.updates 1, committedStep := (c.stepBase + n) % 2 ^ 64, b1Pow := fpBin .mul false false c.b1Pow c.beta1
      b2Pow := fpBin .mul false false c.b2Pow c.beta2, commits := satAdd 64 c.commits 1, lastOutcome := 1 } := by
  have hsame : (decide (c.growth ≤ run) || c.early v run) = grow :=
    Bool.eq_iff_iff.2 (by rw [hgrow, Bool.or_eq_true, decide_eq_true_iff, Tcb.early_iff])
  rw [← hsame, hrun]
  rfl

/-- The next base after a decision: none after a failure or the last step (R135, R138). -/
theorem Run.decide_next (i : Image) (v : Vote) (o : Outcome) (r : Run) : (r.decide_ i v o).next =
    if o.cause = some .stepFail ∨ i.steps = r.step + 1 then none else some
      (if v.slip ≤ i.slipBudget then r.base + i.stepStitches else max (r.base + i.stepStitches) (v.issue + i.realignLead)) := by
  cases o with
  | fail st => exact (if_pos (.inl rfl)).symm
  | voidSkip | skip | commit => simp [Run.decide_, Outcome.cause, nextBase]

/-- A decision, in the words of `StepDecided`: it is that of the first row of R167 whose mark the vote bears. -/
theorem State.decideStep_decided (p : Nat) (v : Vote) (s : State) : StepDecided s (s.decideStep p v) p v := by
  intro q st tcb stop cause run hq hrun hacts hbound hclean hrow
  subst hq
  obtain ⟨hst, htcb, hstop, hcause⟩ : st = v.outcome.status ∧ tcb = v.outcome.tcb v (s.getPart p).run.step (s.getPart p).tcb ∧
      stop = v.outcome.stop tcb ∧ cause = v.outcome.cause := by
    rcases hrow with ⟨hsig, rfl, rfl, rfl, rfl⟩ | ⟨hsig, habort, rfl, rfl, rfl, rfl⟩ | ⟨hsig, habort, hmem, rfl, rfl, rfl, rfl⟩ |
      ⟨hsig, habort, hmem, hvoid, rfl, rfl, rfl, rfl⟩ | ⟨hsig, habort, hmem, hvoid, hfinite, rfl, rfl, rfl, rfl⟩ |
      ⟨hsig, habort, hmem, hvoid, hfinite, rfl, rfl, rfl, grow, hgrow, rfl⟩
    · rw [show v.outcome = .fail .signatureMismatch by simp [Vote.outcome, hsig]]; exact ⟨rfl, rfl, rfl, rfl⟩
    · rw [show v.outcome = .fail .collAbort by simp [Vote.outcome, hsig, habort]]; exact ⟨rfl, rfl, rfl, rfl⟩
    · rw [show v.outcome = .fail .internal by simp [Vote.outcome, hsig, habort, hmem]]; exact ⟨rfl, rfl, rfl, rfl⟩
    · rw [show v.outcome = .voidSkip by simp [Vote.outcome, hsig, habort, hmem, hvoid]]; exact ⟨rfl, rfl, rfl, rfl⟩
    · rw [show v.outcome = .skip by simp [Vote.outcome, hsig, habort, hmem, hvoid, hfinite]]; exact ⟨rfl, rfl, rfl, rfl⟩
    · rw [show v.outcome = .commit by simp [Vote.outcome, hsig, habort, hmem, hvoid, hfinite]]
      exact ⟨rfl, (Tcb.commit_eq hclean hgrow _).symm, rfl, rfl⟩
  have hended := State.decideStep_ended hrun hacts hbound v
  have hfar := State.decidedBy_far p v s
  have hframe1 := State.decidedBy_frame p v s
  have hpart1 := (State.decidedBy_getPart p v s p).trans (if_pos rfl)
  rw [← htcb] at hended hfar
  obtain ⟨hpart, ⟨w, hacted, hwfar, hwfaults, hwcaused⟩, hchan, hframe⟩ := hended
  generalize s.decideStep p v = t at *
  generalize s.decidedBy p v = d at *
  have hdtcb : (d.getPart p).tcb = tcb := by rw [hpart1, htcb]; rfl
  have hirq : d.irq = s.irq := by rw [hframe1]
  have hdrun : ((s.getPart p).decidedBy v).pat = .running := hrun
  refine ⟨(s.getPart p).run.halt.or (stop.or ((s.getPart p).endStatus v.outcome)), _, ?_, hfar, ?part, fun k hk => by rw [hpart, if_neg hk], ?far,
    fun c hc hs => ?_, fun hs hc hne => ?_, fun h' hh hor => ?logged, fun hor => ?silent, ?_, fun c hc => by rw [hchan, if_neg hc], hframe⟩
  · cases (s.getPart p).run.halt <;> cases stop <;> simp [Partition.endStatus, hst]
  case part =>
    have hfirst : ∀ x : Option Status, ((s.getPart p).run.halt = none ∧ x ≠ none) ↔
        ((s.getPart p).run.halt = none ∧ (s.getPart p).run.halt.or x ≠ none) := fun x =>
      and_congr_right fun h => by rw [h, Option.none_or]
    rw [hpart, if_pos rfl, Partition.stopped_of_running hdrun, hcause, hst, ← Run.decide_next, ← hstop]
    simp only [← hfirst, htcb]
    rfl
  case far =>
    rw [hwfar, hacted.far, hdtcb, ← hcause]
    have hspace : ∀ off, d.spaceAt p 2 off = s.spaceAt p 2 off := fun off => by rw [State.spaceAt, hpart1]; rfl
    rw [hspace]
  · exact hwcaused c (hacted.caused c (hcause ▸ hc) (hirq ▸ hs))
  · exact hwcaused _ (hacted.skipHalt (hirq ▸ hs) (hcause ▸ hc) (by rw [hdtcb, ← hstop]; exact hne))
  case logged =>
    have hnewest := hacted.logged h' (by rw [hdtcb, ← hstop]; exact hh) (hcause ▸ hor)
    refine ⟨d.entry { kind := 4, code := h', part := p }, ?_, rfl, rfl, rfl, by rw [hframe1]; rfl⟩
    rw [State.newest, hwfaults]
    exact hnewest
  case silent =>
    rw [hwfaults, hacted.silent (by rw [hdtcb, ← hstop, ← hcause]; exact hor), hframe1]
  · rw [hchan, if_pos rfl]
    simp

end

end Sys2Proof.Machine
end

section
/-! SUPPORT. The exchange of votes: the vote of a subtree that goes up or is decided at the root, records that arrive, and the time-out; then the
statement about them. -/

namespace Sys2Proof.Machine

section
variable {s t u : State} {p port : Nat} {q : Partition} {v : Vote} {f : Frame}

/-! ### Up and down the tree (R164, R165) -/

/-- The combined vote goes to the children, and decides the step here. -/
theorem State.voteDown_decided (p : Nat) (v : Vote) (s : State) :
    StepDecided (s.votesTo p v ((s.getPart p).image.jobGroup.children s.here)) (s.voteDown p v) p v :=
  State.decideStep_decided p v _

/-- Every child's vote is there. -/
theorem children_all_iff {ds : List Coord} {cs : List (Coord × Vote)} :
    (ds.all fun d => cs.any fun c => c.1 == d) = true ↔ ∀ d ∈ ds, ∃ c ∈ cs, c.1 = d := by
  simp

/-- Before the own vote is sent and every child's is there, and once the subtree's has gone, no vote goes up. -/
theorem State.voteUp_waits (h : (s.getPart p).run.sent = none ∨ (s.getPart p).run.passed = true ∨ (s.getPart p).run.decided = true ∨
    ∃ d ∈ (s.getPart p).image.jobGroup.children s.here, ∀ c ∈ (s.getPart p).run.children, c.1 ≠ d) : s.voteUp p = s := by
  unfold State.voteUp
  dsimp only
  split
  · rfl
  · next own k hsent =>
    refine if_pos ?_
    rcases h with h | h | h | ⟨d, hd, hnone⟩
    · rw [h] at hsent; cases hsent
    · simp [h]
    · simp [h]
    · have hmissing : ¬ ∀ d ∈ (s.getPart p).image.jobGroup.children s.here, ∃ c ∈ (s.getPart p).run.children, c.1 = d := fun hall => by
        obtain ⟨c, hc, hcd⟩ := hall d hd
        exact hnone c hc hcd
      rw [Bool.eq_false_of_not_eq_true (mt children_all_iff.1 hmissing)]
      simp

/-- With all votes of the subtree there, theirs goes to the parent, or is decided at the root. -/
theorem State.voteUp_goes {own : Vote} {k : Nat} (hsent : (s.getPart p).run.sent = some (own, k)) (hpassed : (s.getPart p).run.passed = false)
    (hdecided : (s.getPart p).run.decided = false)
    (hall : ∀ d ∈ (s.getPart p).image.jobGroup.children s.here, ∃ c ∈ (s.getPart p).run.children, c.1 = d)
    (hv : v = ((s.getPart p).run.children.map (·.2)).foldl Vote.join own) : s.voteUp p =
      match (s.getPart p).image.jobGroup.parent s.here with
      | none => s.voteDown p v
      | some d => (s.updRun p fun r => { r with passed := true }).sendVote p v d := by
  subst hv
  simp only [State.voteUp, hsent]
  refine if_neg ?_
  rw [hpassed, hdecided, children_all_iff.2 hall]
  decide

theorem State.voteUp_rises (p : Nat) (s : State) : VoteRises s (s.voteUp p) p := by
  rintro q g rfl rfl
  refine ⟨State.voteUp_waits, fun own k v hsent hpassed hdecided hall hv => ?_⟩
  rw [State.voteUp_goes hsent hpassed hdecided hall hv]
  refine ⟨fun d hd => by rw [hd]; rfl, fun hroot => ?_⟩
  rw [hroot]
  exact State.voteDown_decided p v s

/-! ### The own vote (R162, R166, R297) -/

theorem exec_voteSend_idle (h : (s.getPart p).pat ≠ .running ∨ (s.getPart p).run.decided = true ∨ (s.getPart p).run.sent ≠ none ∨
    (s.getPart p).run.halt ≠ none ∨ s.voteForms p = false) : exec (.voteSend p) s = .next s := by
  refine congrArg Host.Outcome.next (if_pos ?_)
  simpa [Option.isSome_iff_ne_none] using h

/-- A vote that forms is held, or is sent and rises. -/
theorem exec_voteSend (hrun : (s.getPart p).pat = .running) (hdecided : (s.getPart p).run.decided = false) (hsent : (s.getPart p).run.sent = none)
    (hhalt : (s.getPart p).run.halt = none) (hforms : s.voteForms p = true)
    (hu : u = s.updRun p fun r => { r with issue := some (r.issue.getD s.stitch) }) :
    exec (.voteSend p) s = .next (if (s.getPart p).voteHeld then u else
      (u.updRun p fun r => { r with sent := some ((u.getPart p).ownVote, s.stitch), sig := false }).voteUp p) := by
  subst hu
  refine congrArg Host.Outcome.next (if_neg ?_)
  simp [hrun, hdecided, hsent, hhalt, hforms]

/-! ### Records that arrive (R164, R165) -/

theorem exec_voteFrame_other (h : f.kind ≠ 4 ∨ f.arg ≠ 0 ∨ f.dst ≠ s.here) : exec (.voteFrame port f) s = .next s :=
  congrArg Host.Outcome.next (if_pos h)

/-- A record that may be delivered is taken, and acts on a step that is not decided and is its own. -/
theorem exec_voteFrame (hk : f.kind = 4) (harg : f.arg = 0) (hh : f.dst = s.here) (hd : Deliverable s port f) (hu : u = s.takeRx port f)
    (hv : v = voteParse f.payload) (hq : q = s.getPart f.part) : exec (.voteFrame port f) s =
      .next (if q.pat ≠ .running ∨ q.run.decided ∨ v.step ≠ q.run.step then u else u.takeVote f.part v f.src) := by
  show Host.Outcome.next (s.voteFrame port f) = _
  simp [State.voteFrame, hk, harg, hh, State.arrives_deliverable hd, hu, hv, hq]

/-- The parent's record is the combined one: it goes down, where the own subtree's has gone up. -/
theorem State.takeVote_parent {src : Coord} (h : (s.getPart p).image.jobGroup.parent s.here = some src) : s.takeVote p v src =
    if (s.getPart p).run.passed = true ∧ (s.getPart p).run.sent.isSome then s.voteDown p v else s := if_pos h

/-- A child's first record is kept, and the vote rises. -/
theorem State.takeVote_child {src : Coord} (h : (s.getPart p).image.jobGroup.parent s.here ≠ some src)
    (hchild : src ∈ (s.getPart p).image.jobGroup.children s.here) (hnew : ∀ c ∈ (s.getPart p).run.children, c.1 ≠ src) :
    s.takeVote p v src = (s.updRun p fun r => { r with children := r.children ++ [(src, v)] }).voteUp p :=
  (if_neg h).trans (if_pos (by simpa using ⟨hchild, fun a b hc => hnew (a, b) hc⟩))

/-- Records of others, and a child's second one, are discarded. -/
theorem State.takeVote_stray {src : Coord} (h : (s.getPart p).image.jobGroup.parent s.here ≠ some src)
    (hstray : src ∉ (s.getPart p).image.jobGroup.children s.here ∨ ∃ c ∈ (s.getPart p).run.children, c.1 = src) :
    s.takeVote p v src = s := by
  refine (if_neg h).trans (if_neg ?_)
  rintro hboth
  obtain ⟨hchild, hnew⟩ := (Bool.and_eq_true _ _).mp hboth
  rcases hstray with hno | ⟨c, hc, rfl⟩
  · exact hno (by simpa using hchild)
  · simp at hnew
    exact hnew c.1 c.2 hc rfl

/-! ### The time-out (R165, R297) -/

theorem exec_voteTimeout_early (h : (s.getPart p).run.sent = none ∨ (s.getPart p).pat ≠ .running ∨ (s.getPart p).run.decided = true ∨
    ∃ v k, (s.getPart p).run.sent = some (v, k) ∧ s.sync.stitch < k + (s.getPart p).image.collTimeout) :
    exec (.voteTimeout p) s = .next s := by
  refine congrArg Host.Outcome.next ?_
  unfold State.voteTimeout
  dsimp only
  split
  · next own k hsent =>
    refine if_neg ?_
    rintro ⟨hrun, hdecided, hdue⟩
    rcases h with h | h | h | ⟨v, j, h, hearly⟩
    · rw [hsent] at h; cases h
    · exact h hrun
    · simp [h] at hdecided
    · obtain ⟨-, rfl⟩ := Prod.mk.inj (Option.some.inj (hsent.symm.trans h))
      exact absurd hdue (Nat.not_le.2 hearly)
  · rfl

/-- The member named is the first child in tree order whose vote is missing, else the parent. -/
theorem State.missingVoter_spec {d : Coord} {g : Group} (hg : g = (s.getPart p).image.jobGroup) (hd : d = s.missingVoter p) :
    (∃ before after, g.children s.here = before ++ d :: after ∧ (∀ c ∈ (s.getPart p).run.children, c.1 ≠ d) ∧
      ∀ b ∈ before, ∃ c ∈ (s.getPart p).run.children, c.1 = b) ∨
    (∀ b ∈ g.children s.here, ∃ c ∈ (s.getPart p).run.children, c.1 = b) ∧
      (g.parent s.here = some d ∨ g.parent s.here = none ∧ d = s.here) := by
  subst hg
  unfold State.missingVoter at hd
  dsimp only at hd
  cases hfind : ((s.getPart p).image.jobGroup.children s.here).find? fun d => !(s.getPart p).run.children.any fun c => c.1 == d with
  | some e =>
    rw [hfind, Option.getD_some] at hd
    subst hd
    obtain ⟨hmissing, before, after, hsplit, hcame⟩ := List.find?_eq_some_iff_append.1 hfind
    exact .inl ⟨before, after, hsplit, by simpa using hmissing, by simpa using hcame⟩
  | none =>
    rw [hfind, Option.getD_none] at hd
    refine .inr ⟨by simpa using hfind, ?_⟩
    cases hparent : (s.getPart p).image.jobGroup.parent s.here with
    | some e => exact .inl (by rw [hd, hparent]; rfl)
    | none => exact .inr ⟨rfl, by rw [hd, hparent]; rfl⟩

/-- The abort record of a step whose vote has not been combined in time. -/
def State.voteAbort (p : Nat) (s : State) : Abort :=
  { step := (s.getPart p).run.step, group := 0xFFFF, inst := 0, progress := 0
    rank := (s.getPart p).image.jobGroup.rank (s.missingVoter p), member := s.missingVoter p }

/-- A run whose vote has failed: an abort of the step that is reported already stays reported. -/
def Run.voteFailed (a : Abort) (r : Run) : Run :=
  { r with sent := none, passed := true
           abortAt := if (match r.abortAt with | some x => x.2.2 == r.step | none => false) then r.abortAt else some (a.member, a.rank, r.step) }

/-- The state in which the exchange of a vote has failed (R165): the abort is reported and logged, and the halt falls due. -/
def State.voteFailed (p : Nat) (a : Abort) (s : State) : State :=
  ((s.updRun p (Run.voteFailed a)).log (abortEntry p a)).haltDue p .collAbort

theorem exec_voteTimeout_due {k : Nat} (hsent : (s.getPart p).run.sent = some (v, k)) (hrun : (s.getPart p).pat = .running)
    (hdecided : (s.getPart p).run.decided = false) (hdue : k + (s.getPart p).image.collTimeout ≤ s.sync.stitch) :
    exec (.voteTimeout p) s = .next (s.voteFailed p (s.voteAbort p)) := by
  show Host.Outcome.next (s.voteTimeout p) = _
  simp only [State.voteTimeout, hsent]
  exact congrArg Host.Outcome.next (if_pos ⟨hrun, by simp [hdecided], hdue⟩)

theorem State.voteFailed_getPart (hrun : (s.getPart p).pat = .running) (a : Abort) (k : Nat) : (s.voteFailed p a).getPart k = if k = p then
    { s.getPart p with run := { (s.getPart p).run.voteFailed a with
      halt := some ((s.getPart p).run.halt.getD .collAbort)
      haltAt := if (s.getPart p).run.halt = none then s.sync.stitch else (s.getPart p).run.haltAt } } else s.getPart k := by
  obtain ⟨q, hq⟩ : ∃ q, q = { s.getPart p with run := (s.getPart p).run.voteFailed a } := ⟨_, rfl⟩
  have hstopped := Partition.stopped_of_running (q := q) (by rw [hq]; exact hrun) (some .collAbort) s.sync.stitch
  rw [State.voteFailed, State.haltDue_getPart, State.log_getPart, State.log_getPart, State.log_sync, State.getPart_updRun, State.getPart_updRun,
    if_pos rfl, ← hq]
  refine ite_congr rfl (fun _ => hstopped.trans ?_) fun hk => if_neg hk
  rw [hq]
  cases hhalt : (s.getPart p).run.halt <;> simp [Run.voteFailed, hhalt]

theorem State.voteFailed_newest (p : Nat) (a : Abort) (s : State) :
    (s.voteFailed p a).newest = some ((s.updRun p (Run.voteFailed a)).entry (abortEntry p a)) := by
  rw [State.newest, State.voteFailed, State.haltDue_faults]
  exact State.log_newest _ _

theorem State.voteFailed_frame (p : Nat) (a : Abort) (s : State) : s.voteFailed p a = { s with
    part := (s.voteFailed p a).part, faults := (s.voteFailed p a).faults, irq := (s.voteFailed p a).irq, pcie := (s.voteFailed p a).pcie
    out := (s.voteFailed p a).out } := by
  rw [State.voteFailed, State.haltDue_frame, State.log_frame]
  rfl

end

/-- Settles O52: a vote rises by `State.voteUp_rises` as it is sent and as a child's record comes, and both the root and the parent's record decide
the step by `State.decideStep_decided`. -/
theorem votesDecideSteps : Obligations.VotesDecideSteps := by
  unfold Obligations.VotesDecideSteps
  refine ⟨fun _ _ => rfl, ?_⟩
  rintro s p q g rfl rfl
  refine ⟨exec_voteSend_idle, fun hrun hdecided hsent hhalt hforms => ?send, ?frames, exec_voteTimeout_early,
    fun v k hsent hrun hdecided hdue => ?timeout⟩
  case send =>
    have hexec := exec_voteSend hrun hdecided hsent hhalt hforms rfl
    refine ⟨_, rfl, fun hheld => ?_, fun hfree => ?_⟩
    · rw [hheld, if_pos rfl] at hexec
      exact ⟨_, hexec, State.getPart_updPart_same _ _ _, fun k hk => State.getPart_updPart_ne _ _ _ _ hk, rfl⟩
    · rw [hfree, if_neg Bool.false_ne_true] at hexec
      refine ⟨_, _, hexec, ?_, fun k hk => ?_, rfl, State.voteUp_rises p _⟩
      · simp only [State.getPart_updRun, if_true]
        rfl
      · simp only [State.getPart_updRun, if_neg hk]
  case frames =>
    intro port f v u hp hv hu
    subst hp
    have hpart : u.getPart f.part = s.getPart f.part := by rw [hu, State.takeRx_getPart]
    have hhere : u.here = s.here := by rw [hu, State.takeRx_here]
    refine ⟨exec_voteFrame_other, fun hk harg hh hd => ?_⟩
    have hexec := exec_voteFrame hk harg hh hd hu hv rfl
    rw [← hpart, ← hhere]
    rw [← hpart] at hexec
    refine ⟨fun hother => ?_, fun hrun hdecided hstep => ?_⟩
    · rw [hexec, if_pos hother]
    · have hthis : ¬ ((u.getPart f.part).pat ≠ .running ∨ (u.getPart f.part).run.decided = true ∨ v.step ≠ (u.getPart f.part).run.step) := by
        simp [hrun, hdecided, hstep]
      rw [if_neg hthis] at hexec
      refine ⟨fun hparent => ?_, fun hparent => ⟨fun hstray => ?_, fun hchild hnew => ?_⟩⟩
      · rw [State.takeVote_parent hparent] at hexec
        refine ⟨fun hearly => ?_, fun hpassed hsent => ⟨_, ?_, State.voteDown_decided f.part v u⟩⟩
        · rw [hexec, if_neg]
          rintro ⟨hpassed, hsent⟩
          rcases hearly with h | h
          · rw [h] at hpassed; cases hpassed
          · rw [h] at hsent; cases hsent
        · rw [hexec, if_pos ⟨hpassed, Option.isSome_iff_ne_none.2 hsent⟩]
      · rw [hexec, State.takeVote_stray hparent hstray]
      · rw [State.takeVote_child hparent hchild hnew] at hexec
        exact ⟨_, hexec, State.voteUp_rises f.part _⟩
  case timeout =>
    have hexec := exec_voteTimeout_due hsent hrun hdecided hdue
    obtain ⟨a, ha⟩ : ∃ a, a = s.voteAbort p := ⟨_, rfl⟩
    rw [← ha] at hexec
    have hstep : a.step = (s.getPart p).run.step := by rw [ha]; rfl
    have hgroup : a.group = 0xFFFF := by rw [ha]; rfl
    have hrank : a.rank = (s.getPart p).image.jobGroup.rank a.member := by rw [ha]; rfl
    obtain ⟨e, he⟩ : ∃ e, e = (s.updRun p (Run.voteFailed a)).entry (abortEntry p a) := ⟨_, rfl⟩
    obtain ⟨hkind, hcode, hpart, hseq, h0, h8, -, hB, hC, hD, hE⟩ := abortEntry_fields p a _ e he
    have hfailed := State.voteFailed_getPart hrun a
    have hfailedp := (hfailed p).trans (if_pos rfl)
    refine ⟨_, e, a.member, hexec, State.missingVoter_spec rfl (by rw [ha]; rfl), ?_, fun hnone => ?_, he ▸ State.voteFailed_newest p a s,
      hkind, hcode, hpart, hseq, hstep ▸ h0, by rw [h8, hgroup, Nat.mod_eq_of_lt (by decide)], hB, hC, hD, hrank ▸ hE,
      fun k hk => by rw [hfailed, if_neg hk],
      State.voteFailed_frame p a s⟩
    · rw [hfailedp]; rfl
    · rw [hfailedp, ← hrank]
      simp [Run.voteFailed, hnone]

end Sys2Proof.Machine
end

section
/-! SUPPORT. The form that every step keeps: the parts of a state that it is about, what puts a part in its place, and choices and sequences of
operations. -/

namespace Sys2Proof.Machine

/-- The form that every step keeps, of the parts of the state that it is about: the four memories, the context table, and the lengths of the
STATUS registers, the dies and the half-partner links (R210, R211). -/
def Formed (far store localStore bulk : Mem) (ctx : Tab Ctx) (status die half : Nat) : Prop :=
  (Memory.wf far ∧ Memory.wf store ∧ Memory.wf localStore ∧ Memory.wf bulk) ∧ Tab.wf {} ctx ∧ status = 11 ∧ die = 4 ∧ half = 2

@[simp] theorem formed_iff (s : State) :
    Formed s.far s.store s.localStore s.bulk s.ctx s.irq.status.length s.dies.die.length s.dies.half.length ↔ s.wellFormed := Iff.rfl

/-- The other parts of a state have no say in its form. -/
@[simp] theorem State.wellFormed_mk (pending : List Instr) (out : List Output) (free : Nat) (aon : Aon) (dies : Dies) (test : SelfTest) (tap : Tap)
    (irq : Irq) (pcie : Pcie) (chan : Tab Channel) (bulk : Mem) (admissions : List Admission) (loading : Option Loading) (regulate : List RegSet)
    (waking : List (Nat × Status)) (ctxWaits : List Nat) (part : Tab Partition) (far : Mem) (ctx : Tab Ctx) (frond : Tab Frond) (store : Mem)
    (localStore : Mem) (links : Links) (cmap : Option CMap) (reqId : Nat) (sync : Sync) (anns : Anns) (rate : Rate) (faults : Faults) (mem : MemCtl)
    (dom : Tab Dom) :
    State.wellFormed ⟨pending, out, free, aon, dies, test, tap, irq, pcie, chan, bulk, admissions, loading, regulate, waking, ctxWaits, part, far,
      ctx, frond, store, localStore, links, cmap, reqId, sync, anns, rate, faults, mem, dom⟩ ↔
    Formed far store localStore bulk ctx irq.status.length dies.die.length dies.half.length := Iff.rfl

namespace State.wellFormed

variable {s : State} (hs : s.wellFormed)
include hs

/-! ### The parts of a state in form -/

theorem far : Memory.wf s.far := hs.1.1
theorem store : Memory.wf s.store := hs.1.2.1
theorem localStore : Memory.wf s.localStore := hs.1.2.2.1
theorem bulk : Memory.wf s.bulk := hs.1.2.2.2
theorem ctx : Tab.wf {} s.ctx := hs.2.1
theorem shaped : s.shaped := hs.2.2

/-! ### A part put in its place -/

theorem withFar {m : Mem} (hm : Memory.wf m) : { s with far := m }.wellFormed := ⟨⟨hm, hs.store, hs.localStore, hs.bulk⟩, hs.ctx, hs.shaped⟩

theorem withStore {m : Mem} (hm : Memory.wf m) : { s with store := m }.wellFormed := ⟨⟨hs.far, hm, hs.localStore, hs.bulk⟩, hs.ctx, hs.shaped⟩

theorem withLocalStore {m : Mem} (hm : Memory.wf m) : { s with localStore := m }.wellFormed := ⟨⟨hs.far, hs.store, hm, hs.bulk⟩, hs.ctx, hs.shaped⟩

theorem withBulk {m : Mem} (hm : Memory.wf m) : { s with bulk := m }.wellFormed := ⟨⟨hs.far, hs.store, hs.localStore, hm⟩, hs.ctx, hs.shaped⟩

theorem withCtx {c : Tab Ctx} (hc : Tab.wf {} c) : { s with ctx := c }.wellFormed := ⟨hs.1, hc, hs.shaped⟩

/-- A state whose fronds, far memory and context table were emptied (R44, R210, R400). -/
theorem emptied : { s with far := [], store := [], localStore := [], ctx := [] }.wellFormed :=
  ⟨⟨Tab.wf_nil 0, Tab.wf_nil 0, Tab.wf_nil 0, hs.bulk⟩, Tab.wf_nil _, hs.shaped⟩

end State.wellFormed

theorem State.reset_wellFormed : State.reset.wellFormed :=
  ⟨⟨Tab.wf_nil 0, Tab.wf_nil 0, Tab.wf_nil 0, Tab.wf_nil 0⟩, Tab.wf_nil _, rfl, rfl, rfl⟩

/-! ### Choices and sequences -/

@[simp] theorem State.wellFormed_ite (c : Prop) [Decidable c] (s t : State) :
    (if c then s else t).wellFormed ↔ if c then s.wellFormed else t.wellFormed := by
  split <;> rfl

@[simp] theorem forAll_wellFormed_iff {α : Type} (s : State) (l : List α) {f : α → State → State}
    (hf : ∀ x t, (f x t).wellFormed ↔ t.wellFormed) : (forAll l f s).wellFormed ↔ s.wellFormed := by
  induction l generalizing s with
  | nil => rfl
  | cons x l ih => rw [forAll_cons, ih, hf]

@[simp] theorem forAll_wellFormed {α : Type} {s : State} (hs : s.wellFormed) (l : List α) {f : α → State → State}
    (hf : ∀ x t, t.wellFormed → (f x t).wellFormed) : (forAll l f s).wellFormed :=
  forAll_inv State.wellFormed l f s hs fun x _ => hf x

end Sys2Proof.Machine
end

section
/-! SUPPORT. What the shared operations keep of the form: an equivalence for one that touches neither a memory nor the context table nor a fixed list,
and otherwise that it keeps the form. -/

namespace Sys2Proof.Machine

variable {s : State}

/-! ### Tables, outputs and free values -/

@[simp] theorem State.updPart_wellFormed (p : Nat) (f : Partition → Partition) : (s.updPart p f).wellFormed ↔ s.wellFormed := by
  simp [State.updPart]

@[simp] theorem State.updChan_wellFormed (c : Nat) (f : Channel → Channel) : (s.updChan c f).wellFormed ↔ s.wellFormed := by
  simp [State.updChan]

@[simp] theorem State.updPort_wellFormed (p : Nat) (f : Port → Port) : (s.updPort p f).wellFormed ↔ s.wellFormed := by
  simp [State.updPort]

@[simp] theorem State.updFrond_wellFormed (f : Nat) (g : Frond → Frond) : (s.updFrond f g).wellFormed ↔ s.wellFormed := by
  simp [State.updFrond]

@[simp] theorem State.updCtx_wellFormed (hs : s.wellFormed) (i : Nat) (f : Ctx → Ctx) : (s.updCtx i f).wellFormed :=
  hs.withCtx (Tab.wf_upd i f hs.ctx)

@[simp] theorem State.updWin_wellFormed (w : Nat) (f : Window → Window) : (s.updWin w f).wellFormed ↔ s.wellFormed := by
  simp [State.updWin]

@[simp] theorem State.setDom_wellFormed (d : Nat) (v : Dom) : (s.setDom d v).wellFormed ↔ s.wellFormed := by
  simp [State.setDom]

@[simp] theorem State.emit_wellFormed (o : Output) : (s.emit o).wellFormed ↔ s.wellFormed := by
  simp [State.emit]

@[simp] theorem State.nextFree_wellFormed (s : State) : s.nextFree.wellFormed ↔ s.wellFormed := by
  simp [State.nextFree]

@[simp] theorem State.tick_wellFormed (s : State) : s.tick.wellFormed ↔ s.wellFormed := by
  simp [State.tick]

/-! ### Causes, doorbells, the fault log and fault classes (R384 to R386, R402, R408) -/

@[simp] theorem State.sendMsix_wellFormed (s : State) : s.sendMsix.wellFormed ↔ s.wellFormed := by
  simp [State.sendMsix]

@[simp] theorem State.unmaskMsix_wellFormed (s : State) : s.unmaskMsix.wellFormed ↔ s.wellFormed := by
  simp [State.unmaskMsix]

@[simp] theorem State.settle_wellFormed (s : State) : s.settle.wellFormed ↔ s.wellFormed := by
  simp [State.settle]

@[simp] theorem State.raise_wellFormed (c : Cause) : (s.raise c).wellFormed ↔ s.wellFormed := by
  simp [State.raise]

@[simp] theorem State.ringHost_wellFormed (ch bit : Nat) : (s.ringHost ch bit).wellFormed ↔ s.wellFormed := by
  simp [State.ringHost]

@[simp] theorem State.log_wellFormed (a : LogArgs) : (s.log a).wellFormed ↔ s.wellFormed := by
  simp [State.log]

@[simp] theorem State.odpSend_wellFormed (r : Nat) (m : OdpMsg) : (s.odpSend r m).wellFormed ↔ s.wellFormed := by
  simp [State.odpSend]

@[simp] theorem State.odpResume_wellFormed (r : Nat) : (s.odpResume r).wellFormed ↔ s.wellFormed := by
  simp [State.odpResume]

@[simp] theorem State.updUnit_wellFormed (c u : Nat) (f : FaultUnit → FaultUnit) : (s.updUnit c u f).wellFormed ↔ s.wellFormed := by
  simp [State.updUnit]

@[simp] theorem State.lastingOutcome_wellFormed (c u lane : Nat) : (s.lastingOutcome c u lane).wellFormed ↔ s.wellFormed := by
  simp [State.lastingOutcome]

@[simp] theorem State.trainRepair_wellFormed (u : Nat) : (s.trainRepair u).wellFormed ↔ s.wellFormed := by
  simp [State.trainRepair]

@[simp] theorem State.faultEvent_wellFormed (c u lane addr : Nat) : (s.faultEvent c u lane addr).wellFormed ↔ s.wellFormed := by
  simp [State.faultEvent]

/-! ### Ports and flits (R219 to R238) -/

@[simp] theorem State.portEv_wellFormed (p k n : Nat) : (s.portEv p k n).wellFormed ↔ s.wellFormed := by
  simp [State.portEv]

@[simp] theorem State.sendLane_wellFormed (p lane : Nat) (fs : List Flit) : (s.sendLane p lane fs).wellFormed ↔ s.wellFormed := by
  simp [State.sendLane]

@[simp] theorem State.sendStream_wellFormed (p : Nat) (fs : List Flit) : (s.sendStream p fs).wellFormed ↔ s.wellFormed := by
  simp [State.sendStream]

@[simp] theorem State.flowCheck_wellFormed (p k : Nat) : (s.flowCheck p k).wellFormed ↔ s.wellFormed := by
  simp [State.flowCheck]

@[simp] theorem State.takeRx_wellFormed (p : Nat) (f : Frame) : (s.takeRx p f).wellFormed ↔ s.wellFormed := by
  simp [State.takeRx]

@[simp] theorem State.collProgress_wellFormed (f : Frame) : (s.collProgress f).wellFormed ↔ s.wellFormed := by
  fun_cases State.collProgress <;> simp

@[simp] theorem State.sendFlit_wellFormed (p ftype vl dl : Nat) (first last : Bool) (payload : List Byte) :
    (s.sendFlit p ftype vl dl first last payload).wellFormed ↔ s.wellFormed := by
  simp [State.sendFlit]

@[simp] theorem State.sendDataFlits_wellFormed (p : Nat) (f : Frame) (bytes : List Byte) (n k : Nat) :
    (State.sendDataFlits p f bytes n k s).wellFormed ↔ s.wellFormed := by
  induction k generalizing s with
  | zero => rfl
  | succ k ih => rw [State.sendDataFlits, ih, State.sendFlit_wellFormed]

@[simp] theorem State.sendFrame_wellFormed (p : Nat) (f : Frame) : (s.sendFrame p f).wellFormed ↔ s.wellFormed := by
  simp [State.sendFrame]

/-! ### Routing and windows (R239 to R262) -/

@[simp] theorem State.enqueue_wellFormed (p : Nat) (f : Frame) : (s.enqueue p f).wellFormed ↔ s.wellFormed := by
  fun_cases State.enqueue <;> simp

@[simp] theorem State.inject_wellFormed (f : Frame) : (s.inject f).wellFormed ↔ s.wellFormed := by
  fun_cases State.inject <;> simp

@[simp] theorem State.forward_wellFormed (inPort : Nat) (f : Frame) : (s.forward inPort f).wellFormed ↔ s.wellFormed := by
  fun_cases State.forward <;> simp

@[simp] theorem State.sendTwin_wellFormed (f : Frame) : (s.sendTwin f).wellFormed ↔ s.wellFormed := by
  simp [State.sendTwin]

@[simp] theorem State.sendHop_wellFormed (p : Nat) (f : Frame) : (s.sendHop p f).wellFormed ↔ s.wellFormed := by
  simp [State.sendHop]

theorem State.bindWin_wellFormed {p : Nat} {d : Coord} {i : Option Nat} {t : State} (hr : s.bindWin p d = (i, t)) : t.wellFormed ↔ s.wellFormed := by
  obtain rfl : (s.bindWin p d).2 = t := by rw [hr]
  fun_cases State.bindWin <;> simp +zetaDelta

@[simp] theorem State.sendInWin_wellFormed (i : Nat) (f : Frame) : (s.sendInWin i f).wellFormed ↔ s.wellFormed := by
  simp [State.sendInWin]

@[simp] theorem State.updServe_wellFormed (p : Nat) (f : Serve → Serve) : (s.updServe p f).wellFormed ↔ s.wellFormed := by
  simp [State.updServe]

@[simp] theorem State.sendWindowed_wellFormed (p : Nat) (f : Frame) : (s.sendWindowed p f).wellFormed ↔ s.wellFormed := by
  fun_cases State.sendWindowed with
  | case1 => simp
  | case2 _ i t hb => simp [State.bindWin_wellFormed hb]
  | case3 _ t hb => simp [State.bindWin_wellFormed hb]

@[simp] theorem State.retryWaiting_wellFormed (p : Nat) : (s.retryWaiting p).wellFormed ↔ s.wellFormed := by
  simp [State.retryWaiting]

@[simp] theorem State.releaseWins_wellFormed (p : Nat) : (s.releaseWins p).wellFormed ↔ s.wellFormed := by
  simp [State.releaseWins]

@[simp] theorem State.gatherCredit_wellFormed (f : Frame) : (s.gatherCredit f).wellFormed ↔ s.wellFormed := by
  simp [State.gatherCredit]

@[simp] theorem State.discardArrived_wellFormed (p k : Nat) (f : Frame) : (s.discardArrived p k f).wellFormed ↔ s.wellFormed := by
  simp [State.discardArrived]

theorem State.arrives_wellFormed {p : Nat} {f : Frame} {b : Bool} {t : State} (hr : s.arrives p f = (b, t)) : t.wellFormed ↔ s.wellFormed := by
  obtain rfl : (s.arrives p f).2 = t := by rw [hr]
  fun_cases State.arrives <;> simp +zetaDelta

/-! ### Fronds, tokens and halts (R77, R127, R130) -/

@[simp] theorem State.fsWrite_wellFormed (hs : s.wellFormed) (f a : Nat) (bs : List Byte) : (s.fsWrite f a bs).wellFormed :=
  hs.withStore (Mem.wf_writeN _ bs hs.store)

@[simp] theorem State.fsPut_wellFormed (hs : s.wellFormed) (f a : Nat) (w : Word) : (s.fsPut f a w).wellFormed := by
  simp [State.fsPut, hs]

@[simp] theorem State.clearGroup_wellFormed (hs : s.wellFormed) (g : Nat) : (s.clearGroup g).wellFormed := by
  unfold State.clearGroup
  refine forAll_wellFormed hs _ fun f t ht => ?_
  have hu := (State.updFrond_wellFormed f (fun _ => {})).2 ht
  exact (hu.withStore (Mem.wf_zero _ _ hu.store)).withLocalStore (Mem.wf_zero _ _ hu.localStore)

@[simp] theorem State.countToken_wellFormed (f t : Nat) : (s.countToken f t).wellFormed ↔ s.wellFormed := by
  simp [State.countToken]

@[simp] theorem State.setWait_wellFormed (f w : Nat) (x : Option Wait) : (s.setWait f w x).wellFormed ↔ s.wellFormed := by
  simp [State.setWait]

@[simp] theorem State.updRun_wellFormed (p : Nat) (g : Run → Run) : (s.updRun p g).wellFormed ↔ s.wellFormed := by
  simp [State.updRun]

@[simp] theorem State.haltDue_wellFormed (p : Nat) (st : Status) : (s.haltDue p st).wellFormed ↔ s.wellFormed := by
  simp [State.haltDue]

@[simp] theorem State.haltAllDue_wellFormed (st : Status) (unitKind unit : Nat) : (s.haltAllDue st unitKind unit).wellFormed ↔ s.wellFormed := by
  simp [State.haltAllDue]

@[simp] theorem State.frondFault_wellFormed (f unit source slot pinnule offset : Nat) :
    (s.frondFault f unit source slot pinnule offset).wellFormed ↔ s.wellFormed := by
  simp [State.frondFault]

@[simp] theorem State.setPc_wellFormed (f p offset : Nat) : (s.setPc f p offset).wellFormed ↔ s.wellFormed := by
  simp [State.setPc]

@[simp] theorem State.unitFault_wellFormed (f unit w : Nat) : (s.unitFault f unit w).wellFormed ↔ s.wellFormed := by
  simp [State.unitFault]

@[simp] theorem State.wardenFault_wellFormed (f w : Nat) : (s.wardenFault f w).wellFormed ↔ s.wellFormed := by
  simp [State.wardenFault]

@[simp] theorem State.recordIssue_wellFormed (p es : Nat) : (s.recordIssue p es).wellFormed ↔ s.wellFormed := by
  simp [State.recordIssue]

@[simp] theorem State.noteVote_wellFormed (p : Nat) : (s.noteVote p).wellFormed ↔ s.wellFormed := by
  simp [State.noteVote]

@[simp] theorem State.commitBy_wellFormed (p f w es : Nat) : (s.commitBy p f w es).wellFormed ↔ s.wellFormed := by
  simp [State.commitBy]

@[simp] theorem State.wakeWarden_wellFormed (f w : Nat) : (s.wakeWarden f w).wellFormed ↔ s.wellFormed := by
  fun_cases State.wakeWarden <;> simp

@[simp] theorem State.wakeFrond_wellFormed (f : Nat) : (s.wakeFrond f).wellFormed ↔ s.wellFormed := by
  simp [State.wakeFrond]

@[simp] theorem State.raiseToken_wellFormed (f t : Nat) : (s.raiseToken f t).wellFormed ↔ s.wellFormed := by
  simp [State.raiseToken]

@[simp] theorem State.frondCount_wellFormed (f k n : Nat) : (s.frondCount f k n).wellFormed ↔ s.wellFormed := by
  simp [State.frondCount]

@[simp] theorem State.contend_wellFormed (f k : Nat) : (s.contend f k).wellFormed ↔ s.wellFormed := by
  simp [State.contend]

/-! ### The mailbox (R364 to R371, R391) -/

@[simp] theorem State.emits_wellFormed (os : List Output) : (s.emits os).wellFormed ↔ s.wellFormed := by
  simp [State.emits]

@[simp] theorem State.ringRecord_wellFormed (ch rtype : Nat) (src : Coord) (srcPart : Nat) (payload : List Byte) :
    (s.ringRecord ch rtype src srcPart payload).wellFormed ↔ s.wellFormed := by
  simp [State.ringRecord]

@[simp] theorem State.replyFrame_wellFormed (h : Held) (st : Status) (final : Bool) (words : List Nat) (rcd : List Byte) :
    (s.replyFrame h st final words rcd).wellFormed ↔ s.wellFormed := by
  fun_cases State.replyFrame <;> simp

@[simp] theorem State.writeRecord_wellFormed (hs : s.wellFormed) (ch : Nat) (h : Held) (rcd : List Byte) : (s.writeRecord ch h rcd).wellFormed := by
  fun_cases State.writeRecord with
  | case1 => exact hs
  | case2 => simp [hs]
  | case3 => exact hs.withBulk (Mem.wf_writeN _ rcd hs.bulk)

@[simp] theorem State.finish_wellFormed (hs : s.wellFormed) (ch : Nat) (st : Status) (words : List Nat) (rcd : List Byte) :
    (s.finish ch st words rcd).wellFormed := by
  fun_cases State.finish <;> simp +zetaDelta [hs]

@[simp] theorem State.accept_wellFormed (ch : Nat) : (s.accept ch).wellFormed ↔ s.wellFormed := by
  fun_cases State.accept <;> simp +zetaDelta

@[simp] theorem State.answer_wellFormed (hs : s.wellFormed) (ch : Nat) (st : Status) (words : List Nat) : (s.answer ch st words).wellFormed := by
  simp [State.answer, hs]

@[simp] theorem State.markStepped_wellFormed (ch : Nat) : (s.markStepped ch).wellFormed ↔ s.wellFormed := by
  simp [State.markStepped]

@[simp] theorem State.conflict_wellFormed (hs : s.wellFormed) (ch : Nat) (w : Winner) : (s.conflict ch w).wellFormed := by
  simp [State.conflict, hs]

@[simp] theorem State.dropPolicy_wellFormed (ch : Nat) : (s.dropPolicy ch).wellFormed ↔ s.wellFormed := by
  simp [State.dropPolicy]

@[simp] theorem State.notePolicy_wellFormed (ch : Nat) (h : Held) : (s.notePolicy ch h).wellFormed ↔ s.wellFormed := by
  fun_cases State.notePolicy <;> simp

@[simp] theorem State.forwardCommand_wellFormed (hs : s.wellFormed) (ch : Nat) (h : Held) (b : List Byte) : (s.forwardCommand ch h b).wellFormed := by
  simp [State.forwardCommand, hs]

@[simp] theorem State.runCommand_wellFormed (hs : s.wellFormed) (op ch : Nat) {own : Held → List Byte → State → State}
    (ho : ∀ h b, (own h b s).wellFormed) : (s.runCommand op ch own).wellFormed := by
  fun_cases State.runCommand <;> simp [hs, ho]

/-! ### Switched domains (R336 to R340) -/

@[simp] theorem State.domLoses_wellFormed (hs : s.wellFormed) (d : Nat) : (s.domLoses d).wellFormed := by
  fun_cases State.domLoses with
  | case1 => simp [hs]
  | case2 => exact hs.withCtx (Tab.wf_nil _)
  | case3 => exact hs

@[simp] theorem State.switchDom_wellFormed (hs : s.wellFormed) (d : Nat) (goal : Dom) : (s.switchDom d goal).wellFormed := by
  fun_cases State.switchDom <;> simp [hs]

@[simp] theorem State.switchDomains_wellFormed (hs : s.wellFormed) : s.switchDomains.wellFormed := by
  simp +contextual [State.switchDomains, hs]

@[simp] theorem State.domsAfterTest_wellFormed (s : State) : s.domsAfterTest.wellFormed ↔ s.wellFormed := by
  simp [State.domsAfterTest]

@[simp] theorem State.wakeDone_wellFormed (d : Nat) : (s.wakeDone d).wellFormed ↔ s.wellFormed := by
  fun_cases State.wakeDone <;> simp

@[simp] theorem State.startWake_wellFormed (hs : s.wellFormed) : s.startWake.wellFormed := by
  simp [State.startWake, hs]

@[simp] theorem State.answerAfterWake_wellFormed (hs : s.wellFormed) (ch : Nat) (st : Status) : (s.answerAfterWake ch st).wellFormed := by
  fun_cases State.answerAfterWake with
  | case1 => simp [hs]
  | case2 => exact (State.accept_wellFormed ..).2 (State.startWake_wellFormed hs)

@[simp] theorem State.domsBack_wellFormed (s : State) : s.domsBack.wellFormed ↔ s.wellFormed := by
  simp [State.domsBack]

@[simp] theorem State.parkedWakeDone_wellFormed (hs : s.wellFormed) : s.parkedWakeDone.wellFormed := by
  simp +contextual [State.parkedWakeDone, hs]

@[simp] theorem State.parkedEntry_wellFormed (hs : s.wellFormed) : s.parkedEntry.wellFormed := by
  simp [State.parkedEntry, hs]

/-! ### Registers (R372, R384 to R389) -/

@[simp] theorem State.latch_wellFormed (hs : s.wellFormed) (ch : Nat) (host : HostRead) : (s.latch ch host).wellFormed := by
  simp [State.latch, hs]

@[simp] theorem State.go_wellFormed (hs : s.wellFormed) (ch : Nat) (host : HostRead) : (s.go ch host).wellFormed := by
  fun_cases State.go <;> simp [hs]

@[simp] theorem State.writeBlock_wellFormed (hs : s.wellFormed) (ch o : Nat) (v : Word) (host : HostRead) :
    (s.writeBlock ch o v host).wellFormed := by
  simp [State.writeBlock, hs]

@[simp] theorem State.regWrite_wellFormed (hs : s.wellFormed) (a : RegAccess) (v : Word) (host : HostRead) : (s.regWrite a v host).wellFormed := by
  fun_cases State.regWrite with
  | case5 c b => exact hs.withBulk (Mem.wf_writeN _ _ hs.bulk)
  | _ => simp [hs]

@[simp] theorem State.ringRxpost_wellFormed (a : RegAccess) (v : Word) : (s.ringRxpost a v).wellFormed ↔ s.wellFormed := by
  fun_cases State.ringRxpost <;> simp

@[simp] theorem State.dbClear_wellFormed (a : RegAccess) (v : Word) : (s.dbClear a v).wellFormed ↔ s.wellFormed := by
  fun_cases State.dbClear <;> simp

@[simp] theorem State.rxTailWrite_wellFormed (a : RegAccess) (v : Word) (buffers : List Nat) :
    (s.rxTailWrite a v buffers).wellFormed ↔ s.wellFormed := by
  fun_cases State.rxTailWrite <;> simp

@[simp] theorem State.rxCtrlWrite_wellFormed (a : RegAccess) (v : Word) : (s.rxCtrlWrite a v).wellFormed ↔ s.wellFormed := by
  fun_cases State.rxCtrlWrite <;> simp

@[simp] theorem State.rxDropRead_wellFormed (a : RegAccess) : (s.rxDropRead a).wellFormed ↔ s.wellFormed := by
  fun_cases State.rxDropRead <;> simp +zetaDelta

end Sys2Proof.Machine
end

section
/-! SUPPORT. What contexts, halts, partitions, the units of a frond and collectives keep of the form. -/

namespace Sys2Proof.Machine

variable {s : State}

/-! ### Contexts and batches (R307 to R332) -/

@[simp] theorem State.serveCount_wellFormed (p k n : Nat) : (s.serveCount p k n).wellFormed ↔ s.wellFormed := by
  simp [State.serveCount]

@[simp] theorem State.serveTo_wellFormed (p : Nat) (host : Bool) (dst : Coord) (dstPart : Nat) (rcd : List Byte) :
    (s.serveTo p host dst dstPart rcd).wellFormed ↔ s.wellFormed := by
  simp [State.serveTo]

@[simp] theorem State.rejectEntry_wellFormed (p i : Nat) (r : Reject) : (s.rejectEntry p i r).wellFormed ↔ s.wellFormed := by
  simp [State.rejectEntry]

@[simp] theorem State.freeCtx_wellFormed (hs : s.wellFormed) (i : Nat) : (s.freeCtx i).wellFormed := by
  simp [State.freeCtx, hs]

@[simp] theorem State.reopen_wellFormed (hs : s.wellFormed) (i : Nat) : (s.reopen i).wellFormed := by
  simp [State.reopen, hs]

@[simp] theorem State.takeRecord_wellFormed (hs : s.wellFormed) (p f addr token : Nat) : (s.takeRecord p f addr token).wellFormed := by
  fun_cases State.takeRecord <;> simp [hs]

@[simp] theorem State.takeBatch_wellFormed (hs : s.wellFormed) (p f addr token : Nat) : (s.takeBatch p f addr token).wellFormed := by
  fun_cases State.takeBatch <;> simp [hs]

@[simp] theorem State.wakeReader_wellFormed (hs : s.wellFormed) (f w : Nat) : (s.wakeReader f w).wellFormed := by
  fun_cases State.wakeReader <;> simp [hs]

@[simp] theorem State.wakeReaders_wellFormed (hs : s.wellFormed) (p : Nat) : (s.wakeReaders p).wellFormed :=
  forAll_wellFormed hs _ fun f _ ht => forAll_wellFormed ht _ fun w _ hu => State.wakeReader_wellFormed hu f w

@[simp] theorem State.setForming_wellFormed (p w : Nat) (rows : List Nat) : (s.setForming p w rows).wellFormed ↔ s.wellFormed := by
  simp [State.setForming]

@[simp] theorem State.seal_wellFormed (hs : s.wellFormed) (p w : Nat) (rows : List Nat) (full : Bool) : (s.seal p w rows full).wellFormed := by
  have hrows := forAll_wellFormed hs rows (f := fun i s => s.updCtx i fun c => { c with state := .batched })
    fun i _ ht => State.updCtx_wellFormed ht i _
  simp [State.seal, hrows]

@[simp] theorem State.sealFull_wellFormed (hs : s.wellFormed) (p w n : Nat) : (State.sealFull p w n s).wellFormed := by
  induction n generalizing s with
  | zero => exact hs
  | succ n ih =>
    rw [State.sealFull]
    split
    · exact ih (by simp [hs])
    · exact hs

@[simp] theorem State.sealDue_wellFormed (hs : s.wellFormed) (p w deadlineUs : Nat) : (s.sealDue p w deadlineUs).wellFormed := by
  simp [State.sealDue, hs]

@[simp] theorem State.sealDues_wellFormed (hs : s.wellFormed) (p : Nat) : (s.sealDues p).wellFormed := by
  simp +contextual [State.sealDues, hs]

@[simp] theorem State.waitTable_wellFormed (hs : s.wellFormed) (ch : Nat) : (s.waitTable ch).wellFormed := by
  simp [State.waitTable, hs]

@[simp] theorem State.openCtx_wellFormed (hs : s.wellFormed) (ch p : Nat) (b : List Byte) : (s.openCtx ch p b).wellFormed := by
  simp [State.openCtx, hs]

@[simp] theorem State.ctxOpenOwn_wellFormed (hs : s.wellFormed) (ch : Nat) (h : Held) (b : List Byte) : (s.ctxOpenOwn ch h b).wellFormed := by
  simp [State.ctxOpenOwn, hs]

@[simp] theorem State.uncount_wellFormed (p i : Nat) : (s.uncount p i).wellFormed ↔ s.wellFormed := by
  simp [State.uncount]

@[simp] theorem State.ctxCloseOwn_wellFormed (hs : s.wellFormed) (ch : Nat) (h : Held) (b : List Byte) : (s.ctxCloseOwn ch h b).wellFormed := by
  have hsw {t : State} (ht : t.wellFormed) (i : Nat) : (t.freeCtx i).switchDomains.wellFormed := by simp [ht]
  fun_cases State.ctxCloseOwn <;> simp +zetaDelta [hs, hsw]

@[simp] theorem State.tableAwake_wellFormed (hs : s.wellFormed) : s.tableAwake.wellFormed := by
  unfold State.tableAwake
  split
  · refine State.switchDomains_wellFormed (forAll_wellFormed (by simp [hs]) _ fun ch t ht => ?_)
    split
    · split <;> simp [ht]
    · exact ht
  · exact hs

@[simp] theorem State.ctxQuotaOwn_wellFormed (hs : s.wellFormed) (ch : Nat) (h : Held) (b : List Byte) : (s.ctxQuotaOwn ch h b).wellFormed := by
  simp [State.ctxQuotaOwn, hs]

@[simp] theorem State.policySeal_wellFormed (hs : s.wellFormed) (p w oldUs : Nat) : (s.policySeal p w oldUs).wellFormed := by
  have hfull := State.sealFull_wellFormed hs p w (s.formingOf p w).length
  simp [State.policySeal, hfull]

@[simp] theorem State.batchPolicyOwn_wellFormed (hs : s.wellFormed) (ch : Nat) (h : Held) (b : List Byte) : (s.batchPolicyOwn ch h b).wellFormed := by
  fun_cases State.batchPolicyOwn with
  | case1 => simp [hs]
  | case2 =>
    refine State.answer_wellFormed (forAll_wellFormed ?_ _ fun w _ ht => State.policySeal_wellFormed ht _ w _) ch _ _
    simp +zetaDelta [hs]

@[simp] theorem State.commandsFirst_wellFormed (hs : s.wellFormed) (p : Nat) : (s.commandsFirst p).wellFormed := by
  refine forAll_wellFormed hs _ fun ch t ht => ?_
  split
  · simp [ht]
  · exact ht

@[simp] theorem State.batchSealDeadline_wellFormed (hs : s.wellFormed) (p : Nat) : (s.batchSealDeadline p).wellFormed := by
  simp [State.batchSealDeadline, hs]

@[simp] theorem State.sealBefore_wellFormed (hs : s.wellFormed) (p w : Nat) : (s.sealBefore p w).wellFormed := by
  simp [State.sealBefore, hs]

@[simp] theorem State.stepReq_wellFormed (hs : s.wellFormed) (p : Nat) (host : Bool) (src : Coord) (srcPart : Nat) (rcd : List Byte) :
    (s.stepReq p host src srcPart rcd).wellFormed := by
  fun_cases State.stepReq with
  | case5 =>
    refine State.sealFull_wellFormed ?_ ..
    simp +zetaDelta [hs]
  | _ => simp +zetaDelta [hs]

@[simp] theorem State.inboxPut_wellFormed (hs : s.wellFormed) (p : Nat) (rcd : List Byte) : (s.inboxPut p rcd).wellFormed := by
  simp [State.inboxPut, hs]

@[simp] theorem State.serveFrame_wellFormed (hs : s.wellFormed) (port : Nat) (f : Frame) : (s.serveFrame port f).wellFormed := by
  unfold State.serveFrame
  split
  · exact hs
  split
  · exact hs
  split <;> next ha =>
    have ht := (State.arrives_wellFormed ha).2 hs
    (repeat' split) <;> simp [ht]

@[simp] theorem State.submitPass_wellFormed (hs : s.wellFormed) (ch : Nat) (rs : List HostRead) : (State.submitPass ch rs s).wellFormed := by
  induction rs generalizing s with
  | nil => simpa [State.submitPass] using hs
  | cons r rs ih =>
    unfold State.submitPass
    (repeat' split) <;> simp [hs, ih]

@[simp] theorem State.takeSubmit_wellFormed (hs : s.wellFormed) (c : Nat) (records : List HostRead) : (s.takeSubmit c records).wellFormed := by
  fun_cases State.takeSubmit <;> simp +zetaDelta [hs]

@[simp] theorem State.ringSubmit_wellFormed (hs : s.wellFormed) (a : RegAccess) (v : Word) (records : List HostRead) :
    (s.ringSubmit a v records).wellFormed := by
  fun_cases State.ringSubmit <;> simp +zetaDelta [hs]

@[simp] theorem State.unmaskSubmit_wellFormed (hs : s.wellFormed) (a : RegAccess) (records : List HostRead) :
    (s.unmaskSubmit a records).wellFormed := by
  fun_cases State.unmaskSubmit <;> simp [hs]

@[simp] theorem State.svRecv_wellFormed (hs : s.wellFormed) (f w addr token : Nat) : (s.svRecv f w addr token).wellFormed := by
  fun_cases State.svRecv <;> simp [hs]

@[simp] theorem State.svSend_wellFormed (f w : Nat) (dst : Coord) (dstPart addr : Nat) :
    (s.svSend f w dst dstPart addr).wellFormed ↔ s.wellFormed := by
  fun_cases State.svSend <;> simp

@[simp] theorem State.fbSend_wellFormed (f w : Nat) (dst : Coord) (dstPart addr length : Nat) :
    (s.fbSend f w dst dstPart addr length).wellFormed ↔ s.wellFormed := by
  fun_cases State.fbSend <;> simp

@[simp] theorem State.batchTake_wellFormed (hs : s.wellFormed) (f w addr token : Nat) : (s.batchTake f w addr token).wellFormed := by
  fun_cases State.batchTake <;> simp [hs]

@[simp] theorem State.batchRowDone_wellFormed (hs : s.wellFormed) (p : Nat) (row : BatchRow) (res : Nat) : (s.batchRowDone p row res).wellFormed := by
  unfold State.batchRowDone
  extract_lets i c toPeat bad s1 s2 s3
  have h1 : s1.wellFormed := by simp [s1, hs]
  have h2 : s2.wellFormed := by simp [s2, h1]
  have h3 : s3.wellFormed := by simp [s3, h2]
  split
  · simp [h3]
  · simp [h2]
  · exact h2

@[simp] theorem State.completeBatch_wellFormed (hs : s.wellFormed) (p f addr : Nat) (b : Batch) : (s.completeBatch p f addr b).wellFormed := by
  have hrows := forAll_wellFormed hs ((List.range b.rows.length).zip b.rows)
    (f := fun x s => s.batchRowDone p x.2 (leNat (s.fsRead f (addr + 8 * x.1) 8))) fun x _ ht => State.batchRowDone_wellFormed ht ..
  simp [State.completeBatch, hrows]

@[simp] theorem State.batchDone_wellFormed (hs : s.wellFormed) (f w seq addr : Nat) : (s.batchDone f w seq addr).wellFormed := by
  fun_cases State.batchDone <;> simp +zetaDelta [hs]

@[simp] theorem State.abandonBatches_wellFormed (hs : s.wellFormed) (p : Nat) : (s.abandonBatches p).wellFormed := by
  refine (State.updServe_wellFormed ..).2 (forAll_wellFormed (forAll_wellFormed hs _ fun b t ht => ?_) _ fun i _ ht => ?_)
  · refine (State.serveCount_wellFormed ..).2 (forAll_wellFormed ht _ fun r u hu => ?_)
    split <;> simp [hu]
  · simp [ht]

@[simp] theorem State.closeAllCtx_wellFormed (hs : s.wellFormed) (p : Nat) : (s.closeAllCtx p).wellFormed := by
  refine forAll_wellFormed hs _ fun i t ht => ?_
  simp [ht]

@[simp] theorem State.creditFrame_wellFormed (hs : s.wellFormed) (port : Nat) (f : Frame) : (s.creditFrame port f).wellFormed := by
  unfold State.creditFrame
  split
  · exact hs
  split <;> next ha =>
    have ht := (State.arrives_wellFormed ha).2 hs
    simp [ht]

@[simp] theorem State.creditSend_wellFormed (src : Coord) : (s.creditSend src).wellFormed ↔ s.wellFormed := by
  fun_cases State.creditSend <;> simp +zetaDelta

@[simp] theorem State.windowTimeout_wellFormed (p i : Nat) : (s.windowTimeout p i).wellFormed ↔ s.wellFormed := by
  simp [State.windowTimeout]

@[simp] theorem State.fallbackFrame_wellFormed (port : Nat) (f : Frame) : (s.fallbackFrame port f).wellFormed ↔ s.wellFormed := by
  fun_cases State.fallbackFrame with
  | case1 => rfl
  | case2 _ t ha => exact State.arrives_wellFormed ha
  | case3 _ t ha => simp [State.arrives_wellFormed ha]

/-! ### Halts and Safe Listen (R127, R400) -/

@[simp] theorem State.haltNow_wellFormed (hs : s.wellFormed) (p : Nat) (st : Status) : (s.haltNow p st).wellFormed := by
  simp [State.haltNow, hs]

@[simp] theorem State.patternHaltEffect_wellFormed (hs : s.wellFormed) (p : Nat) : (s.patternHaltEffect p).wellFormed := by
  fun_cases State.patternHaltEffect <;> simp [hs]

@[simp] theorem State.enterSafeListen_wellFormed (hs : s.wellFormed) : s.enterSafeListen.wellFormed := by
  unfold State.enterSafeListen
  extract_lets s1 s2 _ _ _ _ _ s3
  have h1 : s1.wellFormed := by simp +contextual [s1, hs]
  have h2 : s2.wellFormed := forAll_wellFormed h1 _ fun c t ht => by split <;> simp [ht]
  have h3 : s3.wellFormed := by
    clear_value s2
    exact (State.wellFormed_mk ..).2 h2.emptied
  simp [h3]

@[simp] theorem State.logSafeListen_wellFormed (reason unitKind unit : Nat) : (s.logSafeListen reason unitKind unit).wellFormed ↔ s.wellFormed := by
  simp [State.logSafeListen]

@[simp] theorem State.testFail_wellFormed (hs : s.wellFormed) (reason unitKind unit : Nat) : (s.testFail reason unitKind unit).wellFormed := by
  simp [State.testFail, hs]

@[simp] theorem State.tripOrRail_wellFormed (hs : s.wellFormed) (reason unitKind unit : Nat) : (s.tripOrRail reason unitKind unit).wellFormed := by
  fun_cases State.tripOrRail <;> simp +zetaDelta [hs]

/-! ### Partitions (R209, R378, R380) -/

@[simp] theorem State.toDies_wellFormed (m : Ctl) : (s.toDies m).wellFormed ↔ s.wellFormed := by
  simp [State.toDies]

@[simp] theorem State.partCreateOwn_wellFormed (hs : s.wellFormed) (ch : Nat) (h : Held) (b : List Byte) : (s.partCreateOwn ch h b).wellFormed := by
  unfold State.partCreateOwn
  dsimp only
  (repeat' split) <;> simp [hs]

@[simp] theorem State.fillPart_wellFormed (hs : s.wellFormed) (p : Nat) : (s.fillPart p).wellFormed :=
  forAll_wellFormed (hs.withFar (Mem.wf_zero _ _ (Mem.wf_zero _ _ (Mem.wf_zero _ _ hs.far)))) _ fun g _ ht => State.clearGroup_wellFormed ht g

@[simp] theorem State.partCreateFillDone_wellFormed (hs : s.wellFormed) (p : Nat) : (s.partCreateFillDone p).wellFormed := by
  simp [State.partCreateFillDone, hs]

@[simp] theorem State.partDestroyOwn_wellFormed (hs : s.wellFormed) (ch : Nat) (h : Held) : (s.partDestroyOwn ch h).wellFormed := by
  unfold State.partDestroyOwn
  extract_lets p u
  have hu : u.wellFormed := by simp [u, hs]
  split <;> simp [hs, hu]

/-! ### Errors of far memory (R201 to R204) -/

@[simp] theorem State.memCe_wellFormed (u : MemUnit) : (s.memCe u).wellFormed ↔ s.wellFormed := by
  fun_cases State.memCe <;> simp

@[simp] theorem State.memUe_wellFormed (u : MemUnit) (addr : Nat) : (s.memUe u addr).wellFormed ↔ s.wellFormed := by
  fun_cases State.memUe <;> simp

@[simp] theorem State.memEvent_wellFormed (e : MemEvent) : (s.memEvent e).wellFormed ↔ s.wellFormed := by
  fun_cases State.memEvent <;> simp

@[simp] theorem State.memEvents_wellFormed (es : List MemEvent) : (s.memEvents es).wellFormed ↔ s.wellFormed := by
  simp [State.memEvents]

@[simp] theorem State.setMem_wellFormed (p : Nat) : (s.setMem p).wellFormed ↔ s.wellFormed := by
  simp [State.setMem]

/-! ### The matrix array (R45 to R58) -/

@[simp] theorem State.seenAt_wellFormed (hs : s.wellFormed) (f cycle : Nat) : (s.seenAt f cycle).wellFormed := by
  simp +contextual [State.seenAt, hs]

@[simp] theorem State.startLoad_wellFormed (f cycle : Nat) (a : AloadArgs) : (s.startLoad f cycle a).wellFormed ↔ s.wellFormed := by
  simp [State.startLoad]

@[simp] theorem State.goLoad_wellFormed (f w cycle : Nat) (a : AloadArgs) : (s.goLoad f w cycle a).wellFormed ↔ s.wellFormed := by
  simp [State.goLoad]

@[simp] theorem State.aload_wellFormed (f w cycle : Nat) (a : AloadArgs) : (s.aload f w cycle a).wellFormed ↔ s.wellFormed := by
  fun_cases State.aload <;> simp

@[simp] theorem State.toggle_wellFormed (f cycle : Nat) : (s.toggle f cycle).wellFormed ↔ s.wellFormed := by
  simp [State.toggle]

@[simp] theorem State.swap_wellFormed (f w cycle : Nat) : (s.swap f w cycle).wellFormed ↔ s.wellFormed := by
  fun_cases State.swap <;> simp +zetaDelta

@[simp] theorem State.wakeArray_wellFormed (f w cycle : Nat) : (s.wakeArray f w cycle).wellFormed ↔ s.wellFormed := by
  fun_cases State.wakeArray <;> simp

@[simp] theorem State.aloadRowResume_wellFormed (f cycle : Nat) : (s.aloadRowResume f cycle).wellFormed ↔ s.wellFormed := by
  fun_cases State.aloadRowResume <;> simp

@[simp] theorem State.passRow_wellFormed (hs : s.wellFormed) (f bank cycle : Nat) (a : AstreamArgs) (fed : List Byte) (m : Nat) :
    (s.passRow f bank cycle a fed m).wellFormed := by
  simp [State.passRow, hs]

@[simp] theorem State.passRows_wellFormed (hs : s.wellFormed) (f bank cycle : Nat) (a : AstreamArgs) (fed : List Byte) :
    (s.passRows f bank cycle a fed).wellFormed := by
  simp +contextual [State.passRows, hs]

@[simp] theorem State.raiseOpt_wellFormed (f : Nat) (t : Option Nat) : (s.raiseOpt f t).wellFormed ↔ s.wellFormed := by
  fun_cases State.raiseOpt <;> simp

@[simp] theorem State.enterPass_wellFormed (hs : s.wellFormed) (f cycle : Nat) (a : AstreamArgs) (fed : List Byte) :
    (s.enterPass f cycle a fed).wellFormed := by
  simp [State.enterPass, hs]

@[simp] theorem State.issuePass_wellFormed (hs : s.wellFormed) (f w cycle : Nat) (r : FrondRec) (a : AstreamArgs) {enter : State → State}
    (he : (enter s).wellFormed) : (s.issuePass f w cycle r a enter).wellFormed := by
  simp [State.issuePass, hs, he]

@[simp] theorem State.astream_wellFormed (hs : s.wellFormed) (f w cycle : Nat) (a : AstreamArgs) : (s.astream f w cycle a).wellFormed := by
  fun_cases State.astream <;> simp [hs]

/-! ### The vector unit (R60 to R63) -/

@[simp] theorem State.updArith_wellFormed (p : Nat) (g : Arith → Arith) : (s.updArith p g).wellFormed ↔ s.wellFormed := by
  simp [State.updArith]

@[simp] theorem State.countConv_wellFormed (p : Nat) (cvt : Byte) (conv ovf unf : Nat) :
    (s.countConv p cvt conv ovf unf).wellFormed ↔ s.wellFormed := by
  simp [State.countConv]

@[simp] theorem State.countScaleRange_wellFormed (p n : Nat) : (s.countScaleRange p n).wellFormed ↔ s.wellFormed := by
  simp [State.countScaleRange]

@[simp] theorem State.vecWidenMx_wellFormed (f p fmt : Nat) (toF19 : Bool) (d addr block : Nat) :
    (s.vecWidenMx f p fmt toF19 d addr block).wellFormed ↔ s.wellFormed := by
  simp [State.vecWidenMx]

theorem State.vecEffect_wellFormed (hs : s.wellFormed) {f p : Nat} {r : FrondRec} {op : VecOp} {t : State} (ht : s.vecEffect f p r op = some t) :
    t.wellFormed := by
  unfold State.vecEffect at ht
  split at ht
  case h_4 =>
    obtain ⟨x, -, rfl⟩ := Option.map_eq_some_iff.1 ht
    simp [hs]
  all_goals
    obtain ⟨-, ht⟩ := Option.ite_none_right_eq_some.1 ht
    cases ht
    simp [hs]

@[simp] theorem State.vectorOperation_wellFormed (hs : s.wellFormed) (f w : Nat) (op : VecOp) (token : Option Nat) :
    (s.vectorOperation f w op token).wellFormed := by
  fun_cases State.vectorOperation with
  | case3 p r _ _ _ t ht => simp [State.vecEffect_wellFormed hs ht]
  | _ => simp [hs]

@[simp] theorem State.vectorReduction_wellFormed (f w : Nat) (op : FpBin) (f19 : Bool) (reg : Nat) :
    (s.vectorReduction f w op f19 reg).wellFormed ↔ s.wellFormed := by
  fun_cases State.vectorReduction <;> simp

@[simp] theorem State.narrowBlock_wellFormed (hs : s.wellFormed) (f p : Nat) (cvt : Byte) (addr b : Nat) (ws : List Word) :
    (s.narrowBlock f p cvt addr b ws).wellFormed := by
  simp [State.narrowBlock, hs]

@[simp] theorem State.vecNarrow_wellFormed (hs : s.wellFormed) (f p : Nat) (cvt : Byte) (src dst block : Nat) :
    (s.vecNarrow f p cvt src dst block).wellFormed := by
  simp +contextual [State.vecNarrow, hs]

@[simp] theorem State.vectorConversion_wellFormed (hs : s.wellFormed) (f w : Nat) (cvt : Byte) (src dst block : Nat) :
    (s.vectorConversion f w cvt src dst block).wellFormed := by
  fun_cases State.vectorConversion <;> simp [hs]

/-! ### Collectives (R286 to R293) -/

@[simp] theorem State.updColl_wellFormed (p : Nat) (k : Nat × Nat) (f : Coll → Coll) : (s.updColl p k f).wellFormed ↔ s.wellFormed := by
  simp [State.updColl]

@[simp] theorem State.returnFlag_wellFormed (p : Nat) (flag : Bool) : (s.returnFlag p flag).wellFormed ↔ s.wellFormed := by
  simp [State.returnFlag]

@[simp] theorem State.collDone_wellFormed (p : Nat) (k : Nat × Nat) : (s.collDone p k).wellFormed ↔ s.wellFormed := by
  fun_cases State.collDone <;> simp +zetaDelta

@[simp] theorem State.raiseChunks_wellFormed (c : Coll) (n : Nat) : (s.raiseChunks c n).wellFormed ↔ s.wellFormed := by
  simp [State.raiseChunks]

@[simp] theorem State.sendColl_wellFormed (p : Nat) (c : Coll) (dir token extra : Nat) (payload : List Byte) :
    (s.sendColl p c dir token extra payload).wellFormed ↔ s.wellFormed := by
  fun_cases State.sendColl <;> simp

@[simp] theorem State.sendValues_wellFormed (p : Nat) (c : Coll) (dir lo : Nat) (vs : List Nat) :
    (s.sendValues p c dir lo vs).wellFormed ↔ s.wellFormed := by
  simp [State.sendValues]

@[simp] theorem State.sendTree_wellFormed (p : Nat) (c : Coll) (flag : Bool) (d : Coord) : (s.sendTree p c flag d).wellFormed ↔ s.wellFormed := by
  fun_cases State.sendTree <;> simp

@[simp] theorem State.treeDown_wellFormed (p : Nat) (c : Coll) (g : Group) (flag : Bool) : (s.treeDown p c g flag).wellFormed ↔ s.wellFormed := by
  simp [State.treeDown]

@[simp] theorem State.treeUp_wellFormed (p : Nat) (k : Nat × Nat) : (s.treeUp p k).wellFormed ↔ s.wellFormed := by
  fun_cases State.treeUp <;> simp

@[simp] theorem State.dataComplete_wellFormed (hs : s.wellFormed) (p : Nat) (c : Coll) (g : Group) : (s.dataComplete p c g).wellFormed := by
  simp [State.dataComplete, hs]

@[simp] theorem State.openStage_wellFormed (p : Nat) (g : Group) (c : Coll) (a : Nat) (gather : Bool) :
    (s.openStage p g c a gather).wellFormed ↔ s.wellFormed := by
  simp [State.openStage]

@[simp] theorem State.runStages_wellFormed (hs : s.wellFormed) (p : Nat) (k : Nat × Nat) (n : Nat) : (State.runStages p k n s).wellFormed := by
  induction n generalizing s with
  | zero => exact hs
  | succ n ih =>
    unfold State.runStages
    (repeat' split) <;> simp [hs, ih]

@[simp] theorem State.beginProgram_wellFormed (hs : s.wellFormed) (p : Nat) (k : Nat × Nat) (vals : List Nat) (flag : Bool) :
    (s.beginProgram p k vals flag).wellFormed := by
  simp [State.beginProgram, hs]

@[simp] theorem State.endStage_wellFormed (hs : s.wellFormed) (p : Nat) (k : Nat × Nat) (need : Nat) : (s.endStage p k need).wellFormed := by
  fun_cases State.endStage <;> simp [hs]

@[simp] theorem State.takeReduce_wellFormed (p : Nat) (c : Coll) (g : Group) (pl : CollPlace) (vs : List Nat) :
    (s.takeReduce p c g pl vs).wellFormed ↔ s.wellFormed := by
  simp [State.takeReduce]

@[simp] theorem State.takeGather_wellFormed (p : Nat) (c : Coll) (g : Group) (pl : CollPlace) (vs : List Nat) :
    (s.takeGather p c g pl vs).wellFormed ↔ s.wellFormed := by
  simp [State.takeGather]

@[simp] theorem State.takeData_wellFormed (hs : s.wellFormed) (p : Nat) (c : Coll) (g : Group) (pl : CollPlace) (f : Frame) :
    (s.takeData p c g pl f).wellFormed := by
  simp [State.takeData, hs]

@[simp] theorem State.takeTree_wellFormed (p : Nat) (c : Coll) (g : Group) (f : Frame) : (s.takeTree p c g f).wellFormed ↔ s.wellFormed := by
  simp [State.takeTree]

@[simp] theorem State.collActs_wellFormed (hs : s.wellFormed) (f : Frame) (pl : CollPlace) : (s.collActs f pl).wellFormed := by
  fun_cases State.collActs <;> simp [hs]

@[simp] theorem State.collTaken_wellFormed (hs : s.wellFormed) (f : Frame) (pl : CollPlace) : (s.collTaken f pl).wellFormed := by
  simp [State.collTaken, hs]

theorem State.hopArrives_wellFormed {p : Nat} {f : Frame} {b : Bool} {t : State} (hr : s.hopArrives p f = (b, t)) : t.wellFormed ↔ s.wellFormed := by
  obtain rfl : (s.hopArrives p f).2 = t := by rw [hr]
  fun_cases State.hopArrives with
  | case1 t ha => simp [State.arrives_wellFormed ha]
  | case2 t ha => simp [State.arrives_wellFormed ha]
  | case3 t ha => simp [State.arrives_wellFormed ha]
  | case4 t ha => simp [State.arrives_wellFormed ha]

@[simp] theorem State.collFrame_wellFormed (hs : s.wellFormed) (port : Nat) (f : Frame) (pl : CollPlace) : (s.collFrame port f pl).wellFormed := by
  fun_cases State.collFrame with
  | case1 => exact hs
  | case2 => exact hs
  | case3 _ _ t ha => simp [State.hopArrives_wellFormed ha, hs]
  | case4 _ _ t ha => exact (State.hopArrives_wellFormed ha).2 hs

@[simp] theorem State.feedRing_wellFormed (p f : Nat) (k : Nat × Nat) (n : Nat) : (State.feedRing p f k n s).wellFormed ↔ s.wellFormed := by
  induction n generalizing s with
  | zero => rfl
  | succ n ih =>
    unfold State.feedRing
    (repeat' split) <;> simp [ih]

@[simp] theorem State.feed_wellFormed (p f : Nat) : (s.feed p f).wellFormed ↔ s.wellFormed := by
  fun_cases State.feed <;> simp

@[simp] theorem State.pdataLands_wellFormed (hs : s.wellFormed) (fr : Frame) : (s.pdataLands fr).wellFormed := by
  unfold State.pdataLands
  dsimp only
  (repeat' split) <;> simp [hs]

@[simp] theorem State.pdataFrame_wellFormed (hs : s.wellFormed) (port : Nat) (f : Frame) : (s.pdataFrame port f).wellFormed := by
  fun_cases State.pdataFrame with
  | case1 => exact hs
  | case2 => exact hs
  | case3 _ _ t ha => simp [State.hopArrives_wellFormed ha, hs]
  | case4 _ _ t ha => exact (State.hopArrives_wellFormed ha).2 hs

/-! ### Twins (R299 to R306) -/

@[simp] theorem State.updTwin_wellFormed (p : Nat) (g : Twin → Twin) : (s.updTwin p g).wellFormed ↔ s.wellFormed := by
  simp [State.updTwin]

@[simp] theorem State.becomeSolo_wellFormed (p : Nat) : (s.becomeSolo p).wellFormed ↔ s.wellFormed := by
  simp [State.becomeSolo]

@[simp] theorem State.leaveTwin_wellFormed (p : Nat) : (s.leaveTwin p).wellFormed ↔ s.wellFormed := by
  simp [State.leaveTwin]

@[simp] theorem State.copyFails_wellFormed (p : Nat) : (s.copyFails p).wellFormed ↔ s.wellFormed := by
  simp [State.copyFails]

@[simp] theorem State.twinLost_wellFormed (s : State) : s.twinLost.wellFormed ↔ s.wellFormed := by
  simp [State.twinLost]

/-! ### Abort records (R294 to R298) -/

@[simp] theorem State.dropFused_wellFormed (p : Nat) : (s.dropFused p).wellFormed ↔ s.wellFormed := by
  simp [State.dropFused]

@[simp] theorem State.abortInstance_wellFormed (p : Nat) (k : Nat × Nat) : (s.abortInstance p k).wellFormed ↔ s.wellFormed := by
  simp [State.abortInstance]

@[simp] theorem State.relayAbort_wellFormed (p : Nat) (a : Abort) (g : Group) (from_ : Option Coord) :
    (s.relayAbort p a g from_).wellFormed ↔ s.wellFormed := by
  simp [State.relayAbort]

@[simp] theorem State.keepAbort_wellFormed (p : Nat) (k : Nat × Nat) (a : Abort) (from_ : Option Coord) :
    (s.keepAbort p k a from_).wellFormed ↔ s.wellFormed := by
  fun_cases State.keepAbort <;> simp +zetaDelta

@[simp] theorem State.holdAbort_wellFormed (p : Nat) (k : Nat × Nat) (a : Abort) (from_ : Option Coord) :
    (s.holdAbort p k a from_).wellFormed ↔ s.wellFormed := by
  fun_cases State.holdAbort <;> simp +zetaDelta

@[simp] theorem State.keepEarly_wellFormed (p : Nat) (a : Abort) (from_ : Coord) : (s.keepEarly p a from_).wellFormed ↔ s.wellFormed := by
  fun_cases State.keepEarly <;> simp +zetaDelta

@[simp] theorem State.takeAbort_wellFormed (p : Nat) (a : Abort) (from_ : Coord) : (s.takeAbort p a from_).wellFormed ↔ s.wellFormed := by
  fun_cases State.takeAbort <;> simp

@[simp] theorem State.abortRecord_wellFormed (port : Nat) (f : Frame) : (s.abortRecord port f).wellFormed ↔ s.wellFormed := by
  fun_cases State.abortRecord with
  | case1 => rfl
  | case2 _ t ha => exact State.arrives_wellFormed ha
  | case3 _ t ha => simp [State.arrives_wellFormed ha]
  | case4 _ t ha => simp [State.arrives_wellFormed ha]

@[simp] theorem State.collectiveTimeout_wellFormed (p group inst : Nat) : (s.collectiveTimeout p group inst).wellFormed ↔ s.wellFormed := by
  fun_cases State.collectiveTimeout <;> simp

@[simp] theorem State.abortHoldExpiry_wellFormed (p group inst : Nat) : (s.abortHoldExpiry p group inst).wellFormed ↔ s.wellFormed := by
  fun_cases State.abortHoldExpiry <;> simp +zetaDelta

/-! ### Announcements (R281 to R285) -/

@[simp] theorem State.annIgnored_wellFormed (s : State) : s.annIgnored.wellFormed ↔ s.wellFormed := by
  simp [State.annIgnored]

@[simp] theorem State.applyRate_wellFormed (b : List Byte) : (s.applyRate b).wellFormed ↔ s.wellFormed := by
  simp [State.applyRate]

@[simp] theorem State.applyTwin_wellFormed (eff : Nat) (b : List Byte) : (s.applyTwin eff b).wellFormed ↔ s.wellFormed := by
  fun_cases State.applyTwin <;> simp

@[simp] theorem State.applyAnn_wellFormed (a : Ann) : (s.applyAnn a).wellFormed ↔ s.wellFormed := by
  simp [State.applyAnn]

@[simp] theorem State.announcementApply_wellFormed (s : State) : s.announcementApply.wellFormed ↔ s.wellFormed := by
  simp [State.announcementApply]

@[simp] theorem State.localRateApply_wellFormed (s : State) : s.localRateApply.wellFormed ↔ s.wellFormed := by
  simp [State.localRateApply]

@[simp] theorem State.announcementForget_wellFormed (origin : Coord) (seq : Nat) : (s.announcementForget origin seq).wellFormed ↔ s.wellFormed := by
  simp [State.announcementForget]

@[simp] theorem State.castAnn_wellFormed (a : Ann) (but : Option Nat) : (s.castAnn a but).wellFormed ↔ s.wellFormed := by
  simp [State.castAnn]

@[simp] theorem State.holdAnn_wellFormed (a : Ann) : (s.holdAnn a).wellFormed ↔ s.wellFormed := by
  simp [State.holdAnn]

@[simp] theorem State.originate_wellFormed (atype effective : Nat) (body : List Byte) :
    (s.originate atype effective body).wellFormed ↔ s.wellFormed := by
  simp [State.originate]

@[simp] theorem State.broadcastFrame_wellFormed (port : Nat) (f : Frame) : (s.broadcastFrame port f).wellFormed ↔ s.wellFormed := by
  unfold State.broadcastFrame
  split
  · rfl
  split <;> next ha => simp [State.arrives_wellFormed ha]

end Sys2Proof.Machine
end

section
/-! SUPPORT. What resets, bring-up, admission, links and fused instructions keep of the form. -/

namespace Sys2Proof.Machine

variable {s : State}

/-! ### Resets, self-test and die bring-up (R392 to R401) -/

@[simp] theorem State.beginTest_wellFormed (trigger : Nat) (full : Bool) (by_ : Option Nat) :
    (s.beginTest trigger full by_).wellFormed ↔ s.wellFormed := by
  simp [State.beginTest]

@[simp] theorem State.zeroAll_wellFormed (hs : s.wellFormed) : s.zeroAll.wellFormed := hs.emptied

@[simp] theorem State.phasePass_wellFormed (hs : s.wellFormed) : s.phasePass.wellFormed := by
  fun_cases State.phasePass <;> simp +zetaDelta [hs]

@[simp] theorem State.recordPhase_wellFormed (r : PhaseReport) : (s.recordPhase r).wellFormed ↔ s.wellFormed := by
  simp [State.recordPhase]

@[simp] theorem State.selftestPhaseEnd_wellFormed (hs : s.wellFormed) (r : PhaseReport) : (s.selftestPhaseEnd r).wellFormed := by
  fun_cases State.selftestPhaseEnd <;> simp +zetaDelta [hs]

@[simp] theorem State.selftestPhaseTimeout_wellFormed (hs : s.wellFormed) : s.selftestPhaseTimeout.wellFormed := by
  simp [State.selftestPhaseTimeout, hs]

@[simp] theorem State.selftestRunOwn_wellFormed (hs : s.wellFormed) (ch : Nat) (b : List Byte) : (s.selftestRunOwn ch b).wellFormed := by
  simp [State.selftestRunOwn, hs]

@[simp] theorem State.packageReset_wellFormed (hs : s.wellFormed) : s.packageReset.wellFormed :=
  ⟨⟨Tab.wf_nil 0, Tab.wf_nil 0, Tab.wf_nil 0, hs.bulk⟩, Tab.wf_nil _, rfl, rfl, rfl⟩

@[simp] theorem State.startUp_wellFormed (hs : s.wellFormed) : s.startUp.wellFormed := by
  unfold State.startUp
  extract_lets s1 _ s2 _
  have h1 : s1.wellFormed := by simp [s1, hs]
  have h2 : s2.wellFormed := by simp [s2, h1]
  simp [h2]

@[simp] theorem State.vaonRise_wellFormed (hs : s.wellFormed) : s.vaonRise.wellFormed := by
  fun_cases State.vaonRise with
  | case1 => exact State.reset_wellFormed
  | case2 => exact hs

@[simp] theorem State.vaonFall_wellFormed (s : State) : s.vaonFall.wellFormed :=
  (State.wellFormed_mk ..).2 State.reset_wellFormed

@[simp] theorem State.pwrOkFall_wellFormed (hs : s.wellFormed) : s.pwrOkFall.wellFormed := by
  simp [State.pwrOkFall, hs]

@[simp] theorem State.pwrOkRise_wellFormed (hs : s.wellFormed) : s.pwrOkRise.wellFormed := by
  simp [State.pwrOkRise, hs]

@[simp] theorem State.pkgResetNAssert_wellFormed (hs : s.wellFormed) : s.pkgResetNAssert.wellFormed := by
  simp [State.pkgResetNAssert, hs]

@[simp] theorem State.pkgResetNRelease_wellFormed (hs : s.wellFormed) (strap : BitVec 12) (tj : Int) : (s.pkgResetNRelease strap tj).wellFormed := by
  simp [State.pkgResetNRelease, hs]

@[simp] theorem State.hostPortReset_wellFormed (s : State) : s.hostPortReset.wellFormed ↔ s.wellFormed := by
  simp [State.hostPortReset]

@[simp] theorem State.perstNAssert_wellFormed (s : State) : s.perstNAssert.wellFormed ↔ s.wellFormed := by
  simp [State.perstNAssert]

@[simp] theorem State.perstNRelease_wellFormed (s : State) : s.perstNRelease.wellFormed ↔ s.wellFormed := by
  simp [State.perstNRelease]

@[simp] theorem State.functionLevelReset_wellFormed (s : State) : s.functionLevelReset.wellFormed ↔ s.wellFormed := by
  simp [State.functionLevelReset]

@[simp] theorem State.railAct_wellFormed (hs : s.wellFormed) (pos : Nat) : (s.railAct pos).wellFormed := by
  simp [State.railAct, hs]

@[simp] theorem State.railFails_wellFormed (hs : s.wellFormed) (rail : Rail) (low : Bool) : (s.railFails rail low).wellFormed :=
  (State.raise_wellFormed ..).2 (State.railAct_wellFormed hs _)

@[simp] theorem State.railFault_wellFormed (hs : s.wellFormed) (rail : Rail) (uv : Nat) : (s.railFault rail uv).wellFormed := by
  simp [State.railFault, hs]

@[simp] theorem State.avsbusSettleTimeout_wellFormed (hs : s.wellFormed) (sel : Nat) : (s.avsbusSettleTimeout sel).wellFormed := by
  fun_cases State.avsbusSettleTimeout <;> simp [hs]

@[simp] theorem State.updDie_wellFormed (r : Nat) (f : Die → Die) : (s.updDie r f).wellFormed ↔ s.wellFormed := by
  simp [State.updDie]

@[simp] theorem State.bringupTimeout_wellFormed (hs : s.wellFormed) (w : BringupStep) : (s.bringupTimeout w).wellFormed := by
  simp [State.bringupTimeout, hs]

@[simp] theorem State.inTime_wellFormed (hs : s.wellFormed) (w : BringupStep) {f : State → State} (hf : (f s).wellFormed) : (s.inTime w f).wellFormed := by
  simp [State.inTime, hs, hf]

@[simp] theorem State.dieRelease_wellFormed (hs : s.wellFormed) : s.dieRelease.wellFormed := by
  fun_cases State.dieRelease <;> simp [hs]

@[simp] theorem State.diePllLock_wellFormed (hs : s.wellFormed) (r : Nat) : (s.diePllLock r).wellFormed := by
  simp [State.diePllLock, hs]

@[simp] theorem State.capQuery_wellFormed (r : Nat) : (s.capQuery r).wellFormed ↔ s.wellFormed := by
  simp [State.capQuery]

@[simp] theorem State.hubLinkUp_wellFormed (hs : s.wellFormed) (r : Nat) : (s.hubLinkUp r).wellFormed := by
  simp [State.hubLinkUp, hs]

@[simp] theorem State.admissionFail_wellFormed (hs : s.wellFormed) (r reason : Nat) : (s.admissionFail r reason).wellFormed := by
  simp [State.admissionFail, hs]

@[simp] theorem State.dieAdmission_wellFormed (hs : s.wellFormed) (silent : Option Nat) : (s.dieAdmission silent).wellFormed := by
  fun_cases State.dieAdmission <;> simp [hs]

@[simp] theorem State.capabilityReply_wellFormed (hs : s.wellFormed) (r tag : Nat) (block : List Byte) :
    (s.capabilityReply r tag block).wellFormed := by
  simp [State.capabilityReply, hs]

@[simp] theorem State.capabilityQueryTimeout_wellFormed (hs : s.wellFormed) (r : Nat) : (s.capabilityQueryTimeout r).wellFormed := by
  simp [State.capabilityQueryTimeout, hs]

@[simp] theorem State.dieFirmwareLoaded_wellFormed (hs : s.wellFormed) (r : Nat) : (s.dieFirmwareLoaded r).wellFormed := by
  simp [State.dieFirmwareLoaded, hs]

@[simp] theorem State.halfUp_wellFormed (hs : s.wellFormed) (h : Nat) : (s.halfUp h).wellFormed := by
  simp [State.halfUp, hs]

@[simp] theorem State.halfPartnerLinkUp_wellFormed (hs : s.wellFormed) (h : Nat) : (s.halfPartnerLinkUp h).wellFormed := by
  fun_cases State.halfPartnerLinkUp with
  | case1 => exact State.inTime_wellFormed hs _ (State.inTime_wellFormed hs _ (State.halfUp_wellFormed hs h))
  | case2 => exact hs

@[simp] theorem State.setLink_wellFormed (l : Nat) (v : DieLink) : (s.setLink l v).wellFormed ↔ s.wellFormed := by
  simp [State.setLink]

@[simp] theorem State.dieLinkTrainingLoss_wellFormed (l : Nat) : (s.dieLinkTrainingLoss l).wellFormed ↔ s.wellFormed := by
  simp [State.dieLinkTrainingLoss]

@[simp] theorem State.dieLinkRetrainDone_wellFormed (l : Nat) : (s.dieLinkRetrainDone l).wellFormed ↔ s.wellFormed := by
  fun_cases State.dieLinkRetrainDone <;> simp

@[simp] theorem State.dieLinkLost_wellFormed (l : Nat) : (s.dieLinkLost l).wellFormed ↔ s.wellFormed := by
  fun_cases State.dieLinkLost <;> simp +zetaDelta

/-! ### Admission (R141 to R145) -/

@[simp] theorem State.loadOwn_wellFormed (hs : s.wellFormed) (load : Bool) (ch : Nat) (h : Held) (b : List Byte) :
    (s.loadOwn load ch h b).wellFormed := by
  simp [State.loadOwn, hs]

@[simp] theorem State.retireMarked_wellFormed (hs : s.wellFormed) : s.retireMarked.wellFormed := by
  simp +contextual [State.retireMarked, hs]

@[simp] theorem State.relocate_wellFormed (hs : s.wellFormed) (f addr base : Nat) : (s.relocate f addr base).wellFormed := by
  simp [State.relocate, hs]

@[simp] theorem State.loadFrond_wellFormed (hs : s.wellFormed) (p : Nat) (b : List Byte) (r : FrondRec) (f : Nat) : (s.loadFrond p b r f).wellFormed := by
  refine forAll_wellFormed (State.fsWrite_wellFormed (forAll_wellFormed hs _ fun k _ ht => State.fsWrite_wellFormed ht ..) ..) _ fun x t ht => ?_
  simp [ht]

@[simp] theorem State.loadImage_wellFormed (hs : s.wellFormed) (a : Admission) (b : List Byte) : (s.loadImage a b).wellFormed := by
  unfold State.loadImage
  extract_lets i s1 fs s2
  have h1 : s1.wellFormed := by simp [s1, hs]
  have h2 : s2.wellFormed := forAll_wellFormed (State.switchDomains_wellFormed h1) _ fun x _ ht => State.loadFrond_wellFormed ht ..
  simp [h2]

@[simp] theorem State.finishLoad_wellFormed (hs : s.wellFormed) : s.finishLoad.wellFormed := by
  fun_cases State.finishLoad <;> simp [hs]

@[simp] theorem State.judgeImage_wellFormed (hs : s.wellFormed) (a : Admission) (b : List Byte) : (s.judgeImage a b).wellFormed := by
  simp [State.judgeImage, hs]

@[simp] theorem State.readImage_wellFormed (hs : s.wellFormed) (a : Admission) (host : HostRead) (hbmError : Option MemUnit) (ce : List MemUnit) :
    (s.readImage a host hbmError ce).wellFormed := by
  fun_cases State.readImage <;> simp [hs]

@[simp] theorem State.takeTurn_wellFormed (hs : s.wellFormed) (a : Admission) (host : HostRead) (hbmError : Option MemUnit) (ce : List MemUnit) :
    (s.takeTurn a host hbmError ce).wellFormed := by
  fun_cases State.takeTurn <;> simp +zetaDelta [hs]

@[simp] theorem State.admissionTurn_wellFormed (hs : s.wellFormed) (host : HostRead) (hbmError : Option MemUnit) (ce : List MemUnit) :
    (s.admissionTurn host hbmError ce).wellFormed := by
  fun_cases State.admissionTurn <;> simp [hs]

@[simp] theorem State.resume_wellFormed (hs : s.wellFormed) : s.resume.wellFormed := by
  simp [State.resume, hs]

/-! ### Link plans (R243 to R246) -/

@[simp] theorem State.linkProfileOwn_wellFormed (hs : s.wellFormed) (ch : Nat) (b : List Byte) : (s.linkProfileOwn ch b).wellFormed := by
  simp [State.linkProfileOwn, hs]

@[simp] theorem State.acceptPlan_wellFormed (hs : s.wellFormed) (ch : Nat) (pl : Plan) : (s.acceptPlan ch pl).wellFormed := by
  simp [State.acceptPlan, hs]

@[simp] theorem State.linkPlanOwn_wellFormed (hs : s.wellFormed) (ch : Nat) (b : List Byte) : (s.linkPlanOwn ch b).wellFormed := by
  fun_cases State.linkPlanOwn <;> simp [hs]

@[simp] theorem State.selvageSetOwn_wellFormed (hs : s.wellFormed) (h : Held) (ch : Nat) (b : List Byte) : (s.selvageSetOwn h ch b).wellFormed := by
  simp [State.selvageSetOwn, hs]

@[simp] theorem State.selvageApply_wellFormed (s : State) : s.selvageApply.wellFormed ↔ s.wellFormed := by
  fun_cases State.selvageApply <;> simp

@[simp] theorem State.routeTableOwn_wellFormed (hs : s.wellFormed) (ch : Nat) (b : List Byte) : (s.routeTableOwn ch b).wellFormed := by
  simp [State.routeTableOwn, hs]

/-! ### Bring-up of ports (R247 to R251) -/

@[simp] theorem State.sendAlign_wellFormed (p : Nat) : (s.sendAlign p).wellFormed ↔ s.wellFormed := by
  simp [State.sendAlign]

@[simp] theorem State.sendIdent_wellFormed (p : Nat) : (s.sendIdent p).wellFormed ↔ s.wellFormed := by
  simp [State.sendIdent]

@[simp] theorem State.attemptFails_wellFormed (p : Nat) : (s.attemptFails p).wellFormed ↔ s.wellFormed := by
  simp [State.attemptFails]

@[simp] theorem State.bringupAttempt_wellFormed (p : Nat) : (s.bringupAttempt p).wellFormed ↔ s.wellFormed := by
  simp [State.bringupAttempt]

@[simp] theorem State.enterAlign_wellFormed (p : Nat) : (s.enterAlign p).wellFormed ↔ s.wellFormed := by
  simp [State.enterAlign]

@[simp] theorem State.enterIdent_wellFormed (p : Nat) : (s.enterIdent p).wellFormed ↔ s.wellFormed := by
  simp [State.enterIdent]

@[simp] theorem State.laneLock_wellFormed (p lane : Nat) : (s.laneLock p lane).wellFormed ↔ s.wellFormed := by
  simp [State.laneLock]

@[simp] theorem State.stageTimeout_wellFormed (p : Nat) (st : Stage) (bound : Nat) : (s.stageTimeout p st bound).wellFormed ↔ s.wellFormed := by
  simp [State.stageTimeout]

@[simp] theorem State.laneSignalLoss_wellFormed (p lane : Nat) : (s.laneSignalLoss p lane).wellFormed ↔ s.wellFormed := by
  simp [State.laneSignalLoss]

@[simp] theorem State.alignFlit_wellFormed (p lane : Nat) (b : List Byte) (arrival departure : Nat) :
    (s.alignFlit p lane b arrival departure).wellFormed ↔ s.wellFormed := by
  simp [State.alignFlit]

@[simp] theorem State.identFlit_wellFormed (p lane : Nat) (b : List Byte) : (s.identFlit p lane b).wellFormed ↔ s.wellFormed := by
  simp [State.identFlit]

@[simp] theorem State.completePlan_wellFormed (hs : s.wellFormed) : s.completePlan.wellFormed := by
  fun_cases State.completePlan <;> simp [hs]

@[simp] theorem State.endCheck_wellFormed (hs : s.wellFormed) : s.endCheck.wellFormed := by
  simp [State.endCheck, hs]

@[simp] theorem State.planCheck_wellFormed (hs : s.wellFormed) : s.planCheck.wellFormed := by
  simp [State.planCheck, hs]

@[simp] theorem State.linkEvent_wellFormed (p : Nat) (c : LinkEventCause) : (s.linkEvent p c).wellFormed ↔ s.wellFormed := by
  simp [State.linkEvent]

@[simp] theorem State.replayAll_wellFormed (p : Nat) : (s.replayAll p).wellFormed ↔ s.wellFormed := by
  simp [State.replayAll]

@[simp] theorem State.portRetrainDone_wellFormed (p : Nat) : (s.portRetrainDone p).wellFormed ↔ s.wellFormed := by
  simp [State.portRetrainDone]

@[simp] theorem State.portLost_wellFormed (p : Nat) : (s.portLost p).wellFormed ↔ s.wellFormed := by
  fun_cases State.portLost <;> simp +zetaDelta

@[simp] theorem State.lostPortBringup_wellFormed (p : Nat) : (s.lostPortBringup p).wellFormed ↔ s.wellFormed := by
  fun_cases State.lostPortBringup <;> simp

/-! ### Flits and frames (R224 to R238) -/

@[simp] theorem State.frameIn_wellFormed (p : Nat) (f : Frame) : (s.frameIn p f).wellFormed ↔ s.wellFormed := by
  unfold State.frameIn
  extract_lets u
  have hu : (u.arrives p f).2.wellFormed ↔ u.wellFormed := State.arrives_wellFormed rfl
  simp [hu, u]

@[simp] theorem State.flitPayload_wellFormed (p : Nat) (fl : Flit) : (s.flitPayload p fl).wellFormed ↔ s.wellFormed := by
  simp [State.flitPayload]

@[simp] theorem State.acceptFlit_wellFormed (p : Nat) (fl : Flit) : (s.acceptFlit p fl).wellFormed ↔ s.wellFormed := by
  simp [State.acceptFlit]

@[simp] theorem State.flitError_wellFormed (p : Nat) : (s.flitError p).wellFormed ↔ s.wellFormed := by
  simp [State.flitError]

@[simp] theorem State.flitFails_wellFormed (p : Nat) : (s.flitFails p).wellFormed ↔ s.wellFormed := by
  simp [State.flitFails]

@[simp] theorem State.takeFlit_wellFormed (p : Nat) (fec : Fec) (fl : Flit) : (s.takeFlit p fec fl).wellFormed ↔ s.wellFormed := by
  simp [State.takeFlit]

@[simp] theorem State.reassemble_wellFormed (hs : s.wellFormed) (p n : Nat) : (State.reassemble p n s).wellFormed := by
  induction n generalizing s with
  | zero => exact hs
  | succ n ih =>
    rw [State.reassemble]
    split <;> simp [ih, hs]

@[simp] theorem State.flitReceive_wellFormed (hs : s.wellFormed) (p lane : Nat) (fec : Fec) (fl : Flit) :
    (s.flitReceive p lane fec fl).wellFormed := by
  simp [State.flitReceive, hs]

@[simp] theorem State.flowHoldExpiry_wellFormed (p k : Nat) : (s.flowHoldExpiry p k).wellFormed ↔ s.wellFormed := by
  fun_cases State.flowHoldExpiry <;> simp

@[simp] theorem State.flowOffResend_wellFormed (p k : Nat) : (s.flowOffResend p k).wellFormed ↔ s.wellFormed := by
  fun_cases State.flowOffResend <;> simp

@[simp] theorem State.copySent_wellFormed (f : Frame) : (s.copySent f).wellFormed ↔ s.wellFormed := by
  fun_cases State.copySent <;> simp

@[simp] theorem State.startFrame_wellFormed (p : Nat) (f : Frame) (key : Option Nat) : (s.startFrame p f key).wellFormed ↔ s.wellFormed := by
  simp [State.startFrame]

@[simp] theorem State.putMgmt_wellFormed (p : Nat) (payload : List Byte) : (s.putMgmt p payload).wellFormed ↔ s.wellFormed := by
  simp [State.putMgmt]

@[simp] theorem State.sendMgmt_wellFormed (p : Nat) (payload : List Byte) : (s.sendMgmt p payload).wellFormed ↔ s.wellFormed := by
  simp [State.sendMgmt]

@[simp] theorem State.mgmtNext_wellFormed (p : Nat) : (s.mgmtNext p).wellFormed ↔ s.wellFormed := by
  fun_cases State.mgmtNext <;> simp

@[simp] theorem State.frameSend_wellFormed (p : Nat) : (s.frameSend p).wellFormed ↔ s.wellFormed := by
  fun_cases State.frameSend <;> simp

/-! ### Fused instructions (R147 to R149) -/

@[simp] theorem State.countNarrowing_wellFormed (p : Nat) (x : Fused) (n : Narrowing) : (s.countNarrowing p x n).wellFormed ↔ s.wellFormed := by
  simp [State.countNarrowing]

@[simp] theorem State.contribute_wellFormed (hs : s.wellFormed) (p f : Nat) (k : Nat × Nat) (x : Fused) : (s.contribute p f k x).wellFormed := by
  simp [State.contribute, hs]

@[simp] theorem State.rowsToSend_wellFormed (p f : Nat) (k : Nat × Nat) (x : Fused) (a : AstreamArgs) :
    (s.rowsToSend p f k x a).wellFormed ↔ s.wellFormed := by
  simp [State.rowsToSend]

@[simp] theorem State.afterPass_wellFormed (hs : s.wellFormed) (p f : Nat) (k : Nat × Nat) (a : AstreamArgs) : (s.afterPass p f k a).wellFormed := by
  fun_cases State.afterPass <;> simp [hs]

@[simp] theorem State.enterFused_wellFormed (hs : s.wellFormed) (p f cycle : Nat) (k : Nat × Nat) (a : AstreamArgs) :
    (s.enterFused p f cycle k a).wellFormed := by
  simp [State.enterFused, hs]

@[simp] theorem State.enrol_wellFormed (p : Nat) (c : Coll) : (s.enrol p c).wellFormed ↔ s.wellFormed := by
  simp [State.enrol]

@[simp] theorem State.queueFused_wellFormed (f w cycle : Nat) (k : Nat × Nat) (a : AstreamArgs) :
    (s.queueFused f w cycle k a).wellFormed ↔ s.wellFormed := by
  simp [State.queueFused]

@[simp] theorem State.beginFused_wellFormed (hs : s.wellFormed) (p f w cycle : Nat) (c : Coll) (a : AstreamArgs) :
    (s.beginFused p f w cycle c a).wellFormed := by
  fun_cases State.beginFused <;> simp [hs]

@[simp] theorem State.launchFused_wellFormed (hs : s.wellFormed) (p f w cycle : Nat) (c : Coll) (a : AstreamArgs) :
    (s.launchFused p f w cycle c a).wellFormed := by
  simp [State.launchFused, hs]

@[simp] theorem State.fusedGo_wellFormed (hs : s.wellFormed) (op f w record cycle p : Nat) (r : FrondRec) (a : AstreamArgs) :
    (s.fusedGo op f w record cycle p r a).wellFormed := by
  simp [State.fusedGo, hs]

@[simp] theorem State.fusedIssue_wellFormed (hs : s.wellFormed) (op f w record cycle : Nat) (a : AstreamArgs) :
    (s.fusedIssue op f w record cycle a).wellFormed := by
  fun_cases State.fusedIssue <;> simp [hs]

@[simp] theorem State.wakeFused_wellFormed (hs : s.wellFormed) (f w : Nat) : (s.wakeFused f w).wellFormed := by
  fun_cases State.wakeFused <;> simp [hs]

@[simp] theorem State.popPass_wellFormed (f : Nat) : (s.popPass f).wellFormed ↔ s.wellFormed := by
  simp [State.popPass]

@[simp] theorem State.astreamEnter_wellFormed (hs : s.wellFormed) (f cycle : Nat) : (s.astreamEnter f cycle).wellFormed := by
  fun_cases State.astreamEnter <;> simp +zetaDelta [hs]

@[simp] theorem State.sendChunk_wellFormed (p : Nat) (c : Coll) (i : Nat) (bs : List Byte) : (s.sendChunk p c i bs).wellFormed ↔ s.wellFormed := by
  simp [State.sendChunk]

@[simp] theorem State.chunkGoes_wellFormed (hs : s.wellFormed) (p f : Nat) (c : Coll) (i : Nat) : (s.chunkGoes p f c i).wellFormed := by
  simp [State.chunkGoes, hs]

@[simp] theorem State.fusedChunkSend_wellFormed (hs : s.wellFormed) (f record i : Nat) : (s.fusedChunkSend f record i).wellFormed := by
  fun_cases State.fusedChunkSend <;> simp [hs]

end Sys2Proof.Machine
end

section
/-! SUPPORT. What memory transfers, patterns, pinnules, power, the spool engine, time and votes keep of the form. -/

namespace Sys2Proof.Machine

variable {s : State}

/-! ### MEM_FILL and lane repair (R205, R213 to R218) -/

@[simp] theorem State.memFillOwn_wellFormed (hs : s.wellFormed) (ch : Nat) (h : Held) (b : List Byte) : (s.memFillOwn ch h b).wellFormed := by
  simp [State.memFillOwn, hs]

@[simp] theorem State.fillWrite_wellFormed (hs : s.wellFormed) (p : Nat) (f : Fill) (off : Nat) (bs : List Byte) : (s.fillWrite p f off bs).wellFormed := by
  fun_cases State.fillWrite with
  | case1 => exact hs.withFar (Mem.wf_writeN _ bs hs.far)
  | case2 => exact hs
  | case3 => simp [hs]

@[simp] theorem State.markUnit_wellFormed (p : Nat) (u : MemUnit) : (s.markUnit p u).wellFormed ↔ s.wellFormed := by
  simp [State.markUnit]

@[simp] theorem State.writePoison_wellFormed (hs : s.wellFormed) (p : Nat) (f : Fill) (i : Nat) (failed : Option (MemUnit × Nat)) :
    (s.writePoison p f i failed).wellFormed := by
  fun_cases State.writePoison <;> simp +zetaDelta [hs]

@[simp] theorem State.landPiece_wellFormed (hs : s.wellFormed) (p : Nat) (f : Fill) (i : Nat) (data : List Byte) :
    (s.landPiece p f i data).wellFormed := by
  simp [State.landPiece, hs]

@[simp] theorem State.pieceEffect_wellFormed (hs : s.wellFormed) (p : Nat) (f : Fill) (i : Nat) (r : PieceEnd) :
    (s.pieceEffect p f i r).wellFormed := by
  fun_cases State.pieceEffect <;> simp [hs]

@[simp] theorem State.fillDone_wellFormed (hs : s.wellFormed) (p : Nat) : (s.fillDone p).wellFormed := by
  fun_cases State.fillDone <;> simp +zetaDelta [hs]

@[simp] theorem State.memFillPieceDone_wellFormed (hs : s.wellFormed) (p i : Nat) (r : PieceEnd) : (s.memFillPieceDone p i r).wellFormed := by
  fun_cases State.memFillPieceDone <;> simp +zetaDelta [hs]

@[simp] theorem State.hbmLaneRetrain_wellFormed (c : Nat) : (s.hbmLaneRetrain c).wellFormed ↔ s.wellFormed := by
  simp [State.hbmLaneRetrain]

@[simp] theorem State.hbmLaneRetrainDone_wellFormed (c : Nat) : (s.hbmLaneRetrainDone c).wellFormed ↔ s.wellFormed := by
  simp [State.hbmLaneRetrainDone]

/-! ### The training control block (R159) -/

@[simp] theorem State.copyTcb_wellFormed (hs : s.wellFormed) (p : Nat) : (s.copyTcb p).wellFormed := by
  fun_cases State.copyTcb with
  | case1 => exact hs
  | case2 => exact hs.withFar (Mem.wf_writeN _ _ hs.far)

/-! ### Patterns (R125 to R127) -/

@[simp] theorem State.arm_wellFormed (p start : Nat) (by_ : Winner) : (s.arm p start by_).wellFormed ↔ s.wellFormed := by
  simp [State.arm]

@[simp] theorem State.patternStartOwn_wellFormed (hs : s.wellFormed) (ch : Nat) (h : Held) (b : List Byte) :
    (s.patternStartOwn ch h b).wellFormed := by
  simp [State.patternStartOwn, hs]

@[simp] theorem State.beginStep_wellFormed (hs : s.wellFormed) (p n base : Nat) : (s.beginStep p n base).wellFormed := by
  simp [State.beginStep, hs]

@[simp] theorem State.patternRunStart_wellFormed (hs : s.wellFormed) (p : Nat) : (s.patternRunStart p).wellFormed := by
  simp [State.patternRunStart, hs]

@[simp] theorem State.stepBegin_wellFormed (hs : s.wellFormed) (p : Nat) : (s.stepBegin p).wellFormed := by
  fun_cases State.stepBegin <;> simp [hs]

/-! ### Pinnules (R64 to R67) -/

@[simp] theorem State.pinFault_wellFormed (f p slot offset : Nat) : (s.pinFault f p slot offset).wellFormed ↔ s.wellFormed := by
  simp [State.pinFault]

theorem State.pinEffect_wellFormed (hs : s.wellFormed) {f pa p : Nat} {r : FrondRec} {op : PinOp} {t : State} (ht : s.pinEffect f pa p r op = some t) :
    t.wellFormed := by
  unfold State.pinEffect at ht
  split at ht
  case h_1 => cases ht
  case h_3 =>
    obtain ⟨-, ht⟩ := Option.ite_none_right_eq_some.1 ht
    cases ht
    exact hs.withLocalStore (Mem.wf_writeN _ _ hs.localStore)
  case h_8 =>
    obtain ⟨x, -, rfl⟩ := Option.map_eq_some_iff.1 ht
    simp [hs]
  all_goals
    obtain ⟨-, ht⟩ := Option.ite_none_right_eq_some.1 ht
    cases ht
    simp [hs]

@[simp] theorem State.pinnuleInstruction_wellFormed (hs : s.wellFormed) (f p slot offset : Nat) (op : PinOp) :
    (s.pinnuleInstruction f p slot offset op).wellFormed := by
  fun_cases State.pinnuleInstruction with
  | case1 => exact hs
  | case2 pa r =>
    have hpc : (s.setPc f p offset).wellFormed := by simp [hs]
    cases he : (s.setPc f p offset).pinEffect f pa p r op with
    | none => simp [hs]
    | some t => exact State.pinEffect_wellFormed hpc he

@[simp] theorem State.pinNarrow_wellFormed (hs : s.wellFormed) (f pa p : Nat) (cvt : Byte) (src dst block : Nat) :
    (s.pinNarrow f pa p cvt src dst block).wellFormed := by
  simp [State.pinNarrow, hs]

@[simp] theorem State.pinnuleConversion_wellFormed (hs : s.wellFormed) (f p slot offset : Nat) (cvt : Byte) (src dst block : Nat) :
    (s.pinnuleConversion f p slot offset cvt src dst block).wellFormed := by
  fun_cases State.pinnuleConversion <;> simp +zetaDelta [hs]

@[simp] theorem State.finchk_wellFormed (f p : Nat) (a : FinArg) : (s.finchk f p a).wellFormed ↔ s.wellFormed := by
  fun_cases State.finchk <;> simp

@[simp] theorem State.bob_wellFormed (f p cycle k0 k1 c0 c1 c2 c3 q : Nat) : (s.bob f p cycle k0 k1 c0 c1 c2 c3 q).wellFormed ↔ s.wellFormed := by
  fun_cases State.bob <;> simp

@[simp] theorem State.raisePin_wellFormed (f p t : Nat) : (s.raisePin f p t).wellFormed ↔ s.wellFormed := by
  fun_cases State.raisePin <;> simp

/-! ### Power (R341 to R352) -/

@[simp] theorem State.announceCmd_wellFormed (hs : s.wellFormed) (ch atype effective : Nat) (body : List Byte) :
    (s.announceCmd ch atype effective body).wellFormed := by
  fun_cases State.announceCmd <;> simp [hs]

@[simp] theorem State.powerTargetOwn_wellFormed (hs : s.wellFormed) (ch : Nat) (h : Held) (b : List Byte) : (s.powerTargetOwn ch h b).wellFormed := by
  simp [State.powerTargetOwn, hs]

@[simp] theorem State.rateSetOwn_wellFormed (hs : s.wellFormed) (ch : Nat) (h : Held) (b : List Byte) : (s.rateSetOwn ch h b).wellFormed := by
  simp [State.rateSetOwn, hs]

@[simp] theorem State.setVoltage_wellFormed (l : Nat) : (s.setVoltage l).wellFormed ↔ s.wellFormed := by
  simp [State.setVoltage]

@[simp] theorem State.rateWakeLead_wellFormed (s : State) : s.rateWakeLead.wellFormed ↔ s.wellFormed := by
  fun_cases State.rateWakeLead <;> simp

@[simp] theorem State.throttle_wellFormed (s : State) : s.throttle.wellFormed ↔ s.wellFormed := by
  simp [State.throttle]

@[simp] theorem State.stepTo_wellFormed (l : Nat) : (s.stepTo l).wellFormed ↔ s.wellFormed := by
  simp [State.stepTo]

@[simp] theorem State.rateStep_wellFormed (s : State) : s.rateStep.wellFormed ↔ s.wellFormed := by
  simp [State.rateStep]

/-! ### Regulators (R197 to R200) -/

@[simp] theorem State.memRegulateOwn_wellFormed (hs : s.wellFormed) (ch : Nat) (h : Held) (b : List Byte) : (s.memRegulateOwn ch h b).wellFormed := by
  simp [State.memRegulateOwn, hs]

@[simp] theorem State.regulateOne_wellFormed (hs : s.wellFormed) (e : RegSet) : (s.regulateOne e).wellFormed := by
  simp [State.regulateOne, hs]

@[simp] theorem State.regulateTo_wellFormed (hs : s.wellFormed) (k : Nat) : (s.regulateTo k).wellFormed := by
  simp +contextual [State.regulateTo, hs]

@[simp] theorem State.refillAll_wellFormed (s : State) : s.refillAll.wellFormed ↔ s.wellFormed := by
  simp [State.refillAll]

@[simp] theorem State.offerPiece_wellFormed (p : Nat) (x : HeldPiece) : (s.offerPiece p x).wellFormed ↔ s.wellFormed := by
  simp [State.offerPiece]

@[simp] theorem State.offerBurst_wellFormed (p tier f stream burst bytes : Nat) :
    (s.offerBurst p tier f stream burst bytes).wellFormed ↔ s.wellFormed := by
  simp [State.offerBurst]

@[simp] theorem State.countHolds_wellFormed (s : State) : s.countHolds.wellFormed ↔ s.wellFormed := by
  simp [State.countHolds]

@[simp] theorem State.regulatorPiecePass_wellFormed (p tier die bytes : Nat) : (s.regulatorPiecePass p tier die bytes).wellFormed ↔ s.wellFormed := by
  fun_cases State.regulatorPiecePass <;> simp

/-! ### Reports (R382, R383, R408) -/

@[simp] theorem State.faultPolicyOwn_wellFormed (hs : s.wellFormed) (ch : Nat) (b : List Byte) : (s.faultPolicyOwn ch b).wellFormed := by
  simp [State.faultPolicyOwn, hs]

@[simp] theorem State.faultLogOwn_wellFormed (hs : s.wellFormed) (ch : Nat) (b : List Byte) : (s.faultLogOwn ch b).wellFormed := by
  simp [State.faultLogOwn, hs]

@[simp] theorem State.statsOwn_wellFormed (hs : s.wellFormed) (ch : Nat) (h : Held) (b : List Byte) : (s.statsOwn ch h b).wellFormed := by
  fun_cases State.statsOwn <;> simp [hs]

/-! ### The spool engine (R69 to R76) -/

@[simp] theorem State.updStream_wellFormed (f id : Nat) (g : Stream → Stream) : (s.updStream f id g).wellFormed ↔ s.wellFormed := by
  simp [State.updStream]

@[simp] theorem State.openStream_wellFormed (f w addr : Nat) : (s.openStream f w addr).wellFormed ↔ s.wellFormed := by
  simp [State.openStream]

@[simp] theorem State.goStream_wellFormed (f w addr : Nat) (r : FrondRec) : (s.goStream f w addr r).wellFormed ↔ s.wellFormed := by
  simp [State.goStream]

@[simp] theorem State.wakeStream_wellFormed (f : Nat) (r : FrondRec) : (s.wakeStream f r).wellFormed ↔ s.wellFormed := by
  fun_cases State.wakeStream <;> simp

@[simp] theorem State.retireStream_wellFormed (f id : Nat) (r : FrondRec) : (s.retireStream f id r).wellFormed ↔ s.wellFormed := by
  simp [State.retireStream]

@[simp] theorem State.spoolStreamIssue_wellFormed (f w addr : Nat) : (s.spoolStreamIssue f w addr).wellFormed ↔ s.wellFormed := by
  fun_cases State.spoolStreamIssue <;> simp

@[simp] theorem State.issueBurst_wellFormed (f p : Nat) (r : FrondRec) (x : Stream) (key : Nat) :
    (s.issueBurst f p r x key).wellFormed ↔ s.wellFormed := by
  simp [State.issueBurst]

@[simp] theorem State.spoolBurstStart_wellFormed (f id : Nat) : (s.spoolBurstStart f id).wellFormed ↔ s.wellFormed := by
  fun_cases State.spoolBurstStart <;> simp

@[simp] theorem State.readErrors_wellFormed (p a : Nat) (ue ce : List Nat) : (s.readErrors p a ue ce).wellFormed ↔ s.wellFormed := by
  simp [State.readErrors]

@[simp] theorem State.raiseLanded_wellFormed (f id n : Nat) : (State.raiseLanded f id n s).wellFormed ↔ s.wellFormed := by
  induction n generalizing s with
  | zero => rfl
  | succ n ih =>
    rw [State.raiseLanded]
    (repeat' split) <;> simp [ih]

@[simp] theorem State.spoolBurstLanded_wellFormed (hs : s.wellFormed) (f id j : Nat) (ue ce : List Nat) :
    (s.spoolBurstLanded f id j ue ce).wellFormed := by
  fun_cases State.spoolBurstLanded <;> simp +zetaDelta [hs]

@[simp] theorem State.spoolSlotRelease_wellFormed (f id : Nat) : (s.spoolSlotRelease f id).wellFormed ↔ s.wellFormed := by
  fun_cases State.spoolSlotRelease <;> simp

@[simp] theorem State.spoolWriteBurst_wellFormed (f id : Nat) : (s.spoolWriteBurst f id).wellFormed ↔ s.wellFormed := by
  fun_cases State.spoolWriteBurst <;> simp

@[simp] theorem State.writeErrors_wellFormed (p a : Nat) (refused : List Nat) : (s.writeErrors p a refused).wellFormed ↔ s.wellFormed := by
  simp [State.writeErrors]

@[simp] theorem State.spoolWriteAccepted_wellFormed (hs : s.wellFormed) (f id : Nat) (refused : List Nat) :
    (s.spoolWriteAccepted f id refused).wellFormed := by
  have hfar {a bs} {n : Nat} : ({ s with far := s.far.writeN a bs, free := n } : State).wellFormed := hs.withFar (Mem.wf_writeN a bs hs.far)
  fun_cases State.spoolWriteAccepted
  · simp +zetaDelta [hfar]
  · exact hs
  · exact hs

/-! ### Sync rounds and the boundary (R128, R272 to R280) -/

@[simp] theorem State.setStitch_wellFormed (k : Nat) : (s.setStitch k).wellFormed ↔ s.wellFormed := by
  simp [State.setStitch]

@[simp] theorem State.portBoundary_wellFormed (p : Nat) : (s.portBoundary p).wellFormed ↔ s.wellFormed := by
  simp [State.portBoundary]

@[simp] theorem State.wakeAll_wellFormed (hs : s.wellFormed) : s.wakeAll.wellFormed :=
  forAll_wellFormed hs _ fun f _ ht => forAll_wellFormed ht _ fun w _ hu => State.wakeFused_wellFormed ((State.wakeWarden_wellFormed f w).2 hu) f w

@[simp] theorem State.boundary_wellFormed (hs : s.wellFormed) : s.boundary.wellFormed := by
  simp [State.boundary, hs]

@[simp] theorem State.stitchBoundary_wellFormed (hs : s.wellFormed) : s.stitchBoundary.wellFormed := by
  simp [State.stitchBoundary, hs]

@[simp] theorem State.updNb_wellFormed (p : Nat) (f : Neighbour → Neighbour) : (s.updNb p f).wellFormed ↔ s.wellFormed := by
  simp [State.updNb]

@[simp] theorem State.followParent_wellFormed (s : State) : s.followParent.wellFormed ↔ s.wellFormed := by
  simp [State.followParent]

@[simp] theorem State.sendFollow_wellFormed (p k : Nat) : (s.sendFollow p k).wellFormed ↔ s.wellFormed := by
  simp [State.sendFollow]

@[simp] theorem State.syncRound_wellFormed (ds : List (Nat × Int)) : (s.syncRound ds).wellFormed ↔ s.wellFormed := by
  simp [State.syncRound]

@[simp] theorem State.counterDiffers_wellFormed (p k : Nat) : (s.counterDiffers p k).wellFormed ↔ s.wellFormed := by
  simp [State.counterDiffers]

@[simp] theorem State.syncReceive_wellFormed (p : Nat) (b : List Byte) (arrival : Int) : (s.syncReceive p b arrival).wellFormed ↔ s.wellFormed := by
  simp [State.syncReceive]

@[simp] theorem State.counterRaise_wellFormed (s : State) : s.counterRaise.wellFormed ↔ s.wellFormed := by
  fun_cases State.counterRaise <;> simp +zetaDelta

@[simp] theorem State.measured_wellFormed (k : Nat) (t : Int) : (s.measured k t).wellFormed ↔ s.wellFormed := by
  simp [State.measured]

@[simp] theorem State.excursion_wellFormed (s : State) : s.excursion.wellFormed ↔ s.wellFormed := by
  simp [State.excursion]

@[simp] theorem State.followReceive_wellFormed (p : Nat) (b : List Byte) : (s.followReceive p b).wellFormed ↔ s.wellFormed := by
  simp [State.followReceive]

/-! ### Frames to the hub and telemetry (R261, R268 to R271, R390) -/

@[simp] theorem State.routedForward_wellFormed (p : Nat) (f : Frame) : (s.routedForward p f).wellFormed ↔ s.wellFormed := by
  fun_cases State.routedForward with
  | case1 => rfl
  | case2 _ t ha => exact State.arrives_wellFormed ha
  | case3 _ t ha => simp [State.arrives_wellFormed ha]

@[simp] theorem State.latchPacket_wellFormed (hs : s.wellFormed) (ch : Nat) (packet : List Byte) (via : Via) :
    (s.latchPacket ch packet via).wellFormed := by
  simp [State.latchPacket, hs]

@[simp] theorem State.commandFrame_wellFormed (hs : s.wellFormed) (p : Nat) (f : Frame) : (s.commandFrame p f).wellFormed := by
  fun_cases State.commandFrame with
  | case1 => exact hs
  | case2 _ t ha => simp [State.arrives_wellFormed ha, hs]
  | case3 _ t ha => simp [State.arrives_wellFormed ha, hs]
  | case4 _ t ha => simp [State.arrives_wellFormed ha, hs]

@[simp] theorem State.askMap_wellFormed (s : State) : s.askMap.wellFormed ↔ s.wellFormed := by
  fun_cases State.askMap <;> simp

@[simp] theorem State.endMap_wellFormed (hs : s.wellFormed) : s.endMap.wellFormed := by
  fun_cases State.endMap <;> simp [hs]

@[simp] theorem State.mapDone_wellFormed (hs : s.wellFormed) : s.mapDone.wellFormed := by
  fun_cases State.mapDone <;> simp [hs]

@[simp] theorem State.congestionMapOwn_wellFormed (hs : s.wellFormed) (ch : Nat) (h : Held) (b : List Byte) :
    (s.congestionMapOwn ch h b).wellFormed := by
  simp [State.congestionMapOwn, hs]

@[simp] theorem State.congestionMapTimeout_wellFormed (hs : s.wellFormed) : s.congestionMapTimeout.wellFormed := by
  fun_cases State.congestionMapTimeout <;> simp [hs]

@[simp] theorem State.newInterval_wellFormed (s : State) : s.newInterval.wellFormed ↔ s.wellFormed := by
  simp [State.newInterval]

@[simp] theorem State.telemetryRequest_wellFormed (p : Nat) (f : Frame) : (s.telemetryRequest p f).wellFormed ↔ s.wellFormed := by
  fun_cases State.telemetryRequest with
  | case1 => rfl
  | case2 _ t ha => exact State.arrives_wellFormed ha
  | case3 _ t ha => simp [State.arrives_wellFormed ha]
  | case4 _ t ha => simp [State.arrives_wellFormed ha]

@[simp] theorem State.telemetryReply_wellFormed (hs : s.wellFormed) (p : Nat) (f : Frame) : (s.telemetryReply p f).wellFormed := by
  unfold State.telemetryReply
  split
  · exact hs
  split <;> next ha =>
    have ht := (State.arrives_wellFormed ha).2 hs
    (repeat' split) <;> simp [ht]

/-! ### The test port (R33 to R37) -/

@[simp] theorem State.tapOperation_wellFormed (op : TapOp) : (s.tapOperation op).wellFormed ↔ s.wellFormed := by
  fun_cases State.tapOperation <;> simp

@[simp] theorem State.entdaa_wellFormed (address : Nat) : (s.entdaa address).wellFormed ↔ s.wellFormed := by
  simp [State.entdaa]

/-! ### Temperatures (R419, R427) -/

@[simp] theorem State.thermalTrip_wellFormed (hs : s.wellFormed) : s.thermalTrip.wellFormed := by
  simp [State.thermalTrip, hs]

@[simp] theorem State.thermalSample_wellFormed (hs : s.wellFormed) (readings : List Int) : (s.thermalSample readings).wellFormed := by
  fun_cases State.thermalSample <;> simp +zetaDelta [hs]

@[simp] theorem State.comparatorTrip_wellFormed (reading : Int) : (s.comparatorTrip reading).wellFormed ↔ s.wellFormed := by
  simp [State.comparatorTrip]

@[simp] theorem State.thermRise_wellFormed (s : State) : s.thermRise.wellFormed ↔ s.wellFormed := by
  fun_cases State.thermRise <;> simp

/-! ### Twin commands and signatures (R299 to R306) -/

@[simp] theorem State.twinBindOwn_wellFormed (hs : s.wellFormed) (ch : Nat) (h : Held) (b : List Byte) : (s.twinBindOwn ch h b).wellFormed := by
  fun_cases State.twinBindOwn <;> simp [hs]

@[simp] theorem State.twinShedOwn_wellFormed (hs : s.wellFormed) (ch : Nat) (h : Held) (b : List Byte) : (s.twinShedOwn ch h b).wellFormed := by
  simp [State.twinShedOwn, hs]

@[simp] theorem State.twinRejoinOwn_wellFormed (hs : s.wellFormed) (ch : Nat) (h : Held) (b : List Byte) : (s.twinRejoinOwn ch h b).wellFormed := by
  simp [State.twinRejoinOwn, hs]

@[simp] theorem State.sigDiffers_wellFormed (p : Nat) (own peer : SigRec) : (s.sigDiffers p own peer).wellFormed ↔ s.wellFormed := by
  simp [State.sigDiffers]

@[simp] theorem State.compareSig_wellFormed (p : Nat) (own peer : SigRec) : (s.compareSig p own peer).wellFormed ↔ s.wellFormed := by
  simp [State.compareSig]

@[simp] theorem State.takeSig_wellFormed (p : Nat) (r : SigRec) : (s.takeSig p r).wellFormed ↔ s.wellFormed := by
  fun_cases State.takeSig <;> simp

@[simp] theorem State.formSignature_wellFormed (p : Nat) : (s.formSignature p).wellFormed ↔ s.wellFormed := by
  simp [State.formSignature]

@[simp] theorem State.signatureSend_wellFormed (p : Nat) : (s.signatureSend p).wellFormed ↔ s.wellFormed := by
  fun_cases State.signatureSend <;> simp

@[simp] theorem State.peerRecordDeadline_wellFormed (p : Nat) : (s.peerRecordDeadline p).wellFormed ↔ s.wellFormed := by
  fun_cases State.peerRecordDeadline <;> simp

@[simp] theorem State.twinSigFrame_wellFormed (hs : s.wellFormed) (f : Frame) : (s.twinSigFrame f).wellFormed := by
  unfold State.twinSigFrame
  split
  · exact hs
  split <;> next ha =>
    have ht := (State.arrives_wellFormed ha).2 hs
    simp [ht]

@[simp] theorem State.sendCopy_wellFormed (p : Nat) : (s.sendCopy p).wellFormed ↔ s.wellFormed := by
  simp [State.sendCopy]

@[simp] theorem State.donorCopyDeadline_wellFormed (p : Nat) : (s.donorCopyDeadline p).wellFormed ↔ s.wellFormed := by
  simp [State.donorCopyDeadline]

@[simp] theorem State.landCopy_wellFormed (hs : s.wellFormed) (p space off : Nat) (bs : List Byte) : (s.landCopy p space off bs).wellFormed := by
  unfold State.landCopy
  extract_lets q u
  have hu : u.wellFormed := (State.updTwin_wellFormed ..).2 hs
  split
  · exact hu.withFar (Mem.wf_writeN _ bs hu.far)
  · exact hu

@[simp] theorem State.endCopy_wellFormed (hs : s.wellFormed) (p : Nat) (d : List Byte) : (s.endCopy p d).wellFormed := by
  fun_cases State.endCopy with
  | case1 =>
    have hfar := hs.withFar (Mem.wf_writeN (s.spaceAt p 1 0x40) (leBytes 8 (fld d 16 8)) hs.far)
    simp [hfar]
  | case2 => simp [hs]

@[simp] theorem State.twinCopyFrame_wellFormed (hs : s.wellFormed) (f : Frame) : (s.twinCopyFrame f).wellFormed := by
  unfold State.twinCopyFrame
  split
  · exact hs
  split <;> next ha =>
    have ht := (State.arrives_wellFormed ha).2 hs
    simp [ht]

/-! ### Votes and the end of a step (R162 to R172) -/

@[simp] theorem State.stepCommit_wellFormed (f w es : Nat) : (s.stepCommit f w es).wellFormed ↔ s.wellFormed := by
  fun_cases State.stepCommit <;> simp

@[simp] theorem State.ringHeader_wellFormed (hs : s.wellFormed) (p : Nat) : (s.ringHeader p).wellFormed := by
  fun_cases State.ringHeader with
  | case1 => exact hs
  | case2 => exact hs.withFar (Mem.wf_writeN _ _ hs.far)

@[simp] theorem State.loggedHalt_wellFormed (p : Nat) (st : Status) : (s.loggedHalt p st).wellFormed ↔ s.wellFormed := by
  simp [State.loggedHalt]

@[simp] theorem State.outcomeActs_wellFormed (hs : s.wellFormed) (p : Nat) (known : Bool) (o : Outcome) : (s.outcomeActs p known o).wellFormed := by
  fun_cases State.outcomeActs <;> simp +zetaDelta [hs]

@[simp] theorem State.twinAct_wellFormed (hs : s.wellFormed) (p : Nat) (o : Outcome) (act : Nat × Nat × Nat) : (s.twinAct p o act).wellFormed := by
  unfold State.twinAct
  split
  · have hq : ((s.updTwin p Twin.quiet).haltDue p .ok).wellFormed := by simp [hs]
    exact hq
  · (repeat' split) <;> simp [hs]

@[simp] theorem State.twinActs_wellFormed (hs : s.wellFormed) (p : Nat) (o : Outcome) : (s.twinActs p o).wellFormed := by
  simp +contextual [State.twinActs, hs]

@[simp] theorem State.commitSignature_wellFormed (p : Nat) (o : Outcome) (shed : Bool) : (s.commitSignature p o shed).wellFormed ↔ s.wellFormed := by
  fun_cases State.commitSignature <;> simp

@[simp] theorem State.decideStep_wellFormed (hs : s.wellFormed) (p : Nat) (v : Vote) : (s.decideStep p v).wellFormed := by
  unfold State.decideStep
  extract_lets q o n s1 s2 s3 s4
  have h1 : s1.wellFormed := by simp [s1, hs]
  have h2 : s2.wellFormed := by simp [s2, h1]
  simp [s4, s3, h2]

@[simp] theorem State.sendVote_wellFormed (p : Nat) (v : Vote) (d : Coord) : (s.sendVote p v d).wellFormed ↔ s.wellFormed := by
  simp [State.sendVote]

@[simp] theorem State.voteDown_wellFormed (hs : s.wellFormed) (p : Nat) (v : Vote) : (s.voteDown p v).wellFormed := by
  simp [State.voteDown, hs]

@[simp] theorem State.voteUp_wellFormed (hs : s.wellFormed) (p : Nat) : (s.voteUp p).wellFormed := by
  fun_cases State.voteUp <;> simp [hs]

@[simp] theorem State.voteSend_wellFormed (hs : s.wellFormed) (p : Nat) : (s.voteSend p).wellFormed := by
  simp [State.voteSend, hs]

@[simp] theorem State.takeVote_wellFormed (hs : s.wellFormed) (p : Nat) (v : Vote) (src : Coord) : (s.takeVote p v src).wellFormed := by
  simp [State.takeVote, hs]

@[simp] theorem State.voteFrame_wellFormed (hs : s.wellFormed) (port : Nat) (f : Frame) : (s.voteFrame port f).wellFormed := by
  unfold State.voteFrame
  split
  · exact hs
  split <;> next ha =>
    have ht := (State.arrives_wellFormed ha).2 hs
    simp [ht]

@[simp] theorem State.voteTimeout_wellFormed (p : Nat) : (s.voteTimeout p).wellFormed ↔ s.wellFormed := by
  fun_cases State.voteTimeout <;> simp +zetaDelta

@[simp] theorem State.wardenIssue_wellFormed (f w es : Nat) (tokens : List (Nat × Nat)) :
    (s.wardenIssue f w es tokens).wellFormed ↔ s.wellFormed := by
  fun_cases State.wardenIssue <;> simp

@[simp] theorem State.zeroLanding_wellFormed (hs : s.wellFormed) (p lo hi : Nat) (b : Nat × Nat × Nat) : (s.zeroLanding p lo hi b).wellFormed := by
  unfold State.zeroLanding
  split
  · split
    · exact hs.withStore (Mem.wf_zero _ _ hs.store)
    · exact hs
  · exact hs

@[simp] theorem State.lengthFault_wellFormed (p e maxTokens tokens : Nat) : (s.lengthFault p e maxTokens tokens).wellFormed ↔ s.wellFormed := by
  simp [State.lengthFault]

@[simp] theorem State.passTokens_wellFormed (hs : s.wellFormed) (p t : Nat) (b : Nat × Nat) : (s.passTokens p t b).wellFormed := by
  unfold State.passTokens
  (repeat' split) <;> simp [hs]

@[simp] theorem State.microBatchInputRead_wellFormed (hs : s.wellFormed) (p e : Nat) (landing : List (Nat × Nat × Nat)) (places : List (Nat × Nat)) :
    (s.microBatchInputRead p e landing places).wellFormed := by
  have hland {t : State} (ht : t.wellFormed) (n k : Nat) :
      (forAll places (State.passTokens p n) (forAll landing (State.zeroLanding p n k) t)).wellFormed :=
    forAll_wellFormed (forAll_wellFormed ht _ fun b _ hu => State.zeroLanding_wellFormed hu ..) _ fun b _ hu => State.passTokens_wellFormed hu ..
  unfold State.microBatchInputRead
  dsimp only
  (repeat' split) <;> simp [hs, hland]

end Sys2Proof.Machine
end

section
/-! SUPPORT. Every command, and so every step, keeps the form; and reset has it. -/

namespace Sys2Proof.Machine

variable {s t : State}

/-- Each arm of `exec` answers one next state, made by operations that keep the form. -/
theorem exec_wellFormed (hs : s.wellFormed) {c : Instr} (hx : exec c s = .next t) : t.wellFormed := by
  cases c
  case faultPolicy ch =>
    obtain rfl := Host.Outcome.next.inj hx
    split <;> simp [hs]
  all_goals
    obtain rfl := Host.Outcome.next.inj hx
    simp [hs]

/-- Settles O60: a step runs the front command, which keeps the form by `exec_wellFormed`, or is a tick. -/
theorem stepKeepsWellFormed : Obligations.StepKeepsWellFormed := by
  intro s t hs hstep
  cases hq : s.pending with
  | nil =>
    rw [step_of_pending_nil hq] at hstep
    obtain rfl := Host.Outcome.next.inj hstep
    simp [hs]
  | cons c rest =>
    rw [step_of_pending_cons hq] at hstep
    exact exec_wellFormed (s := { s with pending := rest }) hs hstep

/-- Settles O59: what reset lists is nothing, and its fixed lists have their lengths. -/
theorem resetIsWellFormed : Obligations.ResetIsWellFormed := State.reset_wellFormed

end Sys2Proof.Machine
end

section
/-! SUPPORT. The regulators of a partition: settings that fall due, and pieces that wait for their tokens; then the statement about them. -/

namespace Sys2Proof.Machine

section
variable {s : State}

/-! ### MEM_REGULATE and the settings that fall due (R197, R199) -/

theorem exec_memRegulate {ch : Nat} {h : Held} {b : List Byte} (hc : Commanded s 0x0901 ch h b) :
    exec (.memRegulate ch) s = .next (s.memRegulateOwn ch h b) :=
  congrArg Host.Outcome.next (State.runCommand_commanded hc _)

/-- The settings of an entry that is due, on a partition that exists. -/
theorem State.regulateOne_exists {e : RegSet} (h : (s.getPart e.part).life = .exists_) :
    s.regulateOne e = (s.updPart e.part (Partition.updReg e.tier (Regulator.apply e.on e.rate e.depth))).answer e.ch .ok [] := by
  rw [State.regulateOne, if_pos]
  simp [Partition.alive, h]

/-- A partition that is gone has no regulator to set; the command is answered all the same. -/
theorem State.regulateOne_gone {e : RegSet} (h : (s.getPart e.part).life = .never ∨ (s.getPart e.part).life = .destroyed) :
    s.regulateOne e = s.answer e.ch .ok [] := by
  rw [State.regulateOne, if_neg]
  rcases h with h | h <;> simp [Partition.alive, h]

/-- With only the first entry due, it applies and the others wait on. -/
theorem State.regulateTo_of_first {k : Nat} {e : RegSet} {later : List RegSet} (h : s.regulate = e :: later) (he : e.at_ < k)
    (hlater : ∀ x ∈ later, k ≤ x.at_) : s.regulateTo k = ({ s with regulate := later } : State).regulateOne e := by
  have hnone : later.filter (fun x => decide (x.at_ < k)) = [] := by
    rw [List.filter_eq_nil_iff]
    intro x hx
    simp [hlater x hx]
  have hall : later.filter (fun x => decide (k ≤ x.at_)) = later := by
    rw [List.filter_eq_self]
    intro x hx
    simp [hlater x hx]
  have hdue : s.regulate.filter (fun x => decide (x.at_ < k)) = [e] := by
    rw [h, List.filter_cons_of_pos (by simpa using he), hnone]
  have hrest : s.regulate.filter (fun x => decide (k ≤ x.at_)) = later := by
    rw [h, List.filter_cons_of_neg (by simpa using he), hall]
  rw [State.regulateTo, hdue, hrest, forAll_cons, forAll_nil]

/-- Two that are due apply in acceptance order. -/
theorem State.regulateTo_of_two {k : Nat} {e e' : RegSet} (h : s.regulate = [e, e']) (he : e.at_ < k) (he' : e'.at_ < k) :
    s.regulateTo k = (({ s with regulate := [] } : State).regulateOne e).regulateOne e' := by
  simp [State.regulateTo, h, he, he']

/-- A setting of a peat share, on a partition that exists, and the partition's life. -/
theorem State.regulateOne_regPeat {e : RegSet} {p : Nat} (hp : e.part = p) (htier : e.tier = 2) (hlife : (s.getPart p).life = .exists_) :
    ((s.regulateOne e).getPart p).regPeat = (s.getPart p).regPeat.apply e.on e.rate e.depth ∧ ((s.regulateOne e).getPart p).life = .exists_ := by
  subst hp
  rw [State.regulateOne_exists hlife, State.answer_getPart, State.getPart_updPart_same, htier]
  exact ⟨rfl, hlife⟩

theorem State.regulateOne_frame (e : RegSet) (s : State) : s.regulateOne e = { s with
    part := (s.regulateOne e).part, chan := (s.regulateOne e).chan, links := (s.regulateOne e).links, bulk := (s.regulateOne e).bulk
    irq := (s.regulateOne e).irq, pcie := (s.regulateOne e).pcie, out := (s.regulateOne e).out } := by
  unfold State.regulateOne
  dsimp only
  rw [State.answer_frame]
  split <;> rfl

theorem Partition.updReg_eq (tier : Nat) (f : Regulator → Regulator) (q : Partition) :
    q.updReg tier f = if tier = 1 then { q with regHbm := f (q.reg tier) } else { q with regPeat := f (q.reg tier) } := by
  unfold Partition.updReg Partition.reg
  split <;> rfl

/-- A share that was off is full once it is switched on, and the next setting cuts it to its own depth (R199). -/
theorem Regulator.apply_apply_of_off {r : Regulator} {rate depth rate' depth' : Nat} (hoff : r.on = false) :
    (r.apply true rate depth).apply true rate' depth' =
      { on := true, rate := rate', depth := depth', tokens := List.replicate 4 (min (depth / 4) (depth' / 4)) } := by
  simp [Regulator.apply, hoff]

/-! ### Pieces that a share holds (R198) -/

theorem State.regulatorPiecePass_none {p tier die : Nat} (bytes : Nat) (h : ∀ x ∈ (s.getPart p).heldPieces, x.tier ≠ tier ∨ x.die ≠ die) :
    s.regulatorPiecePass p tier die bytes = s := by
  have hnone : (s.getPart p).heldPieces.find? (fun x => x.tier == tier && x.die == die) = none := by
    rw [List.find?_eq_none]
    intro x hx
    simpa [imp_iff_not_or] using h x hx
  rw [State.regulatorPiecePass, hnone]

theorem State.regulatorPiecePass_some {p tier die bytes : Nat} {x : HeldPiece}
    (h : (s.getPart p).heldPieces.find? (fun y => y.tier == tier && y.die == die) = some x) :
    s.regulatorPiecePass p tier die bytes = if x.units = bytes / 64 ∧ ((s.getPart p).reg tier).lets die x.units = true then
      s.updPart p fun q => Partition.updReg tier (Regulator.draw die x.units) { q with heldPieces := q.heldPieces.erase x } else s := by
  rw [State.regulatorPiecePass, h]

end

/-- Settles O33: entries that are due apply by `State.regulateOne`, in acceptance order, and a held piece that its share lets pass is drawn from it. -/
theorem regulatorsApplyAndRelease : Obligations.RegulatorsApplyAndRelease := by
  unfold Obligations.RegulatorsApplyAndRelease
  refine ⟨?command, ?first, ?two, fun s h => congrArg Host.Outcome.next (State.regulateTo_of_none h), ?pass,
    fun s p tier die bytes h => congrArg Host.Outcome.next (State.regulatorPiecePass_none bytes h)⟩
  case command =>
    intro s ch h b hc
    rw [exec_memRegulate hc, State.memRegulateOwn]
    exact ⟨fun hbad => by rw [hbad]; rfl, fun hok => by rw [hok]; rfl⟩
  case first =>
    rintro s e later q r r' hreg he hlater rfl rfl rfl
    have hexec : exec .memRegulateApply s = .next (({ s with regulate := later } : State).regulateOne e) :=
      congrArg Host.Outcome.next (State.regulateTo_of_first hreg he hlater)
    refine ⟨fun hlife => ⟨_, hexec.trans (congrArg _ (State.regulateOne_exists hlife)), ?_, fun k hk => State.getPart_updPart_ne _ _ _ _ hk, rfl⟩,
      fun hgone => hexec.trans (congrArg _ (State.regulateOne_gone hgone))⟩
    rw [State.getPart_updPart_same, Partition.updReg_eq]
    rfl
  case two =>
    rintro s e e' q hreg he he' hpart htier htier' rfl hlife hon hon' hoff
    obtain ⟨hfirst, hexists⟩ := State.regulateOne_regPeat (s := { s with regulate := [] }) rfl htier hlife
    obtain ⟨hsecond, -⟩ := State.regulateOne_regPeat hpart.symm htier' hexists
    refine ⟨_, congrArg Host.Outcome.next (State.regulateTo_of_two hreg he he'), ?_, ?_, ?_⟩
    · rw [State.regulateOne_frame, State.regulateOne_frame]
    · rw [hsecond, hfirst, hon, hon']
      exact Regulator.apply_apply_of_off hoff
    · rw [State.regulateOne_frame, State.regulateOne_frame]
  case pass =>
    rintro s p tier die x q r rfl rfl hfind
    have hpass bytes : exec (.regulatorPiecePass p tier die bytes) s = .next (if x.units = bytes / 64 ∧ ((s.getPart p).reg tier).lets die x.units = true
        then s.updPart p fun q => Partition.updReg tier (Regulator.draw die x.units) { q with heldPieces := q.heldPieces.erase x } else s) :=
      congrArg Host.Outcome.next (State.regulatorPiecePass_some hfind)
    have hunits : x.units = 64 * x.units / 64 := (Nat.mul_div_cancel_left _ (by decide)).symm
    change (((s.getPart p).reg tier).on = true → _) ∧ (((s.getPart p).reg tier).on = false → _) ∧ ∀ bytes, ((s.getPart p).reg tier).on = true ∧ _ ∨ _ → _
    refine ⟨fun hon hle hdie => ?_, fun hoff => ?_, fun bytes hheld => ?_⟩
    · have hlets : ((s.getPart p).reg tier).lets die x.units = true := by
        rw [Regulator.lets, hon]
        exact decide_eq_true hle
      rw [hpass, if_pos ⟨hunits, hlets⟩]
      refine ⟨_, ((s.getPart p).reg tier).draw die x.units, rfl, ?_, fun d hd => ?_, ?_, ?_, fun k hk => State.getPart_updPart_ne _ _ _ _ hk, rfl⟩
      · rw [Regulator.draw, if_pos hon]
        exact nth_modify_same hdie
      · rw [Regulator.draw, if_pos hon]
        exact nth_modify_ne hd
      · rw [Regulator.draw, if_pos hon]
        rfl
      · rw [State.getPart_updPart_same, Partition.updReg_eq]
        rfl
    · rw [hpass, if_pos ⟨hunits, by simp [Regulator.lets, hoff]⟩]
      refine ⟨_, rfl, ?_, fun k hk => State.getPart_updPart_ne _ _ _ _ hk, rfl⟩
      rw [State.getPart_updPart_same]
      exact Partition.updReg_draw_off hoff
    · rw [hpass, if_neg]
      rintro ⟨heq, hlets⟩
      rcases hheld with ⟨hon, hlt⟩ | hne
      · have hle : x.units ≤ nth 0 ((s.getPart p).reg tier).tokens die := by simpa [Regulator.lets, hon] using hlets
        exact absurd hle (Nat.not_le.2 hlt)
      · exact hne heq.symm

end Sys2Proof.Machine
end

section
/-! SUPPORT. What a wake may change, the command MEM_FILL, and counted memory errors. -/

namespace Sys2Proof.Machine

/-! ### A wake (R337, R340) -/

section
variable {s t u : State}

/-- From s to t domains have switched: that changes their states, and what the ones switched off hold. -/
def State.DomainsSwitched (s t : State) : Prop :=
  t = { s with dom := t.dom, frond := t.frond, store := t.store, localStore := t.localStore, ctx := t.ctx }

theorem State.DomainsSwitched.trans (h : s.DomainsSwitched t) (k : t.DomainsSwitched u) : s.DomainsSwitched u := by
  unfold State.DomainsSwitched at *; rw [k, h]

theorem State.clearGroup_domainsSwitched (g : Nat) (s : State) : s.DomainsSwitched (s.clearGroup g) :=
  forAll_inv s.DomainsSwitched _ _ s rfl fun _ _ _ h => h.trans rfl

theorem State.domLoses_domainsSwitched (d : Nat) (s : State) : s.DomainsSwitched (s.domLoses d) :=
  ite_holds (P := s.DomainsSwitched) (State.clearGroup_domainsSwitched d s) (ite_holds rfl rfl)

theorem State.switchDom_domainsSwitched (d : Nat) (goal : Dom) (s : State) : s.DomainsSwitched (s.switchDom d goal) := by
  unfold State.switchDom
  split
  case h_6 => exact (State.domLoses_domainsSwitched d s).trans rfl
  all_goals rfl

theorem State.switchDomains_domainsSwitched (s : State) : s.DomainsSwitched s.switchDomains :=
  forAll_inv s.DomainsSwitched _ _ s rfl fun _ _ _ h => h.trans (State.switchDom_domainsSwitched _ _ _)

theorem State.startWake_of_awake (h : s.aon.park ≠ .parked) : s.startWake = s := if_neg h

theorem State.startWake_of_parked (h : s.aon.park = .parked) : ∃ dom frond store localStore ctx, s.startWake = { s with
    aon := { s.aon with park := .waking }, dom := dom, frond := frond, store := store, localStore := localStore, ctx := ctx } := by
  rw [State.startWake, if_pos h]
  exact ⟨_, _, _, _, _, State.switchDomains_domainsSwitched _⟩

theorem State.startWake_getPart (s : State) (k : Nat) : s.startWake.getPart k = s.getPart k := by
  by_cases h : s.aon.park = .parked
  · obtain ⟨_, _, _, _, _, hwake⟩ := State.startWake_of_parked h
    rw [hwake]; rfl
  · rw [State.startWake_of_awake h]

end

/-! ### The command (R213, R214) -/

section
variable {s : State} {ch : Nat} {h : Held} {b : List Byte} {f : Fill}

theorem exec_memFill (hc : Commanded s 0x0902 ch h b) : exec (.memFill ch) s = .next (s.memFillOwn ch h b) :=
  congrArg Host.Outcome.next (State.runCommand_commanded hc _)

theorem State.memFillOwn_refused (hf : f = fillParse ch b) (hbad : f.fieldsOk = false ∨ f.rangesOk (s.getPart h.part) = false) :
    s.memFillOwn ch h b = s.answer ch .badParam [] :=
  if_pos (by rcases hbad with hbad | hbad <;> simp [← hf, hbad])

theorem State.memFillOwn_accepted (hf : f = fillParse ch b) (hfields : f.fieldsOk = true) (hranges : f.rangesOk (s.getPart h.part) = true) :
    s.memFillOwn ch h b = (s.startWake.updPart h.part fun q => { q with fill := some f }).accept ch := by
  subst hf
  exact if_neg (by simp [hfields, hranges])

end

/-! ### Counted memory errors (R201, R202, R402) -/

section
variable {s : State} {c u lane addr : Nat}

/-- A step that counts memory errors: it neither reads nor writes the package memories, changes only the counters, the faults and the interrupts, and
keeps the number of STATUS registers. -/
structure CountsErrors (g : State → State) : Prop where
  far : ∀ (s : State) (m : Mem), g { s with far := m } = { g s with far := m }
  frame : ∀ s, g s = { s with mem := (g s).mem, faults := (g s).faults, irq := (g s).irq, pcie := (g s).pcie, out := (g s).out }
  status : ∀ s, (g s).irq.status.length = s.irq.status.length

theorem CountsErrors.id : CountsErrors fun s => s := ⟨fun _ _ => rfl, fun _ => rfl, fun _ => rfl⟩

theorem CountsErrors.comp {g k : State → State} (hk : CountsErrors k) (hg : CountsErrors g) : CountsErrors fun s => k (g s) where
  far s m := by rw [hg.far, hk.far]
  frame s := by rw [hk.frame, hg.frame]
  status s := (hk.status _).trans (hg.status s)

theorem forAll_countsErrors {α : Type} (l : List α) {g : α → State → State} (h : ∀ x ∈ l, CountsErrors (g x)) : CountsErrors (forAll l g) := by
  induction l with
  | nil => exact .id
  | cons x l ih => exact (ih fun y hy => h y (.tail x hy)).comp (h x (.head l))

theorem State.sendMsix_far_with (s : State) (m : Mem) : State.sendMsix { s with far := m } = { s.sendMsix with far := m } := by
  change (if s.msixLive = false then _ else if s.pcie.masked = true then _ else _) = _
  unfold State.sendMsix
  split
  · rfl
  · split <;> rfl

theorem State.settle_far_with (s : State) (m : Mem) : State.settle { s with far := m } = { s.settle with far := m } := by
  have hsend := State.sendMsix_far_with { s with irq := { s.irq with msiSet := s.msiOn } } m
  change (if (s.msiOn && !s.irq.msiSet) = true then State.sendMsix _ else if s.msiOn = true then _ else _) = _
  unfold State.settle
  dsimp only
  split
  · exact hsend
  · split <;> rfl

theorem State.raise_countsErrors (c : Cause) : CountsErrors (State.raise c) where
  far s m := State.settle_far_with { s with irq := { s.irq with status := s.irq.status.modify c.group (· ||| BitVec.twoPow 32 c.bit) } } m
  frame s := by rw [State.raise_frame]
  status s := by rw [State.raise_status, List.length_modify]

theorem State.log_countsErrors (a : LogArgs) : CountsErrors (State.log a) where
  far s m := by
    have hraise := (State.raise_countsErrors .logLost).far { s with faults := s.faults.push (s.entry a) } m
    change (if s.faults.loses = true then State.raise .logLost _ else _) = _
    unfold State.log
    dsimp only
    split
    · exact hraise
    · rfl
  frame s := by rw [State.log_frame]
  status s := (State.log_keepsRecord a s).2.2

theorem State.updUnit_countsErrors (c u : Nat) (f : FaultUnit → FaultUnit) : CountsErrors (State.updUnit c u f) :=
  ⟨fun _ _ => rfl, fun _ => rfl, fun _ => rfl⟩

/-- A unit that is held counts on, and nothing else (R402). -/
theorem State.faultEvent_held (h : s.unitHeld c u = true) : s.faultEvent c u lane addr = s.updUnit c u fun x => { x with count := satAdd 32 x.count 1 } :=
  if_pos h

/-- An event of a class without an outcome of its own acts as a step that counts errors and keeps the memory counters, the same one whatever the package
memories hold (R402). -/
theorem State.faultEvent_acts (hc : c ≠ 2 ∧ c ≠ 5 ∧ c ≠ 10 ∧ c ≠ 11 ∧ c ≠ 12) (u lane addr : Nat) (s : State) :
    ∃ g : State → State, CountsErrors g ∧ (∀ t, (g t).mem = t.mem) ∧ ∀ m, State.faultEvent c u lane addr { s with far := m } = g { s with far := m } := by
  have hlog : ∀ (a : LogArgs) (t : State), (t.log a).mem = t.mem := fun a t => by rw [State.log_frame]
  have hraise : ∀ (d : Cause) (t : State), (t.raise d).mem = t.mem := fun d t => by rw [State.raise_frame]
  obtain ⟨w, h, hpol⟩ : ∃ w h, s.policy c = (w, h) := ⟨_, _, rfl⟩
  obtain ⟨y, hy⟩ : ∃ y, y = (Tab.get {} s.faults.unit (unitKey c u)).counted s.aon.ticks w := ⟨_, rfl⟩
  have hcount := State.updUnit_countsErrors c u fun _ => y
  by_cases hheld : s.unitHeld c u = true
  · exact ⟨_, State.updUnit_countsErrors c u _, fun _ => rfl, fun m => State.faultEvent_held hheld⟩
  have heq := fun m => State.faultEvent_eq (s := { s with far := m }) (lane := lane) (addr := addr) (eq_false_of_ne_true hheld) hc.2.1 hpol hy
  by_cases hlasting : h ≤ y.count
  · refine ⟨fun t => (((t.updUnit c u fun _ => y).log (eventArgs 2 .faultLasting c u y.count w h lane addr)).raise .lasting).updUnit c u fun x =>
      { x with count := 0 }, (State.updUnit_countsErrors c u _).comp ((State.raise_countsErrors _).comp ((State.log_countsErrors _).comp hcount)),
      fun t => (hraise _ _).trans (hlog _ _), fun m => ((heq m).trans (if_pos hlasting)).trans (State.lastingOutcome_plain hc)⟩
  by_cases hopened : (Tab.get {} s.faults.unit (unitKey c u)).count = 0 ∨ (Tab.get {} s.faults.unit (unitKey c u)).start + w * 25000000 ≤ s.aon.ticks
  · exact ⟨fun t => (t.updUnit c u fun _ => y).log (eventArgs 1 .ok c u y.count w h lane addr), (State.log_countsErrors _).comp hcount,
      fun t => hlog _ _, fun m => ((heq m).trans (if_neg hlasting)).trans (if_pos hopened)⟩
  · exact ⟨fun t => t.updUnit c u fun _ => y, hcount, fun _ => rfl, fun m => ((heq m).trans (if_neg hlasting)).trans (if_neg hopened)⟩

theorem State.faultEvent_countsErrors (hc : c ≠ 2 ∧ c ≠ 5 ∧ c ≠ 10 ∧ c ≠ 11 ∧ c ≠ 12) (u lane addr : Nat) :
    CountsErrors (State.faultEvent c u lane addr) where
  far s m := by
    obtain ⟨g, hg, -, heq⟩ := State.faultEvent_acts hc u lane addr s
    rw [heq, hg.far, heq s.far]
  frame s := by
    obtain ⟨g, hg, -, heq⟩ := State.faultEvent_acts hc u lane addr s
    rw [heq s.far]
    exact hg.frame s
  status s := by
    obtain ⟨g, hg, -, heq⟩ := State.faultEvent_acts hc u lane addr s
    rw [heq s.far]
    exact hg.status s

theorem State.faultEvent_mem (hc : c ≠ 2 ∧ c ≠ 5 ∧ c ≠ 10 ∧ c ≠ 11 ∧ c ≠ 12) : (s.faultEvent c u lane addr).mem = s.mem := by
  obtain ⟨g, -, hmem, heq⟩ := State.faultEvent_acts hc u lane addr s
  rw [heq s.far]
  exact hmem s

/-- The counters of memory errors change. -/
theorem countsErrors_mem {g : MemCtl → MemCtl} : CountsErrors fun s => { s with mem := g s.mem } := ⟨fun _ _ => rfl, fun _ => rfl, fun _ => rfl⟩

theorem State.memCe_countsErrors (u : MemUnit) : CountsErrors (State.memCe u) := by
  cases u with
  | hbm st q =>
    exact (State.faultEvent_countsErrors (by decide) _ _ _).comp (countsErrors_mem (g := fun m => { m with hbmCe := countAt m.hbmCe (64 * st + q) }))
  | peat k => exact (State.faultEvent_countsErrors (by decide) _ _ _).comp (countsErrors_mem (g := fun m => { m with peatCe := countAt m.peatCe k }))
  | hub => exact (State.faultEvent_countsErrors (by decide) _ _ _).comp (countsErrors_mem (g := fun m => { m with hubCe := satAdd 32 m.hubCe 1 }))
  | host => exact .id

theorem State.memUe_countsErrors (u : MemUnit) (a : Nat) : CountsErrors (State.memUe u a) := by
  cases u with
  | hbm st q =>
    exact (State.raise_countsErrors _).comp ((State.faultEvent_countsErrors (by decide) _ _ _).comp
      (countsErrors_mem (g := fun m => { m with hbmUe := countAt m.hbmUe (64 * st + q) })))
  | peat k =>
    exact (State.raise_countsErrors _).comp ((State.faultEvent_countsErrors (by decide) _ _ _).comp
      (countsErrors_mem (g := fun m => { m with peatUe := countAt m.peatUe k })))
  | hub =>
    exact (State.raise_countsErrors _).comp ((State.faultEvent_countsErrors (by decide) _ _ _).comp
      (countsErrors_mem (g := fun m => { m with hubUe := satAdd 32 m.hubUe 1 })))
  | host => exact .id

theorem State.memEvent_countsErrors (e : MemEvent) : CountsErrors (State.memEvent e) := by
  obtain ⟨u, _ | a⟩ := e
  · exact State.memCe_countsErrors u
  · exact State.memUe_countsErrors u a

theorem State.memEvents_countsErrors (es : List MemEvent) : CountsErrors (State.memEvents es) :=
  forAll_countsErrors _ fun e _ => State.memEvent_countsErrors e

/-- A corrected error of a unit counts in its counter (R202). -/
theorem State.memCe_mem (s : State) (k st q : Nat) :
    (s.memCe (.peat k)).mem = { s.mem with peatCe := countAt s.mem.peatCe k } ∧ (s.memCe .hub).mem = { s.mem with hubCe := satAdd 32 s.mem.hubCe 1 } ∧
    (s.memCe (.hbm st q)).mem = { s.mem with hbmCe := countAt s.mem.hbmCe (64 * st + q) } :=
  ⟨State.faultEvent_mem (by decide), State.faultEvent_mem (by decide), State.faultEvent_mem (by decide)⟩

/-- An uncorrected error of a unit counts in its counter (R202). -/
theorem State.memUe_mem (s : State) (a k st q : Nat) :
    (s.memUe (.peat k) a).mem = { s.mem with peatUe := countAt s.mem.peatUe k } ∧ (s.memUe .hub a).mem = { s.mem with hubUe := satAdd 32 s.mem.hubUe 1 } ∧
    (s.memUe (.hbm st q) a).mem = { s.mem with hbmUe := countAt s.mem.hbmUe (64 * st + q) } := by
  have hraise : ∀ (d : Cause) (t : State), (t.raise d).mem = t.mem := fun d t => by rw [State.raise_frame]
  exact ⟨(hraise _ _).trans (State.faultEvent_mem (by decide)), (hraise _ _).trans (State.faultEvent_mem (by decide)),
    (hraise _ _).trans (State.faultEvent_mem (by decide))⟩

/-- An uncorrected error of a unit raises its cause (R202). -/
theorem State.memUe_caused (h : s.irq.status.length = 11) (a k st q : Nat) :
    (s.memUe (.peat k) a).caused .peatUe ∧ (s.memUe .hub a).caused .hubUe ∧ (s.memUe (.hbm st q) a).caused .hbmUe :=
  ⟨State.raise_caused _ (((State.faultEvent_countsErrors (by decide) _ _ _).status _).trans h),
    State.raise_caused _ (((State.faultEvent_countsErrors (by decide) _ _ _).status _).trans h),
    State.raise_caused _ (((State.faultEvent_countsErrors (by decide) _ _ _).status _).trans h)⟩

/-- The address of an event in its entry's DETAIL (R430). -/
theorem fld_eventArgs_addr (kind : Nat) (code : Status) (c u n w h lane addr : Nat) :
    fld (record 32 (eventArgs kind code c u n w h lane addr).detail) 16 8 = addr % 2 ^ 64 := by
  rw [eventArgs, fld_record_skip _ _ (by simp) (by simp), fld_record_skip _ _ (by simp) (by simp), fld_record_skip _ _ (by simp) (by simp),
    fld_record_skip _ _ (by simp) (by simp), fld_record_head _ _ _ _ (by simp)]
  norm_num

/-- The first event of a unit that has none, below the threshold: it opens the unit's window and is logged (R402, R430). -/
theorem State.faultEvent_first {w h : Nat} (hc : c ≠ 5) (hheld : s.unitHeld c u = false) (hunit : Tab.get {} s.faults.unit (unitKey c u) = {})
    (hpol : s.policy c = (w, h)) (hh : 1 < h) : s.faultEvent c u lane addr =
      (s.updUnit c u fun _ => { start := s.aon.ticks, count := 1 }).log (eventArgs 1 .ok c u 1 w h lane addr) := by
  rw [State.faultEvent_eq hheld hc hpol rfl, hunit]
  exact (if_neg (by simpa [FaultUnit.counted] using hh)).trans (if_pos (.inl rfl))

/-- The first uncorrected error of a peat device below its threshold is logged with its address (R204, R430). -/
theorem State.memUe_peat_newest {k a : Nat} (hunit : Tab.get {} s.faults.unit (unitKey 7 k) = {}) (hpol : 1 < (s.policy 7).2) :
    ∃ e, (s.memUe (.peat k) a).newest = some e ∧ e.kind = 1 ∧ e.cls = 7 ∧ e.unitKind = 8 ∧ e.unit = k ∧ fld e.detail 16 8 = a % 2 ^ 64 := by
  have hheld : s.unitHeld 7 k = false := by simp [State.unitHeld, hunit]
  have hfirst := State.faultEvent_first (s := { s with mem := { s.mem with peatUe := countAt s.mem.peatUe k } }) (lane := 0) (addr := a)
    (by decide) hheld hunit rfl hpol
  rw [State.newest, State.memUe, State.raise_faults, ← State.newest, hfirst, State.log_newest]
  exact ⟨_, rfl, rfl, rfl, rfl, rfl, fld_eventArgs_addr _ _ _ _ _ _ _ _ _⟩

end

/-- Memory errors one by one: their counters, their causes, the first entry of a peat device, and what they leave (R202, R204). -/
theorem memEvents_one (s : State) (k st pc : Nat) :
    (s.memEvents [⟨.peat k, none⟩]).mem = { s.mem with peatCe := Tab.upd 0 s.mem.peatCe k (satAdd 32 · 1) } ∧
    (s.memEvents [⟨.hub, none⟩]).mem = { s.mem with hubCe := satAdd 32 s.mem.hubCe 1 } ∧
    (s.memEvents [⟨.hbm st pc, none⟩]).mem = { s.mem with hbmCe := Tab.upd 0 s.mem.hbmCe (64 * st + pc) (satAdd 32 · 1) } ∧
    (∀ a, (s.memEvents [⟨.peat k, some a⟩]).mem = { s.mem with peatUe := Tab.upd 0 s.mem.peatUe k (satAdd 32 · 1) } ∧
      (s.memEvents [⟨.hub, some a⟩]).mem = { s.mem with hubUe := satAdd 32 s.mem.hubUe 1 } ∧
      (s.memEvents [⟨.hbm st pc, some a⟩]).mem = { s.mem with hbmUe := Tab.upd 0 s.mem.hbmUe (64 * st + pc) (satAdd 32 · 1) } ∧
      (s.irq.status.length = 11 → (s.memEvents [⟨.peat k, some a⟩]).caused .peatUe ∧ (s.memEvents [⟨.hub, some a⟩]).caused .hubUe ∧
        (s.memEvents [⟨.hbm st pc, some a⟩]).caused .hbmUe) ∧
      (Tab.get {} s.faults.unit (unitKey 7 k) = {} → 1 < (s.policy 7).2 → ∃ e, (s.memEvents [⟨.peat k, some a⟩]).newest = some e ∧ e.kind = 1 ∧
        e.cls = 7 ∧ e.unitKind = 8 ∧ e.unit = k ∧ fld e.detail 16 8 = a % 2 ^ 64)) ∧
    (∀ e ∈ [(⟨.peat k, none⟩ : MemEvent), ⟨.hub, none⟩, ⟨.hbm st pc, none⟩, ⟨.peat k, some 0⟩, ⟨.hub, some 0⟩, ⟨.hbm st pc, some 0⟩],
      s.memEvents [e] = { s with mem := (s.memEvents [e]).mem, faults := (s.memEvents [e]).faults, irq := (s.memEvents [e]).irq
                                 pcie := (s.memEvents [e]).pcie, out := (s.memEvents [e]).out }) := by
  obtain ⟨hpeat, hhub, hhbm⟩ := s.memCe_mem k st pc
  refine ⟨hpeat, hhub, hhbm, fun a => ?_, fun e _ => (State.memEvents_countsErrors [e]).frame s⟩
  obtain ⟨hpeat, hhub, hhbm⟩ := s.memUe_mem a k st pc
  exact ⟨hpeat, hhub, hhbm, fun h => State.memUe_caused h a k st pc, State.memUe_peat_newest⟩

end Sys2Proof.Machine
end

section
/-! SUPPORT. The bytes of MEM_FILL pieces and of their poison. -/

namespace Sys2Proof.Machine

/-! ### The bytes of a piece (R213, R214) -/

section
variable {s : State} {f : Fill} {p i j k n : Nat}

theorem nth_slice_zero {bs : List Byte} (h : j < n) : nth 0 (slice bs 0 n) j = nth 0 bs j := by
  by_cases hj : j < bs.length
  · simp [nth, slice, hj, h]
  · rw [nth, nth, slice, List.drop_zero, List.getD_append_right _ _ _ _ (by simp; omega), List.getD_eq_getElem?_getD, List.getElem?_getD_replicate_default_eq,
      List.getD_eq_default _ _ (by omega)]

/-- Byte j of piece i of a transfer into the package: of the value, of the source, or of the host's data. -/
def State.pieceByte (s : State) (p : Nat) (f : Fill) (i : Nat) (host : List Byte) (j : Nat) : Byte :=
  if f.mode = 0 then BitVec.ofNat 8 (f.value / 256 ^ (j % 4))
  else if f.mode = 1 then s.far.read ((s.getPart p).spaceBase p f.srcSpace + f.src + 2048 * i + j) else nth 0 host j

theorem State.pieceData_length (s : State) (p : Nat) (f : Fill) (i : Nat) (host : List Byte) : (s.pieceData p f i host).length = f.pieceBytes i := by
  unfold State.pieceData
  dsimp only
  split
  · simp
  · split
    · simp [slice]
    · simp

theorem State.nth_pieceData (hmode : f.mode ≤ 2) (host : List Byte) (hj : j < f.pieceBytes i) :
    nth 0 (s.pieceData p f i host) j = s.pieceByte p f i host j := by
  unfold State.pieceData State.pieceByte
  by_cases h0 : f.mode = 0
  · simp only [h0, if_pos]
    exact nth_map_range _ _ hj
  by_cases h2 : f.mode = 2
  · simp only [h2]
    exact nth_slice_zero hj
  · have h1 : f.mode = 1 := by omega
    simp only [h1]
    rw [Mem.readN_eq]
    exact nth_map_range _ _ hj

/-- A transfer into the package writes there. -/
theorem State.fillWrite_lands (hmode : f.mode ≤ 2) (off : Nat) (bs : List Byte) :
    s.fillWrite p f off bs = { s with far := s.far.writeN ((s.getPart p).spaceBase p f.dstSpace + f.dst + off) bs } :=
  if_pos (by simp [Fill.lands]; omega)

/-- A write of part of a piece: its bytes read there, every other byte of the memory as before. -/
theorem Mem.read_writeN_part (m : Mem) (dst : Nat) {a len : Nat} {bs : List Byte} (h : a + len ≤ bs.length) (b : Nat) :
    (m.writeN (dst + a) ((bs.drop a).take len)).read b = if dst + a ≤ b ∧ b < dst + a + len then nth 0 bs (b - dst) else m.read b := by
  have hlen : ((bs.drop a).take len).length = len := by simp; omega
  rw [Mem.read_writeN, hlen]
  refine ite_congr rfl (fun hb => ?_) fun _ => rfl
  change nth 0 _ _ = _
  rw [nth_take _ (by omega), nth_drop, show a + (b - (dst + a)) = b - dst by omega]

end

/-! ### Poison (R215, R216) -/

section
variable {f : Fill} {i j k n : Nat}

/-- A format of poison in whole block groups. -/
def Fill.mx (f : Fill) : Prop := 4 ≤ f.poison ∧ f.poison ≤ 8

theorem blockGroup_ge (fmt : Nat) : 64 ≤ blockGroup fmt := by
  unfold blockGroup
  split
  · decide
  · split <;> decide

theorem groupPoison_length (fmt : Nat) : (groupPoison fmt).length = blockGroup fmt := by
  have := blockGroup_ge fmt
  simp [groupPoison]
  omega

theorem nth_groupPoison (fmt j : Nat) : nth 0 (groupPoison fmt) j = if j < 64 then 0xFF#8 else 0#8 := by
  rw [nth, groupPoison]
  split
  · rw [List.getD_append _ _ _ _ (by simpa), List.getD_replicate _ (by assumption)]
    rfl
  · rw [List.getD_append_right _ _ _ _ (by simp; omega), List.getD_eq_getElem?_getD, List.getElem?_getD_replicate_default_eq]
    rfl

theorem nth_wordFill {word width : Nat} (h : j < n) : nth 0 (wordFill word width n) j = BitVec.ofNat 8 (word / 256 ^ (j % width)) :=
  nth_map_range _ _ h

/-- The poison of a piece whose format has no block groups covers the piece, one word over and over (R216). -/
theorem Fill.poisonOf_plain (h : ¬ f.mx) (i : Nat) : f.poisonOf i = (2048 * i,
    wordFill (if f.poison = 2 then 0x7E00 else if f.poison = 3 then 0x7FC0 else if f.poison = 15 then 0xDEADF00D else 0x7FC00000)
      (if f.poison = 2 ∨ f.poison = 3 then 2 else 4) (f.pieceBytes i)) := by
  rw [Fill.poisonOf]
  refine (if_neg h).trans (congrArg _ ?_)
  by_cases h2 : f.poison = 2
  · simp [h2]
  by_cases h3 : f.poison = 3
  · simp [h3]
  by_cases h15 : f.poison = 15
  · simp [h15]
  · simp [h2, h3, h15]

theorem Fill.poisonOf_mx (h : f.mx) (i : Nat) : f.poisonOf i = (blockGroup f.poison * (2048 * i / blockGroup f.poison),
    (List.range ((2048 * i + f.pieceBytes i - 1) / blockGroup f.poison + 1 - 2048 * i / blockGroup f.poison)).flatMap fun _ => groupPoison f.poison) :=
  if_pos h

/-- MX poison reaches to the end of the block group of the piece's last byte (R215). -/
theorem Fill.poisonOf_mx_end (h : f.mx) (i : Nat) : (f.poisonOf i).1 + (f.poisonOf i).2.length =
    blockGroup f.poison * ((2048 * i + f.pieceBytes i - 1) / blockGroup f.poison + 1) := by
  have hgroup := blockGroup_ge f.poison
  have hle : 2048 * i / blockGroup f.poison ≤ (2048 * i + f.pieceBytes i - 1) / blockGroup f.poison + 1 := by
    rw [← Nat.add_div_right _ (by omega)]
    exact Nat.div_le_div_right (by omega)
  rw [Fill.poisonOf_mx h]
  dsimp only
  rw [length_flatMap_const fun _ _ => groupPoison_length f.poison, List.length_range, ← Nat.mul_add, Nat.add_sub_cancel' hle]

theorem Fill.nth_poisonOf_mx (h : f.mx) (hj : j < (f.poisonOf i).2.length) :
    nth 0 (f.poisonOf i).2 j = if j % blockGroup f.poison < 64 then 0xFF#8 else 0#8 := by
  have hpos : 0 < blockGroup f.poison := Nat.lt_of_lt_of_le (by decide) (blockGroup_ge f.poison)
  rw [Fill.poisonOf_mx h] at hj ⊢
  dsimp only at hj ⊢
  rw [length_flatMap_const fun _ _ => groupPoison_length f.poison, List.length_range] at hj
  rw [nth_flatMap_range hpos (fun _ => groupPoison_length f.poison) hj, nth_groupPoison]

/-- Where the poison of a piece lies, and its bytes (R215, R216). -/
theorem Fill.poisonOf_spec {lo len word width : Nat} (hlo : if 4 ≤ f.poison ∧ f.poison ≤ 8 then
      lo = 2048 * i / blockGroup f.poison * blockGroup f.poison ∧
        lo + len = ((2048 * i + f.pieceBytes i - 1) / blockGroup f.poison + 1) * blockGroup f.poison else lo = 2048 * i ∧ len = f.pieceBytes i)
    (hword : word = if f.poison = 2 then 0x7E00 else if f.poison = 3 then 0x7FC0 else if f.poison = 15 then 0xDEADF00D else 0x7FC00000)
    (hwidth : width = if f.poison = 2 ∨ f.poison = 3 then 2 else 4) : (f.poisonOf i).1 = lo ∧ (f.poisonOf i).2.length = len ∧
    ∀ j, j < len → nth 0 (f.poisonOf i).2 j = if 4 ≤ f.poison ∧ f.poison ≤ 8 then (if j % blockGroup f.poison < 64 then 0xFF#8 else 0#8)
      else BitVec.ofNat 8 (word / 256 ^ (j % width)) := by
  by_cases hmx : f.mx
  · have hstart : (f.poisonOf i).1 = blockGroup f.poison * (2048 * i / blockGroup f.poison) := by rw [Fill.poisonOf_mx hmx]
    have hend := Fill.poisonOf_mx_end hmx i
    obtain ⟨hlo, hhi⟩ := if_pos hmx ▸ hlo
    rw [Nat.mul_comm] at hlo hhi
    have hlen : (f.poisonOf i).2.length = len := by omega
    exact ⟨hstart.trans hlo.symm, hlen, fun j hj => (Fill.nth_poisonOf_mx hmx (hlen ▸ hj)).trans (if_pos hmx).symm⟩
  · obtain ⟨rfl, rfl⟩ := if_neg hmx ▸ hlo
    rw [Fill.poisonOf_plain hmx, ← hword, ← hwidth]
    exact ⟨rfl, by simp [wordFill], fun j hj => (nth_wordFill hj).trans (if_neg hmx).symm⟩

end

/-! ### What a good piece leaves beside the poison of another (R215, R431) -/

section
variable {f : Fill} {i j k n : Nat}

/-- An offset lies in the poison of piece k. -/
def Fill.poisonedBy (f : Fill) (k off : Nat) : Prop :=
  blockGroup f.poison * (2048 * k / blockGroup f.poison) ≤ off ∧
    off < blockGroup f.poison * ((2048 * k + f.pieceBytes k - 1) / blockGroup f.poison + 1)

theorem Fill.poisoned_iff (h : f.mx) (hfailed : f.failed = [k]) (off : Nat) : f.poisoned off = true ↔ f.poisonedBy k off := by
  have hend := Fill.poisonOf_mx_end h k
  simp only [Fill.poisoned, hfailed, List.any_cons, List.any_nil, Bool.or_false, Bool.and_eq_true, decide_eq_true_eq, hend, Fill.poisonedBy]
  rw [Fill.poisonOf_mx h]

/-- MX poison covers its piece. -/
theorem Fill.poisonedBy_covers (f : Fill) (k : Nat) : blockGroup f.poison * (2048 * k / blockGroup f.poison) ≤ 2048 * k ∧
    2048 * k + f.pieceBytes k ≤ blockGroup f.poison * ((2048 * k + f.pieceBytes k - 1) / blockGroup f.poison + 1) := by
  have hpos : 0 < blockGroup f.poison := Nat.lt_of_lt_of_le (by decide) (blockGroup_ge f.poison)
  refine ⟨Nat.mul_div_le _ _, ?_⟩
  have := Nat.lt_mul_div_succ (2048 * k + f.pieceBytes k - 1) hpos
  omega

/-- Every piece but the last is full. -/
theorem Fill.pieceBytes_of_lt (h : k < i) (hi : i < f.pieces) : f.pieceBytes k = 2048 := by
  have : 2048 * i < f.length := by
    unfold Fill.pieces cdiv at hi
    omega
  unfold Fill.pieceBytes
  omega

theorem filter_range_ge (a n : Nat) : (List.range n).filter (fun j => decide (a ≤ j)) = List.range' a (n - a) := by
  rw [← List.Ico.zero_bot, List.Ico.filter_le, Nat.zero_max]; rfl

theorem filter_range_lt (b n : Nat) : (List.range n).filter (fun j => decide (j < b)) = List.range (min n b) := by
  rw [← List.Ico.zero_bot, List.Ico.filter_lt, List.Ico.zero_bot]

/-- The part of a good piece that stands: all of it, where no piece has failed or poison comes by the word (R216). -/
theorem Fill.goodPart_whole (h : f.failed = [] ∨ ¬ f.mx) (i : Nat) : f.goodPart i = (0, f.pieceBytes i) :=
  if_neg fun ⟨h4, h8, hne⟩ => h.elim (fun h => by simp [h] at hne) fun h => h ⟨h4, h8⟩

/-- With MX poison it is what no block group of the failed piece holds (R215). -/
theorem Fill.goodPart_spec (h : f.mx) (hfailed : f.failed = [k]) (hki : k ≠ i) (hi : i < f.pieces) :
    (f.goodPart i).1 + (f.goodPart i).2 ≤ f.pieceBytes i ∧
    ∀ j, j < f.pieceBytes i → ((f.goodPart i).1 ≤ j ∧ j < (f.goodPart i).1 + (f.goodPart i).2 ↔ ¬ f.poisonedBy k (2048 * i + j)) := by
  obtain ⟨hlo, hhi⟩ := f.poisonedBy_covers k
  have hn : f.pieceBytes i ≤ 2048 := Nat.min_le_left _ _
  have hgood : f.goodPart i = (((List.range (f.pieceBytes i)).filter fun j => !f.poisoned (2048 * i + j)).headD 0,
      ((List.range (f.pieceBytes i)).filter fun j => !f.poisoned (2048 * i + j)).length) :=
    if_pos ⟨h.1, h.2, by simp [hfailed]⟩
  have hpoisoned := Fill.poisoned_iff h hfailed
  unfold Fill.poisonedBy at hpoisoned ⊢
  generalize blockGroup f.poison * (2048 * k / blockGroup f.poison) = x at *
  generalize blockGroup f.poison * ((2048 * k + f.pieceBytes k - 1) / blockGroup f.poison + 1) = y at *
  rw [hgood]
  rcases Nat.lt_or_gt_of_ne hki with hlt | hgt
  · have hfull := Fill.pieceBytes_of_lt hlt hi
    have hfilter : (List.range (f.pieceBytes i)).filter (fun j => !f.poisoned (2048 * i + j)) =
        List.range' (y - 2048 * i) (f.pieceBytes i - (y - 2048 * i)) := by
      rw [← filter_range_ge]
      refine List.filter_congr fun j hj => ?_
      rw [Bool.eq_iff_iff, Bool.not_eq_true', ← Bool.not_eq_true, hpoisoned, decide_eq_true_eq]
      omega
    rw [hfilter]
    generalize hm : f.pieceBytes i - (y - 2048 * i) = m
    cases m with
    | zero => exact ⟨Nat.zero_le _, fun j hj => by simp; omega⟩
    | succ m =>
      rw [List.range'_succ, List.headD_cons, List.length_cons, List.length_range']
      exact ⟨by omega, fun j hj => by omega⟩
  · have hfilter : (List.range (f.pieceBytes i)).filter (fun j => !f.poisoned (2048 * i + j)) =
        List.range (min (f.pieceBytes i) (x - 2048 * i)) := by
      rw [← filter_range_lt]
      refine List.filter_congr fun j hj => ?_
      have hj' := List.mem_range.1 hj
      rw [Bool.eq_iff_iff, Bool.not_eq_true', ← Bool.not_eq_true, hpoisoned, decide_eq_true_eq]
      omega
    rw [hfilter]
    have hhead : (List.range (min (f.pieceBytes i) (x - 2048 * i))).headD 0 = 0 := by
      cases min (f.pieceBytes i) (x - 2048 * i) with
      | zero => rfl
      | succ m => simp [List.range_succ_eq_map]
    rw [hhead, List.length_range]
    exact ⟨by omega, fun j hj => by omega⟩

end

end Sys2Proof.Machine
end

section
/-! SUPPORT. How a piece ends, and with the last one its transfer; then the statement about MEM_FILL. -/

namespace Sys2Proof.Machine

/-! ### The end of a piece (R214, R217, R218) -/

section
variable {s u : State} {p i k : Nat} {f g : Fill} {q : Partition} {r : PieceEnd} {b : Bool}

/-- Piece i of the transfer f of partition p may end now. -/
structure State.PieceReady (s : State) (p i : Nat) (f : Fill) : Prop where
  fill : (s.getPart p).fill = some f
  awake : s.aon.park = .no
  lt : i < f.pieces
  fresh : i ∉ f.ended
  goesOn : s.pieceOpen p f i = true

/-- A transfer with one more piece ended. -/
def Fill.endPiece (i : Nat) (failed : Bool) (f : Fill) : Fill :=
  { f with ended := f.ended ++ [i], failed := if failed then f.failed ++ [i] else f.failed }

/-- One more piece of a partition's transfer has ended. -/
def State.endPiece (p i : Nat) (failed : Bool) (s : State) : State := s.updPart p fun q => { q with fill := q.fill.map (Fill.endPiece i failed) }

theorem State.PieceReady.done (h : s.PieceReady p i f) (r : PieceEnd) : exec (.memFillPieceDone p i r) s =
    .next (((s.pieceEffect p f i (s.pieceEnd f r)).endPiece p i (pieceFailed (s.pieceEnd f r))).fillDone p) := by
  obtain ⟨hfill, hawake, hlt, hfresh, hopen⟩ := h
  refine congrArg Host.Outcome.next ?_
  rw [State.memFillPieceDone, hfill]
  exact if_neg (by simp [hawake, hlt, hfresh, hopen])

/-- A piece that has no transfer, ended before, or whose memory does not go on, does not end (R214). -/
theorem State.memFillPieceDone_none (h : (s.getPart p).fill = none ∨ s.aon.park ≠ .no ∨
    ∃ f, (s.getPart p).fill = some f ∧ (f.pieces ≤ i ∨ i ∈ f.ended ∨ s.pieceOpen p f i = false)) : s.memFillPieceDone p i r = s := by
  unfold State.memFillPieceDone
  split
  · rfl
  · next f hf =>
    refine if_pos ?_
    rcases h with h | h | ⟨g, hg, h⟩
    · rw [h] at hf; cases hf
    · exact .inl h
    · obtain rfl : g = f := Option.some.inj (hg.symm.trans hf)
      rcases h with h | h | h <;> simp [h]

theorem State.endPiece_getPart (h : u.getPart p = { q with fill := some g }) :
    (u.endPiece p i b).getPart p = { q with fill := some (g.endPiece i b) } := by
  rw [State.endPiece, State.getPart_updPart_same, h]; rfl

theorem State.endPiece_getPart_ne (h : k ≠ p) : (u.endPiece p i b).getPart k = u.getPart k := State.getPart_updPart_ne _ _ _ _ h

/-- The transfer of a partition has completed. -/
def State.closeFill (p : Nat) (s : State) : State := s.updPart p fun q => { q with fill := none }

/-- The transfer of a partition has completed with pieces that failed: MEM stands in the vote, and the cause is raised (R218). -/
def State.closePartial (p : Nat) (s : State) : State := ((s.closeFill p).setMem p).raise .memPartial

section
variable {failed : List Nat} {units : Nat}
  (hfill : u.getPart p = { q with fill := some { f with ended := f.ended ++ [i], failed := failed, units := units } })
include hfill

/-- A transfer that has pieces left goes on. -/
theorem State.fillDone_waits (h : f.ended.length + 1 < f.pieces) : u.fillDone p = u := by
  rw [State.fillDone, hfill]
  exact if_pos (by rw [List.length_append]; exact h)

theorem State.fillDone_ok (h : ¬ f.ended.length + 1 < f.pieces) (hfailed : failed = []) :
    u.fillDone p = (u.closeFill p).answer f.ch .ok [0, 0, 0, 0, f.length % 2 ^ 32, f.length / 2 ^ 32 % 2 ^ 32] := by
  subst hfailed
  rw [State.fillDone, hfill]
  exact if_neg (by rw [List.length_append]; exact h)

theorem State.fillDone_partial (h : ¬ f.ended.length + 1 < f.pieces) (hfailed : failed ≠ []) :
    u.fillDone p = (u.closePartial p).answer f.ch .partialDone [units, failed.length, 2048 * failed.foldl min (failed.headD 0) % 2 ^ 32,
      2048 * failed.foldl min (failed.headD 0) / 2 ^ 32 % 2 ^ 32, f.length % 2 ^ 32, f.length / 2 ^ 32 % 2 ^ 32] := by
  have hne : ¬ failed.isEmpty = true := by simpa using hfailed
  rw [State.fillDone, hfill]
  refine (if_neg (by rw [List.length_append]; exact h)).trans ((if_neg hne).trans ?_)
  rw [Fill.words, if_neg hne]; rfl

end

/-- The lowest piece that failed, once piece i has failed too. -/
theorem foldl_min_headD_append (l : List Nat) (i : Nat) : (l ++ [i]).foldl min ((l ++ [i]).headD 0) = l.foldl min i := by
  cases l with
  | nil => exact Nat.min_self i
  | cons a l =>
    rw [List.cons_append, List.headD_cons, ← List.cons_append, List.foldl_append, List.foldl_cons, List.foldl_cons, Nat.min_self, List.foldl_cons,
      List.foldl_nil, List.foldl_assoc, Nat.min_comm]

theorem State.closeFill_getPart (h : u.getPart p = { q with fill := some g }) : (u.closeFill p).getPart p = { q with fill := none } := by
  rw [State.closeFill, State.getPart_updPart_same, h]

theorem State.setMem_getPart (p : Nat) (s : State) : (s.setMem p).getPart p =
    { s.getPart p with run := if (s.getPart p).pat = .running then { (s.getPart p).run with mem := true } else (s.getPart p).run } := by
  unfold State.setMem
  split
  · exact State.getPart_updPart_same _ _ _
  · rfl

theorem State.setMem_getPart_ne (h : k ≠ p) (s : State) : (s.setMem p).getPart k = s.getPart k :=
  ite_holds (P := fun t : State => t.getPart k = s.getPart k) (State.getPart_updPart_ne _ _ _ _ h) rfl

theorem State.setMem_part_only (p : Nat) (s : State) : s.setMem p = { s with part := (s.setMem p).part } :=
  ite_holds (P := fun t : State => t = { s with part := t.part }) rfl rfl

theorem State.closePartial_getPart (h : u.getPart p = { q with fill := some g }) : (u.closePartial p).getPart p =
    { q with fill := none, run := if q.pat = .running then { q.run with mem := true } else q.run } := by
  rw [State.closePartial, State.raise_getPart, State.setMem_getPart, State.closeFill_getPart h]

theorem State.closePartial_getPart_ne (h : k ≠ p) (u : State) : (u.closePartial p).getPart k = u.getPart k := by
  rw [State.closePartial, State.raise_getPart, State.setMem_getPart_ne h]
  exact State.getPart_updPart_ne _ _ _ _ h

theorem State.closePartial_frame (p : Nat) (u : State) : u.closePartial p =
    { u with part := (u.closePartial p).part, irq := (u.closePartial p).irq, pcie := (u.closePartial p).pcie, out := (u.closePartial p).out } := by
  rw [State.closePartial, State.raise_frame, State.setMem_part_only]; rfl

theorem State.closePartial_far (p : Nat) (u : State) : (u.closePartial p).far = u.far := by rw [State.closePartial_frame]

theorem State.closePartial_caused (h : u.irq.status.length = 11) : (u.closePartial p).caused .memPartial := by
  refine State.raise_caused _ ?_
  rw [State.setMem_part_only]
  exact h

end

/-! ### A good piece (R214) -/

section
variable {s : State} {p i n : Nat} {f : Fill} {data : List Byte} {ce : List MemUnit}

theorem State.pieceEnd_good (h : f.mode = 2 ∨ f.mode = 3 → s.aon.perstN = true ∧ f.hostLost = false) (data : List Byte) (ce : List MemUnit) :
    s.pieceEnd f (.ok data ce) = .ok data ce := by
  unfold State.pieceEnd
  dsimp only
  by_cases hhost : f.mode = 2 ∨ f.mode = 3
  · obtain ⟨hperst, hlost⟩ := h hhost
    simp [State.hostGone, hperst, hlost]
  · rw [not_or] at hhost
    simp [hhost]

/-- A good piece of HOST_OUT goes to host memory (R214). -/
theorem State.pieceEffect_toHost (hmode : f.mode = 3) (hgone : s.hostGone f = false) (hgood : f.goodPart i = (0, f.pieceBytes i)) :
    s.pieceEffect p f i (.ok data []) = s.emit (.hostWrite (f.dst + 2048 * i)
      (s.far.readN ((s.getPart p).spaceBase p f.srcSpace + f.src + 2048 * i) (f.pieceBytes i))) := by
  have hdata : s.pieceData p f i data = s.far.readN ((s.getPart p).spaceBase p f.srcSpace + f.src + 2048 * i) (f.pieceBytes i) := by
    simp [State.pieceData, hmode]
  rw [State.pieceEffect, State.landPiece, State.fillWrite, hgood, hdata, List.drop_zero, List.take_of_length_le (by simp)]
  exact (if_neg (by simp [Fill.lands, hmode])).trans (if_neg (by simp [hgone]))

/-- The package memory after a good piece (R215, R431). -/
def State.landedFar (s : State) (p : Nat) (f : Fill) (i : Nat) (data : List Byte) : Mem :=
  s.far.writeN ((s.getPart p).spaceBase p f.dstSpace + f.dst + (2048 * i + (f.goodPart i).1))
    (((s.pieceData p f i data).drop (f.goodPart i).1).take (f.goodPart i).2)

/-- The memory errors that come with a good piece count as they would without it. -/
theorem State.pieceEffect_good (hmode : f.mode ≤ 2) (data : List Byte) (ce : List MemUnit) :
    s.pieceEffect p f i (.ok data ce) = { s.memEvents (corrected ce) with far := s.landedFar p f i data } := by
  rw [State.pieceEffect, State.landPiece, State.fillWrite_lands hmode]
  exact (State.memEvents_countsErrors _).far s _

/-- The bytes of the good part of a piece land; no other byte changes. -/
theorem State.landedFar_read (hmode : f.mode ≤ 2) (hgood : (f.goodPart i).1 + (f.goodPart i).2 ≤ f.pieceBytes i) {dst : Nat}
    (hdst : dst = (s.getPart p).spaceBase p f.dstSpace + f.dst + 2048 * i) :
    (∀ j, j < f.pieceBytes i → (s.landedFar p f i data).read (dst + j) =
      if (f.goodPart i).1 ≤ j ∧ j < (f.goodPart i).1 + (f.goodPart i).2 then s.pieceByte p f i data j else s.far.read (dst + j)) ∧
    ∀ a, a < dst ∨ dst + f.pieceBytes i ≤ a → (s.landedFar p f i data).read a = s.far.read a := by
  have hread := Mem.read_writeN_part s.far dst (bs := s.pieceData p f i data) (by rwa [State.pieceData_length])
  rw [State.landedFar, ← Nat.add_assoc, ← hdst]
  constructor
  · intro j hj
    rw [hread, Nat.add_sub_cancel_left, State.nth_pieceData hmode data hj]
    exact ite_congr (by simp only [eq_iff_iff]; omega) (fun _ => rfl) fun _ => rfl
  · intro a ha
    rw [hread, if_neg (by omega)]

/-- All of a good piece lands where no piece has failed, or poison comes by the word (R214, R216). -/
theorem State.landedFar_whole (hmode : f.mode ≤ 2) (hplain : f.failed = [] ∨ ¬ f.mx) :
    (∀ j, j < f.pieceBytes i → (s.landedFar p f i data).read ((s.getPart p).spaceBase p f.dstSpace + f.dst + 2048 * i + j) = s.pieceByte p f i data j) ∧
    ∀ a, a < (s.getPart p).spaceBase p f.dstSpace + f.dst + 2048 * i ∨ (s.getPart p).spaceBase p f.dstSpace + f.dst + 2048 * i + f.pieceBytes i ≤ a →
      (s.landedFar p f i data).read a = s.far.read a := by
  have hwhole := Fill.goodPart_whole hplain i
  obtain ⟨hin, hout⟩ := State.landedFar_read (s := s) (p := p) (i := i) (data := data) hmode (by rw [hwhole]; exact (Nat.zero_add _).le) rfl
  refine ⟨fun j hj => (hin j hj).trans (if_pos ?_), hout⟩
  rw [hwhole]
  exact ⟨Nat.zero_le j, (Nat.zero_add _).symm ▸ hj⟩

/-- Of a good piece beside the poison of another, the bytes land that the poison leaves (R215). -/
theorem State.landedFar_beside {k : Nat} (hmode : f.mode ≤ 2) (hmx : f.mx) (hfailed : f.failed = [k]) (hki : k ≠ i) (hi : i < f.pieces) :
    (∀ j, j < f.pieceBytes i → (s.landedFar p f i data).read ((s.getPart p).spaceBase p f.dstSpace + f.dst + 2048 * i + j) =
      if blockGroup f.poison * (2048 * k / blockGroup f.poison) ≤ 2048 * i + j ∧
          2048 * i + j < blockGroup f.poison * ((2048 * k + f.pieceBytes k - 1) / blockGroup f.poison + 1)
        then s.far.read ((s.getPart p).spaceBase p f.dstSpace + f.dst + 2048 * i + j) else s.pieceByte p f i data j) ∧
    ∀ a, a < (s.getPart p).spaceBase p f.dstSpace + f.dst + 2048 * i ∨ (s.getPart p).spaceBase p f.dstSpace + f.dst + 2048 * i + f.pieceBytes i ≤ a →
      (s.landedFar p f i data).read a = s.far.read a := by
  obtain ⟨hgood, hstands⟩ := Fill.goodPart_spec hmx hfailed hki hi
  obtain ⟨hin, hout⟩ := State.landedFar_read (s := s) (p := p) (data := data) hmode hgood rfl
  refine ⟨fun j hj => (hin j hj).trans ?_, hout⟩
  by_cases hpoisoned : f.poisonedBy k (2048 * i + j)
  · exact (if_neg fun hpart => (hstands j hj).1 hpart hpoisoned).trans (if_pos hpoisoned).symm
  · exact (if_pos ((hstands j hj).2 hpoisoned)).trans (if_neg hpoisoned).symm

end

/-! ### Pieces that land, and pieces that leave poison (R214, R215) -/

section
variable {s v : State} {p i k : Nat} {f : Fill} {r : PieceEnd} {u w : MemUnit} {data : List Byte} {ce : List MemUnit} {es : List MemEvent}

/-- A good piece has landed and ended. -/
def State.goodPiece (p : Nat) (f : Fill) (i : Nat) (data : List Byte) (ce : List MemUnit) (s : State) : State :=
  State.endPiece p i false { s.memEvents (corrected ce) with far := s.landedFar p f i data }

theorem State.memEvents_getPart (es : List MemEvent) (s : State) (k : Nat) : (s.memEvents es).getPart k = s.getPart k := by
  rw [(State.memEvents_countsErrors es).frame]; rfl

theorem State.memEvents_far (es : List MemEvent) (s : State) : (s.memEvents es).far = s.far := by
  rw [(State.memEvents_countsErrors es).frame]

theorem State.memUe_getPart (u : MemUnit) (a k : Nat) (s : State) : (s.memUe u a).getPart k = s.getPart k := by
  rw [(State.memUe_countsErrors u a).frame]; rfl

theorem State.PieceReady.part (h : s.PieceReady p i f) : s.getPart p = { s.getPart p with fill := some f } := by
  rw [← h.fill]

theorem State.PieceReady.done_good (h : s.PieceReady p i f) (hmode : f.mode ≤ 2) (hhost : f.mode = 2 → s.aon.perstN = true ∧ f.hostLost = false)
    (data : List Byte) (ce : List MemUnit) : exec (.memFillPieceDone p i (.ok data ce)) s = .next ((s.goodPiece p f i data ce).fillDone p) := by
  rw [h.done, State.pieceEnd_good fun hm => hm.elim hhost (by omega), State.pieceEffect_good hmode]; rfl

theorem State.PieceReady.goodPiece_getPart (h : s.PieceReady p i f) (data : List Byte) (ce : List MemUnit) :
    (s.goodPiece p f i data ce).getPart p = { s.getPart p with fill := some { f with ended := f.ended ++ [i] } } :=
  State.endPiece_getPart ((State.memEvents_getPart (corrected ce) s p).trans h.part)

theorem State.goodPiece_getPart_ne (h : k ≠ p) : (s.goodPiece p f i data ce).getPart k = s.getPart k :=
  (State.endPiece_getPart_ne h).trans (State.memEvents_getPart (corrected ce) s k)

/-- A failed piece has left its poison and ended; its unit is marked. -/
def State.poisonedPiece (p : Nat) (f : Fill) (i : Nat) (u : MemUnit) (s : State) : State :=
  State.endPiece p i true { s.markUnit p u with
    far := s.far.writeN ((s.getPart p).spaceBase p f.dstSpace + f.dst + (f.poisonOf i).1) (f.poisonOf i).2 }

theorem State.markUnit_getPart (hpart : v.getPart p = { s.getPart p with fill := some f }) (u : MemUnit) :
    (v.markUnit p u).getPart p = { s.getPart p with fill := some { f with units := f.units ||| unitBit u } } := by
  rw [State.markUnit, State.getPart_updPart_same, hpart]; rfl

theorem State.markUnit_getPart_ne (h : k ≠ p) : (v.markUnit p u).getPart k = v.getPart k := State.getPart_updPart_ne _ _ _ _ h

/-- Where a partition's spaces lie does not depend on the units that failed. -/
theorem State.markUnit_spaceBase (p : Nat) (u : MemUnit) (v : State) (space : Nat) :
    ((v.markUnit p u).getPart p).spaceBase p space = (v.getPart p).spaceBase p space := by
  rw [State.markUnit, State.getPart_updPart_same]; rfl

theorem State.writePoison_lands (hmode : f.mode ≤ 2) (v : State) (u : MemUnit) : State.endPiece p i true ((v.markUnit p u).writePoison p f i none) =
    v.poisonedPiece p f i u := by
  rw [State.writePoison]
  rw [State.fillWrite_lands hmode, State.markUnit_spaceBase]; rfl

/-- A piece that failed, and whose poison is written. -/
theorem State.PieceReady.done_failed (h : s.PieceReady p i f) (hmode : f.mode ≤ 2)
    (hr : r = .readFailed u ce none ∧ v = s.memEvents (⟨u, some 0⟩ :: corrected ce) ∨ ∃ o, r = .writeFailed u o ce none ∧
      v = s.memEvents (⟨u, some ((s.getPart p).spaceBase p f.dstSpace + f.dst + 2048 * i + o)⟩ :: corrected ce)) :
    exec (.memFillPieceDone p i r) s = .next ((v.poisonedPiece p f i u).fillDone p) ∧ ∃ es, v = s.memEvents es := by
  rw [← State.writePoison_lands hmode]
  rcases hr with ⟨rfl, rfl⟩ | ⟨o, rfl, rfl⟩
  · exact ⟨h.done _, _, rfl⟩
  · exact ⟨h.done _, _, rfl⟩

theorem State.PieceReady.poisonedPiece_getPart (h : s.PieceReady p i f) (hv : v = s.memEvents es) (u : MemUnit) :
    (v.poisonedPiece p f i u).getPart p =
      { s.getPart p with fill := some { f with ended := f.ended ++ [i], failed := f.failed ++ [i], units := f.units ||| unitBit u } } := by
  have hpart : v.getPart p = { s.getPart p with fill := some f } := by rw [hv, State.memEvents_getPart, ← h.fill]
  exact State.endPiece_getPart (State.markUnit_getPart hpart u)

theorem State.poisonedPiece_getPart_ne (hv : v = s.memEvents es) (h : k ≠ p) : (v.poisonedPiece p f i u).getPart k = s.getPart k :=
  (State.endPiece_getPart_ne h).trans ((State.markUnit_getPart_ne h).trans (hv ▸ State.memEvents_getPart es s k))

theorem State.poisonedPiece_far (hv : v = s.memEvents es) : (v.poisonedPiece p f i u).far =
    s.far.writeN ((s.getPart p).spaceBase p f.dstSpace + f.dst + (f.poisonOf i).1) (f.poisonOf i).2 := by
  rw [hv, ← State.memEvents_far es s, ← State.memEvents_getPart es s]; rfl

/-- The poison of a failed piece reads where it lies; no other byte changes (R215, R216). -/
theorem State.poisonedPiece_read (hv : v = s.memEvents es) {lo len : Nat} {byte : Nat → Byte} (hlo : (f.poisonOf i).1 = lo)
    (hlen : (f.poisonOf i).2.length = len) (hbytes : ∀ j, j < len → nth 0 (f.poisonOf i).2 j = byte j) :
    (∀ j, j < len → (v.poisonedPiece p f i u).far.read ((s.getPart p).spaceBase p f.dstSpace + f.dst + lo + j) = byte j) ∧
    ∀ a, a < (s.getPart p).spaceBase p f.dstSpace + f.dst + lo ∨ (s.getPart p).spaceBase p f.dstSpace + f.dst + lo + len ≤ a →
      (v.poisonedPiece p f i u).far.read a = s.far.read a := by
  rw [State.poisonedPiece_far hv, hlo]
  constructor
  · intro j hj
    rw [Mem.read_writeN, if_pos (by omega), Nat.add_sub_cancel_left]
    exact hbytes j hj
  · intro a ha
    rw [Mem.read_writeN_out _ _ _ (by rwa [hlen])]

/-- The entry of a piece whose poison was refused too (R215). -/
def lostPieceArgs (p : Nat) (f : Fill) (i : Nat) (w : MemUnit) : LogArgs :=
  { kind := 7, code := .partialDone, part := p, unitKind := (unitIndex w).1, unit := (unitIndex w).2
    detail := [⟨0, 8, 2048 * i⟩, ⟨8, 4, f.pieceBytes i⟩] }

/-- Bytes that are free, each a value of its own (R215). -/
def State.freeBytes (s : State) (n : Nat) : List Byte := (List.range n).map fun j => Config.freeByte (s.free + j)

/-- Poison that is refused, where the format has no block groups: the piece's bytes are free, the unit counts, is marked and logged (R215). -/
theorem State.writePoison_refused (hmode : f.mode ≤ 2) (hmx : ¬ f.mx) (w : MemUnit) (o : Nat) (v : State) : v.writePoison p f i (some (w, o)) =
    ((State.memUe w ((v.getPart p).spaceBase p f.dstSpace + f.dst + 2048 * i + o) { v with
      far := v.far.writeN ((v.getPart p).spaceBase p f.dstSpace + f.dst + 2048 * i) (v.freeBytes (f.pieceBytes i))
      free := v.free + f.pieceBytes i }).markUnit p w).log (lostPieceArgs p f i w) := by
  have hlen : ∀ word width n, (wordFill word width n).length = n := fun _ _ _ => by simp [wordFill]
  rw [State.writePoison]
  rw [State.fillWrite_lands hmode, Fill.poisonOf_plain hmx, hlen]
  rfl

/-- A failed piece whose poison was refused too has left free bytes and ended. -/
def State.lostPiece (p : Nat) (f : Fill) (i : Nat) (u w : MemUnit) (o : Nat) (s : State) : State :=
  State.endPiece p i true (((s.memEvents [⟨u, some 0⟩]).markUnit p u).writePoison p f i (some (w, o)))

theorem State.PieceReady.done_lost (h : s.PieceReady p i f) (u w : MemUnit) (o : Nat) :
    exec (.memFillPieceDone p i (.readFailed u [] (some (w, o)))) s = .next ((s.lostPiece p f i u w o).fillDone p) := h.done _

/-- The state that the second unit's error meets: the first error has counted, and the piece's bytes are free. -/
def State.freedPiece (p : Nat) (f : Fill) (i : Nat) (u : MemUnit) (s : State) : State :=
  { (s.memEvents [⟨u, some 0⟩]).markUnit p u with
    far := s.far.writeN ((s.getPart p).spaceBase p f.dstSpace + f.dst + 2048 * i) (s.freeBytes (f.pieceBytes i)), free := s.free + f.pieceBytes i }

theorem State.lostPiece_eq (hmode : f.mode ≤ 2) (hmx : ¬ f.mx) (u w : MemUnit) (o : Nat) (s : State) : s.lostPiece p f i u w o = State.endPiece p i true
    (((State.memUe w ((s.getPart p).spaceBase p f.dstSpace + f.dst + 2048 * i + o) (s.freedPiece p f i u)).markUnit p w).log (lostPieceArgs p f i w)) := by
  have hfree : ((s.memEvents [⟨u, some 0⟩]).markUnit p u).free = s.free :=
    (congrArg State.free ((State.memEvents_countsErrors [⟨u, some 0⟩]).frame s) :)
  rw [State.lostPiece, State.writePoison_refused hmode hmx, State.markUnit_spaceBase, State.memEvents_getPart, State.freeBytes, hfree, State.freedPiece,
    State.freeBytes, ← State.memEvents_far [⟨u, some 0⟩] s]
  rfl

theorem State.freedPiece_getPart (p : Nat) (f : Fill) (i : Nat) (u : MemUnit) (s : State) (k : Nat) :
    (s.freedPiece p f i u).getPart k = ((s.memEvents [⟨u, some 0⟩]).markUnit p u).getPart k := rfl

theorem State.PieceReady.lostPiece_getPart (h : s.PieceReady p i f) (hmode : f.mode ≤ 2) (hmx : ¬ f.mx) (u w : MemUnit) (o : Nat) :
    (s.lostPiece p f i u w o).getPart p = { s.getPart p with
      fill := some { f with ended := f.ended ++ [i], failed := f.failed ++ [i], units := f.units ||| unitBit u ||| unitBit w } } := by
  have hfirst : (s.freedPiece p f i u).getPart p = { s.getPart p with fill := some { f with units := f.units ||| unitBit u } } :=
    (State.freedPiece_getPart p f i u s p).trans (State.markUnit_getPart ((State.memEvents_getPart [⟨u, some 0⟩] s p).trans h.part) u)
  rw [State.lostPiece_eq hmode hmx]
  refine State.endPiece_getPart (g := { f with units := f.units ||| unitBit u ||| unitBit w }) ?_
  rw [State.log_getPart]
  exact State.markUnit_getPart (f := { f with units := f.units ||| unitBit u }) ((State.memUe_getPart _ _ _ _).trans hfirst) w

theorem State.lostPiece_getPart_ne (hmode : f.mode ≤ 2) (hmx : ¬ f.mx) (o : Nat) (h : k ≠ p) : (s.lostPiece p f i u w o).getPart k = s.getPart k := by
  rw [State.lostPiece_eq hmode hmx, State.endPiece_getPart_ne h, State.log_getPart, State.markUnit_getPart_ne h, State.memUe_getPart,
    State.freedPiece_getPart, State.markUnit_getPart_ne h, State.memEvents_getPart]

theorem State.lostPiece_frame (hmode : f.mode ≤ 2) (hmx : ¬ f.mx) (u w : MemUnit) (o : Nat) (s : State) : ∃ mem faults irq pcie out part,
    s.lostPiece p f i u w o = { s with
      far := s.far.writeN ((s.getPart p).spaceBase p f.dstSpace + f.dst + 2048 * i) (s.freeBytes (f.pieceBytes i)), free := s.free + f.pieceBytes i
      mem := mem, faults := faults, irq := irq, pcie := pcie, out := out, part := part } := by
  rw [State.lostPiece_eq hmode hmx, State.log_frame, State.markUnit, (State.memUe_countsErrors w _).frame, State.freedPiece,
    (State.memEvents_countsErrors _).frame]
  exact ⟨_, _, _, _, _, _, rfl⟩

/-- The log records the piece (R215, R430). -/
theorem State.lostPiece_newest (hmode : f.mode ≤ 2) (hmx : ¬ f.mx) (u w : MemUnit) (o : Nat) (s : State) :
    ∃ e, (s.lostPiece p f i u w o).newest = some e ∧ e.kind = 7 ∧ e.code = .partialDone ∧ e.part = p ∧ fld e.detail 0 8 = 2048 * i % 2 ^ 64 ∧
      fld e.detail 8 4 = f.pieceBytes i % 2 ^ 32 ∧ (e.unitKind, e.unit) = unitIndex w := by
  rw [State.lostPiece_eq hmode hmx]
  refine ⟨_, State.log_newest _ _, rfl, rfl, rfl, ?_, ?_, rfl⟩
  · exact fld_record_head _ _ _ _ (by decide)
  · exact (fld_record_skip _ _ (.inr (by simp)) (by decide)).trans (fld_record_head _ _ _ _ (by decide))

/-- The free bytes of the piece, each of its own; no other byte changes (R215). -/
theorem State.read_freeBytes (m : Mem) (dst n : Nat) (s : State) :
    (∀ j, j < n → (m.writeN dst (s.freeBytes n)).read (dst + j) = Config.freeByte (s.free + j)) ∧
    ∀ a, a < dst ∨ dst + n ≤ a → (m.writeN dst (s.freeBytes n)).read a = m.read a := by
  refine ⟨fun j hj => ?_, fun a ha => Mem.read_writeN_out _ _ _ (by simpa [State.freeBytes] using ha)⟩
  rw [Mem.read_writeN, if_pos (by simp [State.freeBytes, hj]), Nat.add_sub_cancel_left]
  exact nth_map_range _ _ hj

/-- A piece with host memory fails once the host port has been in reset (R389). -/
theorem State.pieceEnd_gone (hgone : s.hostGone f = true) (data : List Byte) (ce : List MemUnit) :
    (f.mode = 2 → s.pieceEnd f (.ok data ce) = .readFailed .host ce none) ∧
    (f.mode = 3 → s.pieceEnd f (.ok data ce) = .writeFailed .host 0 ce (some (.host, 0))) :=
  ⟨fun h => by simp [State.pieceEnd, hgone, h], fun h => by simp [State.pieceEnd, hgone, h]⟩

/-- A state whose host port is in reset, or was during the transfer, gives nothing to the host (R389). -/
theorem State.fillWrite_gone (hmode : f.mode = 3) (hgone : s.hostGone f = true) (off : Nat) (bs : List Byte) : s.fillWrite p f off bs = s :=
  (if_neg (by simp [Fill.lands, hmode])).trans (if_pos hgone)

theorem State.writePoison_gone (hmode : f.mode = 3) (hgone : s.hostGone f = true) : s.writePoison p f i (some (.host, 0)) =
    (State.markUnit p .host { s with free := s.free + (f.poisonOf i).2.length }).log (lostPieceArgs p f i .host) := by
  rw [State.writePoison]
  rw [State.fillWrite_gone hmode hgone]
  rfl

/-- A piece for the host that no longer takes it has ended, marked and logged (R215, R389). -/
def State.gonePiece (p : Nat) (f : Fill) (i : Nat) (s : State) : State :=
  State.endPiece p i true ((s.markUnit p .host).writePoison p f i (some (.host, 0)))

theorem State.PieceReady.done_gone (h : s.PieceReady p i f) :
    exec (.memFillPieceDone p i (.writeFailed .host 0 [] (some (.host, 0)))) s = .next ((s.gonePiece p f i).fillDone p) := h.done _

/-- The state that the second mark of a piece for the host meets. -/
def State.goneMarked (p : Nat) (f : Fill) (i : Nat) (s : State) : State :=
  { s.markUnit p .host with free := (s.markUnit p .host).free + (f.poisonOf i).2.length }

theorem State.gonePiece_eq (hmode : f.mode = 3) (hgone : s.hostGone f = true) :
    s.gonePiece p f i = State.endPiece p i true (((s.goneMarked p f i).markUnit p .host).log (lostPieceArgs p f i .host)) :=
  congrArg _ (State.writePoison_gone (s := s.markUnit p .host) hmode hgone)

theorem State.PieceReady.gonePiece_getPart (h : s.PieceReady p i f) (hmode : f.mode = 3) (hgone : s.hostGone f = true) :
    (s.gonePiece p f i).getPart p = { s.getPart p with
      fill := some { f with ended := f.ended ++ [i], failed := f.failed ++ [i], units := f.units ||| 2 ^ 29 } } := by
  have hfirst : (s.goneMarked p f i).getPart p = { s.getPart p with fill := some { f with units := f.units ||| unitBit .host } } :=
    State.markUnit_getPart h.part .host
  rw [State.gonePiece_eq hmode hgone]
  refine State.endPiece_getPart (g := { f with units := f.units ||| 2 ^ 29 }) ?_
  rw [State.log_getPart, State.markUnit_getPart hfirst, Nat.or_assoc, Nat.or_self]
  rfl

theorem State.gonePiece_far (hmode : f.mode = 3) (hgone : s.hostGone f = true) : (s.gonePiece p f i).far = s.far := by
  rw [State.gonePiece_eq hmode hgone, State.log_frame]; rfl

/-- A message of the function is all that an interrupt gives to the outside (R384). -/
theorem State.settle_out_mem {o : Output} (h : o ∈ s.settle.out) : o ∈ s.out ∨ o = .msix s.pcie.msgAddr s.pcie.msgData := by
  unfold State.settle State.sendMsix at h
  dsimp only at h
  split at h
  · split at h
    · exact .inl h
    · split at h
      · exact .inl h
      · simpa using h
  · split at h <;> exact .inl h

theorem State.raise_out_mem {c : Cause} {o : Output} (h : o ∈ (s.raise c).out) : o ∈ s.out ∨ o = .msix s.pcie.msgAddr s.pcie.msgData :=
  State.settle_out_mem (s := { s with irq := { s.irq with status := s.irq.status.modify c.group (· ||| BitVec.twoPow 32 c.bit) } }) h

theorem State.log_out_mem {a : LogArgs} {o : Output} (h : o ∈ (s.log a).out) : o ∈ s.out ∨ o = .msix s.pcie.msgAddr s.pcie.msgData := by
  unfold State.log at h
  dsimp only at h
  split at h
  · have hraise := State.raise_out_mem h
    exact hraise
  · exact .inl h

theorem State.gonePiece_out_mem (hmode : f.mode = 3) (hgone : s.hostGone f = true) {o : Output} (h : o ∈ (s.gonePiece p f i).out) :
    o ∈ s.out ∨ o = .msix s.pcie.msgAddr s.pcie.msgData := by
  rw [State.gonePiece_eq hmode hgone] at h
  exact State.log_out_mem (s := (s.goneMarked p f i).markUnit p .host) h

end

/-- Settles O34: a piece that may end changes the state by `State.goodPiece`, `State.poisonedPiece`, `State.lostPiece` or `State.gonePiece`, and
`State.fillDone` goes on from there with the transfer or answers its command. -/
theorem memFillPieces : Obligations.MemFillPieces := by
  unfold Obligations.MemFillPieces
  refine ⟨?command, fun s p i r h => congrArg Host.Outcome.next (State.memFillPieceDone_none h), ?pieces, memEvents_one⟩
  case command =>
    intro s ch h b f hc hf
    rw [exec_memFill hc]
    refine ⟨fun hbad => by rw [State.memFillOwn_refused hf hbad], fun hfields hranges => ?_⟩
    rw [State.memFillOwn_accepted hf hfields hranges]
    refine ⟨_, rfl, ?_, fun k hk => (State.getPart_updPart_ne _ _ _ _ hk).trans (s.startWake_getPart k), fun hawake => ?_, fun hparked => ?_⟩
    · rw [State.getPart_updPart_same, State.startWake_getPart]
    · rw [State.startWake_of_awake hawake]; rfl
    · obtain ⟨_, _, _, _, _, hwake⟩ := State.startWake_of_parked hparked
      rw [hwake]
      exact ⟨rfl, rfl⟩
  case pieces =>
    rintro s p i n f q rfl hfill hawake hlt hfresh hopen rfl
    have hready : s.PieceReady p i f := ⟨hfill, hawake, hlt, hfresh, hopen⟩
    refine ⟨?good, ?host, ?failed, ?lost, ?gone⟩
    case good =>
      rintro dst data ce v rfl hmode hhost rfl
      have hdone := hready.done_good hmode hhost data ce
      have hmine := hready.goodPiece_getPart data ce
      have hothers : ∀ k, k ≠ p → (s.goodPiece p f i data ce).getPart k = s.getPart k := fun k => State.goodPiece_getPart_ne
      constructor
      · intro hplain
        obtain ⟨hin, hout⟩ := State.landedFar_whole (s := s) (p := p) (i := i) (data := data) hmode (hplain.imp_right fun h ⟨h4, h8⟩ => by omega)
        by_cases hmore : f.ended.length + 1 < f.pieces
        · exact ⟨_, fun _ => ⟨hdone.trans (congrArg _ (State.fillDone_waits hmine hmore)), hmine⟩, fun h => absurd h hmore.ne, hin,
            fun h => absurd h hmore.ne, hout, hothers, fun _ => rfl⟩
        by_cases hfailed : f.failed = []
        · exact ⟨State.closeFill p _, fun h => absurd h hmore, fun _ _ => ⟨State.closeFill_getPart hmine, hdone.trans (congrArg _
            (State.fillDone_ok hmine hmore hfailed))⟩, hin, fun _ h => absurd hfailed h, hout,
            fun k hk => (State.getPart_updPart_ne _ _ _ _ hk).trans (hothers k hk), fun _ => rfl⟩
        · refine ⟨State.closePartial p _, fun h => absurd h hmore, fun _ h => absurd h hfailed, fun j hj => ?_, fun _ _ => ⟨hdone.trans (congrArg _
            (State.fillDone_partial hmine hmore hfailed)), State.closePartial_getPart hmine⟩, fun a ha => ?_,
            fun k hk => (State.closePartial_getPart_ne hk _).trans (hothers k hk), fun h => absurd h (not_or.2 ⟨hmore, hfailed⟩)⟩
          · rw [State.closePartial_far]; exact hin j hj
          · rw [State.closePartial_far]; exact hout a ha
      · intro k hfailed hki h4 h8 hmore
        obtain ⟨hin, hout⟩ := State.landedFar_beside (s := s) (p := p) (data := data) hmode ⟨h4, h8⟩ hfailed hki hlt
        exact ⟨_, hdone.trans (congrArg _ (State.fillDone_waits hmine hmore)), hin, hout, hmine, hothers, rfl⟩
    case host =>
      intro data hmode hperst hlost hplain hmore
      have hdone := hready.done (.ok data [])
      rw [State.pieceEnd_good fun _ => ⟨hperst, hlost⟩, State.pieceEffect_toHost hmode (by simp [State.hostGone, hperst, hlost])
        (Fill.goodPart_whole (.inr fun ⟨h4, h8⟩ => by omega) i)] at hdone
      have hmine := State.endPiece_getPart (i := i) (b := false) hready.part
      exact ⟨_, hdone.trans (congrArg _ (State.fillDone_waits hmine hmore)), rfl, hmine, fun k hk => State.endPiece_getPart_ne hk, rfl⟩
    case failed =>
      rintro dst lo len ub u ce r word width v hmode rfl hub hr hlo hword hwidth
      obtain rfl : ub = unitBit u := hub
      obtain ⟨hat, hlen, hbytes⟩ := Fill.poisonOf_spec hlo hword hwidth
      obtain ⟨hdone, es, hv⟩ := hready.done_failed hmode hr
      have hmine := hready.poisonedPiece_getPart hv u
      obtain ⟨hin, hout⟩ := State.poisonedPiece_read (p := p) (u := u) hv hat hlen hbytes
      have hothers : ∀ k, k ≠ p → (v.poisonedPiece p f i u).getPart k = s.getPart k := fun k => State.poisonedPiece_getPart_ne hv
      by_cases hmore : f.ended.length + 1 < f.pieces
      · exact ⟨_, fun _ => ⟨hdone.trans (congrArg _ (State.fillDone_waits hmine hmore)), hmine, rfl⟩, fun h => absurd h hmore.ne, hin, hout, hothers⟩
      · have hlast := State.fillDone_partial hmine hmore (by simp)
        rw [foldl_min_headD_append, List.length_append] at hlast
        refine ⟨State.closePartial p _, fun h => absurd h hmore,
          fun _ => ⟨hdone.trans (congrArg _ hlast), State.closePartial_getPart hmine, fun h => ?_, ?_⟩, fun j hj => ?_, fun a ha => ?_, fun k hk => (State.closePartial_getPart_ne hk _).trans (hothers k hk)⟩
        · exact State.closePartial_caused ((hv ▸ (State.memEvents_countsErrors es).status s).trans h)
        · rw [State.closePartial_frame]; rfl
        · rw [State.closePartial_far]; exact hin j hj
        · rw [State.closePartial_far]; exact hout a ha
    case lost =>
      rintro u w o ub wb dst hmode hplain hmore rfl rfl rfl
      have hmx : ¬ f.mx := fun ⟨h4, h8⟩ => by omega
      have hmine := hready.lostPiece_getPart hmode hmx u w o
      obtain ⟨e, hnewest, hkind, hcode, hpart, hoff, hlen, hunit⟩ := State.lostPiece_newest (p := p) (i := i) hmode hmx u w o s
      obtain ⟨_, _, _, _, _, _, hframe⟩ := State.lostPiece_frame (p := p) (i := i) hmode hmx u w o s
      obtain ⟨hin, hout⟩ := State.read_freeBytes s.far ((s.getPart p).spaceBase p f.dstSpace + f.dst + 2048 * i) (f.pieceBytes i) s
      refine ⟨_, e, (hready.done_lost u w o).trans (congrArg _ (State.fillDone_waits hmine hmore)), hnewest, hkind, hcode, hpart, hoff, hlen, hunit,
        fun j hj => ?_, ?_, fun a ha => ?_, hmine, fun k hk => State.lostPiece_getPart_ne hmode hmx o hk, ?_⟩
      · rw [hframe]; exact hin j hj
      · rw [hframe]
      · rw [hframe]; exact hout a ha
      · rw [hframe]
    case gone =>
      intro data ce hlost
      have hgone : s.hostGone f = true := by rcases hlost with h | h <;> simp [State.hostGone, h]
      obtain ⟨hread, hwrite⟩ := State.pieceEnd_gone hgone data ce
      refine ⟨fun hmode => ?_, fun hmode => ⟨?_, ?_⟩⟩
      · rw [hready.done, hready.done, hread hmode]; rfl
      · rw [hready.done, hready.done, hwrite hmode]; rfl
      · rintro rfl hmore
        have hmine := hready.gonePiece_getPart hmode hgone
        refine ⟨_, ?_, State.gonePiece_far hmode hgone, fun o ho => State.gonePiece_out_mem hmode hgone ho, hmine⟩
        rw [← State.fillDone_waits hmine hmore, ← hready.done_gone, hready.done, hready.done, hwrite hmode]
        rfl

end Sys2Proof.Machine
end
